-- ==== Sys2Proof/Word.lean ====
section
/-! DEFINITION. The word types of the model. Registers are 64 bits wide (R6); packets, memory and images are bytes (R3). -/

namespace Sys2Proof

/-- One byte. -/
abbrev Byte := BitVec 8

/-- One control-space register, or one word of a 64-bit access (R6). -/
abbrev Word := BitVec 64

/-- One 128-bit word of a wide access or of a scratchpad bank (R6, R253). -/
abbrev Wide := BitVec 128

end Sys2Proof
end

