-- ==== Sys2Proof/Syntax.lean ====
section
/-! DEFINITION. The commands of the device: one constructor per row of the opcode table, with the operands the row's
event carries from outside (a packet, an address and data, a measurement). -/

namespace Sys2Proof

/-- The route a Chanter packet arrives by (R48): the device's own I3C target, the host bridge on port 0 of the root,
or, at a device that is not the root, the root itself. -/
inductive Route | i3c | bridge | root
  deriving DecidableEq, Repr

/-- A Chanter command packet whose header and payload CRCs, length and reserved header bits are good
(checks 1 to 4 of R47 are passed; `I3C_PRIVATE_WRITE` and `WW_CHANTER_PACKET` make them on raw bytes). -/
structure Pkt where
  route   : Route
  tag     : BitVec 16
  /-- Bit 0 URGENT, bit 1 EVENT_ON_DONE, bit 2 FORWARD (Table 2.4). -/
  flags   : BitVec 3
  dest    : BitVec 12
  payload : List Byte
  deriving DecidableEq, Repr

/-- The transfer mode of an I3C private transfer: SDR, or HDR-DDR with a command code (Table 2.1). -/
inductive I3cMode | sdr | ddr (code : Byte)
  deriving DecidableEq, Repr

/-- How a common command is addressed: to every target, or to one address; `bad` where the target detects a target error of the
MIPI specification in it, whatever its address (R40). -/
inductive CccDst | broadcast | direct (addr : BitVec 7) | bad
  deriving DecidableEq, Repr

/-- The address that a transfer names or gives; `bad` where the target detects a target error in the transfer (R40). -/
inductive I3cTo | addr (a : BitVec 7) | bad
  deriving DecidableEq, Repr

/-- What a channel's comparators show around one UI, at the balls: the levels before the first transition listed, and each
transition in time order as (offset from the UI start in 0.25 ps units, true for CMPL and false for CMPH, level after)
(R92 to R94). -/
structure PinObs where
  cmph  : Bool
  cmpl  : Bool
  trans : List (Int × Bool × Bool)
  deriving DecidableEq, Repr

/-- What the flash returns to a flash load (R227): the copy of the slot table that is being read, or the next bytes of the image. -/
inductive FlashPart
  | table (copy : List Byte)
  | image (bytes : List Byte)
  deriving DecidableEq, Repr

/-- What the check of a row access finds (R286): granules of the row with a single-bit error, and uncorrectable ones with
the syndrome of the first. -/
structure GranFlaws where
  corr : List (BitVec 7)
  bad  : List (BitVec 7)
  synd : Byte
  deriving DecidableEq, Repr

/-- A DRAM command with a parity error (R286): the ACTIVATE, the transfer or the PRECHARGE of a row access; or, in its place, a
REFRESH, the power-down of a rank, or the exit from self-refresh. -/
inductive DrParity | activate | transfer | precharge | refresh | powerDown (rank : Fin 4) | selfExit
  deriving DecidableEq, Repr

/-- A request at the DRAM controller (R274): a network request held by a buffer of an NI, or a whole-row request of a
row-port user at an address: a read, of the RT class or not, or the write-back of a bitmap line. `perr`: where it wakes a rank,
that command has a parity error (R282, R286). -/
inductive DrSrc
  | net (ni : Fin 288) (idx : Fin 512) (perr : Bool)
  | rowRead (rt : Bool) (addr : BitVec 33) (perr : Bool)
  | rowOr (addr : BitVec 33) (perr : Bool)
  deriving DecidableEq, Repr

/-- The header of a Windway packet as it arrives (Table 13.4). -/
structure WwHdr where
  cls    : BitVec 2
  epoch  : Bool
  src    : BitVec 12
  dst    : BitVec 12
  route  : BitVec 36
  hops   : BitVec 4
  hopix  : BitVec 4
  rroute : BitVec 36
  deriving DecidableEq, Repr

/-- The network request that a REQ carries unchanged (R347, Table 11.3). -/
structure WwRequest where
  ni   : Fin 288
  idx  : Fin 512
  ep   : Fin 4
  kind : BitVec 4
  addr : BitVec 48
  /-- LEN: words less one. -/
  len  : Fin 16
  rbe  : BitVec 16
  bes  : List (BitVec 16)
  data : List Wide
  deriving DecidableEq, Repr

/-- The network response that a RSP carries unchanged (R347, Table 11.4). -/
structure WwResponse where
  ni     : Fin 288
  idx    : Fin 512
  ep     : Fin 4
  code   : BitVec 3
  detail : Byte
  word   : Fin 16
  data   : List Wide
  deriving DecidableEq, Repr

/-- What a path write sets: the device's ID, with the IDs of its ports' partners, or an entry of its inactive bank (R340). -/
inductive WwPathWrite
  | ident (id : BitVec 12) (partners : List (BitVec 12))
  | entry (d : BitVec 12) (e : Word)
  deriving DecidableEq, Repr


/-- A request as an agent hands it to its NI (R296, R298): a design's request through its region NI, the next read or
write of the channel in the NI's DMA engine, the next access of a peek or poke that waits (R72), the next record or imported entry
of the repair-analysis engine (R182, R185), or a Tongue completion word that waits (R243). -/
inductive NiAsk
  | design (kind : BitVec 4) (dev : Option (BitVec 12)) (addr : BitVec 48) (len : Fin 16) (rbe : BitVec 16)
      (bes : List (BitVec 16)) (data : List Wide)
  | dma (write : Bool)
  | chanter
  | rae
  | tongue
  deriving DecidableEq, Repr

/-- What a UPORT packet carries (R124, R296): user vectors, or an update of the user flags. -/
inductive UportLoad
  | vectors (vs : List (BitVec 256))
  | flags (f : Byte)
  deriving DecidableEq, Repr

/-- A domain of the network (R309). -/
inductive NetDomain
  | region (r : Fin 192)
  | engine (k : Fin 16)
  | group (g : Fin 32)
  | port (p : Fin 8)
  | dram
  deriving DecidableEq, Repr

/-- What a slice or a targeted test yields (R378): the end state of Table 15.2 that the test itself gives, steps done and
expected, the signature, and whether it matches the expected value. -/
structure TestYield where
  endSt : Fin 5
  done  : BitVec 16
  exp   : BitVec 16
  sig   : Word
  sigOk : Bool
  deriving DecidableEq, Repr

/-- What Ligature finds in a frame beside single-bit errors (R392): nothing, an uncorrectable word, or a CRC mismatch whose
first failing word is named. -/
inductive LgFind | clean | word (w : Fin 20) | crc (w : Fin 20)
  deriving DecidableEq, Repr

/-- A command: one constructor per row of the opcode table. -/
inductive Instr
  /-- VDD_AON_VALID (R23). VDD_AON becomes valid and the device moves from OFF to POR. -/
  | vddAonValid
  /-- VDD_AON_LOST (R23). VDD_AON is lost and the device enters OFF from any state. -/
  | vddAonLost
  /-- RAIL_VALID (R400). A supply rail rises to 92 % of nominal; POR may end once all rails, LOGIC_PG, REFCLK and RESET_N allow it, and a sequence violation is recorded. -/
  | railValid (rail : Fin 11) (aux18 : Bool)
  /-- RAIL_LOST (R405). A rail other than VDD_AON or VDD_AUX stays below 88 % for 1 µs and acts as RESET_N held low with CAUSE 0x01. -/
  | railLost (rail : Fin 11)
  /-- VDD_AUX_LOST (R405). VDD_AUX is lost; AUX_IO and PROBE pins go high-impedance and EV_PWR_AUX_LOST is raised without a reset. -/
  | vddAuxLost
  /-- RESET_N_LOW (R406). A filtered low pulse on RESET_N of at least the filter threshold holds every island except always-on in reset with DEN low. -/
  | resetNLow
  /-- RESET_N_RELEASE (R406). RESET_N rises; straps are sampled and the device enters BOOT from POR or a reset. -/
  | resetNRelease (addrSel : BitVec 2) (bootSrc : BitVec 2)
  /-- REFCLK_LOSS (R410). REFCLK has no edge for 200 ns or drifts beyond 1,000 ppm, acting as RESET_N held low. -/
  | refclkLoss (noEdge : Bool)
  /-- REFCLK_RETURN (R410). REFCLK has been present and within limits for 1 ms with RESET_N high, and the device enters BOOT. -/
  | refclkReturn
  /-- COOLANT_OK_FALL (R370). The filtered COOLANT_OK goes low; every zone is forced to S = 64 and the 5 ms count starts. -/
  | coolantOkFall
  /-- COOLANT_OK_RISE (R370). The filtered COOLANT_OK goes high; logic power may be switched on and the 1 s forced-throttle count starts. -/
  | coolantOkRise (lowUs : Nat)
  /-- COOLANT_LOW_5MS (R371). COOLANT_OK has stayed low for 5 ms outside POR and the device shuts down. -/
  | coolantLow5ms
  /-- COOLANT_FORCED_END (R370). COOLANT_OK has been high for 1 s; coolant_forced ends and EV_TH_COOLANT_RESTORED is raised. -/
  | coolantForcedEnd
  /-- BOOT_DONE (R23). BOOT finishes loading fuses, repair maps, ROM check and firmware verification and enters FW or RECOVERY. -/
  | bootDone
  /-- SHUTDOWN_SENSOR_READ (R372). In SHUTDOWN the always-on island reads every sensor once per millisecond to test the restart condition. -/
  | shutdownSensorRead (readings : List (Option Int)) (outlet : Int)
  /-- SHUTDOWN_RESTART (R372). The restart condition has held for 1 s and the device leaves SHUTDOWN for BOOT with CAUSE 0x06 or 0x08. -/
  | shutdownRestart
  /-- I3C_PRIVATE_WRITE (R39). A private write delivers one Chanter packet, which is checked under R47 and executed, queued or refused. -/
  | i3cPrivateWrite (addr : BitVec 7) (mode : I3cMode) (busErr : Bool) (bytes : List Byte)
  /-- I3C_PRIVATE_READ (R39). A private read returns the oldest waiting reply in MRL-sized parts, or is NACKed when nothing waits. -/
  | i3cPrivateRead (addr : I3cTo) (mode : I3cMode)
  /-- HDR_OTHER_MODE (R35). An unsupported HDR transfer is ignored until the HDR exit pattern. -/
  | hdrOtherMode
  /-- UNSUPPORTED_CCC (R35). An unsupported common command is NACKed in directed form and ignored in broadcast form. -/
  | unsupportedCcc (dst : CccDst)
  /-- ENEC (R42). The common command ENEC enables in-band interrupts. -/
  | enec (dst : CccDst) (intr : Bool) (hotJoin : Bool)
  /-- DISEC (R42). The common command DISEC disables in-band interrupts. -/
  | disec (dst : CccDst) (intr : Bool) (hotJoin : Bool)
  /-- RSTDAA (R37). The common command RSTDAA clears the dynamic address so the static address answers again. -/
  | rstdaa
  /-- ENTDAA (R37). The device takes part in dynamic address assignment and then answers only at its dynamic address. -/
  | entdaa (dyn : I3cTo)
  /-- SETDASA (R37). The controller assigns a dynamic address to the device at its static address. -/
  | setdasa (addr : I3cTo) (dyn : BitVec 7)
  /-- SETNEWDA (R35). The controller changes the device's dynamic address. -/
  | setnewda (addr : I3cTo) (dyn : BitVec 7)
  /-- SETMWL (R39). Sets the maximum write length if it lies between 64 and 4,116. -/
  | setmwl (dst : CccDst) (len : BitVec 16)
  /-- SETMRL (R39). Sets the maximum read length if it lies between 64 and 4,116. -/
  | setmrl (dst : CccDst) (len : BitVec 16)
  /-- GETMWL (R39). Returns the maximum write length. -/
  | getmwl (addr : I3cTo)
  /-- GETMRL (R39). Returns the maximum read length and an IBI payload size of 1. -/
  | getmrl (addr : I3cTo)
  /-- GETPID (R38). Returns the fixed provisional ID with manufacturer, part, strap and revision fields. -/
  | getpid (addr : I3cTo)
  /-- GETBCR (R38). Returns bus characteristics 0x06. -/
  | getbcr (addr : I3cTo)
  /-- GETDCR (R38). Returns device characteristics 0x00. -/
  | getdcr (addr : I3cTo)
  /-- GETSTATUS (R40). Returns replies waiting, protocol error, state, event and slot flags and clears the protocol error bit. -/
  | getstatus (addr : I3cTo)
  /-- GETMXDS (R38). Returns two zero bytes for full speed. -/
  | getmxds (addr : I3cTo)
  /-- RSTACT (R41). Arms a reset action to be performed at the next Target Reset Pattern. -/
  | rstact (dst : CccDst) (action : Byte)
  /-- TARGET_RESET_PATTERN (R41). The Target Reset Pattern performs the armed action (Chanter restart or warm reset) and disarms. -/
  | targetResetPattern
  /-- EVENT_IBI_REPEAT (R43). Every 10 ms with unmasked events pending and no event read, the event IBI is requested again. -/
  | eventIbiRepeat
  /-- FW_WATCHDOG (R59). The firmware fails to service the watchdog for 100 ms and Chanter is restarted. -/
  | fwWatchdog
  /-- CHANTER_RESTART_DONE (R58). The restarted firmware ends every command still in flight and resumes taking packets. -/
  | chanterRestartDone
  /-- CH_SYS_NOP (R71). Echoes its payload. -/
  | chSysNop (p : Pkt)
  /-- CH_SYS_IDENTIFY (R71). Returns the 64-byte identity of the device. -/
  | chSysIdentify (p : Pkt)
  /-- CH_SYS_STATUS (R71). Returns SYS_STATE, CH_QSTAT, EVQ_STAT and the system time base. -/
  | chSysStatus (p : Pkt)
  /-- CH_SYS_PEEK (R72). Reads words of the local address space in address order through the network. -/
  | chSysPeek (p : Pkt)
  /-- CH_SYS_POKE (R72). Writes words of the local address space in address order, stopping at the first failure. -/
  | chSysPoke (p : Pkt)
  /-- CH_SYS_RESET (R74). Requests a warm reset, Chanter restart or targeted reset of a region, engine, group, channel, port or controller. -/
  | chSysReset (p : Pkt)
  /-- SYS_RESET_TAKES_EFFECT (R74). The warm reset requested by CH_SYS_RESET kind 0x00 takes effect after its reply is delivered or held 10 ms. -/
  | sysResetTakesEffect
  /-- TARGETED_RESET_DONE (R74). A targeted reset completes, its domain reopens and the command ends with ST_OK. -/
  | targetedResetDone (kind : Fin 8) (index : BitVec 16)
  /-- CH_SYS_ABORT (R57). Aborts a named command in flight, with one of the outcomes of the abort table. -/
  | chSysAbort (p : Pkt)
  /-- CH_SYS_EVENT_READ (R62). Returns and removes (or peeks) queued events, queueing an overflow event when room appears. -/
  | chSysEventRead (p : Pkt)
  /-- CH_SYS_EVENT_MASK (R63). Writes EVQ_MASK and returns the value in force. -/
  | chSysEventMask (p : Pkt)
  /-- CH_SYS_NOTICE (R69). Enables or disables event notices. -/
  | chSysNotice (p : Pkt)
  /-- CH_SYS_FW_INFO (R71). Returns versions of both firmware copies and the update session state. -/
  | chSysFwInfo (p : Pkt)
  /-- CH_SYS_FW_BEGIN (R76). Invalidates the target copy's header and opens an update session. -/
  | chSysFwBegin (p : Pkt)
  /-- CH_SYS_FW_DATA (R76). Writes data into the open firmware update session. -/
  | chSysFwData (p : Pkt)
  /-- CH_SYS_FW_COMMIT (R76). Verifies the written copy and writes the header that validates it. -/
  | chSysFwCommit (p : Pkt)
  /-- FW_COMMIT_DONE (R77). A successful commit raises EV_SYS_FW_UPDATED and enters BOOT or restarts Chanter as the state requires. -/
  | fwCommitDone
  /-- WW_CHANTER_PACKET (R66). A Chanter packet arrives over Windway and is executed if sent by the root, otherwise discarded as foreign. -/
  | wwChanterPacket (src : BitVec 12) (bridge : Bool) (bytes : List Byte)
  /-- FWD_REPLY_ARRIVAL (R67). The root receives a reply from a destination device and passes it to the host, or discards it as late. -/
  | fwdReplyArrival (src : BitVec 12) (bytes : List Byte)
  /-- FWD_TIMEOUT (R68). No reply from the destination within 100 ms and the root ends the forwarded command with ST_TIMEOUT. -/
  | fwdTimeout (dest : BitVec 12) (tag : BitVec 16)
  /-- CH_CNT_CLR (R70). Write that clears CH_CNT_A or CH_CNT_B. -/
  | chCntClr (data : Word)
  /-- EVQ_MASK_WRITE (R63). A write of EVQ_MASK re-decides which queued entries are unmasked and may request an event IBI. -/
  | evqMaskWrite (data : Word)
  /-- EVQ_CLR_LOST (R70). Write of EVQ_CTL.CLR_LOST clears the lost-event counters. -/
  | evqClrLost
  /-- EVQ_FLUSH (R70). Write of EVQ_CTL.FLUSH removes every queued entry without counting it lost. -/
  | evqFlush
  /-- REGISTER_WRITE (R8). A write to a register without behaviour of its own stores or ignores fields as its access codes give. -/
  | registerWrite (addr : BitVec 48) (data : Word)
  /-- ENGINE_CYCLE (R109). A pattern engine issues one instruction and emits one cycle of drive, expect, mask and timeset words. -/
  | engineCycle (pe : Fin 16)
  /-- NEXT (R112). Instruction that falls through to the next address. -/
  | seqNext (pe : Fin 16) (word : BitVec 256)
  /-- JMP (R112). Instruction that continues at TGT. -/
  | seqJmp (pe : Fin 16) (word : BitVec 256)
  /-- JC (R112). Instruction that continues at TGT if its condition holds. -/
  | seqJc (pe : Fin 16) (word : BitVec 256)
  /-- CALL (R114). Instruction that pushes the return address and continues at TGT. -/
  | seqCall (pe : Fin 16) (word : BitVec 256)
  /-- RET (R114). Instruction that pops the return address and continues there. -/
  | seqRet (pe : Fin 16) (word : BitVec 256)
  /-- LOOP (R112). Instruction that decrements a loop counter and branches to TGT while it is not zero. -/
  | seqLoop (pe : Fin 16) (word : BitVec 256)
  /-- LDLC (R112). Instruction that loads a loop counter from IMMA. -/
  | seqLdlc (pe : Fin 16) (word : BitVec 256)
  /-- REPEAT (R112). Instruction issued IMMA times in consecutive cycles. -/
  | seqRepeat (pe : Fin 16) (word : BitVec 256)
  /-- WAITF (R112). Instruction that holds until its condition is true. -/
  | seqWaitf (pe : Fin 16) (word : BitVec 256)
  /-- WAITF_TIMEOUT (R112). A WAITF has held IMMA cycles with its condition false and continues at TGT. -/
  | waitfTimeout (pe : Fin 16)
  /-- SYNC (R134). Instruction that holds until the next SYNC-period tick with no member hold in effect. -/
  | seqSync (pe : Fin 16) (word : BitVec 256)
  /-- SYNC_TICK (R134). The qualifying SYNC tick arrives and the engine resumes at its next grid cycle boundary. -/
  | syncTick (pe : Fin 16) (tick : Nat)
  /-- PAUSE (R112). Instruction that enters PAUSED until resumed. -/
  | seqPause (pe : Fin 16) (word : BitVec 256)
  /-- HALT (R129). Instruction that ends the run in DONE after its cycle. -/
  | seqHalt (pe : Fin 16) (word : BitVec 256)
  /-- HOLD_CYCLE (R127). At a pause point with a hold cause present the engine emits a hold cycle repeating the previous one with compare masked. -/
  | holdCycle (pe : Fin 16)
  /-- HOLD_LONG (R127). A hold has lasted 1 ms and EV_PE_HOLD_LONG is raised. -/
  | holdLong (pe : Fin 16)
  /-- PE_START_TICK (R130). The start tick of an armed run arrives and cycle 0 begins. -/
  | peStartTick (pe : Fin 16) (tick : Nat)
  /-- STREAM_PREFILL_DONE (R122). The stream buffer of an armed engine is full or holds the whole stream, allowing the run to start. -/
  | streamPrefillDone (pe : Fin 16)
  /-- STREAM_READ_RESPONSE (R123). A stream read returns vectors into the engine's stream buffer or an error that faults the run when due. -/
  | streamReadResponse (pe : Fin 16) (rsp : Fin 6) (count : Nat)
  /-- UPORT_VECTOR_ARRIVAL (R124). A user vector from the design enters the engine's user-port buffer. -/
  | uportVectorArrival (pe : Fin 16) (vec : BitVec 256)
  /-- UPORT_FLAG_UPDATE (R124). The design updates the engine's user flags UF0 to UF7. -/
  | uportFlagUpdate (pe : Fin 16) (flags : Byte)
  /-- PE_IM_DATA_WRITE (R135). A write of the upper half of PE_IM_DATA stores one instruction at PE_IM_ADDR and may advance it. -/
  | peImDataWrite (pe : Fin 16) (hi : BitVec 128)
  /-- PE_STOPBIND_WRITE (R126). A write binding regions to an engine, refused if another engine holds a region or a run is in progress. -/
  | peStopbindWrite (pe : Fin 16) (k : Fin 3) (mask : Word)
  /-- CH_PE_STATUS (R136). Returns an engine's control, status, counters and fault. -/
  | chPeStatus (p : Pkt)
  /-- CH_PE_LOAD (R136). Writes instructions into a stopped engine's instruction memory. -/
  | chPeLoad (p : Pkt)
  /-- CH_PE_START (R130). Arms an engine to start a run at once or at a named tick. -/
  | chPeStart (p : Pkt)
  /-- CH_PE_PAUSE (R136). Requests PAUSED at the next pause point. -/
  | chPePause (p : Pkt)
  /-- CH_PE_RESUME (R136). Resumes a PAUSED engine. -/
  | chPeResume (p : Pkt)
  /-- CH_PE_STOP (R129). Ends the run after the next pause point in STOPPED. -/
  | chPeStop (p : Pkt)
  /-- CH_PE_ABORT (R129). Ends the run at the next cycle boundary in ABORTED. -/
  | chPeAbort (p : Pkt)
  /-- CH_PE_GANG (R133). Forms or dissolves gangs of stopped engines. -/
  | chPeGang (p : Pkt)
  /-- CH_PE_CLOCK (R107). Sets an engine's clock and UI count while it is not running. -/
  | chPeClock (p : Pkt)
  /-- PE_CLOCK_LOCKED (R107). The engine clock locks at its new frequency and the command ends. -/
  | peClockLocked (pe : Fin 16)
  /-- COMPARE_RESULT (R138). The compare of an emitted cycle completes, forming its fail vector, timestamp records and FAIL flag. -/
  | compareResult (pe : Fin 16) (obs : List (List PinObs))
  /-- DRIFT_MEASUREMENT (R100). A loopback measurement of a Reed line completes and updates its drift correction or counts an outlier. -/
  | driftMeasurement (ch : Fin 256) (capture : Bool) (err : Int)
  /-- DRIFT_STARVED (R101). A Reed line completes no measurement for 10 ms and is marked starved. -/
  | driftStarved (ch : Fin 256) (capture : Bool)
  /-- REED_REACQUIRE_DONE (R102). After a passed targeted test delta is re-acquired and the channel returns to ACTIVE. -/
  | reedReacquireDone (ch : Fin 256) (deltaL : Int) (deltaC : Int)
  /-- RD_TS_PORT_DATA_WRITE (R85). A 128-bit write of a timeset entry through the port, refused for reserved codes, advancing the port address. -/
  | rdTsPortDataWrite (g : Fin 32) (data : Wide)
  /-- RD_TS_PORT_DATA_READ (R84). A 128-bit read of a timeset entry through the port, advancing the address with AUTOINC. -/
  | rdTsPortDataRead (g : Fin 32)
  /-- RD_TS_POP_READ (R95). A 128-bit read removes the oldest timestamp record of a group. -/
  | rdTsPopRead (g : Fin 32)
  /-- RD_UCAL_WRITE (R99). A 128-bit write of a lane's user calibration, applied to all six paths at a UI boundary. -/
  | rdUcalWrite (ch : Fin 256) (data : Wide)
  /-- RD_CNT_CLR (R104). Write that clears Reed group counters. -/
  | rdCntClr (g : Fin 32) (data : Word)
  /-- CH_RD_STATUS (R105). Returns a Reed group's status, channel states and counters. -/
  | chRdStatus (p : Pkt)
  /-- CH_RD_TS_WRITE (R105). Writes a run of timeset entries of a group. -/
  | chRdTsWrite (p : Pkt)
  /-- CH_RD_TS_READ (R105). Reads a run of timeset entries of a group. -/
  | chRdTsRead (p : Pkt)
  /-- CH_RD_CAL_WRITE (R105). Writes user calibration values of the named, non-retired lanes. -/
  | chRdCalWrite (p : Pkt)
  /-- CH_RD_CAL_READ (R105). Returns factory, user, effective and drift values of a group's lanes. -/
  | chRdCalRead (p : Pkt)
  /-- CH_RD_CAL_SAVE (R97). Writes the user calibration of all channels as an NVS record. -/
  | chRdCalSave (p : Pkt)
  /-- CH_RD_CHECK (R105). Runs the targeted loopback test of one channel at once. -/
  | chRdCheck (p : Pkt)
  /-- FAIL_DISPATCH (R142). The dispatcher passes the head word of a FIFO to the FAT and bitmap sinks and removes it once accepted. -/
  | failDispatch
  /-- FAT_WAIT_EXPIRY (R148). A word waiting for FAT space reaches FAT_WAIT and is rejected with its domain marked lost. -/
  | fatWaitExpiry (pe : Fin 16)
  /-- BM_WRITEBACK_RESPONSE (R156). A bitmap row write-back completes, or fails and puts the sink in BM_FAULT. -/
  | bmWritebackResponse (addr : BitVec 48) (rsp : Fin 6) (detail : Byte) (perr : Bool)
  /-- FAT_PORT_READ_LO (R161). A read at FAT_PORT_DATA low half snapshots the whole entry at FAT_PORT_ADDR. -/
  | fatPortReadLo
  /-- FAT_PORT_READ_HI (R161). A read at FAT_PORT_DATA high half returns the rest of the snapshot and advances the index. -/
  | fatPortReadHi
  /-- CAP_PE_CNT_CLR (R157). Write that clears an engine's capture counters or channel counts. -/
  | capPeCntClr (pe : Fin 16) (data : Word)
  /-- CH_CAP_STATUS (R162). Returns capture status and counters of an engine. -/
  | chCapStatus (p : Pkt)
  /-- CH_CAP_CONFIG (R162). Sets capture control and bitmap geometry of a drained engine. -/
  | chCapConfig (p : Pkt)
  /-- CH_CAP_CLEAR (R163). Clears counters, logs, FAT or lost-domain map under the conditions given. -/
  | chCapClear (p : Pkt)
  /-- CH_CAP_BM_FLUSH (R155). Writes back every dirty bitmap line. -/
  | chCapBmFlush (p : Pkt)
  /-- CH_CAP_BM_ZERO (R155). Discards cached lines of an engine's bitmap and writes zeros over it. -/
  | chCapBmZero (p : Pkt)
  /-- BM_ZERO_ROW_DONE (R156). A zeroing row write completes, continues the zeroing, or fails into BM_FAULT. -/
  | bmZeroRowDone (rsp : Fin 6) (detail : Byte)
  /-- CH_CAP_FFL_READ (R162). Returns words of an engine's first-fail log. -/
  | chCapFflRead (p : Pkt)
  /-- CH_CAP_FAT_READ (R164). Returns FAT entries in index order, optionally valid ones only. -/
  | chCapFatRead (p : Pkt)
  /-- CH_CAP_LOST_READ (R162). Returns bytes of the lost-domain map. -/
  | chCapLostRead (p : Pkt)
  /-- RAE_TAKE (R173). The RAE takes one FAT entry and files its cells into its domain's context under the must-repair rules. -/
  | raeTake
  /-- RAE_IMPORT_WRITE (R185). An entry written to an import window is taken as a fail entry, lost marker or end marker. -/
  | raeImportWrite (slot : Fin 16) (upper : Bool) (data : Wide)
  /-- RAE_SRC_TIMEOUT (R185). A listed source sends nothing for RAE_SRC_TIMEOUT and every undecided domain is marked LOST. -/
  | raeSrcTimeout (slot : Fin 16)
  /-- RAE_DECIDE_DOMAIN (R178). In FINAL the RAE decides one domain or group by search and queues its records. -/
  | raeDecideDomain
  /-- RAE_RECORD_RESPONSE (R182). A record write response arrives and advances RAE_OUT_WR, or faults the RAE. -/
  | raeRecordResponse (idx : Fin 512) (ep : Fin 4) (ns : Nat)
  /-- RAE_RING_WAIT_LONG (R182). The RAE has waited 1 ms for ring space and EV_RA_RING_FULL is raised. -/
  | raeRingWaitLong
  /-- RAE_MEMORY_RESPONSE (R186). A context or pool access completes, or fails and puts the RAE in FAULT. -/
  | raeMemoryResponse (rsp : Fin 6) (detail : Byte) (uncorr : Bool)
  /-- RAE_ZEROING_DONE (R167). The zeroing of the context area completes and the session begins at epoch 1. -/
  | raeZeroingDone
  /-- RAE_FINAL_DONE (R177). Every dirty context is written back, the RAE enters DONE and the final reply is sent. -/
  | raeFinalDone
  /-- RAE_CNT_CLR (R189). Write that clears RAE counters. -/
  | raeCntClr (data : Word)
  /-- CH_RA_STATUS (R190). Returns RAE status and counters. -/
  | chRaStatus (p : Pkt)
  /-- CH_RA_RECIPE_LOAD (R190). Writes recipe words into the store and clears RECIPE_VALID. -/
  | chRaRecipeLoad (p : Pkt)
  /-- CH_RA_RECIPE_COMMIT (R170). Validates the stored recipe and puts it in force. -/
  | chRaRecipeCommit (p : Pkt)
  /-- CH_RA_BEGIN (R167). Opens a LOCAL or SOURCE session and advances the epoch. -/
  | chRaBegin (p : Pkt)
  /-- CH_RA_FINAL (R177). Starts the final phase of a session. -/
  | chRaFinal (p : Pkt)
  /-- CH_RA_END (R187). Abandons the session and returns the RAE to IDLE. -/
  | chRaEnd (p : Pkt)
  /-- CH_RA_CTX_READ (R190). Returns domain contexts through the cache. -/
  | chRaCtxRead (p : Pkt)
  /-- CH_RA_RING_READ (R190). Returns result records from a local ring. -/
  | chRaRingRead (p : Pkt)
  /-- STOP_REQUEST_ARRIVAL (R205). A Chanter or engine stop request reaches a region and waits as its pending request. -/
  | stopRequestArrival (r : Fin 192) (src : Fin 3)
  /-- STOP_SWITCH_DECISION (R206). At a region edge with requests present the stop controller switches, refuses or discards them. -/
  | stopSwitchDecision (r : Fin 192)
  /-- STOP_MARK (R208). A load operation's mark of a stop takes effect at a region edge, or fails on a governing stop. -/
  | stopMark (r : Fin 192)
  /-- GATE_WORD_ARRIVAL (R201). A word reaches a region gate and is buffered, waits or is discarded by an off or retired receiver. -/
  | gateWordArrival (src : Fin 192) (dst : Fin 192) (bore : Fin 800) (upper : Bool)
  /-- PARTY_LINE_RISE (R198). A party line rises and may raise EV_FAB_PARTY. -/
  | partyLineRise (r : Fin 192) (lines : BitVec 4)
  /-- RO_MEASURE (R212). Every 1 ms the region's ring oscillator frequency is measured into RO_MEAS. -/
  | roMeasure (r : Fin 192) (mhz : BitVec 16)
  /-- FAB_BCAST_GO (R208). Write of FAB_BCAST.GO issues a stop broadcast to the named regions or is refused. -/
  | fabBcastGo (data : Word)
  /-- FAB_RG_CLR_CNT (R219). Write that clears a region's stop and discard counters. -/
  | fabRgClrCnt (r : Fin 192) (data : Word)
  /-- FAB_RG_CAPCTL_ARM (R218). Write that arms a region's capture unit. -/
  | fabRgCapctlArm (r : Fin 192) (data : Word)
  /-- FAB_RG_CAPCTL_STOP (R219). Write that ends an armed or triggered capture in DONE. -/
  | fabRgCapctlStop (r : Fin 192) (data : Word)
  /-- CAPTURE_TRIGGER (R218). The first sample meeting TMODE fires the capture trigger. -/
  | captureTrigger (r : Fin 192)
  /-- CAPTURE_DONE (R218). The post-trigger samples are stored and the capture unit enters DONE. -/
  | captureDone (r : Fin 192)
  /-- SP_CTL_WRITE (R214). A write of a serial port's mode and pins, refused for conflicts or reserved modes. -/
  | spCtlWrite (j : Fin 32) (data : Word)
  /-- SP_TX_WRITE (R213). The host pushes a byte and control bits into a serial port's transmit buffer. -/
  | spTxWrite (j : Fin 32) (data : Word)
  /-- SP_RX_READ (R213). The host reads and removes the oldest received byte. -/
  | spRxRead (j : Fin 32)
  /-- SERIAL_BYTE_RECEIVED (R214). A serial port receives a byte, or drops it on overflow or records an error. -/
  | serialByteReceived (j : Fin 32) (byte : Byte) (bad : Bool) (nack : Bool)
  /-- SERIAL_BYTE_SENT (R213). A serial port finishes sending a byte and takes the next from its buffer. -/
  | serialByteSent (j : Fin 32)
  /-- CH_FAB_STATUS (R220). Returns a region's fabric registers. -/
  | chFabStatus (p : Pkt)
  /-- CH_FAB_PROBE (R220). Connects a PROBE pin to a region tap. -/
  | chFabProbe (p : Pkt)
  /-- CH_FAB_CAP_ARM (R220). Configures and arms a region's capture unit. -/
  | chFabCapArm (p : Pkt)
  /-- CH_FAB_CAP_STOP (R220). Ends a capture in DONE. -/
  | chFabCapStop (p : Pkt)
  /-- CH_FAB_CAP_READ (R220). Returns captured samples in time order. -/
  | chFabCapRead (p : Pkt)
  /-- CH_CFG_STATUS (R250). Returns configuration, library and security status. -/
  | chCfgStatus (p : Pkt)
  /-- CH_CFG_LOAD_BEGIN (R233). Opens a host load session and runs header checks 1 to 7. -/
  | chCfgLoadBegin (p : Pkt)
  /-- CH_CFG_LOAD_DATA (R250). Delivers the next image bytes, which are decrypted, checked and paged segment by segment. -/
  | chCfgLoadData (p : Pkt)
  /-- CH_CFG_LOAD_END (R250). Runs the end checks, signature and release of a host load. -/
  | chCfgLoadEnd (p : Pkt)
  /-- CH_CFG_LOAD_DRAM (R250). Loads an image held in DRAM. -/
  | chCfgLoadDram (p : Pkt)
  /-- CH_CFG_PAGE (R225). Pages a VALID slot into a stop of the named regions. -/
  | chCfgPage (p : Pkt)
  /-- CH_CFG_DRAW (R208). Broadcasts a stop request to the named regions. -/
  | chCfgDraw (p : Pkt)
  /-- CH_CFG_REWRITE_SLOT (R241). Rewrites a region's governing stop from a VALID slot. -/
  | chCfgRewriteSlot (p : Pkt)
  /-- CH_CFG_LIB_STATUS (R250). Returns states of library slots. -/
  | chCfgLibStatus (p : Pkt)
  /-- CH_CFG_LIB_FREE (R224). Frees unreferenced VALID slots. -/
  | chCfgLibFree (p : Pkt)
  /-- CH_CFG_XSPI (R227). Performs a raw flash operation. -/
  | chCfgXspi (p : Pkt)
  /-- FLASH_SEGMENT_READ (R232). A part of a flash image has been read and is checked, decrypted and paged. -/
  | flashSegmentRead (part : FlashPart)
  /-- LOAD_STALL_TIMEOUT (R234). No image data for 100 ms in an open session ends the load with ST_TIMEOUT. -/
  | loadStallTimeout
  /-- PAGING_DONE (R225). Stop paging has written and verified its frames and its targets become READY or the paging fails. -/
  | pagingDone (verified : BitVec 192) (failed : BitVec 192)
  /-- SIGNATURE_VERIFIED (R235). Check 15 completes, pending slots become VALID and targets READY, with release for a full load. -/
  | signatureVerified
  /-- REWRITE_HOLD (R241). The rewrite's region is held at its next edge with isolation values. -/
  | rewriteHold (r : Fin 192)
  /-- TONGUE_REQ_WRITE (R243). A design's 128-bit write requests paging of a VALID slot into a non-governing stop. -/
  | tongueReqWrite (ni : Fin 288) (wide : Bool) (data : Wide)
  /-- CH_SEC_STATUS (R251). Returns SEC_STAT. -/
  | chSecStatus (p : Pkt)
  /-- CH_SEC_LC_ADVANCE (R244). Burns an unsigned lifecycle transition. -/
  | chSecLcAdvance (p : Pkt)
  /-- CH_SEC_NONCE (R247). Returns a fresh nonce and clears the request buffer. -/
  | chSecNonce (p : Pkt)
  /-- CH_SEC_REQ_DATA (R247). Writes bytes into the signed-request buffer. -/
  | chSecReqData (p : Pkt)
  /-- CH_SEC_KEY_PROG (R246). Programs an owner key slot. -/
  | chSecKeyProg (p : Pkt)
  /-- CH_SEC_KEY_REVOKE (R246). Revokes an owner key slot by signed request. -/
  | chSecKeyRevoke (p : Pkt)
  /-- CH_SEC_SVN_RAISE (R247). Raises the minimum image security version by signed request. -/
  | chSecSvnRaise (p : Pkt)
  /-- CH_SEC_RMA (R245). Moves the device from FIELD to RMA with zeroisation. -/
  | chSecRma (p : Pkt)
  /-- CH_SEC_ROOTKEY_PROG (R246). Programs the AES root key once in FACTORY. -/
  | chSecRootkeyProg (p : Pkt)
  /-- CH_SEC_ATTEST (R248). Builds and signs an attestation report. -/
  | chSecAttest (p : Pkt)
  /-- CH_SEC_BLOB_READ (R251). Returns bytes of the report or the certificate. -/
  | chSecBlobRead (p : Pkt)
  /-- FUSE_BURN_DONE (R244). A fuse burn completes and its command ends. -/
  | fuseBurnDone
  /-- ATTEST_SIGNED (R248). The attestation signature finishes and the command ends. -/
  | attestSigned
  /-- SP_A_READ (R254). Port A read of a scratchpad word. -/
  | spARead (r : Fin 192) (bank : Fin 16) (k : BitVec 12) (flaw : Fin 3)
  /-- SP_A_WRITE (R254). Port A byte-masked write of a scratchpad word. -/
  | spAWrite (r : Fin 192) (bank : Fin 16) (k : BitVec 12) (data : Wide) (be : BitVec 16) (flaw : Fin 3)
  /-- SP_A_ADD64 (R258). Port A atomic lane-wise 64-bit add. -/
  | spAAdd64 (r : Fin 192) (bank : Fin 16) (k : BitVec 12) (data : Wide) (flaw : Fin 3)
  /-- SP_A_ADD128 (R258). Port A atomic 128-bit add. -/
  | spAAdd128 (r : Fin 192) (bank : Fin 16) (k : BitVec 12) (data : Wide) (flaw : Fin 3)
  /-- SP_A_SWAP (R258). Port A atomic swap. -/
  | spASwap (r : Fin 192) (bank : Fin 16) (k : BitVec 12) (data : Wide) (flaw : Fin 3)
  /-- SP_A_RESERVED_OP (R254). Port A request with a reserved A_OP ends with A_STAT 3. -/
  | spAReservedOp (r : Fin 192) (bank : Fin 16)
  /-- SP_PWR_CTL_WRITE (R261). Requests ON, RETENTION or OFF per bank. -/
  | spPwrCtlWrite (r : Fin 192) (data : Word)
  /-- BANK_TRANSITION_DONE (R262). A bank power transition completes and waiting requests are served or answered. -/
  | bankTransitionDone (r : Fin 192) (bank : Fin 16)
  /-- SP_CNT_CLR (R266). Write that clears scratchpad counters. -/
  | spCntClr (r : Fin 192) (data : Word)
  /-- LEASE_START (R265). The STE takes an idle ON bank under lease. -/
  | leaseStart (r : Fin 192) (bank : Fin 16)
  /-- LEASE_END (R265). A lease ends after its work, at 2 µs, or early, and the bank returns to service. -/
  | leaseEnd (r : Fin 192) (bank : Fin 16)
  /-- CH_SP_STATUS (R267). Returns a region's scratchpad registers. -/
  | chSpStatus (p : Pkt)
  /-- CH_SP_POWER (R267). Sets the power state of named banks. -/
  | chSpPower (p : Pkt)
  /-- CH_SP_COLMAP_READ (R267). Returns the spare-column maps of a region's banks. -/
  | chSpColmapRead (p : Pkt)
  /-- DRAM_ROW_ACCESS_DONE (R272). A row access completes its transfer, checking granules and answering its requests. -/
  | dramRowAccessDone (busy : List (BitVec 8)) (parity : Option DrParity) (found : GranFlaws)
  /-- DRAM_REQUEST_ACCEPT (R274). A request enters the controller's read or write queue, or is refused for a retired bank or freeze. -/
  | dramRequestAccept (src : DrSrc)
  /-- REFRESH_DUE (R279). The refresh interval elapses and OWED rises, forcing a refresh at the allowance. -/
  | refreshDue
  /-- REFRESH_DONE (R279). A REFRESH completes after tRFC and lowers OWED. -/
  | refreshDone
  /-- RANK_POWER_DOWN (R282). A rank idle for PD_TIMER enters power-down. -/
  | rankPowerDown (rank : Fin 4)
  /-- TRAINING_DONE (R283). Training completes and held requests are served, or a failure freezes the controller. -/
  | trainingDone (ok : Bool)
  /-- FREQ_RELOCKED (R285). The command clock relocks at the new frequency and self-refresh exits into training. -/
  | freqRelocked
  /-- THAW_DONE (R288). Held writes and reads after a thaw have been served and the command ends. -/
  | thawDone
  /-- DR_CNT_CLR (R290). Write that clears DRAM controller counters. -/
  | drCntClr (data : Word)
  /-- CH_DR_STATUS (R291). Returns DRAM controller status. -/
  | chDrStatus (p : Pkt)
  /-- CH_DR_FREQ (R285). Changes the DRAM command clock. -/
  | chDrFreq (p : Pkt)
  /-- CH_DR_TRAIN (R283). Runs a training. -/
  | chDrTrain (p : Pkt)
  /-- CH_DR_SNAPSHOT (R291). Returns the freeze snapshot and command history. -/
  | chDrSnapshot (p : Pkt)
  /-- CH_DR_THAW (R288). Thaws a frozen controller in RESUME or FLUSH_READS mode. -/
  | chDrThaw (p : Pkt)
  /-- NI_REQUEST_ACCEPT (R307). An NI accepts a request from its agent, checks it and sends it or answers DECERR or ALIGN itself. -/
  | niRequestAccept (ni : Fin 288) (ask : NiAsk)
  /-- NET_READ (R296). A READ request reaches its target and is performed. -/
  | netRead (ni : Fin 288) (idx : Fin 512) (flaws : List (Fin 3))
  /-- NET_WRITE (R296). A WRITE request reaches its target and is performed. -/
  | netWrite (ni : Fin 288) (idx : Fin 512) (flaws : List (Fin 3)) (coll : BitVec 16)
  /-- NET_ADD64 (R258). An ADD64 request is performed at a scratchpad or refused elsewhere. -/
  | netAdd64 (ni : Fin 288) (idx : Fin 512) (flaws : List (Fin 3)) (coll : BitVec 16)
  /-- NET_ADD128 (R258). An ADD128 request is performed at a scratchpad or refused elsewhere. -/
  | netAdd128 (ni : Fin 288) (idx : Fin 512) (flaws : List (Fin 3)) (coll : BitVec 16)
  /-- NET_SWAP (R258). A SWAP request is performed at a scratchpad or refused elsewhere. -/
  | netSwap (ni : Fin 288) (idx : Fin 512) (flaws : List (Fin 3)) (coll : BitVec 16)
  /-- NET_UPORT (R296). A posted UPORT packet delivers user vectors or flags, or is discarded during closing. -/
  | netUport (r : Fin 192) (pe : Fin 16) (what : UportLoad)
  /-- NET_RESPONSE_ARRIVAL (R308). A response reaches its initiator NI and is delivered or discarded as late. -/
  | netResponseArrival (ni : Fin 288) (idx : Fin 512) (ep : Fin 4) (ns : Nat)
  /-- NI_TIMEOUT (R307). A request's timeout expires and RSP_TOUT is delivered to its agent. -/
  | niTimeout (ni : Fin 288) (idx : Fin 512)
  /-- NI_BUSY_WAIT_EXPIRY (R306). A FAB or BULK request has waited BUSY_WAIT at an ingress queue and is refused BUSY. -/
  | niBusyWaitExpiry (ni : Fin 288) (bulk : Bool)
  /-- DOMAIN_REOPEN (R309). The domain reports ready and its NI opens it again. -/
  | domainReopen (d : NetDomain)
  /-- NET_WRR_WRITE (R312). A write of class weights, applied router by router through quiescing. -/
  | netWrrWrite (data : Word)
  /-- ROUTER_QUIESCE_DONE (R312). A router drains its buffered flits, applies its change and returns credits. -/
  | routerQuiesceDone (n : Fin 96)
  /-- ROUTER_QUIESCE_RETRY (R312). A weight change abandoned after 100 µs is tried again 100 µs later. -/
  | routerQuiesceRetry (n : Fin 96)
  /-- NI_CNT_CLR (R314). Write that clears NI counters. -/
  | niCntClr (ni : Fin 288) (data : Word)
  /-- DMA_GO (R324). Doorbell write that queues, resumes or re-checks a chain of a channel. -/
  | dmaGo (ch : Fin 4096)
  /-- DMA_PAUSE_SET (R329). Setting PAUSE stops new reads and pauses the channel. -/
  | dmaPauseSet (ch : Fin 4096)
  /-- DMA_PAUSE_CLEAR (R329). Clearing PAUSE requeues a paused channel. -/
  | dmaPauseClear (ch : Fin 4096)
  /-- DMA_ARM (R325). Arms the shadow set for promotion. -/
  | dmaArm (ch : Fin 4096)
  /-- DMA_CLOSE (R324). Releases a chain-idle channel to CHAIN_IDLE 0. -/
  | dmaClose (ch : Fin 4096)
  /-- DMA_CLR_CNT (R332). Clears a channel's DEFER_CNT. -/
  | dmaClrCnt (ch : Fin 4096)
  /-- DMA_DREQ_SET (R328). Sets a channel's request bit. -/
  | dmaDreqSet (data : Word)
  /-- DMA_DREQ_CLR (R328). Clears a channel's request bit. -/
  | dmaDreqClr (data : Word)
  /-- DREQ_RISE (R328). A waiting peripheral channel's request rises and the channel becomes QUEUED. -/
  | dreqRise (ch : Fin 4096)
  /-- DMA_ENGINE_LOAD (R317). A free engine takes the highest-priority queued channel and loads its context. -/
  | dmaEngineLoad (engine : Fin 64)
  /-- DMA_QUEUE_WAIT_LONG (R317). A channel queued for more than 10 µs sets DEFERRED. -/
  | dmaQueueWaitLong (ch : Fin 4096)
  /-- DMA_BUSY_RETRY (R320). A request refused BUSY is reissued after 1 µs. -/
  | dmaBusyRetry (ch : Fin 4096)
  /-- DMA_TRANSFER_COMPLETE (R322). A transfer's fence completes; status is written, and the chain is followed or the channel is done. -/
  | dmaTransferComplete (ch : Fin 4096)
  /-- DMA_CH_STAT_READ (R323). A read of DMA_CH_STAT is held while a tail re-read is outstanding. -/
  | dmaChStatRead (ch : Fin 4096)
  /-- CH_DMA_STATUS (R333). Returns a channel's status registers. -/
  | chDmaStatus (p : Pkt)
  /-- CH_DMA_START (R333). Writes the active set and rings the doorbell. -/
  | chDmaStart (p : Pkt)
  /-- CH_DMA_ARM (R325). Writes and arms the shadow set. -/
  | chDmaArm (p : Pkt)
  /-- CH_DMA_PAUSE (R329). Pauses a channel. -/
  | chDmaPause (p : Pkt)
  /-- CH_DMA_RESUME (R333). Clears PAUSE of a channel. -/
  | chDmaResume (p : Pkt)
  /-- CH_DMA_ABORT (R330). Aborts a channel, discarding outstanding read data. -/
  | chDmaAbort (p : Pkt)
  /-- WW_FRAME_RECEIVE (R337). A link frame is received, accepted in order or discarded with a NAK. -/
  | wwFrameReceive (port : Fin 8) (frame : BitVec 200) (laneBad : BitVec 4)
  /-- WW_REPLAY_TIMEOUT (R337). 500 ns without acknowledgement makes the sender resend unacknowledged frames. -/
  | wwReplayTimeout (port : Fin 8)
  /-- WW_ERR_WINDOW (R338). The 1 ms CRC error window ends and a lane may be declared suspect. -/
  | wwErrWindow (port : Fin 8)
  /-- LANE_TEST_DONE (R338). The PRBS31 lane test ends and the lane is restored or retired. -/
  | laneTestDone (port : Fin 8) (lane : Fin 4) (pass : Bool)
  /-- PORT_TRAINED (R339). A port finishes training with its partner and becomes UP. -/
  | portTrained (port : Fin 8) (bridge : Bool) (uid : BitVec 128) (partner : Fin 8)
  /-- LINK_DOWN (R351). A link goes DOWN and LINK_CHANGE is sent to the root. -/
  | linkDown (port : Fin 8)
  /-- PROBE (R340). A discovery PROBE arrives, is answered and forwarded once per serial. -/
  | wwProbe (port : Fin 8) (serial : Nat) (root : BitVec 128) (path : List (Fin 8)) (rev : List (Fin 8))
  /-- PROBE_REPLY (R340). A probe reply reaches the root with the device's topology. -/
  | wwProbeReply (port : Fin 8) (h : WwHdr) (serial : Nat) (uid : BitVec 128) (ports : List (Fin 4 × BitVec 128 × Fin 8))
  /-- DISC_WAIT_EXPIRY (R340). No probe reply for DISC_WAIT; the root assigns IDs, computes routes and writes banks. -/
  | discWaitExpiry
  /-- PATH_WRITE (R340). A path write sets a device's ID or route bank. -/
  | wwPathWrite (port : Fin 8) (h : WwHdr) (what : WwPathWrite)
  /-- PATH_REPLY (R340). A path write acknowledgement reaches the root. -/
  | wwPathReply (port : Fin 8) (h : WwHdr)
  /-- EPOCH_SWITCH (R346). A device inverts its route epoch on the root's switch. -/
  | epochSwitch (port : Fin 8) (h : WwHdr)
  /-- ROUTE_OLD_DRAINED (R346). OLD is 0 on every device and the root proceeds with a route change. -/
  | routeOldDrained
  /-- WW_REQ (R347). A remote request arrives and is forwarded, performed by proxy, or answered with ERR. -/
  | wwReq (port : Fin 8) (h : WwHdr) (q : WwRequest)
  /-- WW_RSP (R347). A remote response arrives and is forwarded or delivered to its initiator. -/
  | wwRsp (port : Fin 8) (h : WwHdr) (r : WwResponse)
  /-- WW_ERR (R348). An ERR packet reaches the source switch and becomes an RSP_SLVERR response. -/
  | wwErr (port : Fin 8) (h : WwHdr) (ni : Fin 288) (idx : Fin 512) (ep : Fin 4) (detail : Byte)
  /-- LINK_CHANGE (R351). The root receives LINK_CHANGE and reroutes or rediscovers as configured. -/
  | linkChange (port : Fin 8) (h : WwHdr) (changed : Fin 8) (state : Fin 4)
  /-- HOLD_ANN (R355). A hold announcement of a cross-device gang member arrives and is applied or faults the gang when late. -/
  | holdAnn (port : Fin 8) (h : WwHdr) (tick : Word) (hold : Bool) (why : Byte)
  /-- XG_FAULT (R356). An XG_FAULT arrives and the gang ends in FAULT with code GANG. -/
  | xgFault (port : Fin 8) (h : WwHdr) (dev : BitVec 12)
  /-- TIME_CODE (R352). A time code arrives and the follower adjusts its time base and delay estimate. -/
  | timeCode (port : Fin 8) (time : Nat) (echo : Option (Nat × Nat)) (at' : Fin 32000)
  /-- TIME_CODE_SEND (R352). Once per microsecond every UP port sends a time code. -/
  | timeCodeSend
  /-- SYNC_IN_EDGE (R352). A rising edge on SYNC_IN marks a multiple tick for a pin-sourced time base. -/
  | syncInEdge (at' : Fin 32000)
  /-- TB_LOCK (R354). The phase error has stayed within ±10 ps for 1 ms and LOCKED is set. -/
  | tbLock
  /-- TB_SOURCE_LOST (R354). The time source is missing for 10 µs and LOCKED is cleared. -/
  | tbSourceLost
  /-- WW_CNT_CLR (R357). Write that clears Windway counters. -/
  | wwCntClr (data : Word)
  /-- WW_P_RETRAIN (R357). Write that retrains a Windway port. -/
  | wwPRetrain (port : Fin 8)
  /-- WW_P_CNT_CLR (R357). Write that clears a port's counters. -/
  | wwPCntClr (port : Fin 8) (data : Word)
  /-- WW_ROUTE_ENTRY_WRITE (R343). A write of a route bank entry, refused for the active bank or with OLD nonzero. -/
  | wwRouteEntryWrite (bank : Fin 2) (d : BitVec 12) (data : Word)
  /-- CH_WW_STATUS (R358). Returns Windway status and port states. -/
  | chWwStatus (p : Pkt)
  /-- CH_WW_DISCOVER (R340). Starts discovery at the root. -/
  | chWwDiscover (p : Pkt)
  /-- CH_WW_TOPO_READ (R358). Returns the root's topology list. -/
  | chWwTopoRead (p : Pkt)
  /-- CH_WW_ROUTE (R346). Changes the system routes through an epoch switch. -/
  | chWwRoute (p : Pkt)
  /-- CH_WW_PORT (R358). Disables, enables or retrains a port. -/
  | chWwPort (p : Pkt)
  /-- CH_WW_LANE_TEST (R358). Runs the lane test on one lane. -/
  | chWwLaneTest (p : Pkt)
  /-- SENSOR_CONVERSION (R366). A sensor is converted and checked, updating readings, rates, warnings, trips and DRAM regime. -/
  | sensorConversion (i : Fin 136) (raw : Int) (ratioOk : Bool) (moved : Bool)
  /-- THROTTLE_UPDATE (R363). Every 100 µs a throttle factor is computed for each zone. -/
  | throttleUpdate
  /-- LAYER_ESTIMATE (R367). Every 1 ms layer estimates are computed and layers may be declared suspect. -/
  | layerEstimate (inlet : Int) (outlet : Int) (lidOk : Bool) (est : List Int)
  /-- CH_TH_STATUS (R374). Returns thermal status. -/
  | chThStatus (p : Pkt)
  /-- CH_TH_SENSORS (R374). Returns sensor registers. -/
  | chThSensors (p : Pkt)
  /-- CH_TH_SUBST (R368). Substitutes or revokes a broken sensor's reading. -/
  | chThSubst (p : Pkt)
  /-- CH_TH_THRESH (R362). Writes the thermal thresholds. -/
  | chThThresh (p : Pkt)
  /-- CH_TH_LIMIT (R374). Sets the host throttle cap S_HOST. -/
  | chThLimit (p : Pkt)
  /-- SLICE_START (R376). Each PERIOD the STE starts a slice of the next enabled kind, or skips it. -/
  | sliceStart (condOk : Bool) (exp : BitVec 16)
  /-- SLICE_END (R378). A slice ends with a verdict, queueing a targeted test on FAIL. -/
  | sliceEnd (y : TestYield) (n : Nat) (found : List (BitVec 32))
  /-- TARGETED_TEST_START (R381). The next queued targeted test starts. -/
  | targetedTestStart
  /-- TARGETED_TEST_END (R382). A targeted test ends, declaring the error transient or permanent and repairing or retiring. -/
  | targetedTestEnd (y : TestYield) (sub : BitVec 16)
  /-- FULL_TEST_DONE (R380). The full self-test ends, zeroes memories and returns the device to FW. -/
  | fullTestDone (tested : BitVec 32) (passed : List (Fin 17 × BitVec 32)) (failed : List (Fin 17 × BitVec 32 × BitVec 16))
  /-- ST_CNT_CLR (R396). Write that clears self-test counters. -/
  | stCntClr (data : Word)
  /-- CH_ST_STATUS (R398). Returns self-test status. -/
  | chStStatus (p : Pkt)
  /-- CH_ST_RUN (R398). Runs a targeted test on a named element. -/
  | chStRun (p : Pkt)
  /-- CH_ST_FULL (R380). Starts the full self-test. -/
  | chStFull (p : Pkt)
  /-- CH_ST_LOG_READ (R398). Returns repair log entries or fuse records. -/
  | chStLogRead (p : Pkt)
  /-- CH_ST_FUSE_REPAIR (R388). Burns fuse repair records for logged repairs. -/
  | chStFuseRepair (p : Pkt)
  /-- CH_ST_LOG_CLEAR (R388). Removes every repair log entry. -/
  | chStLogClear (p : Pkt)
  /-- CH_LG_STATUS (R398). Returns Ligature status. -/
  | chLgStatus (p : Pkt)
  /-- LIGATURE_FRAME_CHECK (R392). Ligature reads one frame, corrects single errors and checks its CRC. -/
  | ligatureFrameCheck (corr : Fin 21) (find : LgFind) (vote : Fin 3)
  /-- LIGATURE_RELOAD_DONE (R393). A bad frame has been rewritten and read back, and the region runs again. -/
  | ligatureReloadDone (dataBad : Bool) (again : Bool)
  /-- LG_CNT_CLR (R397). Write that clears Ligature counters. -/
  | lgCntClr (data : Word)
  /-- CLK_RG_WRITE (R412). A write of a region's FSET starts a glitch-free frequency change. -/
  | clkRgWrite (r : Fin 192) (data : Word)
  /-- CLOCK_SLEW_DONE (R412). A region clock reaches its new frequency. -/
  | clockSlewDone (r : Fin 192)
  /-- CH_PWR_STATUS (R426). Returns power status and rail readings. -/
  | chPwrStatus (p : Pkt)
  /-- CH_CLK_REGION (R412). Sets a region's clock frequency. -/
  | chClkRegion (p : Pkt)
  /-- CH_NVS_REC_INFO (R426). Returns headers and bank choice of a record. -/
  | chNvsRecInfo (p : Pkt)
  /-- CH_NVS_REC_READ (R426). Returns payload bytes of a record. -/
  | chNvsRecRead (p : Pkt)
  /-- CH_NVS_EVLOG_READ (R426). Returns event log entries. -/
  | chNvsEvlogRead (p : Pkt)
  /-- CH_NVS_USER (R419). Reads or writes the user partition for the host. -/
  | chNvsUser (p : Pkt)
  /-- CH_PWR_REGION (R413). Takes a region OFF or returns it to RUN under a named stop. -/
  | chPwrRegion (p : Pkt)
  /-- REGION_POWER_DONE (R413). A region finishes powering down or up and the command ends. -/
  | regionPowerDone (r : Fin 192)
  /-- NVS_WORD_WRITE_DONE (R421). An NVS word write completes, advancing a record write or answering a user write. -/
  | nvsWordWriteDone (macroNo : Fin 8)
  /-- NVS_APERTURE_ACCESS (R420). A design access to the user NVS aperture at its page, refused for non-region NIs. -/
  | nvsApertureAccess (ni : Fin 288) (off : BitVec 19) (write : Bool) (wide : Bool) (data : Word)
  /-- NVS_UPAGE_SELF_ACCESS (R420). A region reads or sets its own NVS page. -/
  | nvsUpageSelfAccess (ni : Fin 288) (write : Bool) (data : Word)
  /-- NVS_CNT_CLR (R425). Write that clears NVS counters. -/
  | nvsCntClr (data : Word)
  /-- EVLOG_ENTRY_WRITTEN (R423). A buffered event log entry is written to the NVS ring. -/
  | evlogEntryWritten
  /-- TAP_RESET (R440). TRST_N low or five TCK cycles with TMS high reset the TAP and select IDCODE. -/
  | tapReset
  /-- EXTEST (R442). Boundary-scan instruction driving pins from the boundary register while RESET_N is low. -/
  | extest
  /-- IDCODE (R440). Boundary-scan instruction selecting the 32-bit IDCODE register. -/
  | jtagIdcode
  /-- SAMPLE_PRELOAD (R440). Boundary-scan instruction sampling pins and preloading the register. -/
  | samplePreload (pins : BitVec 2028) (preload : BitVec 2028)
  /-- CLAMP (R442). Boundary-scan instruction holding pins from the register with bypass selected. -/
  | jtagClamp
  /-- HIGHZ (R442). Boundary-scan instruction placing outputs in high impedance. -/
  | jtagHighz
  /-- EXTEST_PULSE (R442). 1149.6 instruction for AC-coupled pair testing. -/
  | extestPulse
  /-- EXTEST_TRAIN (R442). 1149.6 instruction for pulse-train pair testing. -/
  | extestTrain
  /-- BYPASS (R440). Boundary-scan instruction with a one-bit data path, also taken by unlisted opcodes. -/
  | jtagBypass (opcode : Byte)
  /-- REGION_CLOCK_EDGE (R193). At each rising edge of a running region's clock the flip-flops, boundary flip-flops, party-line levels and capture samples are updated under the governing stop. -/
  | regionClockEdge (r : Fin 192) (auxIn : Bool) (riser : List Nat) (ports : List Nat)
  /-- PREFILL_LATE (R130). At 375 ticks before the named start tick of an AT_TICK start whose stream prefill is not complete, the start ends with ST_BAD_STATE, PREFILL_LATE and the engine returns to its previous state. -/
  | prefillLate (pe : Fin 16)
  /-- SYNC_OUT_PULSE (R352). At each multiple of 2^SYNC_LOG of its own time base the device drives SYNC_OUT high for 16 ticks. -/
  | syncOutPulse
  /-- RAE_OUT_RD_WRITE (R182). A write of RAE_OUT_RD frees ring space, ending a RING_WAIT so the RAE resumes writing its queued records. -/
  | raeOutRdWrite (data : Word)
  /-- RAIL_RESTORED_BOOT (R405). 2 ms after every rail is valid again with RESET_N high, following a rail loss, the device enters BOOT. -/
  | railRestoredBoot
  deriving DecidableEq, Repr

end Sys2Proof
end

