-- ==== Sys2Proof/WellFormed.lean ====
section
/-! DEFINITION. Well-formed commands: operands that the hardware can carry. A packet's LEN has 16 bits (Table 2.4); lists have the
lengths of what they describe. -/

namespace Sys2Proof

/-- LEN is a 16-bit field (Table 2.4). -/
def Pkt.wf (p : Pkt) : Bool := decide (p.payload.length < 65536)

/-- A design's request: a write or atomic carries byte enables and data for each word, a read none (Table 11.3). -/
def NiAsk.wf : NiAsk → Bool
  | .design kind _ _ len _ bes data =>
    if kind = 0 then bes.isEmpty && data.isEmpty else decide (bes.length ≤ len.val + 1) && decide (data.length = len.val + 1)
  | .dma _ | .chanter | .rae | .tongue => true

/-- A UPORT packet carries at least one vector, or flags (R296). -/
def UportLoad.wf : UportLoad → Bool
  | .vectors vs => !vs.isEmpty
  | .flags _ => true

/-- A REQ carries data for each word of a write or atomic (R347). -/
def WwRequest.wf (q : WwRequest) : Bool :=
  if q.kind = 0 then q.data.isEmpty else decide (q.data.length = q.len.val + 1)

/-- A command whose operands the hardware can carry. -/
def Instr.wf : Instr → Bool
  | .chSysNop p | .chSysIdentify p | .chSysStatus p | .chSysPeek p | .chSysPoke p | .chSysReset p
  | .chSysAbort p | .chSysEventRead p | .chSysEventMask p | .chSysNotice p | .chSysFwInfo p | .chSysFwBegin p
  | .chSysFwData p | .chSysFwCommit p | .chPeStatus p | .chPeLoad p | .chPeStart p | .chPePause p
  | .chPeResume p | .chPeStop p | .chPeAbort p | .chPeGang p | .chPeClock p | .chRdStatus p
  | .chRdTsWrite p | .chRdTsRead p | .chRdCalWrite p | .chRdCalRead p | .chRdCalSave p | .chRdCheck p
  | .chCapStatus p | .chCapConfig p | .chCapClear p | .chCapBmFlush p | .chCapBmZero p | .chCapFflRead p
  | .chCapFatRead p | .chCapLostRead p | .chRaStatus p | .chRaRecipeLoad p | .chRaRecipeCommit p | .chRaBegin p
  | .chRaFinal p | .chRaEnd p | .chRaCtxRead p | .chRaRingRead p | .chFabStatus p | .chFabProbe p
  | .chFabCapArm p | .chFabCapStop p | .chFabCapRead p | .chCfgStatus p | .chCfgLoadBegin p | .chCfgLoadData p
  | .chCfgLoadEnd p | .chCfgLoadDram p | .chCfgPage p | .chCfgDraw p | .chCfgRewriteSlot p | .chCfgLibStatus p
  | .chCfgLibFree p | .chCfgXspi p | .chSecStatus p | .chSecLcAdvance p | .chSecNonce p | .chSecReqData p
  | .chSecKeyProg p | .chSecKeyRevoke p | .chSecSvnRaise p | .chSecRma p | .chSecRootkeyProg p | .chSecAttest p
  | .chSecBlobRead p | .chSpStatus p | .chSpPower p | .chSpColmapRead p | .chDrStatus p | .chDrFreq p
  | .chDrTrain p | .chDrSnapshot p | .chDrThaw p | .chDmaStatus p | .chDmaStart p | .chDmaArm p
  | .chDmaPause p | .chDmaResume p | .chDmaAbort p | .chWwStatus p | .chWwDiscover p | .chWwTopoRead p
  | .chWwRoute p | .chWwPort p | .chWwLaneTest p | .chThStatus p | .chThSensors p | .chThSubst p
  | .chThThresh p | .chThLimit p | .chStStatus p | .chStRun p | .chStFull p | .chStLogRead p
  | .chStFuseRepair p | .chStLogClear p | .chLgStatus p | .chPwrStatus p | .chClkRegion p | .chNvsRecInfo p
  | .chNvsRecRead p | .chNvsEvlogRead p | .chNvsUser p | .chPwrRegion p => p.wf
  | .shutdownSensorRead rs _ => decide (rs.length = 136)
  | .compareResult _ obs => decide (obs.length ≤ 16) && obs.all (fun l => decide (l.length ≤ 128))
  | .dramRowAccessDone busy _ f => decide (busy.length ≤ 256) && decide (f.corr.length ≤ 128) && decide (f.bad.length ≤ 128)
  | .niRequestAccept _ ask => ask.wf
  | .netRead _ _ fs => decide (fs.length ≤ 16)
  | .netWrite _ _ fs _ => decide (fs.length ≤ 16)
  | .netAdd64 _ _ fs _ => decide (fs.length ≤ 16)
  | .netAdd128 _ _ fs _ => decide (fs.length ≤ 16)
  | .netSwap _ _ fs _ => decide (fs.length ≤ 16)
  | .netUport _ _ what => what.wf
  | .wwProbe _ _ _ path rev => decide (path.length ≤ 12) && decide (rev.length ≤ 12)
  | .wwProbeReply _ _ _ _ ports => decide (ports.length = 8)
  | .wwReq _ _ q => q.wf
  | .wwRsp _ _ r => decide (r.data.length ≤ 16)
  | .layerEstimate _ _ _ est => decide (est.length = 7)
  | .regionClockEdge _ _ riser ports => riser.all (fun i => decide (i < 512)) && ports.all (fun i => decide (i < 4096))
  | .vddAonValid | .vddAonLost | .railValid _ _ | .railLost _ | .vddAuxLost | .resetNLow
  | .resetNRelease _ _ | .refclkLoss _ | .refclkReturn | .coolantOkFall | .coolantOkRise _ | .coolantLow5ms
  | .coolantForcedEnd | .bootDone | .shutdownRestart | .i3cPrivateWrite _ _ _ _ | .i3cPrivateRead _ _ | .hdrOtherMode
  | .unsupportedCcc _ | .enec _ _ _ | .disec _ _ _ | .rstdaa | .entdaa _ | .setdasa _ _
  | .setnewda _ _ | .setmwl _ _ | .setmrl _ _ | .getmwl _ | .getmrl _ | .getpid _
  | .getbcr _ | .getdcr _ | .getstatus _ | .getmxds _ | .rstact _ _ | .targetResetPattern
  | .eventIbiRepeat | .fwWatchdog | .chanterRestartDone | .sysResetTakesEffect | .targetedResetDone _ _ | .fwCommitDone
  | .wwChanterPacket _ _ _ | .fwdReplyArrival _ _ | .fwdTimeout _ _ | .chCntClr _ | .evqMaskWrite _ | .evqClrLost
  | .evqFlush | .registerWrite _ _ | .engineCycle _ | .seqNext _ _ | .seqJmp _ _ | .seqJc _ _
  | .seqCall _ _ | .seqRet _ _ | .seqLoop _ _ | .seqLdlc _ _ | .seqRepeat _ _ | .seqWaitf _ _
  | .waitfTimeout _ | .seqSync _ _ | .syncTick _ _ | .seqPause _ _ | .seqHalt _ _ | .holdCycle _
  | .holdLong _ | .peStartTick _ _ | .streamPrefillDone _ | .streamReadResponse _ _ _ | .uportVectorArrival _ _ | .uportFlagUpdate _ _
  | .peImDataWrite _ _ | .peStopbindWrite _ _ _ | .peClockLocked _ | .driftMeasurement _ _ _ | .driftStarved _ _ | .reedReacquireDone _ _ _
  | .rdTsPortDataWrite _ _ | .rdTsPortDataRead _ | .rdTsPopRead _ | .rdUcalWrite _ _ | .rdCntClr _ _ | .failDispatch
  | .fatWaitExpiry _ | .bmWritebackResponse _ _ _ _ | .fatPortReadLo | .fatPortReadHi | .capPeCntClr _ _ | .bmZeroRowDone _ _
  | .raeTake | .raeImportWrite _ _ _ | .raeSrcTimeout _ | .raeDecideDomain | .raeRecordResponse _ _ _ | .raeRingWaitLong
  | .raeMemoryResponse _ _ _ | .raeZeroingDone | .raeFinalDone | .raeCntClr _ | .stopRequestArrival _ _ | .stopSwitchDecision _
  | .stopMark _ | .gateWordArrival _ _ _ _ | .partyLineRise _ _ | .roMeasure _ _ | .fabBcastGo _ | .fabRgClrCnt _ _
  | .fabRgCapctlArm _ _ | .fabRgCapctlStop _ _ | .captureTrigger _ | .captureDone _ | .spCtlWrite _ _ | .spTxWrite _ _
  | .spRxRead _ | .serialByteReceived _ _ _ _ | .serialByteSent _ | .flashSegmentRead _ | .loadStallTimeout | .pagingDone _ _
  | .signatureVerified | .rewriteHold _ | .tongueReqWrite _ _ _ | .fuseBurnDone | .attestSigned | .spARead _ _ _ _
  | .spAWrite _ _ _ _ _ _ | .spAAdd64 _ _ _ _ _ | .spAAdd128 _ _ _ _ _ | .spASwap _ _ _ _ _ | .spAReservedOp _ _ | .spPwrCtlWrite _ _
  | .bankTransitionDone _ _ | .spCntClr _ _ | .leaseStart _ _ | .leaseEnd _ _ | .dramRequestAccept _ | .refreshDue
  | .refreshDone | .rankPowerDown _ | .trainingDone _ | .freqRelocked | .thawDone | .drCntClr _
  | .netResponseArrival _ _ _ _ | .niTimeout _ _ | .niBusyWaitExpiry _ _ | .domainReopen _ | .netWrrWrite _ | .routerQuiesceDone _
  | .routerQuiesceRetry _ | .niCntClr _ _ | .dmaGo _ | .dmaPauseSet _ | .dmaPauseClear _ | .dmaArm _
  | .dmaClose _ | .dmaClrCnt _ | .dmaDreqSet _ | .dmaDreqClr _ | .dreqRise _ | .dmaEngineLoad _
  | .dmaQueueWaitLong _ | .dmaBusyRetry _ | .dmaTransferComplete _ | .dmaChStatRead _ | .wwFrameReceive _ _ _ | .wwReplayTimeout _
  | .wwErrWindow _ | .laneTestDone _ _ _ | .portTrained _ _ _ _ | .linkDown _ | .discWaitExpiry | .wwPathWrite _ _ _
  | .wwPathReply _ _ | .epochSwitch _ _ | .routeOldDrained | .wwErr _ _ _ _ _ _ | .linkChange _ _ _ _ | .holdAnn _ _ _ _ _
  | .xgFault _ _ _ | .timeCode _ _ _ _ | .timeCodeSend | .syncInEdge _ | .tbLock | .tbSourceLost
  | .wwCntClr _ | .wwPRetrain _ | .wwPCntClr _ _ | .wwRouteEntryWrite _ _ _ | .sensorConversion _ _ _ _ | .throttleUpdate
  | .sliceStart _ _ | .sliceEnd _ _ _ | .targetedTestStart | .targetedTestEnd _ _ | .fullTestDone _ _ _ | .stCntClr _
  | .ligatureFrameCheck _ _ _ | .ligatureReloadDone _ _ | .lgCntClr _ | .clkRgWrite _ _ | .clockSlewDone _ | .regionPowerDone _
  | .nvsWordWriteDone _ | .nvsApertureAccess _ _ _ _ _ | .nvsUpageSelfAccess _ _ _ | .nvsCntClr _ | .evlogEntryWritten | .tapReset
  | .extest | .jtagIdcode | .samplePreload _ _ | .jtagClamp | .jtagHighz | .extestPulse
  | .extestTrain | .jtagBypass _ | .prefillLate _ | .syncOutPulse | .raeOutRdWrite _ | .railRestoredBoot => true

end Sys2Proof
end

