-- ==== Sys2Proof/Config.lean ====
section
/-! DEFINITION. What the spec leaves open, as constants without a body: nothing can be proved about their values.
The log entries under notes/assumptions name each. -/

namespace Sys2Proof

/-- A wire of a region: a crossbar input of a cluster, a segment of a length leaving a cluster in a direction, a region-long
line of a cluster row or column, an input of a cell, or an input of a boundary flip-flop (R195, R200, Table 7.1). Cells are
numbered 16 × cluster + cell, clusters 40 × row + column; directions 0 east, 1 north, 2 west, 3 south. Inputs of a cell: 0 to 5
A to F, 6 the carry input, then bypass, clock enable and set/reset of FF0, and the same of FF1; of a boundary flip-flop: data,
clock enable, set/reset. -/
inductive Wire
  | xbar (q i : Nat)
  | seg (len q d t : Nat)
  | line (col : Bool) (at' t : Nat)
  | pin (n p : Nat)
  | bnd (o p : Nat)
  deriving DecidableEq, Repr

/-- What a wire may select: output k of a cell (0 O6, 1 O5, 2 S, 3 Q0, 4 Q1), the carry output of a cell, another wire, a
party line, or an input of the region: a data bit of the oldest word in a gate's receiving buffer, whether a word stands there,
whether a gate's last word is acknowledged, the AUX_IO input, a bit of the serial port's oldest byte, or a signal from the riser gate or
from the scratchpad ports, 256 for each bank. -/
inductive Source
  | cell (n k : Nat)
  | carry (n : Nat)
  | wire (w : Wire)
  | party (l : Nat)
  | gateBit (key b : Nat)
  | gateFull (key : Nat)
  | gateAck (key : Nat)
  | aux
  | serialBit (b : Nat)
  | serialFull
  | serialRoom
  | riser (i : Nat)
  | port (i : Nat)
  deriving DecidableEq, Repr

/-- A signal that leaves a region through a boundary flip-flop (R200). -/
inductive BndSig
  | stopSel (i : Nat)
  | stopReq
  | tap (i : Nat)
  | auxOut
  | auxOe
  | gateBit (key b : Nat)
  | gateReq (key : Nat)
  | gateTake (key : Nat)
  | serialBit (b : Nat)
  | serialPush
  | serialTake
  deriving DecidableEq, Repr

end Sys2Proof

namespace Sys2Proof.Config

/-- A value the spec leaves undefined; each use takes the next index (log entry 2). -/
opaque freeValue : Nat → Nat

/-- Which of the values a table entry has held within the last 64 engine cycles a cycle uses (R85): by the run's start
tick, the cycle number and the entry. -/
opaque oldOrNew : Nat → Nat → Nat → Nat

/-- The fixed launch latency L_out of the device (R91), in the time units of a rate, of which so many make a quarter
picosecond. -/
opaque launchLatency : Nat → Int

/-- Whether a Chanter firmware image's SLH-DSA-SHAKE-256s signature verifies against the Drikiox key (R75). -/
opaque fwSigOk : List Byte → Bool

/-- The family byte, device byte, security version and version that a firmware image carries (R75, Table 2.23):
the layout of the image is not in the spec. -/
opaque fwFamily : List Byte → Nat
opaque fwDevice : List Byte → Nat
opaque fwSvn : List Byte → Nat
opaque fwVersion : List Byte → Nat

/-! What the configuration frames of a stop mean (R192 to R203): "Frame content and the numbering of boundary outputs are
produced by the Waiza suite; the device treats them as opaque" (R230). The frames are those of the governing stop. -/

/-- The 64 lookup-table bits of a cell. -/
opaque lut : List (Nat × List Byte) → Nat → Nat
/-- The D source of a flip-flop: 0 O6, 1 O5, 2 the carry sum S, 3 the bypass input. -/
opaque ffSource : List (Nat × List Byte) → Nat → Nat
/-- Whether a flip-flop, or a boundary flip-flop numbered from 51,200, has a clock-enable source, and a set/reset source. -/
opaque ffHasCe : List (Nat × List Byte) → Nat → Bool
opaque ffHasSr : List (Nat × List Byte) → Nat → Bool
/-- SRVAL and INIT of a flip-flop. -/
opaque ffSrval : List (Nat × List Byte) → Nat → Bool
opaque ffInit : List (Nat × List Byte) → Nat
opaque bndInit : List (Nat × List Byte) → Nat
/-- The flip-flop outputs enabled onto a party line, as a mask. -/
opaque partyEnable : List (Nat × List Byte) → Nat → Nat
/-- The select code of a wire: its place among the sources that Table 7.1 allows it. -/
opaque select : List (Nat × List Byte) → Wire → Nat
/-- The boundary output that carries a signal. -/
opaque bndOf : BndSig → Nat
/-- The level of a wire on a combinational loop. -/
opaque loopLevel : Nat → Source → Bool

/-- The hash of the Drikiox image key (R232 check 4 with KEY_INDEX 0xFF): fixed in the device. -/
opaque drikioxKeyHash : List Byte
/-- The signature of the device identity key, which is generated in the device and never leaves it (R248). -/
opaque slhSign128f : List Byte → List Byte
/-- The device identity certificate in the factory region of the NVS (R248). -/
opaque certificate : List Byte

/-- The sensors wired through a sensor or control bore, by its locator (Table 15.6): the wiring is not in the spec. -/
opaque boreSensors : Nat → List Nat

end Sys2Proof.Config
end

