-- ==== Sys2Proof/Machine/State.lean ====
section
/-! DEFINITION. The state of the device as plain data, and its value right after reset. -/

namespace Sys2Proof.Machine

/-- A sparse table: (key, value) pairs, keys strictly rising. -/
abbrev Tab (α : Type) := List (Nat × α)

/-- Byte memory of the DRAM layers and scratchpads (R27): unlisted bytes read as zero (R262, R289). -/
abbrev Memory := List Host.Cell

/-- Why a command stops. No command of this device stops with a fault: every bad access has a response of its own. -/
inductive Fault
  /-- Raised by no command: kept so that the outcome type is inhabited. Safe. -/
  | none
  deriving DecidableEq, Repr

/-- Why a command is not run. -/
inductive Refusal
  /-- Raised by `exec` for a row that has no meaning yet. Safe: the machine stops. -/
  | notModelled (mnemonic : String)
  deriving DecidableEq, Repr

/-- What a serial port does on its pins (Table 7.5): I2C START and STOP, a byte sent, the acknowledge bit that an I2C controller
gives for a byte it reads, and the rise of CS_N. -/
inductive SerialSig | start | byte (b : Nat) | ack (nak : Bool) | stop | csRise
  deriving DecidableEq, Repr

/-- What a command sends out of the device. -/
inductive Out
  /-- The I3C target acknowledges. -/
  | i3cAck
  /-- The I3C target does not acknowledge. -/
  | i3cNack
  /-- Bytes the I3C target returns. -/
  | i3cData (bytes : List Byte)
  /-- An in-band interrupt request with its mandatory data byte (Table 2.3). -/
  | ibi (b : Nat)
  /-- A Chanter reply or notice sent over Windway, to the root or over its host bridge (R48, R69). -/
  | wwReply (route : Route) (bytes : List Byte)
  /-- A command packet forwarded to another device (R67). -/
  | wwForward (dest : Nat) (bytes : List Byte)
  /-- A Windway packet sent on a port: its type, its header (CLASS, EPOCH, SRC, DST, ROUTE, HOPS, HOPIX, RROUTE) and what
  it carries (R344). -/
  | wwSend (port : Nat) (kind : Nat) (head fields : List Nat)
  /-- Frames sent again on a port, by SEQ, oldest first (R337). -/
  | wwResend (port : Nat) (seqs : List Nat)
  /-- What a port tells its partner of the frames it receives: the last in order, and whether one after it was bad (R337). -/
  | wwAck (port : Nat) (ack : Nat) (nak : Bool)
  /-- A data flit that a port has accepted and passes to the switch: port, virtual channel, flit (R337). -/
  | wwFlit (port vc flit : Nat)
  /-- A time code: port, time base, and the echo of the partner's last one with its holding time (R352). -/
  | timeCode (port time : Nat) (echo : Option (Nat × Nat))
  /-- A network response that a region NI delivers to its design: NI, buffer, code, detail, first word not performed, data
  words (R303, Table 11.4). -/
  | netRsp (ni idx rsp detail word : Nat) (data : List Nat)
  /-- The answer to a register access: response code, detail, data read (R6, R303, R304). -/
  | access (rsp detail : Nat) (data : Nat)
  /-- A port-A result of a scratchpad bank: region, bank, status, and data where they have a meaning (Table 9.1). -/
  | portA (region bank stat : Nat) (data : Option Nat)
  /-- An edge of a Reed unit: channel, true on DEN and false on DRV, level after, time in the run's units (R91). -/
  | edge (ch : Nat) (den : Bool) (level : Bool) (time : Int)
  /-- A stop request an engine sends to a bound region (R126). -/
  | stopReq (region stop : Nat)
  /-- A level on a pin: pin name by number, level. -/
  | pin (n : Nat) (level : Nat)
  /-- What a serial port does on its pins, with the bit time in units of 10 ns (R213, Table 7.5). -/
  | serial (port : Nat) (what : SerialSig) (bit : Nat)
  /-- Bits shifted to TDO from the selected data register (R440). -/
  | tdo (bits : Nat) (len : Nat)
  /-- The reset pulse on XSPI_RST_N, and a flash operation: command, extension, address if any, dummy cycles, bytes to read, bytes
  written (R227). -/
  | xspiReset
  | xspi (cmd ext : Nat) (addr : Option Nat) (dummy len : Nat) (data : List Byte)
  /-- A SYNC_OUT pulse at a tick (R352). -/
  | syncOut (tick : Nat)
  deriving DecidableEq, Repr

/-- An event queue entry, Table 2.10. -/
structure Ev where
  code   : Nat
  sev    : Nat
  masked : Bool
  arg    : Nat
  time   : Nat
  deriving DecidableEq, Repr

/-- A command in flight (R53): one of the 32 slots. -/
structure Slot where
  /-- The model's own serial number of the slot. -/
  id       : Nat
  route    : Route
  tag      : Nat
  dest     : Nat
  cls      : Nat
  op       : Nat
  flags    : Nat
  payload  : List Byte
  /-- The command has started (R54). -/
  started  : Bool
  /-- The final reply is composed and waits for delivery. -/
  ended    : Bool
  /-- The slot is one of the two that only URGENT commands may take (R53). -/
  reserved : Bool
  /-- The running operation cannot be stopped (R57). -/
  noStop   : Bool
  /-- The result such an operation records in hardware (R58). -/
  recorded : Option (Nat × Nat)
  /-- Slots of aborts that wait for this command to end (R57). -/
  aborts   : List Nat
  deriving DecidableEq, Repr

/-- A reply composed and not yet fully delivered over I3C (R45, R48). -/
structure Reply where
  /-- The slot whose final reply this is. -/
  slot    : Option Nat
  /-- The reply answers a refused packet and occupies the refusal buffer (R48). -/
  refusal : Bool
  bytes   : List Byte
  /-- Bytes already read (R39). -/
  sent    : Nat
  deriving DecidableEq, Repr

/-- An entry of the root's forwarding table (R67). -/
structure Fwd where
  route   : Route
  dest    : Nat
  tag     : Nat
  cls     : Nat
  op      : Nat
  replied : Bool
  deriving DecidableEq, Repr

/-- An open firmware update session (R76). -/
structure FwSession where
  copy : Nat
  len  : Nat
  data : Tab Byte
  /-- The ranges written: offset and length (R76). -/
  done : List (Nat × Nat)
  deriving DecidableEq, Repr

/-- A peek or poke in progress (R72): its slot, next address, accesses left, access size, data still to write, bytes read, words
written, and whether an access is outstanding. -/
structure ChAccess where
  slot  : Nat
  addr  : Nat
  left  : Nat
  wide  : Bool
  poke  : Bool
  data  : List Byte
  got   : List Byte
  words : Nat
  busy  : Bool
  deriving DecidableEq, Repr

/-- Chanter: slots, replies, events, forwarding, firmware (chapter 2). -/
structure Chanter where
  slots      : List Slot
  nextId     : Nat
  replies    : List Reply
  events     : List Ev
  /-- Entries lost since the queue last had a free entry (R62). -/
  lossRun    : Nat
  /-- A reply-ready IBI is outstanding (R43). -/
  ibiReply   : Bool
  /-- Event notices are enabled (R69). -/
  notices    : Bool
  /-- Chanter is restarting and takes no packet (R58). -/
  restarting : Bool
  /-- The watchdog caused the restart; its event is owed (R59). -/
  watchdog   : Bool
  fwd        : List Fwd
  fw         : Option FwSession
  /-- Running firmware copy: 0, 1, or 0xFF for none (Table 2.20). -/
  copy       : Nat
  fwVersion  : Nat
  fwSvn      : Nat
  /-- The slot of a CH_SYS_RESET of kind 0x00 whose warm reset is due (R74). -/
  resetDue   : Bool
  /-- Firmware copies whose header a commit has written, oldest first: the commit's slot and the copy (R77). -/
  commitDue  : List (Nat × Nat)
  /-- Chanter's firmware is occupied, so that a command accepted now waits to start (R54; the model's own field, log entry 5). -/
  busy       : Bool
  /-- Peeks and pokes in progress, oldest first. -/
  access     : List ChAccess
  deriving DecidableEq, Repr

/-- A transition of the device state that a command brought (R24): its place in the order of R24, the state that was left,
`BOOT_COUNT` before it, and the NVS words whose writes a warm reset let complete. -/
structure Turn where
  level : Nat
  left  : Nat
  boots : Nat
  words : List Nat
  deriving DecidableEq, Repr

/-- Always-on state beside the always-on registers (R37, R41, R370, R405, R410, R372). -/
structure Aon where
  /-- The action byte that RSTACT armed, if any (R41). -/
  rstArm      : Option Nat
  protoErr    : Bool
  /-- The I3C target has reached FW or RECOVERY since the end of POR (R37). -/
  i3cOpen     : Bool
  /-- RESET_N is low. -/
  resetLow    : Bool
  /-- A lost rail or a lost REFCLK holds the device as RESET_N low does (R405, R410). -/
  railHold    : Bool
  refHold     : Bool
  /-- A warm reset is held: every island but this one is in reset. It came with a BOOT entry still to make, whose `CAUSE`
  is `bootCause`, or lasts beyond an entry already made (R23, R406). -/
  held        : Bool
  bootCause   : Option Nat
  /-- The straps ADDR_SEL[1:0] and BOOT_SRC[1:0] as last sampled (R36, R226). -/
  addrSel     : Nat
  bootSrc     : Nat
  /-- The supply of VDD_AUX is at 1.8 V (R401). -/
  aux18       : Bool
  /-- coolant_forced and its counts (R370). -/
  coolForced  : Bool
  coolLowUs   : Nat
  /-- A reset request arrived during SHUTDOWN (R24). -/
  rstInShut   : Bool
  /-- Milliseconds for which the restart condition has held in SHUTDOWN (R372). -/
  restartMs   : Nat
  /-- Events owed on entry to FW (R403, R405, R410, R416, Table 14.5): code, severity, argument. -/
  onFw        : List (Nat × Nat × Nat)
  /-- The DRAM must be zeroed in the next BOOT (R289). -/
  dramZero    : Bool
  /-- BOOT has been entered since VDD_AON became valid: DRV and DEN are driven (R434). -/
  booted      : Bool
  deriving DecidableEq, Repr

/-- One junction sensor's conversion history and check counts (R364, R366). -/
structure Sensor where
  /-- Readings used, newest first, at most 21 (1 ms at one conversion per 50 µs). -/
  hist      : List Int
  conv      : Nat
  ratioBad  : Nat
  rangeBad  : Nat
  stuckBad  : Nat
  rateOn    : Bool
  /-- Conversions in a row with the rate at or below RATE. -/
  rateLow   : Nat
  /-- Conversions in a row with a rate above 2 × RATE while every zone it feeds is at S = 64 (R371). -/
  rateTrip  : Nat
  deriving DecidableEq, Repr

/-- The thermal controller (chapter 14). -/
structure Thermal where
  sensors   : Tab Sensor
  /-- Milliseconds for which each layer's estimate has exceeded its measured maximum by more than 8 °C (R367). -/
  overMs    : Tab Nat
  /-- The coolant conditions of R369 hold now; both lid sensors work. -/
  inletBad  : Bool
  riseBad   : Bool
  /-- Conversions of DRAM sensors in a row with both layers at or below 82 °C (Table 10.4). -/
  dramCool  : Nat
  deriving DecidableEq, Repr

/-- What the completion of an NVS job leads to. -/
inductive NvsDone
  /-- Nothing further. -/
  | none
  /-- The final reply ST_OK of a command in a slot, with its DETAIL and payload. -/
  | slot (id detail : Nat) (payload : List Byte)
  /-- The response to an aperture write, to a response buffer of an NI (R419, R420). -/
  | net (ni idx ep : Nat)
  /-- The answer to an aperture write given as a register access. -/
  | access
  /-- The header of a firmware copy is invalid: the session of a `CH_SYS_FW_BEGIN` opens (R76): slot, copy, length. -/
  | fwBegin (id copy len : Nat)
  /-- The header that validates a firmware copy is written: `FW_COMMIT_DONE` is due (R77): slot and copy. -/
  | fwCommit (id copy : Nat)
  /-- A read of the user partition that waited for its macros: slot, first word, words (R421, R426). -/
  | userRead (id w n : Nat)
  /-- A read of the aperture, given as a register access, that waited for its macro: its word (R421). -/
  | accRead (w : Nat)
  deriving DecidableEq, Repr

/-- A sequence of NVS word writes performed in order, or a read that waits for its macros (R417, R421). -/
structure NvsJob where
  /-- Remaining (word index, value) writes. -/
  words   : List (Nat × Nat)
  /-- The record written (numbered as in Table 16.11), if it is a record write. -/
  record  : Option Nat
  /-- The payload of a record write whose turn has not come: its words are laid out when it begins. -/
  payload : Option (List Byte)
  /-- The bank that a firmware commit names (R76). -/
  bank    : Option Nat
  done    : NvsDone
  deriving DecidableEq, Repr

/-- The persistent store (chapter 16): 1,048,576 words of 64 bits. -/
structure Nvs where
  /-- Word values; unlisted words read as zero. -/
  words  : Tab Nat
  /-- Words that read as uncorrectable. -/
  uncorr : List Nat
  jobs   : List NvsJob
  /-- Event log entries waiting to be written, at most 16 (R423): (entry, BOOT_COUNT). -/
  logBuf : List (Ev × Nat)
  /-- The next event log sequence number. -/
  logSeq : Nat
  deriving DecidableEq, Repr

/-- The test access port (R440 to R442). -/
structure Jtag where
  ir    : Nat
  /-- The 2,028 cells as last captured, and the levels preloaded into them. -/
  bsr   : Nat
  latch : Nat
  deriving DecidableEq, Repr

/-- One Reed unit: what its registers do not hold (chapter 3). Times are in units of a quarter picosecond divided by
`FSTEP` × M, from the run start, so that every UI start is exact (R82). -/
structure Reed where
  /-- DRV level at the end of the last UI, and DEN level (R88, R89). -/
  drv      : Bool
  den      : Bool
  /-- Time of the last edge on each output in this run (R90). -/
  drvEdge  : Option Int
  denEdge  : Option Int
  /-- Outliers in a row of the launch and capture lines (R100). -/
  outL     : Nat
  outC     : Nat
  starvedL : Bool
  starvedC : Bool
  /-- Spare cells mapped into each line, at most two (R102). -/
  spareL   : Nat
  spareC   : Nat
  /-- The line whose calibration error or test is being handled, if any (0 launch, 1 capture). -/
  line     : Nat
  /-- The slots of `CH_RD_CHECK` commands that wait for this channel's test. -/
  checks   : List Nat
  /-- A spare was mapped in during the present test (Table 3.9, step 4b). -/
  repaired : Bool
  /-- Re-acquisition of delta in progress: 1 after a passed test, 2 after a reset of the group (Tables 3.9, 16.4). -/
  reacq    : Nat
  /-- Idle slots seen since the last measurement while the engine runs: bit 0 of the launch line, bit 1 of the capture line
  (R100). -/
  idle     : Nat
  deriving DecidableEq, Repr

/-- The calibration of a channel in force over a span of UIs: the effective values of its six paths and both drift
corrections, in units of 0.25 ps (R98 to R100). -/
structure Cal where
  k  : List Int
  dL : Int
  dC : Int
  deriving DecidableEq, Repr

/-- Reed groups: timesets, timestamp buffers, units (chapter 3). -/
structure Reeds where
  /-- Timeset entries: key (group × 256 + timeset) × 8 + lane (R84). -/
  tsets   : Tab Nat
  /-- Timestamp buffers by group, oldest record first, at most 4,096 (R95). -/
  buf     : Tab (List Nat)
  /-- Bit g: records of group g were dropped since the last that was kept. -/
  dropped : Nat
  units   : Tab Reed
  /-- Values that a table register or a timeset entry held before a write less than 64 engine cycles ago, with the
  cycle number up to which a cycle may still use them (R85, R121); newest first, key as given by the writer. -/
  prev    : Tab (List (Nat × Nat))
  /-- The calibration that each channel had before changes not yet in force, newest first, with the first UI of the run, counted
  from its start, that uses the value after it (R99, R100). -/
  cals    : Tab (List (Cal × Nat))
  deriving DecidableEq, Repr

/-- A user vector or stream vector slot: the vector's 512 bits, or the failed response of its read (R122, R123). -/
inductive SVec | ok (bits : Nat) | bad
  deriving DecidableEq, Repr

/-- What one lane of an emitted cycle uses, fixed when the cycle is issued: its timeset entry (R85), and its calibration with
what it was before changes not yet in force (R99). -/
structure LaneUse where
  entry : Nat
  cal   : Cal
  olds  : List (Cal × Nat)
  deriving DecidableEq, Repr

/-- The four words and timeset of an emitted cycle (R108), with its fail tag (R125), the UI count and time unit at which it ran,
and what its sixteen lanes use. -/
structure Cycle where
  num    : Nat
  m      : Nat
  unit   : Nat
  lanes  : List LaneUse
  data   : Nat
  expect : Nat
  cmask  : Nat
  drive  : Nat
  tset   : Nat
  fle    : Bool
  x      : Nat
  y      : Nat
  dom    : Nat
  /-- A hold cycle produces no fail and no tag (R127). -/
  held   : Bool
  deriving DecidableEq, Repr

/-- A pause point whose cycle has been emitted and whose next instruction has not been issued (R127). -/
structure Pause where
  /-- The instruction word of the pause point. -/
  word  : Nat
  cyc   : Cycle
  /-- Hold cycles emitted here. -/
  held  : Nat
  /-- The WAITF or SYNC condition has been met. -/
  met   : Bool
  /-- System tick in which the SYNC's cycle began (R134). -/
  began : Nat
  /-- `EV_PE_HOLD_LONG` has been raised for this hold. -/
  long  : Bool
  deriving DecidableEq, Repr

/-- One pattern engine: what its registers do not hold (chapter 4). -/
structure Pe where
  /-- Instruction memory; unlisted words are zero (Table 16.3). -/
  im        : Tab Nat
  /-- The value last written at `PE_IM_DATA` 0x0400. -/
  imLo      : Nat
  /-- X and Y carry flags (R115). -/
  xcy       : Bool
  ycy       : Bool
  /-- State and `PE_FAULT` before arming, for a withdrawn start (R130). -/
  prevState : Nat
  prevFault : Nat
  /-- Start address, start tick of an AT_TICK start, and the slot of the waiting `CH_PE_START`. -/
  startAddr : Nat
  startTick : Option Nat
  startSlot : Option Nat
  /-- Address of the next instruction; 65,536 past the last address (R112). -/
  npc       : Nat
  /-- Repetitions of the present REPEAT already issued (R112). -/
  reps      : Nat
  pause     : Option Pause
  /-- `STREAM_EN` at the start of the run (R111). -/
  streamOn  : Bool
  /-- Stream buffer, next vector due first (R122). -/
  stream    : List SVec
  /-- Vectors requested so far, and vectors consumed. -/
  streamReq : Nat
  streamUse : Nat
  prefilled : Bool
  /-- User vectors buffered (R124) and user flags. -/
  uport     : List Nat
  uf        : Nat
  /-- Slots of `CH_PE_PAUSE` and `CH_PE_STOP` commands that wait for the next pause point. -/
  pauseReq  : List Nat
  stopReq   : List Nat
  /-- Emitted cycles not yet compared, oldest first (R125). -/
  cmpQ      : List Cycle
  deriving DecidableEq, Repr


/-- Cross-device gang: hold announcements received and made, oldest first, and whether this device's own hold is
announced (R134, R355). -/
structure Xg where
  /-- (device ID, effective tick, hold or release). -/
  anns : List (Nat × Nat × Bool)
  held : Bool
  deriving DecidableEq, Repr

/-- A line of the bitmap staging cache (R154): one 1,024-byte block of DRAM. -/
structure BmLine where
  addr  : Nat
  /-- The 8,192 bits held, bit n of byte b at 8 × b + n. -/
  bits  : Nat
  dirty : Bool
  /-- Write-back: 0 none, 1 wanted for eviction, 2 wanted for a flush, 3 and 4 the same once its ROW_OR is queued. -/
  wb    : Nat
  /-- Hit since its ROW_OR was queued, so it stays dirty. -/
  again : Bool
  deriving DecidableEq, Repr

/-- A bitmap zeroing in progress (R155): the slot of its command, the next byte to zero and the end. -/
structure BmZero where
  slot : Nat
  next : Nat
  stop : Nat
  deriving DecidableEq, Repr

/-- Fail capture (chapter 5). -/
structure Cap where
  /-- Fail FIFO of each engine, oldest word first, at most 65,536 (R142). -/
  fifo    : Tab (List Nat)
  /-- First-fail log of each engine, at most 4,096 words (R158). -/
  ffl     : Tab (List Nat)
  /-- Bit k: words of engine k were dropped since the last that entered (R140). -/
  pendOvr : Nat
  /-- Bit k: the FAT, or the bitmap, has accepted the head word of FIFO k (R142). -/
  headFat : Nat
  headBm  : Nat
  /-- Bit k: the head word of FIFO k waits for FAT space (R148). -/
  fatWait : Nat
  /-- The dispatcher's next engine (R142). -/
  rr      : Nat
  /-- Lost-domain map, bit d for domain d (R145). -/
  lost    : Nat
  /-- Valid entries of the fail-address table by entry index (R146). -/
  fat     : Tab Nat
  /-- The entry snapshot of `FAT_PORT_DATA` (Table 5.4). -/
  snap    : Nat
  /-- Staging lines, least recently used first (R154). -/
  lines   : List BmLine
  /-- Slots of flushes in progress. -/
  flush   : List Nat
  zero    : List BmZero
  /-- The line that each engine's waiting miss has chosen to evict (R154). -/
  evict   : Tab Nat
  deriving DecidableEq, Repr

/-- Where the response to a bitmap row access fails (Table 5.13, `EV_CAP_BM_FAULT`). -/
abbrev BmRsp := Nat × Nat


/-- A domain context (Table 6.1). -/
structure RaeCtx where
  epoch   : Nat
  geom    : Nat
  seen    : Bool
  pend    : Bool
  lost    : Bool
  optimal : Bool
  decided : Bool
  verdict : Nat
  cause   : Nat
  ownR    : Nat
  ownC    : Nat
  shrR    : Nat
  shrC    : Nat
  poolR   : Nat
  poolC   : Nat
  stored  : Nat
  uncov   : Nat
  entries : Nat
  hits    : Nat
  head    : Nat
  tail    : Nat
  nodes   : Nat
  mustR   : Nat
  mustC   : Nat
  deriving DecidableEq, Repr

/-- The repair-analysis engine: what its registers and the DRAM do not hold (chapter 6). -/
structure Rae where
  /-- The context cache, least recently used first: domain, context, dirty (R166). -/
  cache   : List (Nat × RaeCtx × Bool)
  /-- Words of the recipe in force. -/
  words   : Nat
  /-- The context area has been zeroed since the last warm or cold reset (R167). -/
  zeroed  : Bool
  /-- The slot of a `CH_RA_BEGIN` whose zeroing is in progress. -/
  zeroing : Option Nat
  /-- Next FAT entry index of the scan (R172). -/
  scan    : Nat
  /-- Lower entry half written to an import window, by slot (Table 6.9). -/
  impLo   : Tab Nat
  /-- Unassigned domains that have raised their event, as a mask. -/
  noGeom  : Nat
  /-- `EV_RA_POOL_LOW` has been raised in this session. -/
  poolLow : Bool
  /-- The slot of the running `CH_RA_FINAL`, its REPORT_CLEAN, and an abort that waits (R187). -/
  final   : Option Nat
  clean   : Bool
  abort   : Bool
  /-- Steps 2 and 4 of Table 6.7 are done. -/
  drained : Bool
  lostIn  : Bool
  /-- Domains of imported lost markers, as a mask; sources given up, as a mask (R185). -/
  markers : Nat
  gone    : Nat
  /-- SOURCE mode: destination and slot, end marker sent, and import writes not yet answered. -/
  dest    : Nat
  dslot   : Nat
  ended   : Bool
  imports : Nat
  /-- Entries to send to the destination, oldest first; the lower half of the first has been sent. -/
  sends   : List Nat
  half    : Bool
  /-- Next domain to decide; records waiting, oldest first; the oldest is being written (R182). -/
  cursor  : Nat
  queue   : List Nat
  writing : Bool
  /-- `EV_RA_RING_FULL` has been raised for the present wait. -/
  waited  : Bool
  /-- Verdict records by verdict 1 to 4, and domains with `LOST` (Table 6.12). -/
  counts  : List Nat
  losts   : Nat
  deriving DecidableEq, Repr
/-- One region: what its registers do not hold (chapter 7). -/
structure Region where
  /-- Pending Chanter and engine stop requests, and the design's request at the next edge (R205). -/
  pendC   : Option Nat
  pendE   : Option Nat
  design  : Option Nat
  /-- Flip-flops: bit 2 × cell + i is FFi of that cell, cells numbered 16 × cluster + cell (R193). -/
  ff      : Nat
  /-- Boundary flip-flops by boundary output number (R200). -/
  bnd     : Nat
  /-- Incoming gate buffers, oldest word first, at most 16: key 1 + direction an edge gate, 8 + q the vertical gate of cluster
  pair q (R19, R199). The riser gate's two buffers hold packets and stand in `Net`. -/
  gates   : Tab (List Nat)
  /-- The word sent on each gate and not yet acknowledged (R19). -/
  sent    : Tab Nat
  /-- Party lines that have risen since the last PARTY_LINE_RISE, as a mask (R198). -/
  rose    : Nat
  /-- Ticks of the last `EV_FAB_PARTY` of each line (R198). -/
  partyAt : Tab Nat
  /-- Capture: next buffer index, samples taken since arming, samples still to take after the trigger, and whether the
  last sample met `TMODE` (R218). -/
  capIdx  : Nat
  capSeen : Nat
  capLeft : Nat
  capHit  : Bool
  deriving DecidableEq, Repr

/-- A serial port's buffers, oldest first (R213): a transmit entry is the `SP_TX` word; and whether a transfer is open: CS_N low,
or an I2C bus held. -/
structure Sport where
  tx   : List Nat
  rx   : List Nat
  busy : Bool
  deriving DecidableEq, Repr

/-- A stop broadcast that not every named region has evaluated: the slot of its `CH_CFG_DRAW`, or none for `FAB_BCAST`. -/
structure Bcast where
  slot : Option Nat
  stop : Nat
  left : List Nat
  deriving DecidableEq, Repr

/-- The logic fabric (chapter 7). -/
structure Fabric where
  regions : Tab Region
  ports   : Tab Sport
  bcasts  : List Bcast
  /-- The owner that the image gives each AUX_IO pin: 1 region k, 2 region k + 96 (R215, Table 8.7). -/
  auxDecl : Tab Nat
  /-- The levels of the PROBE pins, as a mask (R217). -/
  probe   : Nat
  deriving DecidableEq, Repr

/-- A library slot (Tables 8.1, 8.2): 1 FILLING, 2 PENDING, 3 VALID; its vertical-gate use map and the digest of its
image. Its CRC table, isolation table and frames stand in DRAM. -/
structure LibSlot where
  st     : Nat
  vmap   : Nat
  digest : List Byte
  deriving DecidableEq, Repr

/-- A Tongue grant (Table 8.7). -/
structure Grant where
  req    : Nat
  first  : Nat
  last   : Nat
  stops  : Nat
  slotLo : Nat
  slotHi : Nat
  deriving DecidableEq, Repr

/-- Who asked for a paging (R225, R241, R243): a segment of the load in progress, a command in a slot, a rewrite from a
slot, or a Tongue request (requester, completion address, TAG). -/
inductive PageFor
  | load
  | command (slot : Nat)
  | rewrite (slot region : Nat) (reinit : Bool)
  | tongue (req doneAddr tag : Nat)
  deriving DecidableEq, Repr

/-- A paging: source slot, targets (region, stop), those still to be marked, the states that the marked ones had, and the targets
whose content is not yet verified. -/
structure Paging where
  why     : PageFor
  slot    : Nat
  targets : List (Nat × Nat)
  toMark  : List (Nat × Nat)
  marked  : List (Nat × Nat × Nat)
  left    : List (Nat × Nat)
  deriving DecidableEq, Repr

/-- A load in progress (R228 to R242). -/
structure Load where
  /-- 0 full, 1 partial, 2 rewrite. -/
  kind    : Nat
  flash   : Bool
  golden  : Bool
  /-- The image comes from DRAM (`CH_CFG_LOAD_DRAM`). -/
  dram    : Bool
  /-- The slot of the command whose data is being consumed or whose end checks run. -/
  slot    : Option Nat
  region  : Nat
  reinit  : Bool
  /-- The 256 header bytes; empty while a flash load still reads its slot table and header. -/
  header  : List Byte
  /-- Next image byte expected (R250), bytes received and not yet consumed, and the signature. -/
  next    : Nat
  buf     : List Byte
  sig     : List Byte
  /-- Next segment, its key, and the chain of tags (R231). -/
  seg     : Nat
  key     : List Byte
  chain   : List Byte
  /-- Targets marked and slots filled by this load. -/
  targets : List (Nat × Nat)
  filled  : List Nat
  decl    : List Byte
  /-- The length that the slot table or the command gives, if any. -/
  limit   : Option Nat
  /-- A flash load reads the slot table: 1 the first copy, 2 the second; 0 the image. -/
  table   : Nat
  /-- Commands that wait while the data of an earlier one is consumed, oldest first: `CH_CFG_LOAD_DATA` with its bytes, or
  `CH_CFG_LOAD_END` (R54, R250). -/
  more    : List (Nat × Option (List Byte))
  /-- The rewrite's region is held and its stop marked (Table 8.10 step 3 done). -/
  held    : Bool
  /-- The end checks have passed and the signature is being verified. -/
  final   : Bool
  deriving DecidableEq, Repr

/-- A verified load as the measurement state records it (R248): kind with FALLBACK, sequence, version, time, digest. -/
structure LoadRec where
  kind : Nat
  seq  : Nat
  ver  : Nat
  time : Nat
  dig  : List Byte
  deriving DecidableEq, Repr

/-- A fuse burn in progress (R244 to R247, R388): its command's slot, what is burnt (0 lifecycle, 1 key, 2 revocation,
3 minimum SVN, 4 the RMA sequence, 5 root key, 6 repair records), a number and bytes. -/
structure Burn where
  slot : Nat
  what : Nat
  num  : Nat
  data : List Byte
  deriving DecidableEq, Repr

/-- Configuration and security (chapter 8). -/
structure Cfg where
  slots   : Tab LibSlot
  /-- The configuration layers: frame q of stop s of region r at key (8r + s) × 1600 + q; unlisted frames are zero. -/
  conf    : Tab (List Byte)
  /-- Source slot, vertical-gate use map and isolation table of a stop, at key 8r + s. -/
  src     : Tab Nat
  vuse    : Tab Nat
  iso     : Tab Nat
  grants  : List Grant
  load    : Option Load
  /-- The paging in progress, and pagings that wait their turn (R54, R243). -/
  page    : Option Paging
  waiting : List Paging
  /-- A rewrite from a slot whose region is not yet held: slot of command, library slot, region, REINIT. -/
  rewrite : Option (Nat × Nat × Nat × Bool)
  /-- Flash load: the slot table's golden image (address, length, dummy cycles) once read. -/
  golden  : Option (Nat × Nat × Nat)
  /-- Tongue completion words that wait for the network: address and word (R243). -/
  doneQ   : List (Nat × Nat)
  acc     : List Byte
  loads   : List LoadRec
  loadSeq : Nat
  /-- eFuse contents: owner key hashes, AES root key, RMA pending (R244 to R246). -/
  keyHash : Tab (List Byte)
  rootKey : List Byte
  rmaPend : Bool
  /-- The fused minimum security version of Chanter firmware (R75). -/
  fwMinSvn : Nat
  burns   : List Burn
  /-- The most recent nonce not yet consumed, and the request buffer (R247). -/
  nonce   : Option (List Byte)
  reqBuf  : Tab Byte
  report  : List Byte
  deriving DecidableEq, Repr


/-- The scratchpads: what the registers and the memory do not hold (chapter 9). Banks are numbered 16 × region + bank. -/
structure Spads where
  /-- Words that read as uncorrectable, by network address (R259). -/
  bad   : List Nat
  /-- The target state of each bank in transition (R262). -/
  goal  : Tab Nat
  /-- The last operation port A performed on each bank: 2 × bank word, plus 1 for a write or atomic (R257). -/
  lastA : Tab Nat
  /-- The spare-column map of each bank, as `CH_SP_COLMAP_READ` gives it (Table 9.6). -/
  cols  : Tab Nat
  /-- The factory map of each bank, set by eFuse, in the same form (R264). -/
  fuse  : Tab Nat
  /-- Banks being rewritten through a new map: the rewrite point, the first bank word still on the old one (R264). -/
  remap : Tab Nat
  /-- `CH_SP_POWER` commands that wait: slot, region, state, banks (R267). -/
  waits : List (Nat × Nat × Nat × List Nat)
  deriving DecidableEq, Repr

/-- Who started a network request: the design of a region, a DMA engine for a channel: the channel, the use (1 data read, 2 data write, 3 descriptor fetch, 4 status write, 5 fence read,
6 tail re-read, plus 8 times the transfer's number) and the piece, a Windway port on behalf of a remote request (its packet's
fields, R347), Chanter for a peek or poke (R72), the repair-analysis engine in the session of an epoch, for half an entry imported at
another device or for a record (R182, R185), or the Tongue port for a completion word (R243). -/
inductive Agent
  | design (r : Nat)
  | dma (ch use pos : Nat)
  | proxy (port src ni idx ep : Nat) (rroute hops : Nat)
  | chanter (slot : Nat)
  | rae (record : Bool) (epoch : Nat)
  | tongue
  deriving DecidableEq, Repr

/-- A network request (Table 11.3). -/
structure NReq where
  ni   : Nat
  idx  : Nat
  ep   : Nat
  kind : Nat
  cls  : Nat
  addr : Nat
  /-- The device of a remote request. -/
  dev  : Option Nat
  /-- Words. -/
  n    : Nat
  rbe  : Nat
  /-- Byte enables and data of each word. -/
  bes  : List Nat
  data : List Nat
  deriving DecidableEq, Repr

/-- A response buffer in use: an outstanding request at its initiator (R295). -/
structure NOut where
  req : NReq
  who : Agent
  /-- Sent, or still waiting for credit at its own NI. -/
  sent : Bool
  /-- The timeout that applies, in 100 ns units (R307). -/
  tmo : Nat
  /-- Sent over Windway under this epoch (R346). -/
  wwEp : Option Nat
  deriving DecidableEq, Repr

/-- A response on its way to its initiator (Table 11.4). -/
structure NRsp where
  ni     : Nat
  idx    : Nat
  ep     : Nat
  code   : Nat
  detail : Nat
  /-- First word not performed. -/
  word   : Nat
  data   : List Nat
  /-- The NI of the target, for its route. -/
  from'  : Nat
  deriving DecidableEq, Repr

/-- The network (chapter 11). -/
structure Net where
  /-- Requests sent and not yet performed, oldest first. -/
  flight : List NReq
  /-- Requests in riser gates towards a region's scratchpad, in the order in which they reached it: at most 16 for each region
  (R19, R199, R310). -/
  gate   : List NReq
  /-- Requests of designs in riser gates towards the network, oldest first, at most 16 for each region; buffer and epoch are not
  yet chosen. -/
  riser  : List NReq
  outs   : List NOut
  rsps   : List NRsp
  /-- Epoch and owed mask of each response buffer, at key router × 512 + index (R308). -/
  bufs   : Tab (Nat × Nat)
  /-- The NI that each withheld buffer counts for. -/
  held   : Tab Nat
  /-- Domains not OPEN: 1 CLOSING, 2 CLOSED with the closing kind 0 reset, 1 power-down, 2 retirement (Table 11.7): state +
  4 × kind, by domain number. -/
  doms   : Tab Nat
  /-- Lost user-port credits of each engine (R296). -/
  credit : Tab Nat
  /-- Routers that have not applied the pending class weights, in order (R312). -/
  wrrTo  : List Nat
  /-- The class weights that each router uses, in the layout of `NET_WRR`; unlisted routers use its reset value. -/
  wts    : Tab Nat
  /-- Link retirements that wait for a router to quiesce: (router, port, half) (R312, R313). -/
  linkQ  : List (Nat × Nat × Nat)
  /-- Link halves retired: 4 × router + port to a mask of halves. -/
  halves : Tab Nat
  /-- Routers whose weight change was abandoned and is to be retried. -/
  retry  : List Nat
  deriving DecidableEq, Repr

/-- A queued read of the DRAM controller: its network request, or none for a row-port user's; whether it is RT class; its
range; its time of acceptance in ticks; the words as of acceptance; the same over a DRAM of zeros; and the bytes that queued
plain writes supplied (R275). -/
structure DrRead where
  net   : Option (Nat × Nat × Nat)
  rt    : Bool
  addr  : Nat
  n     : Nat
  since : Nat
  data  : List Nat
  zeros : List Nat
  fwd   : Nat
  deriving DecidableEq, Repr

/-- A queued write: start address, what each byte held before (nothing where it is not enabled), the bytes to store or, for
a ROW_OR, to OR in (R274). The memory shows accepted writes at once. -/
structure DrWrite where
  addr  : Nat
  old   : List (Option Byte)
  data  : List Byte
  rowOr : Bool
  deriving DecidableEq, Repr

/-- The DRAM controller (chapter 10). -/
structure Dram where
  rq     : List DrRead
  wq     : List DrWrite
  /-- The last 64 commands issued, newest first (Table 10.9). -/
  cmds   : List Nat
  /-- The history taken at the last freeze (`DR_HIST`). -/
  hist   : List Nat
  /-- Uncorrectable granules, by address. -/
  bad    : List Nat
  /-- A training in progress: its cause and the slots of its commands (R283). -/
  train  : Option (Nat × List Nat)
  /-- A frequency change pending: slot, `FREQ`, and whether it is deferred behind a training (R285). -/
  freq   : Option (Nat × Nat × Bool)
  /-- A thaw in progress: slot, FLUSH_READS, held writes and held reads left (R288). -/
  thaw   : Option (Nat × Bool × Nat × Nat)
  /-- Maximum temperature of each DRAM layer at the last training (R283). -/
  temps  : List Int
  deriving DecidableEq, Repr

/-- A packet that waits to cross a port (R344, R349). -/
structure WwPkt where
  /-- `WTYPE`, header and fields. -/
  kind   : Nat
  head   : List Nat
  fields : List Nat
  /-- Flits still to send, the header among them. -/
  left   : Nat
  deriving DecidableEq, Repr

/-- One Windway port's link (R337, R338, R349, R352). -/
structure WwPort where
  /-- The partner's unique ID, as training gave it. -/
  uid     : Nat
  /-- SEQ of the next frame to send; frames sent and not acknowledged, oldest first: SEQ and resends. -/
  txSeq   : Nat
  unacked : List (Nat × Nat)
  /-- Packets that wait for the window of 64, oldest first; the slot of the weighted frame that comes next; frames sent since
  the last one of HOLD_ANN, XG_FAULT or PROBE (R302, R349). -/
  line    : List WwPkt
  slot    : Nat
  calm    : Nat
  /-- SEQ of the next frame to accept, and whether the present gap has had its NAK. -/
  rxSeq   : Nat
  gap     : Bool
  /-- CRC errors in the present 1 ms window, and lane check failures of each lane in failing frames. -/
  errs    : Nat
  fails   : List Nat
  /-- The partner's last time code and this device's time at its arrival; one-way delay; in twelfths of a picosecond. -/
  heard   : Option (Nat × Nat)
  delay   : Nat
  deriving DecidableEq, Repr

/-- A device as the root's discovery found it: unique ID, path from the root, and for each port its state, the partner's
unique ID and the partner's port (Table 13.2). -/
structure WwNode where
  uid   : Nat
  path  : List Nat
  ports : List (Nat × Nat × Nat)
  deriving DecidableEq, Repr

/-- A discovery or route change at the root (Tables 13.2, 13.5). -/
structure WwChange where
  /-- The slot of its command; none for an automatic one. -/
  slot  : Option Nat
  /-- It began as a discovery. -/
  disc  : Bool
  /-- The root writes the routes it computes (mode 0). -/
  write : Bool
  /-- 0 collecting replies, 1 waiting for OLD to be 0, 2 path writes, 3 switches. -/
  phase : Nat
  /-- Acknowledgements still expected. -/
  acks  : Nat
  deriving DecidableEq, Repr

/-- Windway (chapter 13). -/
structure Ww where
  ports  : Tab WwPort
  /-- Serial of the last discovery of this root; (root, serial) pairs of PROBEs answered. -/
  serial : Nat
  seen   : List (Nat × Nat)
  /-- This device gave up the root and ignores its bridge (R339). -/
  gaveUp : Bool
  /-- The root's assignment table: unique ID and device ID, in the always-on island (R341). -/
  ids    : List (Nat × Nat)
  /-- The devices found, the root first, and the IDs that have a route. -/
  topo   : List WwNode
  reach  : List Nat
  change : Option WwChange
  /-- Automatic actions that wait for the present one to end: bit 0 reroute, bit 1 rediscover (R351). -/
  want   : Nat
  /-- Remote requests that wait for a free response buffer, oldest first: port, fields and who asked (R347). -/
  queue  : List (Nat × NReq × Agent)
  deriving DecidableEq, Repr

/-- A piece of a DMA transfer: byte offset from where this run of the transfer began, words, and data once read. `st`: 0 read
outstanding, 1 read, 2 write outstanding, 3 written, 4 not to be written (R319, R329 to R331). -/
structure DmaChunk where
  pos  : Nat
  n    : Nat
  data : List Nat
  st   : Nat
  deriving DecidableEq, Repr

/-- One DMA channel: what its registers do not hold (chapter 12). -/
structure DmaCh where
  /-- The channel's next business: 0 moving data, 1 fetching a descriptor, 2 fence, 3 fence passed, 4 status write, 5 tail
  re-read, 6 promoting the shadow. -/
  phase  : Nat
  /-- Counts transfers, so that a late write's answer is told apart (R326). -/
  gen    : Nat
  /-- SRC, DST and LEN where this run of the transfer began; bytes whose reads have been issued; pieces not yet confirmed. -/
  src0   : Nat
  dst0   : Nat
  len0   : Nat
  rd     : Nat
  chunks : List DmaChunk
  /-- Words left in the present burst (R328). -/
  burst  : Nat
  /-- Bytes moved since the channel was loaded (R317). -/
  moved  : Nat
  /-- The one request of phases 1, 2, 4 and 5 is outstanding. -/
  out    : Bool
  /-- The fence waits for all writes (R326). -/
  allw   : Bool
  /-- The first failure has been recorded in the registers (R331). -/
  failed : Bool
  /-- The engine is to be given up once drained: 1 to yield, 2 for want of a request (R317, R328). -/
  stop   : Nat
  /-- Offset from which nothing more is written (R329, R330). -/
  cut    : Option Nat
  /-- DEFERRED of the status word (Table 12.3), and RESULT of the status write. -/
  dfr    : Bool
  result : Nat
  /-- Requests answered BUSY that wait for their reissue (R320). -/
  retry  : List (NReq × Agent)
  /-- Slots of waiting `CH_DMA_START`, `CH_DMA_PAUSE`, `CH_DMA_ABORT` (or `CH_SYS_ABORT`) and `CH_DMA_STATUS` commands. -/
  startW : List Nat
  pauseW : List Nat
  abortW : List Nat
  statW  : List Nat
  /-- Register reads of `DMA_CH_STAT` that wait for the tail re-read (R323). -/
  statR  : Nat
  deriving DecidableEq, Repr

/-- The DMA block (chapter 12). -/
structure Dma where
  chs     : Tab DmaCh
  /-- Channels that wait for an engine. -/
  queued  : List Nat
  /-- The channel that each engine runs. -/
  engines : Tab Nat
  /-- The channel last taken at each priority (R317). -/
  rr      : Tab Nat
  deriving DecidableEq, Repr
/-- An element queued for or under a targeted test (R381), named as in Table 15.8. -/
structure TestItem where
  kind  : Nat
  loc   : Nat
  /-- Slots of `CH_ST_RUN` commands that wait for the result. -/
  slots : List Nat
  deriving DecidableEq, Repr

/-- A full self-test in progress (R380): its slot, and the slots of aborts that wait for its end. -/
structure FullTest where
  slot   : Nat
  aborts : List Nat
  deriving DecidableEq, Repr

/-- The self-test engine (chapter 15). -/
structure SelfTest where
  queue   : List TestItem
  cur     : Option TestItem
  /-- The slice in progress: kind, first element and the device state in which it started. -/
  slice   : Option (Nat × Nat × Nat)
  /-- Next element of each kind (R376). -/
  ptr     : Tab Nat
  /-- Next kind in round-robin order. -/
  kind    : Nat
  /-- Consecutive periods in which each kind was skipped (Table 15.14). -/
  skips   : Tab Nat
  full    : Option FullTest
  /-- The repair log, oldest entry first (Table 15.7). -/
  log     : List Nat
  /-- Repairs and retirements in force: factory, fused and logged entries. -/
  applied : List Nat
  /-- The fuse repair records, at most 256, oldest first (R388). -/
  fused   : List Nat
  /-- The log with its pending entries as this BOOT decided them, empty if none was pending, and the events that those decisions
  raise on entry to FW: code, severity and ARG (R387). -/
  decided : List Nat
  told    : List ((Nat × Nat) × Nat)
  deriving DecidableEq, Repr

/-- Ligature (R391 to R395). -/
structure Ligature where
  /-- A reload in progress: region, stop, frame, first failing word. -/
  reload  : Option (Nat × Nat × Nat × Nat)
  /-- A reload whose read-back failed and whose word is under test (R394). -/
  testing : Bool
  /-- A restart waits for the reload in progress (R395). -/
  restart : Bool
  deriving DecidableEq, Repr

/-- The device: everything the spec gives it. -/
structure Chip where
  /-- Registers: (register offset × 1024 + lowest bit) to field value; unlisted fields hold their reset value. -/
  rf      : Tab Nat
  /-- DRAM layers and scratchpads. -/
  mem     : Memory
  aon     : Aon
  ch      : Chanter
  th      : Thermal
  rd      : Reeds
  pe      : Tab Pe
  xg      : Xg
  /-- Stop requests on their way to a region: (region, source 0 design, 1 engine, 2 Chanter, stop) (R205). -/
  stops   : List (Nat × Nat × Nat)
  cap     : Cap
  rae     : Rae
  fab     : Fabric
  sp      : Spads
  net     : Net
  ww      : Ww
  dma     : Dma
  dr      : Dram
  cfg     : Cfg
  st      : SelfTest
  lg      : Ligature
  nvs     : Nvs
  jtag    : Jtag
  /-- The index of the next free value: the model's own field (log entry 2). -/
  freeCtr : Nat
  /-- The transition that the last command brought, and the one that the command before it brought (R24; log entry 43). -/
  turn    : Option Turn
  prior   : Option Turn
  /-- What the last command sent out of the device: the model's own field (log entry 3). -/
  out     : List Out
  deriving DecidableEq, Repr

/-! ## The parts right after reset: nothing in progress, every table empty. The always-on part, the fuses and the NVS
keep what they hold through a warm reset (Table 16.3). -/

def Aon.init : Aon :=
  { rstArm := none, protoErr := false, i3cOpen := false, resetLow := false, railHold := false, refHold := false, held := false,
    bootCause := none, addrSel := 0, bootSrc := 0, aux18 := false, coolForced := false, coolLowUs := 0, rstInShut := false,
    restartMs := 0, onFw := [], dramZero := true, booted := false }
def Chanter.init : Chanter :=
  { slots := [], nextId := 0, replies := [], events := [], lossRun := 0, ibiReply := false, notices := false, restarting := false, watchdog := false,
    fwd := [], fw := none, copy := 0xFF, fwVersion := 0, fwSvn := 0, resetDue := false, commitDue := [], busy := false, access := [] }
def Thermal.init : Thermal := { sensors := [], overMs := [], inletBad := false, riseBad := false, dramCool := 0 }
def Reeds.init : Reeds := { tsets := [], buf := [], dropped := 0, units := [], prev := [], cals := [] }
def Xg.init : Xg := { anns := [], held := false }
def Cap.init : Cap :=
  { fifo := [], ffl := [], pendOvr := 0, headFat := 0, headBm := 0, fatWait := 0, rr := 0, lost := 0, fat := [], snap := 0,
    lines := [], flush := [], zero := [], evict := [] }
def Rae.init : Rae :=
  { cache := [], words := 0, zeroed := false, zeroing := none, scan := 0, impLo := [], noGeom := 0, poolLow := false,
    final := none, clean := false, abort := false, drained := false, lostIn := false, markers := 0, gone := 0, dest := 0,
    dslot := 0, ended := false, imports := 0, sends := [], half := false, cursor := 0, queue := [], writing := false, waited := false,
    counts := [0, 0, 0, 0], losts := 0 }
def Fabric.init : Fabric := { regions := [], ports := [], bcasts := [], auxDecl := [], probe := 0 }
def Spads.init : Spads := { bad := [], goal := [], lastA := [], cols := [], fuse := [], remap := [], waits := [] }
def Net.init : Net :=
  { flight := [], gate := [], riser := [], outs := [], rsps := [], bufs := [], held := [], doms := [], credit := [], wrrTo := [], wts := [], linkQ := [],
    halves := [], retry := [] }
def Ww.init : Ww :=
  { ports := [], serial := 0, seen := [], gaveUp := false, ids := [], topo := [], reach := [], change := none, want := 0, queue := [] }
def Dma.init : Dma := { chs := [], queued := [], engines := [], rr := [] }
def Dram.init : Dram :=
  { rq := [], wq := [], cmds := [], hist := [], bad := [], train := none, freq := none, thaw := none, temps := [] }
def Cfg.init : Cfg :=
  { slots := [], conf := [], src := [], vuse := [], iso := [], grants := [], load := none, page := none, waiting := [],
    rewrite := none, golden := none, doneQ := [], acc := List.replicate 64 0, loads := [], loadSeq := 0, keyHash := [],
    rootKey := List.replicate 32 0, rmaPend := false, fwMinSvn := 0, burns := [], nonce := none, reqBuf := [], report := [] }
def SelfTest.init : SelfTest :=
  { queue := [], cur := none, slice := none, ptr := [], kind := 0, skips := [], full := none, log := [], applied := [], fused := [],
    decided := [], told := [] }
def Ligature.init : Ligature := { reload := none, testing := false, restart := false }
def Nvs.init : Nvs := { words := [], uncorr := [], jobs := [], logBuf := [], logSeq := 0 }
def Jtag.init : Jtag := { ir := 0x01, bsr := 0, latch := 0 }

/-- The device right after a cold reset: every register at its Reset column (R9), so in BOOT (Table 1.6), with supplies,
REFCLK and coolant present and nothing stored (log entries 1 and 8). -/
def Chip.reset : Chip :=
  { rf := [], mem := [], aon := Aon.init, ch := Chanter.init, th := Thermal.init, rd := Reeds.init, pe := [], xg := Xg.init,
    stops := [], cap := Cap.init, rae := Rae.init, fab := Fabric.init, sp := Spads.init, net := Net.init, ww := Ww.init,
    dma := Dma.init, dr := Dram.init, cfg := Cfg.init, st := SelfTest.init, lg := Ligature.init, nvs := Nvs.init,
    jtag := Jtag.init, freeCtr := 0, turn := none, prior := none, out := [] }

/-- The machine: the device and the commands that wait, first in, first out. -/
structure State where
  chip    : Chip
  pending : List Instr
  deriving DecidableEq, Repr

/-- The machine right after reset. -/
def State.reset : State := { chip := Chip.reset, pending := [] }

end Sys2Proof.Machine
end

