-- ==== Sys2Proof/Machine/Regs.lean ====
section
/-! DEFINITION. The register map of control space: one `Fld` per field of every field map of the spec
(base address within control space, lowest bit, width, access code of Table 0.2, reset value), and the table that
finds the register at a control-space offset. Offsets are relative to 0x0200_0000_0000 (R27). -/

namespace Sys2Proof.Machine

/-- Access codes, Table 0.2 (R8). -/
inductive Acc | ro | rw | rw1c | wo | rws | rof | rwl
  deriving DecidableEq, Repr

/-- One field of a register: the register's control-space offset, the field's lowest bit and width, its access code
and its reset value (R8, R9). -/
structure Fld where
  off : Nat
  lo  : Nat
  w   : Nat
  acc : Acc
  rst : Nat
  deriving DecidableEq, Repr

/-- The key of a field in the register file: its register's offset and its lowest bit. -/
def Fld.key (f : Fld) : Nat := f.off * 1024 + f.lo

/-- A register, or an array of registers with up to two indices (R6). -/
structure RegRow where
  name : String
  base : Nat
  n1   : Nat
  st1  : Nat
  n2   : Nat
  st2  : Nat
  wide : Bool
  flds : Nat → Nat → List Fld

/-! System (R21, R70) -/

def F.SYS_STATE_STATE : Fld := ⟨0x0, 0, 4, .ro, 2⟩
def F.SYS_STATE_FALLBACK : Fld := ⟨0x0, 4, 1, .ro, 0⟩
def F.SYS_STATE_PREV_STATE : Fld := ⟨0x0, 8, 4, .ro, 0⟩
def F.SYS_STATE_CAUSE : Fld := ⟨0x0, 16, 8, .ro, 0⟩
def F.SYS_STATE_STRICT_HALT : Fld := ⟨0x0, 24, 1, .ro, 0⟩
def F.SYS_STATE_COOLANT_OK : Fld := ⟨0x0, 25, 1, .ro, 1⟩
def F.SYS_STATE_LOGIC_PG : Fld := ⟨0x0, 26, 1, .ro, 0⟩
def F.SYS_STATE_BOOT_COUNT : Fld := ⟨0x0, 32, 16, .ro, 0⟩
def F.SYS_ID_FAMILY : Fld := ⟨0x8, 0, 8, .rof, 0x7A⟩
def F.SYS_ID_DEVICE : Fld := ⟨0x8, 8, 8, .rof, 9⟩
def F.SYS_ID_STACK_REV : Fld := ⟨0x8, 16, 8, .rof, 2⟩
def F.SYS_ID_DEVICE_ID : Fld := ⟨0x8, 24, 12, .ro, 0xFFF⟩
def F.SYS_ID_ROOT : Fld := ⟨0x8, 36, 1, .ro, 0⟩
def F.SYS_UID_LO_UID : Fld := ⟨0x10, 0, 64, .rof, 0⟩
def F.SYS_UID_HI_UID : Fld := ⟨0x18, 0, 64, .rof, 0⟩
def F.CH_QSTAT_IN_FLIGHT : Fld := ⟨0x20, 0, 6, .ro, 0⟩
def F.CH_QSTAT_URGENT_IN_FLIGHT : Fld := ⟨0x20, 6, 2, .ro, 0⟩
def F.CH_QSTAT_FWD_IN_FLIGHT : Fld := ⟨0x20, 16, 9, .ro, 0⟩
def F.CH_QSTAT_REFUSALS_WAITING : Fld := ⟨0x20, 25, 4, .ro, 0⟩
def F.CH_CNT_A_HDR_CRC_ERR : Fld := ⟨0x28, 0, 32, .ro, 0⟩
def F.CH_CNT_A_PAY_CRC_ERR : Fld := ⟨0x28, 32, 32, .ro, 0⟩
def F.CH_CNT_B_BUSY_REFUSALS : Fld := ⟨0x30, 0, 32, .ro, 0⟩
def F.CH_CNT_B_FWD_LATE : Fld := ⟨0x30, 32, 32, .ro, 0⟩
def F.CH_CNT_CLR_CLR_A : Fld := ⟨0x38, 0, 1, .wo, 0⟩
def F.CH_CNT_CLR_CLR_B : Fld := ⟨0x38, 1, 1, .wo, 0⟩
def F.EVQ_STAT_COUNT : Fld := ⟨0x40, 0, 9, .ro, 0⟩
def F.EVQ_STAT_UNMASKED : Fld := ⟨0x40, 16, 9, .ro, 0⟩
def F.EVQ_LOST_A_LOST_INFO : Fld := ⟨0x48, 0, 32, .ro, 0⟩
def F.EVQ_LOST_A_LOST_WARN : Fld := ⟨0x48, 32, 32, .ro, 0⟩
def F.EVQ_LOST_B_LOST_ERROR : Fld := ⟨0x50, 0, 32, .ro, 0⟩
def F.EVQ_LOST_B_LOST_FATAL : Fld := ⟨0x50, 32, 32, .ro, 0⟩
def F.EVQ_MASK_MASK : Fld := ⟨0x58, 0, 48, .rw, 0x111111111111⟩
def F.EVQ_CTL_CLR_LOST : Fld := ⟨0x60, 0, 1, .wo, 0⟩
def F.EVQ_CTL_FLUSH : Fld := ⟨0x60, 1, 1, .wo, 0⟩
def F.I3C_STAT_DYN_ADDR : Fld := ⟨0x68, 0, 7, .ro, 0⟩
def F.I3C_STAT_DYN_VALID : Fld := ⟨0x68, 7, 1, .ro, 0⟩
def F.I3C_STAT_STATIC_ADDR : Fld := ⟨0x68, 8, 7, .ro, 0x30⟩
def F.I3C_STAT_IBI_EN : Fld := ⟨0x68, 15, 1, .ro, 0⟩
def F.I3C_STAT_MWL : Fld := ⟨0x68, 16, 13, .ro, 0x1014⟩
def F.I3C_STAT_MRL : Fld := ⟨0x68, 32, 13, .ro, 0x1014⟩

/-! Configuration (R249) -/

def F.CFG_STAT_PHASE : Fld := ⟨0x100000, 0, 2, .ro, 0⟩
def F.CFG_STAT_KIND : Fld := ⟨0x100000, 2, 2, .ro, 0⟩
def F.CFG_STAT_SRC_FLASH : Fld := ⟨0x100000, 4, 1, .ro, 0⟩
def F.CFG_STAT_GOLDEN : Fld := ⟨0x100000, 5, 1, .ro, 0⟩
def F.CFG_STAT_TBL_COPY : Fld := ⟨0x100000, 6, 1, .ro, 0⟩
def F.CFG_STAT_LAST_STATUS : Fld := ⟨0x100000, 8, 8, .ro, 0⟩
def F.CFG_STAT_LAST_DETAIL : Fld := ⟨0x100000, 16, 8, .ro, 0⟩
def F.CFG_STAT_LAST_SEG : Fld := ⟨0x100000, 24, 12, .ro, 0⟩
def F.CFG_LIB_BASE_ADDR : Fld := ⟨0x100008, 0, 48, .rw, 0x100000000⟩
def F.CFG_LIB_SLOTS_SLOTS : Fld := ⟨0x100010, 0, 13, .rw, 0x800⟩
def F.CFG_LIB_USE_VALID : Fld := ⟨0x100018, 0, 13, .ro, 0⟩
def F.CFG_LIB_USE_BUSY : Fld := ⟨0x100018, 13, 13, .ro, 0⟩
def F.SEC_STAT_LC : Fld := ⟨0x100020, 0, 3, .ro, 1⟩
def F.SEC_STAT_SLOT_PROG : Fld := ⟨0x100020, 8, 4, .ro, 0⟩
def F.SEC_STAT_SLOT_REV : Fld := ⟨0x100020, 12, 4, .ro, 0⟩
def F.SEC_STAT_ROOTKEY : Fld := ⟨0x100020, 16, 2, .ro, 0⟩
def F.SEC_STAT_MIN_SVN : Fld := ⟨0x100020, 24, 8, .ro, 0⟩
def F.TONGUE_REQ_W : Fld := ⟨0x102000, 0, 128, .wo, 0⟩

/-! Pattern engines (R135) -/

def F.PE_CTL_FSTEP (i : Nat) : Fld := ⟨0x200000 + 0x10000 * i, 0, 9, .ro, 0x1E0⟩
def F.PE_CTL_MCODE (i : Nat) : Fld := ⟨0x200000 + 0x10000 * i, 9, 2, .ro, 3⟩
def F.PE_CTL_GANG_EN (i : Nat) : Fld := ⟨0x200000 + 0x10000 * i, 11, 1, .ro, 0⟩
def F.PE_CTL_GANG_LEADER (i : Nat) : Fld := ⟨0x200000 + 0x10000 * i, 12, 4, .ro, 0⟩
def F.PE_CTL_XSYS (i : Nat) : Fld := ⟨0x200000 + 0x10000 * i, 16, 1, .ro, 0⟩
def F.PE_CTL_STREAM_EN (i : Nat) : Fld := ⟨0x200000 + 0x10000 * i, 17, 1, .rw, 0⟩
def F.PE_CTL_UPORT_EN (i : Nat) : Fld := ⟨0x200000 + 0x10000 * i, 18, 1, .rw, 0⟩
def F.PE_CTL_UPORT_REGION (i : Nat) : Fld := ⟨0x200000 + 0x10000 * i, 20, 8, .rw, 0⟩
def F.PE_STAT_STATE (i : Nat) : Fld := ⟨0x200008 + 0x10000 * i, 0, 4, .ro, 0⟩
def F.PE_STAT_THROTTLE_REQ (i : Nat) : Fld := ⟨0x200008 + 0x10000 * i, 4, 1, .ro, 0⟩
def F.PE_STAT_CAP_REQ (i : Nat) : Fld := ⟨0x200008 + 0x10000 * i, 5, 1, .ro, 0⟩
def F.PE_STAT_HOLD (i : Nat) : Fld := ⟨0x200008 + 0x10000 * i, 6, 1, .ro, 0⟩
def F.PE_STAT_HOLD_WHY (i : Nat) : Fld := ⟨0x200008 + 0x10000 * i, 7, 8, .ro, 0⟩
def F.PE_STAT_FAIL (i : Nat) : Fld := ⟨0x200008 + 0x10000 * i, 15, 1, .ro, 0⟩
def F.PE_STAT_GF (i : Nat) : Fld := ⟨0x200008 + 0x10000 * i, 16, 4, .ro, 0⟩
def F.PE_STAT_PC (i : Nat) : Fld := ⟨0x200008 + 0x10000 * i, 20, 16, .ro, 0⟩
def F.PE_STAT_STACK_DEPTH (i : Nat) : Fld := ⟨0x200008 + 0x10000 * i, 36, 4, .ro, 0⟩
def F.PE_STAT_STREAM_LEVEL (i : Nat) : Fld := ⟨0x200008 + 0x10000 * i, 40, 15, .ro, 0⟩
def F.PE_STAT_UPORT_LEVEL (i : Nat) : Fld := ⟨0x200008 + 0x10000 * i, 55, 7, .ro, 0⟩
def F.PE_CYCLE_COUNT (i : Nat) : Fld := ⟨0x200010 + 0x10000 * i, 0, 64, .ro, 0⟩
def F.PE_HOLD_COUNT (i : Nat) : Fld := ⟨0x200018 + 0x10000 * i, 0, 48, .ro, 0⟩
def F.PE_START_TICK_TICK (i : Nat) : Fld := ⟨0x200020 + 0x10000 * i, 0, 64, .ro, 0⟩
def F.PE_FAULT_CODE (i : Nat) : Fld := ⟨0x200028 + 0x10000 * i, 0, 8, .ro, 0⟩
def F.PE_FAULT_ADDR (i : Nat) : Fld := ⟨0x200028 + 0x10000 * i, 8, 16, .ro, 0⟩
def F.PE_GRP_G (i : Nat) (k : Nat) : Fld := ⟨0x200030 + 0x10000 * i, 0 + 3 * k, 3, .rw, 0⟩
def F.PE_SYNC_PERIOD_TICKS (i : Nat) : Fld := ⟨0x200038 + 0x10000 * i, 0, 32, .rw, 375⟩
def F.PE_STREAM_BASE_ADDR (i : Nat) : Fld := ⟨0x200040 + 0x10000 * i, 0, 48, .rw, 0⟩
def F.PE_STREAM_LEN_LEN (i : Nat) : Fld := ⟨0x200048 + 0x10000 * i, 0, 32, .rw, 0⟩
def F.PE_IM_ADDR_ADDR (i : Nat) : Fld := ⟨0x200050 + 0x10000 * i, 0, 16, .rw, 0⟩
def F.PE_IM_ADDR_AUTOINC (i : Nat) : Fld := ⟨0x200050 + 0x10000 * i, 16, 1, .rw, 1⟩
def F.PE_STOPBIND_MASK (i : Nat) (j : Nat) : Fld := ⟨0x200060 + 0x10000 * i + 0x8 * j, 0, 64, .rw, 0⟩
def F.PE_XALU_VAL (i : Nat) (j : Nat) : Fld := ⟨0x200080 + 0x10000 * i + 0x8 * j, 0, 32, .rw, 0⟩
def F.PE_YALU_VAL (i : Nat) (j : Nat) : Fld := ⟨0x2000C0 + 0x10000 * i + 0x8 * j, 0, 32, .rw, 0⟩
def F.PE_LC_VAL (i : Nat) (j : Nat) : Fld := ⟨0x200100 + 0x10000 * i + 0x8 * j, 0, 32, .rw, 0⟩
def F.PE_D_VAL (i : Nat) (j : Nat) : Fld := ⟨0x200200 + 0x10000 * i + 0x10 * j, 0, 128, .rw, 0⟩
def F.PE_LFSR_VAL (i : Nat) : Fld := ⟨0x200280 + 0x10000 * i, 0, 64, .rw, 1⟩
def F.PE_DM_BASE (i : Nat) (j : Nat) : Fld := ⟨0x200300 + 0x10000 * i + 0x8 * j, 0, 20, .rw, 0⟩
def F.PE_DM_XSH (i : Nat) (j : Nat) : Fld := ⟨0x200300 + 0x10000 * i + 0x8 * j, 20, 5, .rw, 0⟩
def F.PE_DM_XW (i : Nat) (j : Nat) : Fld := ⟨0x200300 + 0x10000 * i + 0x8 * j, 25, 5, .rw, 0⟩
def F.PE_DM_YSH (i : Nat) (j : Nat) : Fld := ⟨0x200300 + 0x10000 * i + 0x8 * j, 30, 5, .rw, 0⟩
def F.PE_DM_YW (i : Nat) (j : Nat) : Fld := ⟨0x200300 + 0x10000 * i + 0x8 * j, 35, 5, .rw, 0⟩
def F.PE_STACK_ADDR (i : Nat) (j : Nat) : Fld := ⟨0x200340 + 0x10000 * i + 0x8 * j, 0, 16, .ro, 0⟩
def F.PE_IM_DATA_LO_W (i : Nat) : Fld := ⟨0x200400 + 0x10000 * i, 0, 128, .wo, 0⟩
def F.PE_IM_DATA_HI_W (i : Nat) : Fld := ⟨0x200410 + 0x10000 * i, 0, 128, .wo, 0⟩
def F.PE_PINMODE_W (i : Nat) (j : Nat) : Fld := ⟨0x201000 + 0x10000 * i + 0x10 * j, 0, 128, .rw, 0⟩
def F.PE_PINMAP_E (i : Nat) (j : Nat) (k : Nat) : Fld := ⟨0x202000 + 0x10000 * i + 0x8 * j, 0 + 8 * k, 8, .rw, 0x41⟩
def F.PE_ASCR_E (i : Nat) (j : Nat) (k : Nat) : Fld := ⟨0x204000 + 0x10000 * i + 0x8 * j, 0 + 32 * k, 32, .rw, 0⟩
def F.PE_DSCR_E (i : Nat) (j : Nat) (k : Nat) : Fld := ⟨0x208000 + 0x10000 * i + 0x8 * j, 0 + 16 * k, 16, .rw, 0⟩

/-! Reed groups (R104) -/

def F.RD_GRP_CTL_IDLE_DEN_OFF (i : Nat) : Fld := ⟨0x300000 + 0x8000 * i, 0, 1, .rw, 1⟩
def F.RD_GRP_CTL_DRIFT_EN (i : Nat) : Fld := ⟨0x300000 + 0x8000 * i, 1, 1, .rw, 1⟩
def F.RD_GRP_CTL_TS_DREQ_EN (i : Nat) : Fld := ⟨0x300000 + 0x8000 * i, 2, 1, .rw, 0⟩
def F.RD_GRP_CTL_TS_DREQ_CH (i : Nat) : Fld := ⟨0x300000 + 0x8000 * i, 16, 12, .rw, 0⟩
def F.RD_GRP_CTL_TS_DREQ_LEVEL (i : Nat) : Fld := ⟨0x300000 + 0x8000 * i, 32, 13, .rw, 0x10⟩
def F.RD_GRP_STAT_TS_LEVEL (i : Nat) : Fld := ⟨0x300008 + 0x8000 * i, 0, 13, .ro, 0⟩
def F.RD_GRP_STAT_TS_OVR (i : Nat) : Fld := ⟨0x300008 + 0x8000 * i, 13, 1, .rw1c, 0⟩
def F.RD_GRP_STAT_TSV (i : Nat) : Fld := ⟨0x300008 + 0x8000 * i, 14, 1, .rw1c, 0⟩
def F.RD_GRP_STAT_CLAMP (i : Nat) : Fld := ⟨0x300008 + 0x8000 * i, 15, 1, .rw1c, 0⟩
def F.RD_GRP_STAT_CONFLICT (i : Nat) : Fld := ⟨0x300008 + 0x8000 * i, 16, 1, .rw1c, 0⟩
def F.RD_GRP_STAT_RETIRED_MASK (i : Nat) : Fld := ⟨0x300008 + 0x8000 * i, 24, 8, .ro, 0⟩
def F.RD_GRP_STAT_SUSPECT_MASK (i : Nat) : Fld := ⟨0x300008 + 0x8000 * i, 32, 8, .ro, 0⟩
def F.RD_GRP_STAT_STARVED_MASK (i : Nat) : Fld := ⟨0x300008 + 0x8000 * i, 40, 8, .ro, 0⟩
def F.RD_GRP_STAT_ENGINE_RUN (i : Nat) : Fld := ⟨0x300008 + 0x8000 * i, 48, 1, .ro, 0⟩
def F.RD_TS_PORT_ADDR_LANE (i : Nat) : Fld := ⟨0x300010 + 0x8000 * i, 0, 3, .rw, 0⟩
def F.RD_TS_PORT_ADDR_TSET (i : Nat) : Fld := ⟨0x300010 + 0x8000 * i, 3, 8, .rw, 0⟩
def F.RD_TS_PORT_ADDR_AUTOINC (i : Nat) : Fld := ⟨0x300010 + 0x8000 * i, 11, 1, .rw, 1⟩
def F.RD_TS_PORT_DATA_W (i : Nat) : Fld := ⟨0x300020 + 0x8000 * i, 0, 128, .rw, 0⟩
def F.RD_CH_STAT_STATE (i : Nat) (j : Nat) : Fld := ⟨0x300100 + 0x8000 * i + 0x8 * j, 0, 2, .ro, 0⟩
def F.RD_CH_STAT_STARVED (i : Nat) (j : Nat) : Fld := ⟨0x300100 + 0x8000 * i + 0x8 * j, 2, 1, .ro, 0⟩
def F.RD_CH_STAT_CAL_CLAMPED (i : Nat) (j : Nat) : Fld := ⟨0x300100 + 0x8000 * i + 0x8 * j, 3, 1, .ro, 0⟩
def F.RD_CH_STAT_SPARE_USED (i : Nat) (j : Nat) : Fld := ⟨0x300100 + 0x8000 * i + 0x8 * j, 4, 1, .ro, 0⟩
def F.RD_CH_STAT_DRIFT_L (i : Nat) (j : Nat) : Fld := ⟨0x300100 + 0x8000 * i + 0x8 * j, 8, 16, .ro, 0⟩
def F.RD_CH_STAT_DRIFT_C (i : Nat) (j : Nat) : Fld := ⟨0x300100 + 0x8000 * i + 0x8 * j, 24, 16, .ro, 0⟩
def F.RD_CH_STAT_SUSPECT_UI (i : Nat) (j : Nat) : Fld := ⟨0x300100 + 0x8000 * i + 0x8 * j, 40, 24, .ro, 0⟩
def F.RD_UCAL_A_U (i : Nat) (j : Nat) (k : Nat) : Fld := ⟨0x300200 + 0x8000 * i + 0x10 * j, 0 + 16 * k, 16, .rw, 0⟩
def F.RD_UCAL_B_U (i : Nat) (j : Nat) (k : Nat) : Fld := ⟨0x300208 + 0x8000 * i + 0x10 * j, 0 + 16 * k, 16, .rw, 0⟩
def F.RD_FCAL_A_U (i : Nat) (j : Nat) (k : Nat) : Fld := ⟨0x300280 + 0x8000 * i + 0x10 * j, 0 + 16 * k, 16, .rof, 0⟩
def F.RD_FCAL_B_U (i : Nat) (j : Nat) (k : Nat) : Fld := ⟨0x300288 + 0x8000 * i + 0x10 * j, 0 + 16 * k, 16, .rof, 0⟩
def F.RD_TS_DROPPED_COUNT (i : Nat) : Fld := ⟨0x300400 + 0x8000 * i, 0, 48, .ro, 0⟩
def F.RD_EDGE_CLAMP_COUNT (i : Nat) : Fld := ⟨0x300408 + 0x8000 * i, 0, 48, .ro, 0⟩
def F.RD_TSV_UI_COUNT (i : Nat) : Fld := ⟨0x300410 + 0x8000 * i, 0, 48, .ro, 0⟩
def F.RD_CONFLICT_COUNT (i : Nat) : Fld := ⟨0x300418 + 0x8000 * i, 0, 48, .ro, 0⟩
def F.RD_CNT_CLR_CLR (i : Nat) : Fld := ⟨0x300420 + 0x8000 * i, 0, 4, .wo, 0⟩
def F.RD_TS_POP_W (i : Nat) : Fld := ⟨0x300500 + 0x8000 * i, 0, 128, .ro, 0⟩

/-! Capture (R161) -/

def F.CAP_STAT_FAT_OCC : Fld := ⟨0x400000, 0, 18, .ro, 0⟩
def F.CAP_STAT_FAT_HIGH : Fld := ⟨0x400000, 18, 1, .ro, 0⟩
def F.CAP_STAT_FAT_FULL : Fld := ⟨0x400000, 19, 1, .rw1c, 0⟩
def F.CAP_STAT_BM_VALID : Fld := ⟨0x400000, 20, 9, .ro, 0⟩
def F.CAP_STAT_BM_DIRTY : Fld := ⟨0x400000, 29, 9, .ro, 0⟩
def F.CAP_STAT_BM_FAULT : Fld := ⟨0x400000, 38, 1, .ro, 0⟩
def F.CAP_STAT_BM_FLUSHING : Fld := ⟨0x400000, 39, 1, .ro, 0⟩
def F.FAT_CTL_FAT_WAIT : Fld := ⟨0x400008, 0, 16, .rw, 0xC8⟩
def F.FAT_PORT_ADDR_INDEX : Fld := ⟨0x400010, 0, 17, .rw, 0⟩
def F.FAT_PORT_ADDR_AUTOINC : Fld := ⟨0x400010, 17, 1, .rw, 1⟩
def F.FAT_PORT_DATA_LO_W : Fld := ⟨0x400020, 0, 128, .ro, 0⟩
def F.FAT_PORT_DATA_HI_W : Fld := ⟨0x400030, 0, 128, .ro, 0⟩
def F.FFL_SEL_PE : Fld := ⟨0x400040, 0, 4, .rw, 0⟩
def F.CAP_PE_CTL_EN (i : Nat) : Fld := ⟨0x401000 + 0x100 * i, 0, 1, .rw, 0⟩
def F.CAP_PE_CTL_FAT_EN (i : Nat) : Fld := ⟨0x401000 + 0x100 * i, 1, 1, .rw, 1⟩
def F.CAP_PE_CTL_BM_EN (i : Nat) : Fld := ⟨0x401000 + 0x100 * i, 2, 1, .rw, 0⟩
def F.CAP_PE_CTL_FFL_KEEP (i : Nat) : Fld := ⟨0x401000 + 0x100 * i, 3, 1, .rw, 0⟩
def F.CAP_PE_CTL_CMASK_CH (i : Nat) : Fld := ⟨0x401000 + 0x100 * i, 16, 16, .rw, 0⟩
def F.CAP_PE_STAT_FIFO_LEVEL (i : Nat) : Fld := ⟨0x401008 + 0x100 * i, 0, 17, .ro, 0⟩
def F.CAP_PE_STAT_CAP_REQ_FIFO (i : Nat) : Fld := ⟨0x401008 + 0x100 * i, 17, 1, .ro, 0⟩
def F.CAP_PE_STAT_CAP_REQ_FAT (i : Nat) : Fld := ⟨0x401008 + 0x100 * i, 18, 1, .ro, 0⟩
def F.CAP_PE_STAT_FAIL_OVERFLOW (i : Nat) : Fld := ⟨0x401008 + 0x100 * i, 19, 1, .rw1c, 0⟩
def F.CAP_PE_STAT_FAT_REJ (i : Nat) : Fld := ⟨0x401008 + 0x100 * i, 20, 1, .rw1c, 0⟩
def F.CAP_PE_STAT_BM_RANGE (i : Nat) : Fld := ⟨0x401008 + 0x100 * i, 21, 1, .rw1c, 0⟩
def F.CAP_PE_STAT_DRAINED (i : Nat) : Fld := ⟨0x401008 + 0x100 * i, 22, 1, .ro, 1⟩
def F.CAP_PE_STAT_FFL_COUNT (i : Nat) : Fld := ⟨0x401008 + 0x100 * i, 23, 13, .ro, 0⟩
def F.CAP_FWORDS_COUNT (i : Nat) : Fld := ⟨0x401010 + 0x100 * i, 0, 48, .ro, 0⟩
def F.CAP_DROPPED_COUNT (i : Nat) : Fld := ⟨0x401018 + 0x100 * i, 0, 48, .ro, 0⟩
def F.BM_BASE_BASE (i : Nat) : Fld := ⟨0x401020 + 0x100 * i, 0, 48, .rw, 0⟩
def F.BM_GEOM_BXW (i : Nat) : Fld := ⟨0x401028 + 0x100 * i, 0, 5, .rw, 0⟩
def F.BM_GEOM_BYW (i : Nat) : Fld := ⟨0x401028 + 0x100 * i, 5, 5, .rw, 0⟩
def F.BM_GEOM_BCODE (i : Nat) : Fld := ⟨0x401028 + 0x100 * i, 10, 2, .rw, 0⟩
def F.BM_RANGE_CNT_COUNT (i : Nat) : Fld := ⟨0x401030 + 0x100 * i, 0, 48, .ro, 0⟩
def F.BM_LOST_CNT_COUNT (i : Nat) : Fld := ⟨0x401038 + 0x100 * i, 0, 48, .ro, 0⟩
def F.FAT_REJ_CNT_COUNT (i : Nat) : Fld := ⟨0x401040 + 0x100 * i, 0, 48, .ro, 0⟩
def F.CAP_PE_CNT_CLR_CLR (i : Nat) : Fld := ⟨0x401048 + 0x100 * i, 0, 5, .wo, 0⟩
def F.CAP_PE_CNT_CLR_CLR_CH (i : Nat) : Fld := ⟨0x401048 + 0x100 * i, 5, 1, .wo, 0⟩
def F.CAP_CHCNT_COUNT (i : Nat) : Fld := ⟨0x402000 + 0x8 * i, 0, 48, .ro, 0⟩
def F.FFL_WINDOW_W (i : Nat) : Fld := ⟨0x480000 + 0x8 * i, 0, 64, .ro, 0⟩
def F.CAP_LOSTMAP_W (i : Nat) : Fld := ⟨0x4A0000 + 0x8 * i, 0, 64, .ro, 0⟩

/-! Repair analysis (R189) -/

def F.RAE_STAT_STATE : Fld := ⟨0x500000, 0, 3, .ro, 0⟩
def F.RAE_STAT_SOURCE : Fld := ⟨0x500000, 3, 1, .ro, 0⟩
def F.RAE_STAT_RECIPE_VALID : Fld := ⟨0x500000, 4, 1, .ro, 0⟩
def F.RAE_STAT_EPOCH : Fld := ⟨0x500000, 5, 8, .ro, 0⟩
def F.RAE_STAT_RING_WAIT : Fld := ⟨0x500000, 13, 1, .ro, 0⟩
def F.RAE_STAT_CACHE_USED : Fld := ⟨0x500000, 14, 14, .ro, 0⟩
def F.RAE_STAT_DOM_CUR : Fld := ⟨0x500000, 28, 20, .ro, 0⟩
def F.RAE_CTX_BASE_ADDR : Fld := ⟨0x500008, 0, 48, .rw, 0⟩
def F.RAE_POOL_BASE_ADDR : Fld := ⟨0x500010, 0, 48, .rw, 0⟩
def F.RAE_POOL_BLOCKS_BLOCKS : Fld := ⟨0x500018, 0, 32, .rw, 0⟩
def F.RAE_POOL_USED_BLOCKS : Fld := ⟨0x500020, 0, 32, .ro, 0⟩
def F.RAE_OUT_BASE_ADDR : Fld := ⟨0x500028, 0, 48, .rw, 0⟩
def F.RAE_OUT_BASE_DEVICE : Fld := ⟨0x500028, 48, 12, .rw, 0⟩
def F.RAE_OUT_BASE_REMOTE : Fld := ⟨0x500028, 60, 1, .rw, 0⟩
def F.RAE_OUT_SIZE_LOG : Fld := ⟨0x500030, 0, 5, .rw, 6⟩
def F.RAE_OUT_WR_COUNT : Fld := ⟨0x500038, 0, 32, .ro, 0⟩
def F.RAE_OUT_RD_COUNT : Fld := ⟨0x500040, 0, 32, .rw, 0⟩
def F.RAE_CNT_TAKES_COUNT : Fld := ⟨0x500048, 0, 48, .ro, 0⟩
def F.RAE_CNT_UNASSIGNED_COUNT : Fld := ⟨0x500050, 0, 48, .ro, 0⟩
def F.RAE_CNT_DISCARDED_COUNT : Fld := ⟨0x500058, 0, 48, .ro, 0⟩
def F.RAE_CNT_CLR_CLR : Fld := ⟨0x500060, 0, 3, .wo, 0⟩
def F.RAE_SRC_TIMEOUT_MS : Fld := ⟨0x500068, 0, 16, .rw, 100⟩
def F.RAE_SRC_DEV (i : Nat) : Fld := ⟨0x500100 + 0x8 * i, 0, 12, .ro, 0⟩
def F.RAE_SRC_LISTED (i : Nat) : Fld := ⟨0x500100 + 0x8 * i, 12, 1, .ro, 0⟩
def F.RAE_SRC_END_SEEN (i : Nat) : Fld := ⟨0x500100 + 0x8 * i, 13, 1, .ro, 0⟩
def F.RAE_IMPORT_LO_W (i : Nat) : Fld := ⟨0x501000 + 0x20 * i, 0, 128, .wo, 0⟩
def F.RAE_IMPORT_HI_W (i : Nat) : Fld := ⟨0x501010 + 0x20 * i, 0, 128, .wo, 0⟩
def F.RAE_RECIPE_W (i : Nat) (k : Nat) : Fld := ⟨0x504000 + 0x8 * i, 0 + 32 * k, 32, .ro, 0⟩

/-! DMA (R332) -/

def F.DMA_GCTL_SLICE : Fld := ⟨0x600000, 0, 16, .rw, 0x40⟩
def F.DMA_GSTAT_ENGINES_BUSY : Fld := ⟨0x600008, 0, 7, .ro, 0⟩
def F.DMA_GSTAT_CH_QUEUED : Fld := ⟨0x600008, 7, 13, .ro, 0⟩
def F.DMA_DREQ_SET_CH : Fld := ⟨0x600010, 0, 12, .wo, 0⟩
def F.DMA_DREQ_CLR_CH : Fld := ⟨0x600018, 0, 12, .wo, 0⟩
def F.DMA_DREQ_REQ (i : Nat) : Fld := ⟨0x601000 + 0x8 * i, 0, 64, .ro, 0⟩
def F.DMA_SRC_W (i : Nat) : Fld := ⟨0x680000 + 0x80 * i, 0, 64, .rw, 0⟩
def F.DMA_DST_W (i : Nat) : Fld := ⟨0x680008 + 0x80 * i, 0, 64, .rw, 0⟩
def F.DMA_CTL_W (i : Nat) : Fld := ⟨0x680010 + 0x80 * i, 0, 64, .rw, 1⟩
def F.DMA_NEXT_W (i : Nat) : Fld := ⟨0x680018 + 0x80 * i, 0, 64, .rw, 0⟩
def F.DMA_LEN_LEN (i : Nat) : Fld := ⟨0x680020 + 0x80 * i, 0, 32, .rw, 0⟩
def F.DMA_CRC_CRC (i : Nat) : Fld := ⟨0x680028 + 0x80 * i, 0, 32, .rw, 0⟩
def F.DMA_CH_CMD_GO (i : Nat) : Fld := ⟨0x680030 + 0x80 * i, 0, 1, .wo, 0⟩
def F.DMA_CH_CMD_PAUSE (i : Nat) : Fld := ⟨0x680030 + 0x80 * i, 1, 1, .rw, 0⟩
def F.DMA_CH_CMD_ARM (i : Nat) : Fld := ⟨0x680030 + 0x80 * i, 2, 1, .rws, 0⟩
def F.DMA_CH_CMD_CLOSE (i : Nat) : Fld := ⟨0x680030 + 0x80 * i, 3, 1, .wo, 0⟩
def F.DMA_CH_CMD_CLR_CNT (i : Nat) : Fld := ⟨0x680030 + 0x80 * i, 4, 1, .wo, 0⟩
def F.DMA_CH_STAT_STATE (i : Nat) : Fld := ⟨0x680038 + 0x80 * i, 0, 4, .ro, 0⟩
def F.DMA_CH_STAT_CHAIN_IDLE (i : Nat) : Fld := ⟨0x680038 + 0x80 * i, 4, 1, .ro, 0⟩
def F.DMA_CH_STAT_DEFERRED (i : Nat) : Fld := ⟨0x680038 + 0x80 * i, 5, 1, .rw1c, 0⟩
def F.DMA_CH_STAT_LATE_ERR (i : Nat) : Fld := ⟨0x680038 + 0x80 * i, 6, 1, .rw1c, 0⟩
def F.DMA_CH_STAT_FROM_DESC (i : Nat) : Fld := ⟨0x680038 + 0x80 * i, 7, 1, .ro, 0⟩
def F.DMA_CH_STAT_ERR_SIDE (i : Nat) : Fld := ⟨0x680038 + 0x80 * i, 8, 3, .ro, 0⟩
def F.DMA_CH_STAT_ERR_RESP (i : Nat) : Fld := ⟨0x680038 + 0x80 * i, 11, 3, .ro, 0⟩
def F.DMA_CH_STAT_ERR_DETAIL (i : Nat) : Fld := ⟨0x680038 + 0x80 * i, 14, 8, .ro, 0⟩
def F.DMA_CH_STAT_ENGINE (i : Nat) : Fld := ⟨0x680038 + 0x80 * i, 22, 6, .ro, 0⟩
def F.DMA_CH_STAT_LOADED (i : Nat) : Fld := ⟨0x680038 + 0x80 * i, 28, 1, .ro, 0⟩
def F.DMA_CH_STAT_DEFER_CNT (i : Nat) : Fld := ⟨0x680038 + 0x80 * i, 32, 32, .ro, 0⟩
def F.SH_SRC_W (i : Nat) : Fld := ⟨0x680040 + 0x80 * i, 0, 64, .rw, 0⟩
def F.SH_DST_W (i : Nat) : Fld := ⟨0x680048 + 0x80 * i, 0, 64, .rw, 0⟩
def F.SH_CTL_W (i : Nat) : Fld := ⟨0x680050 + 0x80 * i, 0, 64, .rw, 1⟩
def F.SH_NEXT_W (i : Nat) : Fld := ⟨0x680058 + 0x80 * i, 0, 64, .rw, 0⟩
def F.SH_LEN_LEN (i : Nat) : Fld := ⟨0x680060 + 0x80 * i, 0, 32, .rw, 0⟩
def F.DMA_CH_CFG_PRIO (i : Nat) : Fld := ⟨0x680068 + 0x80 * i, 0, 2, .rw, 0⟩
def F.DMA_CH_CFG_RT (i : Nat) : Fld := ⟨0x680068 + 0x80 * i, 2, 1, .rw, 0⟩
def F.DMA_CH_CFG_BURST (i : Nat) : Fld := ⟨0x680068 + 0x80 * i, 3, 5, .rw, 0x10⟩
def F.DMA_ERR_ADDR_ADDR (i : Nat) : Fld := ⟨0x680070 + 0x80 * i, 0, 48, .ro, 0⟩
def F.DMA_DESC_ADDR (i : Nat) : Fld := ⟨0x680078 + 0x80 * i, 0, 48, .ro, 0⟩

/-! Network (R314) -/

def F.NET_WRR_W_RT : Fld := ⟨0x700000, 0, 8, .rw, 0x28⟩
def F.NET_WRR_W_FAB : Fld := ⟨0x700000, 8, 8, .rw, 0x1E⟩
def F.NET_WRR_W_BULK : Fld := ⟨0x700000, 16, 8, .rw, 0x14⟩
def F.NET_WRR_W_CTL : Fld := ⟨0x700000, 24, 8, .rw, 0x0A⟩
def F.NET_STAT_BULK_EFF : Fld := ⟨0x700008, 0, 8, .ro, 0x14⟩
def F.NET_STAT_WRR_PENDING : Fld := ⟨0x700008, 8, 1, .ro, 0⟩
def F.NET_STAT_QFAIL : Fld := ⟨0x700008, 9, 1, .rw1c, 0⟩
def F.NET_STAT_LINKS_HALF : Fld := ⟨0x700008, 10, 9, .ro, 0⟩
def F.NET_STAT_LINKS_RETIRED : Fld := ⟨0x700008, 19, 9, .ro, 0⟩
def F.ROUTER_STAT_LINK (i : Nat) : Fld := ⟨0x701000 + 0x20 * i, 0, 8, .ro, 0⟩
def F.ROUTER_STAT_ZLINK (i : Nat) : Fld := ⟨0x701000 + 0x20 * i, 8, 2, .ro, 0⟩
def F.ROUTER_STAT_QUIESCING (i : Nat) : Fld := ⟨0x701000 + 0x20 * i, 10, 1, .ro, 0⟩
def F.NI_CTL_TIMEOUT (i : Nat) : Fld := ⟨0x704000 + 0x80 * i, 0, 16, .rw, 0xC8⟩
def F.NI_CTL_OUT_MAX (i : Nat) : Fld := ⟨0x704000 + 0x80 * i, 16, 10, .rw, (if i < 96 then 256 else 128)⟩
def F.NI_CTL_BUSY_WAIT (i : Nat) : Fld := ⟨0x704000 + 0x80 * i, 32, 16, .rw, 0xC8⟩
def F.NI_STAT_STATE (i : Nat) : Fld := ⟨0x704008 + 0x80 * i, 0, 2, .ro, 0⟩
def F.NI_STAT_OUT (i : Nat) : Fld := ⟨0x704008 + 0x80 * i, 2, 10, .ro, 0⟩
def F.NI_STAT_WITHHELD (i : Nat) : Fld := ⟨0x704008 + 0x80 * i, 12, 10, .ro, 0⟩
def F.NI_STAT_TOUT (i : Nat) : Fld := ⟨0x704008 + 0x80 * i, 22, 1, .rw1c, 0⟩
def F.NI_STAT_BUSY (i : Nat) : Fld := ⟨0x704008 + 0x80 * i, 23, 1, .rw1c, 0⟩
def F.NI_STAT_LATE (i : Nat) : Fld := ⟨0x704008 + 0x80 * i, 24, 1, .rw1c, 0⟩
def F.NI_CNT_A_TOUT_CNT (i : Nat) : Fld := ⟨0x704010 + 0x80 * i, 0, 32, .ro, 0⟩
def F.NI_CNT_A_BUSY_CNT (i : Nat) : Fld := ⟨0x704010 + 0x80 * i, 32, 32, .ro, 0⟩
def F.NI_CNT_B_LATE_CNT (i : Nat) : Fld := ⟨0x704018 + 0x80 * i, 0, 32, .ro, 0⟩
def F.NI_CNT_B_OFF_CNT (i : Nat) : Fld := ⟨0x704018 + 0x80 * i, 32, 32, .ro, 0⟩
def F.NI_CNT_CLR_CLR (i : Nat) : Fld := ⟨0x704020 + 0x80 * i, 0, 3, .wo, 0⟩
def F.NI_LAT_MAX_MAX (i : Nat) (k : Nat) : Fld := ⟨0x704028 + 0x80 * i, 0 + 16 * k, 16, .ro, 0⟩
def F.NI_LAT_N_COUNT (i : Nat) (j : Nat) : Fld := ⟨0x704030 + 0x80 * i + 0x10 * j, 0, 48, .ro, 0⟩
def F.NI_LAT_SUM_SUM (i : Nat) (j : Nat) : Fld := ⟨0x704038 + 0x80 * i + 0x10 * j, 0, 48, .ro, 0⟩

/-! DRAM controller (R290) -/

def F.DR_CTL_FREQ : Fld := ⟨0x800000, 0, 2, .ro, 0⟩
def F.DR_CTL_PD_TIMER : Fld := ⟨0x800000, 2, 16, .rw, 0x14⟩
def F.DR_CTL_AUTO_RETRAIN : Fld := ⟨0x800000, 18, 1, .rw, 0⟩
def F.DR_STAT_STATE : Fld := ⟨0x800008, 0, 3, .ro, 0⟩
def F.DR_STAT_HOT : Fld := ⟨0x800008, 3, 1, .ro, 0⟩
def F.DR_STAT_CATCHUP : Fld := ⟨0x800008, 4, 1, .ro, 0⟩
def F.DR_STAT_OWED : Fld := ⟨0x800008, 5, 4, .ro, 0⟩
def F.DR_STAT_DRAINING : Fld := ⟨0x800008, 9, 1, .ro, 0⟩
def F.DR_STAT_RQ_LEVEL : Fld := ⟨0x800008, 10, 9, .ro, 0⟩
def F.DR_STAT_WQ_LEVEL : Fld := ⟨0x800008, 19, 9, .ro, 0⟩
def F.DR_STAT_PD : Fld := ⟨0x800008, 28, 4, .ro, 0⟩
def F.DR_STAT_THROTTLE : Fld := ⟨0x800008, 32, 1, .ro, 0⟩
def F.DR_STAT_FREQ_PENDING : Fld := ⟨0x800008, 33, 1, .ro, 0⟩
def F.DR_STAT_CORR : Fld := ⟨0x800008, 34, 1, .rw1c, 0⟩
def F.DR_STAT_RETRAIN_DUE : Fld := ⟨0x800008, 35, 1, .ro, 0⟩
def F.DR_RETIRED_MASK (i : Nat) : Fld := ⟨0x800010 + 0x8 * i, 0, 64, .ro, 0⟩
def F.DR_CNT_A_CORR_CNT : Fld := ⟨0x800030, 0, 32, .ro, 0⟩
def F.DR_CNT_A_FREEZES : Fld := ⟨0x800030, 32, 32, .ro, 0⟩
def F.DR_CNT_B_CATCHUP_CNT : Fld := ⟨0x800038, 0, 32, .ro, 0⟩
def F.DR_CNT_B_TRAIN_CNT : Fld := ⟨0x800038, 32, 32, .ro, 0⟩
def F.DR_CNT_CLR_CLR : Fld := ⟨0x800040, 0, 2, .wo, 0⟩
def F.DR_FRZ_STAT_FROZEN : Fld := ⟨0x800048, 0, 1, .ro, 0⟩
def F.DR_FRZ_STAT_CAUSE : Fld := ⟨0x800048, 1, 2, .ro, 0⟩
def F.DR_FRZ_STAT_ON_WRITE : Fld := ⟨0x800048, 3, 1, .ro, 0⟩
def F.DR_FRZ_STAT_BANK : Fld := ⟨0x800048, 4, 8, .ro, 0⟩
def F.DR_FRZ_STAT_RQ_HELD : Fld := ⟨0x800048, 12, 9, .ro, 0⟩
def F.DR_FRZ_STAT_WQ_HELD : Fld := ⟨0x800048, 21, 9, .ro, 0⟩
def F.DR_FRZ_ADDR_ADDR : Fld := ⟨0x800050, 0, 48, .ro, 0⟩
def F.DR_FRZ_SYND_SYND : Fld := ⟨0x800058, 0, 8, .ro, 0⟩
def F.DR_FRZ_SYND_GRANULE : Fld := ⟨0x800058, 8, 7, .ro, 0⟩
def F.DR_FRZ_SYND_UNC : Fld := ⟨0x800058, 15, 8, .ro, 0⟩
def F.DR_FRZ_SYND_LOST : Fld := ⟨0x800058, 23, 8, .ro, 0⟩
def F.DR_FRZ_RQHEAD_ADDR : Fld := ⟨0x800060, 0, 48, .ro, 0⟩
def F.DR_FRZ_WQHEAD_ADDR : Fld := ⟨0x800068, 0, 48, .ro, 0⟩

/-! Windway (R357) -/

def F.WW_ID_DEVICE_ID : Fld := ⟨0x900000, 0, 12, .ro, 0xFFF⟩
def F.WW_ID_ROOT : Fld := ⟨0x900000, 12, 1, .ro, 0⟩
def F.WW_ID_EPOCH : Fld := ⟨0x900000, 13, 1, .ro, 0⟩
def F.WW_ID_DISC_BUSY : Fld := ⟨0x900000, 14, 1, .ro, 0⟩
def F.WW_ID_DEVICES : Fld := ⟨0x900000, 16, 12, .ro, 0⟩
def F.WW_CTL_AUTO_REROUTE : Fld := ⟨0x900008, 0, 1, .rw, 1⟩
def F.WW_CTL_AUTO_REDISC : Fld := ⟨0x900008, 1, 1, .rw, 0⟩
def F.WW_CTL_ERR_THRESH : Fld := ⟨0x900008, 8, 8, .rw, 0x10⟩
def F.WW_CTL_DISC_WAIT : Fld := ⟨0x900008, 16, 16, .rw, 0xA⟩
def F.WW_INFLIGHT_CUR : Fld := ⟨0x900010, 0, 32, .ro, 0⟩
def F.WW_INFLIGHT_OLD : Fld := ⟨0x900010, 32, 32, .ro, 0⟩
def F.WW_CNT_UNDELIV_CNT : Fld := ⟨0x900018, 0, 32, .ro, 0⟩
def F.WW_CNT_ERR_CNT : Fld := ⟨0x900018, 32, 32, .ro, 0⟩
def F.WW_CNT_CLR_CLR : Fld := ⟨0x900020, 0, 1, .wo, 0⟩
def F.WW_TB_TIME : Fld := ⟨0x900040, 0, 64, .ro, 0⟩
def F.WW_TB_CTL_SRC : Fld := ⟨0x900048, 0, 1, .rw, 0⟩
def F.WW_TB_CTL_MASTER : Fld := ⟨0x900048, 1, 1, .rw, 0⟩
def F.WW_TB_CTL_SYNC_LOG : Fld := ⟨0x900048, 8, 5, .rw, 0xC⟩
def F.WW_TB_CTL_PIN_OFFSET : Fld := ⟨0x900048, 16, 32, .rw, 0⟩
def F.WW_TB_STAT_LOCKED : Fld := ⟨0x900050, 0, 1, .ro, 0⟩
def F.WW_TB_STAT_STEPPED : Fld := ⟨0x900050, 1, 1, .rw1c, 0⟩
def F.WW_TB_STAT_PHASE_ERR : Fld := ⟨0x900050, 16, 16, .ro, 0⟩
def F.WW_TB_STAT_UPSTREAM : Fld := ⟨0x900050, 32, 3, .ro, 0⟩
def F.WW_XG_CTL_EN : Fld := ⟨0x900060, 0, 1, .rw, 0⟩
def F.WW_XG_CTL_COUNT : Fld := ⟨0x900060, 1, 4, .rw, 0⟩
def F.WW_XG_DEV_DEV (i : Nat) (k : Nat) : Fld := ⟨0x900068 + 0x8 * i, 0 + 16 * k, 12, .rw, 0⟩
def F.WW_P_CTL_EN (i : Nat) : Fld := ⟨0x901000 + 0x40 * i, 0, 1, .rw, 1⟩
def F.WW_P_CTL_RETRAIN (i : Nat) : Fld := ⟨0x901000 + 0x40 * i, 1, 1, .rws, 0⟩
def F.WW_P_STAT_LSTATE (i : Nat) : Fld := ⟨0x901008 + 0x40 * i, 0, 2, .ro, 0⟩
def F.WW_P_STAT_WIDTH (i : Nat) : Fld := ⟨0x901008 + 0x40 * i, 2, 3, .ro, 0⟩
def F.WW_P_STAT_LANE_OUT (i : Nat) : Fld := ⟨0x901008 + 0x40 * i, 5, 4, .ro, 0⟩
def F.WW_P_STAT_LANE_RET (i : Nat) : Fld := ⟨0x901008 + 0x40 * i, 9, 4, .ro, 0⟩
def F.WW_P_STAT_BRIDGE (i : Nat) : Fld := ⟨0x901008 + 0x40 * i, 13, 1, .ro, 0⟩
def F.WW_P_STAT_PARTNER_PORT (i : Nat) : Fld := ⟨0x901008 + 0x40 * i, 14, 3, .ro, 0⟩
def F.WW_P_STAT_PARTNER_ID (i : Nat) : Fld := ⟨0x901008 + 0x40 * i, 17, 12, .ro, 0xFFF⟩
def F.WW_P_CNT_CRC_ERR (i : Nat) : Fld := ⟨0x901010 + 0x40 * i, 0, 32, .ro, 0⟩
def F.WW_P_CNT_REPLAYS (i : Nat) : Fld := ⟨0x901010 + 0x40 * i, 32, 32, .ro, 0⟩
def F.WW_P_CNT_CLR_CLR (i : Nat) : Fld := ⟨0x901018 + 0x40 * i, 0, 1, .wo, 0⟩
def F.WW_ROUTE_W (i : Nat) (j : Nat) : Fld := ⟨0x910000 + 0x8000 * i + 0x8 * j, 0, 64, .rw, 0⟩

/-! Thermal, power, clocks (R373, R425) -/

def F.TH_STAT_DEV_MAX : Fld := ⟨0xA00000, 0, 12, .ro, 0⟩
def F.TH_STAT_WARN : Fld := ⟨0xA00000, 12, 1, .ro, 0⟩
def F.TH_STAT_THROTTLE : Fld := ⟨0xA00000, 13, 1, .ro, 0⟩
def F.TH_STAT_RATE : Fld := ⟨0xA00000, 14, 1, .rw1c, 0⟩
def F.TH_STAT_BROKEN : Fld := ⟨0xA00000, 15, 1, .ro, 0⟩
def F.TH_STAT_SUSPECT : Fld := ⟨0xA00000, 16, 1, .ro, 0⟩
def F.TH_STAT_COOLANT_LOW : Fld := ⟨0xA00000, 17, 1, .ro, 0⟩
def F.TH_CFG_WARN : Fld := ⟨0xA00008, 0, 8, .rw, 0x5F⟩
def F.TH_CFG_THROTTLE : Fld := ⟨0xA00008, 8, 8, .rw, 0x64⟩
def F.TH_CFG_LIMIT : Fld := ⟨0xA00008, 16, 8, .rw, 0x6E⟩
def F.TH_CFG_TRIP : Fld := ⟨0xA00008, 24, 8, .rw, 0x73⟩
def F.TH_CFG_RESTART : Fld := ⟨0xA00008, 32, 8, .rw, 0x5A⟩
def F.TH_CFG_RATE : Fld := ⟨0xA00008, 40, 8, .rw, 0x14⟩
def F.TH_LAYER_T (i : Nat) (k : Nat) : Fld := ⟨0xA00010 + 0x8 * i, 0 + 16 * k, 12, .ro, 0⟩
def F.TH_LAYER_SUSPECT (i : Nat) (k : Nat) : Fld := ⟨0xA00010 + 0x8 * i, 12 + 16 * k, 1, .ro, 0⟩
def F.TH_LAYER_EST_VALID (i : Nat) (k : Nat) : Fld := ⟨0xA00010 + 0x8 * i, 13 + 16 * k, 1, .ro, 0⟩
def F.TH_EST_T (i : Nat) (k : Nat) : Fld := ⟨0xA00020 + 0x8 * i, 0 + 16 * k, 12, .ro, 0⟩
def F.TH_EST_EST_VALID (i : Nat) (k : Nat) : Fld := ⟨0xA00020 + 0x8 * i, 13 + 16 * k, 1, .ro, 0⟩
def F.TH_COOLANT_INLET : Fld := ⟨0xA00030, 0, 12, .ro, 0⟩
def F.TH_COOLANT_OUTLET : Fld := ⟨0xA00030, 16, 12, .ro, 0⟩
def F.TH_COOLANT_INLET_RANGE : Fld := ⟨0xA00030, 32, 1, .rw1c, 0⟩
def F.TH_COOLANT_RISE_HIGH : Fld := ⟨0xA00030, 33, 1, .rw1c, 0⟩
def F.TH_TRIP_INFO_KIND : Fld := ⟨0xA00038, 0, 2, .ro, 0⟩
def F.TH_TRIP_INFO_SENSOR : Fld := ⟨0xA00038, 2, 8, .ro, 0⟩
def F.TH_TRIP_INFO_TEMP : Fld := ⟨0xA00038, 12, 12, .ro, 0⟩
def F.TH_TRIP_INFO_COUNT : Fld := ⟨0xA00038, 24, 8, .ro, 0⟩
def F.TH_HOST_S_HOST : Fld := ⟨0xA00040, 0, 9, .rw, 0x100⟩
def F.TH_BROKEN_MASK (i : Nat) : Fld := ⟨0xA00048 + 0x8 * i, 0, 64, .ro, 0⟩
def F.TH_SUBST_MASK (i : Nat) : Fld := ⟨0xA00060 + 0x8 * i, 0, 64, .ro, 0⟩
def F.TH_SENSOR_USED (i : Nat) : Fld := ⟨0xA00100 + 0x8 * i, 0, 12, .ro, 0⟩
def F.TH_SENSOR_RAW (i : Nat) : Fld := ⟨0xA00100 + 0x8 * i, 16, 12, .ro, 0⟩
def F.TH_SENSOR_RATE (i : Nat) : Fld := ⟨0xA00100 + 0x8 * i, 32, 12, .ro, 0⟩
def F.TH_SENSOR_BROKEN (i : Nat) : Fld := ⟨0xA00100 + 0x8 * i, 48, 1, .ro, 0⟩
def F.TH_SENSOR_REASON (i : Nat) : Fld := ⟨0xA00100 + 0x8 * i, 49, 2, .ro, 0⟩
def F.TH_SENSOR_SUSPECT (i : Nat) : Fld := ⟨0xA00100 + 0x8 * i, 51, 1, .ro, 0⟩
def F.TH_SENSOR_SUBST (i : Nat) : Fld := ⟨0xA00100 + 0x8 * i, 52, 1, .ro, 0⟩
def F.TH_RZONE_S (i : Nat) : Fld := ⟨0xA00800 + 0x8 * i, 0, 9, .ro, 0x100⟩
def F.TH_RZONE_T (i : Nat) : Fld := ⟨0xA00800 + 0x8 * i, 9, 12, .ro, 0⟩
def F.TH_RZONE_RATE (i : Nat) : Fld := ⟨0xA00800 + 0x8 * i, 21, 1, .ro, 0⟩
def F.TH_EZONE_S (i : Nat) : Fld := ⟨0xA01000 + 0x8 * i, 0, 9, .ro, 0x100⟩
def F.TH_EZONE_T (i : Nat) : Fld := ⟨0xA01000 + 0x8 * i, 9, 12, .ro, 0⟩
def F.TH_EZONE_RATE (i : Nat) : Fld := ⟨0xA01000 + 0x8 * i, 21, 1, .ro, 0⟩
def F.TH_BDZONE_S (i : Nat) : Fld := ⟨0xA01080 + 0x8 * i, 0, 9, .ro, 0x100⟩
def F.TH_BDZONE_T (i : Nat) : Fld := ⟨0xA01080 + 0x8 * i, 9, 12, .ro, 0⟩
def F.TH_BDZONE_RATE (i : Nat) : Fld := ⟨0xA01080 + 0x8 * i, 21, 1, .ro, 0⟩
def F.PWR_STAT_VALID : Fld := ⟨0xA08000, 0, 11, .ro, 0x7FF⟩
def F.PWR_STAT_SEQ_VIOL : Fld := ⟨0xA08000, 11, 1, .rw1c, 0⟩
def F.PWR_STAT_RAIL_LOST : Fld := ⟨0xA08000, 12, 4, .ro, 0xF⟩
def F.PWR_STAT_REFCLK_LOST : Fld := ⟨0xA08000, 16, 1, .rw1c, 0⟩
def F.PWR_STAT_REFCLK_OK : Fld := ⟨0xA08000, 17, 1, .ro, 1⟩
def F.PWR_STAT_AUX_V : Fld := ⟨0xA08000, 18, 1, .ro, 0⟩
def F.PWR_RAIL_MV (i : Nat) : Fld := ⟨0xA08100 + 0x8 * i, 0, 16, .ro, 0⟩
def F.PWR_RAIL_CURRENT (i : Nat) : Fld := ⟨0xA08100 + 0x8 * i, 16, 16, .ro, 0⟩
def F.PWR_RAIL_POWER (i : Nat) : Fld := ⟨0xA08100 + 0x8 * i, 32, 16, .ro, 0⟩
def F.CLK_RG_FSET (i : Nat) : Fld := ⟨0xA09000 + 0x8 * i, 0, 9, .rw, 0x80⟩
def F.CLK_RG_FNOW (i : Nat) : Fld := ⟨0xA09000 + 0x8 * i, 16, 9, .ro, 0x80⟩
def F.CLK_RG_SLEWING (i : Nat) : Fld := ⟨0xA09000 + 0x8 * i, 25, 1, .ro, 0⟩

/-! Self-test (R396) -/

def F.ST_CTL_EN : Fld := ⟨0xB00000, 0, 1, .rwl, 1⟩
def F.ST_CTL_PERIOD : Fld := ⟨0xB00000, 16, 16, .rw, 0x64⟩
def F.ST_CTL_KIND_EN : Fld := ⟨0xB00000, 32, 6, .rwl, 0x3F⟩
def F.ST_STAT_ACT : Fld := ⟨0xB00008, 0, 2, .ro, 0⟩
def F.ST_STAT_KIND : Fld := ⟨0xB00008, 2, 3, .ro, 0⟩
def F.ST_STAT_TQ_LEVEL : Fld := ⟨0xB00008, 5, 7, .ro, 0⟩
def F.ST_STAT_TQ_OVF : Fld := ⟨0xB00008, 12, 1, .rw1c, 0⟩
def F.ST_STAT_HALTED : Fld := ⟨0xB00008, 13, 1, .ro, 0⟩
def F.ST_LAST_SIG_SIG : Fld := ⟨0xB00010, 0, 64, .ro, 0⟩
def F.ST_LAST_DONE : Fld := ⟨0xB00018, 0, 16, .ro, 0⟩
def F.ST_LAST_EXP : Fld := ⟨0xB00018, 16, 16, .ro, 0⟩
def F.ST_LAST_END : Fld := ⟨0xB00018, 32, 3, .ro, 0⟩
def F.ST_LAST_VERDICT : Fld := ⟨0xB00018, 35, 2, .ro, 0⟩
def F.ST_LAST_KIND : Fld := ⟨0xB00018, 37, 3, .ro, 0⟩
def F.ST_LAST_ELEMENT : Fld := ⟨0xB00018, 40, 24, .ro, 0⟩
def F.ST_CNT_A_PASS : Fld := ⟨0xB00020, 0, 32, .ro, 0⟩
def F.ST_CNT_A_FAIL : Fld := ⟨0xB00020, 32, 32, .ro, 0⟩
def F.ST_CNT_B_INCOMPLETE : Fld := ⟨0xB00028, 0, 32, .ro, 0⟩
def F.ST_CNT_B_SKIPPED : Fld := ⟨0xB00028, 32, 32, .ro, 0⟩
def F.ST_CNT_C_TRANSIENT : Fld := ⟨0xB00030, 0, 32, .ro, 0⟩
def F.ST_CNT_C_PERMANENT : Fld := ⟨0xB00030, 32, 32, .ro, 0⟩
def F.ST_CNT_CLR_CLR : Fld := ⟨0xB00038, 0, 3, .wo, 0⟩
def F.ST_RLOG_ENTRIES : Fld := ⟨0xB00040, 0, 13, .ro, 0⟩
def F.ST_RLOG_FULL : Fld := ⟨0xB00040, 13, 1, .ro, 0⟩
def F.ST_RLOG_PENDING : Fld := ⟨0xB00040, 14, 1, .ro, 0⟩
def F.ST_RLOG_FUSE_USED : Fld := ⟨0xB00040, 15, 9, .ro, 0⟩

/-! Ligature (R397) -/

def F.LG_CTL_EN : Fld := ⟨0xC00000, 0, 1, .rwl, 1⟩
def F.LG_STAT_RELOADING : Fld := ⟨0xC00008, 0, 1, .ro, 0⟩
def F.LG_STAT_REGION : Fld := ⟨0xC00008, 1, 8, .ro, 0⟩
def F.LG_STAT_STOP : Fld := ⟨0xC00008, 9, 3, .ro, 0⟩
def F.LG_STAT_FRAME : Fld := ⟨0xC00008, 12, 11, .ro, 0⟩
def F.LG_STAT_PASSES : Fld := ⟨0xC00008, 32, 32, .ro, 0⟩
def F.LG_LAST_REGION : Fld := ⟨0xC00010, 0, 8, .ro, 0⟩
def F.LG_LAST_STOP : Fld := ⟨0xC00010, 8, 3, .ro, 0⟩
def F.LG_LAST_FRAME : Fld := ⟨0xC00010, 11, 11, .ro, 0⟩
def F.LG_LAST_WORD : Fld := ⟨0xC00010, 22, 6, .ro, 0⟩
def F.LG_LAST_BY_CRC : Fld := ⟨0xC00010, 28, 1, .ro, 0⟩
def F.LG_CNT_A_CORR : Fld := ⟨0xC00018, 0, 32, .ro, 0⟩
def F.LG_CNT_A_UNCORR : Fld := ⟨0xC00018, 32, 32, .ro, 0⟩
def F.LG_CNT_B_RELOADS : Fld := ⟨0xC00020, 0, 32, .ro, 0⟩
def F.LG_CNT_B_RESTARTS : Fld := ⟨0xC00020, 32, 32, .ro, 0⟩
def F.LG_CNT_C_VOTE_CORR : Fld := ⟨0xC00028, 0, 32, .ro, 0⟩
def F.LG_CNT_C_RELOAD_FAIL : Fld := ⟨0xC00028, 32, 32, .ro, 0⟩
def F.LG_CNT_CLR_CLR : Fld := ⟨0xC00030, 0, 3, .wo, 0⟩

/-! NVS window (R425) -/

def F.NVS_STAT_BUSY : Fld := ⟨0xDF0000, 0, 8, .ro, 0⟩
def F.NVS_STAT_UNC : Fld := ⟨0xDF0000, 8, 1, .rw1c, 0⟩
def F.NVS_STAT_UNC_WORD : Fld := ⟨0xDF0000, 9, 20, .ro, 0⟩
def F.NVS_CTL_EVLOG_SEV : Fld := ⟨0xDF0008, 0, 2, .rw, 2⟩
def F.NVS_UPAGE_SELF_PAGE : Fld := ⟨0xDF0010, 0, 2, .rw, 0⟩
def F.NVS_CNT_UNC_CNT : Fld := ⟨0xDF0018, 0, 32, .ro, 0⟩
def F.NVS_CNT_EVLOG_LOST : Fld := ⟨0xDF0018, 32, 32, .ro, 0⟩
def F.NVS_CNT_CLR_CLR : Fld := ⟨0xDF0020, 0, 1, .wo, 0⟩
def F.NVS_UPAGE_PAGE (i : Nat) (k : Nat) : Fld := ⟨0xDF0100 + 0x8 * i, 0 + 2 * k, 2, .rw, 0⟩

/-! Fabric hard blocks (R219, R266) -/

def F.FAB_STAT_RETIRED : Fld := ⟨0xE00000, 0, 8, .ro, 0⟩
def F.FAB_STAT_DEGRADED : Fld := ⟨0xE00000, 8, 8, .ro, 0⟩
def F.FAB_STAT_HELD : Fld := ⟨0xE00000, 16, 8, .ro, 0⟩
def F.FAB_STAT_OFF : Fld := ⟨0xE00000, 24, 8, .ro, 0⟩
def F.FAB_BCAST_MASK_MASK (i : Nat) : Fld := ⟨0xE00100 + 0x8 * i, 0, 64, .rw, 0⟩
def F.FAB_BCAST_STOP : Fld := ⟨0xE00118, 0, 3, .rw, 0⟩
def F.FAB_BCAST_GO : Fld := ⟨0xE00118, 3, 1, .rws, 0⟩
def F.PROBE_SEL_REGION (i : Nat) : Fld := ⟨0xE00200 + 0x8 * i, 0, 8, .rw, 0⟩
def F.PROBE_SEL_TAP (i : Nat) : Fld := ⟨0xE00200 + 0x8 * i, 8, 6, .rw, 0⟩
def F.PROBE_SEL_EN (i : Nat) : Fld := ⟨0xE00200 + 0x8 * i, 14, 1, .rw, 0⟩
def F.FAB_RG_STAT_GOV (i : Nat) : Fld := ⟨0xE01000 + 0x40 * i, 0, 3, .ro, 0⟩
def F.FAB_RG_STAT_RSTATE (i : Nat) : Fld := ⟨0xE01000 + 0x40 * i, 3, 2, .ro, 1⟩
def F.FAB_RG_STAT_DEGRADED (i : Nat) : Fld := ⟨0xE01000 + 0x40 * i, 5, 1, .ro, 0⟩
def F.FAB_RG_STAT_SS_LOST (i : Nat) : Fld := ⟨0xE01000 + 0x40 * i, 6, 1, .rw1c, 0⟩
def F.FAB_RG_STAT_SS_REFUSED (i : Nat) : Fld := ⟨0xE01000 + 0x40 * i, 7, 1, .rw1c, 0⟩
def F.FAB_RG_STAT_STOPST (i : Nat) (k : Nat) : Fld := ⟨0xE01000 + 0x40 * i, 8 + 2 * k, 2, .ro, 0⟩
def F.FAB_RG_STAT_PARTY (i : Nat) : Fld := ⟨0xE01000 + 0x40 * i, 24, 4, .ro, 0⟩
def F.FAB_RG_STAT_HOLD_WHY (i : Nat) : Fld := ⟨0xE01000 + 0x40 * i, 28, 4, .ro, 0⟩
def F.FAB_RG_STAT_GDISC (i : Nat) : Fld := ⟨0xE01000 + 0x40 * i, 32, 1, .rw1c, 0⟩
def F.FAB_RG_STAT_RO_MEAS (i : Nat) : Fld := ⟨0xE01000 + 0x40 * i, 48, 16, .ro, 0⟩
def F.FAB_RG_CTL_CLKSRC (i : Nat) : Fld := ⟨0xE01008 + 0x40 * i, 0, 2, .rw, 0⟩
def F.FAB_RG_CTL_POSC (i : Nat) : Fld := ⟨0xE01008 + 0x40 * i, 2, 2, .rw, 0⟩
def F.FAB_RG_CTL_RO_SET (i : Nat) : Fld := ⟨0xE01008 + 0x40 * i, 4, 7, .rw, 0xA⟩
def F.FAB_RG_CTL_USS_EN (i : Nat) : Fld := ⟨0xE01008 + 0x40 * i, 11, 1, .rw, 1⟩
def F.FAB_RG_CTL_PARTY_EV (i : Nat) : Fld := ⟨0xE01008 + 0x40 * i, 12, 4, .rw, 0⟩
def F.FAB_RG_CTL_CLR_CNT (i : Nat) : Fld := ⟨0xE01008 + 0x40 * i, 63, 1, .wo, 0⟩
def F.FAB_RG_CNT_LOST (i : Nat) : Fld := ⟨0xE01010 + 0x40 * i, 0, 32, .ro, 0⟩
def F.FAB_RG_CNT_REFUSED (i : Nat) : Fld := ⟨0xE01010 + 0x40 * i, 32, 32, .ro, 0⟩
def F.FAB_RG_CAPCTL_ARM (i : Nat) : Fld := ⟨0xE01018 + 0x40 * i, 0, 1, .rws, 0⟩
def F.FAB_RG_CAPCTL_STOP (i : Nat) : Fld := ⟨0xE01018 + 0x40 * i, 1, 1, .wo, 0⟩
def F.FAB_RG_CAPCTL_TMODE (i : Nat) : Fld := ⟨0xE01018 + 0x40 * i, 2, 2, .rw, 0⟩
def F.FAB_RG_CAPCTL_TPARTY (i : Nat) : Fld := ⟨0xE01018 + 0x40 * i, 4, 2, .rw, 0⟩
def F.FAB_RG_CAPCTL_TRIG_POS (i : Nat) : Fld := ⟨0xE01018 + 0x40 * i, 16, 10, .rw, 0x200⟩
def F.FAB_RG_TRIGVAL_VAL (i : Nat) : Fld := ⟨0xE01020 + 0x40 * i, 0, 64, .rw, 0⟩
def F.FAB_RG_TRIGMASK_MASK (i : Nat) : Fld := ⟨0xE01028 + 0x40 * i, 0, 64, .rw, 0⟩
def F.FAB_RG_CAPSTAT_CSTATE (i : Nat) : Fld := ⟨0xE01030 + 0x40 * i, 0, 2, .ro, 0⟩
def F.FAB_RG_CAPSTAT_START (i : Nat) : Fld := ⟨0xE01030 + 0x40 * i, 2, 10, .ro, 0⟩
def F.FAB_RG_CAPSTAT_TRIG (i : Nat) : Fld := ⟨0xE01030 + 0x40 * i, 12, 10, .ro, 0⟩
def F.FAB_RG_CAPSTAT_SHORT (i : Nat) : Fld := ⟨0xE01030 + 0x40 * i, 22, 1, .ro, 0⟩
def F.FAB_RG_CAPSTAT_COUNT (i : Nat) : Fld := ⟨0xE01030 + 0x40 * i, 23, 11, .ro, 0⟩
def F.FAB_RG_GDISC_COUNT (i : Nat) : Fld := ⟨0xE01038 + 0x40 * i, 0, 48, .ro, 0⟩
def F.SPORT_CTL_MODE (i : Nat) : Fld := ⟨0xE05000 + 0x40 * i, 0, 3, .rw, 0⟩
def F.SPORT_CTL_HOST (i : Nat) : Fld := ⟨0xE05000 + 0x40 * i, 3, 1, .rw, 0⟩
def F.SPORT_CTL_SPIMODE (i : Nat) : Fld := ⟨0xE05000 + 0x40 * i, 4, 2, .rw, 0⟩
def F.SPORT_CTL_PAR_EN (i : Nat) : Fld := ⟨0xE05000 + 0x40 * i, 6, 1, .rw, 0⟩
def F.SPORT_CTL_PAR_ODD (i : Nat) : Fld := ⟨0xE05000 + 0x40 * i, 7, 1, .rw, 0⟩
def F.SPORT_CTL_DIV (i : Nat) : Fld := ⟨0xE05000 + 0x40 * i, 8, 16, .rw, 0xFF⟩
def F.SPORT_CTL_PIN (i : Nat) (k : Nat) : Fld := ⟨0xE05000 + 0x40 * i, 32 + 8 * k, 7, .rw, 0x7F⟩
def F.SPORT_STAT_TX_LEVEL (i : Nat) : Fld := ⟨0xE05008 + 0x40 * i, 0, 7, .ro, 0⟩
def F.SPORT_STAT_RX_LEVEL (i : Nat) : Fld := ⟨0xE05008 + 0x40 * i, 8, 7, .ro, 0⟩
def F.SPORT_STAT_BUSY (i : Nat) : Fld := ⟨0xE05008 + 0x40 * i, 16, 1, .ro, 0⟩
def F.SPORT_STAT_RX_OVR (i : Nat) : Fld := ⟨0xE05008 + 0x40 * i, 17, 1, .rw1c, 0⟩
def F.SPORT_STAT_FRAME_ERR (i : Nat) : Fld := ⟨0xE05008 + 0x40 * i, 18, 1, .rw1c, 0⟩
def F.SPORT_STAT_NACK (i : Nat) : Fld := ⟨0xE05008 + 0x40 * i, 19, 1, .rw1c, 0⟩
def F.SPORT_TX_BYTE (i : Nat) : Fld := ⟨0xE05010 + 0x40 * i, 0, 8, .wo, 0⟩
def F.SPORT_TX_START (i : Nat) : Fld := ⟨0xE05010 + 0x40 * i, 8, 1, .wo, 0⟩
def F.SPORT_TX_END (i : Nat) : Fld := ⟨0xE05010 + 0x40 * i, 9, 1, .wo, 0⟩
def F.SPORT_TX_READ (i : Nat) : Fld := ⟨0xE05010 + 0x40 * i, 10, 1, .wo, 0⟩
def F.SPORT_TX_NAK (i : Nat) : Fld := ⟨0xE05010 + 0x40 * i, 11, 1, .wo, 0⟩
def F.SPORT_RX_BYTE (i : Nat) : Fld := ⟨0xE05018 + 0x40 * i, 0, 8, .ro, 0⟩
def F.SPORT_RX_VALID (i : Nat) : Fld := ⟨0xE05018 + 0x40 * i, 8, 1, .ro, 0⟩
def F.AUX_STAT_OWNER (i : Nat) : Fld := ⟨0xE06000 + 0x8 * i, 0, 2, .ro, 0⟩
def F.AUX_STAT_OE (i : Nat) : Fld := ⟨0xE06000 + 0x8 * i, 2, 1, .ro, 0⟩
def F.AUX_STAT_OUT (i : Nat) : Fld := ⟨0xE06000 + 0x8 * i, 3, 1, .ro, 0⟩
def F.AUX_STAT_IN (i : Nat) : Fld := ⟨0xE06000 + 0x8 * i, 4, 1, .ro, 0⟩
def F.FAB_VMASK_MASK (i : Nat) (j : Nat) : Fld := ⟨0xE08000 + 0x80 * i + 0x8 * j, 0, 64, .ro, 0⟩
def F.SP_PWR_CTL_MODE (i : Nat) (k : Nat) : Fld := ⟨0xE10000 + 0x40 * i, 0 + 2 * k, 2, .rw, 0⟩
def F.SP_PWR_STAT_STATE (i : Nat) (k : Nat) : Fld := ⟨0xE10008 + 0x40 * i, 0 + 2 * k, 2, .ro, 0⟩
def F.SP_PWR_STAT_BUSY (i : Nat) (k : Nat) : Fld := ⟨0xE10008 + 0x40 * i, 32 + 1 * k, 1, .ro, 0⟩
def F.SP_PWR_STAT_LEASE (i : Nat) (k : Nat) : Fld := ⟨0xE10008 + 0x40 * i, 48 + 1 * k, 1, .ro, 0⟩
def F.SP_ERR_STAT_CORR (i : Nat) : Fld := ⟨0xE10010 + 0x40 * i, 0, 1, .rw1c, 0⟩
def F.SP_ERR_STAT_UNCORR (i : Nat) : Fld := ⟨0xE10010 + 0x40 * i, 1, 1, .rw1c, 0⟩
def F.SP_ERR_STAT_COLLIDED (i : Nat) : Fld := ⟨0xE10010 + 0x40 * i, 2, 1, .rw1c, 0⟩
def F.SP_ERR_STAT_UNC_WORD (i : Nat) : Fld := ⟨0xE10010 + 0x40 * i, 4, 16, .ro, 0⟩
def F.SP_ERR_STAT_UNC_PORT (i : Nat) : Fld := ⟨0xE10010 + 0x40 * i, 20, 1, .ro, 0⟩
def F.SP_CNT_A_SP_CORR_CNT (i : Nat) : Fld := ⟨0xE10018 + 0x40 * i, 0, 32, .ro, 0⟩
def F.SP_CNT_A_SP_UNCORR_CNT (i : Nat) : Fld := ⟨0xE10018 + 0x40 * i, 32, 32, .ro, 0⟩
def F.SP_CNT_B_SP_COLL_CNT (i : Nat) : Fld := ⟨0xE10020 + 0x40 * i, 0, 32, .ro, 0⟩
def F.SP_CNT_CLR_CLR_A (i : Nat) : Fld := ⟨0xE10028 + 0x40 * i, 0, 1, .wo, 0⟩
def F.SP_CNT_CLR_CLR_B (i : Nat) : Fld := ⟨0xE10028 + 0x40 * i, 1, 1, .wo, 0⟩

/-- The registers of: System (R21, R70). -/
def regTable00 : List RegRow := [
  ⟨"SYS_STATE", 0x0, 1, 0x8, 1, 0x8, false, fun _ _ => [F.SYS_STATE_STATE, F.SYS_STATE_FALLBACK, F.SYS_STATE_PREV_STATE, F.SYS_STATE_CAUSE, F.SYS_STATE_STRICT_HALT, F.SYS_STATE_COOLANT_OK, F.SYS_STATE_LOGIC_PG, F.SYS_STATE_BOOT_COUNT]⟩,
  ⟨"SYS_ID", 0x8, 1, 0x8, 1, 0x8, false, fun _ _ => [F.SYS_ID_FAMILY, F.SYS_ID_DEVICE, F.SYS_ID_STACK_REV, F.SYS_ID_DEVICE_ID, F.SYS_ID_ROOT]⟩,
  ⟨"SYS_UID_LO", 0x10, 1, 0x8, 1, 0x8, false, fun _ _ => [F.SYS_UID_LO_UID]⟩,
  ⟨"SYS_UID_HI", 0x18, 1, 0x8, 1, 0x8, false, fun _ _ => [F.SYS_UID_HI_UID]⟩,
  ⟨"CH_QSTAT", 0x20, 1, 0x8, 1, 0x8, false, fun _ _ => [F.CH_QSTAT_IN_FLIGHT, F.CH_QSTAT_URGENT_IN_FLIGHT, F.CH_QSTAT_FWD_IN_FLIGHT, F.CH_QSTAT_REFUSALS_WAITING]⟩,
  ⟨"CH_CNT_A", 0x28, 1, 0x8, 1, 0x8, false, fun _ _ => [F.CH_CNT_A_HDR_CRC_ERR, F.CH_CNT_A_PAY_CRC_ERR]⟩,
  ⟨"CH_CNT_B", 0x30, 1, 0x8, 1, 0x8, false, fun _ _ => [F.CH_CNT_B_BUSY_REFUSALS, F.CH_CNT_B_FWD_LATE]⟩,
  ⟨"CH_CNT_CLR", 0x38, 1, 0x8, 1, 0x8, false, fun _ _ => [F.CH_CNT_CLR_CLR_A, F.CH_CNT_CLR_CLR_B]⟩,
  ⟨"EVQ_STAT", 0x40, 1, 0x8, 1, 0x8, false, fun _ _ => [F.EVQ_STAT_COUNT, F.EVQ_STAT_UNMASKED]⟩,
  ⟨"EVQ_LOST_A", 0x48, 1, 0x8, 1, 0x8, false, fun _ _ => [F.EVQ_LOST_A_LOST_INFO, F.EVQ_LOST_A_LOST_WARN]⟩,
  ⟨"EVQ_LOST_B", 0x50, 1, 0x8, 1, 0x8, false, fun _ _ => [F.EVQ_LOST_B_LOST_ERROR, F.EVQ_LOST_B_LOST_FATAL]⟩,
  ⟨"EVQ_MASK", 0x58, 1, 0x8, 1, 0x8, false, fun _ _ => [F.EVQ_MASK_MASK]⟩,
  ⟨"EVQ_CTL", 0x60, 1, 0x8, 1, 0x8, false, fun _ _ => [F.EVQ_CTL_CLR_LOST, F.EVQ_CTL_FLUSH]⟩,
  ⟨"I3C_STAT", 0x68, 1, 0x8, 1, 0x8, false, fun _ _ => [F.I3C_STAT_DYN_ADDR, F.I3C_STAT_DYN_VALID, F.I3C_STAT_STATIC_ADDR, F.I3C_STAT_IBI_EN, F.I3C_STAT_MWL, F.I3C_STAT_MRL]⟩]

/-- The registers of: Configuration (R249). -/
def regTable01 : List RegRow := [
  ⟨"CFG_STAT", 0x100000, 1, 0x8, 1, 0x8, false, fun _ _ => [F.CFG_STAT_PHASE, F.CFG_STAT_KIND, F.CFG_STAT_SRC_FLASH, F.CFG_STAT_GOLDEN, F.CFG_STAT_TBL_COPY, F.CFG_STAT_LAST_STATUS, F.CFG_STAT_LAST_DETAIL, F.CFG_STAT_LAST_SEG]⟩,
  ⟨"CFG_LIB_BASE", 0x100008, 1, 0x8, 1, 0x8, false, fun _ _ => [F.CFG_LIB_BASE_ADDR]⟩,
  ⟨"CFG_LIB_SLOTS", 0x100010, 1, 0x8, 1, 0x8, false, fun _ _ => [F.CFG_LIB_SLOTS_SLOTS]⟩,
  ⟨"CFG_LIB_USE", 0x100018, 1, 0x8, 1, 0x8, false, fun _ _ => [F.CFG_LIB_USE_VALID, F.CFG_LIB_USE_BUSY]⟩,
  ⟨"SEC_STAT", 0x100020, 1, 0x8, 1, 0x8, false, fun _ _ => [F.SEC_STAT_LC, F.SEC_STAT_SLOT_PROG, F.SEC_STAT_SLOT_REV, F.SEC_STAT_ROOTKEY, F.SEC_STAT_MIN_SVN]⟩,
  ⟨"TONGUE_REQ", 0x102000, 1, 0x8, 1, 0x8, true, fun _ _ => [F.TONGUE_REQ_W]⟩]

/-- The registers of: Pattern engines (R135). -/
def regTable02 : List RegRow := [
  ⟨"PE_CTL", 0x200000, 16, 0x10000, 1, 0x8, false, fun i _ => [F.PE_CTL_FSTEP i, F.PE_CTL_MCODE i, F.PE_CTL_GANG_EN i, F.PE_CTL_GANG_LEADER i, F.PE_CTL_XSYS i, F.PE_CTL_STREAM_EN i, F.PE_CTL_UPORT_EN i, F.PE_CTL_UPORT_REGION i]⟩,
  ⟨"PE_STAT", 0x200008, 16, 0x10000, 1, 0x8, false, fun i _ => [F.PE_STAT_STATE i, F.PE_STAT_THROTTLE_REQ i, F.PE_STAT_CAP_REQ i, F.PE_STAT_HOLD i, F.PE_STAT_HOLD_WHY i, F.PE_STAT_FAIL i, F.PE_STAT_GF i, F.PE_STAT_PC i, F.PE_STAT_STACK_DEPTH i, F.PE_STAT_STREAM_LEVEL i, F.PE_STAT_UPORT_LEVEL i]⟩,
  ⟨"PE_CYCLE", 0x200010, 16, 0x10000, 1, 0x8, false, fun i _ => [F.PE_CYCLE_COUNT i]⟩,
  ⟨"PE_HOLD", 0x200018, 16, 0x10000, 1, 0x8, false, fun i _ => [F.PE_HOLD_COUNT i]⟩,
  ⟨"PE_START_TICK", 0x200020, 16, 0x10000, 1, 0x8, false, fun i _ => [F.PE_START_TICK_TICK i]⟩,
  ⟨"PE_FAULT", 0x200028, 16, 0x10000, 1, 0x8, false, fun i _ => [F.PE_FAULT_CODE i, F.PE_FAULT_ADDR i]⟩,
  ⟨"PE_GRP", 0x200030, 16, 0x10000, 1, 0x8, false, fun i _ => (List.range 16).map (fun k => F.PE_GRP_G i k)⟩,
  ⟨"PE_SYNC_PERIOD", 0x200038, 16, 0x10000, 1, 0x8, false, fun i _ => [F.PE_SYNC_PERIOD_TICKS i]⟩,
  ⟨"PE_STREAM_BASE", 0x200040, 16, 0x10000, 1, 0x8, false, fun i _ => [F.PE_STREAM_BASE_ADDR i]⟩,
  ⟨"PE_STREAM_LEN", 0x200048, 16, 0x10000, 1, 0x8, false, fun i _ => [F.PE_STREAM_LEN_LEN i]⟩,
  ⟨"PE_IM_ADDR", 0x200050, 16, 0x10000, 1, 0x8, false, fun i _ => [F.PE_IM_ADDR_ADDR i, F.PE_IM_ADDR_AUTOINC i]⟩,
  ⟨"PE_STOPBIND", 0x200060, 16, 0x10000, 3, 0x8, false, fun i j => [F.PE_STOPBIND_MASK i j]⟩,
  ⟨"PE_XALU", 0x200080, 16, 0x10000, 8, 0x8, false, fun i j => [F.PE_XALU_VAL i j]⟩,
  ⟨"PE_YALU", 0x2000C0, 16, 0x10000, 8, 0x8, false, fun i j => [F.PE_YALU_VAL i j]⟩,
  ⟨"PE_LC", 0x200100, 16, 0x10000, 16, 0x8, false, fun i j => [F.PE_LC_VAL i j]⟩,
  ⟨"PE_D", 0x200200, 16, 0x10000, 8, 0x10, true, fun i j => [F.PE_D_VAL i j]⟩,
  ⟨"PE_LFSR", 0x200280, 16, 0x10000, 1, 0x8, false, fun i _ => [F.PE_LFSR_VAL i]⟩,
  ⟨"PE_DM", 0x200300, 16, 0x10000, 4, 0x8, false, fun i j => [F.PE_DM_BASE i j, F.PE_DM_XSH i j, F.PE_DM_XW i j, F.PE_DM_YSH i j, F.PE_DM_YW i j]⟩,
  ⟨"PE_STACK", 0x200340, 16, 0x10000, 8, 0x8, false, fun i j => [F.PE_STACK_ADDR i j]⟩,
  ⟨"PE_IM_DATA_LO", 0x200400, 16, 0x10000, 1, 0x8, true, fun i _ => [F.PE_IM_DATA_LO_W i]⟩,
  ⟨"PE_IM_DATA_HI", 0x200410, 16, 0x10000, 1, 0x8, true, fun i _ => [F.PE_IM_DATA_HI_W i]⟩,
  ⟨"PE_PINMODE", 0x201000, 16, 0x10000, 256, 0x10, true, fun i j => [F.PE_PINMODE_W i j]⟩,
  ⟨"PE_PINMAP", 0x202000, 16, 0x10000, 64, 0x8, false, fun i j => (List.range 8).map (fun k => F.PE_PINMAP_E i j k)⟩,
  ⟨"PE_ASCR", 0x204000, 16, 0x10000, 2048, 0x8, false, fun i j => (List.range 2).map (fun k => F.PE_ASCR_E i j k)⟩,
  ⟨"PE_DSCR", 0x208000, 16, 0x10000, 1024, 0x8, false, fun i j => (List.range 4).map (fun k => F.PE_DSCR_E i j k)⟩]

/-- The registers of: Reed groups (R104). -/
def regTable03 : List RegRow := [
  ⟨"RD_GRP_CTL", 0x300000, 32, 0x8000, 1, 0x8, false, fun i _ => [F.RD_GRP_CTL_IDLE_DEN_OFF i, F.RD_GRP_CTL_DRIFT_EN i, F.RD_GRP_CTL_TS_DREQ_EN i, F.RD_GRP_CTL_TS_DREQ_CH i, F.RD_GRP_CTL_TS_DREQ_LEVEL i]⟩,
  ⟨"RD_GRP_STAT", 0x300008, 32, 0x8000, 1, 0x8, false, fun i _ => [F.RD_GRP_STAT_TS_LEVEL i, F.RD_GRP_STAT_TS_OVR i, F.RD_GRP_STAT_TSV i, F.RD_GRP_STAT_CLAMP i, F.RD_GRP_STAT_CONFLICT i, F.RD_GRP_STAT_RETIRED_MASK i, F.RD_GRP_STAT_SUSPECT_MASK i, F.RD_GRP_STAT_STARVED_MASK i, F.RD_GRP_STAT_ENGINE_RUN i]⟩,
  ⟨"RD_TS_PORT_ADDR", 0x300010, 32, 0x8000, 1, 0x8, false, fun i _ => [F.RD_TS_PORT_ADDR_LANE i, F.RD_TS_PORT_ADDR_TSET i, F.RD_TS_PORT_ADDR_AUTOINC i]⟩,
  ⟨"RD_TS_PORT_DATA", 0x300020, 32, 0x8000, 1, 0x8, true, fun i _ => [F.RD_TS_PORT_DATA_W i]⟩,
  ⟨"RD_CH_STAT", 0x300100, 32, 0x8000, 8, 0x8, false, fun i j => [F.RD_CH_STAT_STATE i j, F.RD_CH_STAT_STARVED i j, F.RD_CH_STAT_CAL_CLAMPED i j, F.RD_CH_STAT_SPARE_USED i j, F.RD_CH_STAT_DRIFT_L i j, F.RD_CH_STAT_DRIFT_C i j, F.RD_CH_STAT_SUSPECT_UI i j]⟩,
  ⟨"RD_UCAL_A", 0x300200, 32, 0x8000, 8, 0x10, false, fun i j => (List.range 4).map (fun k => F.RD_UCAL_A_U i j k)⟩,
  ⟨"RD_UCAL_B", 0x300208, 32, 0x8000, 8, 0x10, false, fun i j => (List.range 2).map (fun k => F.RD_UCAL_B_U i j k)⟩,
  ⟨"RD_FCAL_A", 0x300280, 32, 0x8000, 8, 0x10, false, fun i j => (List.range 4).map (fun k => F.RD_FCAL_A_U i j k)⟩,
  ⟨"RD_FCAL_B", 0x300288, 32, 0x8000, 8, 0x10, false, fun i j => (List.range 2).map (fun k => F.RD_FCAL_B_U i j k)⟩,
  ⟨"RD_TS_DROPPED", 0x300400, 32, 0x8000, 1, 0x8, false, fun i _ => [F.RD_TS_DROPPED_COUNT i]⟩,
  ⟨"RD_EDGE_CLAMP", 0x300408, 32, 0x8000, 1, 0x8, false, fun i _ => [F.RD_EDGE_CLAMP_COUNT i]⟩,
  ⟨"RD_TSV_UI", 0x300410, 32, 0x8000, 1, 0x8, false, fun i _ => [F.RD_TSV_UI_COUNT i]⟩,
  ⟨"RD_CONFLICT", 0x300418, 32, 0x8000, 1, 0x8, false, fun i _ => [F.RD_CONFLICT_COUNT i]⟩,
  ⟨"RD_CNT_CLR", 0x300420, 32, 0x8000, 1, 0x8, false, fun i _ => [F.RD_CNT_CLR_CLR i]⟩,
  ⟨"RD_TS_POP", 0x300500, 32, 0x8000, 1, 0x8, true, fun i _ => [F.RD_TS_POP_W i]⟩]

/-- The registers of: Capture (R161). -/
def regTable04 : List RegRow := [
  ⟨"CAP_STAT", 0x400000, 1, 0x8, 1, 0x8, false, fun _ _ => [F.CAP_STAT_FAT_OCC, F.CAP_STAT_FAT_HIGH, F.CAP_STAT_FAT_FULL, F.CAP_STAT_BM_VALID, F.CAP_STAT_BM_DIRTY, F.CAP_STAT_BM_FAULT, F.CAP_STAT_BM_FLUSHING]⟩,
  ⟨"FAT_CTL", 0x400008, 1, 0x8, 1, 0x8, false, fun _ _ => [F.FAT_CTL_FAT_WAIT]⟩,
  ⟨"FAT_PORT_ADDR", 0x400010, 1, 0x8, 1, 0x8, false, fun _ _ => [F.FAT_PORT_ADDR_INDEX, F.FAT_PORT_ADDR_AUTOINC]⟩,
  ⟨"FAT_PORT_DATA_LO", 0x400020, 1, 0x8, 1, 0x8, true, fun _ _ => [F.FAT_PORT_DATA_LO_W]⟩,
  ⟨"FAT_PORT_DATA_HI", 0x400030, 1, 0x8, 1, 0x8, true, fun _ _ => [F.FAT_PORT_DATA_HI_W]⟩,
  ⟨"FFL_SEL", 0x400040, 1, 0x8, 1, 0x8, false, fun _ _ => [F.FFL_SEL_PE]⟩,
  ⟨"CAP_PE_CTL", 0x401000, 16, 0x100, 1, 0x8, false, fun i _ => [F.CAP_PE_CTL_EN i, F.CAP_PE_CTL_FAT_EN i, F.CAP_PE_CTL_BM_EN i, F.CAP_PE_CTL_FFL_KEEP i, F.CAP_PE_CTL_CMASK_CH i]⟩,
  ⟨"CAP_PE_STAT", 0x401008, 16, 0x100, 1, 0x8, false, fun i _ => [F.CAP_PE_STAT_FIFO_LEVEL i, F.CAP_PE_STAT_CAP_REQ_FIFO i, F.CAP_PE_STAT_CAP_REQ_FAT i, F.CAP_PE_STAT_FAIL_OVERFLOW i, F.CAP_PE_STAT_FAT_REJ i, F.CAP_PE_STAT_BM_RANGE i, F.CAP_PE_STAT_DRAINED i, F.CAP_PE_STAT_FFL_COUNT i]⟩,
  ⟨"CAP_FWORDS", 0x401010, 16, 0x100, 1, 0x8, false, fun i _ => [F.CAP_FWORDS_COUNT i]⟩,
  ⟨"CAP_DROPPED", 0x401018, 16, 0x100, 1, 0x8, false, fun i _ => [F.CAP_DROPPED_COUNT i]⟩,
  ⟨"BM_BASE", 0x401020, 16, 0x100, 1, 0x8, false, fun i _ => [F.BM_BASE_BASE i]⟩,
  ⟨"BM_GEOM", 0x401028, 16, 0x100, 1, 0x8, false, fun i _ => [F.BM_GEOM_BXW i, F.BM_GEOM_BYW i, F.BM_GEOM_BCODE i]⟩,
  ⟨"BM_RANGE_CNT", 0x401030, 16, 0x100, 1, 0x8, false, fun i _ => [F.BM_RANGE_CNT_COUNT i]⟩,
  ⟨"BM_LOST_CNT", 0x401038, 16, 0x100, 1, 0x8, false, fun i _ => [F.BM_LOST_CNT_COUNT i]⟩,
  ⟨"FAT_REJ_CNT", 0x401040, 16, 0x100, 1, 0x8, false, fun i _ => [F.FAT_REJ_CNT_COUNT i]⟩,
  ⟨"CAP_PE_CNT_CLR", 0x401048, 16, 0x100, 1, 0x8, false, fun i _ => [F.CAP_PE_CNT_CLR_CLR i, F.CAP_PE_CNT_CLR_CLR_CH i]⟩,
  ⟨"CAP_CHCNT", 0x402000, 256, 0x8, 1, 0x8, false, fun i _ => [F.CAP_CHCNT_COUNT i]⟩,
  ⟨"FFL_WINDOW", 0x480000, 16384, 0x8, 1, 0x8, false, fun i _ => [F.FFL_WINDOW_W i]⟩,
  ⟨"CAP_LOSTMAP", 0x4A0000, 16384, 0x8, 1, 0x8, false, fun i _ => [F.CAP_LOSTMAP_W i]⟩]

/-- The registers of: Repair analysis (R189). -/
def regTable05 : List RegRow := [
  ⟨"RAE_STAT", 0x500000, 1, 0x8, 1, 0x8, false, fun _ _ => [F.RAE_STAT_STATE, F.RAE_STAT_SOURCE, F.RAE_STAT_RECIPE_VALID, F.RAE_STAT_EPOCH, F.RAE_STAT_RING_WAIT, F.RAE_STAT_CACHE_USED, F.RAE_STAT_DOM_CUR]⟩,
  ⟨"RAE_CTX_BASE", 0x500008, 1, 0x8, 1, 0x8, false, fun _ _ => [F.RAE_CTX_BASE_ADDR]⟩,
  ⟨"RAE_POOL_BASE", 0x500010, 1, 0x8, 1, 0x8, false, fun _ _ => [F.RAE_POOL_BASE_ADDR]⟩,
  ⟨"RAE_POOL_BLOCKS", 0x500018, 1, 0x8, 1, 0x8, false, fun _ _ => [F.RAE_POOL_BLOCKS_BLOCKS]⟩,
  ⟨"RAE_POOL_USED", 0x500020, 1, 0x8, 1, 0x8, false, fun _ _ => [F.RAE_POOL_USED_BLOCKS]⟩,
  ⟨"RAE_OUT_BASE", 0x500028, 1, 0x8, 1, 0x8, false, fun _ _ => [F.RAE_OUT_BASE_ADDR, F.RAE_OUT_BASE_DEVICE, F.RAE_OUT_BASE_REMOTE]⟩,
  ⟨"RAE_OUT_SIZE", 0x500030, 1, 0x8, 1, 0x8, false, fun _ _ => [F.RAE_OUT_SIZE_LOG]⟩,
  ⟨"RAE_OUT_WR", 0x500038, 1, 0x8, 1, 0x8, false, fun _ _ => [F.RAE_OUT_WR_COUNT]⟩,
  ⟨"RAE_OUT_RD", 0x500040, 1, 0x8, 1, 0x8, false, fun _ _ => [F.RAE_OUT_RD_COUNT]⟩,
  ⟨"RAE_CNT_TAKES", 0x500048, 1, 0x8, 1, 0x8, false, fun _ _ => [F.RAE_CNT_TAKES_COUNT]⟩,
  ⟨"RAE_CNT_UNASSIGNED", 0x500050, 1, 0x8, 1, 0x8, false, fun _ _ => [F.RAE_CNT_UNASSIGNED_COUNT]⟩,
  ⟨"RAE_CNT_DISCARDED", 0x500058, 1, 0x8, 1, 0x8, false, fun _ _ => [F.RAE_CNT_DISCARDED_COUNT]⟩,
  ⟨"RAE_CNT_CLR", 0x500060, 1, 0x8, 1, 0x8, false, fun _ _ => [F.RAE_CNT_CLR_CLR]⟩,
  ⟨"RAE_SRC_TIMEOUT", 0x500068, 1, 0x8, 1, 0x8, false, fun _ _ => [F.RAE_SRC_TIMEOUT_MS]⟩,
  ⟨"RAE_SRC", 0x500100, 16, 0x8, 1, 0x8, false, fun i _ => [F.RAE_SRC_DEV i, F.RAE_SRC_LISTED i, F.RAE_SRC_END_SEEN i]⟩,
  ⟨"RAE_IMPORT_LO", 0x501000, 16, 0x20, 1, 0x8, true, fun i _ => [F.RAE_IMPORT_LO_W i]⟩,
  ⟨"RAE_IMPORT_HI", 0x501010, 16, 0x20, 1, 0x8, true, fun i _ => [F.RAE_IMPORT_HI_W i]⟩,
  ⟨"RAE_RECIPE", 0x504000, 2048, 0x8, 1, 0x8, false, fun i _ => (List.range 2).map (fun k => F.RAE_RECIPE_W i k)⟩]

/-- The registers of: DMA (R332). -/
def regTable06 : List RegRow := [
  ⟨"DMA_GCTL", 0x600000, 1, 0x8, 1, 0x8, false, fun _ _ => [F.DMA_GCTL_SLICE]⟩,
  ⟨"DMA_GSTAT", 0x600008, 1, 0x8, 1, 0x8, false, fun _ _ => [F.DMA_GSTAT_ENGINES_BUSY, F.DMA_GSTAT_CH_QUEUED]⟩,
  ⟨"DMA_DREQ_SET", 0x600010, 1, 0x8, 1, 0x8, false, fun _ _ => [F.DMA_DREQ_SET_CH]⟩,
  ⟨"DMA_DREQ_CLR", 0x600018, 1, 0x8, 1, 0x8, false, fun _ _ => [F.DMA_DREQ_CLR_CH]⟩,
  ⟨"DMA_DREQ", 0x601000, 64, 0x8, 1, 0x8, false, fun i _ => [F.DMA_DREQ_REQ i]⟩,
  ⟨"DMA_SRC", 0x680000, 4096, 0x80, 1, 0x8, false, fun i _ => [F.DMA_SRC_W i]⟩,
  ⟨"DMA_DST", 0x680008, 4096, 0x80, 1, 0x8, false, fun i _ => [F.DMA_DST_W i]⟩,
  ⟨"DMA_CTL", 0x680010, 4096, 0x80, 1, 0x8, false, fun i _ => [F.DMA_CTL_W i]⟩,
  ⟨"DMA_NEXT", 0x680018, 4096, 0x80, 1, 0x8, false, fun i _ => [F.DMA_NEXT_W i]⟩,
  ⟨"DMA_LEN", 0x680020, 4096, 0x80, 1, 0x8, false, fun i _ => [F.DMA_LEN_LEN i]⟩,
  ⟨"DMA_CRC", 0x680028, 4096, 0x80, 1, 0x8, false, fun i _ => [F.DMA_CRC_CRC i]⟩,
  ⟨"DMA_CH_CMD", 0x680030, 4096, 0x80, 1, 0x8, false, fun i _ => [F.DMA_CH_CMD_GO i, F.DMA_CH_CMD_PAUSE i, F.DMA_CH_CMD_ARM i, F.DMA_CH_CMD_CLOSE i, F.DMA_CH_CMD_CLR_CNT i]⟩,
  ⟨"DMA_CH_STAT", 0x680038, 4096, 0x80, 1, 0x8, false, fun i _ => [F.DMA_CH_STAT_STATE i, F.DMA_CH_STAT_CHAIN_IDLE i, F.DMA_CH_STAT_DEFERRED i, F.DMA_CH_STAT_LATE_ERR i, F.DMA_CH_STAT_FROM_DESC i, F.DMA_CH_STAT_ERR_SIDE i, F.DMA_CH_STAT_ERR_RESP i, F.DMA_CH_STAT_ERR_DETAIL i, F.DMA_CH_STAT_ENGINE i, F.DMA_CH_STAT_LOADED i, F.DMA_CH_STAT_DEFER_CNT i]⟩,
  ⟨"SH_SRC", 0x680040, 4096, 0x80, 1, 0x8, false, fun i _ => [F.SH_SRC_W i]⟩,
  ⟨"SH_DST", 0x680048, 4096, 0x80, 1, 0x8, false, fun i _ => [F.SH_DST_W i]⟩,
  ⟨"SH_CTL", 0x680050, 4096, 0x80, 1, 0x8, false, fun i _ => [F.SH_CTL_W i]⟩,
  ⟨"SH_NEXT", 0x680058, 4096, 0x80, 1, 0x8, false, fun i _ => [F.SH_NEXT_W i]⟩,
  ⟨"SH_LEN", 0x680060, 4096, 0x80, 1, 0x8, false, fun i _ => [F.SH_LEN_LEN i]⟩,
  ⟨"DMA_CH_CFG", 0x680068, 4096, 0x80, 1, 0x8, false, fun i _ => [F.DMA_CH_CFG_PRIO i, F.DMA_CH_CFG_RT i, F.DMA_CH_CFG_BURST i]⟩,
  ⟨"DMA_ERR_ADDR", 0x680070, 4096, 0x80, 1, 0x8, false, fun i _ => [F.DMA_ERR_ADDR_ADDR i]⟩,
  ⟨"DMA_DESC", 0x680078, 4096, 0x80, 1, 0x8, false, fun i _ => [F.DMA_DESC_ADDR i]⟩]

/-- The registers of: Network (R314). -/
def regTable07 : List RegRow := [
  ⟨"NET_WRR", 0x700000, 1, 0x8, 1, 0x8, false, fun _ _ => [F.NET_WRR_W_RT, F.NET_WRR_W_FAB, F.NET_WRR_W_BULK, F.NET_WRR_W_CTL]⟩,
  ⟨"NET_STAT", 0x700008, 1, 0x8, 1, 0x8, false, fun _ _ => [F.NET_STAT_BULK_EFF, F.NET_STAT_WRR_PENDING, F.NET_STAT_QFAIL, F.NET_STAT_LINKS_HALF, F.NET_STAT_LINKS_RETIRED]⟩,
  ⟨"ROUTER_STAT", 0x701000, 96, 0x20, 1, 0x8, false, fun i _ => [F.ROUTER_STAT_LINK i, F.ROUTER_STAT_ZLINK i, F.ROUTER_STAT_QUIESCING i]⟩,
  ⟨"NI_CTL", 0x704000, 288, 0x80, 1, 0x8, false, fun i _ => [F.NI_CTL_TIMEOUT i, F.NI_CTL_OUT_MAX i, F.NI_CTL_BUSY_WAIT i]⟩,
  ⟨"NI_STAT", 0x704008, 288, 0x80, 1, 0x8, false, fun i _ => [F.NI_STAT_STATE i, F.NI_STAT_OUT i, F.NI_STAT_WITHHELD i, F.NI_STAT_TOUT i, F.NI_STAT_BUSY i, F.NI_STAT_LATE i]⟩,
  ⟨"NI_CNT_A", 0x704010, 288, 0x80, 1, 0x8, false, fun i _ => [F.NI_CNT_A_TOUT_CNT i, F.NI_CNT_A_BUSY_CNT i]⟩,
  ⟨"NI_CNT_B", 0x704018, 288, 0x80, 1, 0x8, false, fun i _ => [F.NI_CNT_B_LATE_CNT i, F.NI_CNT_B_OFF_CNT i]⟩,
  ⟨"NI_CNT_CLR", 0x704020, 288, 0x80, 1, 0x8, false, fun i _ => [F.NI_CNT_CLR_CLR i]⟩,
  ⟨"NI_LAT_MAX", 0x704028, 288, 0x80, 1, 0x8, false, fun i _ => (List.range 4).map (fun k => F.NI_LAT_MAX_MAX i k)⟩,
  ⟨"NI_LAT_N", 0x704030, 288, 0x80, 4, 0x10, false, fun i j => [F.NI_LAT_N_COUNT i j]⟩,
  ⟨"NI_LAT_SUM", 0x704038, 288, 0x80, 4, 0x10, false, fun i j => [F.NI_LAT_SUM_SUM i j]⟩]

/-- The registers of: DRAM controller (R290). -/
def regTable08 : List RegRow := [
  ⟨"DR_CTL", 0x800000, 1, 0x8, 1, 0x8, false, fun _ _ => [F.DR_CTL_FREQ, F.DR_CTL_PD_TIMER, F.DR_CTL_AUTO_RETRAIN]⟩,
  ⟨"DR_STAT", 0x800008, 1, 0x8, 1, 0x8, false, fun _ _ => [F.DR_STAT_STATE, F.DR_STAT_HOT, F.DR_STAT_CATCHUP, F.DR_STAT_OWED, F.DR_STAT_DRAINING, F.DR_STAT_RQ_LEVEL, F.DR_STAT_WQ_LEVEL, F.DR_STAT_PD, F.DR_STAT_THROTTLE, F.DR_STAT_FREQ_PENDING, F.DR_STAT_CORR, F.DR_STAT_RETRAIN_DUE]⟩,
  ⟨"DR_RETIRED", 0x800010, 4, 0x8, 1, 0x8, false, fun i _ => [F.DR_RETIRED_MASK i]⟩,
  ⟨"DR_CNT_A", 0x800030, 1, 0x8, 1, 0x8, false, fun _ _ => [F.DR_CNT_A_CORR_CNT, F.DR_CNT_A_FREEZES]⟩,
  ⟨"DR_CNT_B", 0x800038, 1, 0x8, 1, 0x8, false, fun _ _ => [F.DR_CNT_B_CATCHUP_CNT, F.DR_CNT_B_TRAIN_CNT]⟩,
  ⟨"DR_CNT_CLR", 0x800040, 1, 0x8, 1, 0x8, false, fun _ _ => [F.DR_CNT_CLR_CLR]⟩,
  ⟨"DR_FRZ_STAT", 0x800048, 1, 0x8, 1, 0x8, false, fun _ _ => [F.DR_FRZ_STAT_FROZEN, F.DR_FRZ_STAT_CAUSE, F.DR_FRZ_STAT_ON_WRITE, F.DR_FRZ_STAT_BANK, F.DR_FRZ_STAT_RQ_HELD, F.DR_FRZ_STAT_WQ_HELD]⟩,
  ⟨"DR_FRZ_ADDR", 0x800050, 1, 0x8, 1, 0x8, false, fun _ _ => [F.DR_FRZ_ADDR_ADDR]⟩,
  ⟨"DR_FRZ_SYND", 0x800058, 1, 0x8, 1, 0x8, false, fun _ _ => [F.DR_FRZ_SYND_SYND, F.DR_FRZ_SYND_GRANULE, F.DR_FRZ_SYND_UNC, F.DR_FRZ_SYND_LOST]⟩,
  ⟨"DR_FRZ_RQHEAD", 0x800060, 1, 0x8, 1, 0x8, false, fun _ _ => [F.DR_FRZ_RQHEAD_ADDR]⟩,
  ⟨"DR_FRZ_WQHEAD", 0x800068, 1, 0x8, 1, 0x8, false, fun _ _ => [F.DR_FRZ_WQHEAD_ADDR]⟩]

/-- The registers of: Windway (R357). -/
def regTable09 : List RegRow := [
  ⟨"WW_ID", 0x900000, 1, 0x8, 1, 0x8, false, fun _ _ => [F.WW_ID_DEVICE_ID, F.WW_ID_ROOT, F.WW_ID_EPOCH, F.WW_ID_DISC_BUSY, F.WW_ID_DEVICES]⟩,
  ⟨"WW_CTL", 0x900008, 1, 0x8, 1, 0x8, false, fun _ _ => [F.WW_CTL_AUTO_REROUTE, F.WW_CTL_AUTO_REDISC, F.WW_CTL_ERR_THRESH, F.WW_CTL_DISC_WAIT]⟩,
  ⟨"WW_INFLIGHT", 0x900010, 1, 0x8, 1, 0x8, false, fun _ _ => [F.WW_INFLIGHT_CUR, F.WW_INFLIGHT_OLD]⟩,
  ⟨"WW_CNT", 0x900018, 1, 0x8, 1, 0x8, false, fun _ _ => [F.WW_CNT_UNDELIV_CNT, F.WW_CNT_ERR_CNT]⟩,
  ⟨"WW_CNT_CLR", 0x900020, 1, 0x8, 1, 0x8, false, fun _ _ => [F.WW_CNT_CLR_CLR]⟩,
  ⟨"WW_TB", 0x900040, 1, 0x8, 1, 0x8, false, fun _ _ => [F.WW_TB_TIME]⟩,
  ⟨"WW_TB_CTL", 0x900048, 1, 0x8, 1, 0x8, false, fun _ _ => [F.WW_TB_CTL_SRC, F.WW_TB_CTL_MASTER, F.WW_TB_CTL_SYNC_LOG, F.WW_TB_CTL_PIN_OFFSET]⟩,
  ⟨"WW_TB_STAT", 0x900050, 1, 0x8, 1, 0x8, false, fun _ _ => [F.WW_TB_STAT_LOCKED, F.WW_TB_STAT_STEPPED, F.WW_TB_STAT_PHASE_ERR, F.WW_TB_STAT_UPSTREAM]⟩,
  ⟨"WW_XG_CTL", 0x900060, 1, 0x8, 1, 0x8, false, fun _ _ => [F.WW_XG_CTL_EN, F.WW_XG_CTL_COUNT]⟩,
  ⟨"WW_XG_DEV", 0x900068, 4, 0x8, 1, 0x8, false, fun i _ => (List.range 4).map (fun k => F.WW_XG_DEV_DEV i k)⟩,
  ⟨"WW_P_CTL", 0x901000, 8, 0x40, 1, 0x8, false, fun i _ => [F.WW_P_CTL_EN i, F.WW_P_CTL_RETRAIN i]⟩,
  ⟨"WW_P_STAT", 0x901008, 8, 0x40, 1, 0x8, false, fun i _ => [F.WW_P_STAT_LSTATE i, F.WW_P_STAT_WIDTH i, F.WW_P_STAT_LANE_OUT i, F.WW_P_STAT_LANE_RET i, F.WW_P_STAT_BRIDGE i, F.WW_P_STAT_PARTNER_PORT i, F.WW_P_STAT_PARTNER_ID i]⟩,
  ⟨"WW_P_CNT", 0x901010, 8, 0x40, 1, 0x8, false, fun i _ => [F.WW_P_CNT_CRC_ERR i, F.WW_P_CNT_REPLAYS i]⟩,
  ⟨"WW_P_CNT_CLR", 0x901018, 8, 0x40, 1, 0x8, false, fun i _ => [F.WW_P_CNT_CLR_CLR i]⟩,
  ⟨"WW_ROUTE", 0x910000, 2, 0x8000, 4096, 0x8, false, fun i j => [F.WW_ROUTE_W i j]⟩]

/-- The registers of: Thermal, power, clocks (R373, R425). -/
def regTable10 : List RegRow := [
  ⟨"TH_STAT", 0xA00000, 1, 0x8, 1, 0x8, false, fun _ _ => [F.TH_STAT_DEV_MAX, F.TH_STAT_WARN, F.TH_STAT_THROTTLE, F.TH_STAT_RATE, F.TH_STAT_BROKEN, F.TH_STAT_SUSPECT, F.TH_STAT_COOLANT_LOW]⟩,
  ⟨"TH_CFG", 0xA00008, 1, 0x8, 1, 0x8, false, fun _ _ => [F.TH_CFG_WARN, F.TH_CFG_THROTTLE, F.TH_CFG_LIMIT, F.TH_CFG_TRIP, F.TH_CFG_RESTART, F.TH_CFG_RATE]⟩,
  ⟨"TH_LAYER", 0xA00010, 2, 0x8, 1, 0x8, false, fun i _ => (List.range 4).map (fun k => F.TH_LAYER_T i k) ++ (List.range 4).map (fun k => F.TH_LAYER_SUSPECT i k) ++ (List.range 4).map (fun k => F.TH_LAYER_EST_VALID i k)⟩,
  ⟨"TH_EST", 0xA00020, 2, 0x8, 1, 0x8, false, fun i _ => (List.range 4).map (fun k => F.TH_EST_T i k) ++ (List.range 4).map (fun k => F.TH_EST_EST_VALID i k)⟩,
  ⟨"TH_COOLANT", 0xA00030, 1, 0x8, 1, 0x8, false, fun _ _ => [F.TH_COOLANT_INLET, F.TH_COOLANT_OUTLET, F.TH_COOLANT_INLET_RANGE, F.TH_COOLANT_RISE_HIGH]⟩,
  ⟨"TH_TRIP_INFO", 0xA00038, 1, 0x8, 1, 0x8, false, fun _ _ => [F.TH_TRIP_INFO_KIND, F.TH_TRIP_INFO_SENSOR, F.TH_TRIP_INFO_TEMP, F.TH_TRIP_INFO_COUNT]⟩,
  ⟨"TH_HOST", 0xA00040, 1, 0x8, 1, 0x8, false, fun _ _ => [F.TH_HOST_S_HOST]⟩,
  ⟨"TH_BROKEN", 0xA00048, 3, 0x8, 1, 0x8, false, fun i _ => [F.TH_BROKEN_MASK i]⟩,
  ⟨"TH_SUBST", 0xA00060, 3, 0x8, 1, 0x8, false, fun i _ => [F.TH_SUBST_MASK i]⟩,
  ⟨"TH_SENSOR", 0xA00100, 136, 0x8, 1, 0x8, false, fun i _ => [F.TH_SENSOR_USED i, F.TH_SENSOR_RAW i, F.TH_SENSOR_RATE i, F.TH_SENSOR_BROKEN i, F.TH_SENSOR_REASON i, F.TH_SENSOR_SUSPECT i, F.TH_SENSOR_SUBST i]⟩,
  ⟨"TH_RZONE", 0xA00800, 192, 0x8, 1, 0x8, false, fun i _ => [F.TH_RZONE_S i, F.TH_RZONE_T i, F.TH_RZONE_RATE i]⟩,
  ⟨"TH_EZONE", 0xA01000, 16, 0x8, 1, 0x8, false, fun i _ => [F.TH_EZONE_S i, F.TH_EZONE_T i, F.TH_EZONE_RATE i]⟩,
  ⟨"TH_BDZONE", 0xA01080, 3, 0x8, 1, 0x8, false, fun i _ => [F.TH_BDZONE_S i, F.TH_BDZONE_T i, F.TH_BDZONE_RATE i]⟩,
  ⟨"PWR_STAT", 0xA08000, 1, 0x8, 1, 0x8, false, fun _ _ => [F.PWR_STAT_VALID, F.PWR_STAT_SEQ_VIOL, F.PWR_STAT_RAIL_LOST, F.PWR_STAT_REFCLK_LOST, F.PWR_STAT_REFCLK_OK, F.PWR_STAT_AUX_V]⟩,
  ⟨"PWR_RAIL", 0xA08100, 11, 0x8, 1, 0x8, false, fun i _ => [F.PWR_RAIL_MV i, F.PWR_RAIL_CURRENT i, F.PWR_RAIL_POWER i]⟩,
  ⟨"CLK_RG", 0xA09000, 192, 0x8, 1, 0x8, false, fun i _ => [F.CLK_RG_FSET i, F.CLK_RG_FNOW i, F.CLK_RG_SLEWING i]⟩]

/-- The registers of: Self-test (R396). -/
def regTable11 : List RegRow := [
  ⟨"ST_CTL", 0xB00000, 1, 0x8, 1, 0x8, false, fun _ _ => [F.ST_CTL_EN, F.ST_CTL_PERIOD, F.ST_CTL_KIND_EN]⟩,
  ⟨"ST_STAT", 0xB00008, 1, 0x8, 1, 0x8, false, fun _ _ => [F.ST_STAT_ACT, F.ST_STAT_KIND, F.ST_STAT_TQ_LEVEL, F.ST_STAT_TQ_OVF, F.ST_STAT_HALTED]⟩,
  ⟨"ST_LAST_SIG", 0xB00010, 1, 0x8, 1, 0x8, false, fun _ _ => [F.ST_LAST_SIG_SIG]⟩,
  ⟨"ST_LAST", 0xB00018, 1, 0x8, 1, 0x8, false, fun _ _ => [F.ST_LAST_DONE, F.ST_LAST_EXP, F.ST_LAST_END, F.ST_LAST_VERDICT, F.ST_LAST_KIND, F.ST_LAST_ELEMENT]⟩,
  ⟨"ST_CNT_A", 0xB00020, 1, 0x8, 1, 0x8, false, fun _ _ => [F.ST_CNT_A_PASS, F.ST_CNT_A_FAIL]⟩,
  ⟨"ST_CNT_B", 0xB00028, 1, 0x8, 1, 0x8, false, fun _ _ => [F.ST_CNT_B_INCOMPLETE, F.ST_CNT_B_SKIPPED]⟩,
  ⟨"ST_CNT_C", 0xB00030, 1, 0x8, 1, 0x8, false, fun _ _ => [F.ST_CNT_C_TRANSIENT, F.ST_CNT_C_PERMANENT]⟩,
  ⟨"ST_CNT_CLR", 0xB00038, 1, 0x8, 1, 0x8, false, fun _ _ => [F.ST_CNT_CLR_CLR]⟩,
  ⟨"ST_RLOG", 0xB00040, 1, 0x8, 1, 0x8, false, fun _ _ => [F.ST_RLOG_ENTRIES, F.ST_RLOG_FULL, F.ST_RLOG_PENDING, F.ST_RLOG_FUSE_USED]⟩]

/-- The registers of: Ligature (R397). -/
def regTable12 : List RegRow := [
  ⟨"LG_CTL", 0xC00000, 1, 0x8, 1, 0x8, false, fun _ _ => [F.LG_CTL_EN]⟩,
  ⟨"LG_STAT", 0xC00008, 1, 0x8, 1, 0x8, false, fun _ _ => [F.LG_STAT_RELOADING, F.LG_STAT_REGION, F.LG_STAT_STOP, F.LG_STAT_FRAME, F.LG_STAT_PASSES]⟩,
  ⟨"LG_LAST", 0xC00010, 1, 0x8, 1, 0x8, false, fun _ _ => [F.LG_LAST_REGION, F.LG_LAST_STOP, F.LG_LAST_FRAME, F.LG_LAST_WORD, F.LG_LAST_BY_CRC]⟩,
  ⟨"LG_CNT_A", 0xC00018, 1, 0x8, 1, 0x8, false, fun _ _ => [F.LG_CNT_A_CORR, F.LG_CNT_A_UNCORR]⟩,
  ⟨"LG_CNT_B", 0xC00020, 1, 0x8, 1, 0x8, false, fun _ _ => [F.LG_CNT_B_RELOADS, F.LG_CNT_B_RESTARTS]⟩,
  ⟨"LG_CNT_C", 0xC00028, 1, 0x8, 1, 0x8, false, fun _ _ => [F.LG_CNT_C_VOTE_CORR, F.LG_CNT_C_RELOAD_FAIL]⟩,
  ⟨"LG_CNT_CLR", 0xC00030, 1, 0x8, 1, 0x8, false, fun _ _ => [F.LG_CNT_CLR_CLR]⟩]

/-- The registers of: NVS window (R425). -/
def regTable13 : List RegRow := [
  ⟨"NVS_STAT", 0xDF0000, 1, 0x8, 1, 0x8, false, fun _ _ => [F.NVS_STAT_BUSY, F.NVS_STAT_UNC, F.NVS_STAT_UNC_WORD]⟩,
  ⟨"NVS_CTL", 0xDF0008, 1, 0x8, 1, 0x8, false, fun _ _ => [F.NVS_CTL_EVLOG_SEV]⟩,
  ⟨"NVS_UPAGE_SELF", 0xDF0010, 1, 0x8, 1, 0x8, false, fun _ _ => [F.NVS_UPAGE_SELF_PAGE]⟩,
  ⟨"NVS_CNT", 0xDF0018, 1, 0x8, 1, 0x8, false, fun _ _ => [F.NVS_CNT_UNC_CNT, F.NVS_CNT_EVLOG_LOST]⟩,
  ⟨"NVS_CNT_CLR", 0xDF0020, 1, 0x8, 1, 0x8, false, fun _ _ => [F.NVS_CNT_CLR_CLR]⟩,
  ⟨"NVS_UPAGE", 0xDF0100, 9, 0x8, 1, 0x8, false, fun i _ => (List.range 32).map (fun k => F.NVS_UPAGE_PAGE i k)⟩]

/-- The registers of: Fabric hard blocks (R219, R266). -/
def regTable14 : List RegRow := [
  ⟨"FAB_STAT", 0xE00000, 1, 0x8, 1, 0x8, false, fun _ _ => [F.FAB_STAT_RETIRED, F.FAB_STAT_DEGRADED, F.FAB_STAT_HELD, F.FAB_STAT_OFF]⟩,
  ⟨"FAB_BCAST_MASK", 0xE00100, 3, 0x8, 1, 0x8, false, fun i _ => [F.FAB_BCAST_MASK_MASK i]⟩,
  ⟨"FAB_BCAST", 0xE00118, 1, 0x8, 1, 0x8, false, fun _ _ => [F.FAB_BCAST_STOP, F.FAB_BCAST_GO]⟩,
  ⟨"PROBE_SEL", 0xE00200, 16, 0x8, 1, 0x8, false, fun i _ => [F.PROBE_SEL_REGION i, F.PROBE_SEL_TAP i, F.PROBE_SEL_EN i]⟩,
  ⟨"FAB_RG_STAT", 0xE01000, 192, 0x40, 1, 0x8, false, fun i _ => [F.FAB_RG_STAT_GOV i, F.FAB_RG_STAT_RSTATE i, F.FAB_RG_STAT_DEGRADED i, F.FAB_RG_STAT_SS_LOST i, F.FAB_RG_STAT_SS_REFUSED i, F.FAB_RG_STAT_PARTY i, F.FAB_RG_STAT_HOLD_WHY i, F.FAB_RG_STAT_GDISC i, F.FAB_RG_STAT_RO_MEAS i] ++ (List.range 8).map (fun k => F.FAB_RG_STAT_STOPST i k)⟩,
  ⟨"FAB_RG_CTL", 0xE01008, 192, 0x40, 1, 0x8, false, fun i _ => [F.FAB_RG_CTL_CLKSRC i, F.FAB_RG_CTL_POSC i, F.FAB_RG_CTL_RO_SET i, F.FAB_RG_CTL_USS_EN i, F.FAB_RG_CTL_PARTY_EV i, F.FAB_RG_CTL_CLR_CNT i]⟩,
  ⟨"FAB_RG_CNT", 0xE01010, 192, 0x40, 1, 0x8, false, fun i _ => [F.FAB_RG_CNT_LOST i, F.FAB_RG_CNT_REFUSED i]⟩,
  ⟨"FAB_RG_CAPCTL", 0xE01018, 192, 0x40, 1, 0x8, false, fun i _ => [F.FAB_RG_CAPCTL_ARM i, F.FAB_RG_CAPCTL_STOP i, F.FAB_RG_CAPCTL_TMODE i, F.FAB_RG_CAPCTL_TPARTY i, F.FAB_RG_CAPCTL_TRIG_POS i]⟩,
  ⟨"FAB_RG_TRIGVAL", 0xE01020, 192, 0x40, 1, 0x8, false, fun i _ => [F.FAB_RG_TRIGVAL_VAL i]⟩,
  ⟨"FAB_RG_TRIGMASK", 0xE01028, 192, 0x40, 1, 0x8, false, fun i _ => [F.FAB_RG_TRIGMASK_MASK i]⟩,
  ⟨"FAB_RG_CAPSTAT", 0xE01030, 192, 0x40, 1, 0x8, false, fun i _ => [F.FAB_RG_CAPSTAT_CSTATE i, F.FAB_RG_CAPSTAT_START i, F.FAB_RG_CAPSTAT_TRIG i, F.FAB_RG_CAPSTAT_SHORT i, F.FAB_RG_CAPSTAT_COUNT i]⟩,
  ⟨"FAB_RG_GDISC", 0xE01038, 192, 0x40, 1, 0x8, false, fun i _ => [F.FAB_RG_GDISC_COUNT i]⟩,
  ⟨"SPORT_CTL", 0xE05000, 32, 0x40, 1, 0x8, false, fun i _ => [F.SPORT_CTL_MODE i, F.SPORT_CTL_HOST i, F.SPORT_CTL_SPIMODE i, F.SPORT_CTL_PAR_EN i, F.SPORT_CTL_PAR_ODD i, F.SPORT_CTL_DIV i] ++ (List.range 4).map (fun k => F.SPORT_CTL_PIN i k)⟩,
  ⟨"SPORT_STAT", 0xE05008, 32, 0x40, 1, 0x8, false, fun i _ => [F.SPORT_STAT_TX_LEVEL i, F.SPORT_STAT_RX_LEVEL i, F.SPORT_STAT_BUSY i, F.SPORT_STAT_RX_OVR i, F.SPORT_STAT_FRAME_ERR i, F.SPORT_STAT_NACK i]⟩,
  ⟨"SPORT_TX", 0xE05010, 32, 0x40, 1, 0x8, false, fun i _ => [F.SPORT_TX_BYTE i, F.SPORT_TX_START i, F.SPORT_TX_END i, F.SPORT_TX_READ i, F.SPORT_TX_NAK i]⟩,
  ⟨"SPORT_RX", 0xE05018, 32, 0x40, 1, 0x8, false, fun i _ => [F.SPORT_RX_BYTE i, F.SPORT_RX_VALID i]⟩,
  ⟨"AUX_STAT", 0xE06000, 96, 0x8, 1, 0x8, false, fun i _ => [F.AUX_STAT_OWNER i, F.AUX_STAT_OE i, F.AUX_STAT_OUT i, F.AUX_STAT_IN i]⟩,
  ⟨"FAB_VMASK", 0xE08000, 96, 0x80, 13, 0x8, false, fun i j => [F.FAB_VMASK_MASK i j]⟩,
  ⟨"SP_PWR_CTL", 0xE10000, 192, 0x40, 1, 0x8, false, fun i _ => (List.range 16).map (fun k => F.SP_PWR_CTL_MODE i k)⟩,
  ⟨"SP_PWR_STAT", 0xE10008, 192, 0x40, 1, 0x8, false, fun i _ => (List.range 16).map (fun k => F.SP_PWR_STAT_STATE i k) ++ (List.range 16).map (fun k => F.SP_PWR_STAT_BUSY i k) ++ (List.range 16).map (fun k => F.SP_PWR_STAT_LEASE i k)⟩,
  ⟨"SP_ERR_STAT", 0xE10010, 192, 0x40, 1, 0x8, false, fun i _ => [F.SP_ERR_STAT_CORR i, F.SP_ERR_STAT_UNCORR i, F.SP_ERR_STAT_COLLIDED i, F.SP_ERR_STAT_UNC_WORD i, F.SP_ERR_STAT_UNC_PORT i]⟩,
  ⟨"SP_CNT_A", 0xE10018, 192, 0x40, 1, 0x8, false, fun i _ => [F.SP_CNT_A_SP_CORR_CNT i, F.SP_CNT_A_SP_UNCORR_CNT i]⟩,
  ⟨"SP_CNT_B", 0xE10020, 192, 0x40, 1, 0x8, false, fun i _ => [F.SP_CNT_B_SP_COLL_CNT i]⟩,
  ⟨"SP_CNT_CLR", 0xE10028, 192, 0x40, 1, 0x8, false, fun i _ => [F.SP_CNT_CLR_CLR_A i, F.SP_CNT_CLR_CLR_B i]⟩]

/-- Every register of control space (Table 1.12 and the field maps of each chapter). -/
def regTables : List (Nat × List RegRow) := [
  (0, regTable00),
  (1, regTable01),
  (2, regTable02),
  (3, regTable03),
  (4, regTable04),
  (5, regTable05),
  (6, regTable06),
  (7, regTable07),
  (8, regTable08),
  (9, regTable09),
  (10, regTable10),
  (11, regTable11),
  (12, regTable12),
  (13, regTable13),
  (14, regTable14)]

/-- The fields of row `r` at control-space offset `off`, if the row has a register there. -/
def RegRow.at? (r : RegRow) (off : Nat) : Option (List Fld) :=
  if off < r.base then none
  else
    let d := off - r.base
    let i := if r.n1 = 1 then 0 else d / r.st1
    let e := if r.n1 = 1 then d else d % r.st1
    let j := e / r.st2
    if i < r.n1 ∧ j < r.n2 ∧ e % r.st2 = 0 then some (r.flds i j) else none

/-- The number of the block that holds a control-space offset, in the order of `regTables` (Table 1.12). -/
def regBlock (off : Nat) : Nat := off / 0x100000

/-- The first row of a list that has a register at `off`. -/
def findReg (off : Nat) : List RegRow → Option (Bool × List Fld)
  | [] => none
  | r :: rs =>
    match r.at? off with
    | some fs => some (r.wide, fs)
    | none => findReg off rs

/-- The register at a control-space offset: whether it takes 128-bit accesses only, and its fields. -/
def regAt (off : Nat) : Option (Bool × List Fld) :=
  match regTables.find? (fun p => p.1 = regBlock off) with
  | some p => findReg off p.2
  | none => none

end Sys2Proof.Machine
end

