-- ==== Sys2Proof/Machine/Ops.lean ====
section
/-! DEFINITION. Named operations over the state: sparse tables, the register file, byte memory, byte strings. -/

namespace Sys2Proof.Machine

/-! ## Sparse tables: lists of (key, value), keys strictly rising -/

/-- The value at key `k`, or `d` where the table lists none. -/
def tget {α : Type} (d : α) (k : Nat) : Tab α → α
  | [] => d
  | (k', v) :: t => if k' = k then v else tget d k t

/-- The value at key `k`, if listed. -/
def tfind {α : Type} (k : Nat) : Tab α → Option α
  | [] => none
  | (k', v) :: t => if k' = k then some v else tfind k t

/-- Remove key `k`. -/
def tdel {α : Type} (k : Nat) (t : Tab α) : Tab α := t.filter (fun e => e.1 ≠ k)

/-- Set key `k` to `v`, keeping keys in rising order. -/
def tset {α : Type} (k : Nat) (v : α) : Tab α → Tab α
  | [] => [(k, v)]
  | (k', v') :: t =>
    if k' = k then (k, v) :: t
    else if k < k' then (k, v) :: (k', v') :: t
    else (k', v') :: tset k v t

/-- Set key `k` to `v`; the default value `d` is kept unlisted. -/
def tput {α : Type} [DecidableEq α] (d : α) (k : Nat) (v : α) (t : Tab α) : Tab α :=
  if v = d then tdel k t else tset k v t

/-- The keys rise strictly. -/
def tsorted {α : Type} : Tab α → Bool
  | [] => true
  | [_] => true
  | (k, _) :: (k', v') :: t => decide (k < k') && tsorted ((k', v') :: t)

/-- Keep the entries whose key satisfies `p`. -/
def tkeep {α : Type} (p : Nat → Bool) (t : Tab α) : Tab α := t.filter (fun e => p e.1)

/-! ## Byte memory (R27, R262, R289): unlisted bytes read as zero -/

/-- The byte at an address. -/
def memGet (a : Nat) (m : Memory) : Byte := tget 0 a m

/-- Write one byte; a byte equal to what unlisted bytes read as is kept unlisted. -/
def memPut (a : Nat) (b : Byte) (m : Memory) : Memory := tput 0 a b m

/-- The canonical form of memory: addresses strictly rising and no listed byte zero. -/
def Memory.wf (m : Memory) : Bool := tsorted m && m.all (fun e => e.2 != 0)

/-- `n` bytes from address `a`. -/
def memRead (a n : Nat) (m : Memory) : List Byte := (List.range n).map (fun i => memGet (a + i) m)

/-- Write bytes from address `a` upward. -/
def memWrite : Nat → List Byte → Memory → Memory
  | _, [], m => m
  | a, b :: bs, m => memWrite (a + 1) bs (memPut a b m)

/-- Write the bytes of `bs` whose mask bit is set, from address `a` upward. -/
def memWriteMask : Nat → List (Bool × Byte) → Memory → Memory
  | _, [], m => m
  | a, (e, b) :: bs, m => memWriteMask (a + 1) bs (if e then memPut a b m else m)

/-- Zero every byte of `[lo, hi)`. -/
def memZero (lo hi : Nat) (m : Memory) : Memory := m.filter (fun e => !(decide (lo ≤ e.1) && decide (e.1 < hi)))

/-! ## Little-endian byte strings (R3) -/

/-- The number a little-endian byte string spells. -/
def leNat : List Byte → Nat
  | [] => 0
  | b :: bs => b.toNat + 256 * leNat bs

/-- The `n` low bytes of `v`, little-endian. -/
def natLe : Nat → Nat → List Byte
  | 0, _ => []
  | n + 1, v => BitVec.ofNat 8 v :: natLe n (v / 256)

/-- Bytes `off` to `off + n - 1` of a string as a number; bytes past its end count as zero. -/
def bytesAt (bs : List Byte) (off n : Nat) : Nat := leNat ((bs.drop off).take n)

/-- Bits `hi` to `lo` of a number. -/
def bits (v hi lo : Nat) : Nat := (v >>> lo) % 2 ^ (hi + 1 - lo)

/-- Bit `i` of a number, as 0 or 1. -/
def bit (v i : Nat) : Nat := (v >>> i) % 2

/-- 1 for true, 0 for false. -/
def b2n (b : Bool) : Nat := if b then 1 else 0

/-- The `w`-bit two's-complement reading of a number. -/
def sext (w v : Nat) : Int := if v % 2 ^ w < 2 ^ (w - 1) then (v % 2 ^ w : Nat) else (v % 2 ^ w : Nat) - (2 ^ w : Nat)

/-- The `w`-bit two's-complement pattern of an integer. -/
def toBits (w : Nat) (v : Int) : Nat := (v % (2 ^ w : Nat)).toNat

/-- A number with bit `i` set. -/
def setBit (v i : Nat) : Nat := v ||| (1 <<< i)

/-- A number with bit `i` cleared. -/
def clrBit (v i : Nat) : Nat := if v.testBit i then v - 2 ^ i else v

/-- A number with bit `i` set to a value. -/
def putBit (v i : Nat) (b : Bool) : Nat := if b then setBit v i else clrBit v i

/-- The number of bits set among the lowest `n`. -/
def popCount (n v : Nat) : Nat := ((List.range n).filter (fun i => v.testBit i)).length

/-! ## CRC-32C (R46) -/

/-- One bit of the reflected CRC. -/
def crcBit (c : Nat) : Nat := if c % 2 = 1 then (c / 2) ^^^ 0x82F63B78 else c / 2

/-- One byte of the reflected CRC. -/
def crcByte (c : Nat) (b : Byte) : Nat :=
  crcBit (crcBit (crcBit (crcBit (crcBit (crcBit (crcBit (crcBit (c ^^^ b.toNat))))))))

/-- CRC-32C of a byte string (R46). -/
def crc32c (bs : List Byte) : Nat := (bs.foldl crcByte 0xFFFFFFFF) ^^^ 0xFFFFFFFF

/-- Continue a CRC-32C from a previous value over more bytes. -/
def crc32cFrom (crc : Nat) (bs : List Byte) : Nat := (bs.foldl crcByte (crc ^^^ 0xFFFFFFFF)) ^^^ 0xFFFFFFFF

/-! ## The register file -/

/-- The value of a field (R8): its stored value, or its reset value. -/
def Chip.get (c : Chip) (f : Fld) : Nat := tget f.rst f.key c.rf

/-- Store a field, reduced to its width. -/
def Chip.set (f : Fld) (v : Nat) (c : Chip) : Chip := { c with rf := tput f.rst f.key (v % 2 ^ f.w) c.rf }

/-- Whether a one-bit field is set. -/
def Chip.is (c : Chip) (f : Fld) : Bool := c.get f ≠ 0

/-- Add to a saturating counter (R34). -/
def Chip.addSat (f : Fld) (n : Nat) (c : Chip) : Chip := c.set f (min (2 ^ f.w - 1) (c.get f + n))

/-- Count one in a saturating counter (R34). -/
def Chip.inc (f : Fld) (c : Chip) : Chip := c.addSat f 1

/-- Apply a step under a condition. -/
def Chip.when (b : Bool) (f : Chip → Chip) (c : Chip) : Chip := if b then f c else c

/-- Apply a step for each element of a list, in order. -/
def Chip.forAll {α : Type} (l : List α) (f : α → Chip → Chip) (c : Chip) : Chip := l.foldl (fun c a => f a c) c

/-- Send something out of the device: the outputs of the running command, in order. -/
def Chip.emit (o : Out) (c : Chip) : Chip := { c with out := c.out ++ [o] }

/-- The 64-bit word that the fields of a register spell from their stored values. -/
def Chip.wordOf (c : Chip) : List Fld → Nat
  | [] => 0
  | f :: fs => (if f.acc = .wo then 0 else c.get f <<< f.lo) + c.wordOf fs

/-- The effect of a write on one field by its access code (Table 0.2); `lockOk` says whether an RWL field is open. -/
def Chip.writeFld (lockOk : Bool) (v : Nat) (f : Fld) (c : Chip) : Chip :=
  let x := bits v (f.lo + f.w - 1) f.lo
  match f.acc with
  | .rw => c.set f x
  | .rwl => if lockOk then c.set f x else c
  | .rw1c => c.set f (c.get f &&& (2 ^ f.w - 1 - x))
  | .rws => if x = 1 then c.set f 1 else c
  | .ro | .wo | .rof => c

/-- The effect of a write on every field of a register (R7, R8). -/
def Chip.writeFlds (lockOk : Bool) (v : Nat) (fs : List Fld) (c : Chip) : Chip :=
  c.forAll fs (fun f => Chip.writeFld lockOk v f)

/-- Clear a list of fields to zero, as a counter-clear write does (R34). -/
def Chip.clear (fs : List Fld) (c : Chip) : Chip := c.forAll fs (fun f => Chip.set f 0)

/-- Put the fields stored under the keys from `lo` up to `hi` (control-space offsets) back to their reset values. -/
def Chip.resetRange (lo hi : Nat) (keep : Nat → Bool) (c : Chip) : Chip :=
  { c with rf := tkeep (fun k => keep k || decide (k < lo * 1024) || decide (hi * 1024 ≤ k)) c.rf }

/-- The next free value: unconstrained, and a new one each time (log entry 2). -/
def Chip.freeVal (c : Chip) : Nat := Config.freeValue c.freeCtr

/-- Advance past the free value just read. -/
def Chip.freeNext (c : Chip) : Chip := { c with freeCtr := c.freeCtr + 1 }

/-- Whether the islands other than the always-on one run: from BOOT to SAFE, and no warm reset is held (Table 1.7, R406). -/
def Chip.awake (c : Chip) : Bool :=
  !c.aon.held && decide (2 ≤ c.get F.SYS_STATE_STATE) && decide (c.get F.SYS_STATE_STATE ≤ 9)

/-- The device as a command finds it: what the command before sent out is gone, and the transition it brought is the prior one
(log entries 3 and 43). -/
def Chip.quiet (c : Chip) : Chip := { c with out := [], prior := c.turn, turn := none }

/-- Run a meaning in the always-on island: the outputs are those of this command alone, and the queue stays as it is. -/
def runAon (f : Chip → Chip) (s : State) : Host.Outcome State Fault Refusal :=
  .next { s with chip := f s.chip.quiet }

/-- Run a meaning in another island: it has no effect while the islands do not run. -/
def runChip (f : Chip → Chip) (s : State) : Host.Outcome State Fault Refusal :=
  .next { s with chip := if s.chip.awake then f s.chip.quiet else s.chip.quiet }

end Sys2Proof.Machine
end

