-- ==== Sys2Proof/Machine/Operands.lean ====
section
/-! DEFINITION. Operand forms: status and detail values, device and lifecycle states, packet and reply headers,
payload fields (R21, R44, R45, R49, R50, R244). -/

namespace Sys2Proof.Machine

/-! ## Device states, Table 1.7 -/

def stOff : Nat := 0x0
def stPor : Nat := 0x1
def stBoot : Nat := 0x2
def stFw : Nat := 0x3
def stConfiguring : Nat := 0x4
def stUser : Nat := 0x5
def stTest : Nat := 0x6
def stRecovery : Nat := 0x7
def stConfigFailed : Nat := 0x8
def stSafe : Nat := 0x9
def stShutdown : Nat := 0xA

/-- The device state (R21, R22). -/
def Chip.dstate (c : Chip) : Nat := c.get F.SYS_STATE_STATE

/-- The condition of this command arises in the same AON cycle as the transition that the command before brought, or in a later
one, by a free value (R24; log entry 43). -/
def Chip.tie (c : Chip) : Chip :=
  if c.prior.isNone then c else Chip.freeNext (if c.freeVal % 2 = 1 then c else { c with prior := none })

/-- The transition, taken in this AON cycle, in whose place one of an earlier rank of R24 is taken. -/
def Chip.undone (c : Chip) (level : Nat) : Option Turn := c.prior.filter (fun t => decide (level < t.level))

/-- The state that a transition of a rank of R24 leaves. -/
def Chip.leftBy (c : Chip) (level : Nat) : Nat := ((c.undone level).map Turn.left).getD c.dstate

/-- Move to a device state by a transition of a rank of R24 (R23): the first state left in the AON cycle is noted. `FALLBACK` is 1
only in USER, and `STRICT_HALT` only while there is a running image, which SAFE stops but keeps (Table 1.6, R390; log entry
47). -/
def Chip.arrive (level st : Nat) (c : Chip) : Chip :=
  let t : Turn := c.turn.getD
    { level := level, left := c.leftBy level, boots := ((c.undone level).map Turn.boots).getD (c.get F.SYS_STATE_BOOT_COUNT), words := [] }
  let c := { c with turn := some { t with level := level } }
  let c := c.set F.SYS_STATE_STATE st
  let c := if st = stUser then c else c.set F.SYS_STATE_FALLBACK 0
  if st = stUser ∨ st = stSafe then c else c.set F.SYS_STATE_STRICT_HALT 0

/-- Move to a device state that is not POR, BOOT or SHUTDOWN (R23). -/
def Chip.setState (st : Nat) (c : Chip) : Chip := c.arrive (if st = stSafe then 4 else 5) st

/-- Whether channels are enabled in this state (Table 1.7). -/
def Chip.denOn (c : Chip) : Bool := c.dstate = stUser || c.dstate = stTest

/-! ## Lifecycle states, Table 8.11 -/

def lcBlank : Nat := 0
def lcFactory : Nat := 1
def lcProvisioned : Nat := 2
def lcField : Nat := 3
def lcRma : Nat := 4
def lcScrapped : Nat := 5

/-- "Live" of the command tables: FACTORY, PROVISIONED, FIELD and RMA (R71). -/
def live (lc : Nat) : Bool := decide (1 ≤ lc) && decide (lc ≤ 4)

/-- Every lifecycle state. -/
def lcAll (_lc : Nat) : Bool := true

/-- PROVISIONED and FIELD. -/
def lcProvField (lc : Nat) : Bool := lc = 2 || lc = 3

/-! ## Statuses, Table 2.6, and common details, Table 2.7 -/

def ST_OK : Nat := 0x00
def ST_ACCEPTED : Nat := 0x01
def ST_DEFERRED : Nat := 0x02
def ST_BUSY : Nat := 0x10
def ST_BUSY_TRAINING : Nat := 0x11
def ST_BAD_OPCODE : Nat := 0x20
def ST_BAD_LENGTH : Nat := 0x21
def ST_BAD_CRC : Nat := 0x22
def ST_BAD_PARAM : Nat := 0x23
def ST_BAD_STATE : Nat := 0x24
def ST_DENIED_LIFECYCLE : Nat := 0x30
def ST_AUTH_FAIL : Nat := 0x31
def ST_ID_MISMATCH : Nat := 0x32
def ST_ABORTED : Nat := 0x40
def ST_ABORT_TOO_LATE : Nat := 0x41
def ST_TARGET_RESET : Nat := 0x50
def ST_TIMEOUT : Nat := 0x51
def ST_DOMAIN_OFF : Nat := 0x52
def ST_HW_FAULT : Nat := 0x60
def ST_FROZEN : Nat := 0x61
def ST_RETIRED : Nat := 0x62

def dtNone : Nat := 0x00
def dtHdrCrc : Nat := 0x01
def dtPayloadCrc : Nat := 0x02
def dtLenMismatch : Nat := 0x03
def dtLenRange : Nat := 0x04
def dtReservedNonzero : Nat := 0x05
def dtTagInUse : Nat := 0x06
def dtTagReserved : Nat := 0x07
def dtNotUrgentOp : Nat := 0x08
def dtNoRoute : Nat := 0x09
def dtNotRoot : Nat := 0x0A
def dtFwdFull : Nat := 0x0B
def dtFwdNoReply : Nat := 0x0C
def dtNotInFlight : Nat := 0x0D
def dtLockedRange : Nat := 0x0E
def dtDecerr : Nat := 0x0F
def dtSlverr : Nat := 0x10
def dtQueueFull : Nat := 0x11
def dtNetBusy : Nat := 0x12
def dtRollback : Nat := 0x13
def dtSignature : Nat := 0x14
def dtNoSession : Nat := 0x15

/-! ## Network responses, Tables 11.5 and 11.6 -/

/-- A network response: code and detail. -/
structure Rsp where
  code   : Nat
  detail : Nat
  deriving DecidableEq, Repr

def rspOk : Rsp := ⟨0, 0⟩
def rspBusy : Rsp := ⟨1, 0x01⟩
def rspFrozen : Rsp := ⟨1, 0x02⟩
def rspCollided : Rsp := ⟨1, 0x03⟩
def rspUncorr : Rsp := ⟨1, 0x04⟩
def rspRetired : Rsp := ⟨1, 0x05⟩
def rspLocked : Rsp := ⟨1, 0x06⟩
def rspDenied : Rsp := ⟨1, 0x07⟩
def rspAlign : Rsp := ⟨1, 0x08⟩
def rspNoReg : Rsp := ⟨1, 0x09⟩
def rspUnsupported : Rsp := ⟨1, 0x0A⟩
def rspState : Rsp := ⟨1, 0x0B⟩
def rspReservedCode : Rsp := ⟨1, 0x0C⟩
def rspRange : Rsp := ⟨1, 0x0D⟩
def rspNoPath : Rsp := ⟨1, 0x0E⟩
def rspClosing : Rsp := ⟨1, 0x0F⟩
def rspDecerr : Rsp := ⟨2, 0⟩
def rspTout : Rsp := ⟨3, 0⟩
def rspReset : Rsp := ⟨4, 0⟩
def rspOff : Rsp := ⟨5, 0⟩

/-- The status with which Chanter ends a command whose network access was answered with this (Table 2.8). -/
def Rsp.status (r : Rsp) : Nat × Nat :=
  if r.code = 2 then (ST_BAD_PARAM, dtDecerr)
  else if r.code = 3 then (ST_TIMEOUT, dtNone)
  else if r.code = 4 then (ST_TARGET_RESET, dtNone)
  else if r.code = 5 then (ST_DOMAIN_OFF, dtNone)
  else if r = rspBusy then (ST_BUSY, dtNetBusy)
  else if r = rspFrozen then (ST_FROZEN, dtNone)
  else (ST_BAD_PARAM, dtSlverr)

/-- Answer a register access. -/
def Chip.answer (r : Rsp) (data : Nat) (c : Chip) : Chip := c.emit (.access r.code r.detail data)

/-- Answer a register write with what its handler returned. -/
def answerWrite (p : Rsp × Chip) : Chip := p.2.answer p.1 0

/-! ## Headers -/

/-- The bytes of a reply packet (Table 2.5). -/
def replyBytes (cls op tag status detail src qdepth : Nat) (payload : List Byte) : List Byte :=
  let h := natLe 1 cls ++ natLe 1 op ++ natLe 2 tag ++ natLe 2 payload.length ++ natLe 1 status ++ natLe 1 detail ++
    natLe 2 src ++ natLe 2 qdepth
  h ++ natLe 4 (crc32c h) ++ (if payload = [] then [] else payload ++ natLe 4 (crc32c payload))

/-- The bytes of a command packet (Table 2.4). -/
def packetBytes (cls op tag flags dest : Nat) (payload : List Byte) : List Byte :=
  let h := natLe 1 cls ++ natLe 1 op ++ natLe 2 tag ++ natLe 2 payload.length ++ natLe 1 flags ++ natLe 1 0 ++
    natLe 2 dest ++ natLe 2 0
  h ++ natLe 4 (crc32c h) ++ (if payload = [] then [] else payload ++ natLe 4 (crc32c payload))

/-- SRC of a reply: the device ID, 0xFFF if none is assigned (Table 2.5). -/
def Chip.srcId (c : Chip) : Nat := c.get F.WW_ID_DEVICE_ID

/-- The payload byte at an offset, as a number. -/
def pb (pl : List Byte) (i : Nat) : Nat := bytesAt pl i 1

/-- A little-endian payload field of `n` bytes at an offset. -/
def pf (pl : List Byte) (off n : Nat) : Nat := bytesAt pl off n

end Sys2Proof.Machine
end

