-- ==== Sys2Proof/Machine/Flags.lean ====
section
/-! DEFINITION. Events and their flags: event codes and severities, the event queue, masks, in-band interrupts,
notices and the event log's buffer (R10, R42, R43, R61 to R64, R69, R422, R423). -/

namespace Sys2Proof.Machine

/-- EV_SYS_BOOTED, severity INFO if CAUSE is 0x00, otherwise WARN; argument: [7:0] CAUSE, [11:8] PREV_STATE, [31:16] BOOT_COUNT. -/
def EV_SYS_BOOTED : Nat × Nat := (0x0001, 1)
/-- EV_SYS_CMD_DONE, severity INFO; argument: [15:0] TAG, [23:16] STATUS, [31:24] CLASS. -/
def EV_SYS_CMD_DONE : Nat × Nat := (0x0002, 0)
/-- EV_SYS_EVQ_OVERFLOW, severity WARN; argument: Entries lost since the queue last had room. -/
def EV_SYS_EVQ_OVERFLOW : Nat × Nat := (0x0003, 1)
/-- EV_SYS_FW_WATCHDOG, severity ERROR; argument: Firmware version that stopped. -/
def EV_SYS_FW_WATCHDOG : Nat × Nat := (0x0004, 2)
/-- EV_SYS_FW_UPDATED, severity WARN; argument: [7:0] copy written, [31:8] low bits of its version. -/
def EV_SYS_FW_UPDATED : Nat × Nat := (0x0005, 1)
/-- EV_SYS_FWD_LATE, severity WARN; argument: [11:0] source device ID, [31:16] TAG of the discarded reply. -/
def EV_SYS_FWD_LATE : Nat × Nat := (0x0006, 1)
/-- EV_SYS_FOREIGN_PACKET, severity WARN; argument: [11:0] device ID that sent a Chanter packet other than the root. -/
def EV_SYS_FOREIGN_PACKET : Nat × Nat := (0x0007, 1)
/-- EV_RD_CAL_ERROR, severity WARN; argument: [8] line (0 launch, 1 capture), [9] cause (0 outliers, 1 range). -/
def EV_RD_CAL_ERROR : Nat × Nat := (0x0401, 1)
/-- EV_RD_CAL_TRANSIENT, severity INFO; argument: Zero. -/
def EV_RD_CAL_TRANSIENT : Nat × Nat := (0x0402, 0)
/-- EV_RD_CH_RETIRED, severity ERROR; argument: [15:8] serving engine. -/
def EV_RD_CH_RETIRED : Nat × Nat := (0x0403, 2)
/-- EV_RD_DRIFT_STARVED, severity WARN; argument: [8] line. -/
def EV_RD_DRIFT_STARVED : Nat × Nat := (0x0404, 1)
/-- EV_RD_TIMESET_INVALID, severity ERROR; argument: [15:8] timeset. -/
def EV_RD_TIMESET_INVALID : Nat × Nat := (0x0405, 2)
/-- EV_RD_EDGE_CLAMP, severity WARN; argument: [8] 0 DRV, 1 DEN. -/
def EV_RD_EDGE_CLAMP : Nat × Nat := (0x0406, 1)
/-- EV_RD_TS_OVERFLOW, severity WARN; argument: Zero. -/
def EV_RD_TS_OVERFLOW : Nat × Nat := (0x0407, 1)
/-- EV_RD_CAL_CLAMPED, severity WARN; argument: [13:8] mask of clamped paths, in RD_UCAL field order. -/
def EV_RD_CAL_CLAMPED : Nat × Nat := (0x0408, 1)
/-- EV_RD_COMP_CONFLICT, severity ERROR; argument: Zero. -/
def EV_RD_COMP_CONFLICT : Nat × Nat := (0x0409, 2)
/-- EV_RD_CH_REPAIRED, severity WARN; argument: [8] line. -/
def EV_RD_CH_REPAIRED : Nat × Nat := (0x040A, 1)
/-- EV_PE_DONE, severity INFO; argument: A run ends in DONE, STOPPED or ABORTED. -/
def EV_PE_DONE : Nat × Nat := (0x0301, 0)
/-- EV_PE_FAULT, severity ERROR; argument: A run ends in FAULT. -/
def EV_PE_FAULT : Nat × Nat := (0x0302, 2)
/-- EV_PE_PAUSED, severity INFO; argument: PAUSED is entered. -/
def EV_PE_PAUSED : Nat × Nat := (0x0303, 0)
/-- EV_PE_HOLD_LONG, severity WARN; argument: A hold lasts 1 ms; ARG[15:8] holds HOLD_WHY in place of the fault code. -/
def EV_PE_HOLD_LONG : Nat × Nat := (0x0304, 1)
/-- EV_CAP_OVERFLOW, severity ERROR; argument: Zero. -/
def EV_CAP_OVERFLOW : Nat × Nat := (0x0501, 2)
/-- EV_CAP_FAT_FULL, severity WARN; argument: [23:4] DOM of the rejected word. -/
def EV_CAP_FAT_FULL : Nat × Nat := (0x0502, 1)
/-- EV_CAP_FAT_HIGH, severity INFO; argument: [21:4] FAT_OCC. -/
def EV_CAP_FAT_HIGH : Nat × Nat := (0x0503, 0)
/-- EV_CAP_BM_FAULT, severity ERROR; argument: [6:4] response: 1 SLVERR, 2 TOUT, 3 RESET, 4 OFF, 5 uncorrectable; [23:8] DETAIL of the response. -/
def EV_CAP_BM_FAULT : Nat × Nat := (0x0504, 2)
/-- EV_CAP_BM_RANGE, severity WARN; argument: Zero. -/
def EV_CAP_BM_RANGE : Nat × Nat := (0x0505, 1)
/-- EV_CAP_FFL_FULL, severity INFO; argument: Zero. -/
def EV_CAP_FFL_FULL : Nat × Nat := (0x0506, 0)
/-- EV_RA_DONE, severity INFO; argument: [31:0] records written. -/
def EV_RA_DONE : Nat × Nat := (0x0540, 0)
/-- EV_RA_FAULT, severity ERROR; argument: [2:0] 1 uncorrectable, 2 network response, 3 import refused; [31:8] DETAIL of the response. -/
def EV_RA_FAULT : Nat × Nat := (0x0541, 2)
/-- EV_RA_RING_FULL, severity WARN; argument: [31:0] RAE_OUT_WR. -/
def EV_RA_RING_FULL : Nat × Nat := (0x0542, 1)
/-- EV_RA_SOURCE_LOST, severity ERROR; argument: [11:0] device ID of the missing source. -/
def EV_RA_SOURCE_LOST : Nat × Nat := (0x0543, 2)
/-- EV_RA_UNASSIGNED, severity WARN; argument: [19:0] domain. -/
def EV_RA_UNASSIGNED : Nat × Nat := (0x0544, 1)
/-- EV_RA_POOL_LOW, severity WARN; argument: [31:0] blocks left; raised once per session when 90 % of the pool is used. -/
def EV_RA_POOL_LOW : Nat × Nat := (0x0545, 1)
/-- EV_FAB_STOP_REFUSED, severity WARN; argument: [10:8] stop, [12:11] source: 0 design, 1 engine, 2 Chanter. -/
def EV_FAB_STOP_REFUSED : Nat × Nat := (0x0B01, 1)
/-- EV_FAB_STOP_LOST, severity INFO; argument: [12:11] source of the discarded request. -/
def EV_FAB_STOP_LOST : Nat × Nat := (0x0B02, 0)
/-- EV_FAB_PARTY, severity INFO; argument: [11:8] lines that rose. -/
def EV_FAB_PARTY : Nat × Nat := (0x0B03, 0)
/-- EV_FAB_CAP_DONE, severity INFO; argument: [17:8] TRIG. -/
def EV_FAB_CAP_DONE : Nat × Nat := (0x0B04, 0)
/-- EV_FAB_GATE_DISCARD, severity WARN; argument: Zero. -/
def EV_FAB_GATE_DISCARD : Nat × Nat := (0x0B05, 1)
/-- EV_FAB_SERIAL, severity WARN; argument: ARG[4:0] port; [7:5] kind: 1 receive overflow, 2 frame or parity, 3 NACK; [31:8] zero. -/
def EV_FAB_SERIAL : Nat × Nat := (0x0B06, 1)
/-- EV_FAB_STOP_PURGED, severity WARN; argument: [15:8] mask of stops made EMPTY. -/
def EV_FAB_STOP_PURGED : Nat × Nat := (0x0B07, 1)
/-- EV_CFG_LOADED, severity INFO; argument: [1:0] kind; [15:2] zero; [31:16] IMAGE_VERSION[15:0]. -/
def EV_CFG_LOADED : Nat × Nat := (0x0101, 0)
/-- EV_CFG_LOAD_FAILED, severity ERROR; argument: [7:0] STATUS; [15:8] DETAIL; [27:16] segment index. -/
def EV_CFG_LOAD_FAILED : Nat × Nat := (0x0102, 2)
/-- EV_CFG_FALLBACK, severity FATAL; argument: [31:0] golden IMAGE_VERSION. -/
def EV_CFG_FALLBACK : Nat × Nat := (0x0103, 3)
/-- EV_CFG_CONFIG_FAILED, severity FATAL; argument: [7:0] STATUS; [15:8] DETAIL of the last failure. -/
def EV_CFG_CONFIG_FAILED : Nat × Nat := (0x0104, 3)
/-- EV_CFG_REWRITE_FAILED, severity ERROR; argument: [7:0] region; [15:8] DETAIL. -/
def EV_CFG_REWRITE_FAILED : Nat × Nat := (0x0105, 2)
/-- EV_CFG_TONGUE_REFUSED, severity WARN; argument: [7:0] requester; [15:8] target; [16] 0 DENIED, 1 BUSY. -/
def EV_CFG_TONGUE_REFUSED : Nat × Nat := (0x0106, 1)
/-- EV_SEC_LC_CHANGED, severity WARN; argument: [7:0] new lifecycle code. -/
def EV_SEC_LC_CHANGED : Nat × Nat := (0x0A01, 1)
/-- EV_SEC_KEY_CHANGED, severity WARN; argument: [3:0] slot; [4] 0 programmed, 1 revoked. -/
def EV_SEC_KEY_CHANGED : Nat × Nat := (0x0A02, 1)
/-- EV_SEC_AUTH_FAIL, severity WARN; argument: [7:0] DETAIL; [15:8] command OP. -/
def EV_SEC_AUTH_FAIL : Nat × Nat := (0x0A03, 1)
/-- EV_SP_CORRECTED, severity INFO; argument: [11:8] bank. -/
def EV_SP_CORRECTED : Nat × Nat := (0x0201, 0)
/-- EV_SP_UNCORRECTABLE, severity ERROR; argument: [23:8] region word index; [24] port. -/
def EV_SP_UNCORRECTABLE : Nat × Nat := (0x0202, 2)
/-- EV_SP_COLLIDED, severity WARN; argument: [23:8] region word index. -/
def EV_SP_COLLIDED : Nat × Nat := (0x0203, 1)
/-- EV_DR_FROZEN, severity ERROR; argument: [1:0] CAUSE; [9:2] bank; [16:10] granule; [31:17] row. -/
def EV_DR_FROZEN : Nat × Nat := (0x0220, 2)
/-- EV_DR_THAWED, severity INFO; argument: [0] mode; [8:1] granules zeroed; [31:9] zero. -/
def EV_DR_THAWED : Nat × Nat := (0x0221, 0)
/-- EV_DR_CORRECTED, severity INFO; argument: [7:0] bank; [22:8] row; [31:23] zero. -/
def EV_DR_CORRECTED : Nat × Nat := (0x0222, 0)
/-- EV_DR_REFRESH_HOT, severity WARN; argument: [3:0] OWED at entry; [11:4] DRAM layer temperature, °C. -/
def EV_DR_REFRESH_HOT : Nat × Nat := (0x0223, 1)
/-- EV_DR_REFRESH_NORMAL, severity INFO; argument: Zero. -/
def EV_DR_REFRESH_NORMAL : Nat × Nat := (0x0224, 0)
/-- EV_DR_TRAINED, severity INFO; argument: [1:0] FREQ; [3:2] cause: 0 boot, 1 frequency change, 2 command, 3 automatic. -/
def EV_DR_TRAINED : Nat × Nat := (0x0225, 0)
/-- EV_DR_RETRAIN_DUE, severity WARN; argument: [0] layer: 0 L1, 1 L2. -/
def EV_DR_RETRAIN_DUE : Nat × Nat := (0x0226, 1)
/-- EV_DMA_DONE, severity INFO; argument: [12] CRC set; [31:13] zero. -/
def EV_DMA_DONE : Nat × Nat := (0x0601, 0)
/-- EV_DMA_ERROR, severity ERROR; argument: [14:12] ERR_SIDE; [17:15] ERR_RESP; [25:18] ERR_DETAIL. -/
def EV_DMA_ERROR : Nat × Nat := (0x0602, 2)
/-- EV_DMA_LATE_ERROR, severity ERROR; argument: [14:12] response code; [22:15] DETAIL. -/
def EV_DMA_LATE_ERROR : Nat × Nat := (0x0603, 2)
/-- EV_DMA_PAUSED, severity INFO; argument: Zero. -/
def EV_DMA_PAUSED : Nat × Nat := (0x0604, 0)
/-- EV_WW_LINK_UP, severity INFO; argument: [2:0] port; [5:3] width. -/
def EV_WW_LINK_UP : Nat × Nat := (0x0701, 0)
/-- EV_WW_LINK_DOWN, severity WARN; argument: [2:0] port. -/
def EV_WW_LINK_DOWN : Nat × Nat := (0x0702, 1)
/-- EV_WW_LANE_SUSPECT, severity WARN; argument: [2:0] port; [4:3] lane; [5] cause: 0 replays, 1 rate. -/
def EV_WW_LANE_SUSPECT : Nat × Nat := (0x0703, 1)
/-- EV_WW_LANE_RESTORED, severity INFO; argument: [2:0] port; [4:3] lane. -/
def EV_WW_LANE_RESTORED : Nat × Nat := (0x0704, 0)
/-- EV_WW_LANE_RETIRED, severity ERROR; argument: [2:0] port; [4:3] lane; [7:5] width after. -/
def EV_WW_LANE_RETIRED : Nat × Nat := (0x0705, 2)
/-- EV_WW_PORT_RETIRED, severity ERROR; argument: [2:0] port. -/
def EV_WW_PORT_RETIRED : Nat × Nat := (0x0706, 2)
/-- EV_WW_DISC_DONE, severity INFO; argument: [11:0] devices holding an ID. -/
def EV_WW_DISC_DONE : Nat × Nat := (0x0707, 0)
/-- EV_WW_EPOCH, severity INFO; argument: [0] new epoch. -/
def EV_WW_EPOCH : Nat × Nat := (0x0708, 0)
/-- EV_WW_UNREACHABLE, severity ERROR; argument: [11:0] device ID, or topology position if none. -/
def EV_WW_UNREACHABLE : Nat × Nat := (0x0709, 2)
/-- EV_WW_TB_LOCK, severity INFO; argument: [2:0] upstream port. -/
def EV_WW_TB_LOCK : Nat × Nat := (0x070A, 0)
/-- EV_WW_TB_UNLOCK, severity WARN; argument: [0] 1 source lost, 0 error beyond ±100 ps. -/
def EV_WW_TB_UNLOCK : Nat × Nat := (0x070B, 1)
/-- EV_WW_XG_LATE, severity ERROR; argument: [11:0] sender's device ID. -/
def EV_WW_XG_LATE : Nat × Nat := (0x070C, 2)
/-- EV_WW_ROOT_CONFLICT, severity FATAL; argument: [11:0] zero; [12] 1 if this device gave up the root. -/
def EV_WW_ROOT_CONFLICT : Nat × Nat := (0x070D, 3)
/-- EV_TH_WARN, severity WARN; argument: [7:0] sensor; [19:8] reading. -/
def EV_TH_WARN : Nat × Nat := (0x0801, 1)
/-- EV_TH_THROTTLE, severity INFO; argument: [7:0] sensor of the first zone. -/
def EV_TH_THROTTLE : Nat × Nat := (0x0802, 0)
/-- EV_TH_THROTTLE_END, severity INFO; argument: Zero. -/
def EV_TH_THROTTLE_END : Nat × Nat := (0x0803, 0)
/-- EV_TH_RATE, severity WARN; argument: [7:0] sensor; [19:8] rate. -/
def EV_TH_RATE : Nat × Nat := (0x0804, 1)
/-- EV_TH_SENSOR_BROKEN, severity ERROR; argument: [7:0] sensor; [9:8] REASON. -/
def EV_TH_SENSOR_BROKEN : Nat × Nat := (0x0805, 2)
/-- EV_TH_LAYER_SUSPECT, severity ERROR; argument: [2:0] layer; [15:4] measured maximum; [27:16] estimate. -/
def EV_TH_LAYER_SUSPECT : Nat × Nat := (0x0806, 2)
/-- EV_TH_COOLANT_LOW, severity FATAL; argument: Zero. -/
def EV_TH_COOLANT_LOW : Nat × Nat := (0x0807, 3)
/-- EV_TH_COOLANT_RESTORED, severity WARN; argument: [15:0] duration of the low, µs, saturating. -/
def EV_TH_COOLANT_RESTORED : Nat × Nat := (0x0808, 1)
/-- EV_TH_COOLANT_TEMP, severity WARN; argument: [0] INLET_RANGE; [1] RISE_HIGH; [15:4] inlet; [27:16] outlet. -/
def EV_TH_COOLANT_TEMP : Nat × Nat := (0x0809, 1)
/-- EV_TH_TRIPPED, severity ERROR; argument: TH_TRIP_INFO[31:0]. -/
def EV_TH_TRIPPED : Nat × Nat := (0x080A, 2)
/-- EV_ST_SLICE_FAIL, severity WARN; argument: [2:0] kind; [26:3] element. -/
def EV_ST_SLICE_FAIL : Nat × Nat := (0x0901, 1)
/-- EV_ST_TRANSIENT, severity INFO; argument: Entry fields of the element. -/
def EV_ST_TRANSIENT : Nat × Nat := (0x0902, 0)
/-- EV_ST_REPAIRED, severity WARN; argument: Entry. -/
def EV_ST_REPAIRED : Nat × Nat := (0x0903, 1)
/-- EV_ST_RETIRED, severity ERROR; argument: Entry. -/
def EV_ST_RETIRED : Nat × Nat := (0x0904, 2)
/-- EV_ST_BORE_RETIRED, severity ERROR; argument: Entry. -/
def EV_ST_BORE_RETIRED : Nat × Nat := (0x0905, 2)
/-- EV_ST_STRICT_HALT, severity FATAL; argument: Entry. -/
def EV_ST_STRICT_HALT : Nat × Nat := (0x0906, 3)
/-- EV_ST_LOG_FULL, severity ERROR; argument: Entry not logged. -/
def EV_ST_LOG_FULL : Nat × Nat := (0x0907, 2)
/-- EV_ST_FUSE_MISMATCH, severity FATAL; argument: Entry. -/
def EV_ST_FUSE_MISMATCH : Nat × Nat := (0x0908, 3)
/-- EV_ST_SKIPPING, severity WARN; argument: [2:0] kind skipped in 100 consecutive periods. -/
def EV_ST_SKIPPING : Nat × Nat := (0x0909, 1)
/-- EV_LG_CORRECTED, severity INFO; argument: [7:0] region; [10:8] stop; [21:11] frame. -/
def EV_LG_CORRECTED : Nat × Nat := (0x0910, 0)
/-- EV_LG_RELOAD, severity WARN; argument: As EV_LG_CORRECTED; [22] stop governed. -/
def EV_LG_RELOAD : Nat × Nat := (0x0911, 1)
/-- EV_LG_RELOAD_FAILED, severity ERROR; argument: As EV_LG_RELOAD. -/
def EV_LG_RELOAD_FAILED : Nat × Nat := (0x0912, 2)
/-- EV_LG_RESTART, severity WARN; argument: [31:0] RESTARTS. -/
def EV_LG_RESTART : Nat × Nat := (0x0913, 1)
/-- EV_PWR_SEQ_VIOL, severity WARN; argument: [10:0] rails valid when the violation was seen. -/
def EV_PWR_SEQ_VIOL : Nat × Nat := (0x0820, 1)
/-- EV_PWR_RAIL_LOST, severity ERROR; argument: [3:0] rail index. -/
def EV_PWR_RAIL_LOST : Nat × Nat := (0x0821, 2)
/-- EV_PWR_AUX_LOST, severity ERROR; argument: Zero. -/
def EV_PWR_AUX_LOST : Nat × Nat := (0x0822, 2)
/-- EV_CLK_REFCLK_LOST, severity ERROR; argument: [0] 1 no edge, 0 frequency. -/
def EV_CLK_REFCLK_LOST : Nat × Nat := (0x0823, 2)
/-- EV_NVS_BANK_INVALID, severity WARN; argument: [1:0] record; [2] bank. -/
def EV_NVS_BANK_INVALID : Nat × Nat := (0x0824, 1)
/-- EV_NVS_UNCORRECTABLE, severity ERROR; argument: [19:0] word index. -/
def EV_NVS_UNCORRECTABLE : Nat × Nat := (0x0825, 2)

/-! ## The event queue -/

/-- Whether an entry is unmasked under the `EVQ_MASK` in force; FATAL events cannot be masked (R63). -/
def Chip.evOpen (c : Chip) (code sev : Nat) : Bool :=
  decide (3 ≤ sev) || !(c.get F.EVQ_MASK_MASK).testBit (4 * (code / 256) + sev)

/-- The unmasked entries, oldest first. -/
def Chip.openEvents (c : Chip) : List Ev := c.ch.events.filter (fun e => c.evOpen e.code e.sev)

/-- ALERT_N is asserted while an unmasked event is queued, except in POR, BOOT and SHUTDOWN (R63). -/
def Chip.alert (c : Chip) : Bool :=
  !c.openEvents.isEmpty && c.dstate != stPor && c.dstate != stBoot && c.dstate != stShutdown && c.dstate != stOff

/-! ## The status pins -/

/-- CFG_DONE is high exactly while the device is in USER (R239). -/
def Chip.cfgDone (c : Chip) : Bool := c.dstate = stUser

/-- CFG_ERR_N is low exactly while the device is in CONFIG_FAILED (R239). -/
def Chip.cfgErrN (c : Chip) : Bool := c.dstate ≠ stConfigFailed

/-- THERMTRIP_N is low exactly while the device is in SHUTDOWN (R372). -/
def Chip.thermtripN (c : Chip) : Bool := c.dstate ≠ stShutdown

/-- ALERT_N is low while the alert is asserted (R63). -/
def Chip.alertN (c : Chip) : Bool := !c.alert

/-- The event IBI's mandatory data byte (Table 2.3). -/
def Chip.eventIbiByte (c : Chip) : Nat :=
  match c.openEvents.find? (fun e => decide (2 ≤ e.sev)) with
  | some e => 0xC0 + e.code / 256 % 16
  | none => 0x80 + ((c.openEvents.head?.map (fun e => e.code / 256 % 16)).getD 0)

/-- A notice packet of a kind (R69). -/
def Chip.noticeBytes (c : Chip) (kind : Nat) : List Byte :=
  replyBytes 0x80 0x09 0xFFFF ST_OK kind c.srcId c.ch.slots.length
    (natLe 2 ((c.openEvents.head?.map Ev.code).getD 0) ++ natLe 2 c.openEvents.length ++
     natLe 1 (c.get F.SYS_STATE_CAUSE) ++ natLe 3 0)

/-- Send a notice to the root, or on the root to the host bridge. A boot notice needs an assigned device ID, and so does any way
to a root (R69). -/
def Chip.notice (kind : Nat) (c : Chip) : Chip :=
  if c.get F.WW_ID_DEVICE_ID = 0xFFF ∧ (kind = 1 ∨ !c.is F.WW_ID_ROOT) then c
  else if c.is F.WW_ID_ROOT then c.emit (.wwReply .bridge (c.noticeBytes kind))
  else c.emit (.wwReply .root (c.noticeBytes kind))

/-- An in-band interrupt among the outputs of a command: the event IBI comes before a reply-ready IBI that is due with it if its
`KIND` is 0b11 (R43). -/
def ibiInsert (b : Nat) : List Out → List Out
  | [] => [.ibi b]
  | o :: os => if 0xC0 ≤ b ∧ o = .ibi 0x40 then .ibi b :: o :: os else o :: ibiInsert b os

/-- Request an event IBI. -/
def Chip.emitIbi (b : Nat) (c : Chip) : Chip := { c with out := ibiInsert b c.out }

/-- Request the event IBI, and send the event notice where notices are enabled (R43, R69). -/
def Chip.requestEventIbi (c : Chip) : Chip :=
  let c := if c.is F.I3C_STAT_IBI_EN then c.emitIbi c.eventIbiByte else c
  if c.ch.notices then c.notice 2 else c

/-- Request the event IBI if the count of unmasked events has risen from zero (R43). -/
def Chip.ibiIfRisen (before : Nat) (c : Chip) : Chip :=
  if before = 0 ∧ c.openEvents ≠ [] then c.requestEventIbi else c

/-- The lost-event counter of a severity (Table 2.16). -/
def lostFld (sev : Nat) : Fld :=
  match sev with
  | 0 => F.EVQ_LOST_A_LOST_INFO
  | 1 => F.EVQ_LOST_A_LOST_WARN
  | 2 => F.EVQ_LOST_B_LOST_ERROR
  | _ => F.EVQ_LOST_B_LOST_FATAL

/-- The lowest severity in a queue. -/
def minSev : List Ev → Nat
  | [] => 3
  | e :: es => es.foldl (fun m x => min m x.sev) e.sev

/-- Remove the oldest entry of a severity. -/
def dropSev (sev : Nat) : List Ev → List Ev
  | [] => []
  | e :: es => if e.sev = sev then es else e :: dropSev sev es

/-- Queue an event; a full queue loses its oldest entry of the lowest severity, or the new event (R62). -/
def Chip.evqPut (e : Ev) (c : Chip) : Chip :=
  if c.ch.events.length < 256 then { c with ch := { c.ch with events := c.ch.events ++ [e] } }
  else
    let m := minSev c.ch.events
    if m ≤ e.sev then
      Chip.inc (lostFld m) { c with ch := { c.ch with events := dropSev m c.ch.events ++ [e], lossRun := c.ch.lossRun + 1 } }
    else
      Chip.inc (lostFld e.sev) { c with ch := { c.ch with lossRun := c.ch.lossRun + 1 } }

/-- Copy an event into the event log's buffer of 16 (R422, R423). -/
def Chip.evLogPut (e : Ev) (c : Chip) : Chip :=
  if c.get F.NVS_CTL_EVLOG_SEV ≤ e.sev ∧ c.dstate ≠ stShutdown ∧ c.dstate ≠ stPor ∧ c.dstate ≠ stOff then
    if c.nvs.logBuf.length < 16 then
      { c with nvs := { c.nvs with logBuf := c.nvs.logBuf ++ [(e, c.get F.SYS_STATE_BOOT_COUNT)] } }
    else c.inc F.NVS_CNT_EVLOG_LOST
  else c

/-- Raise an event: queue it, copy it to the log, and request an IBI if it is the first unmasked one (R43, R61, R62). -/
def Chip.raiseAt (code sev arg : Nat) (c : Chip) : Chip :=
  let e : Ev := { code := code, sev := sev, masked := !c.evOpen code sev, arg := arg % 2 ^ 32, time := c.get F.WW_TB_TIME }
  let n := c.openEvents.length
  ((c.evqPut e).evLogPut e).ibiIfRisen n

/-- Raise an event of the event tables. -/
def Chip.raise (e : Nat × Nat) (arg : Nat) (c : Chip) : Chip := c.raiseAt e.1 e.2 arg

/-- Raise an event only where a condition holds. -/
def Chip.raiseIf (b : Bool) (e : Nat × Nat) (arg : Nat) (c : Chip) : Chip := if b then c.raise e arg else c

/-- Once the queue has a free entry after a loss, raise the overflow event (R62). -/
def Chip.evqOverflow (c : Chip) : Chip :=
  if 0 < c.ch.lossRun ∧ c.ch.events.length < 256 then
    let n := c.ch.lossRun
    ({ c with ch := { c.ch with lossRun := 0 } } : Chip).raise EV_SYS_EVQ_OVERFLOW n
  else c

/-- Set a sticky flag and raise its event on the first setting since the flag was last clear. -/
def Chip.flagEvent (f : Fld) (e : Nat × Nat) (arg : Nat) (c : Chip) : Chip :=
  if c.is f then c else (c.set f 1).raise e arg

end Sys2Proof.Machine
end

