-- ==== Sys2Proof/Machine/Chanter.lean ====
section
/-! DEFINITION. Chanter's core: composing replies, the 32 command slots, the checks every packet passes, and the
shared acceptance of a command (R45 to R57, R66, R67). -/

namespace Sys2Proof.Machine

/-- What a command's own chapter gives: class and opcode, whether it may carry URGENT, its lifecycle column, whether
RECOVERY accepts it, its check of payload length and fields (check 12 of R47), and what its start does. -/
structure Cmd where
  cls    : Nat
  op     : Nat
  urgent : Bool
  life   : Nat → Bool
  /-- Accepted in RECOVERY with this payload (R71). -/
  recov  : List Byte → Bool
  /-- Check 11 of R47 beyond RECOVERY: the refusal, if the device state does not permit the command. -/
  when   : Chip → List Byte → Option (Nat × Nat)
  /-- Check 12 of R47: the refusal, if the payload is wrong. -/
  chk    : Chip → List Byte → Option (Nat × Nat)
  /-- Check 10 beyond the lifecycle column: a refusal that depends on the payload (R73). -/
  deny   : Chip → List Byte → Option (Nat × Nat)
  /-- The start of the command in the slot of this number. -/
  run    : Nat → List Byte → Chip → Chip

/-- A command without special conditions. -/
def Cmd.plain (cls op : Nat) (life : Nat → Bool) (chk : Chip → List Byte → Option (Nat × Nat))
    (run : Nat → List Byte → Chip → Chip) : Cmd :=
  { cls := cls, op := op, urgent := false, life := life, recov := fun _ => false, when := fun _ _ => none, chk := chk,
    deny := fun _ _ => none, run := run }

/-- Check 11 for a command that only some device states permit (R47). -/
def inStates (l : List Nat) (c : Chip) (_pl : List Byte) : Option (Nat × Nat) :=
  if l.contains c.dstate then none else some (ST_BAD_STATE, dtNone)

/-- A payload of exactly `n` bytes, otherwise ST_BAD_LENGTH. -/
def lenIs (n : Nat) (pl : List Byte) : Option (Nat × Nat) := if pl.length = n then none else some (ST_BAD_LENGTH, dtNone)

/-- The first refusal of two checks. -/
def orElse (a b : Option (Nat × Nat)) : Option (Nat × Nat) :=
  match a with
  | some r => some r
  | none => b

/-- ST_BAD_PARAM unless the condition holds. -/
def param (ok : Bool) : Option (Nat × Nat) := if ok then none else some (ST_BAD_PARAM, dtNone)

/-- A payload of exactly `n` bytes whose fields satisfy `ok` (R7: reserved fields zero). -/
def lenParam (n : Nat) (ok : List Byte → Bool) (_c : Chip) (pl : List Byte) : Option (Nat × Nat) :=
  orElse (lenIs n pl) (param (ok pl))

/-! ## Replies -/

/-- Put a reply on its route: I3C replies wait to be read, with a reply-ready IBI (R43, R48); others are sent. -/
def Chip.sendReply (route : Route) (slot : Option Nat) (refusal : Bool) (bytes : List Byte) (c : Chip) : Chip :=
  match route with
  | .i3c =>
    let c := { c with ch := { c.ch with replies := c.ch.replies ++
      [{ slot := slot, refusal := refusal, bytes := bytes, sent := 0 }] } }
    if c.ch.ibiReply || !c.is F.I3C_STAT_IBI_EN then c
    else Chip.emit (.ibi 0x40) { c with ch := { c.ch with ibiReply := true } }
  | r => c.emit (.wwReply r bytes)

/-- The slot of a number. -/
def Chip.slot? (c : Chip) (id : Nat) : Option Slot := c.ch.slots.find? (fun s => s.id = id)

/-- Change the slot of a number. -/
def Chip.setSlot (id : Nat) (f : Slot → Slot) (c : Chip) : Chip :=
  { c with ch := { c.ch with slots := c.ch.slots.map (fun s => if s.id = id then f s else s) } }

/-- Free the slot of a number. -/
def Chip.freeSlot (id : Nat) (c : Chip) : Chip :=
  { c with ch := { c.ch with slots := c.ch.slots.filter (fun s => s.id ≠ id) } }

/-- A slot whose command has started and not ended. -/
def Slot.running (s : Slot) : Bool := s.started && !s.ended

/-- A slot whose command is accepted and has not started (R54). -/
def Slot.waits (s : Slot) : Bool := !s.started && !s.ended

/-- The running slot, oldest first, of a class, an opcode and a condition on its payload. -/
def Chip.runningCmd (c : Chip) (cls op : Nat) (ok : List Byte → Bool) : Option Slot :=
  c.ch.slots.find? (fun s => s.running && s.cls = cls && s.op = op && ok s.payload)

/-- Compose the interim reply of a command (R49). -/
def Chip.interim (id status detail : Nat) (payload : List Byte) (c : Chip) : Chip :=
  match c.slot? id with
  | none => c
  | some s =>
    c.sendReply s.route none false
      (replyBytes (s.cls ||| 0x80) s.op s.tag status detail c.srcId (c.ch.slots.length - 1) payload)

/-- Compose the final reply of a command, without ending the aborts that wait for it (R49, R53, R56). While Chanter restarts
nothing is composed; an operation that cannot be stopped records its status (R58). -/
def Chip.finish1 (id status detail : Nat) (payload : List Byte) (c : Chip) : Chip :=
  match c.slot? id with
  | none => c
  | some s =>
    if s.ended then c
    else if c.ch.restarting then
      if s.noStop then c.setSlot id (fun s => { s with recorded := some (status, detail) }) else c
    else
      let bytes := replyBytes (s.cls ||| 0x80) s.op s.tag status detail c.srcId (c.ch.slots.length - 1) payload
      let c := c.sendReply s.route (some id) false bytes
      let c := if s.route = .i3c then c.setSlot id (fun s => { s with ended := true }) else c.freeSlot id
      c.raiseIf (s.flags.testBit 1) EV_SYS_CMD_DONE (s.tag + status * 0x10000 + s.cls * 0x1000000)

/-- Compose the final reply of a command; aborts that waited for it then end: with ST_OK if it ended with ST_ABORTED, otherwise
with ST_ABORT_TOO_LATE (R57). -/
def Chip.finish (id status detail : Nat) (payload : List Byte) (c : Chip) : Chip :=
  let waiting := ((c.slot? id).map Slot.aborts).getD []
  (c.finish1 id status detail payload).forAll waiting (fun a =>
    Chip.finish1 a (if status = ST_ABORTED then ST_OK else ST_ABORT_TOO_LATE) dtNone [])

/-- End a command with ST_OK and a payload. -/
def Chip.ok (id : Nat) (payload : List Byte) (c : Chip) : Chip := c.finish id ST_OK dtNone payload

/-- End a command with a status and detail and no payload. -/
def Chip.fail (id status detail : Nat) (c : Chip) : Chip := c.finish id status detail []

/-- End a running command, found by class, opcode and payload, with a status; no effect where there is none. -/
def Chip.endCmd (cls op : Nat) (ok : List Byte → Bool) (status detail : Nat) (payload : List Byte) (c : Chip) : Chip :=
  match c.runningCmd cls op ok with
  | some s => c.finish s.id status detail payload
  | none => c

/-- Refuse a packet with one final reply (R47, R48); ST_BUSY refusals are counted (Table 2.16). -/
def Chip.refuse (route : Route) (cls op tag status detail : Nat) (c : Chip) : Chip :=
  let c := if status = ST_BUSY then c.inc F.CH_CNT_B_BUSY_REFUSALS else c
  c.sendReply route none true
    (replyBytes (cls ||| 0x80) op tag status detail c.srcId c.ch.slots.length [])

/-- Replies in the refusal buffer (R48). -/
def Chip.refusals (c : Chip) : Nat := (c.ch.replies.filter Reply.refusal).length

/-- Whether Chanter takes packets: it runs, is not restarting, and the refusal buffer has room (R22, R48, R58). -/
def Chip.takesPackets (c : Chip) : Bool :=
  c.awake && decide (stFw ≤ c.dstate) && !c.ch.restarting && decide (c.refusals < 8)

/-- Whether the current bank of the route table holds a route to a device (R66, Table 13.3). -/
def Chip.hasRoute (c : Chip) (d : Nat) : Bool :=
  bits (c.get (F.WW_ROUTE_W (c.get F.WW_ID_EPOCH) d)) 40 40 = 1

/-- Whether DEST names this device (R66). -/
def Chip.isOwn (c : Chip) (d : Nat) : Bool :=
  d = 0xFFF || (c.get F.WW_ID_DEVICE_ID ≠ 0xFFF && d = c.get F.WW_ID_DEVICE_ID)

/-- Whether TAG is in flight from this route to this destination (check 7 of R47). -/
def Chip.tagInUse (c : Chip) (route : Route) (dest tag : Nat) : Bool :=
  if c.isOwn dest then c.ch.slots.any (fun s => s.route = route && c.isOwn s.dest && s.tag = tag)
  else c.ch.fwd.any (fun e => e.route = route && e.dest = dest && e.tag = tag)

/-- What checks 5 to 7 of R47 and Table R66 decide. -/
inductive Way | run | forward | refused (status detail : Nat)
  deriving DecidableEq, Repr

/-- Checks 5 to 7 of R47; the destination of a forwarded packet leaves them to the root (Table 2.12). -/
def Chip.wayOf (c : Chip) (route : Route) (tag dest : Nat) (fwd : Bool) : Way :=
  if route = .root then .run
  else if tag = 0xFFFF then .refused ST_BAD_PARAM dtTagReserved
  else if !c.isOwn dest && !fwd then .refused ST_BAD_PARAM dtNoRoute
  else if !c.isOwn dest && !c.is F.WW_ID_ROOT then .refused ST_BAD_PARAM dtNotRoot
  else if !c.isOwn dest && !c.hasRoute dest then .refused ST_BAD_PARAM dtNoRoute
  else if c.tagInUse route dest tag then .refused ST_BAD_PARAM dtTagInUse
  else if c.isOwn dest then .run
  else .forward

/-- Forward a packet: one of 256 forwarding entries, and the packet unchanged to its destination (R67). -/
def Chip.forwardPkt (route : Route) (cls op tag flags dest : Nat) (payload : List Byte) (c : Chip) : Chip :=
  if c.ch.fwd.length < 256 then
    Chip.emit (.wwForward dest (packetBytes cls op tag flags dest payload))
      { c with ch := { c.ch with fwd := c.ch.fwd ++
        [{ route := route, dest := dest, tag := tag, cls := cls, op := op, replied := false }] } }
  else c.refuse route cls op tag ST_BUSY dtFwdFull

/-- The lifecycle state in force. -/
def Chip.lc (c : Chip) : Nat := c.get F.SEC_STAT_LC

/-- Checks 9 to 13 of R47 for a defined command. -/
def Chip.cmdRefusal (c : Chip) (k : Cmd) (flags : Nat) (payload : List Byte) : Option (Nat × Nat) :=
  let urgent := flags.testBit 0
  if urgent && !k.urgent then some (ST_BAD_PARAM, dtNotUrgentOp)
  else if !k.life c.lc then some (ST_DENIED_LIFECYCLE, dtNone)
  else
    match k.deny c payload with
    | some r => some r
    | none =>
      if c.dstate = stRecovery && !k.recov payload then some (ST_BAD_STATE, dtNone)
      else
        match orElse (k.when c payload) (k.chk c payload) with
        | some r => some r
        | none =>
          if c.ch.slots.length < (if urgent then 32 else 30) then none else some (ST_BUSY, dtQueueFull)

/-- Take a command slot for an accepted packet, whose command starts at once or waits (R53, R54). An URGENT command takes one of
the two reserved slots while no other is free. Whether Chanter is occupied when the next packet comes is a free value. -/
def Chip.takeSlot (started : Bool) (route : Route) (cls op tag flags dest : Nat) (payload : List Byte) (c : Chip) : Chip :=
  let s : Slot :=
    { id := c.ch.nextId, route := route, tag := tag, dest := dest, cls := cls, op := op, flags := flags,
      payload := payload, started := started, ended := false,
      reserved := decide (30 ≤ (c.ch.slots.filter (fun s => !s.reserved)).length), noStop := false, recorded := none, aborts := [] }
  { c with
    ch := { c.ch with nextId := c.ch.nextId + 1, slots := c.ch.slots ++ [s], busy := decide (c.freeVal % 2 = 1) }
    freeCtr := c.freeCtr + 1 }

/-- Whether a command of a class, accepted now, starts at once: Chanter is not occupied, and no command waits that must start
before it: an URGENT one, or for a command without URGENT one of its class (R54). -/
def Chip.startsNow (c : Chip) (cls flags : Nat) : Bool :=
  !c.ch.busy && c.ch.slots.all (fun s => !s.waits || (!s.flags.testBit 0 && (flags.testBit 0 || decide (s.cls ≠ cls))))

/-- Checks 8 to 13, then acceptance of a command that is executed here, and its start if it starts at once (R47, R53, R54; log
entry 5). -/
def Chip.runCmd (k : Option Cmd) (route : Route) (cls op tag flags dest : Nat) (payload : List Byte) (c : Chip) : Chip :=
  match k with
  | none => c.refuse route cls op tag ST_BAD_OPCODE dtNone
  | some k =>
    match c.cmdRefusal k flags payload with
    | some (st, dt) => c.refuse route cls op tag st dt
    | none =>
      if c.startsNow cls flags then k.run c.ch.nextId payload (c.takeSlot true route cls op tag flags dest payload)
      else c.takeSlot false route cls op tag flags dest payload

/-- A packet whose checks 1 to 4 have passed (R47, R66). -/
def Chip.takePacket (k : Option Cmd) (route : Route) (cls op tag flags dest : Nat) (payload : List Byte) (c : Chip) : Chip :=
  match c.wayOf route tag dest (flags.testBit 2) with
  | .refused st dt => c.refuse route cls op tag st dt
  | .forward => c.forwardPkt route cls op tag flags dest payload
  | .run => c.runCmd k route cls op tag flags dest payload

/-- A packet's length in bytes (R44). -/
def packetLen (n : Nat) : Nat := if n = 0 then 16 else 20 + n

/-- A command packet arrives with good CRCs, length and reserved header bits: the meaning of every CH_ row. While
Chanter takes no packets the I3C target NACKs the write and Windway holds the packet (R48, R58). -/
def Chip.command (k : Cmd) (p : Pkt) (c : Chip) : Chip :=
  if !c.takesPackets then (if p.route = .i3c then c.emit .i3cNack else c)
  else if 4096 < p.payload.length then c.refuse p.route k.cls k.op p.tag.toNat ST_BAD_LENGTH dtLenRange
  else if p.route = .i3c ∧ c.get F.I3C_STAT_MWL < packetLen p.payload.length then
    c.refuse p.route k.cls k.op p.tag.toNat ST_BAD_LENGTH dtLenMismatch
  else c.takePacket (some k) p.route k.cls k.op p.tag.toNat p.flags.toNat p.dest.toNat p.payload

end Sys2Proof.Machine
end

