-- ==== Sys2Proof/Machine/Capture.lean ====
section
/-! DEFINITION. Compare, fail capture and fail memory (chapter 5): the entry path, the FIFOs and their dispatcher, the
fail-address table, the fail bitmap, and the capture commands. -/

namespace Sys2Proof.Machine

/-! ## Engines as capture sees them -/

/-- A pattern engine at reset. -/
def Pe.init : Pe :=
  { im := [], imLo := 0, xcy := false, ycy := false, prevState := 0, prevFault := 0, startAddr := 0, startTick := none,
    startSlot := none, npc := 0, reps := 0, pause := none, streamOn := false, stream := [], streamReq := 0, streamUse := 0,
    prefilled := false, uport := [], uf := 0, pauseReq := [], stopReq := [], cmpQ := [] }

/-- Engine `k`. -/
def Chip.eng (c : Chip) (k : Nat) : Pe := tget Pe.init k c.pe

/-- Change engine `k`. -/
def Chip.setEng (k : Nat) (f : Pe → Pe) (c : Chip) : Chip := { c with pe := tput Pe.init k (f (c.eng k)) c.pe }

def peIdle : Nat := 0
def peArmed : Nat := 1
def peRunning : Nat := 2
def pePaused : Nat := 3
def peDone : Nat := 4
def peStopped : Nat := 5
def peAborted : Nat := 6
def peFault : Nat := 7

/-- The engine's state (Table 4.7). -/
def Chip.peState (c : Chip) (k : Nat) : Nat := c.get (F.PE_STAT_STATE k)

/-- ARMED, RUNNING or PAUSED: a run is in progress (R131). -/
def Chip.peActive (c : Chip) (k : Nat) : Bool := c.peState k = peArmed || c.peState k = peRunning || c.peState k = pePaused

/-- Every engine. -/
def engines : List Nat := List.range 16

/-! ## Fail words (Table 5.1) -/

/-- The fail word of a cycle. -/
def failWord (w x y dom k cyc : Nat) : Nat :=
  w % 2 ^ 128 + (x % 2 ^ 32) * 2 ^ 128 + (y % 2 ^ 32) * 2 ^ 160 + (dom % 2 ^ 20) * 2 ^ 192 + k * 2 ^ 212 +
    (cyc % 2 ^ 38) * 2 ^ 216

def fwFails (e : Nat) : Nat := e % 2 ^ 128
def fwX (e : Nat) : Nat := bits e 159 128
def fwY (e : Nat) : Nat := bits e 191 160
def fwDom (e : Nat) : Nat := bits e 211 192

/-! ## The entry path (R140, R143, R144) -/

/-- The fail FIFO of engine `k`, oldest word first. -/
def Chip.fifo (c : Chip) (k : Nat) : List Nat := tget [] k c.cap.fifo

/-- Replace the fail FIFO of engine `k`; `CAP_REQ_FIFO` sets at 49,152 words and clears at 32,768 (R143). -/
def Chip.setFifo (k : Nat) (q : List Nat) (c : Chip) : Chip :=
  let c := { c with cap := { c.cap with fifo := tput [] k q c.cap.fifo } }
  if 49152 ≤ q.length then c.set (F.CAP_PE_STAT_CAP_REQ_FIFO k) 1
  else if q.length ≤ 32768 then c.set (F.CAP_PE_STAT_CAP_REQ_FIFO k) 0
  else c

/-- The first-fail log of engine `k`. -/
def Chip.fflOf (c : Chip) (k : Nat) : List Nat := tget [] k c.cap.ffl

/-- Mark a domain lost (R145). -/
def Chip.markLost (d : Nat) (c : Chip) : Chip := { c with cap := { c.cap with lost := setBit c.cap.lost d } }

/-- The counts of one fail word: each failing channel, and the engine's words (R140, R157). -/
def Chip.countFails (k e : Nat) (c : Chip) : Chip :=
  Chip.inc (F.CAP_FWORDS_COUNT k)
    (c.forAll (List.range 16) (fun p c =>
      c.addSat (F.CAP_CHCNT_COUNT (16 * k + p)) (((List.range 8).map (fun u => bit (fwFails e) (16 * u + p))).sum)))

/-- Log a fail word in the first-fail log while it has room (R140, R158). -/
def Chip.logFail (k e : Nat) (dropped : Bool) (c : Chip) : Chip :=
  let l := c.fflOf k
  if l.length < 4096 then
    let l' := l ++ [e + b2n dropped * 2 ^ 254]
    let c := { c with cap := { c.cap with ffl := tput [] k l' c.cap.ffl } }
    c.raiseIf (l'.length = 4096) EV_CAP_FFL_FULL k
  else c

/-- A fail word enters its engine's path: counters, first-fail log, FIFO (R140, R144). -/
def Chip.enterFail (k w : Nat) (c : Chip) : Chip :=
  let e := w + b2n (c.cap.pendOvr.testBit k) * 2 ^ 255
  let q := c.fifo k
  let full := decide (65536 ≤ q.length)
  let c := (c.countFails k e).logFail k e full
  if full then
    let c := { c.inc (F.CAP_DROPPED_COUNT k) with cap := { c.cap with pendOvr := setBit c.cap.pendOvr k } }
    ((c.markLost (fwDom e)).flagEvent (F.CAP_PE_STAT_FAIL_OVERFLOW k) EV_CAP_OVERFLOW k)
  else
    Chip.setFifo k (q ++ [e]) { c with cap := { c.cap with pendOvr := clrBit c.cap.pendOvr k } }

/-! ## The fail-address table (R146 to R150) -/

/-- The bucket of a key in a subtable (R146). -/
def fatBucket (x y dom sub : Nat) : Nat := crc32c (natLe 4 x ++ natLe 4 y ++ natLe 3 dom ++ natLe 1 sub) % 4096

/-- The entry indices of a key's bucket in a subtable. -/
def fatSlots (x y dom sub : Nat) : List Nat := (List.range 8).map (fun s => 32768 * sub + 8 * fatBucket x y dom sub + s)

/-- The FAT entry at an index; a free slot reads zero (R150, R164). -/
def Chip.fatAt (c : Chip) (j : Nat) : Nat := tget 0 j c.cap.fat

/-- Whether an entry is valid and holds a key (Table 5.3). -/
def fatHas (e x y dom : Nat) : Bool := e.testBit 212 && bits e 159 128 = x && bits e 191 160 = y && bits e 211 192 = dom

/-- Occupancy: valid entries. -/
def Chip.fatOcc (c : Chip) : Nat := c.cap.fat.length

/-- The free slots of a key's buckets, by subtable. -/
def Chip.fatFree (c : Chip) (x y dom : Nat) : List (List Nat) :=
  (List.range 4).map (fun i => (fatSlots x y dom i).filter (fun j => c.fatAt j = 0))

/-- The slot of a new key: the bucket with the fewest valid entries, the lowest subtable on a tie, its lowest free
slot (R147). -/
def fatPick (free : List (List Nat)) : Option Nat :=
  (free.foldl (fun best l => if best.length < l.length then l else best) []).head?

/-- The entry of a first hit (Table 5.3). -/
def fatNew (fails x y dom : Nat) : Nat :=
  fails + x * 2 ^ 128 + y * 2 ^ 160 + dom * 2 ^ 192 + 2 ^ 212 + 2 ^ 216

/-- An entry merged with one more word (R147). -/
def fatMerge (e fails : Nat) : Nat :=
  let hits := min 0xFFFFFFFF (bits e 247 216 + 1)
  (e % 2 ^ 216 ||| fails) + hits * 2 ^ 216

/-- The occupancy rules after an insert or a take: the high mark and its event (R149). -/
def Chip.fatMark (c : Chip) : Chip :=
  if 98304 ≤ c.fatOcc ∧ ¬ c.is F.CAP_STAT_FAT_HIGH then
    (c.set F.CAP_STAT_FAT_HIGH 1).raise EV_CAP_FAT_HIGH (c.fatOcc * 16)
  else if c.fatOcc ≤ 81920 then c.set F.CAP_STAT_FAT_HIGH 0
  else c

/-- Merge a word into the FAT or give it a new entry; `none` where its four buckets are full (R147, R148). -/
def Chip.fatInsert (c : Chip) (fails x y dom : Nat) : Option Chip :=
  let all := (List.range 4).flatMap (fatSlots x y dom)
  match all.find? (fun j => fatHas (c.fatAt j) x y dom) with
  | some j => some { c with cap := { c.cap with fat := tput 0 j (fatMerge (c.fatAt j) fails) c.cap.fat } }
  | none =>
    match fatPick (c.fatFree x y dom) with
    | some j => some ({ c with cap := { c.cap with fat := tput 0 j (fatNew fails x y dom) c.cap.fat } } : Chip).fatMark
    | none => none

/-- Reject a word of engine `k` (R148). -/
def Chip.fatReject (k e : Nat) (c : Chip) : Chip :=
  (((c.markLost (fwDom e)).inc (F.FAT_REJ_CNT_COUNT k)).set (F.CAP_PE_STAT_FAT_REJ k) 1).flagEvent F.CAP_STAT_FAT_FULL
    EV_CAP_FAT_FULL (k + fwDom e * 16)

/-! ## The fail bitmap (R152 to R156) -/

/-- log2 of the bits kept per address. -/
def bmLog (bcode : Nat) : Nat := if bcode = 0 then 0 else if bcode = 1 then 4 else 7

/-- The size of a bitmap in bytes (Table 5.9). -/
def bmSize (bxw byw bcode : Nat) : Nat := (2 ^ (bxw + byw + bmLog bcode) + 7) / 8

/-- The bitmap of engine `k`: its first byte and the byte after its last (R155). -/
def Chip.bmRange (c : Chip) (k : Nat) : Nat × Nat :=
  let b := c.get (F.BM_BASE_BASE k)
  (b, b + bmSize (c.get (F.BM_GEOM_BXW k)) (c.get (F.BM_GEOM_BYW k)) (c.get (F.BM_GEOM_BCODE k)))

/-- The bits a word sets, as absolute bit numbers of DRAM (R152). -/
def bmBits (base bxw bcode fails x y : Nat) : List Nat :=
  let idx := ((y <<< bxw) ||| x) * 2 ^ bmLog bcode
  ((List.range 128).filter (fun i => fails.testBit i)).map (fun i =>
    base * 8 + idx + (if bcode = 0 then 0 else if bcode = 1 then i % 16 else i))

/-- OR bits into a line; one whose ROW_OR is already queued must be written back again. -/
def BmLine.orBits (l : BmLine) (bs : List Nat) : BmLine :=
  { l with bits := bs.foldl (fun v n => setBit v (n - 8 * l.addr)) l.bits, dirty := true, again := decide (3 ≤ l.wb) }

/-- The write-back state that a line is put into. -/
def Chip.setWb (a wb : Nat) (c : Chip) : Chip :=
  { c with cap := { c.cap with lines := c.cap.lines.map (fun l => if l.addr = a then { l with wb := wb } else l) } }

/-- A flush in progress wants every dirty line written back (Table 5.12). -/
def Chip.flushMark (c : Chip) : Chip :=
  if c.cap.flush = [] then c
  else { c with cap := { c.cap with lines := c.cap.lines.map (fun l => if l.dirty && l.wb = 0 then { l with wb := 2 } else l) } }

/-- Whether the line that engine `k`'s waiting miss chose to evict is still there (R154). -/
def Chip.evicting (c : Chip) (k : Nat) : Bool :=
  match tfind k c.cap.evict with
  | some a => c.cap.lines.any (fun l => l.addr = a && l.wb % 2 = 1)
  | none => false

/-- What the bitmap sink does with a word: accept it, or wait for a line. -/
inductive BmStep | accepted (c : Chip) | waits (c : Chip)

/-- Offer the head word of engine `k` to the bitmap sink (R142, R152 to R156). -/
def Chip.bmOffer (c : Chip) (k e : Nat) : BmStep :=
  let x := fwX e
  let y := fwY e
  let bxw := c.get (F.BM_GEOM_BXW k)
  if !c.is (F.CAP_PE_CTL_BM_EN k) then .accepted c
  else if 2 ^ bxw ≤ x ∨ 2 ^ c.get (F.BM_GEOM_BYW k) ≤ y then
    .accepted ((c.inc (F.BM_RANGE_CNT_COUNT k)).flagEvent (F.CAP_PE_STAT_BM_RANGE k) EV_CAP_BM_RANGE k)
  else if c.is F.CAP_STAT_BM_FAULT then .accepted (c.inc (F.BM_LOST_CNT_COUNT k))
  else
    let bs := bmBits (c.get (F.BM_BASE_BASE k)) bxw (c.get (F.BM_GEOM_BCODE k)) (fwFails e) x y
    let base := (bs.headD 0) / 8192 * 1024
    match c.cap.lines.find? (fun l => l.addr = base) with
    | some l =>
      let rest := c.cap.lines.filter (fun l => l.addr ≠ base)
      .accepted { c with cap := { c.cap with lines := rest ++ [l.orBits bs] } }
    | none =>
      let fresh : BmLine := BmLine.orBits { addr := base, bits := 0, dirty := false, wb := 0, again := false } bs
      if c.cap.lines.length < 256 then .accepted { c with cap := { c.cap with lines := c.cap.lines ++ [fresh] } }
      else if c.evicting k then .waits c
      else
        match c.cap.lines.find? (fun l => l.wb = 0) with
        | none => .waits c
        | some v =>
          if v.dirty then .waits (Chip.setWb v.addr 1 { c with cap := { c.cap with evict := tset k v.addr c.cap.evict } })
          else
            .accepted { c with cap := { c.cap with lines := c.cap.lines.filter (fun l => l.addr ≠ v.addr) ++ [fresh] } }

/-! ## The dispatcher (R142) -/

/-- Offer the head word of FIFO `k` to both sinks; it leaves once each has accepted it (R142). -/
def Chip.dispatch (k : Nat) (c : Chip) : Chip :=
  match c.fifo k with
  | [] => c
  | e :: q =>
    let c :=
      if c.cap.headFat.testBit k then c
      else if !c.is (F.CAP_PE_CTL_FAT_EN k) then { c with cap := { c.cap with headFat := setBit c.cap.headFat k } }
      else
        match c.fatInsert (fwFails e) (fwX e) (fwY e) (fwDom e) with
        | some c => { c with cap := { c.cap with headFat := setBit c.cap.headFat k, fatWait := clrBit c.cap.fatWait k } }
        | none =>
          if c.get F.FAT_CTL_FAT_WAIT = 0 then
            let c := c.fatReject k e
            { c with cap := { c.cap with headFat := setBit c.cap.headFat k, fatWait := clrBit c.cap.fatWait k } }
          else { c with cap := { c.cap with fatWait := setBit c.cap.fatWait k } }
    let c :=
      if c.cap.headBm.testBit k then c
      else
        match c.bmOffer k e with
        | .accepted c => Chip.flushMark { c with cap := { c.cap with headBm := setBit c.cap.headBm k, evict := tdel k c.cap.evict } }
        | .waits c => c
    if c.cap.headFat.testBit k && c.cap.headBm.testBit k then
      Chip.setFifo k q { c with cap := { c.cap with headFat := clrBit c.cap.headFat k, headBm := clrBit c.cap.headBm k } }
    else c

/-- Offer every waiting head word again, as after a FAT entry is removed or a line is freed (R148, R154). -/
def Chip.retryHeads (c : Chip) : Chip :=
  c.forAll (engines.filter (fun k => c.cap.fatWait.testBit k || c.cap.headFat.testBit k || c.cap.headBm.testBit k))
    (fun k => Chip.dispatch k)

/-- The round-robin order from engine `r`. -/
def rotFrom (r : Nat) : List Nat := engines.map (fun i => (r + i) % 16)

/-- FAIL_DISPATCH: the next non-empty FIFO in round-robin order (R142). -/
def Chip.failDispatch (c : Chip) : Chip :=
  match (rotFrom c.cap.rr).find? (fun k => c.fifo k ≠ []) with
  | none => c
  | some k => Chip.dispatch k { c with cap := { c.cap with rr := (k + 1) % 16 } }

/-- FAT_WAIT_EXPIRY: the word that waits at the head of FIFO `k` is rejected (R148). -/
def Chip.fatExpire (k : Nat) (c : Chip) : Chip :=
  if c.cap.fatWait.testBit k then
    match c.fifo k with
    | [] => c
    | e :: _ =>
      let c := c.fatReject k e
      Chip.dispatch k { c with cap := { c.cap with headFat := setBit c.cap.headFat k, fatWait := clrBit c.cap.fatWait k } }
  else c

/-- Remove the entry at an index from the FAT: a take (R150); waiting words probe again (R148). -/
def Chip.fatTake (j : Nat) (c : Chip) : Chip :=
  (({ c with cap := { c.cap with fat := tdel j c.cap.fat } } : Chip).fatMark).retryHeads

/-! ## Write-backs, flush and zeroing (R154 to R156, R164) -/

/-- The response field of `EV_CAP_BM_FAULT`. -/
def bmRspCode (r : Rsp) (uncorr : Bool) : Nat :=
  if uncorr then 5 else if r.code = 1 then 1 else if r.code = 3 then 2 else if r.code = 4 then 3 else if r.code = 5 then 4 else 1

/-- DETAIL values of chapter 5, Table 5.11. -/
def dtEngineActive : Nat := 0x40
def dtRaeActive : Nat := 0x41
def dtBmRange : Nat := 0x42
def dtBmFault : Nat := 0x43

/-- The bitmap sink enters BM_FAULT: every line keeps its contents, and flushes in progress end (R156). -/
def Chip.bmFail (r : Rsp) (uncorr : Bool) (c : Chip) : Chip :=
  let st := if uncorr then ST_HW_FAULT else r.status.1
  let c := (c.set F.CAP_STAT_BM_FAULT 1).raise EV_CAP_BM_FAULT (bmRspCode r uncorr * 16 + r.detail * 256)
  let fl := c.cap.flush
  let c := { c with cap := { c.cap with flush := [], evict := [], lines := c.cap.lines.map (fun (l : BmLine) => { l with wb := 0, again := false }) } }
  let c := c.forAll fl (fun id => Chip.fail id st dtBmFault)
  c.retryHeads

/-- A flush with no dirty line left ends; a flush that succeeded ends BM_FAULT (R156). -/
def Chip.flushDone (c : Chip) : Chip :=
  if c.cap.flush ≠ [] ∧ !c.cap.lines.any (fun l => l.dirty) then
    let fl := c.cap.flush
    let c := { c with cap := { c.cap with flush := [] } }
    (c.set F.CAP_STAT_BM_FAULT 0).forAll fl (fun id => Chip.ok id [])
  else c

/-- The ROW_OR of the line at an address has been performed: an evicted line is free, a flushed one clean, unless it was hit
meanwhile (R154, R274). -/
def Chip.bmPerformed (a : Nat) (c : Chip) : Chip :=
  match c.cap.lines.find? (fun l => l.addr = a && decide (3 ≤ l.wb)) with
  | none => c
  | some l =>
    let lines :=
      if l.again then c.cap.lines.map (fun x => if x.addr = a then { x with wb := 0, again := false } else x)
      else if l.wb = 3 then c.cap.lines.filter (fun x => x.addr ≠ a)
      else c.cap.lines.map (fun x => if x.addr = a then { x with dirty := false, wb := 0 } else x)
    ((({ c with cap := { c.cap with lines := lines } } : Chip).flushMark).flushDone).retryHeads

/-! ## Drained (R159) and status words -/

/-- `CAP_PE_STAT.DRAINED` of engine `k`. -/
def Chip.drained (c : Chip) (k : Nat) : Bool := !c.peActive k && (c.eng k).cmpQ.isEmpty && (c.fifo k).isEmpty

/-- `CAP_STAT` (Table 5.5). -/
def Chip.capStat (c : Chip) : Nat :=
  c.fatOcc + c.get F.CAP_STAT_FAT_HIGH * 2 ^ 18 + c.get F.CAP_STAT_FAT_FULL * 2 ^ 19 + c.cap.lines.length * 2 ^ 20 +
    (c.cap.lines.filter BmLine.dirty).length * 2 ^ 29 + c.get F.CAP_STAT_BM_FAULT * 2 ^ 38 +
    b2n (c.cap.flush ≠ [] || c.cap.zero ≠ []) * 2 ^ 39

/-- `CAP_REQ_FAT` of engine `k` (R143, R149). -/
def Chip.capReqFat (c : Chip) (k : Nat) : Bool := c.is F.CAP_STAT_FAT_HIGH && c.is (F.CAP_PE_CTL_FAT_EN k)

/-- The capture hold request of engine `k` (R143). -/
def Chip.capReq (c : Chip) (k : Nat) : Bool := c.is (F.CAP_PE_STAT_CAP_REQ_FIFO k) || c.capReqFat k

/-- `CAP_PE_STAT` of engine `k` (Table 5.8). -/
def Chip.capPeStat (c : Chip) (k : Nat) : Nat :=
  (c.fifo k).length + c.get (F.CAP_PE_STAT_CAP_REQ_FIFO k) * 2 ^ 17 + b2n (c.capReqFat k) * 2 ^ 18 +
    c.get (F.CAP_PE_STAT_FAIL_OVERFLOW k) * 2 ^ 19 + c.get (F.CAP_PE_STAT_FAT_REJ k) * 2 ^ 20 +
    c.get (F.CAP_PE_STAT_BM_RANGE k) * 2 ^ 21 + b2n (c.drained k) * 2 ^ 22 + (c.fflOf k).length * 2 ^ 23

/-- The stored word of the register at a control-space offset. -/
def Chip.regWord (c : Chip) (off : Nat) : Nat :=
  match regAt off with
  | some (_, fs) => c.wordOf fs
  | none => 0

/-! ## Register accesses -/

/-- A read at `FAT_PORT_DATA` 0x0020: snapshot the entry and return its low half (Table 5.4). -/
def Chip.fatPortLo (c : Chip) : Nat × Chip :=
  let e := c.fatAt (c.get F.FAT_PORT_ADDR_INDEX)
  (e % 2 ^ 128, { c with cap := { c.cap with snap := e } })

/-- A read at `FAT_PORT_DATA` 0x0030: the rest of the snapshot; with AUTOINC the index advances (Table 5.4). -/
def Chip.fatPortHi (c : Chip) : Nat × Chip :=
  (c.cap.snap >>> 128,
    if c.is F.FAT_PORT_ADDR_AUTOINC then c.set F.FAT_PORT_ADDR_INDEX ((c.get F.FAT_PORT_ADDR_INDEX + 1) % 131072) else c)

/-- The counters of engine `k` that `CAP_PE_CNT_CLR` clears, in offset order (Table 5.10). -/
def capCounters (k : Nat) : List Fld :=
  [F.CAP_FWORDS_COUNT k, F.CAP_DROPPED_COUNT k, F.BM_RANGE_CNT_COUNT k, F.BM_LOST_CNT_COUNT k, F.FAT_REJ_CNT_COUNT k]

/-- Clear the counters whose bit is set in a clear write. -/
def Chip.clearBits (fs : List Fld) (v : Nat) (c : Chip) : Chip :=
  c.forAll (fs.zip (List.range fs.length)) (fun p c => if v.testBit p.2 then c.set p.1 0 else c)

/-- A write of `CAP_PE_CNT_CLR` of engine `k`. -/
def Chip.capCntClr (k v : Nat) (c : Chip) : Chip :=
  let c := c.clearBits (capCounters k) v
  if v.testBit 5 then c.clear ((List.range 16).map (fun p => F.CAP_CHCNT_COUNT (16 * k + p))) else c

/-- Whether a bitmap geometry is refused (Table 5.9). -/
def bmGeomBad (base bxw byw bcode : Nat) : Bool :=
  bcode = 3 || decide (36 < bxw + byw + bmLog bcode) || decide (0x200000000 < base + bmSize bxw byw bcode)

/-- A 128-bit write of `BM_BASE` and `BM_GEOM` of engine `k` (R160, Table 5.9). -/
def Chip.writeBm (k base geom : Nat) (c : Chip) : Rsp × Chip :=
  let b := bits base 47 10 * 1024
  if !c.drained k then (rspState, c)
  else if bmGeomBad b (bits geom 4 0) (bits geom 9 5) (bits geom 11 10) then
    (if bits geom 11 10 = 3 then rspReservedCode else rspRange, c)
  else
    (rspOk, (((c.set (F.BM_BASE_BASE k) b).set (F.BM_GEOM_BXW k) (bits geom 4 0)).set (F.BM_GEOM_BYW k)
      (bits geom 9 5)).set (F.BM_GEOM_BCODE k) (bits geom 11 10))

/-- A 64-bit word of the first-fail log window (Table 5.4). -/
def Chip.fflWindow (c : Chip) (off : Nat) : Nat :=
  let w := ((c.fflOf (c.get F.FFL_SEL_PE))[off / 32]?).getD 0
  bits w (64 * (off % 32 / 8) + 63) (64 * (off % 32 / 8))

/-! ## Commands (R162 to R164) -/

/-- An engine number in byte 0 of a 4-byte payload whose other bits are zero; out of range is ST_BAD_PARAM. -/
def engChk (_c : Chip) (pl : List Byte) : Option (Nat × Nat) := orElse (lenIs 4 pl) (param (decide (pf pl 0 4 < 16)))

def cmdCapStatus : Cmd := Cmd.plain 0x05 0x00 live engChk (fun id pl c =>
  let k := pf pl 0 4
  c.ok id (natLe 8 c.capStat ++ natLe 8 (c.regWord (F.CAP_PE_CTL_EN k).off) ++ natLe 8 (c.capPeStat k) ++
    natLe 8 (c.get (F.CAP_FWORDS_COUNT k)) ++ natLe 8 (c.get (F.CAP_DROPPED_COUNT k)) ++
    natLe 8 (c.get (F.FAT_REJ_CNT_COUNT k)) ++ natLe 8 (c.get (F.BM_LOST_CNT_COUNT k))))

def cmdCapConfig : Cmd := Cmd.plain 0x05 0x01 live
  (lenParam 24 (fun pl => decide (pb pl 0 < 16) && pf pl 1 3 = 0 && bits (pf pl 4 4) 15 4 = 0 &&
    bits (pf pl 8 8) 63 48 = 0 && bits (pf pl 16 8) 63 12 = 0))
  (fun id pl c =>
    let k := pb pl 0
    if !c.drained k then c.fail id ST_BAD_STATE dtEngineActive
    else
      let g := pf pl 16 8
      if bmGeomBad (bits (pf pl 8 8) 47 10 * 1024) (bits g 4 0) (bits g 9 5) (bits g 11 10) then
        c.fail id ST_BAD_PARAM dtBmRange
      else
        let c := (c.writeBm k (pf pl 8 8) g).2
        let v := pf pl 4 4
        let c := ((((c.set (F.CAP_PE_CTL_EN k) (bit v 0)).set (F.CAP_PE_CTL_FAT_EN k) (bit v 1)).set
          (F.CAP_PE_CTL_BM_EN k) (bit v 2)).set (F.CAP_PE_CTL_FFL_KEEP k) (bit v 3)).set (F.CAP_PE_CTL_CMASK_CH k) (bits v 31 16)
        c.ok id [])

/-- Whether the repair-analysis engine is consuming the FAT (R163, R172): `RAE_STAT.STATE` 1 or 2. -/
def Chip.raeActive (c : Chip) : Bool := decide (1 ≤ c.get F.RAE_STAT_STATE) && decide (c.get F.RAE_STAT_STATE ≤ 2)

/-- The counters, and the flags, of one engine cleared by `CH_CAP_CLEAR` bit 0. -/
def Chip.capClearEng (k : Nat) (c : Chip) : Chip :=
  (c.capCntClr k 0x3F).clear [F.CAP_PE_STAT_FAIL_OVERFLOW k, F.CAP_PE_STAT_FAT_REJ k, F.CAP_PE_STAT_BM_RANGE k]

def cmdCapClear : Cmd := Cmd.plain 0x05 0x02 live
  (lenParam 8 (fun pl => decide (pb pl 2 < 16) && pf pl 3 5 = 0))
  (fun id pl c =>
    let what := pb pl 2
    let ks := engines.filter (fun k => (pf pl 0 2).testBit k)
    if (what.testBit 2 || what.testBit 3) && c.raeActive then c.fail id ST_BAD_STATE dtRaeActive
    else if (what.testBit 2 || what.testBit 3) && engines.any (fun k => c.is (F.CAP_PE_CTL_FAT_EN k) && !c.drained k) then
      c.fail id ST_BAD_STATE dtEngineActive
    else
      let c := if what.testBit 0 then c.forAll ks (fun k => Chip.capClearEng k) else c
      let c := if what.testBit 1 then c.forAll ks (fun k c => { c with cap := { c.cap with ffl := tdel k c.cap.ffl } }) else c
      let c := if what.testBit 2 then ({ c with cap := { c.cap with fat := [] } } : Chip).fatMark else c
      let c := if what.testBit 3 then { c with cap := { c.cap with lost := 0 } } else c
      c.ok id [])

def cmdCapBmFlush : Cmd := Cmd.plain 0x05 0x03 live (fun _ pl => lenIs 0 pl)
  (fun id _ c =>
    let c := c.interim id ST_ACCEPTED dtNone []
    (({ c with cap := { c.cap with flush := c.cap.flush ++ [id] } } : Chip).flushMark).flushDone)

/-- Whether two byte ranges overlap. -/
def overlaps (a b : Nat × Nat) : Bool := decide (a.1 < b.2) && decide (b.1 < a.2)

def cmdCapBmZero : Cmd := Cmd.plain 0x05 0x04 live engChk (fun id pl c =>
  let k := pf pl 0 4
  let r := c.bmRange k
  if c.is F.CAP_STAT_BM_FAULT then c.fail id ST_BAD_STATE dtBmFault
  else if !c.drained k || engines.any (fun j => c.is (F.CAP_PE_CTL_BM_EN j) && overlaps r (c.bmRange j) && !c.drained j) then
    c.fail id ST_BAD_STATE dtEngineActive
  else
    let c := c.interim id ST_ACCEPTED dtNone []
    let lines := c.cap.lines.filter (fun l => !overlaps r (l.addr, l.addr + 1024))
    (({ c with cap := { c.cap with lines := lines, zero := c.cap.zero ++ [{ slot := id, next := r.1, stop := r.2 }] } } :
      Chip).flushDone).retryHeads)

def cmdCapFflRead : Cmd := Cmd.plain 0x05 0x05 live
  (lenParam 8 (fun pl => decide (pb pl 0 < 16) && pb pl 1 = 0 && decide (pf pl 2 2 < 4096) &&
    decide (1 ≤ pf pl 4 2) && decide (pf pl 4 2 ≤ 127) && pf pl 6 2 = 0))
  (fun id pl c => c.ok id ((((c.fflOf (pb pl 0)).drop (pf pl 2 2)).take (pf pl 4 2)).flatMap (natLe 32)))

/-- Scan the FAT from an index for up to `n` valid entries, for at most `fuel` slots (R164): the next index and the
entries. -/
def Chip.fatScan (c : Chip) : Nat → Nat → Nat → Nat × List Nat
  | 0, i, _ => (i, [])
  | _, i, 0 => (i, [])
  | fuel + 1, i, n + 1 =>
    let e := c.fatAt i
    let i' := (i + 1) % 131072
    if e = 0 then c.fatScan fuel i' (n + 1)
    else
      let r := c.fatScan fuel i' n
      (r.1, e :: r.2)

def cmdCapFatRead : Cmd := Cmd.plain 0x05 0x06 live
  (lenParam 8 (fun pl => decide (pf pl 0 4 < 131072) && decide (1 ≤ pf pl 4 2) && decide (pf pl 4 2 ≤ 127) &&
    decide (pb pl 6 < 2) && pb pl 7 = 0))
  (fun id pl c =>
    let i := pf pl 0 4
    let n := pf pl 4 2
    let r := if pb pl 6 = 1 then c.fatScan 131072 i n
      else ((i + n) % 131072, (List.range n).map (fun j => c.fatAt ((i + j) % 131072)))
    c.ok id (natLe 4 r.1 ++ r.2.flatMap (natLe 32)))

def cmdCapLostRead : Cmd := Cmd.plain 0x05 0x07 live
  (lenParam 8 (fun pl => pf pl 0 4 % 8 = 0 && decide (1 ≤ pf pl 4 2) && decide (pf pl 4 2 ≤ 4096) && pf pl 6 2 = 0 &&
    decide (pf pl 0 4 + 8 * pf pl 4 2 ≤ 1048576)))
  (fun id pl c => c.ok id (natLe (pf pl 4 2) (c.cap.lost >>> pf pl 0 4)))

/-! ## Meanings -/

def execFailDispatch (s : State) := runChip Chip.failDispatch s
def execFatWaitExpiry (pe : Fin 16) (s : State) := runChip (Chip.fatExpire pe) s
def execFatPortReadLo (s : State) := runChip (fun c => (c.fatPortLo.2).answer rspOk c.fatPortLo.1) s
def execFatPortReadHi (s : State) := runChip (fun c => (c.fatPortHi.2).answer rspOk c.fatPortHi.1) s
def execCapPeCntClr (pe : Fin 16) (data : Word) (s : State) :=
  runChip (fun c => (c.capCntClr pe data.toNat).answer rspOk 0) s
def execChCapStatus (p : Pkt) (s : State) := runAon (Chip.command cmdCapStatus p) s
def execChCapConfig (p : Pkt) (s : State) := runAon (Chip.command cmdCapConfig p) s
def execChCapClear (p : Pkt) (s : State) := runAon (Chip.command cmdCapClear p) s
def execChCapBmFlush (p : Pkt) (s : State) := runAon (Chip.command cmdCapBmFlush p) s
def execChCapBmZero (p : Pkt) (s : State) := runAon (Chip.command cmdCapBmZero p) s
def execChCapFflRead (p : Pkt) (s : State) := runAon (Chip.command cmdCapFflRead p) s
def execChCapFatRead (p : Pkt) (s : State) := runAon (Chip.command cmdCapFatRead p) s
def execChCapLostRead (p : Pkt) (s : State) := runAon (Chip.command cmdCapLostRead p) s

end Sys2Proof.Machine
end

