-- ==== Sys2Proof/Machine/Crypto.lean ====
section
/-! DEFINITION. The algorithms that R231 names and other standards define: SHAKE256 (FIPS 202), AES-256 with the key wrap of
RFC 3394 and Galois/counter mode, and the verification of SLH-DSA-SHAKE-256s (FIPS 205). They are taken from those standards as
generally known (PRESUMED, log entry 50). -/

namespace Sys2Proof.Machine

/-! ## Bytes -/

/-- A number as `n` bytes, the highest first, and back. -/
def natBe (n v : Nat) : List Byte := (natLe n v).reverse
def beNat (bs : List Byte) : Nat := leNat bs.reverse

/-- A list cut into pieces of `k`, at most `n` of them. -/
def cut {α : Type} (k : Nat) : Nat → List α → List (List α)
  | 0, _ => []
  | n + 1, l => l.take k :: cut k n (l.drop k)

/-! ## SHAKE256 -/

/-- A 64-bit lane rotated left. -/
def rotl64 (v n : Nat) : Nat := ((v <<< n) ||| (v >>> (64 - n))) % 2 ^ 64

/-- The rotation of each lane, at 5y + x. -/
def keccakRot : List Nat :=
  [0, 1, 62, 28, 27, 36, 44, 6, 55, 20, 3, 10, 43] ++ [25, 39, 41, 45, 15, 21, 8, 18, 2, 61, 56, 14]

/-- The round constants. -/
def keccakRc : List Nat :=
  [0x1, 0x8082, 0x800000000000808A, 0x8000000080008000, 0x808B, 0x80000001, 0x8000000080008081, 0x8000000000008009] ++
  [0x8A, 0x88, 0x80008009, 0x8000000A, 0x8000808B, 0x800000000000008B, 0x8000000000008089, 0x8000000000008003] ++
  [0x8000000000008002, 0x8000000000000080, 0x800A, 0x800000008000000A, 0x8000000080008081, 0x8000000000008080] ++
  [0x80000001, 0x8000000080008008]

/-- One round of the permutation on 25 lanes. -/
def keccakRound (a : List Nat) (rc : Nat) : List Nat :=
  let cs := (List.range 5).map (fun x => (List.range 5).foldl (fun v y => v ^^^ a.getD (5 * y + x) 0) 0)
  let ds := (List.range 5).map (fun x => cs.getD ((x + 4) % 5) 0 ^^^ rotl64 (cs.getD ((x + 1) % 5) 0) 1)
  let b := (List.range 25).map (fun i =>
    let y := i / 5
    let x := i % 5
    let px := (x + 3 * y) % 5
    let j := 5 * x + px
    rotl64 (a.getD j 0 ^^^ ds.getD px 0) (keccakRot.getD j 0))
  (List.range 25).map (fun i =>
    let y := i / 5
    let x := i % 5
    let v := b.getD i 0 ^^^ ((2 ^ 64 - 1 - b.getD (5 * y + (x + 1) % 5) 0) &&& b.getD (5 * y + (x + 2) % 5) 0)
    if i = 0 then v ^^^ rc else v)

/-- The permutation Keccak-f[1600]. -/
def keccakF (a : List Nat) : List Nat := keccakRc.foldl keccakRound a

/-- Absorb blocks of 136 bytes. -/
def keccakAbsorb (blocks : List (List Byte)) (a : List Nat) : List Nat :=
  blocks.foldl (fun a b => keccakF (((List.range 25).zip a).map (fun p => p.2 ^^^ leNat ((b.drop (8 * p.1)).take 8)))) a

/-- SHAKE256 with `n` bytes of output, at most 136. -/
def shakeOut (n : Nat) (m : List Byte) : List Byte :=
  let k := m.length / 136 + 1
  let z := 136 * k - m.length
  let pad : List Byte := if z = 1 then [0x9F] else 0x1F :: (List.replicate (z - 2) 0 ++ [0x80])
  ((keccakAbsorb (cut 136 k (m ++ pad)) (List.replicate 25 0)).flatMap (natLe 8)).take n

/-- SHAKE256 with the 64 bytes of output that R231 uses throughout. -/
def shake256 (m : List Byte) : List Byte := shakeOut 64 m

/-! ## AES-256 -/

/-- Multiplication in GF(2^8) modulo x^8 + x^4 + x^3 + x + 1. -/
def gfMul (a b : Nat) : Nat :=
  ((List.range 8).foldl (fun (p : Nat × Nat) i =>
    (if b.testBit i then p.1 ^^^ p.2 else p.1, (p.2 * 2) ^^^ (if p.2.testBit 7 then 0x11B else 0))) (0, a)).1

/-- The inverse in GF(2^8), with 0 for 0: the 254th power. -/
def gfInv (a : Nat) : Nat :=
  let a2 := gfMul a a
  let a4 := gfMul a2 a2
  let a8 := gfMul a4 a4
  let a16 := gfMul a8 a8
  let a32 := gfMul a16 a16
  let a64 := gfMul a32 a32
  let a128 := gfMul a64 a64
  gfMul (gfMul (gfMul a2 a4) (gfMul a8 a16)) (gfMul (gfMul a32 a64) a128)

/-- A byte rotated left. -/
def rotl8 (v n : Nat) : Nat := ((v <<< n) ||| (v >>> (8 - n))) % 256

/-- The S-box and its inverse. -/
def sbox (v : Nat) : Nat :=
  let b := gfInv v
  b ^^^ rotl8 b 1 ^^^ rotl8 b 2 ^^^ rotl8 b 3 ^^^ rotl8 b 4 ^^^ 0x63
def sboxInv (v : Nat) : Nat := gfInv (rotl8 v 1 ^^^ rotl8 v 3 ^^^ rotl8 v 6 ^^^ 0x05)

/-- Bytes of two blocks added. -/
def xorBytes (a b : List Nat) : List Nat := List.zipWith (· ^^^ ·) a b

/-- One word more of the key schedule: `ws` holds the words so far, the newest first. -/
def aesExpand (ws : List (List Nat)) (i : Nat) : List (List Nat) :=
  let t := ws.getD 0 []
  let t :=
    if i % 8 = 0 then xorBytes ((t.drop 1 ++ t.take 1).map sbox) [(List.range (i / 8 - 1)).foldl (fun v _ => gfMul v 2) 1, 0, 0, 0]
    else if i % 8 = 4 then t.map sbox
    else t
  xorBytes (ws.getD 7 []) t :: ws

/-- The 15 round keys of a 32-byte key, 16 bytes each. -/
def aesKeys (key : List Byte) : List (List Nat) :=
  let k0 := cut 4 8 (key.map BitVec.toNat)
  cut 16 15 ((((List.range 52).map (· + 8)).foldl aesExpand k0.reverse).reverse.flatten)

/-- Byte i of the state after SubBytes and ShiftRows comes from this byte; and of the inverse. -/
def shiftRow (i : Nat) : Nat := (i + 4 * (i % 4)) % 16
def shiftRowInv (i : Nat) : Nat := (i + 12 * (i % 4)) % 16

/-- MixColumns with the coefficients of one row. -/
def mixColumns (m : List Nat) (s : List Nat) : List Nat :=
  (List.range 16).map (fun i =>
    (List.range 4).foldl (fun v j => v ^^^ gfMul (s.getD (i / 4 * 4 + j) 0) (m.getD ((j + 4 - i % 4) % 4) 0)) 0)

/-- The AES-256 cipher of one block under round keys. -/
def aesEnc (ks : List (List Nat)) (b : List Nat) : List Nat :=
  let s := (List.range 13).foldl (fun s r =>
    xorBytes (mixColumns [2, 3, 1, 1] ((List.range 16).map (fun i => sbox (s.getD (shiftRow i) 0)))) (ks.getD (r + 1) []))
    (xorBytes b (ks.getD 0 []))
  xorBytes ((List.range 16).map (fun i => sbox (s.getD (shiftRow i) 0))) (ks.getD 14 [])

/-- The inverse cipher. -/
def aesDec (ks : List (List Nat)) (b : List Nat) : List Nat :=
  let sub := fun (s : List Nat) => (List.range 16).map (fun i => sboxInv (s.getD (shiftRowInv i) 0))
  let s := (List.range 13).foldl (fun s r => mixColumns [14, 11, 13, 9] (xorBytes (sub s) (ks.getD (13 - r) [])))
    (xorBytes b (ks.getD 14 []))
  xorBytes (sub s) (ks.getD 0 [])

/-- A block as a number, the first byte highest, and back. -/
def blockNat (b : List Nat) : Nat := b.foldl (fun v x => v * 256 + x) 0
def natBlock (v : Nat) : List Nat := (natBe 16 v).map BitVec.toNat

/-- Unwrap a 32-byte key from 40 bytes under a 32-byte key (RFC 3394); none where the integrity check fails. -/
def kwUnwrap (key w : List Byte) : Option (List Byte) :=
  let ks := aesKeys key
  let rs := (List.range 4).map (fun i => beNat ((w.drop (8 * (i + 1))).take 8))
  let step := fun (p : Nat × List Nat) (t : Nat) =>
    let i := (t - 1) % 4
    let b := blockNat (aesDec ks (natBlock (((p.1 ^^^ t) % 2 ^ 64) * 2 ^ 64 + p.2.getD i 0)))
    (b / 2 ^ 64, p.2.set i (b % 2 ^ 64))
  let p := ((List.range 24).map (fun i => 24 - i)).foldl step (beNat (w.take 8), rs)
  if p.1 = 0xA6A6A6A6A6A6A6A6 then some (p.2.flatMap (natBe 8)) else none

/-- Multiplication in GF(2^128) as Galois/counter mode numbers its bits. -/
def ghashMul (x y : Nat) : Nat :=
  ((List.range 128).foldl (fun (p : Nat × Nat) i =>
    (if x.testBit (127 - i) then p.1 ^^^ p.2 else p.1,
      (p.2 / 2) ^^^ (if p.2.testBit 0 then 0xE1000000000000000000000000000000 else 0))) (0, y)).1

/-- The blocks of a string as numbers, the last filled up with zeros. -/
def gcmBlocks (bs : List Byte) : List Nat :=
  (cut 16 ((bs.length + 15) / 16) bs).map (fun b => beNat (b ++ List.replicate (16 - b.length) 0))

/-- Decrypt and verify: key, 12-byte nonce, additional data, body, 16-byte tag; none where the tag differs. -/
def gcmDecrypt (key iv aad body tag : List Byte) : Option (List Byte) :=
  let ks := aesKeys key
  let e := fun (v : Nat) => blockNat (aesEnc ks (natBlock v))
  let h := e 0
  let j0 := beNat iv * 2 ^ 32 + 1
  let s := (gcmBlocks aad ++ gcmBlocks body ++ [8 * aad.length * 2 ^ 64 + 8 * body.length]).foldl (fun v b => ghashMul (v ^^^ b) h) 0
  if natBe 16 (s ^^^ e j0) = tag then
    let bs := gcmBlocks body
    some ((((List.range bs.length).zip bs).flatMap (fun p =>
      natBe 16 (p.2 ^^^ e (j0 / 2 ^ 32 * 2 ^ 32 + (j0 + 1 + p.1) % 2 ^ 32)))).take body.length)
  else none

/-! ## SLH-DSA-SHAKE-256s: n 32, h 64, d 8, h' 8, a 14, k 22, w 16, 67 chains -/

/-- An address: layer, tree, type and its three words. -/
def slhAdrs (layer tree ty w1 w2 w3 : Nat) : List Byte :=
  natBe 4 layer ++ natBe 12 tree ++ natBe 4 ty ++ natBe 4 w1 ++ natBe 4 w2 ++ natBe 4 w3

/-- The functions F, H and T: a tweaked hash of 32 bytes. -/
def slhHash (seed adrs m : List Byte) : List Byte := shakeOut 32 (seed ++ adrs ++ m)

/-- The first `n` digits of `b` bits of a string. -/
def base2b (b n : Nat) (m : List Byte) : List Nat :=
  (List.range n).map (fun i => (beNat m >>> (8 * m.length - b * (i + 1))) % 2 ^ b)

/-- Climb from a node to the root over its authentication path: at height j + 1 the address names the node's index there. -/
def slhClimb (seed : List Byte) (adrs : Nat → Nat → List Byte) (idx base : Nat) (node : List Byte) (auth : List (List Byte)) :
    List Byte :=
  (((List.range auth.length).zip auth).foldl (fun (v : List Byte) p =>
    let i := (base + idx) / 2 ^ (p.1 + 1)
    slhHash seed (adrs (p.1 + 1) i) (if (idx / 2 ^ p.1) % 2 = 0 then v ++ p.2 else p.2 ++ v)) node)

/-- The one-time public key that a signature of 67 chains yields for a message. -/
def slhWots (seed m : List Byte) (layer tree kp : Nat) (sig : List Byte) : List Byte :=
  let d := base2b 4 64 m
  let sum := (d.map (fun x => 15 - x)).sum
  let d := d ++ base2b 4 3 (natBe 2 (sum * 16))
  let chain := fun (i x : Nat) (v : List Byte) =>
    ((List.range (15 - x)).map (· + x)).foldl (fun v j => slhHash seed (slhAdrs layer tree 0 kp i j) v) v
  slhHash seed (slhAdrs layer tree 1 kp 0 0)
    (((List.range 67).zip (d.zip (cut 32 67 sig))).flatMap (fun p => chain p.1 p.2.1 p.2.2))

/-- The root of one tree of the hypertree that its signature yields for a message. -/
def slhXmss (seed m : List Byte) (layer tree leaf : Nat) (sig : List Byte) : List Byte :=
  slhClimb seed (fun j i => slhAdrs layer tree 2 0 j i) leaf 0 (slhWots seed m layer tree leaf sig) (cut 32 8 (sig.drop 2144))

/-- The few-time public key that its signature yields for a digest. -/
def slhFors (seed md : List Byte) (tree leaf : Nat) (sig : List Byte) : List Byte :=
  let roots := ((List.range 22).zip ((base2b 14 22 md).zip (cut 480 22 sig))).flatMap (fun p =>
    let i := p.2.1
    let s := cut 32 15 p.2.2
    let base := p.1 * 2 ^ 14
    let adrs := fun (j x : Nat) => slhAdrs 0 tree 3 leaf j x
    slhClimb seed adrs i base (slhHash seed (adrs 0 (base + i)) (s.headD [])) s.tail)
  slhHash seed (slhAdrs 0 tree 4 leaf 0 0) roots

/-- Verify a signature of 29,792 bytes over a message under a 64-byte public key: pure, with an empty context. -/
def slhVerify256s (key m sig : List Byte) : Bool :=
  let seed := key.take 32
  let g := shakeOut 47 (sig.take 32 ++ key ++ ([0, 0] ++ m))
  let tree := beNat ((g.drop 39).take 7)
  let leaf := beNat ((g.drop 46).take 1)
  let pk := slhFors seed (g.take 39) tree leaf ((sig.drop 32).take 10560)
  let top := (cut 2400 8 (sig.drop 10592)).foldl (fun (p : List Byte × Nat × Nat × Nat) s =>
    (slhXmss seed p.1 p.2.1 p.2.2.1 p.2.2.2 s, p.2.1 + 1, p.2.2.1 / 256, p.2.2.1 % 256)) (pk, 0, tree, leaf)
  decide (key.length = 64) && decide (sig.length = 29792) && decide (top.1 = key.drop 32)

end Sys2Proof.Machine
end

