-- ==== Sys2Proof/Machine/Nvs.lean ====
section
/-! DEFINITION. The persistent store's common operations: words, records in two banks, ordered word writes, torn writes
and the event log (R414 to R424). -/

namespace Sys2Proof.Machine

/-! ## Words (R414, R418) -/

/-- The first word of the reserved range, which reads as zero and ignores writes (Table 16.5). -/
def nvsEnd : Nat := 0xAA000

/-- A word, unless it reads as uncorrectable. -/
def Chip.nvsWord (c : Chip) (w : Nat) : Option Nat := if c.nvs.uncorr.contains w then none else some (tget 0 w c.nvs.words)

/-- Write a word; it is correctable again (R419). -/
def Chip.nvsPut (w v : Nat) (c : Chip) : Chip :=
  if nvsEnd ≤ w then c
  else { c with nvs := { c.nvs with words := tput 0 w (v % 2 ^ 64) c.nvs.words, uncorr := c.nvs.uncorr.filter (fun x => x ≠ w) } }

/-- `n` bytes from an 8-byte aligned offset; `none` where a word is uncorrectable. -/
def Chip.nvsBytes (c : Chip) (off n : Nat) : Option (List Byte) :=
  let ws := (List.range ((n + 7) / 8)).map (fun i => c.nvsWord (off / 8 + i))
  if ws.any Option.isNone then none else some ((ws.flatMap (fun w => natLe 8 (w.getD 0))).take n)

/-! ## Records (R415, R416) -/

/-- The offsets of a record's header and payload in a bank: 0 firmware, 1 user calibration, 2 repair log (Table 16.5). -/
def recHdr (r b : Nat) : Nat := if r = 0 then 0x502000 + 0x40 * b else if r = 1 then 0x500000 + 0x1000 * b else 0x510000 + 0x10000 * b
def recPay (r b : Nat) : Nat := if r = 0 then 0x200000 + 0x100000 * b else recHdr r b + 16

/-- MAGIC and capacity of a record (Table 16.7). -/
def recMagic (r : Nat) : Nat := if r = 0 then 0x57463954 else if r = 1 then 0x4C433954 else 0x4C523954
def recCap (r : Nat) : Nat := if r = 0 then 1048576 else if r = 1 then 3072 else 32768

/-- The 16 header bytes of a bank, uncorrectable words as zero. -/
def Chip.recHead (c : Chip) (r b : Nat) : List Byte :=
  natLe 8 ((c.nvsWord (recHdr r b / 8)).getD 0) ++ natLe 8 ((c.nvsWord (recHdr r b / 8 + 1)).getD 0)

/-- The payload of a bank if the bank is valid (R416). -/
def Chip.recBank (c : Chip) (r b : Nat) : Option (List Byte) :=
  match c.nvsBytes (recHdr r b) 16 with
  | none => none
  | some h =>
    let len := pf h 8 4
    if pf h 0 4 ≠ recMagic r ∨ recCap r < len ∨ (r = 1 ∧ len ≠ 3072) then none
    else
      match c.nvsBytes (recPay r b) len with
      | none => none
      | some p => if crc32c (h.take 12 ++ p) = pf h 12 4 then some p else none

/-- SEQ of a bank. -/
def Chip.recSeq (c : Chip) (r b : Nat) : Nat := pf (c.recHead r b) 4 4

/-- `b` is newer than `a` by the wrap comparison (R416). -/
def seqNewer (a b : Nat) : Bool := let d := (b + 2 ^ 32 - a) % 2 ^ 32; decide (1 ≤ d) && decide (d ≤ 2 ^ 31 - 1)

/-- The bank in force, if the record is present (R416). -/
def Chip.recChosen (c : Chip) (r : Nat) : Option Nat :=
  match (c.recBank r 0).isSome, (c.recBank r 1).isSome with
  | false, false => none
  | true, false => some 0
  | false, true => some 1
  | true, true => some (if seqNewer (c.recSeq r 0) (c.recSeq r 1) then 1 else 0)

/-- The payload of the bank in force. -/
def Chip.recRead (c : Chip) (r : Nat) : Option (List Byte) := (c.recChosen r).bind (fun b => c.recBank r b)

/-! ## Writes (R417, R421) -/

/-- The words of a byte string from an offset. -/
def wordsOf (off : Nat) (bs : List Byte) : List (Nat × Nat) :=
  (List.range ((bs.length + 7) / 8)).map (fun i => (off / 8 + i, pf bs (8 * i) 8))

/-- The word writes of a record write: MAGIC as 0, payload, header bytes 4 to 15, MAGIC (R417). -/
def Chip.recWords (c : Chip) (r b seq : Nat) (p : List Byte) : List (Nat × Nat) :=
  let h := recHdr r b / 8
  let head := natLe 4 (recMagic r) ++ natLe 4 seq ++ natLe 4 p.length
  let chk := crc32c (head ++ p)
  [(h, tget 0 h c.nvs.words / 2 ^ 32 * 2 ^ 32)] ++ wordsOf (recPay r b) p ++
    [(h, seq * 2 ^ 32), (h + 1, p.length + chk * 2 ^ 32), (h, recMagic r + seq * 2 ^ 32)]

/-- Target bank and SEQ of a record write (R417); a firmware commit names its bank. -/
def Chip.recTarget (c : Chip) (r : Nat) (named : Option Nat) : Nat × Nat :=
  match c.recChosen r with
  | none => (named.getD 0, 1)
  | some b => (named.getD (1 - b), (c.recSeq r b + 1) % 2 ^ 32)

/-- Lay out the record writes whose turn has come: writes to one record go one at a time (R417). -/
def Chip.nvsLay (c : Chip) : List Nat → List NvsJob → List NvsJob
  | _, [] => []
  | seen, j :: js =>
    match j.record, j.payload with
    | some r, some p =>
      if seen.contains r then j :: c.nvsLay seen js
      else
        let t := c.recTarget r j.bank
        { j with words := c.recWords r t.1 t.2 p
                 payload := none } :: c.nvsLay (r :: seen) js
    | some r, none => j :: c.nvsLay (r :: seen) js
    | none, _ => j :: c.nvsLay seen js

/-- Request a sequence of word writes. -/
def Chip.nvsJob (j : NvsJob) (c : Chip) : Chip := { c with nvs := { c.nvs with jobs := c.nvsLay [] (c.nvs.jobs ++ [j]) } }

/-- Request a record write (R417). -/
def Chip.recWrite (r : Nat) (p : List Byte) (bank : Option Nat) (done : NvsDone) (c : Chip) : Chip :=
  c.nvsJob { words := [], record := some r, payload := some p, bank := bank, done := done }

/-- Request plain word writes (R419). -/
def Chip.nvsWrite (ws : List (Nat × Nat)) (done : NvsDone) (c : Chip) : Chip :=
  c.nvsJob { words := ws, record := none, payload := none, bank := none, done := done }

/-- The macro of a word (1 MiB each). -/
def nvsMacro (w : Nat) : Nat := w / 2 ^ 17

/-- The job that a macro serves: the first whose next word lies in it. -/
def Chip.nvsServed (c : Chip) (m : Nat) : Option NvsJob :=
  c.nvs.jobs.find? (fun j => (j.words.head?.map (fun w => decide (nvsMacro w.1 = m))).getD false)

/-- The macros that a job still needs: of its words, of a record whose words are not laid out yet, or of a read (R421). -/
def NvsJob.macros (j : NvsJob) : List Nat :=
  match j.done with
  | .userRead _ w n => [nvsMacro w, nvsMacro (w + n - 1)]
  | .accRead w => [nvsMacro w]
  | _ =>
    j.words.map (fun w => nvsMacro w.1) ++
      (if j.payload.isSome then (if j.record = some 0 then [2, 3, 5] else [5]) else [])

/-- A read that waits. -/
def NvsJob.reads (j : NvsJob) : Bool :=
  match j.done with
  | .userRead _ _ _ | .accRead _ => true
  | _ => false

/-- A macro has nothing to do that came before. -/
def Chip.nvsIdle (c : Chip) (ms : List Nat) : Bool := c.nvs.jobs.all (fun j => ms.all (fun m => !j.macros.contains m))

/-- The reads whose macros serve nothing that arrived earlier; `busy` holds the macros of the jobs before (R421). -/
def nvsReady : List Nat → List NvsJob → List NvsJob
  | _, [] => []
  | busy, j :: js =>
    if j.reads && j.macros.all (fun m => !busy.contains m) then j :: nvsReady busy js else nvsReady (busy ++ j.macros) js

/-- Replace the first job equal to `j` by what is left of it. -/
def nvsReplace (j : NvsJob) : List NvsJob → List NvsJob
  | [] => []
  | k :: ks =>
    if k = j then (if j.words.length ≤ 1 then ks else { j with words := j.words.tail } :: ks) else k :: nvsReplace j ks

/-- NVS_WORD_WRITE_DONE: the word in progress in a macro is written; the answer names a job that this completes. -/
def Chip.nvsStep (m : Nat) (c : Chip) : Chip × Option NvsDone :=
  match c.nvsServed m with
  | none => (c, none)
  | some j =>
    let w := j.words.headD (0, 0)
    let c := c.nvsPut w.1 w.2
    let c := { c with nvs := { c.nvs with jobs := nvsReplace j c.nvs.jobs } }
    ({ c with nvs := { c.nvs with jobs := c.nvsLay [] c.nvs.jobs } }, if j.words.length ≤ 1 then some j.done else none)

/-- The macros busy, as a mask (`NVS_STAT.BUSY`). -/
def Chip.nvsBusy (c : Chip) : Nat :=
  (List.range 8).foldl (fun a m => putBit a m ((c.nvsServed m).isSome || (decide (m = 5) && c.nvs.logBuf ≠ []))) 0

/-! ## The event log (R422, R423) -/

/-- The first word of the slot of an event log sequence number. -/
def evlogSlot (s : Nat) : Nat := 0x530000 / 8 + 4 * (s % 4096)

/-- The 16 bytes of an event entry (Table 2.10). -/
def evBytes (e : Ev) : List Byte := natLe 2 e.code ++ natLe 1 e.sev ++ natLe 1 (b2n e.masked) ++ natLe 4 e.arg ++ natLe 8 e.time

/-- The 32 bytes of an event log entry (Table 16.8). -/
def evlogBytes (e : Ev) (s boot : Nat) : List Byte :=
  let b := evBytes e ++ natLe 4 s ++ natLe 2 boot ++ natLe 6 0
  b ++ natLe 4 (crc32c b)

/-- Write the first `n` words of the oldest waiting entry to its slot (Table 16.8). -/
def Chip.evlogWords (n : Nat) (c : Chip) : Chip :=
  match c.nvs.logBuf with
  | [] => c
  | (e, boot) :: _ =>
    c.forAll ((wordsOf (8 * evlogSlot c.nvs.logSeq) (evlogBytes e c.nvs.logSeq boot)).take n) (fun w => Chip.nvsPut w.1 w.2)

/-- EVLOG_ENTRY_WRITTEN: the oldest waiting entry is written to its slot. In BOOT the log's end is not found yet, and entries wait
(R423). -/
def Chip.evlogWritten (c : Chip) : Chip :=
  if c.dstate = stBoot then c
  else
    let c := c.evlogWords 4
    { c with nvs := { c.nvs with logBuf := c.nvs.logBuf.tail
                                 logSeq := if c.nvs.logBuf = [] then c.nvs.logSeq else (c.nvs.logSeq + 1) % 2 ^ 32 } }

/-- The valid entry in a slot: its 32 bytes (R423). -/
def Chip.evlogAt (c : Chip) (i : Nat) : Option (List Byte) :=
  match c.nvsBytes (8 * evlogSlot i) 32 with
  | none => none
  | some b => if crc32c (b.take 28) = pf b 28 4 ∧ pf b 16 4 % 4096 = i % 4096 then some b else none

/-- The newest valid sequence number (R423). -/
def Chip.evlogNewest (c : Chip) : Option Nat :=
  (List.range 4096).foldl (fun (a : Option Nat) i =>
    match c.evlogAt i, a with
    | none, _ => a
    | some b, none => some (pf b 16 4)
    | some b, some s => if seqNewer s (pf b 16 4) then some (pf b 16 4) else a) none

/-- On entry to FW the log continues after its newest valid entry (R423). -/
def Chip.evlogResume (c : Chip) : Chip :=
  { c with nvs := { c.nvs with logSeq := (c.evlogNewest.map (fun s => (s + 1) % 2 ^ 32)).getD 0 } }

/-! ## Torn writes (R418) -/

/-- The event log's macro writes an entry. -/
def Chip.logWrites (c : Chip) : Bool := (c.nvsServed 5).isNone && c.nvs.logBuf ≠ [] && c.dstate ≠ stBoot

/-- A warm reset: the words in progress complete, and every write then stops. How many words of an entry of the event log have
been written is a free value. -/
def Chip.nvsStop (c : Chip) : Chip :=
  let c := if c.logWrites then (c.evlogWords (1 + c.freeVal % 4)).freeNext else c
  let c := c.forAll (List.range 8) (fun m c =>
    match c.nvsServed m with
    | some j => c.nvsPut (j.words.headD (0, 0)).1 (j.words.headD (0, 0)).2
    | none => c)
  { c with nvs := { c.nvs with jobs := [], logBuf := [] } }

/-- A shutdown, or a power loss in the macros of a mask: the word in progress is left uncorrectable, and every write stops. Which
word of an entry of the event log is in progress is a free value. -/
def Chip.nvsTear (mask : Nat) (c : Chip) : Chip :=
  let k := c.freeVal % 4
  let log := c.logWrites && mask.testBit 5
  let ws := (List.range 8).filterMap (fun m =>
    if mask.testBit m then
      match c.nvsServed m with
      | some j => j.words.head?.map Prod.fst
      | none => if m = 5 ∧ log then some (evlogSlot c.nvs.logSeq + k) else none
    else none)
  let c := if log then (c.evlogWords k).freeNext else c
  { c with nvs := { c.nvs with jobs := [], logBuf := [], uncorr := c.nvs.uncorr ++ ws.filter (fun w => !c.nvs.uncorr.contains w) } }

end Sys2Proof.Machine
end

