-- ==== Sys2Proof/Machine/Link.lean ====
section
/-! DEFINITION. Sending on a Windway port: frames, the window, routes from the active bank, forwarding (R335 to R337, R343,
R344, R348). -/

namespace Sys2Proof.Machine

/-- Packet types (Table 13.4). -/
def wtReq : Nat := 0
def wtRsp : Nat := 1
def wtChanter : Nat := 2
def wtHoldAnn : Nat := 3
def wtXgFault : Nat := 4
def wtProbe : Nat := 5
def wtProbeReply : Nat := 6
def wtPathWrite : Nat := 7
def wtPathReply : Nat := 8
def wtErr : Nat := 9
def wtLinkChange : Nat := 10

/-- Port states (`WW_P_STAT.LSTATE`). -/
def wpDown : Nat := 0
def wpTraining : Nat := 1
def wpUp : Nat := 2
def wpRetired : Nat := 3

/-- The state of a port. -/
def Chip.wpState (c : Chip) (p : Nat) : Nat := c.get (F.WW_P_STAT_LSTATE p)

/-- A port as it is before training: nothing sent, nothing received. -/
def WwPort.init : WwPort :=
  { uid := 0, txSeq := 0, unacked := [], line := [], slot := 0, calm := 15, rxSeq := 0, gap := false, errs := 0, fails := [0, 0, 0, 0],
    heard := none, delay := 0 }

/-- A port's link. -/
def Chip.wp (c : Chip) (p : Nat) : WwPort := tget WwPort.init p c.ww.ports

/-- Change a port's link. -/
def Chip.setWp (p : Nat) (f : WwPort → WwPort) (c : Chip) : Chip :=
  { c with ww := { c.ww with ports := tset p (f (c.wp p)) c.ww.ports } }

/-- HOLD_ANN, XG_FAULT and PROBE precede every data class (R349). -/
def WwPkt.urgent (k : WwPkt) : Bool := k.kind = wtHoldAnn || k.kind = wtXgFault || k.kind = wtProbe

/-- The class of a packet: RT, FAB, BULK, CTL (Table 13.4). -/
def WwPkt.cls (k : WwPkt) : Nat := k.head.headD 3 % 4

/-- A response in its class (R302). -/
def WwPkt.answers (k : WwPkt) : Bool := k.kind = wtRsp || k.kind = wtErr

/-- The reset value of `NET_WRR`: weights 40, 30, 20 and 10 (R302). -/
def wrrReset : Nat := 0x0A141E28

/-- The class weights of the Windway switch, those of router 24; while L0 is throttled BULK has `BULK_EFF` (R302). -/
def Chip.wwWeights (c : Chip) : List Nat :=
  let v := tget wrrReset 24 c.net.wts
  [bits v 7 0, bits v 15 8, if c.get (F.TH_BDZONE_S 0) = 256 then bits v 23 16 else c.get F.NET_STAT_BULK_EFF, bits v 31 24]

/-- The class that a slot of the weighted frame belongs to (R302). -/
def slotClass : List Nat → Nat → Nat
  | [], _ => 0
  | w :: ws, s => if s < w then 0 else slotClass ws (s - w) + 1

/-- The data packet that a slot of class `k` serves: of its class or else of the next class that has one, responses before
requests (R302). -/
def dataPick (line : List WwPkt) (k : Nat) : Option WwPkt :=
  let ds := line.filter (fun x => !x.urgent)
  ((List.range 4).flatMap (fun i => [(k + i, true), (k + i, false)])).findSome? (fun q =>
    ds.find? (fun x => x.cls = q.1 % 4 && x.answers = q.2))

/-- The packet that the next frame serves: one that precedes data if none of the last 15 frames did, or if no data waits, whose
frames the idle ones replace; else data by the weights (R349). -/
def WwPort.pick (ws : List Nat) (w : WwPort) : Option WwPkt :=
  match w.line.find? WwPkt.urgent, dataPick w.line (slotClass ws w.slot) with
  | some u, none => some u
  | some u, some d => if 15 ≤ w.calm then some u else some d
  | none, d => d

/-- The line after a flit of `k`, its oldest packet of that form. -/
def lineSend (k : WwPkt) : List WwPkt → List WwPkt
  | [] => []
  | x :: xs => if x = k then (if x.left ≤ 1 then xs else { x with left := x.left - 1 } :: xs) else x :: lineSend k xs

/-- A port after one flit of `k` in a frame (R337, R349). -/
def WwPort.sendFlit (ws : List Nat) (k : WwPkt) (w : WwPort) : WwPort :=
  { w with
    unacked := w.unacked ++ [(w.txSeq, 0)]
    txSeq := (w.txSeq + 1) % 256
    line := lineSend k w.line
    slot := if k.urgent then w.slot else (w.slot + 1) % ws.sum
    calm := if k.urgent then 0 else min 15 (w.calm + 1) }

/-- Send at most `n` frames; a packet is sent with its last flit. -/
def Chip.wpFrames (p : Nat) : Nat → Chip → Chip
  | 0, c => c
  | n + 1, c =>
    match (c.wp p).pick c.wwWeights with
    | none => c
    | some k =>
      let c := c.setWp p (WwPort.sendFlit c.wwWeights k)
      Chip.wpFrames p n (if k.left ≤ 1 then c.emit (.wwSend p k.kind k.head k.fields) else c)

/-- Send what waits as far as the window of 64 frames allows, while lanes are in use (R337, R338). -/
def Chip.wpFill (p : Nat) (c : Chip) : Chip :=
  if c.get (F.WW_P_STAT_WIDTH p) = 0 then c else c.wpFrames p (64 - (c.wp p).unacked.length)

/-- Send a packet of `n` flits after its header on a port; a port that is not UP discards it, counted (R348). -/
def Chip.wwPort (p kind n : Nat) (head fields : List Nat) (c : Chip) : Chip :=
  if c.wpState p = wpUp then
    (c.setWp p (fun w => { w with line := w.line ++ [{ kind := kind, head := head, fields := fields, left := n + 1 }] })).wpFill p
  else c.inc F.WW_CNT_UNDELIV_CNT

/-- Port of hop `k` in a route (Table 13.3). -/
def hopOf (route k : Nat) : Nat := bits route (3 * k + 2) (3 * k)

/-- The entry of the active bank for a device, if valid; no device holds the ID 0xFFF (R30, R343, Table 13.3). -/
def Chip.routeTo (c : Chip) (d : Nat) : Option Nat :=
  let e := c.get (F.WW_ROUTE_W (c.get F.WW_ID_EPOCH) d)
  if e.testBit 40 && d ≠ 0xFFF then some e else none

/-- Send a packet along a route of `hops` ports, as its source (R344). -/
def Chip.wwAlong (kind cls dst route hops n : Nat) (fields : List Nat) (c : Chip) : Chip :=
  c.wwPort (hopOf route 0) kind n [cls, c.get F.WW_ID_EPOCH, c.get F.WW_ID_DEVICE_ID, dst, route, hops, 0, 0] fields

/-- Send a packet to a device by the active bank; without a valid entry it cannot go on (R347, R348). -/
def Chip.wwTo (dst kind n : Nat) (fields : List Nat) (c : Chip) : Chip :=
  match c.routeTo dst with
  | none => c.inc F.WW_CNT_UNDELIV_CNT
  | some e => c.wwAlong kind 3 dst (bits e 35 0) (bits e 39 36) n fields

end Sys2Proof.Machine
end

