-- ==== Sys2Proof/Machine/TestQueue.lean ====
section
/-! DEFINITION. The queue of targeted tests, shared by every area that detects an error (R381), and regions and
elements as the self-test engine names them (Table 15.8). -/

namespace Sys2Proof.Machine

/-! ## Domains (R309) -/

def domRegion (r : Nat) : Nat := r
def domEngine (k : Nat) : Nat := 200 + k
def domGroup (g : Nat) : Nat := 220 + g
def domPort (p : Nat) : Nat := 260 + p
def domDram : Nat := 270

/-- The state of a domain: 0 OPEN, 1 CLOSING, 2 CLOSED. -/
def Chip.domState (c : Chip) (d : Nat) : Nat := tget 0 d c.net.doms % 4

/-! ## Elements -/

/-- The lane of channel `n` in its Reed group (R78). -/
def Chip.chState (c : Chip) (n : Nat) : Nat := c.get (F.RD_CH_STAT_STATE (n / 8) (n % 8))

/-- The state of a scratchpad bank: 0 ON, 1 RETENTION, 2 OFF, 3 RETIRED (Table 9.3). -/
def Chip.bankState (c : Chip) (r b : Nat) : Nat := c.get (F.SP_PWR_STAT_STATE r b)

/-- Whether a DRAM bank is retired (R271). -/
def Chip.dramRetired (c : Chip) (bank : Nat) : Bool := (c.get (F.DR_RETIRED_MASK (bank / 64))).testBit (bank % 64)

/-- Region states of `FAB_RG_STAT.RSTATE` (Table 7.7). -/
def rgRun : Nat := 0
def rgHeld : Nat := 1
def rgOff : Nat := 2
def rgRetired : Nat := 3

/-- The state of a region. -/
def Chip.rgState (c : Chip) (r : Nat) : Nat := c.get (F.FAB_RG_STAT_RSTATE r)

/-- The kind by which the model names a scratchpad word under test (Table 15.4): region [7:0], bank [11:8], bank word
[23:12]; not a kind of the repair log. -/
def elemWord : Nat := 16

/-- Whether an element of the repair log's kinds is already retired (R381, R398). -/
def Chip.elemRetired (c : Chip) (kind loc : Nat) : Bool :=
  if kind = 1 ∨ kind = 2 ∨ kind = elemWord then c.bankState (bits loc 7 0) (bits loc 11 8) = 3
  else if kind = 3 ∨ kind = 4 then c.dramRetired (bits loc 7 0)
  else if kind = 5 ∨ kind = 6 then c.chState (bits loc 7 0) = 2
  else if kind = 7 ∨ kind = 8 then
    if bits loc 2 0 = 4 ∧ bits loc 4 3 = 0 then
      (c.get (F.FAB_VMASK_MASK (bits loc 11 5) (bits loc 21 12 / 64))).testBit (bits loc 21 12 % 64)
    else c.st.applied.any (fun e => (bits e 3 0 = 7 || bits e 3 0 = 8) && bits e 5 4 = 1 && bits e 47 16 = loc)
  else if kind = 9 then (c.get (F.WW_P_STAT_LANE_RET (bits loc 2 0))).testBit (bits loc 4 3)
  else if kind = 10 then (tget 0 (4 * bits loc 6 0 + bits loc 9 7) c.net.halves).testBit (bit loc 10)
  else if kind = 11 then c.rgState (bits loc 7 0) = rgRetired
  else false

/-- Whether a router's port faces the edge of the mesh, where no link is (R293): east 0, north 1, west 2, south 3. -/
def atEdge (n p : Nat) : Bool := (p = 0 && n % 8 = 7) || (p = 2 && n % 8 = 0) || (p = 1 && decide (88 ≤ n)) || (p = 3 && decide (n < 8))

/-- An element of a kind that exists (Tables 15.8 and 15.9). -/
def elemOk (kind loc : Nat) : Bool :=
  match kind with
  | 1 => decide (bits loc 7 0 < 192) && decide (bits loc 19 12 < (if loc.testBit 20 then 11 else 132)) && decide (loc < 2 ^ 21)
  | 2 => decide (bits loc 7 0 < 192) && decide (loc < 2 ^ 12)
  | 3 => decide (loc < 2 ^ 23)
  | 4 => decide (loc < 2 ^ 8)
  | 5 => decide (loc < 2 ^ 16)
  | 6 => decide (loc < 2 ^ 8)
  | 7 | 8 =>
    match bits loc 2 0, bits loc 4 3 with
    | 0, 0 | 1, 0 | 2, 0 | 3, 1 | 4, 1 => decide (bits loc 11 5 < 96) && decide (loc < 2 ^ 15)
    | 0, 1 | 1, 1 => decide (bits loc 16 9 < 160) && decide (loc < 2 ^ 17)
    | 0, 2 | 1, 2 | 2, 2 | 3, 2 | 4, 2 => decide (loc < 2 ^ 13)
    | 3, 0 => decide (bits loc 12 5 < 96) && decide (bits loc 28 13 < 64000) && decide (loc < 2 ^ 29)
    | 5, 0 => decide (96 ≤ bits loc 12 5) && decide (bits loc 12 5 < 192) && decide (bits loc 28 13 < 64000) && decide (loc < 2 ^ 29)
    | 4, 0 => decide (bits loc 11 5 < 96) && decide (bits loc 21 12 < 800) && decide (loc < 2 ^ 22)
    | _, _ => false
  | 9 => decide (loc < 2 ^ 5)
  | 10 => decide (bits loc 6 0 < 96) && decide (bits loc 9 7 < 4) && decide (loc < 2 ^ 11) && !atEdge (bits loc 6 0) (bits loc 9 7)
  | 11 => decide (bits loc 7 0 < 192) && decide (bits loc 21 11 < 1600) && decide (loc < 2 ^ 28)
  | 12 => decide (loc < 2 ^ 16)
  | 16 => decide (bits loc 7 0 < 192) && decide (loc < 2 ^ 24)
  | _ => false

/-- Whether the queue of 64 has no room for an element that it does not hold yet. -/
def Chip.tqFull (c : Chip) (kind loc : Nat) : Bool :=
  decide (64 ≤ c.st.queue.length) && !(c.st.queue ++ c.st.cur.toList).any (fun (t : TestItem) => t.kind = kind && t.loc = loc)

/-- Queue a targeted test of an element, with the slots of commands that wait for it (R381): an error on an element
already queued or under test merges; a full queue sets TQ_OVF; in SAFE, BLANK and SCRAPPED nothing is queued. -/
def Chip.tqPush (kind loc : Nat) (slots : List Nat) (c : Chip) : Chip :=
  let same := fun (t : TestItem) => t.kind = kind && t.loc = loc
  if c.dstate = stSafe || !live c.lc || c.elemRetired kind loc then c
  else if (c.st.cur.map same).getD false then
    { c with st := { c.st with cur := c.st.cur.map (fun (t : TestItem) => { t with slots := t.slots ++ slots }) } }
  else if c.st.queue.any same then
    { c with st := { c.st with queue := c.st.queue.map (fun (t : TestItem) =>
        if same t then { t with slots := t.slots ++ slots } else t) } }
  else if 64 ≤ c.st.queue.length then c.set F.ST_STAT_TQ_OVF 1
  else { c with st := { c.st with queue := c.st.queue ++ [{ kind := kind, loc := loc, slots := slots }] } }

/-! ## The repair log (R386) -/

/-- The argument of an event that names an entry (R399). -/
def entryArg (kind loc : Nat) : Nat := kind + 16 * (loc % 2 ^ 28)

/-- A repair log entry (Table 15.7). -/
def Chip.rlogEntry (c : Chip) (action kind loc spare : Nat) : Nat :=
  kind + 16 * action + 256 * spare + 2 ^ 16 * loc + 2 ^ 48 * (c.get F.SYS_STATE_BOOT_COUNT % 2 ^ 16)

/-- Show the log in `ST_RLOG`. -/
def Chip.rlogShow (c : Chip) : Chip :=
  ((c.set F.ST_RLOG_ENTRIES c.st.log.length).set F.ST_RLOG_PENDING (b2n (c.st.log.any (fun e => bits e 5 4 = 2)))).set
    F.ST_RLOG_FUSE_USED c.st.fused.length

/-- The log's payload bytes. -/
def rlogBytes (log : List Nat) : List Byte := log.flatMap (fun e => natLe 8 e)

/-- Append an entry to the repair log by one record write; a full log takes none (R386). A repair or retirement is in
force at once. -/
def Chip.logRepair (action kind loc spare : Nat) (c : Chip) : Chip :=
  let e := c.rlogEntry action kind loc spare
  let c := if action < 2 then { c with st := { c.st with applied := c.st.applied ++ [e] } } else c
  if 4096 ≤ c.st.log.length then (c.set F.ST_RLOG_FULL 1).raise EV_ST_LOG_FULL (entryArg kind loc)
  else
    let c := { c with st := { c.st with log := c.st.log ++ [e] } }
    c.rlogShow.recWrite 2 (rlogBytes c.st.log) none .none

end Sys2Proof.Machine
end

