-- ==== Sys2Proof/Machine/RowPort.lean ====
section
/-! DEFINITION. Row ports (chapter 10): DRAM addresses, the controller's queues as row-port users see them, the freeze, and
the bitmap's row writes. -/

namespace Sys2Proof.Machine

/-! ## Addresses (R270) -/

/-- DRAM bank, row and granule of an address. -/
def drBank (a : Nat) : Nat := bits a 17 10
def drRow (a : Nat) : Nat := bits a 32 18
def drGran (a : Nat) : Nat := bits a 9 3

/-- The first byte of an address's row. -/
def rowBase (a : Nat) : Nat := a / 1024 * 1024

/-- The rows that a range of `n` bytes touches, by first byte. -/
def rowsOf (a n : Nat) : List Nat := (List.range ((a % 1024 + n + 1023) / 1024)).map (fun i => rowBase a + 1024 * i)

/-! ## States and history (Tables 10.8, 10.9) -/

def drInit : Nat := 0
def drTraining : Nat := 1
def drReady : Nat := 2
def drFrozen : Nat := 3
def drSelf : Nat := 4

def Chip.drState (c : Chip) : Nat := c.get F.DR_STAT_STATE

/-- Note a command issued, newest first, 64 kept; its command clock cycle is open (Table 10.9). -/
def Chip.drCmd (cmd bank row port : Nat) (perr : Bool) (c : Chip) : Chip :=
  let e := cmd + bank * 2 ^ 4 + row * 2 ^ 12 + port * 2 ^ 27 + b2n perr * 2 ^ 31 + (c.freeVal % 2 ^ 32) * 2 ^ 32
  { c.freeNext with dr := { c.dr with cmds := (e :: c.dr.cmds).take 64 } }

/-- Show the queue levels; a drain starts at 192 writes and ends at 64 (R277). -/
def Chip.drLevels (c : Chip) : Chip :=
  let w := c.dr.wq.length
  let c := (c.set F.DR_STAT_RQ_LEVEL c.dr.rq.length).set F.DR_STAT_WQ_LEVEL w
  if 192 ≤ w then c.set F.DR_STAT_DRAINING 1 else if w ≤ 64 then c.set F.DR_STAT_DRAINING 0 else c

/-! ## The freeze (R287) -/

/-- End a list of commands alike. -/
def Chip.endAll (ids : List Nat) (st dt : Nat) (c : Chip) : Chip := c.forAll ids (fun id => Chip.finish id st dt [])

/-- A freeze ends a training, a frequency change and a thaw: none of them runs while the controller is frozen. -/
def Chip.drStops (c : Chip) : Chip :=
  let ids := (c.dr.train.map (fun x => x.2)).getD [] ++ (c.dr.freq.map (fun x => x.1)).toList ++ (c.dr.thaw.map (fun x => x.1)).toList
  (Chip.set F.DR_STAT_FREQ_PENDING 0 { c with dr := { c.dr with train := none, freq := none, thaw := none } }).endAll ids ST_FROZEN dtNone

/-- Freeze with a cause: 1 DATA, 2 CMD, 3 TRAIN. A snapshot is kept until the next freeze. -/
def Chip.drFreeze (cause : Nat) (onWrite : Bool) (addr synd : Nat) (c : Chip) : Chip :=
  if c.drState = drFrozen then c
  else
    let unc := if cause = 1 then (c.dr.bad.filter (fun g => rowBase g = rowBase addr)).length else 0
    let c := (c.set F.DR_STAT_STATE drFrozen).set F.DR_FRZ_STAT_FROZEN 1
    let c := ((c.set F.DR_FRZ_STAT_CAUSE cause).set F.DR_FRZ_STAT_ON_WRITE (b2n onWrite)).set F.DR_FRZ_STAT_BANK (drBank addr)
    let c := ((c.set F.DR_FRZ_STAT_RQ_HELD c.dr.rq.length).set F.DR_FRZ_STAT_WQ_HELD c.dr.wq.length).set F.DR_FRZ_ADDR_ADDR (addr / 8 * 8)
    let c := ((c.set F.DR_FRZ_SYND_SYND synd).set F.DR_FRZ_SYND_GRANULE (drGran addr)).set F.DR_FRZ_SYND_UNC unc
    let c := (c.set F.DR_FRZ_SYND_LOST 0).set F.DR_FRZ_RQHEAD_ADDR ((c.dr.rq.head?.map (fun (q : DrRead) => q.addr)).getD 0)
    let c := c.set F.DR_FRZ_WQHEAD_ADDR ((c.dr.wq.head?.map (fun (q : DrWrite) => q.addr)).getD 0)
    let c := { c.inc F.DR_CNT_A_FREEZES with dr := { c.dr with hist := c.dr.cmds } }
    (c.raise EV_DR_FROZEN (cause + drBank addr * 2 ^ 2 + drGran addr * 2 ^ 10 + drRow addr * 2 ^ 17)).drStops

/-- A command parity error freezes the controller with the command's address (R286). -/
def Chip.drParity (perr : Bool) (addr : Nat) (c : Chip) : Chip := if perr then c.drFreeze 2 false addr 0 else c

/-- A rank leaves power-down for a request or a self-test slice (R282). -/
def Chip.drWakeRank (a : Nat) (perr : Bool) (c : Chip) : Chip :=
  let rank := drBank a / 64
  if (c.get F.DR_STAT_PD).testBit rank then
    ((c.set F.DR_STAT_PD (clrBit (c.get F.DR_STAT_PD) rank)).drCmd 7 (drBank a) 0 (drBank a % 16) perr).drParity perr (rowBase a)
  else c

/-! ## The queues (R274, R275) -/

/-- The bytes of a range that queued plain writes cover. -/
def Chip.drFwd (c : Chip) (a n : Nat) : Nat :=
  (List.range n).foldl (fun m i =>
    if c.dr.wq.any (fun w => !w.rowOr && decide (w.addr ≤ a + i) && ((w.old[a + i - w.addr]?).getD none).isSome) then setBit m i else m) 0

/-- What a byte holds after one queued write, given what it held before. -/
def DrWrite.at (w : DrWrite) (a : Nat) (v : Byte) : Byte :=
  if a < w.addr then v
  else
    match (w.old[a - w.addr]?).getD none with
    | none => v
    | some _ => if w.rowOr then v ||| w.data.getD (a - w.addr) 0 else w.data.getD (a - w.addr) 0

/-- What a byte holds once every queued write is performed, if its DRAM cell holds zero. -/
def Chip.drOverZero (c : Chip) (a : Nat) : Byte := c.dr.wq.foldl (fun v w => w.at a v) 0

/-- Queue a write: the memory shows it at once, and the queue keeps what each byte held. -/
def Chip.drPush (a : Nat) (bs : List (Bool × Byte)) (rowOr : Bool) (c : Chip) : Chip :=
  let old := ((List.range bs.length).zip bs).map (fun p => if p.2.1 then some (memGet (a + p.1) c.mem) else none)
  let w : DrWrite := { addr := a, old := old, data := bs.map (fun b => b.2), rowOr := rowOr }
  let bs := ((List.range bs.length).zip bs).map (fun p => (p.2.1, w.at (a + p.1) (memGet (a + p.1) c.mem)))
  Chip.drLevels { c with mem := memWriteMask a bs c.mem, dr := { c.dr with wq := c.dr.wq ++ [w] } }

/-- Queue a read, with what it returns as of now (R275). -/
def Chip.drAsk (net : Option (Nat × Nat × Nat)) (rt : Bool) (a n : Nat) (c : Chip) : Chip :=
  let words := if net.isSome then List.range (n / 16) else []
  let e : DrRead := { net := net, rt := rt, addr := a, n := n, since := c.get F.WW_TB_TIME,
                      data := words.map (fun i => leNat (memRead (a + 16 * i) 16 c.mem)),
                      zeros := words.map (fun i => leNat ((List.range 16).map (fun j => c.drOverZero (a + 16 * i + j)))),
                      fwd := c.drFwd a n }
  Chip.drLevels { c with dr := { c.dr with rq := c.dr.rq ++ [e] } }

/-! ## Row-port users -/

/-- The library's address range. -/
def Chip.libRange (c : Chip) : Nat × Nat :=
  (c.get F.CFG_LIB_BASE_ADDR, c.get F.CFG_LIB_BASE_ADDR + c.get F.CFG_LIB_SLOTS_SLOTS * 0x200000)

/-- Whether a range of `n` bytes meets the library (R223). -/
def Chip.inLib (c : Chip) (a n : Nat) : Bool := decide (0 < c.get F.CFG_LIB_SLOTS_SLOTS) && overlaps (a, a + n) c.libRange

/-- The answer of a domain that is not OPEN: RSP_RESET, RSP_OFF, or RSP_OFF with RETIRED (R309). -/
def Chip.domAnswer (c : Chip) (d : Nat) : Rsp :=
  match tget 0 d c.net.doms / 4 with
  | 0 => rspReset
  | 1 => rspOff
  | _ => ⟨5, 0x05⟩

/-- What the controller answers at once to a request at an address, if it does not accept it: closed, retired bank, frozen
(R271, R287, R309). -/
def Chip.drRefusal (c : Chip) (a : Nat) : Option Rsp :=
  if c.domState domDram ≠ 0 then some (c.domAnswer domDram)
  else if c.dramRetired (drBank a) then some rspRetired
  else if c.drState = drFrozen then some rspFrozen
  else none

/-- What a row-port user is answered at once for a range: outside the DRAM, in the stop library, or refused by the
controller. -/
def Chip.rowRefusal (c : Chip) (a n : Nat) : Option Rsp :=
  if 0x200000000 < a + n then some rspDecerr
  else if c.inLib a n then some rspLocked
  else (rowsOf a n).findSome? c.drRefusal

/-- The whole-row reads of a row-port user over a range: an uncorrectable granule freezes the controller (R286, R287). -/
def Chip.rowReads (a n : Nat) (c : Chip) : Rsp × Chip :=
  match (rowsOf a n).findSome? c.drRefusal with
  | some r => (r, c)
  | none =>
    match (rowsOf a n).findSome? (fun b => c.dr.bad.find? (fun g => rowBase g = b)) with
    | some g => (rspUncorr, (c.freeNext).drFreeze 1 false g (c.freeVal % 256))
    | none => (rspOk, c)

/-- Whether a range's rows hold a granule known to be uncorrectable. -/
def Chip.rowBad (c : Chip) (a n : Nat) : Bool := (rowsOf a n).any (fun b => c.dr.bad.any (fun g => rowBase g = b))

/-- The granules that a write stores whole, and those it covers in part or ORs into, which are read first (R278). -/
def DrWrite.cover (w : DrWrite) (i : Nat) : Nat := (((w.old.drop (8 * i)).take 8).filter Option.isSome).length
def DrWrite.fullGrans (w : DrWrite) : List Nat :=
  if w.rowOr then [] else ((List.range (w.old.length / 8)).filter (fun i => w.cover i = 8)).map (fun i => w.addr + 8 * i)
def DrWrite.readGrans (w : DrWrite) : List Nat :=
  ((List.range ((w.old.length + 7) / 8)).filter (fun i =>
    decide (0 < w.cover i) && (w.rowOr || decide (w.cover i < 8)))).map (fun i => w.addr + 8 * i)

/-- A row-port user's write of `bs` within one row or several: fresh check bits where it covers granules; a merge that meets
an uncorrectable granule freezes the controller and is held (R278, R287). -/
def Chip.rowWrites (a : Nat) (bs : List Byte) (c : Chip) : Rsp × Chip :=
  match (rowsOf a bs.length).findSome? c.drRefusal with
  | some r => (r, c)
  | none =>
    let w : DrWrite := { addr := a, old := bs.map some, data := bs, rowOr := false }
    let c := c.drWakeRank a false
    match w.readGrans.find? (fun g => c.dr.bad.contains g) with
    | some g =>
      let c := c.drPush a (bs.map (fun b => (true, b))) false
      (rspOk, (c.freeNext).drFreeze 1 true g (c.freeVal % 256))
    | none =>
      (rspOk, { c with mem := memWrite a bs c.mem, dr := { c.dr with bad := c.dr.bad.filter (fun g => !w.fullGrans.contains g) } })

/-! ## The bitmap's rows (R154 to R156) -/

/-- Queue the ROW_OR that a line wants (R274): one write-queue entry, answered RSP_OK as it enters; nothing while the queue
is full, and BM_FAULT on any other answer. -/
def Chip.bmQueue (a : Nat) (r : Rsp) (perr : Bool) (c : Chip) : Chip :=
  match c.cap.lines.find? (fun l => l.addr = a && (l.wb = 1 || l.wb = 2)) with
  | none => c
  | some l =>
    if r.code ≠ 0 then c.bmFail r false
    else
      match c.rowRefusal a 1024 with
      | some r => c.bmFail r false
      | none =>
        if 256 ≤ c.dr.wq.length then c
        else ((c.drWakeRank a perr).drPush a ((natLe 1024 l.bits).map (fun b => (true, b))) true).setWb a (l.wb + 2)

/-- BM_ZERO_ROW_DONE: one row of a zeroing enters the write queue, or fails (R155, R156). -/
def Chip.bmZeroRow (r : Rsp) (c : Chip) : Chip :=
  match c.cap.zero with
  | [] => c
  | z :: zs =>
    let stop := min z.stop (rowBase z.next + 1024)
    let r := if r.code ≠ 0 then r else (c.rowRefusal z.next (stop - z.next)).getD r
    if r.code ≠ 0 then
      let c := { c with cap := { c.cap with zero := zs } }
      (c.bmFail r false).fail z.slot r.status.1 dtBmFault
    else if 256 ≤ c.dr.wq.length then c
    else
      let c := (c.drWakeRank z.next false).drPush z.next ((List.range (stop - z.next)).map (fun _ => (true, 0))) false
      if stop = z.stop then Chip.ok z.slot [] { c with cap := { c.cap with zero := zs } }
      else { c with cap := { c.cap with zero := { z with next := stop } :: zs } }

/-! ## Meanings -/

def execBmWritebackResponse (addr : BitVec 48) (rsp : Fin 6) (detail : Byte) (perr : Bool) (s : State) :=
  runChip (Chip.bmQueue addr.toNat ⟨rsp, detail.toNat⟩ perr) s
def execBmZeroRowDone (rsp : Fin 6) (detail : Byte) (s : State) := runChip (Chip.bmZeroRow ⟨rsp, detail.toNat⟩) s

end Sys2Proof.Machine
end

