-- ==== Sys2Proof/Machine/Reed.lean ====
section
/-! DEFINITION. Reed units (chapter 3): timesets, edges, compare and timestamps, calibration, the drift loop, and the
Reed commands. -/

namespace Sys2Proof.Machine

/-- A Reed unit at reset. -/
def Reed.init : Reed :=
  { drv := false, den := false, drvEdge := none, denEdge := none, outL := 0, outC := 0, starvedL := false,
    starvedC := false, spareL := 0, spareC := 0, line := 0, checks := [], repaired := false, reacq := 0, idle := 0 }

/-- The Reed unit of channel `n`. -/
def Chip.unit (c : Chip) (n : Nat) : Reed := tget Reed.init n c.rd.units

/-- Change the Reed unit of channel `n`. -/
def Chip.setUnit (n : Nat) (f : Reed → Reed) (c : Chip) : Chip :=
  { c with rd := { c.rd with units := tput Reed.init n (f (c.unit n)) c.rd.units } }

def chActive : Nat := 0
def chSuspect : Nat := 1
def chRetired : Nat := 2

/-! ## Engine rate (R82, R107) -/

/-- M of an engine. -/
def Chip.peM (c : Chip) (k : Nat) : Nat := 2 ^ c.get (F.PE_CTL_MCODE k)

/-- Time units per quarter picosecond: FSTEP × M. One UI is 640,000 units (R82). -/
def Chip.peUnit (c : Chip) (k : Nat) : Nat := c.get (F.PE_CTL_FSTEP k) * c.peM k

/-- One unit interval in time units. -/
def uiUnits : Nat := 640000

/-! ## Values that change while the engine runs (R85, R99, R121) -/

/-- Whether engine `k` emits cycles: RUNNING or PAUSED (R128). -/
def Chip.peEmits (c : Chip) (k : Nat) : Bool := c.peState k = peRunning || c.peState k = pePaused

/-- Whether the serving engine of a group runs, as `ENGINE_RUN` shows it (R128). -/
def Chip.engineRun (c : Chip) (g : Nat) : Bool := c.peEmits (g / 2)

/-- The key of a value in the table of recent old values: engine, then a kind and an index. -/
def prevKey (pe kind idx : Nat) : Nat := (pe * 16 + kind) * 2 ^ 48 + idx

/-- Remember the old value of a table register or entry written while its engine runs: the next 64 engine cycles may still use
it (R85). Values that no cycle to come may use are forgotten. -/
def Chip.noteOld (pe key old : Nat) (c : Chip) : Chip :=
  if c.peEmits pe then
    let n := c.get (F.PE_CYCLE_COUNT pe)
    { c with rd := { c.rd with
        prev := tset key ((old, n + 63) :: (tget [] key c.rd.prev).filter (fun p => decide (n ≤ p.2))) c.rd.prev } }
  else { c with rd := { c.rd with prev := tdel key c.rd.prev } }

/-- The old value that a cycle of an engine uses in place of the present one, if it uses one held within the last 64 cycles
(R85; log entry 6). -/
def Chip.timedOld (c : Chip) (pe key cyc : Nat) : Option Nat :=
  let olds := ((tget [] key c.rd.prev).filter (fun p => decide (cyc ≤ p.2))).map Prod.fst
  if olds = [] then none
  else
    match Config.oldOrNew (c.get (F.PE_START_TICK_TICK pe)) cyc key % (olds.length + 1) with
    | 0 => none
    | i + 1 => olds[i]?

/-- A run begins: every write made before it is complete (R85, R99). -/
def Chip.forgetOld (pe : Nat) (c : Chip) : Chip :=
  { c with rd := { c.rd with
      prev := tkeep (fun k => decide (k / 2 ^ 52 ≠ pe)) c.rd.prev
      cals := tkeep (fun n => decide (n / 16 ≠ pe)) c.rd.cals } }

/-- A field of a table register of an engine as a cycle sees it: the whole register is the present one or an old one (R121). -/
def Chip.getTimed (c : Chip) (pe : Nat) (f : Fld) (cyc : Nat) : Nat :=
  match c.timedOld pe (prevKey pe 1 f.off) cyc with
  | some w => bits w (f.lo + f.w - 1) f.lo
  | none => c.get f

/-- Write the fields of one table register of an engine under the timing of R85 (R121). -/
def Chip.setTimed (pe : Nat) (fs : List Fld) (v : Nat) (c : Chip) : Chip :=
  let c := match fs with
    | f :: _ => c.noteOld pe (prevKey pe 1 f.off) (c.wordOf fs)
    | [] => c
  c.forAll fs (fun f => Chip.set f (bits v (f.lo + f.w - 1) f.lo))

/-! ## Timesets (R84 to R86) -/

/-- The key of a timeset entry. -/
def tsKey (g ts lane : Nat) : Nat := (g * 256 + ts) * 8 + lane

/-- A timeset entry as written. -/
def Chip.tsEntry (c : Chip) (g ts lane : Nat) : Nat := tget 0 (tsKey g ts lane) c.rd.tsets

/-- A timeset entry as a cycle of the serving engine uses it (R85). -/
def Chip.tsAt (c : Chip) (g ts lane cyc : Nat) : Nat :=
  (c.timedOld (g / 2) (prevKey (g / 2) 2 (tsKey g ts lane)) cyc).getD (c.tsEntry g ts lane)

/-- Whether an entry holds a reserved code or a reserved bit (Table 3.2). -/
def tsReserved (e : Nat) : Bool :=
  decide (5 ≤ bits e 98 96) || bits e 104 103 = 3 || bits e 106 105 = 3 || bits e 127 107 ≠ 0

/-- Store a timeset entry (R85). -/
def Chip.tsWrite (g ts lane e : Nat) (c : Chip) : Chip :=
  let c := c.noteOld (g / 2) (prevKey (g / 2) 2 (tsKey g ts lane)) (c.tsEntry g ts lane)
  { c with rd := { c.rd with tsets := tput 0 (tsKey g ts lane) e c.rd.tsets } }

/-- Whether an entry is valid for the present T_UI (Table 3.3); `u` is time units per quarter picosecond. -/
def tsValid (e u : Nat) : Bool :=
  let t := fun (x : Nat) => decide (x * u < uiUnits)
  let d0 := bits e 15 0
  let d1 := bits e 31 16
  let s0 := bits e 79 64
  let s1 := bits e 95 80
  let fmt := bits e 98 96
  let cm := bits e 100 99
  (if fmt = 0 then t d0
   else if fmt = 3 then decide (0 < d0) && decide (d0 < d1) && t d1
   else if fmt = 4 then true
   else decide (d0 < d1) && t d1) &&
  t (bits e 47 32) && t (bits e 63 48) &&
  (if cm = 0 then t s0 else if cm = 3 then true else decide (s0 ≤ s1) && t s1)

/-! ## Calibration (R97 to R99) -/

/-- The six paths of a channel: DRV rise, DRV fall, DEN rise, DEN fall, CMPH, CMPL. -/
def calFld (user : Bool) (g lane path : Nat) : Fld :=
  if user then (if path < 4 then F.RD_UCAL_A_U g lane path else F.RD_UCAL_B_U g lane (path - 4))
  else (if path < 4 then F.RD_FCAL_A_U g lane path else F.RD_FCAL_B_U g lane (path - 4))

/-- The clamped sum of factory and user values (R98): K, and whether it was clamped. -/
def kClamp (f u : Nat) : Int × Bool :=
  let s := sext 16 f + sext 16 u
  if 4000 < s then (4000, true) else if s < -4000 then (-4000, true) else (s, false)

/-- The effective value of a path as stored (R98). -/
def Chip.kEff (c : Chip) (n path : Nat) : Int :=
  (kClamp (c.get (calFld false (n / 8) (n % 8) path)) (c.get (calFld true (n / 8) (n % 8) path))).1

/-- The drift field of a line. -/
def driftFld (n : Nat) (cap : Bool) : Fld := if cap then F.RD_CH_STAT_DRIFT_C (n / 8) (n % 8) else F.RD_CH_STAT_DRIFT_L (n / 8) (n % 8)

/-- The calibration of a channel as its registers hold it. -/
def Chip.calNow (c : Chip) (n : Nat) : Cal :=
  { k := (List.range 6).map (c.kEff n), dL := sext 16 (c.get (driftFld n false)), dC := sext 16 (c.get (driftFld n true)) }

/-- The calibration in force in UI `ui` of the run: the newest whose first UI has come (R99). -/
def calAt (ui : Nat) (cur : Cal) : List (Cal × Nat) → Cal
  | [] => cur
  | (old, first) :: t => if first ≤ ui then cur else calAt ui old t

/-- The correction of a path: K of the path and the drift of its line (R91, R93). -/
def Cal.path (x : Cal) (p : Nat) : Int := x.k.getD p 0 + (if p < 4 then x.dL else x.dC)

/-- Before a change of a channel's calibration: while the engine runs, the first UI that uses the new values is a free value
within 64 engine cycles, the same for all six paths (R99); otherwise the change acts at once. -/
def Chip.calNote (n : Nat) (c : Chip) : Chip :=
  if c.peEmits (n / 16) then
    let m := c.peM (n / 16)
    let at' := c.get (F.PE_CYCLE_COUNT (n / 16)) * m
    let olds := (tget [] n c.rd.cals).filter (fun p => decide (at' < p.2))
    let first := at' + c.freeVal % (63 * m + 1)
    ({ c with rd := { c.rd with cals := tset n ((c.calNow n, first) :: olds) c.rd.cals } } : Chip).freeNext
  else { c with rd := { c.rd with cals := tdel n c.rd.cals } }

/-- The mask of clamped paths of a channel. -/
def Chip.clampMask (c : Chip) (n : Nat) : Nat :=
  ((List.range 6).map (fun p => b2n (kClamp (c.get (calFld false (n / 8) (n % 8) p)) (c.get (calFld true (n / 8) (n % 8) p))).2 * 2 ^ p)).sum

/-- Decide `CAL_CLAMPED` of a channel after its user values changed; the event is raised once (R98). -/
def Chip.clampCheck (n : Nat) (c : Chip) : Chip :=
  let m := c.clampMask n
  let f := F.RD_CH_STAT_CAL_CLAMPED (n / 8) (n % 8)
  if m = 0 then c.set f 0
  else if c.is f then c
  else (c.set f 1).raise EV_RD_CAL_CLAMPED (n + m * 256)

/-- Write the six user values of a channel together (R99). -/
def Chip.ucalWrite (n : Nat) (vs : List Nat) (c : Chip) : Chip :=
  ((c.calNote n).forAll (List.range 6) (fun p c => c.set (calFld true (n / 8) (n % 8) p) (vs.getD p 0))).clampCheck n

/-- The user calibration values, in the order of the record, and which channels they clamp (R97, R98, Table 16.7). -/
def Chip.calLoad (p : List Byte) (c : Chip) : Chip :=
  let c := c.forAll (List.range 256) (fun n c => c.forAll (List.range 6) (fun i =>
    Chip.set (calFld true (n / 8) (n % 8) i) (pf p (12 * n + 2 * i) 2)))
  c.forAll (List.range 256) (fun n => Chip.clampCheck n)

/-! ## Edges (R88 to R91) -/

/-- The DRV level segments of a UI: (offset, level) from Table 3.4; before the first the level is that of the last UI. -/
def drvSegs (fmt a b : Nat) (d : Bool) : List (Nat × Bool) :=
  if fmt = 0 then [(a, d)]
  else if fmt = 1 then [(0, false), (a, d), (b, false)]
  else if fmt = 2 then [(0, true), (a, d), (b, true)]
  else if fmt = 3 then [(0, !d), (a, d), (b, !d)]
  else []

/-- Drop segments of no length. -/
def dropEmpty : List (Nat × Bool) → List (Nat × Bool)
  | (o, l) :: (o', l') :: t => if o = o' then dropEmpty ((o', l') :: t) else (o, l) :: dropEmpty ((o', l') :: t)
  | l => l

/-- The time of an edge under the 10.0 ps rule, and whether it was moved (R90); `gap` is 10.0 ps in time units. -/
def edgeTime (last : Option Int) (t gap : Int) : Int × Bool :=
  match last with
  | none => (t, false)
  | some p => if t < p + gap then (p + gap, true) else (t, false)

/-- Place one edge on DRV or DEN of a channel, `gap` being 10.0 ps: spacing, count, event and output (R90, R91). -/
def Chip.placeEdge (n : Nat) (den lvl : Bool) (t gap : Int) (c : Chip) : Chip :=
  let u := c.unit n
  let r := edgeTime (if den then u.denEdge else u.drvEdge) t gap
  let c := c.setUnit n (fun u => if den then { u with den := lvl, denEdge := some r.1 } else { u with drv := lvl, drvEdge := some r.1 })
  let c := if r.2 then (c.inc (F.RD_EDGE_CLAMP_COUNT (n / 8))).flagEvent (F.RD_GRP_STAT_CLAMP (n / 8)) EV_RD_EDGE_CLAMP (n + b2n den * 256) else c
  c.emit (.edge n den lvl r.1)

/-- The time of an edge at an offset of UI `ui` of the run, at `unit` time units to the quarter picosecond (R82, R91). -/
def edgeAt (unit ui : Nat) (cal : Cal) (path off : Nat) : Int :=
  ((ui * uiUnits : Nat) : Int) + ((off : Int) + cal.path path) * ((unit : Nat) : Int) + Config.launchLatency unit

/-- 10.0 ps in time units. -/
def edgeGap (unit : Nat) : Int := ((40 * unit : Nat) : Int)

/-- The DRV levels of one UI under an entry, with their offsets (R88). -/
def drvPlan (e : Nat) (d : Bool) : List (Nat × Bool) := dropEmpty (drvSegs (bits e 98 96) (bits e 15 0) (bits e 31 16) d)

/-- Place the DRV edges of one UI (R88). -/
def Chip.drvUi (n unit ui : Nat) (cal : Cal) (plan : List (Nat × Bool)) (c : Chip) : Chip :=
  c.forAll plan (fun s c =>
    if (c.unit n).drv = s.2 then c
    else c.placeEdge n false s.2 (edgeAt unit ui cal (if s.2 then 0 else 1) s.1) (edgeGap unit))

/-- The DEN edge of one UI, if any: the level after it, its path and its offset (R87, R89). -/
def denMove (on valid drive : Bool) (e : Nat) : Option (Bool × Nat × Nat) :=
  if valid && drive && !on then some (true, 2, bits e 47 32)
  else if on && valid && !drive then some (false, 3, bits e 63 48)
  else if on && !valid then some (false, 3, 0)
  else none

/-- Place the DEN edge of one UI, if any. -/
def Chip.denUi (n unit ui : Nat) (cal : Cal) (move : Option (Bool × Nat × Nat)) (c : Chip) : Chip :=
  match move with
  | some x => c.placeEdge n true x.1 (edgeAt unit ui cal x.2.1 x.2.2) (edgeGap unit)
  | none => c

/-- The idle slots of a UI (R100): bit 0 where no DRV or DEN edge is placed, bit 1 where nothing is compared. -/
def idleSlots (still : Bool) (e : Nat) (cmask : Bool) : Nat := b2n still + 2 * b2n (cmask || bits e 100 99 = 3)

/-- One UI of one channel of an emitted cycle (R83 to R91, R100, R102, R103); DEN stays low while the group is in reset (R104). -/
def Chip.uiEmit (cy : Cycle) (n u : Nat) (c : Chip) : Chip :=
  let g := n / 8
  match cy.lanes[n % 16]? with
  | none => c
  | some l =>
    if c.chState n = chRetired then c
    else
      let i := 16 * u + n % 16
      let ui := cy.num * cy.m + u
      let cal := calAt ui l.cal l.olds
      let valid := tsValid l.entry cy.unit
      let plan := if valid then drvPlan l.entry (cy.data.testBit i) else []
      let move := if c.domState (domGroup g) ≠ 0 then none else denMove (c.unit n).den valid (cy.drive.testBit i) l.entry
      let still := plan.all (fun s => s.2 == (c.unit n).drv) && move.isNone
      let c := if c.chState n = chSuspect && !cy.cmask.testBit i then c.inc (F.RD_CH_STAT_SUSPECT_UI g (n % 8)) else c
      let c := if valid then c
        else (c.inc (F.RD_TSV_UI_COUNT g)).flagEvent (F.RD_GRP_STAT_TSV g) EV_RD_TIMESET_INVALID (n + cy.tset * 256)
      let c := (c.drvUi n cy.unit ui cal plan).denUi n cy.unit ui cal move
      c.setUnit n (fun u => { u with idle := u.idle ||| idleSlots still l.entry (cy.cmask.testBit i) })

/-- Every UI of every channel of an engine's cycle, UI by UI and lane by lane. -/
def Chip.emitCycle (k : Nat) (cy : Cycle) (c : Chip) : Chip :=
  c.forAll (List.range cy.m) (fun u c => c.forAll (List.range 16) (fun p => Chip.uiEmit cy (16 * k + p) u))

/-- A cycle of engine `k` as it is issued, with the rate it runs at and what its lanes use (R85, R99). -/
def Chip.laneUses (c : Chip) (k : Nat) (cy : Cycle) : Cycle :=
  { cy with
    m := c.peM k
    unit := c.peUnit k
    lanes := (List.range 16).map (fun p =>
      let n := 16 * k + p
      { entry := c.tsAt (n / 8) cy.tset (n % 8) cy.num, cal := c.calNow n, olds := tget [] n c.rd.cals }) }

/-- The engine is no longer running: with `IDLE_DEN_OFF` DEN goes low at the end of the last UI (R89). Set later, the bit has
no effect on a run already ended (log entry 46). -/
def Chip.idleDen (k : Nat) (c : Chip) : Chip :=
  c.forAll (List.range 16) (fun p c =>
    let n := 16 * k + p
    let unit := c.peUnit k
    let ui := c.get (F.PE_CYCLE_COUNT k) * c.peM k
    if c.is (F.RD_GRP_CTL_IDLE_DEN_OFF (n / 8)) && (c.unit n).den then
      c.placeEdge n true false (edgeAt unit ui (calAt ui (c.calNow n) (tget [] n c.rd.cals)) 3 0) (edgeGap unit)
    else c)

/-- A new run: no edge precedes its first (R90 applies within a run; log entry 7), and no idle slot has been seen. -/
def Chip.clearEdges (k : Nat) (c : Chip) : Chip :=
  c.forAll (List.range 16) (fun p => Chip.setUnit (16 * k + p) (fun u => { u with drvEdge := none, denEdge := none, idle := 0 }))

/-- DEN of every channel goes low, as in a state that does not enable channels (R22, R23). -/
def Chip.denAllLow (c : Chip) : Chip :=
  { c with rd := { c.rd with units := (c.rd.units.map (fun e => (e.1, { e.2 with den := false }))).filter (fun e => e.2 ≠ Reed.init) } }

/-! ## Compare and timestamps (R92 to R95) -/

/-- What the comparators show, moved from the balls to the reference plane: each comparator's transitions less the correction of
its path (R93, R94). -/
def pinPlane (o : PinObs) (kH kL : Int) : PinObs :=
  { o with trans := o.trans.map (fun x => (x.1 - (if x.2.1 then kL else kH), x.2)) }

/-- The comparator levels at an offset: CMPH, CMPL (R92). -/
def pinAt (o : PinObs) (t : Int) : Bool × Bool :=
  (o.trans.filter (fun x => decide (x.1 ≤ t))).foldl (fun s x => if x.2.1 then (s.1, x.2.2) else (x.2.2, s.2)) (o.cmph, o.cmpl)

/-- Whether a pin state satisfies the expectation rule (Tables 3.5, 3.6); a conflict never does (R92). -/
def passes (cmpsel : Nat) (expect : Bool) (s : Bool × Bool) : Bool :=
  let h := s.1 && !s.2
  let l := !s.1 && s.2
  let z := !s.1 && !s.2
  if s.1 && s.2 then false
  else if cmpsel = 0 then (if expect then h else l)
  else if cmpsel = 1 then (if expect then h else !h)
  else if cmpsel = 2 then (if expect then !l else l)
  else z

/-- The pin states seen from `s0` to `s1` inclusive. -/
def pinSeen (o : PinObs) (s0 s1 : Int) : List (Bool × Bool) :=
  pinAt o s0 :: ((o.trans.filter (fun x => decide (s0 < x.1) && decide (x.1 ≤ s1))).map (fun x => pinAt o x.1))

/-- The first transition from `s0` to `s1` that matches `TSCOMP` and `TSDIR`; CMPH first at the same offset (R94). -/
def pinFirst (o : PinObs) (s0 s1 : Int) (comp dir : Nat) : Option (Int × Bool × Bool) :=
  let ok := o.trans.filter (fun x => decide (s0 ≤ x.1) && decide (x.1 ≤ s1) &&
    (comp = 0 || (comp = 1 && !x.2.1) || (comp = 2 && x.2.1)) &&
    (dir = 0 || (dir = 1 && x.2.2) || (dir = 2 && !x.2.2)))
  ok.foldl (fun b x =>
    match b with
    | none => some x
    | some y => if x.1 < y.1 ∨ (x.1 = y.1 ∧ y.2.1 ∧ !x.2.1) then some x else some y) none

/-- A timestamp record without its OVR bit (Table 3.7). -/
def tsRecord (cyc u lane : Nat) (r : Option (Int × Bool × Bool)) : Nat :=
  cyc % 2 ^ 48 + u * 2 ^ 48 + lane * 2 ^ 51 + 2 ^ 56 +
    (match r with
     | some x => b2n x.2.1 * 2 ^ 54 + b2n x.2.2 * 2 ^ 55 + (x.1.toNat % 65536) * 2 ^ 64
     | none => 2 ^ 80)

/-- The timestamp buffer of a group, oldest first. -/
def Chip.tsBuf (c : Chip) (g : Nat) : List Nat := tget [] g c.rd.buf

/-- Put a record into a group's buffer, or drop it (R95). -/
def Chip.tsPut (g r : Nat) (c : Chip) : Chip :=
  let q := c.tsBuf g
  if q.length < 4096 then
    { c with rd := { c.rd with buf := tput [] g (q ++ [r + b2n (c.rd.dropped.testBit g) * 2 ^ 81]) c.rd.buf,
                               dropped := clrBit c.rd.dropped g } }
  else
    let c := { c with rd := { c.rd with dropped := setBit c.rd.dropped g } }
    (c.inc (F.RD_TS_DROPPED_COUNT g)).flagEvent (F.RD_GRP_STAT_TS_OVR g) EV_RD_TS_OVERFLOW (8 * g)

/-- The compare of one UI of one channel, its pin seen at the reference plane: whether it fails, its timestamp record, and
whether a conflict was seen. -/
def uiCompare (e u cyc ui lane : Nat) (expect : Bool) (o : PinObs) : Bool × Option Nat × Bool :=
  if !tsValid e u then (true, none, false)
  else
    let s0 : Int := bits e 79 64
    let s1 : Int := bits e 95 80
    let cm := bits e 100 99
    let conf := fun (l : List (Bool × Bool)) => l.any (fun s => s.1 && s.2)
    if cm = 0 then (!passes (bits e 102 101) expect (pinAt o s0), none, conf [pinAt o s0])
    else if cm = 1 then ((pinSeen o s0 s1).any (fun s => !passes (bits e 102 101) expect s), none, conf (pinSeen o s0 s1))
    else if cm = 2 then
      (false, some (tsRecord cyc ui lane (pinFirst o s0 s1 (bits e 104 103) (bits e 106 105))), conf (pinSeen o s0 s1))
    else (false, none, false)

/-- The compare of one UI of one channel of a cycle, with the entry and calibration the cycle uses, updating a fail vector (R93,
R94, R138). A UI in which a conflict is seen counts once (log entry 46). -/
def Chip.laneCompare (k : Nat) (cy : Cycle) (obs : List (List PinObs)) (u p : Nat) (a : Nat × Chip) : Nat × Chip :=
  let n := 16 * k + p
  let c := a.2
  if c.chState n = chRetired || cy.cmask.testBit (16 * u + p) then a
  else
    let l := cy.lanes.getD p { entry := 0, cal := { k := [], dL := 0, dC := 0 }, olds := [] }
    let cal := calAt (cy.num * cy.m + u) l.cal l.olds
    let o := pinPlane ((obs.getD p []).getD u { cmph := false, cmpl := false, trans := [] }) (cal.path 4) (cal.path 5)
    let r := uiCompare l.entry cy.unit cy.num u (n % 8) (cy.expect.testBit (16 * u + p)) o
    let c := match r.2.1 with
      | some rec => c.tsPut (n / 8) rec
      | none => c
    let c := if r.2.2 then (c.inc (F.RD_CONFLICT_COUNT (n / 8))).flagEvent (F.RD_GRP_STAT_CONFLICT (n / 8)) EV_RD_COMP_CONFLICT n else c
    (a.1 + b2n r.1 * 2 ^ (16 * u + p), c)

/-- The fail vector F of a cycle and what its compares leave (R138). -/
def Chip.compareCycle (k : Nat) (cy : Cycle) (obs : List (List PinObs)) (c : Chip) : Nat × Chip :=
  (List.range cy.m).foldl (fun a u => (List.range 16).foldl (fun a p => Chip.laneCompare k cy obs u p a) a) (0, c)

/-- COMPARE_RESULT: the oldest emitted cycle of engine `k` is compared: fail vector, FAIL flag, fail word (R125, R138,
R139). Hold cycles produce none. -/
def Chip.compareResult (k : Nat) (obs : List (List PinObs)) (c : Chip) : Chip :=
  match (c.eng k).cmpQ with
  | [] => c
  | cy :: q =>
    let c := c.setEng k (fun e => { e with cmpQ := q })
    if cy.held then c
    else
      let r := c.compareCycle k cy obs
      let f := r.1
      let c := if f = 0 then r.2 else r.2.set (F.PE_STAT_FAIL k) 1
      let chm := c.get (F.CAP_PE_CTL_CMASK_CH k)
      let keep := ((List.range 128).filter (fun i => !chm.testBit (i % 16) && f.testBit i)).foldl (fun v i => setBit v i) 0
      if cy.fle && c.is (F.CAP_PE_CTL_EN k) && keep ≠ 0 then c.enterFail k (failWord keep cy.x cy.y cy.dom k cy.num) else c

/-- A read of `RD_TS_POP`: the oldest record, removed; zero from an empty buffer (R95, Table 3.10). -/
def Chip.tsPop (g : Nat) (c : Chip) : Nat × Chip :=
  match c.tsBuf g with
  | [] => (0, c)
  | r :: q => (r, { c with rd := { c.rd with buf := tput [] g q c.rd.buf } })

/-- Whether a group raises DREQ for its timestamp records, and to which channel (R95). -/
def Chip.tsDreq (c : Chip) (g : Nat) : Option Nat :=
  if c.is (F.RD_GRP_CTL_TS_DREQ_EN g) ∧ max 1 (c.get (F.RD_GRP_CTL_TS_DREQ_LEVEL g)) ≤ (c.tsBuf g).length then
    some (c.get (F.RD_GRP_CTL_TS_DREQ_CH g))
  else none

/-! ## The timeset port (R85, Table 3.13) -/

/-- Advance the port address after a completed access (Table 3.13). -/
def Chip.tsPortNext (g : Nat) (c : Chip) : Chip :=
  if c.is (F.RD_TS_PORT_ADDR_AUTOINC g) then
    let l := c.get (F.RD_TS_PORT_ADDR_LANE g)
    let c := c.set (F.RD_TS_PORT_ADDR_LANE g) ((l + 1) % 8)
    if l = 7 then c.set (F.RD_TS_PORT_ADDR_TSET g) ((c.get (F.RD_TS_PORT_ADDR_TSET g) + 1) % 256) else c
  else c

/-- A 128-bit write of `RD_TS_PORT_DATA` (R85). -/
def Chip.tsPortWrite (g v : Nat) (c : Chip) : Rsp × Chip :=
  if tsReserved v then (rspReservedCode, c)
  else (rspOk, (c.tsWrite g (c.get (F.RD_TS_PORT_ADDR_TSET g)) (c.get (F.RD_TS_PORT_ADDR_LANE g)) v).tsPortNext g)

/-- A 128-bit read of `RD_TS_PORT_DATA` (R84). -/
def Chip.tsPortRead (g : Nat) (c : Chip) : Nat × Chip :=
  (c.tsEntry g (c.get (F.RD_TS_PORT_ADDR_TSET g)) (c.get (F.RD_TS_PORT_ADDR_LANE g)), c.tsPortNext g)

/-! ## Drift and calibration errors (R100 to R103) -/

/-- One step toward zero of a quotient by 16, at least one unit (R100). -/
def driftStep (e d : Int) : Int :=
  let s := Int.tdiv (e - d) 16
  if s = 0 ∧ e ≠ d then (if e > d then 1 else -1) else s

/-- Set the state of a channel, and the masks that show it (Tables 3.12, 3.14). -/
def Chip.setChState (n st : Nat) (c : Chip) : Chip :=
  let g := n / 8
  let l := n % 8
  let c := c.set (F.RD_CH_STAT_STATE g l) st
  let c := c.set (F.RD_GRP_STAT_SUSPECT_MASK g) (putBit (c.get (F.RD_GRP_STAT_SUSPECT_MASK g)) l (st = chSuspect))
  c.set (F.RD_GRP_STAT_RETIRED_MASK g) (putBit (c.get (F.RD_GRP_STAT_RETIRED_MASK g)) l (st = chRetired))

/-- A calibration error: the channel becomes SUSPECT and its targeted test is queued (Table 3.9 step 1, R381). -/
def Chip.calError (n : Nat) (cap range : Bool) (c : Chip) : Chip :=
  let c := (c.set (F.RD_CH_STAT_SUSPECT_UI (n / 8) (n % 8)) 0).setChState n chSuspect
  let c := c.setUnit n (fun u => { u with line := b2n cap, repaired := false })
  (c.raise EV_RD_CAL_ERROR (n + b2n cap * 256 + b2n range * 512)).tqPush 5 (n + b2n cap * 256) []

/-- A line's `STARVED` state; the channel shows either line (Table 3.14). -/
def Chip.setStarved (n : Nat) (cap v : Bool) (c : Chip) : Chip :=
  let c := c.setUnit n (fun u => if cap then { u with starvedC := v } else { u with starvedL := v })
  let any := (c.unit n).starvedL || (c.unit n).starvedC
  let c := c.set (F.RD_CH_STAT_STARVED (n / 8) (n % 8)) (b2n any)
  c.set (F.RD_GRP_STAT_STARVED_MASK (n / 8)) (putBit (c.get (F.RD_GRP_STAT_STARVED_MASK (n / 8))) (n % 8) any)

/-- Whether a line may be measured: its loop is enabled, its channel is in use, and while the engine runs an idle slot has come
since its last measurement (R100). -/
def Chip.driftMay (c : Chip) (n : Nat) (cap : Bool) : Bool :=
  c.is (F.RD_GRP_CTL_DRIFT_EN (n / 8)) && c.chState n ≠ chRetired && (!c.engineRun (n / 8) || (c.unit n).idle.testBit (b2n cap))

/-- Change a line's drift correction; it takes effect at a UI boundary, as in R99 (R100). -/
def Chip.setDrift (n : Nat) (cap : Bool) (d : Int) (c : Chip) : Chip := (c.calNote n).set (driftFld n cap) (toBits 16 d)

/-- DRIFT_MEASUREMENT: a loopback measurement of a line (R100, R101). -/
def Chip.driftMeasure (n : Nat) (cap : Bool) (e : Int) (c : Chip) : Chip :=
  if !c.driftMay n cap then c
  else
    let c := (c.setStarved n cap false).setUnit n (fun u => { u with idle := clrBit u.idle (b2n cap) })
    if c.chState n = chSuspect then c
    else
      let d := sext 16 (c.get (driftFld n cap))
      if 24 < (e - d).natAbs then
        let o := (if cap then (c.unit n).outC else (c.unit n).outL) + 1
        let c := c.setUnit n (fun u => if cap then { u with outC := o } else { u with outL := o })
        if o = 3 then c.calError n cap false else c
      else
        let c := c.setUnit n (fun u => if cap then { u with outC := 0 } else { u with outL := 0 })
        let d' := d + driftStep e d
        if 1000 < d'.natAbs then c.calError n cap true else c.setDrift n cap d'

/-- DRIFT_STARVED: a line has completed no measurement for 10 ms (R101). -/
def Chip.driftStarve (n : Nat) (cap : Bool) (c : Chip) : Chip :=
  if c.chState n = chRetired then c else (c.setStarved n cap true).raise EV_RD_DRIFT_STARVED (n + b2n cap * 256)

/-- End the `CH_RD_CHECK` commands that wait for this channel's test (Table 3.17). -/
def Chip.checkDone (n result : Nat) (c : Chip) : Chip :=
  let ids := (c.unit n).checks
  (c.setUnit n (fun u => { u with checks := [] })).forAll ids (fun id => Chip.ok id (natLe 4 result))

/-- Every `CH_RD_CHECK` that waits ends, since no test runs any more (R390; log entry 46). -/
def Chip.checksEnd (c : Chip) : Chip :=
  let ids := c.rd.units.flatMap (fun e => e.2.checks)
  let units := (c.rd.units.map (fun e => (e.1, { e.2 with checks := [] }))).filter (fun e => e.2 ≠ Reed.init)
  ({ c with rd := { c.rd with units := units } } : Chip).forAll ids (fun id => Chip.fail id ST_BAD_STATE dtNone)

/-- REED_REACQUIRE_DONE: after a passed test delta is re-acquired and the channel is ACTIVE again (Table 3.9 step 4a; 4b
after a repair); after a reset of the group delta alone is (Table 16.4). -/
def Chip.reacquired (n : Nat) (dl dc : Int) (c : Chip) : Chip :=
  let u := c.unit n
  if c.chState n = chRetired ∨ u.reacq = 0 then c
  else
    let c := ((c.calNote n).set (driftFld n false) (toBits 16 dl)).set (driftFld n true) (toBits 16 dc)
    if u.reacq = 2 then c.setUnit n (fun u => { u with reacq := 0 })
    else
      let was := c.chState n = chSuspect
      let c := c.setChState n chActive
      let c := c.setUnit n (fun u => { u with outL := 0, outC := 0, repaired := false, reacq := 0 })
      let c := if u.repaired then c.raise EV_RD_CH_REPAIRED (n + u.line * 256) else c.raiseIf was EV_RD_CAL_TRANSIENT n
      c.checkDone n (b2n u.repaired)

/-- Retire a channel (R103): DRV and DEN low, masks and, when decided at run time, the event. -/
def Chip.retireChannel (n : Nat) (event : Bool) (c : Chip) : Chip :=
  if c.chState n = chRetired then c
  else
    let c := (c.setChState n chRetired).setUnit n (fun u => { u with drv := false, den := false })
    (c.raiseIf event EV_RD_CH_RETIRED (n + (n / 16) * 256)).checkDone n 2

/-! ## Status words -/

/-- `RD_GRP_STAT` (Table 3.12). -/
def Chip.rdGrpStat (c : Chip) (g : Nat) : Nat :=
  c.regWord (F.RD_GRP_STAT_TS_OVR g).off + (c.tsBuf g).length + b2n (c.engineRun g) * 2 ^ 48

/-- The four counters of a group, in offset order (Table 3.16). -/
def rdCounters (g : Nat) : List Fld := [F.RD_TS_DROPPED_COUNT g, F.RD_EDGE_CLAMP_COUNT g, F.RD_TSV_UI_COUNT g, F.RD_CONFLICT_COUNT g]

/-! ## Commands (R105) -/

def dtEngineRunning : Nat := 0x40
def dtCalClamped : Nat := 0x41

/-- A group number in a 4-byte payload. -/
def grpChk (_c : Chip) (pl : List Byte) : Option (Nat × Nat) := orElse (lenIs 4 pl) (param (decide (pf pl 0 4 < 32)))

def cmdRdStatus : Cmd := Cmd.plain 0x04 0x00 lcAll grpChk (fun id pl c =>
  let g := pf pl 0 4
  c.ok id (natLe 8 (c.rdGrpStat g) ++ (List.range 8).flatMap (fun l => natLe 8 (c.regWord (F.RD_CH_STAT_STATE g l).off)) ++
    (rdCounters g).flatMap (fun f => natLe 8 (c.get f))))

/-- The position of entry `i` from timeset `ts`: timeset and lane, wrapping after timeset 255 (R105). -/
def tsPos (ts i : Nat) : Nat × Nat := ((ts + i / 8) % 256, i % 8)

def cmdRdTsWrite : Cmd := Cmd.plain 0x04 0x01 live
  (fun _ pl =>
    if pl.length < 4 then some (ST_BAD_LENGTH, dtNone)
    else if 32 ≤ pb pl 0 ∨ pf pl 2 2 = 0 ∨ 255 < pf pl 2 2 then some (ST_BAD_PARAM, dtNone)
    else if pl.length ≠ 4 + 16 * pf pl 2 2 then some (ST_BAD_LENGTH, dtNone)
    else if (List.range (pf pl 2 2)).any (fun i => tsReserved (pf pl (4 + 16 * i) 16)) then some (ST_BAD_PARAM, dtNone)
    else none)
  (fun id pl c =>
    (c.forAll (List.range (pf pl 2 2)) (fun i c =>
      let q := tsPos (pb pl 1) i
      c.tsWrite (pb pl 0) q.1 q.2 (pf pl (4 + 16 * i) 16))).ok id [])

def cmdRdTsRead : Cmd := Cmd.plain 0x04 0x02 live
  (lenParam 4 (fun pl => decide (pb pl 0 < 32) && decide (1 ≤ pf pl 2 2) && decide (pf pl 2 2 ≤ 256)))
  (fun id pl c => c.ok id ((List.range (pf pl 2 2)).flatMap (fun i =>
    let q := tsPos (pb pl 1) i
    natLe 16 (c.tsEntry (pb pl 0) q.1 q.2))))

def cmdRdCalWrite : Cmd := Cmd.plain 0x04 0x03 live
  (lenParam 100 (fun pl => decide (pb pl 0 < 32) && pf pl 2 2 = 0))
  (fun id pl c =>
    let g := pb pl 0
    let lanes := (List.range 8).filter (fun l => (pb pl 1).testBit l && c.chState (8 * g + l) ≠ chRetired)
    let c := c.forAll lanes (fun l => Chip.ucalWrite (8 * g + l) ((List.range 6).map (fun i => pf pl (4 + 12 * l + 2 * i) 2)))
    c.finish id ST_OK (if lanes.any (fun l => c.clampMask (8 * g + l) ≠ 0) then dtCalClamped else dtNone) [])

def cmdRdCalRead : Cmd := Cmd.plain 0x04 0x04 live grpChk (fun id pl c =>
  let g := pf pl 0 4
  c.ok id ((List.range 8).flatMap (fun l =>
    (List.range 6).flatMap (fun i => natLe 2 (c.get (calFld false g l i))) ++
    (List.range 6).flatMap (fun i => natLe 2 (c.get (calFld true g l i))) ++
    (List.range 6).flatMap (fun i => natLe 2 (toBits 16 (c.kEff (8 * g + l) i))) ++
    natLe 2 (c.get (F.RD_CH_STAT_DRIFT_L g l)) ++ natLe 2 (c.get (F.RD_CH_STAT_DRIFT_C g l)))))

/-- `CH_RD_CHECK` runs step 3 of Table 3.9 at once, unless the serving engine runs or the lane is retired (R105); of both refusals
it gives the engine's (log entry 46). -/
def cmdRdCheck : Cmd := Cmd.plain 0x04 0x06 live
  (lenParam 2 (fun pl => decide (pb pl 0 < 32) && decide (pb pl 1 < 8)))
  (fun id pl c =>
    let n := 8 * pb pl 0 + pb pl 1
    if c.engineRun (pb pl 0) then c.fail id ST_BAD_STATE dtEngineRunning
    else if c.chState n = chRetired then c.fail id ST_RETIRED dtNone
    else if c.dstate = stSafe then c.fail id ST_BAD_STATE dtNone
    else if c.tqFull 5 (n + (c.unit n).line * 256) then c.fail id ST_BUSY dtQueueFull
    else ((c.interim id ST_ACCEPTED dtNone []).setUnit n (fun u => { u with checks := u.checks ++ [id] })).tqPush 5
      (n + (c.unit n).line * 256) [])

/-! ## Meanings -/

def execCompareResult (pe : Fin 16) (obs : List (List PinObs)) (s : State) := runChip (Chip.compareResult pe obs) s
def execDriftMeasurement (ch : Fin 256) (capture : Bool) (err : Int) (s : State) := runChip (Chip.driftMeasure ch capture err) s
def execDriftStarved (ch : Fin 256) (capture : Bool) (s : State) := runChip (Chip.driftStarve ch capture) s
def execReedReacquireDone (ch : Fin 256) (deltaL deltaC : Int) (s : State) := runChip (Chip.reacquired ch deltaL deltaC) s
def execRdTsPortDataWrite (g : Fin 32) (data : Wide) (s : State) := runChip (fun c => answerWrite (c.tsPortWrite g data.toNat)) s
def execRdTsPortDataRead (g : Fin 32) (s : State) := runChip (fun c => (c.tsPortRead g).2.answer rspOk (c.tsPortRead g).1) s
def execRdTsPopRead (g : Fin 32) (s : State) := runChip (fun c => (c.tsPop g).2.answer rspOk (c.tsPop g).1) s
def execRdUcalWrite (ch : Fin 256) (data : Wide) (s : State) :=
  runChip (fun c => (c.ucalWrite ch ((List.range 6).map (fun i => bits data.toNat (16 * i + 15) (16 * i)))).answer rspOk 0) s
def execRdCntClr (g : Fin 32) (data : Word) (s : State) := runChip (fun c => (c.clearBits (rdCounters g) data.toNat).answer rspOk 0) s
def execChRdStatus (p : Pkt) (s : State) := runAon (Chip.command cmdRdStatus p) s
def execChRdTsWrite (p : Pkt) (s : State) := runAon (Chip.command cmdRdTsWrite p) s
def execChRdTsRead (p : Pkt) (s : State) := runAon (Chip.command cmdRdTsRead p) s
def execChRdCalWrite (p : Pkt) (s : State) := runAon (Chip.command cmdRdCalWrite p) s
def execChRdCalRead (p : Pkt) (s : State) := runAon (Chip.command cmdRdCalRead p) s
def execChRdCheck (p : Pkt) (s : State) := runAon (Chip.command cmdRdCheck p) s

end Sys2Proof.Machine
end

