-- ==== Sys2Proof/Machine/Pe.lean ====
section
/-! DEFINITION. Pattern engines (chapter 4): the instruction word, ALUs, data generator, sequencer, pause points and
holds, run control, gangs, and the engine commands. -/

namespace Sys2Proof.Machine

/-! ## The instruction word (Table 4.1) -/

def iSeq (w : Nat) : Nat := bits w 4 0
def iTgt (w : Nat) : Nat := bits w 20 5
def iLc (w : Nat) : Nat := bits w 24 21
def iCnd (w : Nat) : Nat := bits w 29 25
def iCneg (w : Nat) : Bool := w.testBit 30
def iPp (w : Nat) : Bool := w.testBit 31
def iImma (w : Nat) : Nat := bits w 63 32
def iXop (w : Nat) : Nat := bits w 67 64
def iXr (w : Nat) : Nat := bits w 70 68
def iYop (w : Nat) : Nat := bits w 75 72
def iYr (w : Nat) : Nat := bits w 78 76
def iYcc (w : Nat) : Bool := w.testBit 79
def iDsrc (w : Nat) : Nat := bits w 82 80
def iDop (w : Nat) : Nat := bits w 86 83
def iDwe (w : Nat) : Bool := w.testBit 87
def iDdst (w : Nat) : Nat := bits w 90 88
def iDrot (w : Nat) : Nat := bits w 97 91
def iDinv (w : Nat) : Bool := w.testBit 98
def iMsel (w : Nat) : Nat := bits w 102 99
def iAscr (w : Nat) : Nat := bits w 105 104
def iDscr (w : Nat) : Bool := w.testBit 106
def iPmap (w : Nat) : Nat := bits w 108 107
def iPmen (w : Nat) : Bool := w.testBit 109
def iPmode (w : Nat) : Nat := bits w 117 110
def iVsrc (w : Nat) : Nat := bits w 119 118
def iTset (w : Nat) : Nat := bits w 127 120
def iFle (w : Nat) : Bool := w.testBit 128
def iDmap (w : Nat) : Nat := bits w 130 129
def iFclr (w : Nat) : Bool := w.testBit 132
def iGfset (w : Nat) : Nat := bits w 136 133
def iGfclr (w : Nat) : Nat := bits w 140 137
def iSte (w : Nat) : Bool := w.testBit 141
def iStop (w : Nat) : Nat := bits w 144 142
def iImmb (w : Nat) : Nat := bits w 191 160

def seqNEXT : Nat := 0x00
def seqJMP : Nat := 0x01
def seqJC : Nat := 0x02
def seqCALL : Nat := 0x03
def seqRET : Nat := 0x04
def seqLOOP : Nat := 0x05
def seqLDLC : Nat := 0x06
def seqREPEAT : Nat := 0x07
def seqWAITF : Nat := 0x08
def seqSYNC : Nat := 0x09
def seqPAUSE : Nat := 0x0A
def seqHALT : Nat := 0x0B

/-- The word with another sequencer operation. -/
def withSeq (seq w : Nat) : Nat := w / 32 * 32 + seq

/-- A reserved bit is set or a reserved code appears (R110, R111). -/
def wordReserved (w : Nat) : Bool :=
  w.testBit 71 || w.testBit 103 || w.testBit 131 || bits w 159 145 ≠ 0 || bits w 255 192 ≠ 0 ||
  decide (0x0C ≤ iSeq w) || decide (0x15 ≤ iCnd w) || decide (0xC ≤ iXop w) || decide (0xC ≤ iYop w) ||
  decide (9 ≤ iDop w) || iAscr w = 3 || iVsrc w = 3

/-! ## Gangs (R133) -/

/-- The engines that run with engine `k`, lowest first; the first is the leader. -/
def Chip.gang (c : Chip) (k : Nat) : List Nat :=
  if c.is (F.PE_CTL_GANG_EN k) then
    engines.filter (fun j => c.is (F.PE_CTL_GANG_EN j) && c.get (F.PE_CTL_GANG_LEADER j) = c.get (F.PE_CTL_GANG_LEADER k))
  else [k]

/-- The leader of engine `k`'s gang, or `k` itself. -/
def Chip.gangLeader (c : Chip) (k : Nat) : Nat := if c.is (F.PE_CTL_GANG_EN k) then c.get (F.PE_CTL_GANG_LEADER k) else k

/-- Whether engine `k` belongs to a cross-device gang (R134). -/
def Chip.xsys (c : Chip) (k : Nat) : Bool := c.is (F.PE_CTL_GANG_EN k) && c.is (F.PE_CTL_XSYS k)

/-- Whether an instruction is illegal for engine `k` (R111, R133, R134). -/
def Chip.illegal (c : Chip) (k w : Nat) : Bool :=
  let s := iSeq w
  let held := s = seqWAITF || s = seqSYNC || s = seqPAUSE
  wordReserved w || decide (8 < iMsel w) || (held && !iPp w) || (s = seqREPEAT && iImma w = 0) ||
  (iVsrc w = 1 && !(c.eng k).streamOn) ||
  (held && c.gangLeader k ≠ k) ||
  ((s = seqWAITF || s = seqPAUSE) && c.xsys k)

/-! ## Conditions (R113) -/

def Chip.xreg (c : Chip) (k r : Nat) : Nat := c.get (F.PE_XALU_VAL k r)
def Chip.yreg (c : Chip) (k r : Nat) : Nat := c.get (F.PE_YALU_VAL k r)

/-- User flags: zero while `UPORT_EN` is clear or the region is off or retired (R124). -/
def Chip.userFlags (c : Chip) (k : Nat) : Nat :=
  let r := c.rgState (c.get (F.PE_CTL_UPORT_REGION k))
  if c.is (F.PE_CTL_UPORT_EN k) && r ≠ rgOff && r ≠ rgRetired then (c.eng k).uf else 0

/-- Whether every cycle before cycle `n` has been compared (R125). -/
def Chip.cdone (c : Chip) (k n : Nat) : Bool := (c.eng k).cmpQ.all (fun cy => decide (n ≤ cy.num))

/-- The condition of an instruction whose own cycle is `n` (Table 4.3). -/
def Chip.peCond (c : Chip) (k w n : Nat) : Bool :=
  let x := c.xreg k 0 = c.xreg k 2
  let y := c.yreg k 0 = c.yreg k 2
  let v := match iCnd w with
    | 0x00 => true
    | 0x01 => c.get (F.PE_LC_VAL k (iLc w)) = 0
    | 0x02 => x
    | 0x03 => y
    | 0x04 => (c.eng k).xcy
    | 0x05 => (c.eng k).ycy
    | 0x06 => x && y
    | 0x07 => c.is (F.PE_STAT_FAIL k)
    | 0x08 => c.cdone k n
    | q => if q ≤ 0x10 then (c.userFlags k).testBit (q - 0x09) else (c.get (F.PE_STAT_GF k)).testBit (q - 0x11)
  v != iCneg w

/-! ## Address ALUs (R115) -/

/-- One ALU operation on the register values `v`: the register written and its value, and the carry after. -/
def aluOp (op r imm : Nat) (v : Nat → Nat) (cy : Bool) : Option (Nat × Nat) × Bool :=
  let a := v 0
  let inc := (a + v r) % 2 ^ 32
  let dec := (a + 2 ^ 32 - v r) % 2 ^ 32
  match op with
  | 0x1 => (some (0, inc), false)
  | 0x2 => (some (0, dec), false)
  | 0x3 => if a = v 2 then (some (0, v 1), true) else (some (0, inc), false)
  | 0x4 => if a = v 1 then (some (0, v 2), true) else (some (0, dec), false)
  | 0x5 => (some (0, v 1), false)
  | 0x6 => (some (0, v 2), false)
  | 0x7 => (some (0, imm), false)
  | 0x8 => (some (r, imm), false)
  | 0x9 => (some (6, a), false)
  | 0xA => (some (0, v 6), false)
  | 0xB => (some (0, a ^^^ v 7), false)
  | _ => (none, cy)

/-- Whether Y's operation runs (R115): with `YCC`, only on a carry that X's INCW or DECW sets. -/
def yRuns (w : Nat) (xcy : Bool) : Bool := !iYcc w || ((iXop w = 3 || iXop w = 4) && xcy)

/-- Both ALU operations of an instruction (R109, R115). -/
def Chip.aluStep (k w : Nat) (c : Chip) : Chip :=
  let x := aluOp (iXop w) (iXr w) (iImmb w) (c.xreg k) (c.eng k).xcy
  let y := if yRuns w x.2 then aluOp (iYop w) (iYr w) (iImmb w) (c.yreg k) (c.eng k).ycy else (none, (c.eng k).ycy)
  let c := match x.1 with
    | some p => c.set (F.PE_XALU_VAL k p.1) p.2
    | none => c
  let c := match y.1 with
    | some p => c.set (F.PE_YALU_VAL k p.1) p.2
    | none => c
  c.setEng k (fun e => { e with xcy := x.2, ycy := y.2 })

/-! ## Data generator and scramble (R116 to R120) -/

/-- All ones in 128 bits. -/
def ones128 : Nat := 2 ^ 128 - 1

/-- One LFSR step: the new state and its new bit (R117). -/
def lfsrStep (s : Nat) : Nat :=
  let b := (bit s 63 + bit s 62 + bit s 60 + bit s 59) % 2
  (2 * s + b) % 2 ^ 64

/-- 128 LFSR steps: the state after, and the word of new bits (Table 4.5). -/
def prbs (s : Nat) : Nat × Nat :=
  (List.range 128).foldl (fun p i => let t := lfsrStep p.1; (t, p.2 + bit t 0 * 2 ^ i)) (s, 0)

/-- The physical address of a logical one (R118); `e` is the scramble entry at an index. -/
def scramble (ascr : Nat) (e : Nat → Nat) (x y : Nat) : Nat × Nat :=
  match ascr with
  | 1 => let v := e (x % 4096); (x / 4096 * 4096 + bits v 11 0, y ^^^ bits v 23 12)
  | 2 => let v := e (y % 4096); (x ^^^ bits v 23 12, y / 4096 * 4096 + bits v 11 0)
  | _ => (x, y)

/-- The result G0 of a data operation (Table 4.5); PRBS takes the word of new bits. -/
def dataOp (op s drot x y : Nat) (rnd : Nat) : Nat :=
  let inv := ones128 - s
  match op with
  | 0x0 => s
  | 0x1 => inv
  | 0x2 => ((s <<< drot) ||| (s >>> (128 - drot))) % 2 ^ 128
  | 0x3 => ((s >>> drot) ||| (s <<< (128 - drot))) % 2 ^ 128
  | 0x4 => if (bit x 0 + bit y 0) % 2 = 1 then inv else s
  | 0x5 => if bit y 0 = 1 then inv else s
  | 0x6 => if bit x 0 = 1 then inv else s
  | 0x7 => (y % 65536 * 65536 + x % 65536) * (1 + 2 ^ 32 + 2 ^ 64 + 2 ^ 96)
  | _ => rnd

/-- 128 bits from a bit function. -/
def bits128 (f : Nat → Bool) : Nat := (List.range 128).foldl (fun v i => v + b2n (f i) * 2 ^ i) 0

/-- A word in which the 16 bits `m` stand in every UI. -/
def everyUi (m : Nat) : Nat := (List.range 8).foldl (fun v u => v + m * 2 ^ (16 * u)) 0

/-- One bit through a pin map entry (R120). -/
def pinBit (code i g x y : Nat) : Bool :=
  if code < 0x20 then x.testBit code
  else if code < 0x40 then y.testBit (code - 0x20)
  else if code = 0x40 then g.testBit i
  else if code = 0x42 then true
  else if code = 0x43 then !g.testBit i
  else false

/-- A scramble entry as the cycle sees it (R118, R121). -/
def Chip.ascrAt (c : Chip) (k cyc j : Nat) : Nat := c.getTimed k (F.PE_ASCR_E k (j / 2) (j % 2)) cyc

/-- A data-scramble entry as the cycle sees it. -/
def Chip.dscrAt (c : Chip) (k cyc j : Nat) : Nat := c.getTimed k (F.PE_DSCR_E k (j / 4) (j % 4)) cyc

/-- A data register as the cycle sees it. -/
def Chip.dataReg (c : Chip) (k cyc j : Nat) : Nat := c.getTimed k (F.PE_D_VAL k j) cyc

/-- A register that the engine itself writes: the next instruction sees it (R109). -/
def Chip.setNow (k : Nat) (f : Fld) (v : Nat) (c : Chip) : Chip :=
  Chip.set f v { c with rd := { c.rd with prev := tdel (prevKey k 1 f.off) c.rd.prev } }

/-- The words of a cycle formed by the generator or from a user vector (R119, R124): DATA, EXPECT, CMASK, DRIVE. -/
def Chip.formWords (c : Chip) (k w cyc g0 x y : Nat) : Nat × Nat × Nat × Nat :=
  let g := if iDinv w then ones128 - g0 else g0
  let g := if iDscr w then g ^^^ everyUi (c.dscrAt k cyc (y % 64 * 64 + x % 64)) else g
  let data := if iPmen w then bits128 (fun i =>
      let e := 128 * iPmap w + i
      pinBit (c.getTimed k (F.PE_PINMAP_E k (e / 8) (e % 8)) cyc) i g x y) else g
  let pm := c.getTimed k (F.PE_PINMODE_W k (iPmode w)) cyc
  let mode := fun i => let gr := c.getTimed k (F.PE_GRP_G k (i % 16)) cyc; bits pm (16 * (i / 16) + 2 * gr + 1) (16 * (i / 16) + 2 * gr)
  let drive := bits128 (fun i => mode i = 0 || mode i = 3)
  let cm := bits128 (fun i => mode i = 0 || mode i = 2)
  let mask := if iMsel w = 0 then 0 else c.dataReg k cyc (iMsel w - 1)
  (data, data, cm ||| mask, drive)

/-- The domain ID of a cycle (R125). -/
def Chip.domainOf (c : Chip) (k m x y : Nat) : Nat :=
  let xw := c.get (F.PE_DM_XW k m)
  let xi := (x >>> c.get (F.PE_DM_XSH k m)) % 2 ^ xw
  let yi := (y >>> c.get (F.PE_DM_YSH k m)) % 2 ^ c.get (F.PE_DM_YW k m)
  (c.get (F.PE_DM_BASE k m) + yi * 2 ^ xw + xi) % 2 ^ 20

/-- The cycle that an instruction of engine `k` emits, from the state at its start, and the state in which its vector
is consumed, its data operation performed and D written (R109, R116, R119, R122, R124). -/
def Chip.formCycle (k w : Nat) (c : Chip) : Cycle × Chip :=
  let n := c.get (F.PE_CYCLE_COUNT k)
  let uv := (c.eng k).uport.headD 0
  let la := if iVsrc w = 2 then (bits uv 159 128, bits uv 191 160) else (c.xreg k 0, c.yreg k 0)
  let pa := scramble (iAscr w) (c.ascrAt k n) la.1 la.2
  let cy := fun (q : Nat × Nat × Nat × Nat) =>
    ({ num := n, m := 0, unit := 0, lanes := [], data := q.1, expect := q.2.1, cmask := q.2.2.1, drive := q.2.2.2, tset := iTset w, fle := iFle w,
       x := pa.1, y := pa.2, dom := c.domainOf k (iDmap w) pa.1 pa.2, held := false } : Cycle)
  if iVsrc w = 1 then
    let v := match (c.eng k).stream.head? with
      | some (.ok b) => b
      | _ => 0
    (cy (bits v 127 0, bits v 255 128, bits v 383 256, bits v 511 384),
      c.setEng k (fun e => { e with stream := e.stream.tail, streamUse := e.streamUse + 1 }))
  else
    let l := c.get (F.PE_LFSR_VAL k)
    let run := iVsrc w = 0 && iDop w = 8
    let p := if run then prbs l else (l, 0)
    let g0 := if iVsrc w = 2 then bits uv 127 0
      else dataOp (iDop w) (c.dataReg k n (iDsrc w)) (iDrot w) pa.1 pa.2 p.2
    let c' := if run then c.set (F.PE_LFSR_VAL k) p.1 else c
    let c' := if iDwe w then c'.setNow k (F.PE_D_VAL k (iDdst w)) g0 else c'
    let c' := if iVsrc w = 2 then c'.setEng k (fun e => { e with uport := e.uport.tail }) else c'
    (cy (c.formWords k w n g0 pa.1 pa.2), c')

/-! ## The sequencer (R112, R114) -/

/-- The address after an address; 65,536 past the last (R112). -/
def fallThrough (pc : Nat) : Nat := pc + 1

/-- The sequencer operation of an instruction at `pc`, with the condition's value at its start: next address, stack, loop
counter and repetitions. -/
def Chip.sequence (k w pc : Nat) (ok : Bool) (c : Chip) : Chip :=
  let next := fun (a : Nat) => Chip.setEng k (fun e => { e with npc := a, reps := 0 })
  let d := c.get (F.PE_STAT_STACK_DEPTH k)
  match iSeq w with
  | 0x01 => next (iTgt w) c
  | 0x02 => next (if ok then iTgt w else fallThrough pc) c
  | 0x03 => next (iTgt w) ((c.set (F.PE_STACK_ADDR k d) (pc + 1)).set (F.PE_STAT_STACK_DEPTH k) (d + 1))
  | 0x04 => next (c.get (F.PE_STACK_ADDR k (d - 1))) (c.set (F.PE_STAT_STACK_DEPTH k) (d - 1))
  | 0x05 =>
    let v := (c.get (F.PE_LC_VAL k (iLc w)) + 2 ^ 32 - 1) % 2 ^ 32
    next (if v = 0 then fallThrough pc else iTgt w) (c.set (F.PE_LC_VAL k (iLc w)) v)
  | 0x06 => next (fallThrough pc) (c.set (F.PE_LC_VAL k (iLc w)) (iImma w))
  | 0x07 =>
    let n := (c.eng k).reps + 1
    if n < iImma w then c.setEng k (fun e => { e with npc := pc, reps := n }) else next (fallThrough pc) c
  | _ => next (fallThrough pc) c

/-! ## Hold causes (Table 4.6) -/

def hwCap : Nat := 0
def hwTherm : Nat := 1
def hwWait : Nat := 2
def hwSync : Nat := 3
def hwPause : Nat := 4
def hwStream : Nat := 5
def hwUport : Nat := 6
def hwGang : Nat := 7

/-- Whether hold cause `THERM` is present: for the first (1 − S ÷ 256) × 10 µs of each 10 µs of the time base (Table 14.3). -/
def Chip.thermReq (c : Chip) (k : Nat) : Bool :=
  decide (c.get F.WW_TB_TIME % 3750 * 256 < (256 - c.get (F.TH_EZONE_S k)) * 3750)

/-- Capture, thermal, stream and user-port causes of one engine, at their bits (R123, R124, R143). -/
def Chip.plainCauses (c : Chip) (k : Nat) : Nat :=
  let e := c.eng k
  b2n (c.capReq k) + 2 * b2n (c.thermReq k) +
  32 * b2n (e.streamOn && decide (e.stream.length < 2048) && decide (e.streamReq < c.get (F.PE_STREAM_LEN_LEN k))) +
  64 * b2n (c.is (F.PE_CTL_UPORT_EN k) && e.uport.isEmpty)

/-- The condition of the WAITF at which engine `k` holds, now or at its start, or its timeout (R112). -/
def Chip.waitMet (c : Chip) (k : Nat) (p : Pause) : Bool := p.met || c.peCond k p.word p.cyc.num

/-- The WAITF at which engine `k` holds has held `IMMA` cycles with its condition false (R112). -/
def Chip.waitExpired (c : Chip) (k : Nat) (p : Pause) : Bool :=
  iSeq p.word = seqWAITF && iImma p.word ≠ 0 && decide (iImma p.word ≤ p.held) && !c.waitMet k p

/-- The causes of engine `k` alone at its pause point (Table 4.6); in a cross-device gang only SYNC and PAUSE act (R134). -/
def Chip.ownCauses (c : Chip) (k : Nat) : Nat :=
  match (c.eng k).pause with
  | none => 0
  | some p =>
    (if c.xsys k then 0 else c.plainCauses k) +
    4 * b2n (iSeq p.word = seqWAITF && c.gangLeader k = k && !c.waitMet k p && !c.waitExpired k p) +
    8 * b2n (iSeq p.word = seqSYNC && c.gangLeader k = k && !p.met) +
    16 * b2n (c.peState k = pePaused)

/-- `HOLD_WHY` of engine `k`: its causes, and GANG for another member's (R133). -/
def Chip.holdWhy (c : Chip) (k : Nat) : Nat :=
  if (c.eng k).pause.isNone then 0
  else c.ownCauses k + 128 * b2n ((c.gang k).any (fun j => j ≠ k && c.ownCauses j ≠ 0))

/-- Whether engine `k` is at a pause point with a cause present. -/
def Chip.holding (c : Chip) (k : Nat) : Bool := c.holdWhy k ≠ 0

/-- `PE_STAT` (Table 4.10). -/
def Chip.peStat (c : Chip) (k : Nat) : Nat :=
  c.peState k + 16 * b2n (c.thermReq k) + 32 * b2n (c.capReq k) + 64 * b2n (c.holding k) +
    2 ^ 7 * c.holdWhy k + 2 ^ 15 * c.get (F.PE_STAT_FAIL k) + 2 ^ 16 * c.get (F.PE_STAT_GF k) + 2 ^ 20 * c.get (F.PE_STAT_PC k) +
    2 ^ 36 * c.get (F.PE_STAT_STACK_DEPTH k) + 2 ^ 40 * (c.eng k).stream.length + 2 ^ 55 * (c.eng k).uport.length

/-! ## Cross-device gangs (R134, R355, R356) -/

/-- The other devices of the cross-device gang. -/
def Chip.xgDevs (c : Chip) : List Nat :=
  if c.is F.WW_XG_CTL_EN then (List.range (c.get F.WW_XG_CTL_COUNT)).map (fun i => c.get (F.WW_XG_DEV_DEV (i / 4) (i % 4))) else []

/-- The period of SYNC ticks of an engine; 0 is treated as 1 (Table 4.8). -/
def Chip.syncPeriod (c : Chip) (k : Nat) : Nat := max 1 (c.get (F.PE_SYNC_PERIOD_TICKS k))

/-- The first multiple of `p` at or after `t`. -/
def ceilTo (p t : Nat) : Nat := (t + p - 1) / p * p

/-- Whether a cause that a cross-device gang announces is present in any member. -/
def Chip.xgCause (c : Chip) (ms : List Nat) : Bool :=
  ms.any (fun k => c.plainCauses k ≠ 0 || (c.eng k).pauseReq ≠ [] || c.peState k = pePaused)

/-- Announce a hold that arose or ended, tagged with the first SYNC tick at least 2 µs later (R134, R355). -/
def Chip.xgAnnounce (ms : List Nat) (c : Chip) : Chip :=
  let l := ms.headD 0
  let v := c.xgCause ms
  if !c.xsys l || v = c.xg.held then c
  else
    let t := ceilTo (c.syncPeriod l) (c.get F.WW_TB_TIME + 750)
    let why := ms.foldl (fun a k => a ||| c.plainCauses k) 0 ||| 16 * b2n (ms.any (fun k => (c.eng k).pauseReq ≠ [] || c.peState k = pePaused))
    let c := c.forAll c.xgDevs (fun d => Chip.wwTo d wtHoldAnn 1 [t, b2n v, why])
    { c with xg := { anns := c.xg.anns ++ [(c.get F.WW_ID_DEVICE_ID, t, v)], held := v } }

/-- Whether the hold of a device is in effect at a tick: its latest announcement for a tick at or before it (R355). -/
def xgHeldBy (anns : List (Nat × Nat × Bool)) (d t : Nat) : Bool :=
  (anns.foldl (fun s a => if a.1 = d ∧ a.2.1 ≤ t then a.2.2 else s) false)

/-- Whether any member's announced hold is in effect at a tick. -/
def Chip.xgHeldAt (c : Chip) (t : Nat) : Bool := c.xg.anns.any (fun a => xgHeldBy c.xg.anns a.1 t)

/-! ## The end of a run (R129, R131, R132) -/

def fcILLEGAL : Nat := 0x01
def fcSTACK_OVF : Nat := 0x02
def fcSTACK_UNF : Nat := 0x03
def fcPC_END : Nat := 0x04
def fcSTREAM_UNDERRUN : Nat := 0x05
def fcSTREAM_END : Nat := 0x06
def fcSTREAM_ERROR : Nat := 0x07
def fcUPORT_UNDERRUN : Nat := 0x08
def fcGANG : Nat := 0x09
def fcSTATE_EXIT : Nat := 0x0A

def dtNotLeader : Nat := 0x41
def dtGangClock : Nat := 0x42
def dtTickPast : Nat := 0x43
def dtWaitTick : Nat := 0x44
def dtPrefillLate : Nat := 0x45
def dtNotPaused : Nat := 0x46
def dtNotRunning : Nat := 0x47
def dtEndedByHalt : Nat := 0x48

/-- The argument of an engine event (R137). -/
def Chip.peArg (c : Chip) (k mid : Nat) : Nat := k + 16 * c.peState k + 256 * mid + 65536 * c.get (F.PE_STAT_PC k)

/-- The address at which engine `k` stands: the held instruction, or the one about to be issued. -/
def Chip.peAt (c : Chip) (k : Nat) : Nat := if c.holding k then c.get (F.PE_STAT_PC k) else min 65535 (c.eng k).npc

/-- One engine's part of the end of a run: state, fault record, one event, DEN (R89, R129, R132). -/
def Chip.endEngine (k st code addr : Nat) (c : Chip) : Chip :=
  let began := c.peState k ≠ peArmed
  let c := if code = 0 then c else (c.set (F.PE_FAULT_CODE k) code).set (F.PE_FAULT_ADDR k) addr
  let c := if st = peFault || st = peAborted then c.set (F.PE_STAT_PC k) addr else c
  let c := (c.set (F.PE_STAT_STATE k) st).setEng k (fun e => { e with pause := none, startTick := none, stream := [], prefilled := false })
  let c := if began then c.idleDen k else c
  c.raise (if st = peFault then EV_PE_FAULT else EV_PE_DONE) (c.peArg k (c.get (F.PE_FAULT_CODE k)))

/-- The replies of commands that wait on a run that ended in state `st`; `by_` is the status that a reset or a state
exit gives them, if any (R60, R130, Table 4.12). -/
def Chip.endWaiters (k st : Nat) (byReset : Bool) (c : Chip) : Chip :=
  let e := c.eng k
  let c := c.setEng k (fun e => { e with startSlot := none, pauseReq := [], stopReq := [] })
  let c := c.forAll e.startSlot.toList (fun id => Chip.fail id (if byReset then ST_TARGET_RESET else ST_ABORTED) dtNone)
  let c := c.forAll e.pauseReq (fun id => if byReset then Chip.fail id ST_TARGET_RESET dtNone else Chip.fail id ST_BAD_STATE dtNotRunning)
  c.forAll e.stopReq (fun id =>
    if byReset then Chip.fail id ST_TARGET_RESET dtNone
    else if st = peStopped then Chip.fail id ST_OK dtNone
    else if st = peDone then Chip.fail id ST_OK dtEndedByHalt
    else Chip.fail id ST_BAD_STATE dtNotRunning)

/-- The end of a run of a gang in one end state, with each member's code. -/
def Chip.endRun (ms : List Nat) (st : Nat) (code : Nat → Nat) (byReset : Bool) (c : Chip) : Chip :=
  let addrs := ms.map (fun k => (k, c.peAt k))
  let c := c.forAll addrs (fun p => Chip.endEngine p.1 st (code p.1) p.2)
  c.forAll ms (fun k => Chip.endWaiters k st byReset)

/-- Send XG_FAULT to every listed device (R356). -/
def Chip.xgSendFault (c : Chip) : Chip :=
  c.forAll c.xgDevs (fun d => Chip.wwTo d wtXgFault 1 [c.get F.WW_ID_DEVICE_ID])

/-- A fault in member `k` ends the whole gang in FAULT, the others with code GANG (R133, R356). -/
def Chip.faultRun (ms : List Nat) (k code : Nat) (c : Chip) : Chip :=
  let x := c.xsys (ms.headD 0)
  let c := c.endRun ms peFault (fun j => if j = k then code else fcGANG) false
  if x then c.xgSendFault else c

/-- Every member's run ends in FAULT with code GANG: the gang of a device that XG_FAULT or a late announcement reaches. -/
def Chip.gangFault (ms : List Nat) (c : Chip) : Chip := c.endRun ms peFault (fun _ => fcGANG) false

/-- Leaving USER ends every run in ABORTED with STATE_EXIT (R131). -/
def Chip.leaveUser (c : Chip) : Chip :=
  let leaders := engines.filter (fun k => c.peActive k && c.gangLeader k = k)
  c.forAll leaders (fun l c => c.endRun (c.gang l) peAborted (fun _ => fcSTATE_EXIT) false)

/-! ## Issuing a cycle -/

/-- The fault that keeps engine `k` from issuing word `w` (R111, R112, R114, R122 to R124). -/
def Chip.issueFault (c : Chip) (k w : Nat) : Option Nat :=
  let e := c.eng k
  let d := c.get (F.PE_STAT_STACK_DEPTH k)
  if 65536 ≤ e.npc then some fcPC_END
  else if c.illegal k w then some fcILLEGAL
  else if iSeq w = seqCALL ∧ 8 ≤ d then some fcSTACK_OVF
  else if iSeq w = seqRET ∧ d = 0 then some fcSTACK_UNF
  else if iVsrc w = 1 then
    if c.get (F.PE_STREAM_LEN_LEN k) ≤ e.streamUse then some fcSTREAM_END
    else match e.stream.head? with
      | none => some fcSTREAM_UNDERRUN
      | some .bad => some fcSTREAM_ERROR
      | some (.ok _) => none
  else if iVsrc w = 2 ∧ e.uport = [] then some fcUPORT_UNDERRUN
  else none

/-- The regions bound to engine `k` (R126). -/
def Chip.boundRegions (c : Chip) (k : Nat) : List Nat :=
  (List.range 192).filter (fun r => (c.get (F.PE_STOPBIND_MASK k (r / 64))).testBit (r % 64))

/-- Send the stop request of an instruction with `STE` to every bound region; each arrives later (R126). -/
def Chip.sendStops (k w : Nat) (c : Chip) : Chip :=
  if iSte w then
    c.forAll (c.boundRegions k) (fun r c => ({ c with stops := c.stops ++ [(r, 1, iStop w)] } : Chip).emit (.stopReq r (iStop w)))
  else c

/-- Issue word `w` on engine `k`: the cycle it emits and every effect of its operations (R109); gang flags are applied
for all members together. -/
def Chip.issue (k w : Nat) (c : Chip) : Chip :=
  let pc := (c.eng k).npc
  let n := c.get (F.PE_CYCLE_COUNT k)
  let ok := c.peCond k w n
  let r := c.formCycle k w
  let cy := c.laneUses k r.1
  let c := r.2.aluStep k w
  let c := (c.sequence k w pc ok).set (F.PE_STAT_PC k) pc
  let c := if iFclr w then c.set (F.PE_STAT_FAIL k) 0 else c
  let c := (c.emitCycle k cy).sendStops k w
  let c := c.setEng k (fun e => { e with
    cmpQ := e.cmpQ ++ [cy],
    pause := some { word := w, cyc := cy, held := 0, met := ok && iSeq w = seqWAITF, began := c.get F.WW_TB_TIME, long := false } })
  c.set (F.PE_CYCLE_COUNT k) (n + 1)

/-- The gang flags after a cycle: those cleared and set by any member; setting wins (Table 4.1, R133). -/
def gangFlags (gf : Nat) (ws : List Nat) : Nat :=
  let sets := ws.foldl (fun a w => a ||| iGfset w) 0
  let clrs := ws.foldl (fun a w => a ||| iGfclr w) 0
  (gf &&& (15 - clrs)) ||| sets

/-- Enter PAUSED at a pause point; pause commands that wait end (R127, Table 4.12). -/
def Chip.enterPaused (ms : List Nat) (c : Chip) : Chip :=
  let c := c.forAll ms (fun k c => (c.set (F.PE_STAT_STATE k) pePaused).raise EV_PE_PAUSED ((c.set (F.PE_STAT_STATE k) pePaused).peArg k (c.get (F.PE_FAULT_CODE k))))
  c.forAll ms (fun k c =>
    (c.setEng k (fun e => { e with pauseReq := [] })).forAll (c.eng k).pauseReq (fun id => Chip.ok id []))

/-- The WAITF of the leader has timed out: the next instruction is at `TGT` (R112). -/
def Chip.waitfExpire (l : Nat) (c : Chip) : Chip :=
  match (c.eng l).pause with
  | none => c
  | some p =>
    if c.waitExpired l p then
      c.setEng l (fun e => { e with npc := iTgt p.word, pause := some { p with met := true } })
    else c

/-- What follows an emitted cycle of a gang, in the order of R129: falling through past the last address in a member that does not
halt, HALT, stop requests, pause points (R112, R127). In a cross-device gang a pause waits for its tick at a SYNC (R134). -/
def Chip.afterCycle (ms : List Nat) (ws : List (Nat × Nat)) (c : Chip) : Chip :=
  let l := ms.headD 0
  let lw := ((ws.find? (fun p => p.1 = l)).map Prod.snd).getD 0
  let holds := iPp lw && (!c.xsys l || iSeq lw = seqSYNC)
  let c := if holds then c else c.forAll ms (fun k => Chip.setEng k (fun e => { e with pause := none }))
  let fell := ws.find? (fun p => iSeq p.2 ≠ seqHALT && decide (65536 ≤ (c.eng p.1).npc))
  match (if c.holding l then none else fell) with
  | some p => c.faultRun ms p.1 fcPC_END
  | none =>
    if ws.any (fun p => iSeq p.2 = seqHALT) then c.endRun ms peDone (fun _ => 0) false
    else if !iPp lw then c
    else if ms.any (fun k => (c.eng k).stopReq ≠ []) then c.endRun ms peStopped (fun _ => 0) false
    else if iSeq lw = seqPAUSE || (ms.any (fun k => (c.eng k).pauseReq ≠ []) && !c.xsys l) then c.enterPaused ms
    else c

/-- ENGINE_CYCLE: the gang of engine `pe` issues one instruction per member, unless it holds or does not run; `forced` gives
the word of engine `pe` in place of its instruction memory's (R109, R127, R133). -/
def Chip.engineCycle (pe : Nat) (forced : Option Nat) (c : Chip) : Chip :=
  let ms := c.gang pe
  let l := ms.headD 0
  if c.peState l ≠ peRunning then c
  else
    let c := c.xgAnnounce ms
    if c.holding l then c
    else
      let c := c.waitfExpire l
      let c := c.forAll ms (fun k => Chip.setEng k (fun e => { e with pause := none }))
      let ws := ms.map (fun k => (k, match forced with
        | some w => if k = pe then w else tget 0 (c.eng k).npc (c.eng k).im
        | none => tget 0 (c.eng k).npc (c.eng k).im))
      match ws.findSome? (fun p => (c.issueFault p.1 p.2).map (fun code => (p.1, code))) with
      | some f => c.faultRun ms f.1 f.2
      | none =>
        let gf := gangFlags (c.get (F.PE_STAT_GF l)) (ws.map Prod.snd)
        let c := c.forAll ws (fun p => Chip.issue p.1 p.2)
        let c := c.forAll ms (fun k => Chip.set (F.PE_STAT_GF k) gf)
        c.afterCycle ms ws

/-- HOLD_CYCLE: at a pause point with a cause present every member repeats its cycle with compare masked (R127). -/
def Chip.holdCycle (pe : Nat) (c : Chip) : Chip :=
  let ms := c.gang pe
  let l := ms.headD 0
  let c := c.xgAnnounce ms
  if !c.holding l then c
  else
    c.forAll ms (fun k c =>
      match (c.eng k).pause with
      | none => c
      | some p =>
        let n := c.get (F.PE_CYCLE_COUNT k)
        let cy := c.laneUses k { p.cyc with num := n, cmask := ones128, held := true, fle := false }
        let met := if iSeq p.word = seqWAITF then c.waitMet k p else p.met
        let c := c.emitCycle k cy
        let c := c.setEng k (fun e => { e with cmpQ := e.cmpQ ++ [cy], pause := some { p with held := p.held + 1, met := met } })
        (c.set (F.PE_CYCLE_COUNT k) (n + 1)).inc (F.PE_HOLD_COUNT k))

/-- HOLD_LONG: a hold of 1 ms, once per hold (R127). -/
def Chip.holdLong (pe : Nat) (c : Chip) : Chip :=
  let l := c.gangLeader pe
  match (c.eng l).pause with
  | none => c
  | some p =>
    if c.holding l && !p.long then
      (c.setEng l (fun e => { e with pause := some { p with long := true } })).raise EV_PE_HOLD_LONG (c.peArg l (c.holdWhy l))
    else c

/-- SYNC_TICK: a tick that is a multiple of the period and lies after the SYNC's own ends the hold, unless a member's
announced hold is in effect there. In a cross-device gang a pause of this device is entered at the first such tick at which its
announcement is in effect, and a paused gang does not resume (R134). -/
def Chip.syncTick (pe tick : Nat) (c : Chip) : Chip :=
  let ms := c.gang pe
  let l := ms.headD 0
  let c := c.xgAnnounce ms
  match (c.eng l).pause with
  | none => c
  | some p =>
    if !(iSeq p.word = seqSYNC && tick % c.syncPeriod l = 0 && decide (p.began < tick)) then c
    else if c.xsys l && (c.xgHeldAt tick || c.peState l = pePaused) then
      if c.peState l = peRunning && xgHeldBy c.xg.anns (c.get F.WW_ID_DEVICE_ID) tick && ms.any (fun k => (c.eng k).pauseReq ≠ []) then
        c.enterPaused ms
      else c
    else c.setEng l (fun e => { e with pause := some { p with met := true } })

/-! ## Starting a run (R130) -/

/-- Whether the prefill of every member is complete (R122). -/
def Chip.gangPrefilled (c : Chip) (ms : List Nat) : Bool := ms.all (fun k => !(c.eng k).streamOn || (c.eng k).prefilled)

/-- One member's registers at the start of a run (R130, R158). -/
def Chip.beginEngine (k tick : Nat) (c : Chip) : Chip :=
  let c := (((c.set (F.PE_STAT_STATE k) peRunning).set (F.PE_CYCLE_COUNT k) 0).set (F.PE_HOLD_COUNT k) 0).set (F.PE_START_TICK_TICK k) tick
  let c := ((c.set (F.PE_STAT_FAIL k) 0).set (F.PE_STAT_GF k) 0).set (F.PE_STAT_STACK_DEPTH k) 0
  let c := c.forAll (List.range 8) (fun j => Chip.set (F.PE_STACK_ADDR k j) 0)
  let c := c.setEng k (fun e => { e with npc := e.startAddr, reps := 0, pause := none, startTick := none })
  let c := if c.is (F.CAP_PE_CTL_FFL_KEEP k) then c else { c with cap := { c.cap with ffl := tdel k c.cap.ffl } }
  (c.forgetOld k).clearEdges k

/-- PE_START_TICK: cycle 0 of an armed run begins, at the named tick plus 64 or at a tick the engine chose (R130). -/
def Chip.startTick (pe tick : Nat) (c : Chip) : Chip :=
  let ms := c.gang pe
  let l := ms.headD 0
  if c.peState l = peArmed && c.gangPrefilled ms then
    let t := match (c.eng l).startTick with
      | some n => n + 64
      | none => tick
    let id := (c.eng l).startSlot
    let c := c.forAll ms (fun k => Chip.beginEngine k t)
    let c := c.setEng l (fun e => { e with startSlot := none })
    c.forAll id.toList (fun i => Chip.ok i [])
  else c

/-- A deferred start is withdrawn: every member returns to its previous state, and pause and stop commands that wait find no run
(R130, Table 4.12). -/
def Chip.withdrawStart (ms : List Nat) (c : Chip) : Chip :=
  c.forAll ms (fun k c =>
    let e := c.eng k
    let c := (c.setEng k (fun e => { e with pauseReq := [], stopReq := [] })).forAll (e.pauseReq ++ e.stopReq)
      (fun id => Chip.fail id ST_BAD_STATE dtNotRunning)
    let c := (c.set (F.PE_STAT_STATE k) e.prevState).set (F.PE_FAULT_CODE k) (e.prevFault % 256)
    (c.set (F.PE_FAULT_ADDR k) (e.prevFault / 256)).setEng k (fun e =>
      { e with startTick := none, startSlot := none, stream := [], prefilled := false }))

/-- PREFILL_LATE: 375 ticks before the named tick the prefill is not complete (R130). -/
def Chip.prefillLate (pe : Nat) (c : Chip) : Chip :=
  let ms := c.gang pe
  let l := ms.headD 0
  if c.peState l = peArmed && (c.eng l).startTick.isSome && !c.gangPrefilled ms then
    let id := (c.eng l).startSlot
    (c.withdrawStart ms).forAll id.toList (fun i => Chip.fail i ST_BAD_STATE dtPrefillLate)
  else c

/-- STREAM_PREFILL_DONE: the stream buffer is full or holds the whole stream (R122). -/
def Chip.prefillDone (pe : Nat) (c : Chip) : Chip :=
  let e := c.eng pe
  if c.peState pe = peArmed && e.streamOn && decide (min 16384 (c.get (F.PE_STREAM_LEN_LEN pe)) ≤ e.stream.length) then
    c.setEng pe (fun e => { e with prefilled := true })
  else c

/-- STREAM_READ_RESPONSE: the next vectors of the stream enter the buffer, or places whose read failed: refused at the row
port, or at or after a vector whose row froze the controller (R122, R123, R287). -/
def Chip.streamRead (pe : Nat) (ok : Bool) (count : Nat) (c : Chip) : Chip :=
  let e := c.eng pe
  if !c.peActive pe || !e.streamOn then c
  else
    let n := min count (min (16384 - e.stream.length) (c.get (F.PE_STREAM_LEN_LEN pe) - e.streamReq))
    let base := c.get (F.PE_STREAM_BASE_ADDR pe)
    let at' := fun (i : Nat) => base + 64 * (e.streamReq + i)
    let cut := ((List.range n).find? (fun i => c.rowBad (at' i) 64)).getD n
    let vs := (List.range n).map (fun i =>
      if ok && decide (i < cut) && (c.rowRefusal (at' i) 64).isNone then SVec.ok (leNat (memRead (at' i) 64 c.mem)) else SVec.bad)
    (if ok && decide (cut < n) then (c.rowReads (at' cut) 64).2 else c).setEng pe (fun e => { e with stream := e.stream ++ vs, streamReq := e.streamReq + n })

/-! ## User port (R124) -/

/-- UPORT_VECTOR_ARRIVAL: a user vector enters the buffer of 64; a full buffer takes none. -/
def Chip.uportVector (pe v : Nat) (c : Chip) : Chip :=
  if c.is (F.PE_CTL_UPORT_EN pe) && decide ((c.eng pe).uport.length < 64) then
    c.setEng pe (fun e => { e with uport := e.uport ++ [v] })
  else c

/-- UPORT_FLAG_UPDATE: the most recently received user flags. -/
def Chip.uportFlags (pe v : Nat) (c : Chip) : Chip :=
  if c.is (F.PE_CTL_UPORT_EN pe) then c.setEng pe (fun e => { e with uf := v }) else c

/-! ## Register accesses (R121, R126, R135) -/

/-- Store one instruction and advance the port address (Tables 4.8, 4.11). -/
def Chip.imStore (k a w : Nat) (c : Chip) : Chip := c.setEng k (fun e => { e with im := tput 0 (a % 65536) w e.im })

/-- A 128-bit write at `PE_IM_DATA` 0x0400: kept for the upper half. -/
def Chip.imDataLo (k v : Nat) (c : Chip) : Rsp × Chip :=
  if c.peActive k then (rspState, c) else (rspOk, c.setEng k (fun e => { e with imLo := v }))

/-- A 128-bit write at `PE_IM_DATA` 0x0410 (R121, R135). -/
def Chip.imDataHi (k v : Nat) (c : Chip) : Rsp × Chip :=
  if c.peActive k then (rspState, c)
  else
    let a := c.get (F.PE_IM_ADDR_ADDR k)
    let c := c.imStore k a ((c.eng k).imLo + v * 2 ^ 128)
    (rspOk, if c.is (F.PE_IM_ADDR_AUTOINC k) then c.set (F.PE_IM_ADDR_ADDR k) ((a + 1) % 65536) else c)

/-- A write of `PE_STOPBIND` (R126). -/
def Chip.stopBind (k j mask : Nat) (c : Chip) : Rsp × Chip :=
  if c.peActive k then (rspState, c)
  else if engines.any (fun i => i ≠ k && (c.get (F.PE_STOPBIND_MASK i j) &&& mask) ≠ 0) then (rspDenied, c)
  else (rspOk, c.set (F.PE_STOPBIND_MASK k j) mask)

/-- A write of `PE_CTL` (Table 4.9). -/
def Chip.peCtlWrite (k v : Nat) (c : Chip) : Rsp × Chip :=
  if c.peActive k then (rspState, c)
  else if 191 < bits v 27 20 then (rspRange, c)
  else (rspOk, ((c.set (F.PE_CTL_STREAM_EN k) (bit v 17)).set (F.PE_CTL_UPORT_EN k) (bit v 18)).set (F.PE_CTL_UPORT_REGION k) (bits v 27 20))

/-- Whether a write would place a reserved code or bit into an engine table (R121): `off` within the block, `n` bytes. -/
def peTableBad (off n v : Nat) : Bool :=
  if 0x2000 ≤ off ∧ off < 0x2200 then (List.range n).any (fun i => decide (0x44 ≤ bits v (8 * i + 7) (8 * i)))
  else if 0x4000 ≤ off ∧ off < 0x8000 then (List.range (n / 4)).any (fun i => bits v (32 * i + 31) (32 * i + 24) ≠ 0)
  else false

/-! ## Commands (R136) -/

/-- The refusal of a run command sent to a gang member that is not the leader (R133). -/
def Chip.notLeader (c : Chip) (k : Nat) : Bool := c.gangLeader k ≠ k

def cmdPeStatus : Cmd := Cmd.plain 0x03 0x00 live engChk (fun id pl c =>
  let k := pf pl 0 4
  c.ok id (natLe 8 (c.regWord (F.PE_CTL_FSTEP k).off) ++ natLe 8 (c.peStat k) ++ natLe 8 (c.get (F.PE_CYCLE_COUNT k)) ++
    natLe 8 (c.get (F.PE_HOLD_COUNT k)) ++ natLe 8 (c.regWord (F.PE_FAULT_CODE k).off) ++ natLe 8 (c.get (F.PE_START_TICK_TICK k))))

def cmdPeLoad : Cmd := Cmd.plain 0x03 0x01 live
  (fun _ pl =>
    if pl.length < 8 then some (ST_BAD_LENGTH, dtNone)
    else if 16 ≤ pb pl 0 ∨ pb pl 1 ≠ 0 ∨ pf pl 4 2 = 0 ∨ 127 < pf pl 4 2 ∨ pf pl 6 2 ≠ 0 then some (ST_BAD_PARAM, dtNone)
    else if pl.length ≠ 8 + 32 * pf pl 4 2 then some (ST_BAD_LENGTH, dtNone)
    else none)
  (fun id pl c =>
    if c.peActive (pb pl 0) then c.fail id ST_BAD_STATE dtEngineRunning
    else (c.forAll (List.range (pf pl 4 2)) (fun i => Chip.imStore (pb pl 0) (pf pl 2 2 + i) (pf pl (8 + 32 * i) 32))).ok id [])

/-- Arm every member of a gang (R122, R130). -/
def Chip.arm (ms : List Nat) (addr : Nat) (tick : Option Nat) (id : Nat) (c : Chip) : Chip :=
  let l := ms.headD 0
  let c := if c.xsys l then { c with xg := { anns := [], held := false } } else c
  let c := c.forAll ms (fun k c =>
    let e := c.eng k
    let st := c.peState k
    let fl := c.get (F.PE_FAULT_CODE k) + 256 * c.get (F.PE_FAULT_ADDR k)
    let c := ((c.set (F.PE_STAT_STATE k) peArmed).set (F.PE_FAULT_CODE k) 0).set (F.PE_FAULT_ADDR k) 0
    c.setEng k (fun _ => { e with
      prevState := st, prevFault := fl, startAddr := addr, npc := addr, startTick := tick
      streamOn := c.is (F.PE_CTL_STREAM_EN k), stream := [], streamReq := 0, streamUse := 0
      prefilled := decide (c.get (F.PE_STREAM_LEN_LEN k) = 0), pauseReq := [], stopReq := [], pause := none }))
  c.setEng l (fun e => { e with startSlot := some id })

/-- `CH_PE_START` runs in USER, and in TEST, where the self-test engine has the channels (R130; log entry 28). -/
def cmdPeStart : Cmd := { Cmd.plain 0x03 0x02 live
  (lenParam 16 (fun pl => decide (pb pl 0 < 16) && decide (pb pl 1 < 2) && pf pl 4 4 = 0 && (pb pl 1 = 1 || pf pl 8 8 = 0)))
  (fun id pl c =>
    let k := pb pl 0
    let now := c.get F.WW_TB_TIME
    let t := pf pl 8 8
    if c.notLeader k then c.fail id ST_BAD_PARAM dtNotLeader
    else if c.peActive k then c.fail id ST_BAD_STATE dtEngineRunning
    else if pb pl 1 = 1 then
      if t < now + 375 ∨ now + 2 ^ 32 < t then c.fail id ST_BAD_PARAM dtTickPast
      else (c.interim id ST_DEFERRED dtWaitTick []).arm (c.gang k) (pf pl 2 2) (some t) id
    else c.arm (c.gang k) (pf pl 2 2) none id) with
  when := inStates [stUser, stTest] }

/-- `CH_PE_PAUSE`: PAUSED at the next pause point, or at once where the engine already holds at one (R127); in a cross-device gang
the hold is announced, and PAUSED is entered at a SYNC (R134). -/
def cmdPePause : Cmd := Cmd.plain 0x03 0x03 live engChk (fun id pl c =>
  let k := pf pl 0 4
  if c.notLeader k then c.fail id ST_BAD_PARAM dtNotLeader
  else if c.peState k = pePaused then c.ok id []
  else if !c.peActive k then c.fail id ST_BAD_STATE dtNotRunning
  else
    let c := (c.interim id ST_ACCEPTED dtNone []).setEng k (fun e => { e with pauseReq := e.pauseReq ++ [id] })
    if c.xsys k then c.xgAnnounce (c.gang k) else if c.holding k then c.enterPaused (c.gang k) else c)

def cmdPeResume : Cmd := Cmd.plain 0x03 0x04 live engChk (fun id pl c =>
  let k := pf pl 0 4
  if c.notLeader k then c.fail id ST_BAD_PARAM dtNotLeader
  else if c.peState k ≠ pePaused then c.fail id ST_BAD_STATE dtNotPaused
  else ((c.forAll (c.gang k) (fun j => Chip.set (F.PE_STAT_STATE j) peRunning)).xgAnnounce (c.gang k)).ok id [])

/-- `CH_PE_STOP`: after the next pause point's cycle, or at once if PAUSED or holding (R129). -/
def cmdPeStop : Cmd := Cmd.plain 0x03 0x05 live engChk (fun id pl c =>
  let k := pf pl 0 4
  if c.notLeader k then c.fail id ST_BAD_PARAM dtNotLeader
  else if !c.peActive k then c.fail id ST_BAD_STATE dtNotRunning
  else
    let c := (c.interim id ST_ACCEPTED dtNone []).setEng k (fun e => { e with stopReq := e.stopReq ++ [id] })
    if c.holding k then c.endRun (c.gang k) peStopped (fun _ => 0) false else c)

def cmdPeAbort : Cmd := Cmd.plain 0x03 0x06 live engChk (fun id pl c =>
  let k := pf pl 0 4
  if c.notLeader k then c.fail id ST_BAD_PARAM dtNotLeader
  else if !c.peActive k then c.fail id ST_BAD_STATE dtNotRunning
  else (c.endRun (c.gang k) peAborted (fun _ => 0) false).ok id [])

/-- Take engine `k` out of its gang; a gang left with one member is dissolved (Table 4.12). -/
def Chip.ungang (k : Nat) (c : Chip) : Chip := ((c.set (F.PE_CTL_GANG_EN k) 0).set (F.PE_CTL_GANG_LEADER k) 0).set (F.PE_CTL_XSYS k) 0

/-- Make the named engines one gang, lowest first. -/
def Chip.makeGang (ms : List Nat) (x : Nat) (c : Chip) : Chip :=
  c.forAll ms (fun k c => ((c.set (F.PE_CTL_GANG_EN k) 1).set (F.PE_CTL_GANG_LEADER k) (ms.headD 0)).set (F.PE_CTL_XSYS k) x)

/-- The named engines leave their gangs; what remains of each is led by its lowest member, or dissolved (Table 4.12). -/
def Chip.leaveGangs (ms : List Nat) (c : Chip) : Chip :=
  c.forAll ms (fun k c =>
    if c.is (F.PE_CTL_GANG_EN k) then
      let rest := (c.gang k).filter (fun j => j ≠ k)
      let x := c.get (F.PE_CTL_XSYS k)
      let c := c.ungang k
      if rest.length ≤ 1 then c.forAll rest (fun j => Chip.ungang j) else c.makeGang rest x
    else c)

def cmdPeGang : Cmd := Cmd.plain 0x03 0x07 live
  (lenParam 4 (fun pl => pf pl 0 2 ≠ 0 && decide (pb pl 2 < 4) && pb pl 3 = 0))
  (fun id pl c =>
    let ms := engines.filter (fun k => (pf pl 0 2).testBit k)
    let l := ms.headD 0
    if (pb pl 2).testBit 1 then
      let all := engines.filter (fun k => ms.any (fun m => (c.gang m).contains k))
      if all.any (fun k => c.peActive k) then c.fail id ST_BAD_STATE dtEngineRunning
      else (c.forAll (all.filter (fun k => c.is (F.PE_CTL_GANG_EN k))) (fun k => Chip.ungang k)).ok id []
    else if ms.any (fun k => c.peActive k) then c.fail id ST_BAD_STATE dtEngineRunning
    else if ms.any (fun k => c.get (F.PE_CTL_FSTEP k) ≠ c.get (F.PE_CTL_FSTEP l) || c.get (F.PE_CTL_MCODE k) ≠ c.get (F.PE_CTL_MCODE l)) then
      c.fail id ST_BAD_PARAM dtGangClock
    else ((c.leaveGangs ms).makeGang ms (bit (pb pl 2) 0)).ok id [])

/-- `CH_PE_CLOCK`: the gang's clock and UI count change; the command ends when the clock has locked (R107). -/
def cmdPeClock : Cmd := Cmd.plain 0x03 0x08 live
  (lenParam 8 (fun pl => decide (pb pl 0 < 16) && pb pl 1 = 0 && decide (60 ≤ pf pl 2 2) && decide (pf pl 2 2 ≤ 480) &&
    decide (pb pl 4 < 4) && pf pl 5 3 = 0))
  (fun id pl c =>
    let k := pb pl 0
    if c.notLeader k then c.fail id ST_BAD_PARAM dtNotLeader
    else if c.peActive k then c.fail id ST_BAD_STATE dtEngineRunning
    else c.forAll (c.gang k) (fun j c => (c.set (F.PE_CTL_FSTEP j) (pf pl 2 2)).set (F.PE_CTL_MCODE j) (pb pl 4)))

/-- PE_CLOCK_LOCKED: the clock of engine `k` is locked and its command ends (R107). -/
def Chip.clockLocked (k : Nat) (c : Chip) : Chip := c.endCmd 0x03 0x08 (fun pl => pb pl 0 = k) ST_OK dtNone []

/-! ## Engine reset (R131, R133, R160) -/

/-- Every register of the engine block to its reset value, but for the instruction memory; a run in progress is aborted,
its gang with it, and its record kept; no other engine's registers change (R131). -/
def Chip.engineReset (k : Nat) (c : Chip) : Chip :=
  if c.peActive k then
    let c := c.endRun (c.gang k) peAborted (fun _ => fcSTATE_EXIT) true
    let keep := [F.PE_STAT_STATE k, F.PE_FAULT_CODE k, F.PE_FAULT_ADDR k, F.PE_CYCLE_COUNT k, F.PE_HOLD_COUNT k, F.PE_START_TICK_TICK k]
    let c := c.resetRange (0x200000 + 0x10000 * k) (0x210000 + 0x10000 * k) (fun key => (keep.map Fld.key).contains key)
    c.setEng k (fun e => { Pe.init with im := e.im, cmpQ := e.cmpQ })
  else
    let c := c.resetRange (0x200000 + 0x10000 * k) (0x210000 + 0x10000 * k) (fun _ => false)
    c.setEng k (fun e => { Pe.init with im := e.im, cmpQ := e.cmpQ })

/-! ## Meanings -/

def execEngineCycle (pe : Fin 16) (s : State) := runChip (Chip.engineCycle pe none) s
def execSeqNext (pe : Fin 16) (word : BitVec 256) (s : State) := runChip (Chip.engineCycle pe (some (withSeq seqNEXT word.toNat))) s
def execSeqJmp (pe : Fin 16) (word : BitVec 256) (s : State) := runChip (Chip.engineCycle pe (some (withSeq seqJMP word.toNat))) s
def execSeqJc (pe : Fin 16) (word : BitVec 256) (s : State) := runChip (Chip.engineCycle pe (some (withSeq seqJC word.toNat))) s
def execSeqCall (pe : Fin 16) (word : BitVec 256) (s : State) := runChip (Chip.engineCycle pe (some (withSeq seqCALL word.toNat))) s
def execSeqRet (pe : Fin 16) (word : BitVec 256) (s : State) := runChip (Chip.engineCycle pe (some (withSeq seqRET word.toNat))) s
def execSeqLoop (pe : Fin 16) (word : BitVec 256) (s : State) := runChip (Chip.engineCycle pe (some (withSeq seqLOOP word.toNat))) s
def execSeqLdlc (pe : Fin 16) (word : BitVec 256) (s : State) := runChip (Chip.engineCycle pe (some (withSeq seqLDLC word.toNat))) s
def execSeqRepeat (pe : Fin 16) (word : BitVec 256) (s : State) := runChip (Chip.engineCycle pe (some (withSeq seqREPEAT word.toNat))) s
def execSeqWaitf (pe : Fin 16) (word : BitVec 256) (s : State) := runChip (Chip.engineCycle pe (some (withSeq seqWAITF word.toNat))) s
def execSeqSync (pe : Fin 16) (word : BitVec 256) (s : State) := runChip (Chip.engineCycle pe (some (withSeq seqSYNC word.toNat))) s
def execSeqPause (pe : Fin 16) (word : BitVec 256) (s : State) := runChip (Chip.engineCycle pe (some (withSeq seqPAUSE word.toNat))) s
def execSeqHalt (pe : Fin 16) (word : BitVec 256) (s : State) := runChip (Chip.engineCycle pe (some (withSeq seqHALT word.toNat))) s
def execWaitfTimeout (pe : Fin 16) (s : State) := runChip (fun c => c.waitfExpire (c.gangLeader pe)) s
def execSyncTick (pe : Fin 16) (tick : Nat) (s : State) := runChip (Chip.syncTick pe tick) s
def execHoldCycle (pe : Fin 16) (s : State) := runChip (Chip.holdCycle pe) s
def execHoldLong (pe : Fin 16) (s : State) := runChip (Chip.holdLong pe) s
def execPeStartTick (pe : Fin 16) (tick : Nat) (s : State) := runChip (Chip.startTick pe tick) s
def execStreamPrefillDone (pe : Fin 16) (s : State) := runChip (Chip.prefillDone pe) s
def execStreamReadResponse (pe : Fin 16) (rsp : Fin 6) (count : Nat) (s : State) := runChip (Chip.streamRead pe (rsp = 0) count) s
def execUportVectorArrival (pe : Fin 16) (vec : BitVec 256) (s : State) := runChip (Chip.uportVector pe vec.toNat) s
def execUportFlagUpdate (pe : Fin 16) (flags : Byte) (s : State) := runChip (Chip.uportFlags pe flags.toNat) s
def execPeImDataWrite (pe : Fin 16) (hi : BitVec 128) (s : State) := runChip (fun c => answerWrite (c.imDataHi pe hi.toNat)) s
def execPeStopbindWrite (pe : Fin 16) (k : Fin 3) (mask : Word) (s : State) := runChip (fun c => answerWrite (c.stopBind pe k mask.toNat)) s
def execPeClockLocked (pe : Fin 16) (s : State) := runChip (Chip.clockLocked pe) s
def execPrefillLate (pe : Fin 16) (s : State) := runChip (Chip.prefillLate pe) s
def execChPeStatus (p : Pkt) (s : State) := runAon (Chip.command cmdPeStatus p) s
def execChPeLoad (p : Pkt) (s : State) := runAon (Chip.command cmdPeLoad p) s
def execChPeStart (p : Pkt) (s : State) := runAon (Chip.command cmdPeStart p) s
def execChPePause (p : Pkt) (s : State) := runAon (Chip.command cmdPePause p) s
def execChPeResume (p : Pkt) (s : State) := runAon (Chip.command cmdPeResume p) s
def execChPeStop (p : Pkt) (s : State) := runAon (Chip.command cmdPeStop p) s
def execChPeAbort (p : Pkt) (s : State) := runAon (Chip.command cmdPeAbort p) s
def execChPeGang (p : Pkt) (s : State) := runAon (Chip.command cmdPeGang p) s
def execChPeClock (p : Pkt) (s : State) := runAon (Chip.command cmdPeClock p) s

end Sys2Proof.Machine
end

