-- ==== Sys2Proof/Machine/Cells.lean ====
section
/-! DEFINITION. The cells of a region and its routing (chapter 7, R192 to R200): what each wire carries under the frames of
the governing stop, and what the flip-flops hold after an edge. -/

namespace Sys2Proof.Machine

/-- Configuration frames, by cluster. -/
abbrev Frames := List (Nat × List Byte)

/-! ## Routing resources (R195, R197, Table 7.1) -/

/-- The five outputs of each cell of a cluster. -/
def clusterOuts (q : Nat) : List Source := (List.range 80).map (fun i => .cell (16 * q + i / 5) (i % 5))

/-- The segments of a length in one direction from a cluster: 16, 8 or 4. -/
def segCount (len : Nat) : Nat := if len = 1 then 16 else if len = 4 then 8 else 4

/-- The cluster `n` steps from a cluster in a direction, within the region (R197). -/
def clusterStep (q d n : Nat) : Option Nat :=
  match d with
  | 0 => if q % 40 + n < 40 then some (q + n) else none
  | 1 => if q / 40 + n < 40 then some (q + 40 * n) else none
  | 2 => if n ≤ q % 40 then some (q - n) else none
  | _ => if n ≤ q / 40 then some (q - 40 * n) else none

/-- The direction against a direction. -/
def opposite (d : Nat) : Nat := (d + 2) % 4

/-- The segments that end at a cluster, of each length and direction. -/
def segsEnding (q : Nat) : List Source :=
  [1, 4, 12].flatMap (fun len => (List.range 4).flatMap (fun d =>
    match clusterStep q (opposite d) len with
    | none => []
    | some p => (List.range (segCount len)).map (fun t => .wire (.seg len p d t))))

/-- The segments that reach or pass a cluster. -/
def segsCrossing (q : Nat) : List Source :=
  [1, 4, 12].flatMap (fun len => (List.range 4).flatMap (fun d => (List.range len).flatMap (fun i =>
    match clusterStep q (opposite d) (i + 1) with
    | none => []
    | some p => (List.range (segCount len)).map (fun t => .wire (.seg len p d t)))))

/-- The region-long lines of a cluster's row and column. -/
def linesAt (q : Nat) : List Source :=
  (List.range 16).map (fun t => .wire (.line false (q / 40) t)) ++ (List.range 16).map (fun t => .wire (.line true (q % 40) t))

/-- The inputs that a region's boundary brings to every crossbar. -/
def regionInputs : List Source :=
  [1, 2, 3, 4].flatMap (fun k => (List.range 64).map (fun b => .gateBit k b) ++ [.gateFull k, .gateAck k]) ++
    [.aux] ++ (List.range 8).map (fun b => .serialBit b) ++ [.serialFull, .serialRoom] ++ (List.range 512).map (fun i => .riser i) ++
    (List.range 4096).map (fun i => .port i)

/-- The sources that each wire may select (Table 7.1, R194, R195, R217). -/
def wireSources : Wire → List Source
  | .xbar q _ =>
    clusterOuts q ++ segsEnding q ++ linesAt q ++ (List.range 14).map (fun b => .gateBit (8 + q) b) ++
      [.gateFull (8 + q), .gateAck (8 + q)] ++ (List.range 4).map (fun l => .party l) ++ regionInputs
  | .seg len q _ _ => if len = 1 then clusterOuts q else clusterOuts q ++ segsCrossing q
  | .line col p _ => (List.range 40).flatMap (fun i => clusterOuts (if col then 40 * i + p else 40 * p + i))
  | .pin n _ => (List.range 128).map (fun i => .wire (.xbar (n / 16) i))
  | .bnd _ _ => (List.range 128000).map (fun i => .cell (i / 5) (i % 5))

/-! ## Cells (R192 to R194) -/

/-- O5 and O6 of a cell (R192): inputs A to F at bits 0 to 5. -/
def lutOut (lut inp : Nat) : Bool × Bool :=
  let o5 := lut.testBit (inp % 32)
  (o5, if inp.testBit 5 then lut.testBit (32 + inp % 32) else o5)

/-- The carry output of a cell (R194). -/
def carryOut (lut inp : Nat) (ci : Bool) : Bool := if (lutOut lut inp).2 then ci else (lutOut lut inp).1

/-- The cell before a cell in its carry chain, if any (R194): cells numbered 16 × cluster + cell, clusters 40 × row + column. -/
def carryPrev (n : Nat) : Option Nat :=
  if n % 16 ≠ 0 then some (n - 1) else if 640 ≤ n then some (n - 640 + 15) else none

/-- The number whose bit i is `f i`, for i below n. -/
def bitsOf (n : Nat) (f : Nat → Bool) : Nat := (List.range n).foldl (fun v i => putBit v i (f i)) 0

/-- What a flip-flop holds after an edge: set/reset first, then clock enable (R193). -/
def ffNext (fs : Frames) (n : Nat) (d ce sr old : Bool) : Bool :=
  if Config.ffHasSr fs n && sr then Config.ffSrval fs n
  else if Config.ffHasCe fs n && !ce then old
  else d

/-- The levels of the four party lines: the OR of every enabled flip-flop output (R198). -/
def partyLevels (fs : Frames) (ff : Nat) : Nat :=
  (List.range 4).foldl (fun v l => v + b2n ((ff &&& Config.partyEnable fs l) ≠ 0) * 2 ^ l) 0

/-! ## Levels (R192 to R196) -/

/-- The level of a source under frames `fs`, with flip-flops `ff` and the levels of the region's inputs; a wire whose select code
names no source carries 0 (R196), and a level on a combinational loop, where `fuel` ends, is open. -/
def level (fs : Frames) (ff : Nat) (inputs : Source → Bool) (t : Nat) : Nat → Source → Bool
  | 0, s => Config.loopLevel t s
  | fuel + 1, s =>
    let pins := fun (n : Nat) => bitsOf 6 (fun p => level fs ff inputs t fuel (.wire (.pin n p)))
    let ci := fun (n : Nat) =>
      match carryPrev n with
      | some p => level fs ff inputs t fuel (.carry p)
      | none => level fs ff inputs t fuel (.wire (.pin n 6))
    match s with
    | .wire w =>
      match (wireSources w)[Config.select fs w]? with
      | some s' => level fs ff inputs t fuel s'
      | none => false
    | .cell n 0 => (lutOut (Config.lut fs n) (pins n)).2
    | .cell n 1 => (lutOut (Config.lut fs n) (pins n)).1
    | .cell n 2 => (lutOut (Config.lut fs n) (pins n)).2 != ci n
    | .cell n k => ff.testBit (2 * n + (k - 3))
    | .carry n => carryOut (Config.lut fs n) (pins n) (ci n)
    | .party l => (partyLevels fs ff).testBit l
    | s => inputs s

/-- More steps than a path without a loop has: every wire, cell output and carry of a region once. -/
def levelFuel : Nat := 1000000

/-- The level of a wire. -/
def wireLevel (fs : Frames) (ff : Nat) (inputs : Source → Bool) (t : Nat) (w : Wire) : Bool :=
  level fs ff inputs t levelFuel (.wire w)

/-! ## Clock edges (R193, R200) -/

/-- The data input of flip-flop `n`, which is FF(n mod 2) of cell n / 2 (R193). -/
def ffData (fs : Frames) (ff : Nat) (inputs : Source → Bool) (t n : Nat) : Bool :=
  match Config.ffSource fs n % 4 with
  | 3 => wireLevel fs ff inputs t (.pin (n / 2) (7 + 3 * (n % 2)))
  | k => level fs ff inputs t levelFuel (.cell (n / 2) k)

/-- The flip-flops of a region after an edge (R193). -/
def ffsAfter (fs : Frames) (ff : Nat) (inputs : Source → Bool) (t : Nat) : Nat :=
  bitsOf 51200 (fun n =>
    ffNext fs n (ffData fs ff inputs t n) (wireLevel fs ff inputs t (.pin (n / 2) (8 + 3 * (n % 2))))
      (wireLevel fs ff inputs t (.pin (n / 2) (9 + 3 * (n % 2)))) (ff.testBit n))

/-- The boundary flip-flops of a region after an edge (R200). -/
def bndAfter (fs : Frames) (ff bnd : Nat) (inputs : Source → Bool) (t : Nat) : Nat :=
  bitsOf 32768 (fun o =>
    ffNext fs (51200 + o) (wireLevel fs ff inputs t (.bnd o 0)) (wireLevel fs ff inputs t (.bnd o 1))
      (wireLevel fs ff inputs t (.bnd o 2)) (bnd.testBit o))

/-- The level of a signal in boundary flip-flops `bnd`. -/
def bndLevel (bnd : Nat) (g : BndSig) : Bool := bnd.testBit (Config.bndOf g)

/-- The number that the lowest `n` bits of a signal spell. -/
def bndBits (bnd n : Nat) (g : Nat → BndSig) : Nat := bitsOf n (fun i => bndLevel bnd (g i))

end Sys2Proof.Machine
end

