-- ==== Sys2Proof/Machine/Fabric.lean ====
section
/-! DEFINITION. The logic fabric (chapter 7): cells and clock edges, gates, region states, stops and their requests,
serial ports, AUX_IO, probes, internal capture, and the fabric commands. -/

namespace Sys2Proof.Machine

/-- A region at reset. -/
def Region.init : Region :=
  { pendC := none, pendE := none, design := none, ff := 0, bnd := 0, gates := [], sent := [], rose := 0, partyAt := [], capIdx := 0,
    capSeen := 0, capLeft := 0, capHit := false }

/-- Region `r`. -/
def Chip.rg (c : Chip) (r : Nat) : Region := tget Region.init r c.fab.regions

/-- Change region `r`. -/
def Chip.setRg (r : Nat) (f : Region → Region) (c : Chip) : Chip :=
  { c with fab := { c.fab with regions := tput Region.init r (f (c.rg r)) c.fab.regions } }

/-- Every region. -/
def regions : List Nat := List.range 192

/-- The regions of a mask, bit r for region r. -/
def maskRegions (m : Nat) : List Nat := regions.filter (fun r => m.testBit r)

/-! ## Stops (R203, R207) -/

def ssEmpty : Nat := 0
def ssLoading : Nat := 1
def ssReady : Nat := 2

/-- The state of stop `s` of region `r` (Table 7.4). -/
def Chip.stopState (c : Chip) (r s : Nat) : Nat := c.get (F.FAB_RG_STAT_STOPST r s)

/-- The governing stop of region `r`. -/
def Chip.gov (c : Chip) (r : Nat) : Nat := c.get (F.FAB_RG_STAT_GOV r)

/-- The key of a stop of a region. -/
def rsKey (r s : Nat) : Nat := 8 * r + s

/-- A stop becomes EMPTY: it names no source slot (R207, R224). -/
def Chip.emptyStop (r s : Nat) (c : Chip) : Chip :=
  let c := c.set (F.FAB_RG_STAT_STOPST r s) ssEmpty
  { c with cfg := { c.cfg with src := tdel (rsKey r s) c.cfg.src, vuse := tdel (rsKey r s) c.cfg.vuse } }

/-- The frames of a stop of a region, by cluster. -/
def Chip.frames (c : Chip) (r s : Nat) : Frames :=
  (c.cfg.conf.filter (fun e => e.1 / 1600 = rsKey r s)).map (fun e => (e.1 % 1600, e.2))

/-- The frames that govern region `r`. -/
def Chip.govFrames (c : Chip) (r : Nat) : Frames := c.frames r (c.gov r)

/-- Flip-flops and boundary flip-flops take the INIT of the governing stop (R193); they hold 0 while it is EMPTY (R237). -/
def Chip.initFfs (r : Nat) (c : Chip) : Chip :=
  let e := c.stopState r (c.gov r) = ssEmpty
  let fs := c.govFrames r
  c.setRg r (fun g => { g with
    ff := if e then 0 else Config.ffInit fs % 2 ^ 51200
    bnd := if e then 0 else Config.bndInit fs % 2 ^ 32768 })

/-! ## Region states and holds (R202, Table 7.3) -/

def hwyConfig : Nat := 0
def hwyLigature : Nat := 1
def hwyBore : Nat := 2
def hwyDevice : Nat := 3

/-- The first `n` broadcasts that still wait for region `r` no longer do. -/
def seenDrop (r : Nat) : Nat → List Bcast → List Bcast
  | 0, bs => bs
  | _, [] => []
  | n + 1, b :: bs =>
    if b.left.contains r then { b with left := b.left.filter (fun x => x ≠ r) } :: seenDrop r n bs else b :: seenDrop r (n + 1) bs

/-- A region has evaluated or discarded the Chanter requests that have reached it: the broadcasts they came from no longer wait
for it, those still on their way do; a finished `CH_CFG_DRAW` ends and `FAB_BCAST.GO` falls (R205, R208). -/
def Chip.bcastSeen (r : Nat) (c : Chip) : Chip :=
  let way := (c.stops.filter (fun q => q.1 = r && q.2.1 = 2)).length
  let mine := (c.fab.bcasts.filter (fun b => b.left.contains r)).length
  let bs := seenDrop r (mine - way) c.fab.bcasts
  let done := bs.filter (fun b => b.left = [])
  let c := { c with fab := { c.fab with bcasts := bs.filter (fun b => b.left ≠ []) } }
  c.forAll done (fun b c =>
    match b.slot with
    | some id => c.ok id []
    | none => c.set F.FAB_BCAST_GO 0)

/-- Count a discarded request; the event is raised where the flag was clear (R206). -/
def Chip.lostRequest (r src : Nat) (c : Chip) : Chip :=
  (c.inc (F.FAB_RG_CNT_LOST r)).flagEvent (F.FAB_RG_STAT_SS_LOST r) EV_FAB_STOP_LOST (r + src * 2048)

/-- Discard a region's pending requests, counting each (Table 7.3). -/
def Chip.discardRequests (r : Nat) (c : Chip) : Chip :=
  let g := c.rg r
  let c := c.setRg r (fun g => { g with pendC := none, pendE := none, design := none })
  let c := if g.pendC.isSome then (c.lostRequest r 2).bcastSeen r else c
  if g.pendE.isSome then c.lostRequest r 1 else c

/-! ## Boundary outputs and pins (R200, R202, R213 to R215, R217, Table 7.5) -/

/-- The isolation level of a boundary output: 0, 1 or the last value. -/
def isoLevel (code : Nat) (last : Bool) : Bool := if code = 0 then false else if code = 1 then true else last

/-- What a boundary output of region `r` shows (Table 7.3): the flip-flop in RUN, its isolation value in HELD, else 0. -/
def Chip.bndShown (c : Chip) (r : Nat) (g : BndSig) : Bool :=
  let last := bndLevel (c.rg r).bnd g
  if c.rgState r = rgRun then last
  else if c.rgState r = rgHeld then
    let o := Config.bndOf g
    isoLevel (bits (tget 0 (rsKey r (c.gov r)) c.cfg.iso) (2 * o + 1) (2 * o)) last
  else false

/-- A serial port's buffers. -/
def Chip.sport (c : Chip) (j : Nat) : Sport := tget { tx := [], rx := [], busy := false } j c.fab.ports

/-- Change a serial port's buffers. -/
def Chip.setSport (j : Nat) (f : Sport → Sport) (c : Chip) : Chip :=
  { c with fab := { c.fab with ports := tput { tx := [], rx := [], busy := false } j (f (c.sport j)) c.fab.ports } }

/-- The region that the image gives AUX_IO pin `k`, if any: it receives the pin's input even while a port owns the pin (R214). -/
def Chip.auxRegion (c : Chip) (k : Nat) : Option Nat :=
  match tget 0 k c.fab.auxDecl with
  | 1 => some k
  | 2 => some (k + 96)
  | _ => none

/-- The owner region of AUX_IO pin `k`, if a region owns it. -/
def Chip.auxOwner (c : Chip) (k : Nat) : Option Nat :=
  match c.get (F.AUX_STAT_OWNER k) with
  | 1 => some k
  | 2 => some (k + 96)
  | _ => none

/-- The port and the PIN field that name AUX_IO pin `k`, of a port whose `MODE` is not 0. -/
def Chip.portOf (c : Chip) (k : Nat) : Option (Nat × Nat) :=
  ((List.range 32).flatMap (fun j => (List.range 4).map (fun i => (j, i)))).find? (fun p =>
    c.get (F.SPORT_CTL_MODE p.1) ≠ 0 && c.get (F.SPORT_CTL_PIN p.1 p.2) = k)

/-- Enable and level that port `j` gives the pin of a PIN field between the bits of its bytes, by the roles of Table 7.5: an SPI
clock at the idle level of its mode, CS_N low in a transfer, TXD at mark, RTS_N low while a byte can be received; an I2C pin is
released. -/
def Chip.portLevel (c : Chip) (j i : Nat) : Bool × Bool :=
  match c.get (F.SPORT_CTL_MODE j), i with
  | 1, 0 => (true, (c.get (F.SPORT_CTL_SPIMODE j)).testBit 1)
  | 1, 1 => (true, !(c.sport j).busy)
  | 1, 2 => (true, false)
  | 2, 3 => (true, false)
  | 3, 0 => (true, true)
  | 3, 2 => (true, decide (64 ≤ (c.sport j).rx.length))
  | _, _ => (false, false)

/-- VDD_AUX is valid: AUX_IO and PROBE pins are driven only then (R405). -/
def Chip.auxOn (c : Chip) : Bool := (c.get F.PWR_STAT_VALID).testBit 10

/-- Enable and level of AUX_IO pin `k` (R214, R215): the port that names it, or its owner's boundary outputs, in USER; high
impedance otherwise. -/
def Chip.auxLevel (c : Chip) (k : Nat) : Bool × Bool :=
  if !c.auxOn || c.dstate ≠ stUser then (false, false)
  else if c.get (F.AUX_STAT_OWNER k) = 3 then
    match c.portOf k with
    | some (j, i) => c.portLevel j i
    | none => (false, false)
  else
    match c.auxOwner k with
    | some r => (c.bndShown r .auxOe, c.bndShown r .auxOut)
    | none => (false, false)

/-- AUX_IO pin `k` takes its level; a change shows on the pin, numbered 100 + k (R215). -/
def Chip.auxSettle (k : Nat) (c : Chip) : Chip :=
  let p := c.auxLevel k
  let same := c.is (F.AUX_STAT_OE k) = p.1 && c.is (F.AUX_STAT_OUT k) = p.2
  let c := (c.set (F.AUX_STAT_OE k) (b2n p.1)).set (F.AUX_STAT_OUT k) (b2n p.2)
  if same then c else c.emit (.pin (100 + k) (if p.1 then b2n p.2 else 2))

/-- Whether region `r` is a target of a load in progress (R217). -/
def Chip.loading (c : Chip) (r : Nat) : Bool :=
  (c.cfg.page.map (fun (p : Paging) => p.targets.any (fun t => t.1 = r))).getD false ||
    (c.cfg.load.map (fun (l : Load) => l.targets.any (fun t => t.1 = r) || (l.kind = 2 && l.region = r))).getD false

/-- The level of PROBE pin `j` (R217). -/
def Chip.probeLevel (c : Chip) (j : Nat) : Bool :=
  let r := c.get (F.PROBE_SEL_REGION j)
  c.auxOn && c.is (F.PROBE_SEL_EN j) && c.rgState r = rgRun && !c.loading r && bndLevel (c.rg r).bnd (.tap (c.get (F.PROBE_SEL_TAP j)))

/-- PROBE pin `j` takes its level; a change shows on the pin, numbered 200 + j. -/
def Chip.probeSettle (j : Nat) (c : Chip) : Chip :=
  let b := c.probeLevel j
  if c.fab.probe.testBit j = b then c
  else ({ c with fab := { c.fab with probe := putBit c.fab.probe j b } } : Chip).emit (.pin (200 + j) (b2n b))

/-- Settle every PROBE pin. -/
def Chip.probeAll (c : Chip) : Chip := c.forAll (List.range 16) (fun j => Chip.probeSettle j)

/-- Settle the AUX_IO pin of a region and the PROBE pins. -/
def Chip.auxOfRegion (r : Nat) (c : Chip) : Chip := (c.auxSettle (r % 96)).probeAll

/-- Settle every AUX_IO and PROBE pin, after a change of the device state. -/
def Chip.auxAll (c : Chip) : Chip := (c.forAll (List.range 96) (fun k => Chip.auxSettle k)).probeAll

/-! ## Marks of a paging (R207, R208) -/

/-- Whether a stop is under reload: a mark of it waits (R393). -/
def Chip.underReload (c : Chip) (t : Nat × Nat) : Bool :=
  match c.lg.reload with
  | some l => l.1 = t.1 && l.2.1 = t.2
  | none => false

/-- Whether stop `s` governs region `r` as R208 means it: it is drawn, and the region is RUN or HELD. -/
def Chip.governs (c : Chip) (r s : Nat) : Bool :=
  c.gov r = s && c.stopState r s = ssReady && (c.rgState r = rgRun || c.rgState r = rgHeld)

/-- Put a target on the paging's list of marks: its stop is LOADING from now on. -/
def Chip.markOne (t : Nat × Nat) (c : Chip) : Chip :=
  match c.cfg.page with
  | none => c
  | some p =>
    let st := c.stopState t.1 t.2
    let c := c.set (F.FAB_RG_STAT_STOPST t.1 t.2) ssLoading
    { c with cfg := { c.cfg with page := some { p with toMark := p.toMark.filter (fun x => x ≠ t), marked := p.marked ++ [(t.1, t.2, st)] } } }

/-- Region `r` is no longer RUN: a mark that waits for its edge takes effect at once (R208). One that must fail, on a stop that
governs, fails at STOP_MARK. -/
def Chip.markTurned (r : Nat) (c : Chip) : Chip :=
  match (c.cfg.page.map Paging.toMark).getD [] |>.find? (fun t => t.1 = r) with
  | some t => if c.underReload t || c.governs r t.2 then c else c.markOne t
  | none => c

/-- Every lease of a region ends (R265). -/
def Chip.endLeases (r : Nat) (c : Chip) : Chip := c.forAll (List.range 16) (fun b => Chip.set (F.SP_PWR_STAT_LEASE r b) 0)

/-- Hold a region for a cause (R202); its leases end (R265). -/
def Chip.holdRegion (r cause : Nat) (c : Chip) : Chip :=
  if c.rgState r = rgRetired || c.rgState r = rgOff then c
  else
    let c := c.set (F.FAB_RG_STAT_HOLD_WHY r) (setBit (c.get (F.FAB_RG_STAT_HOLD_WHY r)) cause)
    if c.rgState r = rgRun then
      ((((c.endLeases r).set (F.FAB_RG_STAT_RSTATE r) rgHeld).discardRequests r).markTurned r).auxOfRegion r
    else c

/-- Remove a cause; the region leaves HELD when none remains (R202). -/
def Chip.releaseRegion (r cause : Nat) (c : Chip) : Chip :=
  let w := clrBit (c.get (F.FAB_RG_STAT_HOLD_WHY r)) cause
  let c := c.set (F.FAB_RG_STAT_HOLD_WHY r) w
  if c.rgState r = rgHeld ∧ w = 0 then (c.set (F.FAB_RG_STAT_RSTATE r) rgRun).auxOfRegion r else c

/-- The gate keys by which a region's neighbours send to it, and its incoming buffers, lose their words (R201). -/
def Chip.dropGates (r : Nat) (c : Chip) : Chip := c.setRg r (fun g => { g with gates := [] })

/-- A region goes OFF: unpowered, flip-flops lost, requests and gate words discarded (R202, R413). -/
def Chip.regionOff (r : Nat) (c : Chip) : Chip :=
  let c := (c.discardRequests r).set (F.FAB_RG_STAT_RSTATE r) rgOff
  let c := (c.set (F.FAB_RG_STAT_HOLD_WHY r) 0).set (F.FAB_RG_STAT_PARTY r) 0
  (((c.setRg r (fun g => { g with ff := 0, bnd := 0, sent := [], rose := 0 })).dropGates r).markTurned r).auxOfRegion r

/-- A region enters RUN under a governing stop, its flip-flops at that stop's INIT (R237, R413). -/
def Chip.regionRun (r gov : Nat) (c : Chip) : Chip :=
  let c := (c.set (F.FAB_RG_STAT_GOV r) gov).set (F.FAB_RG_STAT_RSTATE r) rgRun
  let c := (c.set (F.FAB_RG_STAT_HOLD_WHY r) 0).setRg r (fun g => { g with pendC := none, pendE := none, design := none })
  (c.initFfs r).auxOfRegion r

/-- `FAB_STAT`: counts of regions RETIRED, DEGRADED, HELD and OFF (Table 7.6). -/
def Chip.fabStat (c : Chip) : Nat :=
  let n := fun (p : Nat → Bool) => (regions.filter p).length
  n (fun r => c.rgState r = rgRetired) + n (fun r => c.is (F.FAB_RG_STAT_DEGRADED r)) * 2 ^ 8 +
    n (fun r => c.rgState r = rgHeld) * 2 ^ 16 + n (fun r => c.rgState r = rgOff) * 2 ^ 24

/-! ## Stop requests and switches (R205 to R208) -/

/-- STOP_REQUEST_ARRIVAL: the oldest request of a source on its way to a region arrives and replaces the one pending;
HELD and OFF regions discard it, RETIRED regions ignore it (R205, Table 7.3). -/
def Chip.stopArrive (r src : Nat) (c : Chip) : Chip :=
  match c.stops.find? (fun q => q.1 = r ∧ q.2.1 = src) with
  | none => c
  | some q =>
    let c := { c with stops := c.stops.erase q }
    let st := c.rgState r
    if st = rgRetired then (if src = 2 then c.bcastSeen r else c)
    else
      let c := c.setRg r (fun g => if src = 2 then { g with pendC := some q.2.2 } else { g with pendE := some q.2.2 })
      if st = rgRun then c else c.discardRequests r

/-- The present requests in order: Chanter, engine, user (R206). -/
def Chip.candidates (c : Chip) (r : Nat) : List (Nat × Nat) :=
  let g := c.rg r
  (g.pendC.map (fun s => (2, s))).toList ++ (g.pendE.map (fun s => (1, s))).toList ++
    (if c.is (F.FAB_RG_CTL_USS_EN r) then (g.design.map (fun s => (0, s))).toList else [])

/-- STOP_SWITCH_DECISION: the stop controller at an edge of a RUN region (R206), after the flip-flops have captured at that edge:
the stop drawn governs from the next one (R204). Drawing a stop whose frame is under reload holds the region (R393). -/
def Chip.stopDecide (r : Nat) (c : Chip) : Chip :=
  match if c.rgState r = rgRun then c.candidates r else [] with
  | [] => c
  | w :: rest =>
    let hadC := (c.rg r).pendC.isSome
    let c := c.forAll rest (fun q => Chip.lostRequest r q.1)
    let c := c.setRg r (fun g => { g with pendC := none, pendE := none, design := none })
    let c :=
      if c.stopState r w.2 ≠ ssReady then
        (c.inc (F.FAB_RG_CNT_REFUSED r)).flagEvent (F.FAB_RG_STAT_SS_REFUSED r) EV_FAB_STOP_REFUSED (r + w.2 * 256 + w.1 * 2048)
      else if w.2 ≠ c.gov r then
        let c := c.set (F.FAB_RG_STAT_GOV r) w.2
        if c.underReload (r, w.2) then c.holdRegion r hwyLigature else c
      else c
    if hadC then c.bcastSeen r else c

/-- Send a broadcast to the named regions; each request arrives later (R205). -/
def Chip.sendBcast (slot : Option Nat) (stop : Nat) (rs : List Nat) (c : Chip) : Chip :=
  { c with stops := c.stops ++ rs.map (fun r => (r, 2, stop)),
           fab := { c.fab with bcasts := c.fab.bcasts ++ [{ slot := slot, stop := stop, left := rs }] } }

/-- Whether a broadcast is refused: no region named, one not RUN, or the stop not READY in one (R208). -/
def Chip.bcastBad (c : Chip) (stop : Nat) (rs : List Nat) : Bool :=
  rs = [] || rs.any (fun r => c.rgState r ≠ rgRun || c.stopState r stop ≠ ssReady)

/-- The regions named by `FAB_BCAST_MASK`. -/
def Chip.bcastMask (c : Chip) : List Nat :=
  regions.filter (fun r => (c.get (F.FAB_BCAST_MASK_MASK (r / 64))).testBit (r % 64))

/-- A write of `FAB_BCAST` (R208, Table 7.6): a `GO` written while `GO` reads 1 is ignored (R8). -/
def Chip.fabBcast (v : Nat) (c : Chip) : Rsp × Chip :=
  let s := bits v 2 0
  if v.testBit 3 && !c.is F.FAB_BCAST_GO then
    if c.bcastBad s c.bcastMask then (rspState, c)
    else (rspOk, ((c.set F.FAB_BCAST_STOP s).set F.FAB_BCAST_GO 1).sendBcast none s c.bcastMask)
  else (rspOk, c.set F.FAB_BCAST_STOP s)

/-! ## Gates (R19, R199, R201) -/

/-- The key of the receiving buffer of a gate from region `a` to region `b`: 1 to 4 for an edge gate, 8 + q for a vertical
gate, if such a gate exists. -/
def gateKey (a b gate : Nat) : Option Nat :=
  if b = a + 96 ∨ a = b + 96 then (if gate < 1600 then some (8 + gate) else none)
  else if a / 96 = b / 96 then
    if b = a + 1 ∧ a % 8 ≠ 7 then some 1
    else if a = b + 1 ∧ b % 8 ≠ 7 then some 2
    else if b = a + 8 then some 3
    else if a = b + 8 then some 4
    else none
  else none

/-- Whether bore `b` of region pair `n` is masked (R210). -/
def Chip.boreMasked (c : Chip) (n b : Nat) : Bool := (c.get (F.FAB_VMASK_MASK n (b / 64))).testBit (b % 64)

/-- GATE_WORD_ARRIVAL: the word that region `a` has sent on a gate reaches region `b`. A RUN receiver buffers and acknowledges it
while one of 16 entries is free; at a HELD or full one it waits, unacknowledged; receivers that are OFF, RETIRED or being
reset, so that their domain is not OPEN, acknowledge and discard it; behind a masked bore it is never seen (R19, R201, R202,
R210). -/
def Chip.gateWord (a b gate : Nat) (c : Chip) : Chip :=
  match gateKey a b gate, gateKey b a gate with
  | some k, some own =>
    match tfind own (c.rg a).sent with
    | none => c
    | some w =>
      let st := c.rgState b
      let ack := fun (c : Chip) => c.setRg a (fun g => { g with sent := tdel own g.sent })
      if 8 ≤ k ∧ c.boreMasked (min a b) ((k - 8) / 2) then c
      else if st = rgOff ∨ st = rgRetired ∨ tget 0 b c.net.doms % 4 ≠ 0 then
        ((ack c).inc (F.FAB_RG_GDISC_COUNT a)).flagEvent (F.FAB_RG_STAT_GDISC a) EV_FAB_GATE_DISCARD a
      else if st = rgHeld then c
      else
        let q := tget [] k (c.rg b).gates
        if q.length < 16 then (ack c).setRg b (fun g => { g with gates := tset k (q ++ [w]) g.gates }) else c
  | _, _ => c

/-- The gate keys of region `r`: its edge gates and vertical gates. -/
def gateKeys : List Nat := [1, 2, 3, 4] ++ (List.range 1600).map (fun q => 8 + q)

/-- The data bits of a gate (Table 7.2). -/
def gateWidth (k : Nat) : Nat := if 8 ≤ k then 14 else 64

/-- At an edge of region `r`, its design sends a word on each gate whose request it showed, where the last word is acknowledged,
and takes the oldest word of each gate where it showed that it takes it (R19, R200). -/
def Region.gatesEdge (g : Region) : Region :=
  gateKeys.foldl (fun (g : Region) k =>
    let g' := if bndLevel g.bnd (.gateReq k) && (tfind k g.sent).isNone then
      { g with sent := tset k (bndBits g.bnd (gateWidth k) (fun b => .gateBit k b)) g.sent } else g
    if bndLevel g.bnd (.gateTake k) then { g' with gates := tput [] k (tget [] k g.gates).tail g'.gates } else g') g

/-! ## Party lines and ring oscillators (R198, R212) -/

/-- PARTY_LINE_RISE: of these lines, those that have risen and are enabled raise the event, each at most once every 10 µs
(3,750 ticks). -/
def Chip.partyRise (r lines : Nat) (c : Chip) : Chip :=
  let now := c.get F.WW_TB_TIME
  let ls := (List.range 4).filter (fun l => ((c.rg r).rose &&& lines).testBit l && (c.get (F.FAB_RG_CTL_PARTY_EV r)).testBit l &&
    (match tfind l (c.rg r).partyAt with
     | some t => decide (t + 3750 ≤ now)
     | none => true))
  let c := if (c.rg r).rose &&& lines = 0 then c else c.setRg r (fun g => { g with rose := g.rose &&& (15 - lines) })
  if ls = [] then c
  else
    let c := c.setRg r (fun g => { g with partyAt := ls.foldl (fun t l => tset l now t) g.partyAt })
    c.raise EV_FAB_PARTY (r + (ls.map (fun l => 2 ^ l)).sum * 256)

/-- RO_MEASURE: the measured ring oscillator frequency; 0 unless `CLKSRC` = 1. -/
def Chip.roMeasure (r mhz : Nat) (c : Chip) : Chip :=
  c.set (F.FAB_RG_STAT_RO_MEAS r) (if c.get (F.FAB_RG_CTL_CLKSRC r) = 1 then mhz else 0)

/-- Clear a region's stop and discard counters. -/
def Chip.rgCntClr (r : Nat) (c : Chip) : Chip :=
  c.clear [F.FAB_RG_CNT_LOST r, F.FAB_RG_CNT_REFUSED r, F.FAB_RG_GDISC_COUNT r]

/-- A write of `FAB_RG_CTL` (R212, Table 7.8). A HELD region that comes back to clock source 0 moves to its `FSET` (R412). -/
def Chip.rgCtlWrite (r v : Nat) (c : Chip) : Rsp × Chip :=
  let clk := bits v 1 0
  let posc := bits v 3 2
  let ro := bits v 10 4
  let same := clk = c.get (F.FAB_RG_CTL_CLKSRC r) && posc = c.get (F.FAB_RG_CTL_POSC r) && ro = c.get (F.FAB_RG_CTL_RO_SET r)
  let back := clk = 0 && c.get (F.FAB_RG_CTL_CLKSRC r) ≠ 0 && c.rgState r = rgHeld
  if clk = 3 then (rspReservedCode, c)
  else if ro = 0 ∨ 80 < ro then (rspRange, c)
  else if !same && c.rgState r ≠ rgHeld && c.rgState r ≠ rgOff then (rspState, c)
  else
    let c := (((((c.set (F.FAB_RG_CTL_CLKSRC r) clk).set (F.FAB_RG_CTL_POSC r) posc).set (F.FAB_RG_CTL_RO_SET r) ro).set
      (F.FAB_RG_CTL_USS_EN r) (bit v 11)).set (F.FAB_RG_CTL_PARTY_EV r) (bits v 15 12))
    let c := if clk = 1 then c else c.set (F.FAB_RG_STAT_RO_MEAS r) 0
    let c := if back then c.set (F.CLK_RG_SLEWING r) 1 else c
    (rspOk, if v.testBit 63 then c.rgCntClr r else c)

/-! ## Internal capture (R218) -/

def csIdle : Nat := 0
def csArmed : Nat := 1
def csTriggered : Nat := 2
def csDone : Nat := 3

/-- Whether the capture unit of region `r` is ARMED or TRIGGERED. -/
def Chip.capBusy (c : Chip) (r : Nat) : Bool :=
  c.get (F.FAB_RG_CAPSTAT_CSTATE r) = csArmed || c.get (F.FAB_RG_CAPSTAT_CSTATE r) = csTriggered

/-- The scratchpad address of capture sample `i` of region `r`. -/
def capAddr (r i : Nat) : Nat := 0x010000000000 + r * 0x100000 + ((i / 2) * 16 + 15) * 16 + 8 * (i % 2)

/-- Arm the capture unit (R218). -/
def Chip.capArm (r : Nat) (c : Chip) : Chip :=
  let c := (c.set (F.FAB_RG_CAPSTAT_CSTATE r) csArmed).set (F.FAB_RG_CAPCTL_ARM r) 1
  let c := ((c.set (F.FAB_RG_CAPSTAT_START r) 0).set (F.FAB_RG_CAPSTAT_TRIG r) 0).set (F.FAB_RG_CAPSTAT_SHORT r) 0
  (c.set (F.FAB_RG_CAPSTAT_COUNT r) 0).setRg r (fun g => { g with capIdx := 0, capSeen := 0, capLeft := 0, capHit := false })

/-- CAPTURE_TRIGGER: the last sample is the first to meet `TMODE`: the trigger fires (R218). -/
def Chip.capTrigger (r : Nat) (c : Chip) : Chip :=
  let g := c.rg r
  if c.get (F.FAB_RG_CAPSTAT_CSTATE r) = csArmed && g.capHit then
    let pos := c.get (F.FAB_RG_CAPCTL_TRIG_POS r)
    let c := ((c.set (F.FAB_RG_CAPSTAT_CSTATE r) csTriggered).set (F.FAB_RG_CAPSTAT_TRIG r) ((g.capIdx + 1023) % 1024)).set
      (F.FAB_RG_CAPSTAT_SHORT r) (b2n (decide (g.capSeen - 1 < pos)))
    c.setRg r (fun g => { g with capLeft := 1023 - pos })
  else c

/-- The unit enters DONE with the samples held (R218). -/
def Chip.capFinish (r : Nat) (c : Chip) : Chip :=
  let g := c.rg r
  let c := ((c.set (F.FAB_RG_CAPSTAT_CSTATE r) csDone).set (F.FAB_RG_CAPCTL_ARM r) 0).set (F.FAB_RG_CAPSTAT_START r)
    (if 1024 ≤ g.capSeen then g.capIdx else 0)
  (c.set (F.FAB_RG_CAPSTAT_COUNT r) (min 1024 g.capSeen)).raise EV_FAB_CAP_DONE (r + c.get (F.FAB_RG_CAPSTAT_TRIG r) * 256)

/-- CAPTURE_DONE: the post-trigger samples are stored (R218). -/
def Chip.capDone (r : Nat) (c : Chip) : Chip :=
  if c.get (F.FAB_RG_CAPSTAT_CSTATE r) = csTriggered && (c.rg r).capLeft = 0 then c.capFinish r else c

/-- `STOP`: an ARMED or TRIGGERED capture ends in DONE (Table 7.9). -/
def Chip.capStop (r : Nat) (c : Chip) : Chip := if c.capBusy r then c.capFinish r else c

/-- One sample of the taps at an edge; `rose` is the mask of party lines that rose (R218). -/
def Chip.capSample (r taps rose : Nat) (c : Chip) : Chip :=
  let c := (c.capTrigger r).capDone r
  if c.capBusy r then
    let g := c.rg r
    let mask := c.get (F.FAB_RG_TRIGMASK_MASK r)
    let hit := match c.get (F.FAB_RG_CAPCTL_TMODE r) with
      | 0 => decide ((taps &&& mask) = (c.get (F.FAB_RG_TRIGVAL_VAL r) &&& mask))
      | 1 => rose.testBit (c.get (F.FAB_RG_CAPCTL_TPARTY r))
      | _ => true
    let c := { c with mem := memWrite (capAddr r g.capIdx) (natLe 8 taps) c.mem }
    c.setRg r (fun g => { g with capIdx := (g.capIdx + 1) % 1024, capSeen := g.capSeen + 1, capLeft := g.capLeft - 1, capHit := hit })
  else c

/-- A write of `FAB_RG_CAPCTL` (R218, Table 7.9): the trigger settings are locked while armed; arming needs bank 15 on. -/
def Chip.capCtlWrite (r v : Nat) (c : Chip) : Rsp × Chip :=
  let same := bits v 3 2 = c.get (F.FAB_RG_CAPCTL_TMODE r) && bits v 5 4 = c.get (F.FAB_RG_CAPCTL_TPARTY r) &&
    bits v 25 16 = c.get (F.FAB_RG_CAPCTL_TRIG_POS r)
  if bits v 3 2 = 3 then (rspReservedCode, c)
  else if c.is (F.FAB_RG_CAPCTL_ARM r) && !same then (rspState, c)
  else if v.testBit 0 && !c.is (F.FAB_RG_CAPCTL_ARM r) && decide (2 ≤ c.bankState r 15) then (rspState, c)
  else
    let armed := c.is (F.FAB_RG_CAPCTL_ARM r)
    let c := ((c.set (F.FAB_RG_CAPCTL_TMODE r) (bits v 3 2)).set (F.FAB_RG_CAPCTL_TPARTY r) (bits v 5 4)).set
      (F.FAB_RG_CAPCTL_TRIG_POS r) (bits v 25 16)
    let c := if v.testBit 0 && !armed then c.capArm r else c
    (rspOk, if v.testBit 1 then c.capStop r else c)

/-- A write of `FAB_RG_TRIGVAL` or `FAB_RG_TRIGMASK` (Table 7.9). -/
def Chip.trigWrite (r : Nat) (f : Fld) (v : Nat) (c : Chip) : Rsp × Chip :=
  if c.is (F.FAB_RG_CAPCTL_ARM r) then (rspState, c) else (rspOk, c.set f v)

/-! ## Serial ports (R213, R214) -/

/-- The pins that a `SP_CTL` word names. -/
def spPins (v : Nat) : List Nat := ((List.range 4).map (fun i => bits v (32 + 8 * i + 6) (32 + 8 * i))).filter (fun p => p ≠ 0x7F)

/-- The pins that port `j` names. -/
def Chip.portPins (c : Chip) (j : Nat) : List Nat :=
  ((List.range 4).map (fun i => c.get (F.SPORT_CTL_PIN j i))).filter (fun p => p ≠ 0x7F)

/-- A pin taken by an active port shows a serial port as its owner, or else the region that the image gives it. -/
def Chip.spOwners (c : Chip) : Chip :=
  let used := (List.range 32).flatMap (fun j => if c.get (F.SPORT_CTL_MODE j) = 0 then [] else c.portPins j)
  c.forAll (List.range 96) (fun k c =>
    if used.contains k then (c.set (F.AUX_STAT_OWNER k) 3).auxSettle k
    else if c.get (F.AUX_STAT_OWNER k) = 3 then
      let r := c.auxRegion k
      let gone := (r.map (fun r => decide (c.rgState r = rgRetired))).getD false
      (c.set (F.AUX_STAT_OWNER k) (if gone then 0 else tget 0 k c.fab.auxDecl)).auxSettle k
    else c)

/-- Settle the pins of port `j`. -/
def Chip.portSettle (j : Nat) (c : Chip) : Chip := c.forAll (c.portPins j) (fun k => Chip.auxSettle k)

/-- The bit time of a mode with `DIV`, in units of 10 ns (Table 7.5); 0 where the port does not give the clock. -/
def bitTime (mode dv : Nat) : Nat :=
  match mode with
  | 1 => 2 * (dv + 1)
  | 3 => dv + 1
  | 4 => 4 * (dv + 1)
  | _ => 0

/-- Show what port `j` does on its pins, while they are driven. -/
def Chip.serialOut (j : Nat) (whats : List SerialSig) (c : Chip) : Chip :=
  if c.dstate = stUser && c.auxOn then
    c.forAll whats (fun w c => c.emit (.serial j w (bitTime (c.get (F.SPORT_CTL_MODE j)) (c.get (F.SPORT_CTL_DIV j)))))
  else c

/-- A write of `SP_CTL` (R214); a `DIV` below the limit of its mode is refused as out of range (Table 7.5, log entry 49). -/
def Chip.spCtl (j v : Nat) (c : Chip) : Rsp × Chip :=
  let m := bits v 2 0
  let samePins := (List.range 4).all (fun i => c.get (F.SPORT_CTL_PIN j i) = bits v (32 + 8 * i + 6) (32 + 8 * i))
  if 5 ≤ m then (rspReservedCode, c)
  else if (spPins v).any (fun p => decide (95 < p)) ∨ (m = 3 ∧ bits v 23 8 < 7) ∨ (m = 4 ∧ bits v 23 8 < 24) then (rspRange, c)
  else if (List.range 32).any (fun i => i ≠ j && c.get (F.SPORT_CTL_MODE i) ≠ 0 && (spPins v).any (fun p => (c.portPins i).contains p)) then
    (rspDenied, c)
  else if c.get (F.SPORT_CTL_MODE j) ≠ 0 && m ≠ 0 && !(m = c.get (F.SPORT_CTL_MODE j) && samePins) then (rspState, c)
  else
    let c := c.forAll [F.SPORT_CTL_MODE j, F.SPORT_CTL_HOST j, F.SPORT_CTL_SPIMODE j, F.SPORT_CTL_PAR_EN j, F.SPORT_CTL_PAR_ODD j, F.SPORT_CTL_DIV j]
      (fun f => Chip.set f (bits v (f.lo + f.w - 1) f.lo))
    let c := if m = 0 then c.setSport j (fun p => { p with busy := false }) else c
    (rspOk, (c.forAll (List.range 4) (fun i => Chip.set (F.SPORT_CTL_PIN j i) (bits v (32 + 8 * i + 6) (32 + 8 * i)))).spOwners)

/-- A host push to the transmit buffer (R213, R214). -/
def Chip.spPush (j v : Nat) (c : Chip) : Rsp × Chip :=
  if !c.is (F.SPORT_CTL_HOST j) ∨ 64 ≤ (c.sport j).tx.length then (rspState, c)
  else (rspOk, c.setSport j (fun p => { p with tx := p.tx ++ [v % 4096] }))

/-- A host read of the oldest received byte, with `VALID` (R213). -/
def Chip.spPop (j : Nat) (c : Chip) : Rsp × Nat × Chip :=
  if !c.is (F.SPORT_CTL_HOST j) then (rspState, 0, c)
  else match (c.sport j).rx with
    | [] => (rspOk, 0, c)
    | b :: q => (rspOk, b + 256, (c.setSport j (fun p => { p with rx := q })).portSettle j)

/-- `SP_STAT` of port `j` (Table 7.10). -/
def Chip.spStat (c : Chip) (j : Nat) : Nat :=
  (c.sport j).tx.length + (c.sport j).rx.length * 2 ^ 8 + b2n ((c.sport j).tx ≠ [] || (c.sport j).busy) * 2 ^ 16 +
    c.get (F.SPORT_STAT_RX_OVR j) * 2 ^ 17 + c.get (F.SPORT_STAT_FRAME_ERR j) * 2 ^ 18 + c.get (F.SPORT_STAT_NACK j) * 2 ^ 19

/-- The transmit entries after the one whose `END` closes the present transfer. -/
def dropTransfer : List Nat → List Nat
  | [] => []
  | w :: q => if w.testBit 9 then q else dropTransfer q

/-- SERIAL_BYTE_RECEIVED: a byte, on a UART with a frame or parity error, or a NACK to an I2C controller's write, which ends the
transfer with a STOP (R214). -/
def Chip.spReceive (j byte : Nat) (bad nack : Bool) (c : Chip) : Chip :=
  let m := c.get (F.SPORT_CTL_MODE j)
  if m = 0 || (nack && m ≠ 4) then c
  else if nack then
    ((c.setSport j (fun p => { p with tx := dropTransfer p.tx, busy := false })).serialOut j [.stop]).flagEvent
      (F.SPORT_STAT_NACK j) EV_FAB_SERIAL (j + 3 * 32)
  else
    let c := if bad && m = 3 then c.flagEvent (F.SPORT_STAT_FRAME_ERR j) EV_FAB_SERIAL (j + 2 * 32) else c
    if 64 ≤ (c.sport j).rx.length then c.flagEvent (F.SPORT_STAT_RX_OVR j) EV_FAB_SERIAL (j + 32)
    else (c.setSport j (fun p => { p with rx := p.rx ++ [byte] })).portSettle j

/-- What a transmit entry puts on the pins of a mode (Tables 7.5 and 7.10): in I2C a START before the byte, the acknowledge bit in
place of a byte for a read, a STOP after it; for an SPI controller the rise of CS_N after it. -/
def sendSigs (mode w : Nat) : List SerialSig :=
  let i2c := decide (mode = 4)
  (if i2c && w.testBit 8 then [.start] else []) ++
    (if i2c && w.testBit 10 then [.ack (w.testBit 11)] else [.byte (w % 256)]) ++
    (if w.testBit 9 then (if i2c then [.stop] else if mode = 1 then [.csRise] else []) else [])

/-- SERIAL_BYTE_SENT: the oldest transmit entry is finished (R213). A transfer stays open until an entry with `END`. -/
def Chip.spSent (j : Nat) (c : Chip) : Chip :=
  let m := c.get (F.SPORT_CTL_MODE j)
  match (c.sport j).tx with
  | [] => c
  | w :: q =>
    if m = 0 then c
    else
      ((c.setSport j (fun p => { p with tx := q, busy := (m = 1 || m = 4) && !w.testBit 9 })).serialOut j (sendSigs m w)).portSettle j

/-! ## The clock edge (R193, R198, R200, R213, R215, R217, R218) -/

/-- The levels of a region's inputs at an edge (R199, R213, R215): words in gate buffers, acknowledgements, the AUX_IO input, the
byte interface of its serial port, and the signals that are 1 at the riser gate and the scratchpad ports. -/
def Chip.inputsOf (c : Chip) (r : Nat) (auxIn : Bool) (riser ports : List Nat) (s : Source) : Bool :=
  let g := c.rg r
  let j := r / 6
  let own := r % 6 = 0 && !c.is (F.SPORT_CTL_HOST j)
  match s with
  | .gateBit k b => ((tget [] k g.gates).headD 0).testBit b
  | .gateFull k => (tget [] k g.gates) ≠ []
  | .gateAck k => (tfind k g.sent).isNone
  | .aux => auxIn
  | .serialBit b => own && ((c.sport j).rx.headD 0).testBit b
  | .serialFull => own && (c.sport j).rx ≠ []
  | .serialRoom => own && decide ((c.sport j).tx.length < 64)
  | .riser i => riser.contains i
  | .port i => ports.contains i
  | _ => false

/-- The region's AUX_IO pin at an edge: its input, where the image gives it to the region, and its new level (R214, R215). -/
def Chip.auxEdge (r : Nat) (auxIn : Bool) (c : Chip) : Chip :=
  let k := r % 96
  let c := if c.auxRegion k = some r || c.auxOwner k = some r then c.set (F.AUX_STAT_IN k) (b2n auxIn) else c
  c.auxOfRegion r

/-- The byte interface of a design-owned serial port at its region's boundary (R213), as its signals stood before the edge. -/
def Chip.serialEdge (r bnd : Nat) (c : Chip) : Chip :=
  let j := r / 6
  if r % 6 = 0 ∧ !c.is (F.SPORT_CTL_HOST j) then
    let c := if bndLevel bnd .serialPush && decide ((c.sport j).tx.length < 64) then
      c.setSport j (fun p => { p with tx := p.tx ++ [bndBits bnd 8 (fun b => .serialBit b)] }) else c
    if bndLevel bnd .serialTake then (c.setSport j (fun p => { p with rx := p.rx.tail })).portSettle j else c
  else c

/-- REGION_CLOCK_EDGE: a rising edge of a RUN region's clock under its governing stop. The flip-flops and boundary flip-flops capture
what the stop computes from the state before the edge; the hard blocks at the boundary take the signals that stood before it:
the design's stop request, gate words, the serial byte, the taps (R193 to R200, R203 to R205, R218). -/
def Chip.clockEdge (r : Nat) (auxIn : Bool) (riser ports : List Nat) (c : Chip) : Chip :=
  if c.rgState r ≠ rgRun then c
  else
    let fs := c.govFrames r
    let g := c.rg r
    let t := c.freeCtr
    let inputs := c.inputsOf r auxIn riser ports
    let lv := partyLevels fs g.ff
    let rose := lv &&& (15 - c.get (F.FAB_RG_STAT_PARTY r))
    let g' := { g.gatesEdge with
      ff := ffsAfter fs g.ff inputs t
      bnd := bndAfter fs g.ff g.bnd inputs t
      rose := g.rose ||| rose
      design := if bndLevel g.bnd .stopReq then some (bndBits g.bnd 3 (fun i => .stopSel i)) else none }
    let c := (c.set (F.FAB_RG_STAT_PARTY r) lv).setRg r (fun _ => g')
    let c := (c.freeNext.capSample r (bndBits g.bnd 64 (fun i => .tap i)) rose).serialEdge r g.bnd
    c.auxEdge r auxIn

/-! ## Commands (R220) -/

def dtRegionState : Nat := 0x40
def dtCapBusy : Nat := 0x41
def dtCapBankOff : Nat := 0x42
def dtCapNotDone : Nat := 0x43

/-- A region number in a 4-byte payload. -/
def rgChk (_c : Chip) (pl : List Byte) : Option (Nat × Nat) := orElse (lenIs 4 pl) (param (decide (pf pl 0 4 < 192)))

/-- Run a fabric command unless its region is RETIRED (R220). -/
def notRetired (r id : Nat) (f : Chip → Chip) (c : Chip) : Chip :=
  if c.rgState r = rgRetired then c.fail id ST_RETIRED dtNone else f c

def cmdFabStatus : Cmd := Cmd.plain 0x0B 0x00 live rgChk (fun id pl c =>
  let r := pf pl 0 4
  notRetired r id (fun c => c.ok id (natLe 8 (c.regWord (F.FAB_RG_STAT_GOV r).off) ++ natLe 8 (c.regWord (F.FAB_RG_CTL_CLKSRC r).off) ++
    natLe 8 (c.regWord (F.FAB_RG_CNT_LOST r).off) ++ natLe 8 (c.regWord (F.FAB_RG_CAPSTAT_CSTATE r).off) ++
    natLe 8 (c.get (F.FAB_RG_GDISC_COUNT r)))) c)

def cmdFabProbe : Cmd := Cmd.plain 0x0B 0x01 live
  (lenParam 4 (fun pl => decide (pb pl 0 < 16) && decide (pb pl 1 < 192) && bit (pb pl 2) 6 = 0 && pb pl 3 = 0))
  (fun id pl c => notRetired (pb pl 1) id (fun c =>
    let j := pb pl 0
    ((((c.set (F.PROBE_SEL_REGION j) (pb pl 1)).set (F.PROBE_SEL_TAP j) (bits (pb pl 2) 5 0)).set (F.PROBE_SEL_EN j) (bit (pb pl 2) 7)).probeSettle j).ok id []) c)

def cmdFabCapArm : Cmd := Cmd.plain 0x0B 0x02 live
  (lenParam 24 (fun pl => decide (pb pl 0 < 192) && decide (bits (pb pl 1) 1 0 ≠ 3) && bits (pb pl 1) 7 4 = 0 &&
    decide (pf pl 2 2 < 1024) && pf pl 4 4 = 0))
  (fun id pl c =>
    let r := pb pl 0
    notRetired r id (fun c =>
      if c.capBusy r then c.fail id ST_BAD_STATE dtCapBusy
      else if c.rgState r ≠ rgRun then c.fail id ST_BAD_STATE dtRegionState
      else if 2 ≤ c.bankState r 15 then c.fail id ST_BAD_STATE dtCapBankOff
      else
        let c := ((c.set (F.FAB_RG_CAPCTL_TMODE r) (bits (pb pl 1) 1 0)).set (F.FAB_RG_CAPCTL_TPARTY r) (bits (pb pl 1) 3 2)).set
          (F.FAB_RG_CAPCTL_TRIG_POS r) (pf pl 2 2)
        let c := (c.set (F.FAB_RG_TRIGVAL_VAL r) (pf pl 8 8)).set (F.FAB_RG_TRIGMASK_MASK r) (pf pl 16 8)
        (c.capArm r).ok id []) c)

def cmdFabCapStop : Cmd := Cmd.plain 0x0B 0x03 live rgChk (fun id pl c =>
  notRetired (pf pl 0 4) id (fun c => (c.capStop (pf pl 0 4)).ok id []) c)

def cmdFabCapRead : Cmd := Cmd.plain 0x0B 0x04 live
  (lenParam 8 (fun pl => decide (pb pl 0 < 192) && pb pl 1 = 0 && decide (pf pl 2 2 < 1024) && decide (1 ≤ pf pl 4 2) &&
    decide (pf pl 4 2 ≤ 511) && pf pl 6 2 = 0))
  (fun id pl c =>
    let r := pb pl 0
    notRetired r id (fun c =>
      if c.get (F.FAB_RG_CAPSTAT_CSTATE r) ≠ csDone then c.fail id ST_BAD_STATE dtCapNotDone
      else
        let n := min (pf pl 4 2) (c.get (F.FAB_RG_CAPSTAT_COUNT r) - pf pl 2 2)
        c.ok id ((List.range n).flatMap (fun i =>
          memRead (capAddr r ((c.get (F.FAB_RG_CAPSTAT_START r) + pf pl 2 2 + i) % 1024)) 8 c.mem))) c)

/-! ## Meanings -/

def execStopRequestArrival (r : Fin 192) (src : Fin 3) (s : State) := runChip (Chip.stopArrive r src) s
def execStopSwitchDecision (r : Fin 192) (s : State) := runChip (Chip.stopDecide r) s
def execGateWordArrival (src dst : Fin 192) (bore : Fin 800) (upper : Bool) (s : State) :=
  runChip (Chip.gateWord src dst (2 * bore + b2n upper)) s
def execPartyLineRise (r : Fin 192) (lines : BitVec 4) (s : State) := runChip (Chip.partyRise r lines.toNat) s
def execRoMeasure (r : Fin 192) (mhz : BitVec 16) (s : State) := runChip (Chip.roMeasure r mhz.toNat) s
def execFabBcastGo (data : Word) (s : State) := runChip (fun c => answerWrite (c.fabBcast data.toNat)) s
def execFabRgClrCnt (r : Fin 192) (data : Word) (s : State) := runChip (fun c => answerWrite (c.rgCtlWrite r data.toNat)) s
def execFabRgCapctlArm (r : Fin 192) (data : Word) (s : State) := runChip (fun c => answerWrite (c.capCtlWrite r data.toNat)) s
def execFabRgCapctlStop (r : Fin 192) (data : Word) (s : State) := runChip (fun c => answerWrite (c.capCtlWrite r data.toNat)) s
def execCaptureTrigger (r : Fin 192) (s : State) := runChip (Chip.capTrigger r) s
def execCaptureDone (r : Fin 192) (s : State) := runChip (Chip.capDone r) s
def execSpCtlWrite (j : Fin 32) (data : Word) (s : State) := runChip (fun c => answerWrite (c.spCtl j data.toNat)) s
def execSpTxWrite (j : Fin 32) (data : Word) (s : State) := runChip (fun c => answerWrite (c.spPush j data.toNat)) s
def execSpRxRead (j : Fin 32) (s : State) :=
  runChip (fun c => (c.spPop j).2.2.answer (c.spPop j).1 (c.spPop j).2.1) s
def execSerialByteReceived (j : Fin 32) (byte : Byte) (bad : Bool) (nack : Bool) (s : State) :=
  runChip (Chip.spReceive j byte.toNat bad nack) s
def execSerialByteSent (j : Fin 32) (s : State) := runChip (Chip.spSent j) s
def execRegionClockEdge (r : Fin 192) (auxIn : Bool) (riser ports : List Nat) (s : State) :=
  runChip (Chip.clockEdge r auxIn riser ports) s
def execChFabStatus (p : Pkt) (s : State) := runAon (Chip.command cmdFabStatus p) s
def execChFabProbe (p : Pkt) (s : State) := runAon (Chip.command cmdFabProbe p) s
def execChFabCapArm (p : Pkt) (s : State) := runAon (Chip.command cmdFabCapArm p) s
def execChFabCapStop (p : Pkt) (s : State) := runAon (Chip.command cmdFabCapStop p) s
def execChFabCapRead (p : Pkt) (s : State) := runAon (Chip.command cmdFabCapRead p) s

end Sys2Proof.Machine
end

