-- ==== Sys2Proof/Machine/Scratch.lean ====
section
/-! DEFINITION. Region scratchpad banks (chapter 9): the operations of both ports, collisions, error correction, power
states, leases, and the scratchpad commands. -/

namespace Sys2Proof.Machine

/-! ## Banks and words (R253) -/

/-- Every bank of a region. -/
def banks : List Nat := List.range 16

/-- The network address of word `w` of region `r`. -/
def spAddr (r w : Nat) : Nat := 0x10000000000 + r * 2 ^ 20 + 16 * w

def bankOn : Nat := 0
def bankRet : Nat := 1
def bankOff : Nat := 2
def bankGone : Nat := 3

/-- The stored value of a word. -/
def Chip.spWord (c : Chip) (r w : Nat) : Nat := leNat (memRead (spAddr r w) 16 c.mem)

/-- An operation of a bank (Tables 9.1 and 11.2). -/
inductive SpOp | read | write | add64 | add128 | swap
  deriving DecidableEq, Repr

/-- The new value of a word under an atomic operation with operand `n` (R258). -/
def atomicValue (op : SpOp) (old n : Nat) : Nat :=
  match op with
  | .add64 => (old + n) % 2 ^ 64 + (old / 2 ^ 64 + n / 2 ^ 64) % 2 ^ 64 * 2 ^ 64
  | .add128 => (old + n) % 2 ^ 128
  | .swap => n % 2 ^ 128
  | .read | .write => old

/-- Whether the operation checks the stored word: every read and atomic, and a write of some but not all bytes
(R259, R260). -/
def SpOp.checks (op : SpOp) (be : Nat) : Bool :=
  match op with
  | .write => decide (be ≠ 0) && decide (be ≠ 0xFFFF)
  | _ => true

/-- The outcome of a bank operation. -/
inductive SpRes | ok (old : Nat) | uncorr
  deriving DecidableEq, Repr

/-- An uncorrectable word is met on a port: 0 port A, 1 port B (R259). -/
def Chip.spUncorr (r w port : Nat) (c : Chip) : Chip :=
  let a := spAddr r w
  let c := { c with sp := { c.sp with bad := if c.sp.bad.contains a then c.sp.bad else a :: c.sp.bad } }
  let c := ((c.inc (F.SP_CNT_A_SP_UNCORR_CNT r)).set (F.SP_ERR_STAT_UNC_WORD r) w).set (F.SP_ERR_STAT_UNC_PORT r) port
  (c.flagEvent (F.SP_ERR_STAT_UNCORR r) EV_SP_UNCORRECTABLE (r + w * 2 ^ 8 + port * 2 ^ 24)).tqPush elemWord
    (r + w % 16 * 2 ^ 8 + w / 16 * 2 ^ 12) []

/-- A single-bit error is corrected (R259). -/
def Chip.spCorrect (r w : Nat) (c : Chip) : Chip :=
  ((c.inc (F.SP_CNT_A_SP_CORR_CNT r)).flagEvent (F.SP_ERR_STAT_CORR r) EV_SP_CORRECTED (r + w % 16 * 2 ^ 8)).tqPush elemWord
    (r + w % 16 * 2 ^ 8 + w / 16 * 2 ^ 12) []

/-- The store of a bank operation. -/
def Chip.spStore (r w : Nat) (op : SpOp) (n be : Nat) (c : Chip) : Chip :=
  let a := spAddr r w
  match op with
  | .read => c
  | .write =>
    let bs := (List.range 16).zip (natLe 16 n) |>.map (fun p => (be.testBit p.1, p.2))
    let bad := if be % 2 ^ 16 = 0xFFFF then c.sp.bad.filter (fun x => x ≠ a) else c.sp.bad
    { c with mem := memWriteMask a bs c.mem, sp := { c.sp with bad := bad } }
  | op => { c with mem := memWrite a (natLe 16 (atomicValue op (c.spWord r w) n)) c.mem }

/-- One bank operation on word `w` of region `r`: operand `n`, byte enables `be`, and what the check finds (0 nothing,
1 a single-bit error, 2 an uncorrectable one). An uncorrectable word stays so until written whole (R256, R258 to R260). -/
def Chip.bankOp (r w : Nat) (op : SpOp) (n be flaw port : Nat) (c : Chip) : SpRes × Chip :=
  if op.checks (be % 2 ^ 16) && (flaw = 2 || c.sp.bad.contains (spAddr r w)) then (.uncorr, c.spUncorr r w port)
  else
    let old := c.spWord r w
    let c := if op.checks (be % 2 ^ 16) && flaw = 1 then c.spCorrect r w else c
    (.ok old, c.spStore r w op n be)

/-- Whether a word of region `r` holds samples of a capture in progress: writes of the design to it are discarded, and
network writes refused (R218). -/
def Chip.capHolds (c : Chip) (r w : Nat) : Bool := c.capBusy r && w % 16 = 15 && decide (w / 16 < 512)

/-! ## Port A (R254, R261, R265) -/

/-- The data a port-A result carries: read data, or the old value of an atomic (Table 9.1). -/
def SpOp.result (op : SpOp) (old : Nat) : Option Nat :=
  match op with
  | .write => none
  | _ => some old

/-- A write or atomic that a capture in progress discards (R218): the word is still checked where the operation reads it, and
nothing is stored. -/
def Chip.bankDiscard (r w : Nat) (op : SpOp) (be flaw : Nat) (c : Chip) : SpRes × Chip :=
  if op.checks (be % 2 ^ 16) then c.bankOp r w .read 0 0 flaw 0 else (.ok 0, c)

/-- A port-A request at bank `b` of region `r`: accepted at an edge of a RUN region with A_READY 1. A bank that is not ON
ends it with A_STAT 2. -/
def Chip.portA (r b k : Nat) (op : SpOp) (n be flaw : Nat) (c : Chip) : Chip :=
  if c.rgState r ≠ rgRun || c.is (F.SP_PWR_STAT_LEASE r b) || (c.is (F.SP_PWR_STAT_BUSY r b) && tget 0 (16 * r + b) c.sp.goal = bankOn) then c
  else if c.bankState r b ≠ bankOn || c.is (F.SP_PWR_STAT_BUSY r b) then c.emit (.portA r b 2 none)
  else
    let c := { c with sp := { c.sp with lastA := tset (16 * r + b) (2 * k + (if op = SpOp.read then 0 else 1)) c.sp.lastA } }
    let held := c.capHolds r (16 * k + b) && op ≠ SpOp.read
    match (if held then c.bankDiscard r (16 * k + b) op be flaw else c.bankOp r (16 * k + b) op n be flaw 0) with
    | (.ok old, c) => c.emit (.portA r b 0 (op.result old))
    | (.uncorr, c) => c.emit (.portA r b 1 none)

/-- A port-A request with a reserved A_OP. -/
def Chip.portABad (r b : Nat) (c : Chip) : Chip :=
  if c.rgState r ≠ rgRun || c.is (F.SP_PWR_STAT_LEASE r b) || (c.is (F.SP_PWR_STAT_BUSY r b) && tget 0 (16 * r + b) c.sp.goal = bankOn) then c
  else if c.bankState r b ≠ bankOn || c.is (F.SP_PWR_STAT_BUSY r b) then c.emit (.portA r b 2 none)
  else c.emit (.portA r b 3 none)

/-! ## Port B (R255, R257, R261) -/

/-- What becomes of one port-B word. -/
inductive PortB | wait | done (r : Rsp) (old : Nat)
  deriving DecidableEq, Repr

/-- A port-B operation on one word. `coll` says that port A has an operation accepted on this word in the same cycle: where
that is a write or atomic, a port-B write or atomic is discarded (Table 9.2). -/
def Chip.portB (r w : Nat) (op : SpOp) (n be flaw : Nat) (coll : Bool) (c : Chip) : PortB × Chip :=
  let b := w % 16
  let st := c.rgState r
  let busy := c.is (F.SP_PWR_STAT_BUSY r b)
  let goal := tget 0 (16 * r + b) c.sp.goal
  if c.bankState r b = bankGone then (.done ⟨5, if st = rgRetired then 0x05 else 0⟩ 0, c)
  else if st = rgHeld || c.is (F.SP_PWR_STAT_LEASE r b) || (busy && goal = bankOn) then (.wait, c)
  else if st = rgOff || c.bankState r b ≠ bankOn || busy then (.done rspOff 0, c)
  else if op ≠ SpOp.read && c.capHolds r w then (.done ⟨1, c.freeVal % 256⟩ 0, c.freeNext)
  else if coll && op ≠ SpOp.read && tfind (16 * r + b) c.sp.lastA = some (2 * (w / 16) + 1) then
    (.done rspCollided 0, (c.inc (F.SP_CNT_B_SP_COLL_CNT r)).flagEvent (F.SP_ERR_STAT_COLLIDED r) EV_SP_COLLIDED (r + w * 2 ^ 8))
  else
    match c.bankOp r w op n be flaw 1 with
    | (.ok old, c) => (.done rspOk old, c)
    | (.uncorr, c) => (.done rspUncorr 0, c)

/-! ## Power states (R261 to R263) -/

/-- Zero a bank with valid check bits (R262): words w with w mod 16 = b. Nothing is left to rewrite through a new map. -/
def Chip.bankZero (r b : Nat) (c : Chip) : Chip :=
  let mine := fun (a : Nat) => decide (spAddr r 0 ≤ a) && decide (a < spAddr r 65536) && (a - spAddr r 0) / 16 % 16 = b
  { c with mem := c.mem.filter (fun e => !mine e.1)
           sp := { c.sp with bad := c.sp.bad.filter (fun a => !mine a), remap := tdel (16 * r + b) c.sp.remap } }

/-- The state that a bank is to take: its `MODE`, but RETENTION in place of ON while its region is OFF (R263). -/
def Chip.bankWant (c : Chip) (r b : Nat) : Nat :=
  let m := c.get (F.SP_PWR_CTL_MODE r b)
  if m = bankOn ∧ c.rgState r = rgOff then bankRet else m

/-- Start the transition a bank owes, unless one is in progress or the bank is retired; its lease ends (R262, R265). -/
def Chip.bankStart (r b : Nat) (c : Chip) : Chip :=
  let w := c.bankWant r b
  if c.is (F.SP_PWR_STAT_BUSY r b) || c.bankState r b = bankGone || c.bankState r b = w then c
  else
    let c := (c.set (F.SP_PWR_STAT_BUSY r b) 1).set (F.SP_PWR_STAT_LEASE r b) 0
    { c with sp := { c.sp with goal := tset (16 * r + b) w c.sp.goal } }

/-- End the `CH_SP_POWER` commands whose banks are all in their state. -/
def Chip.powerDone (c : Chip) : Chip :=
  let ok := fun (q : Nat × Nat × Nat × List Nat) => q.2.2.2.all (fun b => c.bankState q.2.1 b = q.2.2.1 && !c.is (F.SP_PWR_STAT_BUSY q.2.1 b))
  let fin := c.sp.waits.filter ok
  let c := { c with sp := { c.sp with waits := c.sp.waits.filter (fun q => !ok q) } }
  c.forAll fin (fun q => Chip.ok q.1 [])

/-- BANK_TRANSITION_DONE: the bank is in its goal state; contents are lost on the way to and from OFF (R262). A state asked
for meanwhile takes effect now. -/
def Chip.bankDone (r b : Nat) (c : Chip) : Chip :=
  if !c.is (F.SP_PWR_STAT_BUSY r b) then c
  else
    let g := tget 0 (16 * r + b) c.sp.goal
    let c := if g = bankOff ∨ c.bankState r b = bankOff then c.bankZero r b else c
    let c := (c.set (F.SP_PWR_STAT_STATE r b) g).set (F.SP_PWR_STAT_BUSY r b) 0
    (({ c with sp := { c.sp with goal := tdel (16 * r + b) c.sp.goal } } : Chip).powerDone).bankStart r b

/-- The banks of a region follow its going OFF: every ON bank enters RETENTION and leases end (R263, R265). A transition in
progress completes first (R262). -/
def Chip.spRegionOff (r : Nat) (c : Chip) : Chip :=
  (c.endLeases r).forAll banks (fun b c =>
    if c.bankState r b = bankOn && !c.is (F.SP_PWR_STAT_BUSY r b) then c.set (F.SP_PWR_STAT_STATE r b) bankRet else c)

/-- The banks of a region follow its return to RUN (R263). -/
def Chip.spRegionOn (r : Nat) (c : Chip) : Chip :=
  c.forAll banks (fun b c =>
    if c.bankState r b = bankRet && !c.is (F.SP_PWR_STAT_BUSY r b) && c.get (F.SP_PWR_CTL_MODE r b) = bankOn then
      c.set (F.SP_PWR_STAT_STATE r b) bankOn
    else c)

/-- Retire a bank: OFF for good, shown RETIRED; its region is DEGRADED (R263). -/
def Chip.bankRetire (r b : Nat) (c : Chip) : Chip :=
  let c := (((c.bankZero r b).set (F.SP_PWR_STAT_STATE r b) bankGone).set (F.SP_PWR_STAT_BUSY r b) 0).set (F.SP_PWR_STAT_LEASE r b) 0
  ({ c with sp := { c.sp with goal := tdel (16 * r + b) c.sp.goal } } : Chip).set (F.FAB_RG_STAT_DEGRADED r) 1

/-- Every bank of a retired region is RETIRED (R263). -/
def Chip.spRegionRetire (r : Nat) (c : Chip) : Chip :=
  c.forAll banks (fun b c =>
    let c := (((c.bankZero r b).set (F.SP_PWR_STAT_STATE r b) bankGone).set (F.SP_PWR_STAT_BUSY r b) 0).set (F.SP_PWR_STAT_LEASE r b) 0
    { c with sp := { c.sp with goal := tdel (16 * r + b) c.sp.goal } })

/-- Whether a set of bank modes would take bank 15 out of ON while the region's capture is ARMED or TRIGGERED (R263). -/
def Chip.capKeeps (c : Chip) (r mode15 : Nat) : Bool := mode15 ≠ bankOn && c.capBusy r && c.bankState r 15 = bankOn

/-- SP_PWR_CTL_WRITE (R261, Table 9.5). -/
def Chip.pwrWrite (r v : Nat) (c : Chip) : Rsp × Chip :=
  let m := fun (b : Nat) => bits v (2 * b + 1) (2 * b)
  if banks.any (fun b => m b = 3) then (rspReservedCode, c)
  else if c.capKeeps r (m 15) then (rspState, c)
  else
    let c := c.forAll banks (fun b => Chip.set (F.SP_PWR_CTL_MODE r b) (m b))
    (rspOk, c.forAll banks (fun b => Chip.bankStart r b))

/-! ## Leases (R265) -/

/-- LEASE_START: on an ON bank without operation outstanding. -/
def Chip.leaseStart (r b : Nat) (c : Chip) : Chip :=
  if c.rgState r = rgRun && c.bankState r b = bankOn && !c.is (F.SP_PWR_STAT_BUSY r b) then c.set (F.SP_PWR_STAT_LEASE r b) 1 else c

/-- A bank's words are to be rewritten through a new column map, under leases (R264). -/
def Chip.remapStart (r b : Nat) (c : Chip) : Chip := { c with sp := { c.sp with remap := tset (16 * r + b) 0 c.sp.remap } }

/-- LEASE_END: every word holds what it held at the start. A remapping has moved its rewrite point by a free number of words; at the last
word it is complete (R264). -/
def Chip.leaseEnd (r b : Nat) (c : Chip) : Chip :=
  if !c.is (F.SP_PWR_STAT_LEASE r b) then c
  else
    let c := c.set (F.SP_PWR_STAT_LEASE r b) 0
    match tfind (16 * r + b) c.sp.remap with
    | none => c
    | some p =>
      let p := p + c.freeVal
      let m := if 4096 ≤ p then tdel (16 * r + b) c.sp.remap else tset (16 * r + b) p c.sp.remap
      Chip.freeNext { c with sp := { c.sp with remap := m } }

/-- SP_CNT_CLR. -/
def Chip.spCntClr (r v : Nat) (c : Chip) : Chip :=
  let c := if v.testBit 0 then c.clear [F.SP_CNT_A_SP_CORR_CNT r, F.SP_CNT_A_SP_UNCORR_CNT r] else c
  if v.testBit 1 then c.set (F.SP_CNT_B_SP_COLL_CNT r) 0 else c

/-! ## Commands (R267) -/

def dtCapArmed : Nat := 0x40

/-- The offset of a scratchpad register of region `r` in control space. -/
def spReg (r off : Nat) : Nat := 0xE10000 + 0x40 * r + off

/-- A region number in byte 0 of a 4-byte payload. -/
def rgnChk (_c : Chip) (pl : List Byte) : Option (Nat × Nat) := orElse (lenIs 4 pl) (param (decide (pf pl 0 4 < 192)))

/-- A command on a region ends with ST_RETIRED or ST_DOMAIN_OFF by the region's state (R267). -/
def Chip.rgnRefusal (c : Chip) (r : Nat) : Option (Nat × Nat) :=
  if c.rgState r = rgRetired then some (ST_RETIRED, dtNone)
  else if c.rgState r = rgOff then some (ST_DOMAIN_OFF, dtNone)
  else none

def cmdSpStatus : Cmd := Cmd.plain 0x02 0x00 live rgnChk (fun id pl c =>
  let r := pf pl 0 4
  match c.rgnRefusal r with
  | some e => c.fail id e.1 e.2
  | none => c.ok id ([0x00, 0x08, 0x10, 0x18, 0x20].flatMap (fun o => natLe 8 (c.regWord (spReg r o)))))

def cmdSpPower : Cmd := Cmd.plain 0x02 0x01 live
  (lenParam 8 (fun pl => decide (pb pl 0 < 192) && decide (pb pl 1 < 3) && pf pl 4 4 = 0))
  (fun id pl c =>
    let r := pb pl 0
    let bs := banks.filter (fun b => (pf pl 2 2).testBit b)
    match c.rgnRefusal r with
    | some e => c.fail id e.1 e.2
    | none =>
      if bs.any (fun b => c.bankState r b = bankGone) then c.fail id ST_RETIRED dtNone
      else if bs.contains 15 && c.capKeeps r (pb pl 1) then c.fail id ST_BAD_STATE dtCapArmed
      else
        let c := c.interim id ST_ACCEPTED dtNone []
        let c := c.forAll bs (fun b => Chip.set (F.SP_PWR_CTL_MODE r b) (pb pl 1))
        let c := c.forAll bs (fun b => Chip.bankStart r b)
        ({ c with sp := { c.sp with waits := c.sp.waits ++ [(id, r, pb pl 1, bs)] } } : Chip).powerDone)

def cmdSpColmapRead : Cmd := Cmd.plain 0x02 0x02 live rgnChk (fun id pl c =>
  let r := pf pl 0 4
  match c.rgnRefusal r with
  | some e => c.fail id e.1 e.2
  | none => c.ok id (banks.flatMap (fun b => natLe 8 (tget 0 (16 * r + b) c.sp.cols))))

/-! ## The commands -/

def execSpARead (r : Fin 192) (bank : Fin 16) (k : BitVec 12) (flaw : Fin 3) (s : State) :=
  runChip (Chip.portA r bank k.toNat .read 0 0 flaw) s
def execSpAWrite (r : Fin 192) (bank : Fin 16) (k : BitVec 12) (data : Wide) (be : BitVec 16) (flaw : Fin 3) (s : State) :=
  runChip (Chip.portA r bank k.toNat .write data.toNat be.toNat flaw) s
def execSpAAdd64 (r : Fin 192) (bank : Fin 16) (k : BitVec 12) (data : Wide) (flaw : Fin 3) (s : State) :=
  runChip (Chip.portA r bank k.toNat .add64 data.toNat 0 flaw) s
def execSpAAdd128 (r : Fin 192) (bank : Fin 16) (k : BitVec 12) (data : Wide) (flaw : Fin 3) (s : State) :=
  runChip (Chip.portA r bank k.toNat .add128 data.toNat 0 flaw) s
def execSpASwap (r : Fin 192) (bank : Fin 16) (k : BitVec 12) (data : Wide) (flaw : Fin 3) (s : State) :=
  runChip (Chip.portA r bank k.toNat .swap data.toNat 0 flaw) s
def execSpAReservedOp (r : Fin 192) (bank : Fin 16) (s : State) := runChip (Chip.portABad r bank) s
def execSpPwrCtlWrite (r : Fin 192) (data : Word) (s : State) := runChip (fun c => answerWrite (c.pwrWrite r data.toNat)) s
def execBankTransitionDone (r : Fin 192) (bank : Fin 16) (s : State) := runChip (Chip.bankDone r bank) s
def execSpCntClr (r : Fin 192) (data : Word) (s : State) := runChip (fun c => (c.spCntClr r data.toNat).answer rspOk 0) s
def execLeaseStart (r : Fin 192) (bank : Fin 16) (s : State) := runChip (Chip.leaseStart r bank) s
def execLeaseEnd (r : Fin 192) (bank : Fin 16) (s : State) := runChip (Chip.leaseEnd r bank) s
def execChSpStatus (p : Pkt) (s : State) := runAon (Chip.command cmdSpStatus p) s
def execChSpPower (p : Pkt) (s : State) := runAon (Chip.command cmdSpPower p) s
def execChSpColmapRead (p : Pkt) (s : State) := runAon (Chip.command cmdSpColmapRead p) s

end Sys2Proof.Machine
end

