-- ==== Sys2Proof/Machine/NetCore.lean ====
section
/-! DEFINITION. The on-stack network's common operations (chapter 11): targets and routes, domains, response buffers and
their epochs, sending, answering and cancelling requests. -/

namespace Sys2Proof.Machine

/-! ## Targets and routes (R293, R294, R297, R299, R305, R313) -/

/-- Where a local address lies (Table 1.11). -/
inductive Place | dram | spad (r w : Nat) | ctl (off : Nat) | none
  deriving DecidableEq, Repr

/-- Decode a local address. -/
def placeOf (a : Nat) : Place :=
  if a < 0x200000000 then .dram
  else if 0x10000000000 ≤ a ∧ a < 0x1000C000000 then .spad ((a - 0x10000000000) / 2 ^ 20) (a % 2 ^ 20 / 16)
  else if 0x20000000000 ≤ a ∧ a < 0x20000F00000 then .ctl (a - 0x20000000000)
  else .none

/-- The router of an NI. -/
def routerOf (ni : Nat) : Nat := if ni < 96 then ni else (ni - 96) % 96

/-- The NI that serves an address (Table 11.1). -/
def niOf (a : Nat) : Nat :=
  match placeOf a with
  | .dram => if drBank a % 16 < 8 then drBank a % 16 else 80 + drBank a % 16
  | .spad r _ => 96 + r
  | .ctl off =>
    match off / 2 ^ 20 with
    | 2 => 8 + bits off 19 16
    | 3 => 8 + bits off 19 15 / 2
    | 4 => 43
    | 5 => 44
    | 6 => 51
    | 8 => 0
    | 9 => 24
    | _ => 52
  | .none => 52

/-- One hop of the route between routers: along X, then Y; east 0, north 1, west 2, south 3 (R299). -/
def hopPort (a b : Nat) : Option Nat :=
  if a % 8 < b % 8 then some 0
  else if b % 8 < a % 8 then some 2
  else if a < b then some 1
  else if b < a then some 3
  else none

/-- The router beyond a port. -/
def hopNext (a p : Nat) : Nat := if p = 0 then a + 1 else if p = 1 then a + 8 else if p = 2 then a - 1 else a - 8

/-- The links of the route between two routers, as (router, port). -/
def routePath : Nat → Nat → Nat → List (Nat × Nat)
  | 0, _, _ => []
  | fuel + 1, a, b =>
    match hopPort a b with
    | none => []
    | some p => (a, p) :: routePath fuel (hopNext a p) b

/-- The state of an outgoing link: 0 full, 1 half, 2 retired, 3 no link (Table 11.11). -/
def Chip.linkState (c : Chip) (n p : Nat) : Nat :=
  if atEdge n p then 3
  else bits (c.get (F.ROUTER_STAT_LINK n)) (2 * p + 1) (2 * p)

/-- Whether every link of the route between two NIs is in use, its riser included (R313). -/
def Chip.routeOk (c : Chip) (a b : Nat) : Bool :=
  (routePath 20 (routerOf a) (routerOf b)).all (fun l => c.linkState l.1 l.2 < 2) &&
    (b < 96 || c.get (F.ROUTER_STAT_ZLINK (routerOf b)) = 0) && (a < 96 || c.get (F.ROUTER_STAT_ZLINK (routerOf a)) = 0)

/-- The rules of R297 for a request of `n` words: alignment, one 256-byte block, and the control-space sizes. -/
def reqAligned (kind addr n rbe : Nat) (bes : List Nat) : Bool :=
  addr % 16 = 0 && decide (1 ≤ n) && decide (n ≤ 16) && decide (addr % 256 + 16 * n ≤ 256) &&
    (kind ≠ 0 || n = 1 || rbe = 0xFFFF) &&
    (match placeOf addr with
     | .ctl _ => n = 1 && [0x00FF, 0xFF00, 0xFFFF].contains (if kind = 0 then rbe else bes.headD 0)
     | _ => true)

/-! ## Domains (R309) -/

/-- The domain that an address belongs to, if its target is in one. -/
def domOf (a : Nat) : Option Nat :=
  match placeOf a with
  | .dram => some domDram
  | .spad r _ => some (domRegion r)
  | .ctl off =>
    if off / 2 ^ 20 = 2 then some (domEngine (bits off 19 16))
    else if off / 2 ^ 20 = 3 then some (domGroup (bits off 19 15))
    else if off / 2 ^ 20 = 8 then some domDram
    else none
  | .none => none

/-- The NIs that serve a domain, and the domains that an NI serves. -/
def domNis (d : Nat) : List Nat :=
  if d < 200 then [96 + d]
  else if d < 220 then [8 + (d - 200)]
  else if d < 260 then [8 + (d - 220) / 2]
  else if d < 270 then [24 + 8 * (d - 260)]
  else List.range 8 ++ (List.range 8).map (fun i => 88 + i)

/-- Show an NI's state: CLOSING or CLOSED while a domain it serves is. -/
def Chip.niShow (ni : Nat) (c : Chip) : Chip :=
  c.set (F.NI_STAT_STATE ni) (((c.net.doms.filter (fun e => (domNis e.1).contains ni)).map (fun e => e.2 % 4)).foldl max 0)

/-- Put a domain into a state. -/
def Chip.domSet (d v : Nat) (c : Chip) : Chip :=
  let c := { c with net := { c.net with doms := tput 0 d v c.net.doms } }
  c.forAll (domNis d) (fun ni => Chip.niShow ni)

/-! ## Response buffers (R295, R308) -/

/-- The key of a response buffer. -/
def bufKey (ni idx : Nat) : Nat := routerOf ni * 512 + idx

/-- The epoch and owed mask of a buffer. -/
def Chip.buf (c : Chip) (ni idx : Nat) : Nat × Nat := tget (0, 0) (bufKey ni idx) c.net.bufs

/-- The outstanding requests of an NI. -/
def Chip.outsOf (c : Chip) (ni : Nat) : List NOut := c.net.outs.filter (fun o => o.req.ni = ni)

/-- Show an NI's count of outstanding requests. -/
def Chip.outShow (ni : Nat) (c : Chip) : Chip := c.set (F.NI_STAT_OUT ni) (c.outsOf ni).length

/-- A free buffer of an NI's router, where the NI may use one more: the lowest (R295). -/
def Chip.freeBuf (c : Chip) (ni : Nat) : Option Nat :=
  let lim := max 1 (c.get (F.NI_CTL_OUT_MAX ni))
  if lim ≤ (c.outsOf ni).length then none
  else
    let used := (c.net.outs.filter (fun o => routerOf o.req.ni = routerOf ni)).map (fun o => o.req.idx)
    (List.range 512).find? (fun i => !used.contains i && (c.buf ni i).2 ≠ 15)

/-- The next epoch after `e` whose owed bit is clear. -/
def nextEpoch (e owed : Nat) : Nat :=
  (((List.range 4).map (fun i => (e + 1 + i) % 4)).find? (fun i => !owed.testBit i)).getD e

/-- A sent request ends without its response: its buffer owes one (R308). -/
def Chip.bufOwe (ni idx : Nat) (c : Chip) : Chip :=
  let b := c.buf ni idx
  let owed := setBit b.2 b.1
  let c := { c with net := { c.net with bufs := tput (0, 0) (bufKey ni idx) (nextEpoch b.1 owed, owed) c.net.bufs } }
  if owed = 15 then
    Chip.set (F.NI_STAT_WITHHELD ni) (c.get (F.NI_STAT_WITHHELD ni) + 1)
      { c with net := { c.net with held := tset (bufKey ni idx) ni c.net.held } }
  else c

/-- A late response is discarded: it clears the owed bit of its epoch, and a withheld buffer returns to use (R308). -/
def Chip.bufLate (ni idx ep : Nat) (c : Chip) : Chip :=
  let b := c.buf ni idx
  let k := bufKey ni idx
  let c := c.inc (F.NI_CNT_B_LATE_CNT ni) |>.set (F.NI_STAT_LATE ni) 1
  if b.2 = 15 then
    let c := { c with net := { c.net with bufs := tput (0, 0) k (ep, clrBit b.2 ep) c.net.bufs } }
    match tfind k c.net.held with
    | some h => Chip.set (F.NI_STAT_WITHHELD h) (c.get (F.NI_STAT_WITHHELD h) - 1)
        { c with net := { c.net with held := tdel k c.net.held } }
    | none => c
  else { c with net := { c.net with bufs := tput (0, 0) k (b.1, clrBit b.2 ep) c.net.bufs } }

/-! ## Sending, answering, cancelling -/

/-- Send a response towards an initiator. An error response carries no data (Table 11.4). -/
def Chip.respond (ni idx ep : Nat) (r : Rsp) (word : Nat) (data : List Nat) (src : Nat) (c : Chip) : Chip :=
  { c with net := { c.net with rsps := c.net.rsps ++
    [{ ni := ni, idx := idx, ep := ep, code := r.code, detail := r.detail, word := word,
       data := if r.code = 0 then data else [], from' := src }] } }

/-- A request's ingress queue at its target has room for one more of its class (R301); what has gone on into a riser gate does
not count. -/
def Chip.ingressOpen (c : Chip) (q : NReq) : Bool :=
  decide ((c.net.flight.filter (fun p => niOf p.addr = niOf q.addr && p.cls = q.cls && !c.net.gate.contains p)).length < 32)

/-- Send the waiting requests whose ingress queue has room, oldest first. -/
def Chip.netPump (c : Chip) : Chip :=
  c.forAll (c.net.outs.filter (fun o => !o.sent)) (fun o c =>
    if c.ingressOpen o.req && (c.net.outs.filter (fun p => !p.sent && p.req.ni = o.req.ni && p.req.cls = o.req.cls &&
        niOf p.req.addr = niOf o.req.addr)).head? = some o then
      { c with net := { c.net with
        flight := c.net.flight ++ [o.req]
        outs := c.net.outs.map (fun p => if p = o then { p with sent := true } else p) } }
    else c)

/-- The oldest in-flight request that a buffer of an NI holds. -/
def Chip.inFlight (c : Chip) (ni idx : Nat) : Option NReq := c.net.flight.find? (fun q => q.ni = ni && q.idx = idx)

/-- Whether a request in flight is the first of its class between its NI and its target (R300), or has gone on into the riser
gate there. -/
def Chip.firstOf (c : Chip) (q : NReq) : Bool :=
  c.net.gate.contains q ||
    c.net.flight.find? (fun p => p.ni = q.ni && p.cls = q.cls && niOf p.addr = niOf q.addr && !c.net.gate.contains p) = some q

/-- Take a request out of flight; others may be sent. -/
def Chip.unflight (q : NReq) (c : Chip) : Chip :=
  Chip.netPump { c with net := { c.net with flight := c.net.flight.erase q, gate := c.net.gate.erase q } }

/-- The requests in the riser gate of a region, oldest first. -/
def Chip.gateOf (c : Chip) (r : Nat) : List NReq := c.net.gate.filter (fun q => niOf q.addr = 96 + r)

/-- A request that a region cannot serve yet waits in its riser gate, which holds 16; past them it waits at the NI (R19, R310). -/
def Chip.gateEnter (q : NReq) (r : Nat) (c : Chip) : Chip :=
  if c.net.gate.contains q || decide (16 ≤ (c.gateOf r).length) then c
  else Chip.netPump { c with net := { c.net with gate := c.net.gate ++ [q] } }

/-- The fields of a request as they travel over Windway, unchanged (Table 11.3). -/
def NReq.fields (q : NReq) : List Nat := [q.ni, q.idx, q.ep, q.kind, q.addr, q.n, q.rbe] ++ q.bes ++ q.data

/-- What becomes of a request for another device at its initiating NI: the detail of its refusal, or the route entry
(R347, Table 13.6). -/
def Chip.wwOut (c : Chip) (d : Nat) : Nat ⊕ Nat :=
  if c.get F.WW_ID_DEVICE_ID = 0xFFF then .inl 0x33
  else
    match c.routeTo d with
    | none => .inl 0x30
    | some e => if c.wpState (hopOf e 0) = wpUp then .inr e else .inl 0x31

/-- Send a request over Windway; it counts in flight under the present epoch (R346, R347). -/
def Chip.wwRequest (q : NReq) (d e : Nat) (c : Chip) : Chip :=
  let c := c.wwAlong wtReq q.cls d (bits e 35 0) (bits e 39 36) (1 + q.data.length) q.fields
  c.set F.WW_INFLIGHT_CUR (c.get F.WW_INFLIGHT_CUR + 1)

/-- A request that was sent over Windway has its response, or is given up by its initiator (R346). -/
def Chip.wwLanded (o : NOut) (c : Chip) : Chip :=
  match o.wwEp with
  | none => c
  | some e =>
    if e = c.get F.WW_ID_EPOCH then c.set F.WW_INFLIGHT_CUR (c.get F.WW_INFLIGHT_CUR - 1)
    else c.set F.WW_INFLIGHT_OLD (c.get F.WW_INFLIGHT_OLD - 1)

/-- A request ends at its initiator without a response: withdrawn if never sent, else its buffer owes one (R307, R308). -/
def Chip.outCancel (o : NOut) (c : Chip) : Chip :=
  let c := { c with net := { c.net with outs := c.net.outs.erase o } }
  let c := if o.sent then c.bufOwe o.req.ni o.req.idx else c
  ((c.wwLanded o).outShow o.req.ni).netPump

/-- A new request is accepted by its NI with a free buffer; `none` where the NI withholds acceptance (R295, R307). A
request that breaks R297, or whose local address lies nowhere, is answered by the NI itself (R297, R305); one for another
device goes to the Windway switch (R347). -/
def Chip.niIssue (ni kind cls addr : Nat) (dev : Option Nat) (n rbe : Nat) (bes data : List Nat) (who : Agent) (c : Chip) :
    Option Chip :=
  let dev := if dev = some (c.get F.WW_ID_DEVICE_ID) ∧ c.get F.WW_ID_DEVICE_ID ≠ 0xFFF then none else dev
  match c.freeBuf ni with
  | none => none
  | some idx =>
    let ep := (c.buf ni idx).1
    let q : NReq := { ni := ni, idx := idx, ep := ep, kind := kind, cls := cls, addr := addr, dev := dev, n := n, rbe := rbe,
                      bes := bes, data := data }
    let bad := !reqAligned kind addr n rbe bes
    let lost := dev.isNone && decide (placeOf addr = .none)
    let far : Option (Nat × (Nat ⊕ Nat)) := if bad then none else dev.map (fun d => (d, c.wwOut d))
    let away :=
      match far with
      | some (_, .inr _) => true
      | _ => false
    let o : NOut := { req := q, who := who, sent := bad || lost || dev.isSome, tmo := max 1 (c.get (F.NI_CTL_TIMEOUT ni)),
                      wwEp := if away then some (c.get F.WW_ID_EPOCH) else none }
    let c := { c with net := { c.net with outs := c.net.outs ++ [o] } }
    let c := c.outShow ni
    some (if bad then c.respond ni idx ep rspAlign 0 [] ni
      else if lost then c.respond ni idx ep rspDecerr 0 [] ni
      else
        match far with
        | some (_, .inl dt) => c.respond ni idx ep ⟨1, dt⟩ 0 [] ni
        | some (d, .inr e) => c.wwRequest q d e
        | none => c.netPump)

/-- Close a domain (Table 11.7): kind 0 reset, 1 power-down, 2 retirement. Delivered requests are answered with the closing
answer, and what a region's riser gate holds towards the network is isolated; for a reset or retirement its own requests are cancelled and it is CLOSED; for a power-down it stays CLOSING until
its responses have come or timed out. -/
def Chip.domClose (d kind : Nat) (c : Chip) : Chip :=
  let c := c.domSet d (1 + 4 * kind)
  let ans := c.domAnswer d
  let c := if d < 200 then
      let c := c.forAll (c.gateOf d) (fun q c =>
        ((c.unflight q).respond q.ni q.idx q.ep ans 0 [] (96 + d)).inc (F.NI_CNT_B_OFF_CNT (96 + d)))
      { c with net := { c.net with riser := c.net.riser.filter (fun q => q.ni ≠ 96 + d) } }
    else c
  let c :=
    if d = domDram then
      let c := c.forAll c.dr.rq (fun q c =>
        match q.net with
        | some t => (c.respond t.1 t.2.1 t.2.2 ans 0 [] (niOf q.addr)).inc (F.NI_CNT_B_OFF_CNT (niOf q.addr))
        | none => c)
      { c with dr := { c.dr with rq := c.dr.rq.filter (fun q => q.net.isNone) } }
    else c
  if kind = 1 then c
  else
    let mine : NOut → Bool := fun o =>
      if d < 200 then decide (o.req.ni = 96 + d)
      else
        match o.who with
        | .proxy p _ _ _ _ _ _ => decide (d = domPort p)
        | _ => false
    (c.forAll (c.net.outs.filter mine) (fun o => Chip.outCancel o)).domSet d (2 + 4 * kind)

/-- The last step of a power-down: what is left of the domain's requests is cancelled (Table 11.7, steps 3 and 4). -/
def Chip.domClosed (d : Nat) (c : Chip) : Chip :=
  if c.domState d = 1 then
    (c.forAll (c.outsOf (96 + d)) (fun o => Chip.outCancel o)).domSet d (2 + (tget 0 d c.net.doms / 4) * 4)
  else c

/-- The region whose user port engine `k` serves. -/
def Chip.uportRegion (c : Chip) (k : Nat) : Nat := c.get (F.PE_CTL_UPORT_REGION k)

/-- Open a domain again; a retired one stays CLOSED (R309). Lost user-port credits return once both domains are OPEN
(R296). -/
def Chip.domOpen (d : Nat) (c : Chip) : Chip :=
  if tget 0 d c.net.doms / 4 = 2 then c
  else
    let c := c.domSet d 0
    let back := fun (e : Nat × Nat) => c.domState (domEngine e.1) = 0 && c.domState (domRegion (c.uportRegion e.1)) = 0
    { c with net := { c.net with credit := c.net.credit.filter (fun e => !back e) } }

end Sys2Proof.Machine
end

