-- ==== Sys2Proof/Machine/CfgLoad.lean ====
section
/-! DEFINITION. Images and partial reconfiguration (chapter 8, class 0x01): the stop library, paging, load checks, full and
partial loads, rewrites and the Tongue port. -/

namespace Sys2Proof.Machine

def dtHdrFormat : Nat := 0x40
def dtKey : Nat := 0x41
def dtKind : Nat := 0x42
def dtUnwrap : Nat := 0x43
def dtSegFormat : Nat := 0x44
def dtSegTag : Nat := 0x45
def dtPayload : Nat := 0x46
def dtSlotInUse : Nat := 0x47
def dtSlotRange : Nat := 0x48
def dtStopGoverning : Nat := 0x49
def dtVmask : Nat := 0x4A
def dtDecl : Nat := 0x4B
def dtTruncated : Nat := 0x4C
def dtStall : Nat := 0x4D
def dtSession : Nat := 0x4E
def dtOutOfOrder : Nat := 0x4F
def dtEngineActive' : Nat := 0x50
def dtNoFlash : Nat := 0x51

/-! ## The stop library (R222 to R224) -/

def slFree : Nat := 0
def slFilling : Nat := 1
def slPending : Nat := 2
def slValid : Nat := 3

/-- The state of library slot `k` (Table 8.2). -/
def Chip.slotState (c : Chip) (k : Nat) : Nat :=
  match tfind k c.cfg.slots with
  | some s => s.st
  | none => slFree

/-- The vertical-gate use map of a slot. -/
def Chip.slotVmap (c : Chip) (k : Nat) : Nat := ((tfind k c.cfg.slots).map LibSlot.vmap).getD 0

/-- Put a slot into a state; FREE keeps no entry. -/
def Chip.setSlotState (k st : Nat) (c : Chip) : Chip :=
  if st = slFree then { c with cfg := { c.cfg with slots := tdel k c.cfg.slots } }
  else
    let s := ((tfind k c.cfg.slots).getD { st := 0, vmap := 0, digest := [] })
    { c with cfg := { c.cfg with slots := tset k { s with st := st } c.cfg.slots } }

/-- The address of library slot `k` (R222). -/
def Chip.slotAddr (c : Chip) (k : Nat) : Nat := c.get F.CFG_LIB_BASE_ADDR + k * 0x200000

/-- Whether a slot is the source of a READY or LOADING stop, or of a rewrite that has not yet marked its stop (R224, R241). -/
def Chip.slotReferenced (c : Chip) (k : Nat) : Bool :=
  c.cfg.src.any (fun e => e.2 = k) || (c.cfg.page.map (fun (p : Paging) => decide (p.slot = k))).getD false ||
    c.cfg.waiting.any (fun p => p.slot = k) || (c.cfg.rewrite.map (fun q => decide (q.2.1 = k))).getD false

/-- `CFG_LIB_USE` (Table 8.14). -/
def Chip.libUse (c : Chip) : Nat :=
  (c.cfg.slots.filter (fun e => e.2.st = slValid)).length +
    (c.cfg.slots.filter (fun e => e.2.st = slFilling || e.2.st = slPending)).length * 2 ^ 13

/-- Frame `q` of a slot, and its entry in the CRC table (Table 8.1). -/
def Chip.slotFrame (c : Chip) (k q : Nat) : List Byte := memRead (c.slotAddr k + 0x4000 + 320 * q) 320 c.mem
def Chip.slotCrc (c : Chip) (k q : Nat) : Nat := leNat (memRead (c.slotAddr k + 0x100 + 4 * q) 4 c.mem)

/-- The isolation table of a slot, 2 bits per boundary output. -/
def Chip.slotIso (c : Chip) (k : Nat) : Nat := leNat (memRead (c.slotAddr k + 0x2000) 8192 c.mem)

/-- A frame of all zeros. -/
def zeroFrame : List Byte := List.replicate 320 0

/-- The frames of a SLOT plaintext from byte 8,704 (Table 8.6): 1,600 records ending exactly at the last byte. -/
def parseFrames : Nat → List Byte → List Byte → Option (List (List Byte))
  | 0, _, rest => if rest = [] then some [] else none
  | n + 1, prev, b :: rest =>
    if b = 0 then (parseFrames n zeroFrame rest).map (fun fs => zeroFrame :: fs)
    else if b = 1 ∧ prev ≠ [] then (parseFrames n prev rest).map (fun fs => prev :: fs)
    else if b = 2 ∧ 320 ≤ rest.length then
      (parseFrames n (rest.take 320) (rest.drop 320)).map (fun fs => rest.take 320 :: fs)
    else none
  | _ + 1, _, [] => none

/-- Write a slot's content into the library: CRC table, isolation table and frames (Table 8.1). -/
def Chip.fillSlot (k : Nat) (iso : List Byte) (fs : List (List Byte)) (c : Chip) : Chip :=
  let a := c.slotAddr k
  let m := memZero a (a + 0x200000) c.mem
  let m := memWrite (a + 0x100) (fs.flatMap (fun f => natLe 4 (crc32c f))) m
  { c with mem := memWrite (a + 0x4000) fs.flatten (memWrite (a + 0x2000) iso m) }

/-! ## Marks and paging (R207, R208, R225) -/

/-- Whether a vertical-gate use map meets the mask of a region's pair (R211). -/
def Chip.vmapMeets (c : Chip) (r vmap : Nat) : Bool :=
  (List.range 13).any (fun w => (bits vmap (64 * w + 63) (64 * w) &&& c.get (F.FAB_VMASK_MASK (r % 96) w)) ≠ 0)

/-- A target becomes READY with a slot as its source, unless its use map meets the mask (R211, R225). -/
def Chip.readyStop (r s k : Nat) (c : Chip) : Chip :=
  let vm := c.slotVmap k
  if c.vmapMeets r vm then c.emptyStop r s
  else
    let c := c.set (F.FAB_RG_STAT_STOPST r s) ssReady
    { c with cfg := { c.cfg with src := tset (rsKey r s) k c.cfg.src, vuse := tput 0 (rsKey r s) vm c.cfg.vuse } }

/-- Write a slot's frames and isolation table into a stop of a region (R225 step 3). -/
def Chip.writeStop (r s k : Nat) (c : Chip) : Chip :=
  let base := rsKey r s * 1600
  let conf := (List.range 1600).foldl (fun t q => tput zeroFrame (base + q) (c.slotFrame k q) t) c.cfg.conf
  { c with cfg := { c.cfg with conf := conf, iso := tput 0 (rsKey r s) (c.slotIso k) c.cfg.iso } }

/-- Put the marks of a paging back to the states they replaced (R208). -/
def Chip.unmark (ms : List (Nat × Nat × Nat)) (c : Chip) : Chip :=
  c.forAll ms (fun m => Chip.set (F.FAB_RG_STAT_STOPST m.1 m.2.1) m.2.2)

/-- Send the Tongue completion words that wait, oldest first, from the configuration block's NI in class CTL (R243). -/
def Chip.tonguePumpN : Nat → Chip → Chip
  | 0, c => c
  | n + 1, c =>
    match c.cfg.doneQ with
    | [] => c
    | (a, w) :: q =>
      let hi := decide (a % 16 = 8)
      match c.niIssue 52 1 3 (a / 16 * 16) none 1 0 [if hi then 0xFF00 else 0x00FF] [if hi then w <<< 64 else w] .tongue with
      | some c => Chip.tonguePumpN n { c with cfg := { c.cfg with doneQ := q } }
      | none => c

/-- Send the completion words that wait. -/
def Chip.tonguePump (c : Chip) : Chip := c.tonguePumpN c.cfg.doneQ.length

/-- A Tongue request ends: its completion word is written to the requester's scratchpad over the network (R243). -/
def Chip.tongueDone (addr tag res : Nat) (c : Chip) : Chip :=
  Chip.tonguePump { c with cfg := { c.cfg with doneQ := c.cfg.doneQ ++ [(addr, tag + res * 65536)] } }

/-- A rewrite has loaded the governing stop of a region anew: the region leaves HELD unless another cause remains. A reload of
Ligature in progress keeps its own cause (Table 8.10, R211, R393, R394). -/
def Chip.rewritten (r : Nat) (reinit : Bool) (c : Chip) : Chip :=
  let c := if reinit then c.initFfs r else c
  let c := if c.lg.reload.any (fun l => l.1 = r) then c else c.releaseRegion r hwyLigature
  (c.releaseRegion r hwyBore).releaseRegion r hwyConfig

/-- The status a paging's requester sees, and what follows for it (R225, R241 to R243). A rewrite loads its region anew, so that a
BORE cause ends with it (R211). -/
def Chip.pageReply (p : Paging) (st dt : Nat) (c : Chip) : Chip :=
  match p.why with
  | .load => c
  | .command id => c.fail id st dt
  | .rewrite id r reinit =>
    if st = ST_OK then
      (c.rewritten r reinit).fail id ST_OK dtNone
    else ((c.emptyStop r (c.gov r)).raise EV_CFG_REWRITE_FAILED (r + dt * 256)).fail id st dt
  | .tongue _ a tag => c.tongueDone a tag (if st = ST_OK then 0 else if dt = dtStopGoverning then 1 else 2)

/-- A paging is abandoned: what it left LOADING and not verified becomes EMPTY (R207, Table 7.4). -/
def Chip.pageAbandon (p : Paging) (c : Chip) : Chip :=
  c.forAll (p.marked.filter (fun m => p.left.contains (m.1, m.2.1))) (fun m => Chip.emptyStop m.1 m.2.1)

/-- Every paging and rewrite in progress or waiting ends without effect, because the device leaves USER: what is LOADING and not
verified becomes EMPTY (R207; log entry 51). -/
def Chip.dropPagings (c : Chip) : Chip :=
  let ps := c.cfg.page.toList ++ c.cfg.waiting
  let rw := c.cfg.rewrite.toList
  let c := { c with cfg := { c.cfg with page := none, waiting := [], rewrite := none } }
  let c := c.forAll ps (fun p c =>
    let c := c.pageAbandon p
    match p.why with
    | .load => c
    | .command id => c.fail id ST_ABORTED dtNone
    | .rewrite id _ _ => c.fail id ST_ABORTED dtNone
    | .tongue _ a tag => c.tongueDone a tag 2)
  c.forAll rw (fun q => Chip.fail q.1 ST_ABORTED dtNone)

/-! ## Load failure and fallback (R232, R236, R238, R242) -/

/-- Read from the flash: command 0xEE with extension 0x11 (R227). -/
def Chip.xspiRead (addr dummy len : Nat) (c : Chip) : Chip := c.emit (.xspi 0xEE 0x11 (some addr) dummy len [])

/-- A load that reads its image from the flash: the slot table first, or the image (R226, R227). -/
def Load.ofFlash (golden : Bool) (table : Nat) (limit : Option Nat) : Load :=
  { kind := 0, flash := true, golden := golden, dram := false, slot := none, region := 0, reinit := false, header := [],
    next := 0, buf := [], sig := [], seg := 1, key := [], chain := [], targets := [], filled := [], decl := [],
    limit := limit, table := table, more := [], held := false, final := false }

/-- Enter CONFIGURING (R237 step 1): runs end, every region is HELD and its leases end (R265), every stop EMPTY, every slot FREE,
flip-flops 0. -/
def Chip.enterConfiguring (c : Chip) : Chip :=
  let c := if c.dstate = stUser then c.leaveUser else c
  let c := ((c.setState stConfiguring).denAllLow).dropPagings
  let c := c.forAll regions (fun r c =>
    if c.rgState r = rgRetired then c
    else
      let c := (c.discardRequests r).endLeases r
      let c := c.set (F.FAB_RG_STAT_RSTATE r) rgHeld
      let c := c.set (F.FAB_RG_STAT_HOLD_WHY r) (2 ^ hwyConfig)
      let c := c.forAll (List.range 8) (fun s => Chip.emptyStop r s)
      c.setRg r (fun g => { g with ff := 0, bnd := 0 }))
  ({ c with cfg := { c.cfg with slots := [], grants := [] } } : Chip).auxAll

/-- Set the phase and kind of `CFG_STAT`. -/
def Chip.cfgPhase (ph kind : Nat) (c : Chip) : Chip := (c.set F.CFG_STAT_PHASE ph).set F.CFG_STAT_KIND kind

/-- End the command that carries a load, if any; those behind it find no session (R250). -/
def Chip.loadReply (l : Load) (st dt : Nat) (c : Chip) : Chip :=
  let c := match l.slot with
    | some id => c.fail id st dt
    | none => c
  c.forAll l.more (fun m => Chip.fail m.1 ST_BAD_STATE dtSession)

/-- A failed full load tries the golden image from flash, or the device enters CONFIG_FAILED (R238). -/
def Chip.afterFullFail (l : Load) (st dt : Nat) (c : Chip) : Chip :=
  match (if c.aon.bootSrc = 0 ∧ !l.golden then c.cfg.golden else none) with
  | some g =>
    let c := if c.dstate = stConfiguring then c else c.enterConfiguring
    let c := (c.set F.CFG_STAT_GOLDEN 1).set F.CFG_STAT_SRC_FLASH 1
    (({ c with cfg := { c.cfg with load := some (Load.ofFlash true 0 (some g.2.1)) } } : Chip).cfgPhase 1 0).xspiRead g.1 g.2.2 g.2.1
  | none => (c.setState stConfigFailed).raise EV_CFG_CONFIG_FAILED (st + dt * 256)

/-- A load fails or is aborted after check 7: its marks become EMPTY and its slots FREE (R236), and what its kind then
gives (R238, R242). A flash load that fails its header checks has already entered CONFIGURING. -/
def Chip.loadFailAt (back st dt : Nat) (c : Chip) : Chip :=
  match c.cfg.load with
  | none => c
  | some l =>
    let seg := if l.header = [] ∨ l.table ≠ 0 then 0 else min (l.seg - back) (pf l.header 18 2)
    let c := ((c.set F.CFG_STAT_LAST_STATUS st).set F.CFG_STAT_LAST_DETAIL dt).set F.CFG_STAT_LAST_SEG seg
    let mine := match c.cfg.page with
      | some p => (match p.why with
        | .load => p.marked.map (fun m => (m.1, m.2.1))
        | _ => [])
      | none => []
    let c := c.forAll (l.targets ++ mine) (fun t => Chip.emptyStop t.1 t.2)
    let c := c.forAll l.filled (fun k => Chip.setSlotState k slFree)
    let page := match c.cfg.page with
      | some p => (match p.why with
        | .load => none
        | _ => some p)
      | none => none
    let waiting := c.cfg.waiting.filter (fun p => p.why ≠ .load)
    let c := ({ c with cfg := { c.cfg with load := none, page := page, waiting := waiting } } : Chip).cfgPhase 0 (if page.isSome then 3 else l.kind)
    let c := c.raise EV_CFG_LOAD_FAILED (st + dt * 256 + seg * 65536)
    let c := c.loadReply l st dt
    if l.kind = 0 then c.afterFullFail l st dt
    else if l.kind = 2 ∧ l.held then
      ((c.probeAll.emptyStop l.region (c.gov l.region)).raise EV_CFG_REWRITE_FAILED (l.region + dt * 256))
    else c.probeAll

/-- A load fails at the segment it is at. -/
def Chip.loadFail (st dt : Nat) (c : Chip) : Chip := c.loadFailAt 0 st dt

/-- A load fails in the marks or the paging of the segment just taken (check 12). -/
def Chip.loadFailPage (st dt : Nat) (c : Chip) : Chip := c.loadFailAt 1 st dt

/-! ## Header checks (Table 8.8, 1 to 7) -/

/-- Checks 1 to 6 of a header. -/
def Chip.headerRefusal (c : Chip) (kind : Nat) (h : List Byte) : Option (Nat × Nat) :=
  let flags := pb h 11
  let ki := pb h 10
  let enc := flags.testBit 2
  let lc := c.lc
  if crc32c (h.take 252) ≠ pf h 252 4 ∨ pf h 0 4 ≠ 0x4D493954 ∨ pf h 4 2 ≠ 1 ∨ 1 < pb h 9 ∨ bits flags 7 3 ≠ 0 ∨ pb h 17 ≠ 0 ∨
      pf h 144 108 ≠ 0 then some (ST_BAD_PARAM, dtHdrFormat)
  else if pb h 6 ≠ 0x7A ∨ pb h 7 ≠ 9 ∨ pb h 8 ≠ 2 ∨
      (pb h 9 = 1 ∧ pf h 24 16 ≠ c.get F.SYS_UID_LO_UID + c.get F.SYS_UID_HI_UID * 2 ^ 64) then some (ST_ID_MISMATCH, dtNone)
  else if !((lc = lcFactory && (ki = 0xFF || decide (ki < 4)) && (!enc || c.get F.SEC_STAT_ROOTKEY = 1)) ||
      ((lc = lcProvisioned || lc = lcField) && decide (ki < 4) && enc) || (lc = lcRma && ki = 0xFF && !enc)) then
    some (ST_DENIED_LIFECYCLE, dtNone)
  else
    let hash := (shake256 ((h.drop 80).take 64)).take 32
    let keyOk := if ki = 0xFF then decide (hash = Config.drikioxKeyHash)
      else (c.get F.SEC_STAT_SLOT_PROG).testBit ki && !(c.get F.SEC_STAT_SLOT_REV).testBit ki && decide (hash = tget [] ki c.cfg.keyHash)
    if !keyOk then some (ST_AUTH_FAIL, dtKey)
    else if pb h 16 < c.get F.SEC_STAT_MIN_SVN then some (ST_AUTH_FAIL, dtRollback)
    else
      let n := pf h 18 2
      if flags.testBit 0 ≠ decide (kind = 0) ∨ (flags.testBit 1 ∧ kind ≠ 0) ∨ n = 0 ∨ 4096 < n ∨ (kind = 2 ∧ n ≠ 1) ∨
          pf h 20 4 < 30048 + 97 * n then some (ST_BAD_PARAM, dtKind)
      else if enc ∧ (kwUnwrap c.cfg.rootKey ((h.drop 40).take 40)).isNone then some (ST_AUTH_FAIL, dtUnwrap)
      else none

/-- The load that an accepted header opens: its first segment key and chain value (R231). Of a flash image the bytes received so far
count, of another the header's. -/
def Chip.openLoad (l : Load) (h : List Byte) (c : Chip) : Load :=
  { l with
    header := h, next := if l.flash then l.next else 256, seg := 1
    key := if (pb h 11).testBit 2 then (kwUnwrap c.cfg.rootKey ((h.drop 40).take 40)).getD [] else []
    chain := shake256 h }

/-! ## Segment checks (Table 8.8, 8 to 11) -/

/-- The targets of a SLOT plaintext (Table 8.6), or none if an entry is malformed. -/
def parseTargets (p : List Byte) : Option (List (Nat × Nat)) :=
  (List.range 192).foldl (fun a i =>
    let v := pf p (104 + 2 * i) 2
    match a with
    | none => none
    | some ts =>
      if bits v 14 11 ≠ 0 then none
      else if !v.testBit 15 then some ts
      else if 192 ≤ bits v 7 0 then none
      else some (ts ++ [(bits v 7 0, bits v 10 8)])) (some [])

/-- A DECL plaintext lies within Table 8.7. -/
def declOk (p : List Byte) : Bool :=
  let n := pf p 288 2
  decide (304 ≤ p.length) && (List.range 192).all (fun r => bits (pb p r) 6 3 = 0) &&
    (List.range 96).all (fun k => decide (pb p (192 + k) ≤ 2)) && decide (n ≤ 256) && pf p 290 14 = 0 &&
    decide (p.length = 304 + 16 * n) &&
    (List.range n).all (fun j => decide (pb p (304 + 16 * j) < 192) && decide (pb p (305 + 16 * j) < 192) &&
      decide (pb p (306 + 16 * j) < 192) && pf p (304 + 16 * j + 8) 8 = 0)

/-- What one whole segment decides: a failure, a DECL, or a slot's content with its targets. -/
inductive SegRes
  | bad (st dt : Nat)
  | decl (p : List Byte)
  | slot (k vmap : Nat) (targets : List (Nat × Nat)) (iso : List Byte) (frames : List (List Byte))

/-- Check 8, on the segment header. -/
def Chip.segHeader (c : Chip) (l : Load) (h : List Byte) : Option (Nat × Nat) :=
  let ty := pb h 0
  let want := if l.kind = 0 ∧ l.seg = 1 then 1 else 2
  if pf h 2 2 ≠ l.seg ∨ ty ≠ want ∨ pb h 1 ≠ 0 ∨ pf h 4 4 = 0 ∨ 16777216 < pf h 4 4 ∨ pf h 22 10 ≠ 0 ∨
      (ty = 1 ∧ pf h 20 2 ≠ 0) ∨ (ty = 2 ∧ c.get F.CFG_LIB_SLOTS_SLOTS ≤ pf h 20 2) then some (ST_BAD_PARAM, dtSegFormat)
  else if ty = 2 ∧ c.slotState (pf h 20 2) ≠ slFree then some (ST_BAD_STATE, dtSlotInUse)
  else none

/-- Checks 9 to 11 of a whole segment: header, body, trailer. -/
def Chip.segCheck (c : Chip) (l : Load) (h body tr : List Byte) : SegRes :=
  let enc := (pb l.header 11).testBit 2
  let tag := (tr.drop 48).take 16
  let plain := if enc then gcmDecrypt l.key ((h.drop 8).take 12) h body tag
    else if tag = (shake256 (h ++ body)).take 16 then some body else none
  match plain with
  | none => .bad ST_AUTH_FAIL dtSegTag
  | some p =>
    let bad11 := enc && decide (l.seg < pf l.header 18 2) && (kwUnwrap l.key (tr.take 40)).isNone
    if pb h 0 = 1 then
      if !declOk p then .bad ST_BAD_PARAM dtPayload else if bad11 then .bad ST_AUTH_FAIL dtUnwrap else .decl p
    else
      let iso := (p.drop 512).take 8192
      match parseTargets p, parseFrames 1600 [] (p.drop 8704) with
      | some ts, some fs =>
        let isoBad := iso.any (fun b => (List.range 4).any (fun i => bits b.toNat (2 * i + 1) (2 * i) = 3))
        if p.length < 8704 ∨ pf p 100 4 ≠ 0 ∨ pf p 488 24 ≠ 0 ∨ isoBad ∨
            (l.kind = 2 ∧ ts ≠ [(l.region, c.gov l.region)]) then .bad ST_BAD_PARAM dtPayload
        else if ts.any (fun t => c.vmapMeets t.1 (pf p 0 100)) then .bad ST_BAD_PARAM dtVmask
        else if bad11 then .bad ST_AUTH_FAIL dtUnwrap
        else .slot (pf h 20 2) (pf p 0 100) ts iso fs
      | _, _ => .bad ST_BAD_PARAM dtPayload

/-! ## Marks, paging and the flow of a load -/

/-- Whether a paging belongs to a rewrite, whose target governs (R241). -/
def Chip.rewriting (c : Chip) (p : Paging) : Bool :=
  match p.why with
  | .rewrite _ _ _ => true
  | .load => (c.cfg.load.map (fun (l : Load) => decide (l.kind = 2))).getD false
  | _ => false

/-- Mark what can be marked at once: targets HELD or OFF (R208); the first mark that fails. -/
def Chip.markHeld (c : Chip) (rewrite : Bool) : List (Nat × Nat) → Option (Nat × Nat) × Chip
  | [] => (none, c)
  | t :: ts =>
    if c.rgState t.1 = rgRun ∨ c.underReload t then c.markHeld rewrite ts
    else if c.rgState t.1 = rgRetired then (some (ST_RETIRED, dtNone), c)
    else if c.governs t.1 t.2 && !rewrite then (some (ST_BAD_STATE, dtStopGoverning), c)
    else (c.markOne t).markHeld rewrite ts

/-- No paging is in progress: `KIND` shows the open load again, if any, and the PROBE pins of the targets are driven again. -/
def Chip.pageOver (c : Chip) : Chip :=
  let c := { c with cfg := { c.cfg with page := none } }
  (match c.cfg.load with
    | some l => c.set F.CFG_STAT_KIND l.kind
    | none => c).probeAll

/-- A mark fails: every mark of the paging is undone and nothing is written (R208). -/
def Chip.markFail (st dt : Nat) (c : Chip) : Chip :=
  match c.cfg.page with
  | none => c
  | some p =>
    let c := (c.unmark p.marked).pageOver
    if p.why = .load then c.loadFailPage st dt else c.pageReply p st dt

/-- Mark what is HELD or OFF of the paging in progress; a failed mark removes every mark (R208). -/
def Chip.pageMarks (p : Paging) (c : Chip) : Chip :=
  match c.markHeld (c.rewriting p) p.toMark with
  | (none, c) => c
  | (some f, c) => c.markFail f.1 f.2

/-- Start a paging whose turn has come; the PROBE pins of its targets drive low (R217). -/
def Chip.pageBegin (p : Paging) (c : Chip) : Chip :=
  let c := ({ c with cfg := { c.cfg with page := some p } } : Chip).probeAll
  (if p.why = .load then c else c.set F.CFG_STAT_KIND 3).pageMarks p

/-- Ask for a paging: at once if none is in progress, else in its turn (R54, R243). -/
def Chip.pageAsk (p : Paging) (c : Chip) : Chip :=
  if c.cfg.page.isNone ∧ c.cfg.waiting = [] then c.pageBegin p else { c with cfg := { c.cfg with waiting := c.cfg.waiting ++ [p] } }

/-- A paging of slot `k` into targets, of which `toMark` are still to be marked. -/
def Paging.new (why : PageFor) (k : Nat) (targets toMark : List (Nat × Nat)) : Paging :=
  { why := why, slot := k, targets := targets, toMark := toMark, marked := [], left := targets }

/-- Start waiting pagings until one is in progress. -/
def Chip.pageNextN : Nat → Chip → Chip
  | 0, c => c
  | n + 1, c =>
    if c.cfg.page.isNone then
      match c.cfg.waiting with
      | p :: q => Chip.pageNextN n (Chip.pageBegin p { c with cfg := { c.cfg with waiting := q } })
      | [] => c
    else c

/-- Start the next waiting paging, if any. -/
def Chip.pageNext (c : Chip) : Chip := c.pageNextN c.cfg.waiting.length

/-- The end checks 13 and 14, then the signature is awaited (R232). -/
def Chip.loadEndChecks (l : Load) (c : Chip) : Chip :=
  let n := pf l.header 18 2
  if l.seg ≤ n then c.loadFail ST_BAD_LENGTH dtTruncated
  else if l.buf ≠ [] ∨ l.next ≠ pf l.header 20 4 then c.loadFail ST_BAD_LENGTH dtLenMismatch
  else
    let off := fun (r : Nat) => (pb l.decl r).testBit 7
    let initOk := regions.all (fun r => off r || c.rgState r = rgRetired || l.targets.contains (r, pb l.decl r % 8))
    if l.kind = 0 ∧ !initOk then c.loadFail ST_BAD_PARAM dtDecl
    else ({ c with cfg := { c.cfg with load := some { l with final := true } } } : Chip).cfgPhase 3 l.kind

/-- Everything received is consumed: an image from DRAM, or one from flash at the length of the slot table, that ends here is
truncated; the data command that carried the last bytes ends (Table 8.15), and the next one that waits has its turn. True where it
has brought more bytes. -/
def Chip.consumed (l : Load) (c : Chip) : Bool × Chip :=
  if l.dram then (false, c.loadFail ST_BAD_LENGTH dtTruncated)
  else if l.flash then
    (false, if (l.limit.map (fun n => decide (n ≤ l.next))).getD false then c.loadFail ST_BAD_LENGTH dtTruncated else c)
  else
    let c := match l.slot with
      | some id => c.ok id []
      | none => c
    match l.more with
    | [] => (false, { c with cfg := { c.cfg with load := some { l with slot := none } } })
    | (id, some bs) :: q => (true, { c with cfg := { c.cfg with load := some { l with slot := some id, buf := l.buf ++ bs, more := q } } })
    | (id, none) :: q =>
      let l := { l with slot := some id, more := q }
      (false, Chip.loadEndChecks l { c with cfg := { c.cfg with load := some l } })

/-- Consume what a load has received, as far as it goes: signature, then whole segments; a segment with targets waits for
its paging (R229, R235, R250). The command that carried the data ends once everything is consumed. -/
def Chip.loadPump : Nat → Chip → Chip
  | 0, c => c
  | fuel + 1, c =>
    match c.cfg.load with
    | none => c
    | some l =>
      let dry := fun (c : Chip) =>
        let p := c.consumed l
        if p.1 then Chip.loadPump fuel p.2 else p.2
      if c.cfg.page.isSome ∨ c.cfg.waiting.any (fun p => p.why = .load) ∨ l.table ≠ 0 ∨ l.final ∨ (l.kind = 2 ∧ !l.held) then c
      else if l.header = [] then
        if 256 ≤ l.buf.length then
          let h := l.buf.take 256
          match c.headerRefusal 0 h with
          | some r => c.loadFail r.1 r.2
          | none =>
            Chip.loadPump fuel (({ c with cfg := { c.cfg with load := some (c.openLoad { l with buf := l.buf.drop 256 } h) } } : Chip).cfgPhase 2 0)
        else dry c
      else if l.sig.length < 29792 then
        if l.buf = [] then dry c
        else
          let k := 29792 - l.sig.length
          Chip.loadPump fuel { c with cfg := { c.cfg with load := some { l with sig := l.sig ++ l.buf.take k, buf := l.buf.drop k } } }
      else if pf l.header 18 2 < l.seg then
        if l.buf ≠ [] then c.loadFail ST_BAD_LENGTH dtLenMismatch
        else if l.flash ∨ l.dram then c.loadEndChecks l
        else dry c
      else if l.buf.length < 32 then dry c
      else
        let h := l.buf.take 32
        let n := pf h 4 4
        match (if pb h 0 = 2 ∧ l.filled.contains (pf h 20 2) ∧ c.slotState (pf h 20 2) = slFilling then none else c.segHeader l h) with
        | some r => c.loadFail r.1 r.2
        | none =>
          let k := pf h 20 2
          let c := if pb h 0 = 2 ∧ c.slotState k = slFree then c.setSlotState k slFilling else c
          let l := if pb h 0 = 2 ∧ !l.filled.contains k then { l with filled := l.filled ++ [k] } else l
          let c := { c with cfg := { c.cfg with load := some l } }
          if l.buf.length < 96 + n then
            let p := c.consumed l
            if p.1 then Chip.loadPump fuel p.2 else p.2
          else
            let body := (l.buf.drop 32).take n
            let tr := (l.buf.drop (32 + n)).take 64
            let l' := { l with
              buf := l.buf.drop (96 + n), seg := l.seg + 1
              chain := shake256 (l.chain ++ h ++ tr)
              key := if (pb l.header 11).testBit 2 then (kwUnwrap l.key (tr.take 40)).getD [] else [] }
            match c.segCheck l h body tr with
            | .bad st dt => c.loadFail st dt
            | .decl p => Chip.loadPump fuel { c with cfg := { c.cfg with load := some { l' with decl := p } } }
            | .slot k vm ts iso fs =>
              let c := (c.fillSlot k iso fs).setSlotState k slPending
              let c := { c with cfg := { c.cfg with load := some l', slots := tset k { st := slPending, vmap := vm, digest := [] } c.cfg.slots } }
              if ts = [] then Chip.loadPump fuel c
              else Chip.loadPump fuel (c.pageAsk (.new .load k ts (ts.filter (fun t => !l'.targets.contains t))))

/-- Pump with enough fuel for every segment, command and byte received; then the pagings that wait. -/
def Chip.loadRun (c : Chip) : Chip :=
  let n := (c.cfg.load.map (fun (l : Load) =>
    l.buf.length + (l.more.map (fun m => (m.2.map List.length).getD 0 + 1)).sum)).getD 0
  (Chip.loadPump (8 + n) c).pageNext

/-- The paging in progress is over: the next one begins, or the load goes on. -/
def Chip.pageSettle (c : Chip) : Chip := (c.pageNext).loadRun

/-- Bytes of an image arrive. -/
def Chip.loadFeed (bs : List Byte) (slot : Option Nat) (c : Chip) : Chip :=
  match c.cfg.load with
  | none => c
  | some l => ({ c with cfg := { c.cfg with load := some { l with buf := l.buf ++ bs, next := l.next + bs.length, slot := slot } } } : Chip).loadRun

/-- STOP_MARK: at an edge of RUN region `r` the mark of the paging in progress takes effect, waits for a pending broadcast
of the same stop, or fails on the governing stop (R208). In another state there is nothing to wait for. -/
def Chip.stopMark (r : Nat) (c : Chip) : Chip :=
  match (c.cfg.page.bind (fun (p : Paging) => (p.toMark.find? (fun t => t.1 = r)).map (fun t => (p, t)))) with
  | none => c
  | some (p, t) =>
    if (c.rgState r = rgRun ∧ (c.rg r).pendC = some t.2) ∨ c.underReload t then c
    else if c.rgState r = rgRetired then (c.markFail ST_RETIRED dtNone).pageSettle
    else if c.governs r t.2 && !c.rewriting p then (c.markFail ST_BAD_STATE dtStopGoverning).pageSettle
    else c.markOne t

/-- The DRAM's answer to the reads of a slot's content: its status where it refuses or meets an uncorrectable error (R225,
R286). -/
def Chip.slotRead (k : Nat) (c : Chip) : Option (Nat × Nat) × Chip :=
  let p := c.rowReads (c.slotAddr k) 0x81000
  (if p.1 = rspOk then none else some p.1.status, p.2)

/-- A paging ends with a status: targets not verified become EMPTY, and its requester goes on (R207, R209, R225, R235). -/
def Chip.pageEnd (p : Paging) (st dt : Nat) (c : Chip) : Chip :=
  let c := c.pageOver
  match p.why with
  | .load =>
    let c := match c.cfg.load with
      | some l =>
        { c with cfg := { c.cfg with
          load := some { l with targets := l.targets ++ p.targets.filter (fun t => !l.targets.contains t) }
          src := p.targets.foldl (fun s (t : Nat × Nat) => tset (rsKey t.1 t.2) p.slot s) c.cfg.src } }
      | none => c
    (if st = ST_OK then c else c.loadFailPage st dt).pageSettle
  | _ => ((c.forAll p.left (fun t => Chip.emptyStop t.1 t.2)).pageReply p st dt).pageSettle

/-- PAGING_DONE: the frames and isolation tables of the regions in `verified` are written and match the slot's CRC table; those in
`failed` have mismatched twice, which ends the paging, as does a DRAM that does not answer RSP_OK (R225). Each target is READY as
soon as its own content is verified (R209); under a load it waits for the signature (R235). -/
def Chip.pagingDone (verified failed : Nat) (c : Chip) : Chip :=
  match c.cfg.page with
  | none => c
  | some p =>
    if p.toMark ≠ [] then c
    else
      match c.slotRead p.slot with
      | (some f, c) => c.pageEnd p f.1 f.2
      | (none, c) =>
        let good := p.left.filter (fun t => verified.testBit t.1 && !failed.testBit t.1)
        let c := c.forAll good (fun t => Chip.writeStop t.1 t.2 p.slot)
        let c := if p.why = .load then c else c.forAll good (fun t => Chip.readyStop t.1 t.2 p.slot)
        let q := { p with left := p.left.filter (fun t => !good.contains t) }
        if q.left.any (fun t => failed.testBit t.1) then c.pageEnd q ST_HW_FAULT dtNone
        else if q.left = [] then c.pageEnd q ST_OK dtNone
        else { c with cfg := { c.cfg with page := some q } }

/-- REWRITE_HOLD: the region of a rewrite is HELD at its next edge and its governing stop marked LOADING (Table 8.10,
steps 2 and 3). A region retired meanwhile ends the rewrite. -/
def Chip.rewriteHold (r : Nat) (c : Chip) : Chip :=
  if c.underReload (r, c.gov r) then c
  else
  let hold := fun (c : Chip) =>
    let c := (c.holdRegion r hwyConfig).set (F.FAB_RG_STAT_STOPST r (c.gov r)) ssLoading
    { c with cfg := { c.cfg with src := tdel (rsKey r (c.gov r)) c.cfg.src } }
  let gone := decide (c.rgState r = rgRetired)
  match c.cfg.rewrite with
  | some (id, k, r', re) =>
    if r' ≠ r then c
    else
      let c := { c with cfg := { c.cfg with rewrite := none } }
      if gone then c.fail id ST_RETIRED dtNone
      else
        let c := hold c
        Chip.pageAsk { Paging.new (.rewrite id r re) k [(r, c.gov r)] [] with marked := [(r, c.gov r, ssLoading)] } c
  | none =>
    match c.cfg.load with
    | some l =>
      if l.kind = 2 ∧ l.region = r ∧ !l.held then
        if gone then (c.loadFail ST_RETIRED dtNone).pageSettle
        else
          let c := hold c
          ({ c with cfg := { c.cfg with load := some { l with held := true } } } : Chip).loadRun
      else c
    | none => c

/-- Release at the end of a full load (R237 step 3). -/
def Chip.releaseFull (l : Load) (c : Chip) : Chip :=
  let c := c.forAll (regions.filter (fun r => c.rgState r ≠ rgRetired)) (fun r c =>
    if (pb l.decl r).testBit 7 then (c.regionOff r).spRegionOff r else (c.regionRun r (pb l.decl r % 8)).spRegionOn r)
  let c := c.forAll c.fab.bcasts (fun b c =>
    match b.slot with
    | some id => c.ok id []
    | none => c.set F.FAB_BCAST_GO 0)
  let c := { c with stops := [], fab := { c.fab with
    bcasts := []
    auxDecl := (List.range 96).foldl (fun t k => tput 0 k (pb l.decl (192 + k)) t) [] } }
  let c := c.forAll (List.range 96) (fun k c => if c.get (F.AUX_STAT_OWNER k) = 3 then c else c.set (F.AUX_STAT_OWNER k) (pb l.decl (192 + k)))
  let grants := (List.range (pf l.decl 288 2)).map (fun j =>
    let o := 304 + 16 * j
    ({ req := pb l.decl o, first := pb l.decl (o + 1), last := pb l.decl (o + 2), stops := pb l.decl (o + 3),
       slotLo := pf l.decl (o + 4) 2, slotHi := pf l.decl (o + 6) 2 } : Grant))
  let c := { c with cfg := { c.cfg with grants := grants } }
  let c := (c.setState stUser).set F.SYS_STATE_FALLBACK (b2n l.golden)
  (c.set F.SYS_STATE_STRICT_HALT (bit (pb l.header 11) 1)).auxAll

/-- Record a verified load in the measurement state (R248). -/
def Chip.measure (l : Load) (c : Chip) : Chip :=
  let d := shake256 (l.header ++ l.chain)
  let r : LoadRec := { kind := l.kind + 128 * b2n l.golden, seq := c.cfg.loadSeq, ver := pf l.header 12 4, time := c.get F.WW_TB_TIME, dig := d }
  let ls := c.cfg.loads ++ [r]
  { c with cfg := { c.cfg with acc := shake256 (c.cfg.acc ++ d), loads := if 32 < ls.length then ls.tail else ls, loadSeq := c.cfg.loadSeq + 1 } }

/-- SIGNATURE_VERIFIED: check 15; on a pass slots become VALID, targets READY, and the load's kind completes (R235, R237,
R241). -/
def Chip.signatureDone (c : Chip) : Chip :=
  match c.cfg.load with
  | none => c
  | some l =>
    if !l.final then c
    else if !slhVerify256s ((l.header.drop 80).take 64) (l.header ++ l.chain) l.sig then c.loadFail ST_AUTH_FAIL dtSignature
    else
      let d := shake256 (l.header ++ l.chain)
      let c := c.forAll l.filled (fun k c =>
        match tfind k c.cfg.slots with
        | some s => { c with cfg := { c.cfg with slots := tset k { s with st := slValid, digest := d } c.cfg.slots } }
        | none => c)
      let c := c.forAll l.targets (fun t c => c.readyStop t.1 t.2 (tget 0 (rsKey t.1 t.2) c.cfg.src))
      let c := ({ c with cfg := { c.cfg with load := none } } : Chip).measure l
      let c := if l.kind = 0 then c.releaseFull l
        else if l.kind = 2 then
          c.rewritten l.region l.reinit
        else c
      let c := (c.cfgPhase 0 l.kind).raise EV_CFG_LOADED (l.kind + bits (pf l.header 12 4) 15 0 * 65536)
      let c := c.raiseIf l.golden EV_CFG_FALLBACK (pf l.header 12 4)
      (((c.probeAll).loadReply l ST_OK dtNone).pageNext).loadRun

/-- Whether every segment of an image has been taken. -/
def Load.complete (l : Load) : Bool := l.header ≠ [] && decide (pf l.header 18 2 < l.seg)

/-- LOAD_STALL_TIMEOUT: no data for 100 ms in an open host session whose image is incomplete (R234). -/
def Chip.loadStall (c : Chip) : Chip :=
  match c.cfg.load with
  | some l => if !l.flash ∧ !l.dram ∧ !l.final ∧ l.slot.isNone ∧ !l.complete then (c.loadFail ST_TIMEOUT dtStall).pageSettle else c
  | none => c

/-- Start the load of the primary image from flash (R226): the device enters CONFIGURING and reads the slot table's first copy. -/
def Chip.flashLoad (c : Chip) : Chip :=
  let c := (c.enterConfiguring).set F.CFG_STAT_SRC_FLASH 1
  (({ c with cfg := { c.cfg with load := some (Load.ofFlash false 1 none) } } : Chip).cfgPhase 1 0).xspiRead 0 20 64

/-- Whether a copy of the flash slot table is valid (R227, Table 8.3). -/
def tableOk (t : List Byte) : Bool :=
  decide (t.length = 64) && pf t 0 4 = 0x544C5354 && pf t 4 2 = 1 && decide (8 ≤ pb t 6) && decide (pb t 6 ≤ 31) &&
    crc32c (t.take 60) = pf t 60 4

/-- FLASH_SEGMENT_READ: the flash answers: a copy of the slot table, or bytes of the image up to the length that the table gives
(R227, R232, R234). -/
def Chip.flashRead (part : FlashPart) (c : Chip) : Chip :=
  match c.cfg.load with
  | none => c
  | some l =>
    if !l.flash then c
    else
      match part with
      | .table t =>
        if l.table = 0 then c
        else if tableOk t then
          let g := if pf t 20 4 = 0 then none else some (pf t 16 4, pf t 20 4, pb t 6)
          let c := c.set F.CFG_STAT_TBL_COPY (l.table - 1)
          Chip.xspiRead (pf t 8 4) (pb t 6) (pf t 12 4)
            { c with cfg := { c.cfg with golden := g, load := some { l with table := 0, limit := some (pf t 12 4) } } }
        else if l.table = 1 then
          Chip.xspiRead 0x10000 20 64 { c with cfg := { c.cfg with load := some { l with table := 2 } } }
        else ({ c with cfg := { c.cfg with golden := none } } : Chip).loadFail ST_BAD_PARAM dtNoFlash
      | .image bs =>
        if l.table ≠ 0 ∨ l.final then c
        else c.loadFeed (bs.take ((l.limit.map (fun n => n - l.next)).getD bs.length)) none

/-! ## The Tongue port (R243) -/

/-- A request to `TONGUE_REQ` by the NI of a region (Table 8.12): 0 accepted, 1 DENIED, 2 BUSY. -/
def Chip.tongueReq (ni : Nat) (wide : Bool) (v : Nat) (c : Chip) : Rsp × Chip :=
  if !wide then (rspAlign, c)
  else if ni < 96 then (rspDenied, c)
  else
    let q := ni - 96
    let t := bits v 7 0
    let s := bits v 10 8
    let k := bits v 23 12
    let a := bits v 111 64
    let mine := fun (p : Paging) => match p.why with
      | .tongue q' _ _ => decide (q' = q)
      | _ => false
    let busy := (c.cfg.page.map mine).getD false || c.cfg.waiting.any mine
    let base := 0x010000000000 + q * 0x100000
    let granted := c.cfg.grants.any (fun g => g.req = q && decide (g.first ≤ t) && decide (t ≤ g.last) && g.stops.testBit s &&
      decide (g.slotLo ≤ k) && decide (k ≤ g.slotHi))
    let okk := granted && decide (t < 192) && c.slotState k = slValid && a % 8 = 0 && decide (base ≤ a) && decide (a + 8 ≤ base + 0x100000) &&
      (c.rgState t = rgRun || c.rgState t = rgHeld)
    if busy then (rspBusy, c.raise EV_CFG_TONGUE_REFUSED (q + t * 256 + 65536))
    else if !okk then (rspDenied, c.raise EV_CFG_TONGUE_REFUSED (q + t * 256))
    else
      let p : Paging := .new (.tongue q a (bits v 127 112)) k [(t, s)] [(t, s)]
      if c.vmapMeets t (c.slotVmap k) then (rspOk, c.tongueDone a (bits v 127 112) 2) else (rspOk, c.pageAsk p)

/-! ## Register writes (R223, Table 8.14) -/

/-- A write of `CFG_LIB_BASE` or `CFG_LIB_SLOTS`: only while every slot is FREE and within the DRAM. -/
def Chip.libWrite (base slots : Nat) (c : Chip) : Rsp × Chip :=
  if c.cfg.slots ≠ [] then (rspState, c)
  else if slots = 0 ∨ 4096 < slots ∨ 0x200000000 < base + slots * 0x200000 then (rspRange, c)
  else (rspOk, (c.set F.CFG_LIB_BASE_ADDR base).set F.CFG_LIB_SLOTS_SLOTS slots)

/-! ## Commands (R250) -/

/-- Whether an engine bound to region `r`, or naming it, runs (R241). -/
def Chip.engineOn (c : Chip) (r : Nat) : Bool :=
  engines.any (fun k => c.peActive k && ((c.boundRegions k).contains r ||
    (c.is (F.PE_CTL_UPORT_EN k) && c.get (F.PE_CTL_UPORT_REGION k) = r)))

def cmdCfgStatus : Cmd := { Cmd.plain 0x01 0x00 lcAll (fun _ pl => lenIs 0 pl) (fun id _ c =>
  c.ok id (natLe 8 (c.regWord F.CFG_STAT_PHASE.off) ++ natLe 8 c.libUse ++ natLe 8 (c.regWord F.SEC_STAT_LC.off))) with recov := fun _ => false }

/-- The state in which a load of a kind may start (Table 1.8, R240, R241), or its refusal. -/
def Chip.loadState (c : Chip) (kind r : Nat) : Option (Nat × Nat) :=
  if c.cfg.load.isSome ∨ (kind = 2 ∧ c.cfg.rewrite.isSome) then some (ST_BAD_STATE, dtSession)
  else if kind = 0 then
    if c.dstate = stFw ∨ c.dstate = stUser ∨ c.dstate = stConfigFailed then none else some (ST_BAD_STATE, dtNone)
  else if c.dstate ≠ stUser then some (ST_BAD_STATE, dtNone)
  else if kind = 2 then
    if c.rgState r = rgRetired then some (ST_RETIRED, dtNone)
    else if c.rgState r = rgOff then some (ST_BAD_STATE, dtNone)
    else if c.engineOn r then some (ST_BAD_STATE, dtEngineActive')
    else none
  else none

/-- A load fails before its header is accepted (R232). -/
def Chip.headerFail (id st dt : Nat) (c : Chip) : Chip :=
  let c := ((c.set F.CFG_STAT_LAST_STATUS st).set F.CFG_STAT_LAST_DETAIL dt).set F.CFG_STAT_LAST_SEG 0
  (c.raise EV_CFG_LOAD_FAILED (st + dt * 256)).fail id st dt

/-- Whether `CH_CFG_LOAD_END` has started and waits for earlier data. -/
def Load.ending (l : Load) : Bool := l.more.any (fun m => m.2.isNone)

/-- Open a load whose header is known: checks 1 to 7, then CONFIGURING for a full load (R233); the refusal, if any. -/
def Chip.loadOpen (kind r : Nat) (reinit dram : Bool) (limit : Option Nat) (h : List Byte) (c : Chip) : Option (Nat × Nat) × Chip :=
  match c.headerRefusal kind h with
  | some f =>
    let c := ((c.set F.CFG_STAT_LAST_STATUS f.1).set F.CFG_STAT_LAST_DETAIL f.2).set F.CFG_STAT_LAST_SEG 0
    (some f, c.raise EV_CFG_LOAD_FAILED (f.1 + f.2 * 256))
  | none =>
    let c := if kind = 0 then (c.enterConfiguring).set F.CFG_STAT_SRC_FLASH 0 else c
    let l := { Load.ofFlash false 0 limit with kind := kind, flash := false, dram := dram, region := r, reinit := reinit }
    (none, ({ c with cfg := { c.cfg with load := some (c.openLoad l h) } } : Chip).cfgPhase 2 kind)

def cmdCfgLoadBegin : Cmd := Cmd.plain 0x01 0x01 live
  (lenParam 264 (fun pl => decide (pb pl 0 < 3) && (pb pl 0 ≠ 2 || decide (pb pl 1 < 192)) && decide (pb pl 2 < 2) && pf pl 3 5 = 0))
  (fun id pl c =>
    match c.loadState (pb pl 0) (pb pl 1) with
    | some f => c.fail id f.1 f.2
    | none =>
      match c.loadOpen (pb pl 0) (pb pl 1) (pb pl 2 = 1) false none (pl.drop 8) with
      | (some f, c') => c'.fail id f.1 f.2
      | (none, c') => c'.ok id [])

def cmdCfgLoadData : Cmd := Cmd.plain 0x01 0x02 live
  (fun _ pl =>
    if pl.length < 9 ∨ 4096 < pl.length then some (ST_BAD_LENGTH, dtNone)
    else if pf pl 4 4 ≠ 0 then some (ST_BAD_PARAM, dtNone) else none)
  (fun id pl c =>
    match c.cfg.load with
    | none => c.fail id ST_BAD_STATE dtSession
    | some l =>
      if l.flash ∨ l.dram ∨ l.final ∨ l.ending then c.fail id ST_BAD_STATE dtSession
      else if pf pl 0 4 ≠ l.next then c.fail id ST_BAD_PARAM dtOutOfOrder
      else if l.slot.isNone then c.loadFeed (pl.drop 8) (some id)
      else
        { c with cfg := { c.cfg with
          load := some { l with next := l.next + (pl.drop 8).length, more := l.more ++ [(id, some (pl.drop 8))] } } })

def cmdCfgLoadEnd : Cmd := Cmd.plain 0x01 0x03 live (fun _ pl => lenIs 0 pl)
  (fun id _ c =>
    match c.cfg.load with
    | none => c.fail id ST_BAD_STATE dtSession
    | some l =>
      if l.flash ∨ l.dram ∨ l.final ∨ l.ending then c.fail id ST_BAD_STATE dtSession
      else
        let c := c.interim id ST_ACCEPTED dtNone []
        if l.slot.isNone then
          let l := { l with slot := some id }
          (Chip.loadEndChecks l { c with cfg := { c.cfg with load := some l } }).pageSettle
        else { c with cfg := { c.cfg with load := some { l with more := l.more ++ [(id, none)] } } })

def cmdCfgLoadDram : Cmd := Cmd.plain 0x01 0x04 live
  (lenParam 16 (fun pl => decide (pb pl 12 < 3) && (pb pl 12 ≠ 2 || decide (pb pl 13 < 192)) && decide (pb pl 14 < 2) && pb pl 15 = 0 &&
    decide (pf pl 0 8 + pf pl 8 4 ≤ 0x200000000)))
  (fun id pl c =>
    let a := pf pl 0 8
    let n := pf pl 8 4
    match c.loadState (pb pl 12) (pb pl 13) with
    | some f => c.fail id f.1 f.2
    | none =>
      if overlaps (a, a + n) c.libRange then c.fail id ST_BAD_PARAM dtSlotRange
      else
        match c.rowReads a n with
        | (r, c) =>
          if r ≠ rspOk then c.fail id r.status.1 r.status.2
          else if n < 256 then c.headerFail id ST_BAD_LENGTH dtTruncated
          else
            match c.loadOpen (pb pl 12) (pb pl 13) (pb pl 14 = 1) true (some n) (memRead a 256 c.mem) with
            | (some f, c') => c'.fail id f.1 f.2
            | (none, c') => (c'.interim id ST_ACCEPTED dtNone []).loadFeed (memRead (a + 256) (n - 256) c'.mem) (some id))

def cmdCfgPage : Cmd := Cmd.plain 0x01 0x05 live
  (lenParam 32 (fun pl => decide (pb pl 0 < 8) && pb pl 1 = 0 && pf pl 4 4 = 0 && pf pl 8 24 ≠ 0))
  (fun id pl c =>
    let k := pf pl 2 2
    let ts := (maskRegions (pf pl 8 24)).map (fun r => (r, pb pl 0))
    if c.dstate ≠ stUser then c.fail id ST_BAD_STATE dtNone
    else if c.get F.CFG_LIB_SLOTS_SLOTS ≤ k ∨ c.slotState k ≠ slValid then c.fail id ST_BAD_PARAM dtSlotRange
    else if ts.any (fun t => c.vmapMeets t.1 (c.slotVmap k)) then c.fail id ST_BAD_PARAM dtVmask
    else (c.interim id ST_ACCEPTED dtNone []).pageAsk (.new (.command id) k ts ts))

def cmdCfgDraw : Cmd := Cmd.plain 0x01 0x06 live
  (lenParam 32 (fun pl => decide (pb pl 0 < 8) && pf pl 1 7 = 0))
  (fun id pl c =>
    let rs := maskRegions (pf pl 8 24)
    if c.bcastBad (pb pl 0) rs then c.fail id ST_BAD_STATE dtNone else c.sendBcast (some id) (pb pl 0) rs)

def cmdCfgRewriteSlot : Cmd := Cmd.plain 0x01 0x07 live
  (lenParam 4 (fun pl => decide (pb pl 0 < 192) && decide (pb pl 1 < 2)))
  (fun id pl c =>
    let r := pb pl 0
    let k := pf pl 2 2
    match c.loadState 2 r with
    | some f => c.fail id f.1 f.2
    | none =>
      if c.get F.CFG_LIB_SLOTS_SLOTS ≤ k ∨ c.slotState k ≠ slValid then c.fail id ST_BAD_PARAM dtSlotRange
      else if c.vmapMeets r (c.slotVmap k) then c.fail id ST_BAD_PARAM dtVmask
      else
        let c := c.interim id ST_ACCEPTED dtNone []
        { c with cfg := { c.cfg with rewrite := some (id, k, r, pb pl 1 = 1) } })

def cmdCfgLibStatus : Cmd := Cmd.plain 0x01 0x08 live
  (fun c pl => orElse (lenIs 4 pl) (if pf pl 2 2 = 0 ∨ 2048 < pf pl 2 2 then some (ST_BAD_PARAM, dtNone)
    else if c.get F.CFG_LIB_SLOTS_SLOTS < pf pl 0 2 + pf pl 2 2 then some (ST_BAD_PARAM, dtSlotRange) else none))
  (fun id pl c => c.ok id ((List.range (pf pl 2 2)).flatMap (fun i =>
    natLe 2 (c.slotState (pf pl 0 2 + i) + 4 * b2n (c.slotReferenced (pf pl 0 2 + i))))))

def cmdCfgLibFree : Cmd := Cmd.plain 0x01 0x09 live
  (fun c pl => orElse (lenIs 4 pl) (if c.get F.CFG_LIB_SLOTS_SLOTS < pf pl 0 2 + pf pl 2 2 then some (ST_BAD_PARAM, dtSlotRange) else none))
  (fun id pl c =>
    let ks := (List.range (pf pl 2 2)).map (fun i => pf pl 0 2 + i)
    if ks.any (fun k => c.slotReferenced k || c.slotState k = slFilling || c.slotState k = slPending) then c.fail id ST_BAD_STATE dtSlotInUse
    else (c.forAll ks (fun k => Chip.setSlotState k slFree)).ok id [])

/-- Bytes that an external part returns: free values (log entry 2). -/
def Chip.freeBytes (c : Chip) (n : Nat) : List Byte := (List.range n).map (fun i => BitVec.ofNat 8 (Config.freeValue (c.freeCtr + i)))

/-- A raw flash operation, as the payload spells it: what the flash returns is the flash's (R227). -/
def cmdCfgXspi : Cmd := Cmd.plain 0x01 0x0A live
  (fun _ pl =>
    if pl.length < 16 then some (ST_BAD_LENGTH, dtNone)
    else if (pb pl 2 ≠ 0 ∧ pb pl 2 ≠ 4) ∨ 4088 < pf pl 8 2 ∨ pf pl 10 6 ≠ 0 then some (ST_BAD_PARAM, dtNone) else none)
  (fun id pl c =>
    if (c.cfg.load.map (fun (l : Load) => l.flash)).getD false then c.fail id ST_BAD_STATE dtNone
    else
      let n := pf pl 8 2
      let c := c.emit (.xspi (pb pl 0) (pb pl 1) (if pb pl 2 = 0 then none else some (pf pl 4 4)) (pb pl 3) n (pl.drop 16))
      Chip.ok id (c.freeBytes n) { c with freeCtr := c.freeCtr + n })

/-! ## Meanings -/

def execStopMark (r : Fin 192) (s : State) := runChip (Chip.stopMark r) s
def execPagingDone (verified failed : BitVec 192) (s : State) := runChip (Chip.pagingDone verified.toNat failed.toNat) s
def execSignatureVerified (s : State) := runChip Chip.signatureDone s
def execRewriteHold (r : Fin 192) (s : State) := runChip (Chip.rewriteHold r) s
def execLoadStallTimeout (s : State) := runChip Chip.loadStall s
def execFlashSegmentRead (part : FlashPart) (s : State) := runChip (Chip.flashRead part) s
def execTongueReqWrite (ni : Fin 288) (wide : Bool) (data : Wide) (s : State) :=
  runChip (fun c => answerWrite (c.tongueReq ni wide data.toNat)) s
def execChCfgStatus (p : Pkt) (s : State) := runAon (Chip.command cmdCfgStatus p) s
def execChCfgLoadBegin (p : Pkt) (s : State) := runAon (Chip.command cmdCfgLoadBegin p) s
def execChCfgLoadData (p : Pkt) (s : State) := runAon (Chip.command cmdCfgLoadData p) s
def execChCfgLoadEnd (p : Pkt) (s : State) := runAon (Chip.command cmdCfgLoadEnd p) s
def execChCfgLoadDram (p : Pkt) (s : State) := runAon (Chip.command cmdCfgLoadDram p) s
def execChCfgPage (p : Pkt) (s : State) := runAon (Chip.command cmdCfgPage p) s
def execChCfgDraw (p : Pkt) (s : State) := runAon (Chip.command cmdCfgDraw p) s
def execChCfgRewriteSlot (p : Pkt) (s : State) := runAon (Chip.command cmdCfgRewriteSlot p) s
def execChCfgLibStatus (p : Pkt) (s : State) := runAon (Chip.command cmdCfgLibStatus p) s
def execChCfgLibFree (p : Pkt) (s : State) := runAon (Chip.command cmdCfgLibFree p) s
def execChCfgXspi (p : Pkt) (s : State) := runAon (Chip.command cmdCfgXspi p) s

end Sys2Proof.Machine
end

