-- ==== Sys2Proof/Machine/Dram.lean ====
section
/-! DEFINITION. The DRAM controller (chapter 10): queues, row accesses, refresh, power-down, training, frequency change,
the freeze and the thaw, and the DRAM commands. -/

namespace Sys2Proof.Machine

/-- The ACTIVATE of a row access, its transfers, and the PRECHARGE (R272); one of them with a parity error. -/
def Chip.drActivate (a : Nat) (perr : Bool) (c : Chip) : Chip := c.drCmd 1 (drBank a) (drRow a) (drBank a % 16) perr
def Chip.drTransfer (kind a : Nat) (perr : Bool) (c : Chip) : Chip := c.drCmd kind (drBank a) (drRow a) (drBank a % 16) perr
def Chip.drPrecharge (a : Nat) (perr : Bool) (c : Chip) : Chip := c.drCmd 4 (drBank a) (drRow a) (drBank a % 16) perr

/-! ## Acceptance (R274, R275, R284, R287) -/

/-- A network request reaches the controller: refused for the stop library (R223), a retired bank (R271) or a freeze
(R287); `none` while its queue is full (R274). A write is answered when it enters the queue. -/
def Chip.drTake (q : NReq) (perr : Bool) (c : Chip) : Option Chip :=
  let src := niOf q.addr
  let refuse := fun (r : Rsp) => some ((c.unflight q).respond q.ni q.idx q.ep r 0 [] src)
  if c.inLib q.addr (16 * q.n) then refuse rspLocked
  else
    match c.drRefusal q.addr with
    | some r => refuse r
    | none =>
      if q.kind = 0 then
        if 256 ≤ c.dr.rq.length then none
        else some (((c.unflight q).drAsk (some (q.ni, q.idx, q.ep)) (q.cls = 0) q.addr (16 * q.n)).drWakeRank q.addr perr)
      else
        if 256 ≤ c.dr.wq.length then none
        else
          let bs := ((q.bes.zip q.data).take q.n).flatMap (fun p => ((List.range 16).zip (natLe 16 p.2)).map (fun b => (p.1.testBit b.1, b.2)))
          some ((((c.unflight q).drPush q.addr bs false).respond q.ni q.idx q.ep rspOk 0 [] src).drWakeRank q.addr perr)

/-- DRAM_REQUEST_ACCEPT. A row-port user's read is queued beside the data its own rows move. -/
def Chip.drAccept (src : DrSrc) (c : Chip) : Chip :=
  match src with
  | .net ni idx perr =>
    match c.inFlight ni idx with
    | some q =>
      if c.firstOf q && decide (placeOf q.addr = .dram) && decide (q.kind ≤ 1) && c.domState domDram = 0 && c.routeOk q.ni (niOf q.addr) then
        (c.drTake q perr).getD c
      else c
    | none => c
  | .rowRead rt a perr =>
    let a := rowBase a.toNat
    if (c.drRefusal a).isSome || decide (256 ≤ c.dr.rq.length) then c else (c.drAsk none rt a 1024).drWakeRank a perr
  | .rowOr a perr => c.bmQueue (rowBase a.toNat) rspOk perr

/-! ## Row accesses (R272, R275 to R278, R286, R287) -/

/-- The granules a read checks. -/
def DrRead.grans (q : DrRead) : List Nat := (List.range (q.n / 8)).map (fun i => q.addr / 8 * 8 + 8 * i)

/-- Corrected granules are counted, and their row is tested (R286, R381). -/
def Chip.drCorrect (a n : Nat) (c : Chip) : Chip :=
  if n = 0 then c
  else
    ((c.addSat F.DR_CNT_A_CORR_CNT n).flagEvent F.DR_STAT_CORR EV_DR_CORRECTED (drBank a + drRow a * 2 ^ 8)).tqPush 3
      (drBank a + drRow a * 2 ^ 8) []

/-- The self-refresh of a frequency change begins once the write queue is drained (Table 10.5, step 3). -/
def Chip.drSelfEntry (c : Chip) : Chip :=
  match c.dr.freq with
  | some (_, _, false) =>
    if c.drState = drReady ∧ c.dr.wq = [] ∧ c.dr.train = none then (c.set F.DR_STAT_STATE drSelf).drCmd 8 0 0 0 false else c
  | _ => c

/-- The postponement allowance P (Table 10.4). -/
def Chip.drP (c : Chip) : Nat := if c.is F.DR_STAT_HOT then 4 else 8

/-- How long a queued read has waited, in ticks of 2.667 ns: 375 are 1 µs. -/
def Chip.drWaited (c : Chip) (q : DrRead) : Nat := c.get F.WW_TB_TIME - q.since

/-- What the controller serves next: a queued write or read. -/
inductive DrPick
  | write (w : DrWrite)
  | read (q : DrRead)
  deriving DecidableEq, Repr

/-- The address of a queued request. -/
def DrPick.addr : DrPick → Nat
  | .write w => w.addr
  | .read q => q.addr

/-- Of the candidates of one step of R276, oldest first: one to an idle bank, else the oldest. -/
def drIdle {α : Type} (busy : List (BitVec 8)) (addr : α → Nat) (l : List α) : Option α :=
  (l.find? (fun x => !busy.any (fun b => b.toNat = drBank (addr x)))).or l.head?

/-- Whether a read may be served now: an RT read that has waited 1 µs always; during a drain no other (R276, R277). -/
def Chip.drReadable (c : Chip) (q : DrRead) : Bool :=
  (q.rt && decide (375 ≤ c.drWaited q)) || !c.is F.DR_STAT_DRAINING

/-- The next work of a command slot (R276, R279, R280, R285, R288), with the banks that are busy. Held requests go first
after a thaw; a frequency change starts no request and drains the writes. -/
def Chip.drChoose (c : Chip) (busy : List (BitVec 8)) : Option DrPick :=
  let wr := fun (_ : Unit) => (drIdle busy DrWrite.addr c.dr.wq).map DrPick.write
  let rd := fun (l : List DrRead) => (drIdle busy DrRead.addr l).map DrPick.read
  if c.drState ≠ drReady || c.is F.DR_STAT_CATCHUP || decide (c.drP ≤ c.get F.DR_STAT_OWED) then none
  else
    match c.dr.thaw with
    | some (_, _, _ + 1, _) => c.dr.wq.head?.map .write
    | some (_, flush, 0, _ + 1) => if flush then none else c.dr.rq.head?.map .read
    | _ =>
      if c.dr.freq.any (fun x => !x.2.2) then wr ()
      else
        let urgent := c.dr.rq.filter (fun q => q.rt && decide (375 ≤ c.drWaited q))
        let first := c.dr.rq.filter (fun q => q.rt || decide (1500 ≤ c.drWaited q))
        if urgent ≠ [] then rd urgent
        else if c.is F.DR_STAT_DRAINING then wr ()
        else if first ≠ [] then rd first
        else if c.dr.rq ≠ [] then rd c.dr.rq
        else wr ()

/-- What one activation serves: every request to the row that waits with the chosen one (R272); after a thaw, the chosen
one alone; with a frequency change, writes alone. Writes come first, in order (R275). -/
def Chip.drTogether (c : Chip) (p : DrPick) : List DrPick :=
  let row := rowBase p.addr
  let held := match c.dr.thaw with
    | some (_, _, nw, nr) => decide (0 < nw + nr)
    | none => false
  if held then [p]
  else
    (c.dr.wq.filter (fun w => rowBase w.addr = row)).map .write ++
      (if c.dr.freq.any (fun x => !x.2.2) then []
       else (c.dr.rq.filter (fun q => rowBase q.addr = row && c.drReadable q)).map .read)

/-- A held request has been served after a thaw (R288). -/
def thawStep (write : Bool) (t : Option (Nat × Bool × Nat × Nat)) : Option (Nat × Bool × Nat × Nat) :=
  t.map (fun x => if write then (x.1, x.2.1, x.2.2.1 - 1, x.2.2.2) else (x.1, x.2.1, x.2.2.1, x.2.2.2 - 1))

/-- Serve one request from the open row: check the granules it reads, then store or answer; an uncorrectable granule freezes
the controller (R286, R287). A write that met one stays, at the head of its queue. -/
def Chip.drServe (synd : Nat) (p : DrPick) (c : Chip) : Chip :=
  match p with
  | .write w =>
    let c := c.drTransfer (if w.rowOr then 10 else 3) w.addr false
    match w.readGrans.find? (fun g => c.dr.bad.contains g) with
    | some g =>
      let c := ({ c with dr := { c.dr with wq := w :: c.dr.wq.erase w } } : Chip).drFreeze 1 true g synd
      if w.rowOr then c.bmFail rspUncorr true else c
    | none =>
      let c := Chip.drLevels { c with dr := { c.dr with
        wq := c.dr.wq.erase w, bad := c.dr.bad.filter (fun g => !w.fullGrans.contains g), thaw := thawStep true c.dr.thaw } }
      if w.rowOr then c.bmPerformed w.addr else c
  | .read q =>
    let c := c.drTransfer 2 q.addr false
    let c := Chip.drLevels { c with dr := { c.dr with rq := c.dr.rq.erase q, thaw := thawStep false c.dr.thaw } }
    let answer := fun (r : Rsp) (c : Chip) =>
      match q.net with
      | some t => c.respond t.1 t.2.1 t.2.2 r 0 q.data (niOf q.addr)
      | none => c
    match q.grans.find? (fun g => c.dr.bad.contains g) with
    | some g => (answer rspUncorr c).drFreeze 1 false g synd
    | none => answer rspOk c

/-- The granules that a request reads. -/
def DrPick.grans : DrPick → List Nat
  | .write w => w.readGrans
  | .read q => q.grans

/-- Serve requests from the open row until the controller freezes; with the granules read. -/
def Chip.drServeAll (synd : Nat) : List DrPick → Chip → List Nat × Chip
  | [], c => ([], c)
  | p :: ps, c =>
    if c.drState = drFrozen then ([], c)
    else
      let r := (c.drServe synd p).drServeAll synd ps
      (p.grans ++ r.1, r.2)

/-- One activation of the row of an address, which serves some requests (R272, R286). -/
def Chip.drRowServe (a : Nat) (parity : Option DrParity) (f : GranFlaws) (ps : List DrPick) (c : Chip) : Chip :=
  let gran := fun (b : BitVec 7) => rowBase a + 8 * b.toNat
  let new := (f.bad.map gran).filter (fun g => !c.dr.bad.contains g)
  let c := { c with dr := { c.dr with bad := c.dr.bad ++ new.eraseDups } }
  let c := c.drActivate a (parity = some .activate)
  if parity = some .activate then c.drFreeze 2 false (rowBase a) 0
  else if parity = some .transfer then (c.drTransfer (match ps.head? with
    | some (.write w) => if w.rowOr then 10 else 3
    | _ => 2) a true).drFreeze 2 false (rowBase a) 0
  else
    let r := c.drServeAll f.synd.toNat ps
    let n := ((f.corr.map gran).eraseDups.filter (fun g => r.1.contains g && !r.2.dr.bad.contains g)).length
    ((r.2.drCorrect (rowBase a) n).drPrecharge a (parity = some .precharge)).drParity (parity = some .precharge) (rowBase a)

/-- The row access that R276 puts next completes, with the banks that were busy when it was chosen. -/
def Chip.drRowNext (busy : List (BitVec 8)) (parity : Option DrParity) (f : GranFlaws) (c : Chip) : Chip :=
  match c.drChoose busy with
  | none => c
  | some p => (c.drRowServe p.addr parity f (c.drTogether p)).drSelfEntry

/-! ## Refresh and power-down (R279 to R282) -/

/-- REFRESH_DUE: OWED rises. -/
def Chip.drDue (c : Chip) : Chip := c.set F.DR_STAT_OWED (min 8 (c.get F.DR_STAT_OWED + 1))

/-- Whether a REFRESH may be issued: below the allowance only when no request waits to be served (R279). -/
def Chip.drMayRefresh (c : Chip) : Bool :=
  c.is F.DR_STAT_CATCHUP || decide (c.drP ≤ c.get F.DR_STAT_OWED) || (c.dr.rq.isEmpty && c.dr.wq.isEmpty) || decide (c.drState ≠ drReady)

/-- REFRESH_DONE: OWED falls; ranks in power-down have been woken; a catch-up ends at 0 (R280). -/
def Chip.drRefreshed (perr : Bool) (c : Chip) : Chip :=
  if c.get F.DR_STAT_OWED = 0 || !c.drMayRefresh then c
  else
    let c := ((c.set F.DR_STAT_OWED (c.get F.DR_STAT_OWED - 1)).set F.DR_STAT_PD 0).drCmd 5 0 0 0 perr
    (if c.get F.DR_STAT_OWED = 0 then c.set F.DR_STAT_CATCHUP 0 else c).drParity perr 0

/-- Entry to HOT at a DRAM layer temperature in °C (R280). -/
def Chip.drHotEntry (temp : Nat) (c : Chip) : Chip :=
  if c.is F.DR_STAT_HOT then c
  else
    let o := c.get F.DR_STAT_OWED
    let c := (c.set F.DR_STAT_HOT 1).raise EV_DR_REFRESH_HOT (o + temp % 256 * 2 ^ 4)
    if o = 0 then c else (c.set F.DR_STAT_CATCHUP 1).inc F.DR_CNT_B_CATCHUP_CNT

/-- Return to NORMAL (R280). -/
def Chip.drNormal (c : Chip) : Chip :=
  if c.is F.DR_STAT_HOT then (c.set F.DR_STAT_HOT 0).raise EV_DR_REFRESH_NORMAL 0 else c

/-- RANK_POWER_DOWN: a rank idle for PD_TIMER, with no request queued for it (R282). -/
def Chip.drPowerDown (rank : Nat) (perr : Bool) (c : Chip) : Chip :=
  let mine := fun (a : Nat) => drBank a / 64 = rank
  if c.get F.DR_CTL_PD_TIMER = 0 || c.drState ≠ drReady || c.dr.rq.any (fun q => mine q.addr) || c.dr.wq.any (fun w => mine w.addr) ||
      (c.get F.DR_STAT_PD).testBit rank then c
  else (c.set F.DR_STAT_PD (setBit (c.get F.DR_STAT_PD) rank)).drCmd 6 (64 * rank) 0 0 perr |>.drParity perr (65536 * rank)

/-! ## Training and frequency change (R283 to R285) -/

/-- Start a training for a cause: 0 boot, 1 frequency change, 2 command, 3 automatic. -/
def Chip.drTrain (cause : Nat) (slots : List Nat) (c : Chip) : Chip :=
  { c.set F.DR_STAT_STATE drTraining with dr := { c.dr with train := some (cause, slots) } }

/-- A DRAM layer's temperature has moved by 20 °C since the last training (R283): 0 L1, 1 L2. -/
def Chip.drMoved (layer : Nat) (c : Chip) : Chip :=
  if c.is F.DR_CTL_AUTO_RETRAIN then
    if c.drState = drReady ∧ c.dr.freq = none then c.drTrain 3 [] else c
  else if c.is F.DR_STAT_RETRAIN_DUE then c
  else (c.set F.DR_STAT_RETRAIN_DUE 1).raise EV_DR_RETRAIN_DUE layer

/-- TRAINING_DONE: with `temps` the layer maxima at this moment. -/
def Chip.drTrained (ok : Bool) (temps : List Int) (c : Chip) : Chip :=
  match c.dr.train with
  | none => c
  | some (cause, ids) =>
    if c.drState ≠ drTraining then c
    else
      if !ok then c.drFreeze 3 false 0 0
      else
        let c := { c with dr := { c.dr with train := none } }
        let c := Chip.set F.DR_STAT_RETRAIN_DUE 0 { c.inc F.DR_CNT_B_TRAIN_CNT with dr := { c.dr with temps := temps } }
        let c := c.set F.DR_STAT_STATE drReady
        match c.dr.freq with
        | some (id, fr, true) => (Chip.drSelfEntry { c with dr := { c.dr with freq := some (id, fr, false) } }).endAll ids ST_OK dtNone
        | some (id, fr, false) =>
          ((Chip.set F.DR_STAT_FREQ_PENDING 0 { c with dr := { c.dr with freq := none } }).raise EV_DR_TRAINED (fr + 4)).endAll [id] ST_OK dtNone
        | none => (c.raise EV_DR_TRAINED (c.get F.DR_CTL_FREQ + cause * 4)).endAll ids ST_OK dtNone

/-- FREQ_RELOCKED: the clock runs at the new frequency; self-refresh exits into training (Table 10.5, steps 4 and 5). -/
def Chip.drRelocked (perr : Bool) (c : Chip) : Chip :=
  match c.dr.freq with
  | some (_, fr, false) =>
    if c.drState = drSelf then (((c.set F.DR_CTL_FREQ fr).drCmd 9 0 0 0 perr).drTrain 1 []).drParity perr 0 else c
  | _ => c

/-- DRAM_ROW_ACCESS_DONE: the next command slots hold a row access, or in its place another command that has a parity error
(R276, R286). -/
def Chip.drRow (busy : List (BitVec 8)) (parity : Option DrParity) (f : GranFlaws) (c : Chip) : Chip :=
  match parity with
  | some .refresh => c.drRefreshed true
  | some (.powerDown rank) => c.drPowerDown rank true
  | some .selfExit => c.drRelocked true
  | p => c.drRowNext busy p f

/-! ## Thaw (R288) -/

/-- One byte is zeroed in the DRAM under the queue: what each queued write then finds there and stores, and what the byte
holds after all of them. -/
def drReplay (a : Nat) : List DrWrite → Byte → List DrWrite × Byte
  | [], v => ([], v)
  | w :: ws, v =>
    let w' := match (if a < w.addr then none else (w.old[a - w.addr]?).getD none) with
      | some _ => { w with old := w.old.set (a - w.addr) (some v) }
      | none => w
    let r := drReplay a ws (w.at a v)
    (w' :: r.1, r.2)

/-- Rewrite a granule with zero data (step 2): queued writes keep their bytes and merge with zero; held reads see zero where
they were to read the DRAM. -/
def Chip.granZero (g : Nat) (c : Chip) : Chip :=
  let rs := c.dr.rq.map (fun (q : DrRead) =>
    let bytes := ((List.range q.n).zip ((q.data.flatMap (natLe 16)).zip (q.zeros.flatMap (natLe 16)))).map (fun p =>
      if decide (g ≤ q.addr + p.1) && decide (q.addr + p.1 < g + 8) && !q.fwd.testBit p.1 then p.2.2 else p.2.1)
    { q with data := (List.range q.data.length).map (fun i => leNat ((bytes.drop (16 * i)).take 16)) })
  let c := c.forAll ((List.range 8).map (fun i => g + i)) (fun a c =>
    let r := drReplay a c.dr.wq 0
    { c with mem := memPut a r.2 c.mem, dr := { c.dr with wq := r.1 } })
  { c with dr := { c.dr with rq := rs, bad := c.dr.bad.filter (fun x => x ≠ g) } }

/-- Perform the held writes that are left, in acceptance order, then the held reads where they are served, each in a row
access of its own; an uncorrectable granule freezes the controller again. -/
def Chip.drHeld (ps : List DrPick) (c : Chip) : Chip :=
  c.forAll ps (fun p c =>
    if c.drState = drFrozen then c
    else c.drRowServe p.addr none { corr := [], bad := [], synd := 0 } [p])

/-- THAW_DONE: the held writes have been performed in order, and the held reads served or answered FROZEN (R288). -/
def Chip.thawDone (c : Chip) : Chip :=
  match c.dr.thaw with
  | none => c
  | some (id, flush, nw, nr) =>
    let rs := c.dr.rq.take nr
    let c := c.drHeld ((c.dr.wq.take nw).map .write ++ (if flush then [] else rs.map .read))
    if c.drState = drFrozen then c
    else
      let c := if !flush then c
        else
          let c := c.forAll rs (fun q c =>
            match q.net with
            | some t => c.respond t.1 t.2.1 t.2.2 rspFrozen 0 [] (niOf q.addr)
            | none => c)
          Chip.drLevels { c with dr := { c.dr with rq := c.dr.rq.drop nr } }
      Chip.ok id [] { c with dr := { c.dr with thaw := none } }

/-! ## Resets (R289) -/

/-- The queued writes are lost: every byte goes back to what it held, newest write first. -/
def Chip.drDiscard (c : Chip) : Chip :=
  let m := c.dr.wq.reverse.foldl (fun m (w : DrWrite) =>
    ((List.range w.old.length).zip w.old).foldl (fun m p =>
      match p.2 with
      | some b => memPut (w.addr + p.1) b m
      | none => m) m) c.mem
  { c with mem := m, dr := { c.dr with wq := [] } }

/-- A warm reset or a controller reset on the queues: writes drained unless frozen, reads lost (Table 10.7). -/
def Chip.drQueueReset (c : Chip) : Chip :=
  let rows := c.dr.wq.filter DrWrite.rowOr
  let c :=
    if c.drState = drFrozen then c.drDiscard
    else { c with dr := { c.dr with wq := [], bad := c.dr.bad.filter (fun g => !c.dr.wq.any (fun w => w.fullGrans.contains g)) } }
  (({ c with dr := { c.dr with rq := [], train := none, freq := none, thaw := none } } : Chip).drLevels).forAll rows
    (fun w => Chip.bmPerformed w.addr)

/-- A cold reset or a restart from SHUTDOWN: every row is zeroed in BOOT (R289). -/
def Chip.drZero (c : Chip) : Chip :=
  { c with mem := memZero 0 0x200000000 c.mem, dr := { c.dr with wq := [], rq := [], bad := [], train := none, freq := none, thaw := none } }

/-- DR_CNT_CLR (Table 10.8). -/
def Chip.drCntClr (v : Nat) (c : Chip) : Chip :=
  let c := if v.testBit 0 then c.clear [F.DR_CNT_A_CORR_CNT, F.DR_CNT_A_FREEZES] else c
  if v.testBit 1 then c.clear [F.DR_CNT_B_CATCHUP_CNT, F.DR_CNT_B_TRAIN_CNT] else c

/-! ## Commands (R291) -/

def dtTraining : Nat := 0x50
def dtNotFrozen : Nat := 0x51
def dtFreqPending : Nat := 0x52

/-- The words of DRAM controller registers at given offsets. -/
def Chip.drRegs (c : Chip) (offs : List Nat) : List Byte := offs.flatMap (fun o => natLe 8 (c.regWord (0x800000 + o)))

def cmdDrStatus : Cmd := Cmd.plain 0x02 0x10 live (fun _ pl => lenIs 0 pl) (fun id _ c =>
  c.ok id (c.drRegs [0x00, 0x08, 0x30, 0x38, 0x48, 0x50]))

def cmdDrFreq : Cmd := Cmd.plain 0x02 0x11 live (lenParam 4 (fun pl => decide (pf pl 0 4 < 3))) (fun id pl c =>
  let fr := pf pl 0 4
  if c.drState = drFrozen then c.fail id ST_FROZEN dtNone
  else if c.dr.freq ≠ none then c.fail id ST_BUSY_TRAINING dtFreqPending
  else if fr = c.get F.DR_CTL_FREQ then c.ok id []
  else
    let busy := c.dr.train.isSome
    let c := if busy then c.interim id ST_DEFERRED dtTraining [] else c.interim id ST_ACCEPTED dtNone []
    Chip.drSelfEntry { c.set F.DR_STAT_FREQ_PENDING 1 with dr := { c.dr with freq := some (id, fr, busy) } })

def cmdDrTrain : Cmd := Cmd.plain 0x02 0x12 live (fun _ pl => lenIs 0 pl) (fun id _ c =>
  if c.drState = drFrozen then c.fail id ST_FROZEN dtNone
  else if c.dr.freq ≠ none then c.fail id ST_BUSY_TRAINING dtFreqPending
  else if c.dr.train ≠ none then c.fail id ST_BUSY_TRAINING dtTraining
  else (c.interim id ST_ACCEPTED dtNone []).drTrain 2 [id])

/-- Entry `i` of the snapshot's history; entries that no command has filled are zero. -/
def Chip.drHist (c : Chip) (i : Nat) : Nat := (c.dr.hist[i]?).getD 0

def cmdDrSnapshot : Cmd := Cmd.plain 0x02 0x13 live
  (lenParam 4 (fun pl => decide (pb pl 0 < 64) && decide (1 ≤ pb pl 1) && decide (pb pl 0 + pb pl 1 ≤ 64) && pf pl 2 2 = 0))
  (fun id pl c => c.ok id (c.drRegs [0x48, 0x50, 0x58, 0x60, 0x68] ++
    (List.range (pb pl 1)).flatMap (fun i => natLe 8 (c.drHist (pb pl 0 + i)))))

def cmdDrThaw : Cmd := Cmd.plain 0x02 0x14 live (lenParam 4 (fun pl => decide (pf pl 0 4 < 2))) (fun id pl c =>
  if c.drState ≠ drFrozen then c.fail id ST_BAD_STATE dtNotFrozen
  else
    let c := (c.interim id ST_ACCEPTED dtNone []).setSlot id (fun (s : Slot) => { s with noStop := true })
    let a := c.get F.DR_FRZ_ADDR_ADDR
    let data := decide (c.get F.DR_FRZ_STAT_CAUSE = 1)
    let gs := if data then c.dr.bad.filter (fun g => g / 1024 = a / 1024) else []
    let c := (c.forAll gs (fun g => Chip.granZero g)).set F.DR_FRZ_SYND_LOST gs.length
    let c := (c.set F.DR_STAT_STATE drReady).set F.DR_FRZ_STAT_FROZEN 0
    let c := c.raise EV_DR_THAWED (pf pl 0 4 + gs.length * 2)
    let c := { c with dr := { c.dr with thaw := some (id, pb pl 0 = 1, c.dr.wq.length, c.dr.rq.length) } }
    if data then c.tqPush 3 (drBank a + drRow a * 2 ^ 8) [] else c)

/-! ## The commands -/

def execDramRowAccessDone (busy : List (BitVec 8)) (parity : Option DrParity) (found : GranFlaws) (s : State) :=
  runChip (Chip.drRow busy parity found) s
def execDramRequestAccept (src : DrSrc) (s : State) := runChip (Chip.drAccept src) s
def execRefreshDue (s : State) := runChip Chip.drDue s
def execRefreshDone (s : State) := runChip (Chip.drRefreshed false) s
def execRankPowerDown (rank : Fin 4) (s : State) := runChip (Chip.drPowerDown rank false) s
def execFreqRelocked (s : State) := runChip (Chip.drRelocked false) s
def execThawDone (s : State) := runChip Chip.thawDone s
def execDrCntClr (data : Word) (s : State) :=
  runChip (fun c => (c.drCntClr data.toNat).answer rspOk 0) s
def execChDrStatus (p : Pkt) (s : State) := runAon (Chip.command cmdDrStatus p) s
def execChDrFreq (p : Pkt) (s : State) := runAon (Chip.command cmdDrFreq p) s
def execChDrTrain (p : Pkt) (s : State) := runAon (Chip.command cmdDrTrain p) s
def execChDrSnapshot (p : Pkt) (s : State) := runAon (Chip.command cmdDrSnapshot p) s
def execChDrThaw (p : Pkt) (s : State) := runAon (Chip.command cmdDrThaw p) s

end Sys2Proof.Machine
end

