-- ==== Sys2Proof/Machine/Windway.lean ====
section
/-! DEFINITION. Windway (chapter 13): the link, lanes and ports, discovery and routes, remote requests, the time base,
cross-device gangs, and the Windway commands. -/

namespace Sys2Proof.Machine

/-- Every port. -/
def wwPorts : List Nat := List.range 8

/-- This device's unique ID. -/
def Chip.ownUid (c : Chip) : Nat := c.get F.SYS_UID_LO_UID + c.get F.SYS_UID_HI_UID * 2 ^ 64

/-- The device takes part in Windway (R339). -/
def Chip.wwRuns (c : Chip) : Bool := decide (stFw ≤ c.dstate) && decide (c.dstate ≤ stSafe)

/-! ## Frames (R336, R337) -/

/-- Send every unacknowledged frame again; each resend counts as one replay (R337). -/
def Chip.wpResend (p : Nat) (c : Chip) : Chip :=
  let w := c.wp p
  if w.unacked = [] ∨ c.get (F.WW_P_STAT_WIDTH p) = 0 then c
  else
    let c := c.addSat (F.WW_P_CNT_REPLAYS p) w.unacked.length
    (c.setWp p (fun w => { w with unacked := w.unacked.map (fun f => (f.1, f.2 + 1)) })).emit (.wwResend p (w.unacked.map Prod.fst))

/-- The number of lanes a port uses with `n` in service (R335). -/
def widthOf (n : Nat) : Nat := if 4 ≤ n then 4 else if 2 ≤ n then 2 else n

/-- The lanes of a port in service. -/
def Chip.lanesIn (c : Chip) (p : Nat) : List Nat :=
  (List.range 4).filter (fun l => !(c.get (F.WW_P_STAT_LANE_OUT p)).testBit l && !(c.get (F.WW_P_STAT_LANE_RET p)).testBit l)

/-- Show the width of a port: lanes in use while it is UP (R335). -/
def Chip.widthShow (p : Nat) (c : Chip) : Chip :=
  (c.set (F.WW_P_STAT_WIDTH p) (if c.wpState p = wpUp then widthOf (c.lanesIn p).length else 0)).wpFill p

/-- Take a lane out of service for its test; transfer resumes after the last acknowledged frame (R338). -/
def Chip.laneOut (p l : Nat) (slots : List Nat) (c : Chip) : Chip :=
  let c := (c.set (F.WW_P_STAT_LANE_OUT p) (setBit (c.get (F.WW_P_STAT_LANE_OUT p)) l)).widthShow p
  c.tqPush 9 (p + 8 * l) slots

/-- The lane in use whose lane check failed most often, the lowest on a tie (R338). -/
def Chip.worstLane (c : Chip) (p : Nat) : Option Nat :=
  ((c.lanesIn p).take (c.get (F.WW_P_STAT_WIDTH p))).foldl (fun (b : Option Nat) l =>
    match b with
    | none => some l
    | some k => if (c.wp p).fails.getD k 0 < (c.wp p).fails.getD l 0 then some l else b) none

/-- A lane becomes suspect; cause 0 replays, 1 rate (R338). -/
def Chip.laneSuspect (p cause : Nat) (c : Chip) : Chip :=
  match c.worstLane p with
  | none => c
  | some l =>
    let c := c.setWp p (fun w => { w with fails := [0, 0, 0, 0], unacked := w.unacked.map (fun f => (f.1, 0)) })
    (c.raise EV_WW_LANE_SUSPECT (p + 8 * l + 32 * cause)).laneOut p l []

/-- A NAK, or 500 ns without an acknowledgement: a frame replayed three times makes a lane suspect; all are resent (R337,
R338). -/
def Chip.wpReplay (p : Nat) (c : Chip) : Chip :=
  let c := if (c.wp p).unacked.any (fun f => decide (3 ≤ f.2)) then c.laneSuspect p 0 else c
  c.wpResend p

/-- The frames that remain after an acknowledgement of SEQ `a`. -/
def ackDrop (a : Nat) (fs : List (Nat × Nat)) : List (Nat × Nat) :=
  if fs.any (fun f => f.1 = a) then (fs.dropWhile (fun f => f.1 ≠ a)).tail else fs

/-- The CRC of a frame over bits [151:0] (R336). -/
def frameCrc (f : Nat) : Nat := crc32c (natLe 19 f)

/-- Ask once per gap for the frames after the last in order (R337). -/
def Chip.wpNak (p : Nat) (c : Chip) : Chip :=
  if (c.wp p).gap then c
  else (c.setWp p (fun w => { w with gap := true })).emit (.wwAck p (((c.wp p).rxSeq + 255) % 256) true)

/-- WW_FRAME_RECEIVE: a frame with the lanes whose lane check failed (R336, R337, Table 13.1). -/
def Chip.wpFrame (p f laneBad : Nat) (c : Chip) : Chip :=
  if c.wpState p ≠ wpUp then c
  else if frameCrc f ≠ bits f 183 152 then
    let c := (c.inc (F.WW_P_CNT_CRC_ERR p)).setWp p (fun w => { w with
      errs := w.errs + 1
      fails := (List.range 4).map (fun l => w.fails.getD l 0 + bit laneBad l) })
    c.wpNak p
  else
    let c := if f.testBit 144 then (c.setWp p (fun w => { w with unacked := ackDrop (bits f 143 136) w.unacked })).wpFill p else c
    let c := if f.testBit 145 then c.wpReplay p else c
    let ty := bits f 150 149
    if ty ≠ 0 ∧ ty ≠ 2 then c
    else if bits f 135 128 = (c.wp p).rxSeq then
      let c := c.setWp p (fun w => { w with rxSeq := (w.rxSeq + 1) % 256, gap := false })
      let c := c.emit (.wwAck p (bits f 135 128) false)
      if ty = 0 then c.emit (.wwFlit p (bits f 148 146) (f % 2 ^ 128)) else c
    else if (bits f 135 128 + 256 - (c.wp p).rxSeq) % 256 < 128 then c.wpNak p
    else c

/-- WW_ERR_WINDOW: the CRC errors of one millisecond against `ERR_THRESH` (R338). -/
def Chip.wpWindow (p : Nat) (c : Chip) : Chip :=
  let t := c.get F.WW_CTL_ERR_THRESH
  let c := if t ≠ 0 ∧ t < (c.wp p).errs then c.laneSuspect p 1 else c
  c.setWp p (fun w => { w with errs := 0 })

/-! ## Routes (R341 to R343) -/

/-- A route entry from a list of ports (Table 13.3). -/
def routeEntry (ports : List Nat) : Nat :=
  (ports.foldr (fun p a => p + 8 * a) 0) + ports.length * 2 ^ 36 + 2 ^ 40

/-- The ports of a route of `n` hops. -/
def routePorts (route n : Nat) : List Nat := (List.range n).map (hopOf route)

/-- One round of the search for routes: from the devices reached last, in order, over their UP ports in order. -/
def routeRound (topo : List WwNode) (done front : List (Nat × List Nat)) : List (Nat × List Nat) :=
  front.foldl (fun new e =>
    match topo.find? (fun n => n.uid = e.1) with
    | none => new
    | some n =>
      (List.range 8).foldl (fun new p =>
        let q := n.ports.getD p (0, 0, 0)
        if q.1 = wpUp ∧ topo.any (fun m => m.uid = q.2.1) ∧ !(done ++ new).any (fun d => d.1 = q.2.1) then
          new ++ [(q.2.1, e.2 ++ [p])]
        else new) new) []

/-- Every route of at most `fuel` more hops. -/
def routeSearch (topo : List WwNode) : Nat → List (Nat × List Nat) → List (Nat × List Nat) → List (Nat × List Nat)
  | 0, done, _ => done
  | fuel + 1, done, front =>
    let new := routeRound topo done front
    routeSearch topo fuel (done ++ new) new

/-- The routes from a device: fewest hops, at most 12, then the lowest port sequence (R342). -/
def routesFrom (topo : List WwNode) (uid : Nat) : List (Nat × List Nat) := routeSearch topo 12 [(uid, [])] [(uid, [])]

/-- The lowest device ID from `n` that is not taken. -/
def freeId (ids : List (Nat × Nat)) : Nat → Nat → Option Nat
  | 0, _ => none
  | fuel + 1, n => if ids.any (fun e => e.2 = n) then freeId ids fuel (n + 1) else some n

/-- Insert into an ascending list. -/
def insertUp (x : Nat) : List Nat → List Nat
  | [] => [x]
  | y :: ys => if x ≤ y then x :: y :: ys else y :: insertUp x ys

/-- Assign IDs to the devices found, in ascending order of unique ID; IDs once given stay (R341). -/
def assignIds (root : Nat) (found : List Nat) (ids : List (Nat × Nat)) : List (Nat × Nat) :=
  let ids := if ids.any (fun e => e.1 = root) then ids else (root, 0) :: ids
  ((found.filter (fun u => !ids.any (fun e => e.1 = u))).foldr insertUp []).foldl (fun ids u =>
    match freeId ids 4095 1 with
    | some n => if n < 0xFFF then ids ++ [(u, n)] else ids
    | none => ids) ids

/-- The root's view of itself. -/
def Chip.ownNode (c : Chip) : WwNode :=
  { uid := c.ownUid, path := [],
    ports := wwPorts.map (fun p => (if c.is (F.WW_P_STAT_BRIDGE p) then 0 else c.wpState p, (c.wp p).uid, c.get (F.WW_P_STAT_PARTNER_PORT p))) }

/-- The topology list with the root as it is now. -/
def Chip.topoNow (c : Chip) : List WwNode := c.ownNode :: c.ww.topo.filter (fun n => n.uid ≠ c.ownUid)

/-- The ID of a unique ID, 0xFFF if none. -/
def Chip.idOf (c : Chip) (uid : Nat) : Nat := ((c.ww.ids.find? (fun e => e.1 = uid)).map Prod.snd).getD 0xFFF

/-- Set an entry of a bank; entry 0xFFF is never written valid (R343). -/
def Chip.setRoute (b d e : Nat) (c : Chip) : Chip := c.set (F.WW_ROUTE_W b d) (e % 2 ^ (if d = 0xFFF then 40 else 41))

/-- The entries that a device gets: for every ID assigned, its route or an invalid entry (R342). -/
def Chip.entriesOf (c : Chip) (uid : Nat) : List (Nat × Nat) :=
  let rs := routesFrom c.topoNow uid
  c.ww.ids.map (fun e => (e.2, if e.1 = uid then 0 else ((rs.find? (fun r => r.1 = e.1)).map (fun r => routeEntry r.2)).getD 0))

/-- The port that the time base follows: hop 0 of the route to the master (R352). -/
def Chip.upstream (c : Chip) : Option Nat := if c.is F.WW_TB_CTL_MASTER then none else (c.routeTo 0).map (fun e => hopOf e 0)

/-- Invert `EPOCH`: the other bank comes into use, and OLD takes the count of the former epoch (R346). -/
def Chip.epochSwitch (c : Chip) : Chip :=
  let n := c.get F.WW_INFLIGHT_CUR
  let c := ((c.set F.WW_ID_EPOCH (1 - c.get F.WW_ID_EPOCH)).set F.WW_INFLIGHT_OLD n).set F.WW_INFLIGHT_CUR 0
  match c.upstream with
  | some p => c.set F.WW_TB_STAT_UPSTREAM p
  | none => c

/-! ## Forwarding through the root ends for an unreachable device (R68) -/

/-- End forwarded commands on behalf of their destination (R68). -/
def Chip.fwdEnd (ok : Fwd → Bool) (status detail : Nat) (c : Chip) : Chip :=
  let es := c.ch.fwd.filter ok
  let c := { c with ch := { c.ch with fwd := c.ch.fwd.filter (fun e => !ok e) } }
  c.forAll es (fun e c => c.sendReply e.route none false
    (replyBytes (e.cls ||| 0x80) e.op e.tag status detail c.srcId c.ch.slots.length []))

/-- The root declares a device unreachable (R342). -/
def Chip.declareGone (d : Nat) (c : Chip) : Chip :=
  (c.raise EV_WW_UNREACHABLE d).fwdEnd (fun e => e.dest = d) ST_TIMEOUT dtFwdNoReply

/-! ## Discovery and route change at the root (Tables 13.2, 13.5) -/

/-- The devices that the root can reach by path, beside itself. -/
def Chip.others (c : Chip) : List WwNode :=
  c.ww.topo.filter (fun n => n.uid ≠ c.ownUid && (routesFrom c.topoNow c.ownUid).any (fun r => r.1 = n.uid))

/-- The path from the root to a device. -/
def Chip.pathTo (c : Chip) (uid : Nat) : List Nat :=
  (((routesFrom c.topoNow c.ownUid).find? (fun r => r.1 = uid)).map Prod.snd).getD []

/-- Send a packet by path. -/
def Chip.wwByPath (path : List Nat) (kind n : Nat) (fields : List Nat) (c : Chip) : Chip :=
  c.wwAlong kind 3 0xFFF (routeEntry path % 2 ^ 36) path.length n fields

/-- Begin a discovery: a PROBE with a new serial on every UP port (Table 13.2, step 1). -/
def Chip.discStart (slot : Option Nat) (c : Chip) : Chip :=
  let n := c.ww.serial + 1
  let c := { c with ww := { c.ww with
    serial := n
    topo := []
    change := some { slot := slot, disc := true, write := true, phase := 0, acks := 0 } } }
  let c := c.set F.WW_ID_DISC_BUSY 1
  c.forAll (wwPorts.filter (fun p => c.wpState p = wpUp)) (fun p => Chip.wwPort p wtProbe 1 [] [n, c.ownUid, 1, p, 0, 0])

/-- Begin a route change (Table 13.5, step 1). -/
def Chip.routeStart (slot : Option Nat) (write : Bool) (c : Chip) : Chip :=
  let c := { c with ww := { c.ww with change := some { slot := slot, disc := false, write := write, phase := 1, acks := 0 } } }
  c.set F.WW_ID_DISC_BUSY 1

/-- The change is over: events, final reply, and what waited behind it (Tables 13.2, 13.5, R351). -/
def Chip.changeDone (g : WwChange) (c : Chip) : Chip :=
  let c := (c.set F.WW_ID_DISC_BUSY 0).raise EV_WW_EPOCH (c.get F.WW_ID_EPOCH)
  let c := { c with ww := { c.ww with change := none } }
  let n := c.get F.WW_ID_DEVICES
  let c := c.raiseIf g.disc EV_WW_DISC_DONE n
  let c := c.forAll g.slot.toList (fun id => Chip.ok id (if g.disc then natLe 4 n else []))
  let w := c.ww.want
  let c := { c with ww := { c.ww with want := 0 } }
  if w.testBit 1 then c.discStart none else if w.testBit 0 then c.routeStart none true else c

/-- Send the switches, the root itself last (Table 13.5, step 3). -/
def Chip.changeSwitch (g : WwChange) (c : Chip) : Chip :=
  let ds := c.others
  let c := c.forAll ds (fun n => Chip.wwByPath (c.pathTo n.uid) wtPathWrite 1 [2])
  let g := { g with phase := 3, acks := ds.length }
  let c := { c with ww := { c.ww with change := some g } }.epochSwitch
  if ds = [] then c.changeDone g else c

/-- The routes go to every device's inactive bank, with its ID on a discovery (Table 13.2 step 5, Table 13.5 step 2); devices
that have lost their last route are declared unreachable (R342). -/
def Chip.changeWrite (g : WwChange) (c : Chip) : Chip :=
  if !g.write then c.changeSwitch g
  else
    let now := (routesFrom c.topoNow c.ownUid).map (fun r => c.idOf r.1)
    let lost := c.ww.reach.filter (fun d => !now.contains d)
    let c := { c with ww := { c.ww with reach := now.filter (fun d => d ≠ 0xFFF) } }
    let c := c.forAll lost (fun d => Chip.declareGone d)
    let b := 1 - c.get F.WW_ID_EPOCH
    let c := c.forAll (c.entriesOf c.ownUid) (fun e => Chip.setRoute b e.1 e.2)
    let partners := fun (n : WwNode) => (List.range 8).map (fun p => c.idOf (n.ports.getD p (0, 0, 0)).2.1)
    let c :=
      if g.disc then
        let c := c.forAll wwPorts (fun p => Chip.set (F.WW_P_STAT_PARTNER_ID p) ((partners c.ownNode).getD p 0xFFF))
        (c.set F.WW_ID_DEVICE_ID 0).set F.WW_TB_CTL_MASTER 1
      else c
    let ds := c.others
    let es := fun (n : WwNode) => c.entriesOf n.uid
    let c := c.forAll ds (fun n c =>
      let path := c.pathTo n.uid
      let c := if g.disc ∧ c.idOf n.uid ≠ 0xFFF then c.wwByPath path wtPathWrite 1 ([0, c.idOf n.uid] ++ partners n) else c
      c.forAll (es n) (fun e => Chip.wwByPath path wtPathWrite 1 [1, e.1, e.2]))
    let acks : Nat := (ds.map (fun n => (if g.disc ∧ c.idOf n.uid ≠ 0xFFF then 1 else 0) + (es n).length)).sum
    let g := { g with phase := 2, acks := acks }
    let c : Chip := { c with ww := { c.ww with change := some g } }
    if acks = 0 then c.changeSwitch g else c

/-- DISC_WAIT_EXPIRY: the replies are in; IDs are assigned and, unless requests of the former epoch are still in flight, the
routes are written (Table 13.2, steps 3 to 5). -/
def Chip.discExpire (c : Chip) : Chip :=
  match c.ww.change with
  | none => c
  | some g =>
    if g.phase ≠ 0 then c
    else
      let found : List Nat := c.topoNow.map WwNode.uid
      let c : Chip := { c with ww := { c.ww with ids := assignIds c.ownUid found c.ww.ids } }
      let bare := found.filter (fun u => c.idOf u = 0xFFF)
      let c := c.forAll bare (fun u => Chip.raise EV_WW_UNREACHABLE (found.findIdx (fun v => v = u)))
      let c := c.set F.WW_ID_DEVICES (found.filter (fun u => c.idOf u ≠ 0xFFF)).length
      if c.get F.WW_INFLIGHT_OLD = 0 then c.changeWrite g
      else { c with ww := { c.ww with change := some { g with phase := 1 } } }

/-- ROUTE_OLD_DRAINED: OLD is 0 on every reachable device (Table 13.5, step 1). -/
def Chip.oldDrained (c : Chip) : Chip :=
  match c.ww.change with
  | none => c
  | some g => if g.phase = 1 ∧ c.get F.WW_INFLIGHT_OLD = 0 then c.changeWrite g else c

/-- A path write or a switch is acknowledged (Tables 13.2, 13.5). -/
def Chip.pathAck (c : Chip) : Chip :=
  match c.ww.change with
  | none => c
  | some g =>
    if g.phase < 2 ∨ g.acks = 0 then c
    else
      let g := { g with acks := g.acks - 1 }
      let c : Chip := { c with ww := { c.ww with change := some g } }
      if g.acks ≠ 0 then c else if g.phase = 2 then c.changeSwitch g else c.changeDone g

/-- The root learns that a port of a device has changed state (R351). -/
def Chip.rootReact (uid p st : Nat) (c : Chip) : Chip :=
  let c := { c with ww := { c.ww with topo := c.ww.topo.map (fun n =>
    if n.uid = uid then { n with ports := n.ports.mapIdx (fun i q => if i = p then (st, q.2) else q) } else n) } }
  let bitNo := if st = wpUp then 1 else 0
  if !(if st = wpUp then c.is F.WW_CTL_AUTO_REDISC else c.is F.WW_CTL_AUTO_REROUTE) then c
  else if c.ww.change.isSome then { c with ww := { c.ww with want := setBit c.ww.want bitNo } }
  else if st = wpUp then c.discStart none
  else c.routeStart none true

/-- A link has gone DOWN, come UP or been retired: LINK_CHANGE to the root (R351). -/
def Chip.linkChanged (p st : Nat) (c : Chip) : Chip :=
  if c.is F.WW_ID_ROOT then c.rootReact c.ownUid p st else c.wwTo 0 wtLinkChange 1 [p, st]

/-! ## Ports (R339, R350, R351) -/

/-- PORT_TRAINED: training ends with a partner (R339); a retraining is over (R8). -/
def Chip.portUp (p : Nat) (bridge : Bool) (uid partner : Nat) (c : Chip) : Chip :=
  if !c.wwRuns || !c.is (F.WW_P_CTL_EN p) || decide (wpUp ≤ c.wpState p) then c
  else
    let c := ((c.set (F.WW_P_STAT_LSTATE p) wpUp).set (F.WW_P_STAT_BRIDGE p) (b2n bridge)).set (F.WW_P_CTL_RETRAIN p) 0
    let c := (c.set (F.WW_P_STAT_PARTNER_PORT p) partner).set (F.WW_P_STAT_PARTNER_ID p) (c.idOf uid)
    let c := (c.setWp p (fun w => { w with uid := uid })).widthShow p
    let c := if p = 0 ∧ bridge ∧ !c.ww.gaveUp then (c.set F.WW_ID_ROOT 1).set F.WW_TB_CTL_MASTER 1 else c
    let c := if c.domState (domPort p) = 0 then c else c.domOpen (domPort p)
    (c.raise EV_WW_LINK_UP (p + 8 * c.get (F.WW_P_STAT_WIDTH p))).linkChanged p wpUp

/-- A port leaves UP for a state; frames in its link buffers are discarded. -/
def Chip.portLeave (p st : Nat) (c : Chip) : Chip :=
  let c := ((c.set (F.WW_P_STAT_LSTATE p) st).set (F.WW_P_STAT_WIDTH p) 0).set (F.WW_P_CTL_RETRAIN p) 0
  { c with ww := { c.ww with ports := tdel p c.ww.ports } }

/-- LINK_DOWN (R351). -/
def Chip.portDown (p : Nat) (c : Chip) : Chip :=
  if c.wpState p = wpUp then ((c.portLeave p wpDown).raise EV_WW_LINK_DOWN p).linkChanged p wpDown
  else if c.wpState p = wpTraining then (c.set (F.WW_P_STAT_LSTATE p) wpDown).set (F.WW_P_CTL_RETRAIN p) 0
  else c

/-- Enable or disable a port (Table 13.7). -/
def Chip.portEnable (p : Nat) (on : Bool) (c : Chip) : Chip :=
  let was := c.is (F.WW_P_CTL_EN p)
  let c := c.set (F.WW_P_CTL_EN p) (b2n on)
  if was = on ∨ c.wpState p = wpRetired then c
  else if on then (if c.wwRuns then c.set (F.WW_P_STAT_LSTATE p) wpTraining else c)
  else c.portDown p

/-- Retrain a port; frames not yet acknowledged are kept, and `RETRAIN` reads 1 until training ends (R8, R357). -/
def Chip.portRetrain (p : Nat) (c : Chip) : Chip :=
  if c.wpState p = wpRetired ∨ !c.is (F.WW_P_CTL_EN p) ∨ !c.wwRuns then c
  else ((c.set (F.WW_P_STAT_LSTATE p) wpTraining).set (F.WW_P_STAT_WIDTH p) 0).set (F.WW_P_CTL_RETRAIN p) 1

/-- A port reset closes the port's domain, discards its link buffers and retrains it; retired lanes stay, and a retired port stays
closed (R350). -/
def Chip.portReset (p : Nat) (c : Chip) : Chip :=
  if c.wpState p = wpRetired then c
  else (c.domClose (domPort p) 0).portLeave p (if c.is (F.WW_P_CTL_EN p) && c.wwRuns then wpTraining else wpDown)

/-- On entry to FW the ports train; a port whose lanes are all retired is RETIRED (R339, R351). `DISC_BUSY`, which a warm reset keeps
(R357), is 0 from here on: no discovery runs. -/
def Chip.portsStart (c : Chip) : Chip :=
  let c := if c.ww.change.isNone then c.set F.WW_ID_DISC_BUSY 0 else c
  c.forAll wwPorts (fun p c =>
    if c.get (F.WW_P_STAT_LANE_RET p) = 15 then c.set (F.WW_P_STAT_LSTATE p) wpRetired
    else if c.is (F.WW_P_CTL_EN p) then c.set (F.WW_P_STAT_LSTATE p) wpTraining
    else c)

/-- A lane that passed its test returns to service (R338). -/
def Chip.laneRestore (p l : Nat) (c : Chip) : Chip :=
  ((c.set (F.WW_P_STAT_LANE_OUT p) (clrBit (c.get (F.WW_P_STAT_LANE_OUT p)) l)).widthShow p).raise EV_WW_LANE_RESTORED (p + 8 * l)

/-- A lane is retired, and with its last lane the port (R338, R351). -/
def Chip.laneRetire (p l : Nat) (c : Chip) : Chip :=
  let c := c.set (F.WW_P_STAT_LANE_OUT p) (clrBit (c.get (F.WW_P_STAT_LANE_OUT p)) l)
  let c := (c.set (F.WW_P_STAT_LANE_RET p) (setBit (c.get (F.WW_P_STAT_LANE_RET p)) l)).widthShow p
  let c := c.raise EV_WW_LANE_RETIRED (p + 8 * l + 32 * c.get (F.WW_P_STAT_WIDTH p))
  if c.get (F.WW_P_STAT_LANE_RET p) = 15 then
    (((c.domClose (domPort p) 2).portLeave p wpRetired).raise EV_WW_PORT_RETIRED p).linkChanged p wpRetired
  else c

/-! ## Packets on the way (R344, R348) -/

/-- The header as a list, as a packet carries it on. -/
def hdrList (h : WwHdr) (hopix rroute : Nat) : List Nat :=
  [h.cls.toNat, b2n h.epoch, h.src.toNat, h.dst.toNat, h.route.toNat, h.hops.toNat, hopix, rroute]

/-- The reverse route with port `p` written into its slot. -/
def hdrRroute (h : WwHdr) (p : Nat) : Nat :=
  let k := 3 * (h.hops.toNat - 1 - h.hopix.toNat)
  (h.rroute.toNat - bits h.rroute.toNat (k + 2) k * 2 ^ k + p * 2 ^ k) % 2 ^ 36

/-- An ERR goes back by the reverse route built so far (R348). -/
def Chip.wwSendErr (p : Nat) (h : WwHdr) (ni idx ep detail : Nat) (c : Chip) : Chip :=
  let n := h.hopix.toNat + 1
  let back := hdrRroute h p / 2 ^ (3 * (h.hops.toNat - n))
  (c.inc F.WW_CNT_ERR_CNT).wwAlong wtErr h.cls.toNat h.src.toNat back n 1 [ni, idx, ep, detail]

/-- A packet arrives on port `p`: it is forwarded or delivered, or it cannot go on (R344, R348). `own` says that its last hop
must be the device named by DST; `bad` is what becomes of it where it cannot go on. -/
def Chip.wwArrive (p kind n : Nat) (h : WwHdr) (fields : List Nat) (own : Bool) (bad : Nat → Chip → Chip)
    (deliver : Nat → Chip → Chip) (c : Chip) : Chip :=
  if c.wpState p ≠ wpUp ∨ h.hops.toNat ≤ h.hopix.toNat then c
  else
    let rr := hdrRroute h p
    let ix := h.hopix.toNat + 1
    if ix < h.hops.toNat then
      let q := hopOf h.route.toNat ix
      if c.wpState q = wpUp then c.wwPort q kind n (hdrList h ix rr) fields else bad 0x31 c
    else if own && h.dst.toNat ≠ c.get F.WW_ID_DEVICE_ID then bad 0x32 c
    else deliver rr c

/-- Discarded and counted (R348). -/
def undeliverable (_detail : Nat) (c : Chip) : Chip := c.inc F.WW_CNT_UNDELIV_CNT

/-- PROBE (Table 13.2, step 2; R339): `path` holds the ports taken from the root, `rev` the ports of arrival before this. -/
def Chip.probe (p serial root : Nat) (path rev : List Nat) (c : Chip) : Chip :=
  if c.wpState p ≠ wpUp then c
  else
    let mine := c.ownUid
    let c :=
      if c.is F.WW_ID_ROOT ∧ root ≠ mine then
        if root < mine then
          ({ c with ww := { c.ww with gaveUp := true } }.set F.WW_ID_ROOT 0).raise EV_WW_ROOT_CONFLICT (2 ^ 12)
        else c.raise EV_WW_ROOT_CONFLICT 0
      else c
    if root = mine ∨ c.ww.seen.contains (root, serial) then c
    else
      let c := { c with ww := { c.ww with seen := (root, serial) :: c.ww.seen } }
      let back := p :: rev
      let info := wwPorts.flatMap (fun q => [c.wpState q, (c.wp q).uid, c.get (F.WW_P_STAT_PARTNER_PORT q)])
      let c := c.wwByPath back wtProbeReply 1 ([serial, mine] ++ info)
      if 12 ≤ path.length then c
      else
        c.forAll (wwPorts.filter (fun q => q ≠ p && c.wpState q = wpUp)) (fun q =>
          Chip.wwPort q wtProbe 1 [] [serial, root, path.length + 1, routeEntry (path ++ [q]) % 2 ^ 36, back.length, routeEntry back % 2 ^ 36])

/-- A probe reply at the root (Table 13.2, step 3). -/
def Chip.probeReply (serial uid : Nat) (path : List Nat) (ports : List (Nat × Nat × Nat)) (c : Chip) : Chip :=
  match c.ww.change with
  | none => c
  | some g =>
    if g.phase ≠ 0 ∨ serial ≠ c.ww.serial ∨ c.ww.topo.any (fun n => n.uid = uid) then c
    else { c with ww := { c.ww with topo := c.ww.topo ++ [{ uid := uid, path := path, ports := ports }] } }

/-- A path write at its destination (R340, R341, R343): the inactive bank may be written only while OLD is 0. -/
def Chip.pathWrite (h : WwHdr) (rr : Nat) (what : WwPathWrite) (c : Chip) : Chip :=
  let c :=
    match what with
    | .ident id ps =>
      let c := (c.set F.WW_ID_DEVICE_ID id.toNat).set F.WW_TB_CTL_MASTER 0
      c.forAll (wwPorts.zip ps) (fun q => Chip.set (F.WW_P_STAT_PARTNER_ID q.1) q.2.toNat)
    | .entry d e =>
      if c.get F.WW_INFLIGHT_OLD = 0 then c.setRoute (1 - c.get F.WW_ID_EPOCH) d.toNat e.toNat else c
  c.wwAlong wtPathReply 3 0xFFF rr h.hops.toNat 1 []

/-! ## Remote requests (R347) -/

/-- The request that a REQ carries, at this device's port `p`. -/
def proxyReq (q : WwRequest) (cls p : Nat) : NReq :=
  { ni := 24 + 8 * p, idx := 0, ep := 0, kind := q.kind.toNat, cls := cls, addr := q.addr.toNat, dev := none, n := q.len.val + 1,
    rbe := q.rbe.toNat, bes := q.bes.map BitVec.toNat, data := q.data.map BitVec.toNat }

/-- Perform the remote requests that wait for a response buffer, oldest first at each port (R347). -/
def Chip.wwPump (c : Chip) : Chip :=
  c.forAll c.ww.queue (fun e c =>
    if (c.ww.queue.find? (fun f => f.1 = e.1)) ≠ some e then c
    else
      let q := e.2.1
      match c.niIssue q.ni q.kind q.cls q.addr none q.n q.rbe q.bes q.data e.2.2 with
      | none => c
      | some c' => { c' with ww := { c'.ww with queue := c'.ww.queue.erase e } })

/-- A REQ at its destination: the NI of the arrival port performs it as initiator (R347). -/
def Chip.proxy (p : Nat) (h : WwHdr) (rr : Nat) (q : WwRequest) (c : Chip) : Chip :=
  let who := Agent.proxy p h.src.toNat q.ni.val q.idx.val q.ep.val rr h.hops.toNat
  { c with ww := { c.ww with queue := c.ww.queue ++ [(p, proxyReq q h.cls.toNat p, who)] } }.wwPump

/-- The fields of a REQ as they travel on. -/
def requestFields (q : WwRequest) : List Nat :=
  [q.ni.val, q.idx.val, q.ep.val, q.kind.toNat, q.addr.toNat, q.len.val + 1, q.rbe.toNat] ++ q.bes.map BitVec.toNat ++ q.data.map BitVec.toNat

/-- The fields of a RSP as they travel on. -/
def responseFields (r : WwResponse) : List Nat :=
  [r.ni.val, r.idx.val, r.ep.val, r.code.toNat, r.detail.toNat, r.word.val] ++ r.data.map BitVec.toNat

/-- The response to a remote request goes back by the reverse route (R347). -/
def Chip.proxyAnswer (p src ni idx ep rr hops cls : Nat) (r : Rsp) (word : Nat) (data : List Nat) (c : Chip) : Chip :=
  if c.wpState (hopOf rr 0) = wpUp ∧ c.wpState p = wpUp then
    c.wwAlong wtRsp cls src rr hops (1 + data.length) ([ni, idx, ep, r.code, r.detail, word] ++ data)
  else c.inc F.WW_CNT_UNDELIV_CNT

/-! ## The time base (R352 to R354), in twelfths of a picosecond: 32,000 to a tick -/

/-- This device's time at a moment within the present tick. -/
def Chip.tbAt (c : Chip) (at' : Nat) : Nat := 32000 * c.get F.WW_TB_TIME + at'

/-- The time base runs: from the end of BOOT (R352). -/
def Chip.tbRuns (c : Chip) : Bool := decide (stFw ≤ c.dstate) && decide (c.dstate ≤ stSafe)

/-- One tick of the 375 MHz time base, which wraps at 64 bits; without effect where it does not run. -/
def Chip.tick (c : Chip) : Chip := if c.tbRuns then c.set F.WW_TB_TIME (c.get F.WW_TB_TIME + 1) else c

/-- Follow a source that is ahead of this device's time by `err` (R354): an error beyond 100 ps unlocks and steps. -/
def Chip.tbFollow (own : Nat) (err : Int) (c : Chip) : Chip :=
  if err.natAbs ≤ 1200 then c.set F.WW_TB_STAT_PHASE_ERR (toBits 16 (Int.tdiv err 3))
  else
    let c := if c.is F.WW_TB_STAT_LOCKED then (c.set F.WW_TB_STAT_LOCKED 0).raise EV_WW_TB_UNLOCK 0 else c
    let c := (c.set F.WW_TB_STAT_STEPPED 1).set F.WW_TB_STAT_PHASE_ERR 0
    c.set F.WW_TB_TIME (((own : Int) + err).toNat / 32000)

/-- TIME_CODE: the partner's time at its sending, and the echo of this device's last code with its holding time (R352). With
`SRC` = 1 only the coarse value is taken. -/
def Chip.timeCode (p time : Nat) (echo : Option (Nat × Nat)) (at' : Nat) (c : Chip) : Chip :=
  if c.wpState p ≠ wpUp then c
  else
    let own := c.tbAt at'
    let c := c.setWp p (fun w => { w with
      heard := some (time, own)
      delay := match echo with
        | some (sent, hold) => (own - sent - hold) / 2
        | none => w.delay })
    if c.upstream ≠ some p then c
    else
      let err : Int := (time : Int) + (c.wp p).delay - own
      if c.is F.WW_TB_CTL_SRC ∧ err.natAbs ≤ 16000 * 2 ^ c.get F.WW_TB_CTL_SYNC_LOG then c else c.tbFollow own err

/-- SYNC_IN_EDGE: the edge marks the nearest multiple of 2^`SYNC_LOG` ticks, delayed by `PIN_OFFSET` (R352). -/
def Chip.syncIn (at' : Nat) (c : Chip) : Chip :=
  if !c.tbRuns || c.is F.WW_TB_CTL_MASTER || !c.is F.WW_TB_CTL_SRC then c
  else
    let own := c.tbAt at'
    let per : Int := 32000 * 2 ^ c.get F.WW_TB_CTL_SYNC_LOG
    let off : Int := 3 * sext 32 (c.get F.WW_TB_CTL_PIN_OFFSET)
    let e := (off - (own : Int)) % per
    c.tbFollow own (if per < 2 * e then e - per else e)

/-- TB_LOCK: the phase error has stayed within 10 ps for 1 ms (R354). -/
def Chip.tbLock (c : Chip) : Chip :=
  let src := c.is F.WW_TB_CTL_MASTER || c.upstream.isSome || c.is F.WW_TB_CTL_SRC
  if !c.tbRuns || c.is F.WW_TB_STAT_LOCKED || !src || decide (40 < (sext 16 (c.get F.WW_TB_STAT_PHASE_ERR)).natAbs) then c
  else (c.set F.WW_TB_STAT_LOCKED 1).raise EV_WW_TB_LOCK (c.get F.WW_TB_STAT_UPSTREAM)

/-- TB_SOURCE_LOST: the source has been missing for 10 µs (R354). -/
def Chip.tbLost (c : Chip) : Chip :=
  if c.is F.WW_TB_CTL_MASTER || !c.is F.WW_TB_STAT_LOCKED then c
  else (c.set F.WW_TB_STAT_LOCKED 0).raise EV_WW_TB_UNLOCK 1

/-- TIME_CODE_SEND: a time code on every UP port (R352). -/
def Chip.timeCodes (c : Chip) : Chip :=
  c.forAll (wwPorts.filter (fun p => c.wpState p = wpUp)) (fun p c =>
    c.emit (.timeCode p (c.tbAt 0) ((c.wp p).heard.map (fun h => (h.1, c.tbAt 0 - h.2)))))

/-- SYNC_OUT_PULSE: at a multiple of 2^`SYNC_LOG` of the time base, SYNC_OUT is high for 16 ticks (R352). -/
def Chip.syncOut (c : Chip) : Chip :=
  let t := c.get F.WW_TB_TIME
  if c.tbRuns && t % 2 ^ c.get F.WW_TB_CTL_SYNC_LOG = 0 then c.emit (.syncOut t) else c

/-! ## Cross-device gangs (R355, R356) -/

/-- The leader of this device's cross-device gang, if it is armed or runs. -/
def Chip.xgLeader (c : Chip) : Option Nat := engines.find? (fun k => c.gangLeader k = k && c.xsys k && c.peActive k)

/-- HOLD_ANN at its destination: applied, or too late (R355, R356). -/
def Chip.holdAnn (src tick : Nat) (hold : Bool) (c : Chip) : Chip :=
  match c.xgLeader with
  | none => c
  | some l =>
    if ceilTo (c.syncPeriod l) tick < c.get F.WW_TB_TIME then
      ((c.gangFault (c.gang l)).raise EV_WW_XG_LATE src).xgSendFault
    else { c with xg := { c.xg with anns := c.xg.anns ++ [(src, tick, hold)] } }

/-- XG_FAULT at its destination (R356). -/
def Chip.xgFault (c : Chip) : Chip :=
  match c.xgLeader with
  | none => c
  | some l => c.gangFault (c.gang l)

/-! ## Register writes (R343, R357) -/

/-- WW_ROUTE_ENTRY_WRITE (R343). -/
def Chip.routeWrite (b d v : Nat) (c : Chip) : Rsp × Chip :=
  if b = c.get F.WW_ID_EPOCH ∨ c.get F.WW_INFLIGHT_OLD ≠ 0 then (rspState, c) else (rspOk, c.setRoute b d v)

/-- A write of `WW_TB_CTL`: `SYNC_LOG` from 8 to 24 (Table 13.7). -/
def Chip.tbCtlWrite (v : Nat) (c : Chip) : Rsp × Chip :=
  if bits v 12 8 < 8 ∨ 24 < bits v 12 8 then (rspRange, c)
  else (rspOk, ((c.set F.WW_TB_CTL_SRC (bit v 0)).set F.WW_TB_CTL_MASTER (bit v 1)).set F.WW_TB_CTL_SYNC_LOG (bits v 12 8) |>.set
    F.WW_TB_CTL_PIN_OFFSET (bits v 47 16))

/-- Whether the cross-device gang registers are locked: the gang's leader is ARMED, RUNNING or PAUSED (R357). -/
def Chip.xgLocked (c : Chip) : Bool := c.xgLeader.isSome

/-- A write of `WW_P_CTL`. -/
def Chip.wpCtlWrite (p v : Nat) (c : Chip) : Chip :=
  let c := c.portEnable p (v.testBit 0)
  if v.testBit 1 then c.portRetrain p else c

/-- WW_CNT_CLR and WW_P_CNT_CLR (R34). -/
def Chip.wwCntClr (v : Nat) (c : Chip) : Chip := if v.testBit 0 then c.clear [F.WW_CNT_UNDELIV_CNT, F.WW_CNT_ERR_CNT] else c
def Chip.wpCntClr (p v : Nat) (c : Chip) : Chip := if v.testBit 0 then c.clear [F.WW_P_CNT_CRC_ERR p, F.WW_P_CNT_REPLAYS p] else c

/-! ## Commands (R358) -/

def dtDiscBusy : Nat := 0x40
def dtOldInflight : Nat := 0x41
def dtPortRetired : Nat := 0x42
def dtNoPartner : Nat := 0x43

/-- A register's 8 bytes. -/
def Chip.regBytes (c : Chip) (fs : List Fld) : List Byte := natLe 8 (c.wordOf fs)

def wwIdFlds : List Fld := [F.WW_ID_DEVICE_ID, F.WW_ID_ROOT, F.WW_ID_EPOCH, F.WW_ID_DISC_BUSY, F.WW_ID_DEVICES]
def wpStatFlds (p : Nat) : List Fld := [F.WW_P_STAT_LSTATE p, F.WW_P_STAT_WIDTH p, F.WW_P_STAT_LANE_OUT p, F.WW_P_STAT_LANE_RET p,
  F.WW_P_STAT_BRIDGE p, F.WW_P_STAT_PARTNER_PORT p, F.WW_P_STAT_PARTNER_ID p]

def cmdWwStatus : Cmd := Cmd.plain 0x07 0x00 live (fun _ => lenIs 0) (fun id _ c =>
  c.ok id (c.regBytes wwIdFlds ++
    c.regBytes [F.WW_CTL_AUTO_REROUTE, F.WW_CTL_AUTO_REDISC, F.WW_CTL_ERR_THRESH, F.WW_CTL_DISC_WAIT] ++
    c.regBytes [F.WW_INFLIGHT_CUR, F.WW_INFLIGHT_OLD] ++
    c.regBytes [F.WW_TB_STAT_LOCKED, F.WW_TB_STAT_STEPPED, F.WW_TB_STAT_PHASE_ERR, F.WW_TB_STAT_UPSTREAM] ++
    wwPorts.flatMap (fun p => c.regBytes (wpStatFlds p))))

/-- A root-only command is refused elsewhere with NOT_ROOT (R358), before its acceptance, since no accepted command ends with that
DETAIL (R49). -/
def rootOnly (c : Chip) (_pl : List Byte) : Option (Nat × Nat) :=
  if c.is F.WW_ID_ROOT then none else some (ST_BAD_STATE, dtNotRoot)

def cmdWwDiscover : Cmd := { Cmd.plain 0x07 0x01 live (fun _ => lenIs 0) (fun id _ c =>
  if c.ww.change.isSome then c.fail id ST_BAD_STATE dtDiscBusy
  else (c.interim id ST_ACCEPTED dtNone []).discStart (some id)) with when := rootOnly }

/-- 24 bytes of the topology list for an ID (Table 13.8). -/
def Chip.topoBytes (c : Chip) (d : Nat) : List Byte :=
  match c.ww.ids.find? (fun e => e.2 = d) with
  | none => natLe 16 0 ++ natLe 2 d ++ natLe 6 0
  | some e =>
    let r := (routesFrom c.topoNow c.ownUid).find? (fun r => r.1 = e.1)
    natLe 16 e.1 ++ natLe 2 d ++ natLe 1 ((r.map (fun r => r.2.length)).getD 0) ++ natLe 1 (b2n r.isSome) ++ natLe 4 0

def cmdWwTopoRead : Cmd := { Cmd.plain 0x07 0x02 live
  (lenParam 4 (fun pl => decide (1 ≤ pf pl 2 2) && decide (pf pl 2 2 ≤ 170) && decide (pf pl 0 2 + pf pl 2 2 ≤ 4095)))
  (fun id pl c =>
    c.ok id ((List.range (pf pl 2 2)).flatMap (fun i => c.topoBytes (pf pl 0 2 + i)))) with when := rootOnly }

def cmdWwRoute : Cmd := { Cmd.plain 0x07 0x03 live (lenParam 4 (fun pl => decide (pf pl 0 4 ≤ 1))) (fun id pl c =>
  if c.ww.change.isSome then c.fail id ST_BAD_STATE dtDiscBusy
  else
    let c := if c.get F.WW_INFLIGHT_OLD = 0 then c.interim id ST_ACCEPTED dtNone [] else c.interim id ST_DEFERRED dtOldInflight []
    c.routeStart (some id) (pb pl 0 = 0)) with when := rootOnly }

def cmdWwPort : Cmd := Cmd.plain 0x07 0x04 live (lenParam 2 (fun pl => decide (pb pl 0 < 8) && decide (pb pl 1 < 3))) (fun id pl c =>
  let p := pb pl 0
  if c.wpState p = wpRetired then c.fail id ST_RETIRED dtNone
  else if pb pl 1 = 2 then (c.portRetrain p).ok id []
  else (c.portEnable p (pb pl 1 = 1)).ok id [])

def cmdWwLaneTest : Cmd := Cmd.plain 0x07 0x05 live (lenParam 2 (fun pl => decide (pb pl 0 < 8) && decide (pb pl 1 < 4))) (fun id pl c =>
  let p := pb pl 0
  let l := pb pl 1
  if (c.get (F.WW_P_STAT_LANE_RET p)).testBit l then c.fail id ST_RETIRED dtNone
  else if c.wpState p ≠ wpUp then c.fail id ST_BAD_STATE dtNoPartner
  else if c.dstate = stSafe then c.fail id ST_BAD_STATE dtNone
  else if c.tqFull 9 (p + 8 * l) then
    c.fail id ST_BUSY dtQueueFull
  else (c.interim id ST_ACCEPTED dtNone []).laneOut p l [id])

/-! ## Meanings -/

/-- The ports that a probe's reply describes, as numbers (R340). -/
def probePorts (ports : List (Fin 4 × BitVec 128 × Fin 8)) : List (Nat × Nat × Nat) :=
  ports.map (fun q => (q.1.val, q.2.1.toNat, q.2.2.val))

/-- The fields of a path write, in order. -/
def pathWriteFields (what : WwPathWrite) : List Nat :=
  match what with
  | .ident id ps => [0, id.toNat] ++ ps.map BitVec.toNat
  | .entry d e => [1, d.toNat, e.toNat]

def execWwFrameReceive (port : Fin 8) (frame : BitVec 200) (laneBad : BitVec 4) (s : State) :=
  runChip (Chip.wpFrame port frame.toNat laneBad.toNat) s
def execWwReplayTimeout (port : Fin 8) (s : State) := runChip (Chip.wpReplay port) s
def execWwErrWindow (port : Fin 8) (s : State) := runChip (Chip.wpWindow port) s
def execPortTrained (port : Fin 8) (bridge : Bool) (uid : BitVec 128) (partner : Fin 8) (s : State) :=
  runChip (Chip.portUp port bridge uid.toNat partner) s
def execLinkDown (port : Fin 8) (s : State) := runChip (Chip.portDown port) s
def execWwProbe (port : Fin 8) (serial : Nat) (root : BitVec 128) (path rev : List (Fin 8)) (s : State) :=
  runChip (Chip.probe port serial root.toNat (path.map Fin.val) (rev.map Fin.val)) s
def execWwProbeReply (port : Fin 8) (h : WwHdr) (serial : Nat) (uid : BitVec 128) (ports : List (Fin 4 × BitVec 128 × Fin 8)) (s : State) :=
  runChip (Chip.wwArrive port wtProbeReply 1 h ([serial, uid.toNat] ++ (probePorts ports).flatMap (fun q => [q.1, q.2.1, q.2.2])) false undeliverable
    (fun rr => Chip.probeReply serial uid.toNat (routePorts rr h.hops.toNat) (probePorts ports))) s
def execDiscWaitExpiry (s : State) := runChip Chip.discExpire s
def execWwPathWrite (port : Fin 8) (h : WwHdr) (what : WwPathWrite) (s : State) :=
  runChip (Chip.wwArrive port wtPathWrite 1 h (pathWriteFields what) false undeliverable (fun rr => Chip.pathWrite h rr what)) s
def execWwPathReply (port : Fin 8) (h : WwHdr) (s : State) :=
  runChip (Chip.wwArrive port wtPathReply 1 h [] false undeliverable (fun _ => Chip.pathAck)) s
def execEpochSwitch (port : Fin 8) (h : WwHdr) (s : State) :=
  runChip (Chip.wwArrive port wtPathWrite 1 h [2] false undeliverable
    (fun rr c => c.epochSwitch.wwAlong wtPathReply 3 0xFFF rr h.hops.toNat 1 [])) s
def execRouteOldDrained (s : State) := runChip Chip.oldDrained s
def execWwReq (port : Fin 8) (h : WwHdr) (q : WwRequest) (s : State) :=
  runChip (Chip.wwArrive port wtReq (1 + q.data.length) h (requestFields q) true (fun dt => Chip.wwSendErr port h q.ni q.idx q.ep dt)
    (fun rr => Chip.proxy port h rr q)) s
def execWwRsp (port : Fin 8) (h : WwHdr) (r : WwResponse) (s : State) :=
  runChip (Chip.wwArrive port wtRsp (1 + r.data.length) h (responseFields r) true undeliverable
    (fun _ => Chip.respond r.ni r.idx r.ep ⟨r.code.toNat, r.detail.toNat⟩ r.word (r.data.map BitVec.toNat) 24)) s
def execWwErr (port : Fin 8) (h : WwHdr) (ni : Fin 288) (idx : Fin 512) (ep : Fin 4) (detail : Byte) (s : State) :=
  runChip (Chip.wwArrive port wtErr 1 h [ni, idx, ep, detail.toNat] true undeliverable
    (fun _ => Chip.respond ni idx ep ⟨1, detail.toNat⟩ 0 [] 24)) s
def execLinkChange (port : Fin 8) (h : WwHdr) (changed : Fin 8) (state : Fin 4) (s : State) :=
  runChip (Chip.wwArrive port wtLinkChange 1 h [changed, state] true undeliverable (fun _ c =>
    if c.is F.WW_ID_ROOT then
      match c.ww.ids.find? (fun e => e.2 = h.src.toNat) with
      | some e => c.rootReact e.1 changed state
      | none => c
    else c)) s
def execHoldAnn (port : Fin 8) (h : WwHdr) (tick : Word) (hold : Bool) (why : Byte) (s : State) :=
  runChip (Chip.wwArrive port wtHoldAnn 1 h [tick.toNat, b2n hold, why.toNat] true undeliverable
    (fun _ => Chip.holdAnn h.src.toNat tick.toNat hold)) s
def execXgFault (port : Fin 8) (h : WwHdr) (dev : BitVec 12) (s : State) :=
  runChip (Chip.wwArrive port wtXgFault 1 h [dev.toNat] true undeliverable (fun _ => Chip.xgFault)) s
def execTimeCode (port : Fin 8) (time : Nat) (echo : Option (Nat × Nat)) (at' : Fin 32000) (s : State) :=
  runChip (Chip.timeCode port time echo at') s
def execTimeCodeSend (s : State) := runChip Chip.timeCodes s
def execSyncInEdge (at' : Fin 32000) (s : State) := runChip (Chip.syncIn at') s
def execTbLock (s : State) := runChip Chip.tbLock s
def execTbSourceLost (s : State) := runChip Chip.tbLost s
def execSyncOutPulse (s : State) := runChip Chip.syncOut s
def execWwCntClr (data : Word) (s : State) := runChip (fun c => (c.wwCntClr data.toNat).answer rspOk 0) s
def execWwPRetrain (port : Fin 8) (s : State) := runChip (fun c => (c.portRetrain port).answer rspOk 0) s
def execWwPCntClr (port : Fin 8) (data : Word) (s : State) := runChip (fun c => (c.wpCntClr port data.toNat).answer rspOk 0) s
def execWwRouteEntryWrite (bank : Fin 2) (d : BitVec 12) (data : Word) (s : State) :=
  runChip (fun c => answerWrite (c.routeWrite bank d.toNat data.toNat)) s
def execChWwStatus (p : Pkt) (s : State) := runAon (Chip.command cmdWwStatus p) s
def execChWwDiscover (p : Pkt) (s : State) := runAon (Chip.command cmdWwDiscover p) s
def execChWwTopoRead (p : Pkt) (s : State) := runAon (Chip.command cmdWwTopoRead p) s
def execChWwRoute (p : Pkt) (s : State) := runAon (Chip.command cmdWwRoute p) s
def execChWwPort (p : Pkt) (s : State) := runAon (Chip.command cmdWwPort p) s
def execChWwLaneTest (p : Pkt) (s : State) := runAon (Chip.command cmdWwLaneTest p) s

end Sys2Proof.Machine
end

