-- ==== Sys2Proof/Machine/Dma.lean ====
section
/-! DEFINITION. DMA engines and channels (chapter 12): transfers, descriptors and chains, the shadow set, fences, CRC,
peripheral flow control, pause, abort and reset, errors, and the DMA commands. -/

namespace Sys2Proof.Machine

/-! ## Channels (Table 12.1) -/

def dmIdle : Nat := 0
def dmQueued : Nat := 1
def dmActive : Nat := 2
def dmWaitDreq : Nat := 3
def dmPausing : Nat := 4
def dmPaused : Nat := 5
def dmDone : Nat := 6
def dmError : Nat := 7
def dmAborting : Nat := 8

/-- A channel at reset. -/
def DmaCh.init : DmaCh :=
  { phase := 0, gen := 0, src0 := 0, dst0 := 0, len0 := 0, rd := 0, chunks := [], burst := 0, moved := 0, out := false,
    allw := false, failed := false, stop := 0, cut := none, dfr := false, result := 0, retry := [], startW := [], pauseW := [],
    abortW := [], statW := [], statR := 0 }

def Chip.dm (c : Chip) (ch : Nat) : DmaCh := tget DmaCh.init ch c.dma.chs
def Chip.setDm (ch : Nat) (f : DmaCh → DmaCh) (c : Chip) : Chip :=
  { c with dma := { c.dma with chs := tset ch (f (c.dm ch)) c.dma.chs } }
def Chip.dmState (c : Chip) (ch : Nat) : Nat := c.get (F.DMA_CH_STAT_STATE ch)
def Chip.dmCtl (c : Chip) (ch : Nat) (i : Nat) : Bool := (c.get (F.DMA_CTL_W ch)).testBit i
def Chip.chainIdle (c : Chip) (ch : Nat) : Bool := c.is (F.DMA_CH_STAT_CHAIN_IDLE ch)
def Chip.fromDesc (c : Chip) (ch : Nat) : Bool := c.is (F.DMA_CH_STAT_FROM_DESC ch)

/-- SRC, DST, CTL, NEXT and LEN form a valid set (R318, Table 12.2). -/
def dmaValid (rt : Bool) (src dst ctl next len : Nat) : Bool :=
  src % 16 = 0 && decide (src < 2 ^ 62) && dst % 16 = 0 && decide (dst < 2 ^ 62) && decide (ctl < 32) && next % 64 = 0 &&
    decide (next < 2 ^ 48) && len % 16 = 0 && decide (len < 2 ^ 32) && (!rt || ctl.testBit 4) && (ctl.testBit 0 || next ≠ 0)

def sideAddr (w : Nat) : Nat := bits w 47 0
def sideDev (w : Nat) : Option Nat := if w.testBit 60 then some (bits w 59 48) else none
def sideFixed (w : Nat) : Bool := w.testBit 61

/-- A side that is accessed one word per request: `FIXED`, or control space, whose requests have one word (R297, R319). -/
def sideSingle (w : Nat) : Bool :=
  sideFixed w ||
    (match placeOf (sideAddr w) with
     | .ctl _ => true
     | _ => false)

/-- The address of a side at a byte offset. -/
def sideAt (w off : Nat) : Nat := if sideFixed w then sideAddr w else sideAddr w + off

/-- A side's register after `n` bytes. -/
def sideNext (w n : Nat) : Nat := if sideFixed w then w else w - sideAddr w + (sideAddr w + n) % 2 ^ 48

/-- The words of the next piece at an offset: no crossing of an aligned 256-byte block on either side (R319). -/
def pieceLen (src dst off left : Nat) : Nat :=
  let side := fun (w : Nat) => if sideSingle w then 1 else 16 - sideAt w off % 256 / 16
  min left (min (side src) (side dst))

/-! ## Queueing and engines (R317) -/

/-- The channel's request (R328). -/
def Chip.dmaReq (c : Chip) (ch : Nat) : Bool :=
  (c.get (F.DMA_DREQ_REQ (ch / 64))).testBit (ch % 64) || (List.range 32).any (fun g => c.tsDreq g = some ch)

/-- Save the context and free the engine. -/
def Chip.dmaUnload (ch : Nat) (c : Chip) : Chip :=
  if c.is (F.DMA_CH_STAT_LOADED ch) then
    Chip.set (F.DMA_CH_STAT_LOADED ch) 0 { c with dma := { c.dma with engines := tdel (c.get (F.DMA_CH_STAT_ENGINE ch)) c.dma.engines } }
  else c

/-- Take a channel out of the queue. -/
def Chip.dmaUnqueue (ch : Nat) (c : Chip) : Chip :=
  { c with dma := { c.dma with queued := c.dma.queued.filter (fun x => x ≠ ch) } }

/-- Wait for an engine in a state: QUEUED, or ABORTING for the status write of an abort. -/
def Chip.dmaWait (ch st : Nat) (c : Chip) : Chip :=
  let c := (c.dmaUnload ch).dmaUnqueue ch
  Chip.set (F.DMA_CH_STAT_STATE ch) st { c with dma := { c.dma with queued := c.dma.queued ++ [ch] } }

/-- End the commands that wait for a channel. -/
def Chip.dmaReply (ch : Nat) (pick : DmaCh → List Nat) (status detail : Nat) (c : Chip) : Chip :=
  c.forAll (pick (c.dm ch)) (fun id => Chip.fail id status detail)

/-- The channel is PAUSED with exact registers; if `PAUSE` has been cleared meanwhile it is QUEUED at once (R329). -/
def Chip.dmaPausedNow (ch : Nat) (c : Chip) : Chip :=
  let c := (((c.dmaUnload ch).dmaUnqueue ch).set (F.DMA_CH_STAT_STATE ch) dmPaused).raise EV_DMA_PAUSED ch
  let c := (c.dmaReply ch DmaCh.pauseW ST_OK dtNone).dmaReply ch DmaCh.startW ST_OK dtNone
  let c := c.setDm ch (fun d => { d with pauseW := [], startW := [], stop := 0, cut := none, chunks := [] })
  if c.is (F.DMA_CH_CMD_PAUSE ch) then c else c.dmaWait ch dmQueued

/-- The channel becomes QUEUED; with `PAUSE` set it pauses at once (R329). -/
def Chip.dmaQueue (ch : Nat) (c : Chip) : Chip :=
  if c.is (F.DMA_CH_CMD_PAUSE ch) then c.dmaPausedNow ch else c.dmaWait ch dmQueued

/-- The channel enters IDLE after an abort (R330). -/
def Chip.dmaIdleNow (ch : Nat) (c : Chip) : Chip :=
  let c := (((c.dmaUnload ch).dmaUnqueue ch).set (F.DMA_CH_STAT_STATE ch) dmIdle).set (F.DMA_CH_CMD_ARM ch) 0
  let c := c.set (F.DMA_CH_STAT_CHAIN_IDLE ch) 0
  let c := (c.dmaReply ch DmaCh.startW ST_ABORTED dtNone).dmaReply ch DmaCh.pauseW ST_OK dtNone
  let c := c.dmaReply ch DmaCh.abortW ST_OK dtNone
  c.setDm ch (fun d => { d with
    phase := 0, gen := d.gen + 1, chunks := [], out := false, failed := false, stop := 0, cut := none, dfr := false
    startW := [], pauseW := [], abortW := [] })

/-- The channel enters DONE (R322, R325). -/
def Chip.dmaDoneNow (ch : Nat) (chain : Bool) (c : Chip) : Chip :=
  if c.dmState ch = dmAborting then c.dmaIdleNow ch
  else
    let c := ((c.dmaUnload ch).set (F.DMA_CH_STAT_STATE ch) dmDone).set (F.DMA_CH_STAT_CHAIN_IDLE ch) (b2n chain)
    let c := (c.dmaReply ch DmaCh.startW ST_OK dtNone).dmaReply ch DmaCh.pauseW ST_OK dtNone
    c.setDm ch (fun d => { d with startW := [], pauseW := [], phase := 0 })

/-- The channel enters ERROR (R331). -/
def Chip.dmaErrorNow (ch : Nat) (c : Chip) : Chip :=
  if c.dmState ch = dmAborting then c.dmaIdleNow ch
  else
    let r : Rsp := ⟨c.get (F.DMA_CH_STAT_ERR_RESP ch), c.get (F.DMA_CH_STAT_ERR_DETAIL ch)⟩
    let c := (c.dmaUnload ch).set (F.DMA_CH_STAT_STATE ch) dmError
    let c := c.raise EV_DMA_ERROR (ch + c.get (F.DMA_CH_STAT_ERR_SIDE ch) * 2 ^ 12 + r.code * 2 ^ 15 + r.detail * 2 ^ 18)
    let c := (c.dmaReply ch DmaCh.startW r.status.1 r.status.2).dmaReply ch DmaCh.pauseW r.status.1 r.status.2
    c.setDm ch (fun d => { d with startW := [], pauseW := [], phase := 0, chunks := [], failed := false, gen := d.gen + 1 })

/-- Begin or resume moving data from the registers as they stand. -/
def Chip.dmaBegin (ch : Nat) (c : Chip) : Chip :=
  c.setDm ch (fun d => { d with
    phase := 0, src0 := c.get (F.DMA_SRC_W ch), dst0 := c.get (F.DMA_DST_W ch), len0 := c.get (F.DMA_LEN_LEN ch), rd := 0
    chunks := [], burst := 0, cut := none, stop := 0, failed := false })

/-- Promote the shadow (R325). -/
def Chip.dmaPromote (ch : Nat) (c : Chip) : Chip :=
  let c := (c.set (F.DMA_SRC_W ch) (c.get (F.SH_SRC_W ch))).set (F.DMA_DST_W ch) (c.get (F.SH_DST_W ch))
  let c := (c.set (F.DMA_CTL_W ch) (c.get (F.SH_CTL_W ch))).set (F.DMA_NEXT_W ch) (c.get (F.SH_NEXT_W ch))
  let c := (c.set (F.DMA_LEN_LEN ch) (c.get (F.SH_LEN_LEN ch))).set (F.DMA_CRC_CRC ch) 0
  let c := ((c.set (F.DMA_CH_STAT_FROM_DESC ch) 0).set (F.DMA_CH_CMD_ARM ch) 0).set (F.DMA_CH_STAT_CHAIN_IDLE ch) 0
  (c.setDm ch (fun d => { d with phase := 0, gen := d.gen + 1, dfr := false })).dmaQueue ch

/-! ## Progress -/

/-- Count bytes as moved: the registers name the first byte not moved, and the CRC covers what has been (R327, R331). -/
def Chip.dmaMoved (ch : Nat) (ps : List DmaChunk) (c : Chip) : Chip :=
  let n := (ps.map (fun p => 16 * p.n)).sum
  let bytes := ps.flatMap (fun p => p.data.flatMap (fun w => natLe 16 w))
  let c := (c.set (F.DMA_SRC_W ch) (sideNext (c.get (F.DMA_SRC_W ch)) n)).set (F.DMA_DST_W ch) (sideNext (c.get (F.DMA_DST_W ch)) n)
  let c := c.set (F.DMA_LEN_LEN ch) (c.get (F.DMA_LEN_LEN ch) - n)
  let c := if c.dmCtl ch 2 then c.set (F.DMA_CRC_CRC ch) (crc32cFrom (c.get (F.DMA_CRC_CRC ch)) bytes) else c
  c.setDm ch (fun d => { d with moved := d.moved + n })

/-- The pieces written with RSP_OK from the start on are moved. -/
def Chip.dmaAdvance (ch : Nat) (c : Chip) : Chip :=
  let d := c.dm ch
  let ps := d.chunks.takeWhile (fun p => p.st = 3)
  if ps = [] then c
  else (c.dmaMoved ch ps).setDm ch (fun d => { d with chunks := d.chunks.drop ps.length })

/-- Record the first failure of a transfer (R331). -/
def Chip.dmaFail (ch side : Nat) (r : Rsp) (addr : Nat) (c : Chip) : Chip :=
  if (c.dm ch).failed then c
  else
    let c := (c.set (F.DMA_CH_STAT_ERR_SIDE ch) side).set (F.DMA_CH_STAT_ERR_RESP ch) r.code
    let c := (c.set (F.DMA_CH_STAT_ERR_DETAIL ch) r.detail).set (F.DMA_ERR_ADDR_ADDR ch) addr
    c.setDm ch (fun d => { d with failed := true })

/-- The write of the first piece that waits to be written, if its turn has come. -/
def DmaCh.nextWrite (d : DmaCh) : Option DmaChunk :=
  match d.chunks.dropWhile (fun p => decide (2 ≤ p.st ∧ p.st ≤ 3)) with
  | [] => none
  | p :: _ => if p.st = 1 ∧ (d.cut.map (fun k => decide (p.pos < k))).getD true then some p else none

/-- No request of the present transfer is outstanding. -/
def DmaCh.quiet (d : DmaCh) : Bool := d.chunks.all (fun p => p.st ≠ 0 && p.st ≠ 2) && !d.out

/-- The end of a failed transfer: status with RESULT ERROR where there is a descriptor, then ERROR (R331, R322). -/
def Chip.dmaErrFinish (ch : Nat) (c : Chip) : Chip :=
  let side := c.get (F.DMA_CH_STAT_ERR_SIDE ch)
  if c.fromDesc ch && side ≠ 3 && side ≠ 4 && c.dmState ch ≠ dmAborting then
    c.setDm ch (fun d => { d with phase := 4, result := 2, chunks := [], out := false })
  else c.dmaErrorNow ch

/-- A drained abort: a descriptor gets RESULT ABORTED, then IDLE (R330). -/
def Chip.dmaAbortFinish (ch : Nat) (c : Chip) : Chip :=
  if c.fromDesc ch then c.setDm ch (fun d => { d with phase := 4, result := 3, chunks := [], out := false }) else c.dmaIdleNow ch

/-- The fence begins: which one, and whether it passes at once (R326). -/
def Chip.dmaFence (ch : Nat) (c : Chip) : Chip :=
  let d := c.dm ch
  let ctl := match placeOf (sideAddr d.dst0) with
    | .ctl _ => true
    | _ => false
  let all := c.dmCtl ch 3 || c.dstate = stBoot || c.dstate = stTest || c.dstate = stRecovery || sideFixed d.dst0 || ctl
  c.setDm ch (fun d => { d with phase := if d.len0 = 0 ∨ (all ∧ d.chunks = []) then 3 else 2, allw := all, out := false })

/-- What a loaded channel does once its circumstances have changed. -/
def Chip.dmaStep (ch : Nat) (c : Chip) : Chip :=
  let d := c.dm ch
  let st := c.dmState ch
  let aborting := st = dmAborting
  if !c.is (F.DMA_CH_STAT_LOADED ch) then c
  else if d.phase = 0 ∨ d.phase = 2 then
    if d.failed then (if d.quiet then c.dmaErrFinish ch else c)
    else if aborting ∨ (d.phase = 0 ∧ d.rd < d.len0 ∧ (st = dmPausing ∨ d.stop ≠ 0)) ∨ d.cut.isSome then
      if d.quiet && d.nextWrite.isNone then
        if aborting then c.dmaAbortFinish ch
        else if st = dmPausing then c.dmaPausedNow ch
        else if d.stop = 2 then
          let c := (c.dmaUnload ch).set (F.DMA_CH_STAT_STATE ch) dmWaitDreq
          if c.dmaReq ch then c.dmaQueue ch else c
        else c.dmaQueue ch
      else c
    else if d.phase = 0 then
      if d.rd = d.len0 && d.chunks.all (fun p => decide (2 ≤ p.st)) then c.dmaFence ch else c
    else if d.allw && d.chunks = [] then c.setDm ch (fun d => { d with phase := 3 })
    else c
  else if d.out then c
  else if d.failed then c.dmaErrFinish ch
  else if d.phase = 3 then (if aborting then c.dmaAbortFinish ch else c)
  else if d.phase = 4 then c
  else if aborting then c.dmaIdleNow ch
  else if st = dmPausing then c.dmaPausedNow ch
  else if d.phase = 6 then c.dmaPromote ch
  else c

/-- A channel that has moved `SLICE` KiB yields to a QUEUED channel of equal or higher priority (R317). -/
def Chip.dmaYield (ch : Nat) (c : Chip) : Chip :=
  let s := c.get F.DMA_GCTL_SLICE
  let p := c.get (F.DMA_CH_CFG_PRIO ch)
  if s ≠ 0 ∧ 1024 * s ≤ (c.dm ch).moved ∧ (c.dm ch).stop = 0 ∧ c.dmState ch = dmActive ∧
      c.dma.queued.any (fun q => c.dmState q = dmQueued && decide (p ≤ c.get (F.DMA_CH_CFG_PRIO q))) then
    c.setDm ch (fun d => { d with stop := 1 })
  else c

/-- DMA_ENGINE_LOAD: a free engine takes the QUEUED channel of the highest priority, round-robin by number (R317). -/
def Chip.dmaLoad (e : Nat) (c : Chip) : Chip :=
  if (tfind e c.dma.engines).isSome then c
  else
    let prio := fun (ch : Nat) => c.get (F.DMA_CH_CFG_PRIO ch)
    let top := c.dma.queued.foldl (fun m ch => max m (prio ch)) 0
    let last := tget 4095 top c.dma.rr
    let best := (c.dma.queued.filter (fun ch => prio ch = top)).foldl (fun (b : Option Nat) ch =>
      match b with
      | none => some ch
      | some x => if (ch + 4095 - last) % 4096 < (x + 4095 - last) % 4096 then some ch else some x) none
    match best with
    | none => c
    | some ch =>
      let c := c.dmaUnqueue ch
      let c := { c with dma := { c.dma with engines := tset e ch c.dma.engines, rr := tset top ch c.dma.rr } }
      let c := (c.set (F.DMA_CH_STAT_ENGINE ch) e).set (F.DMA_CH_STAT_LOADED ch) 1
      let c := if c.dmState ch = dmAborting then c else c.set (F.DMA_CH_STAT_STATE ch) dmActive
      let c := c.setDm ch (fun d => { d with moved := 0, stop := 0, cut := none, out := false })
      let c := if (c.dm ch).phase = 0 then c.dmaBegin ch else c
      let d := c.dm ch
      if d.phase = 0 && c.dmCtl ch 4 && decide (0 < d.len0) && !c.dmaReq ch && c.dmState ch = dmActive then
        (c.dmaUnload ch).set (F.DMA_CH_STAT_STATE ch) dmWaitDreq
      else c.dmaStep ch

/-! ## Requests (R319, R322, R326) -/

/-- Hand a request of a channel to its engine's NI; without a free buffer the engine waits (R295). -/
def Chip.dmaIssue (e ch use pos kind w off n : Nat) (data : List Nat) (then' : DmaCh → DmaCh) (c : Chip) : Chip :=
  let cls := if c.is (F.DMA_CH_CFG_RT ch) then 0 else 2
  match c.niIssue (24 + e) kind cls (sideAt w off) (sideDev w) n (if kind = 0 then 0xFFFF else 0)
      (if kind = 0 then [] else List.replicate n 0xFFFF) data (.dma ch (use + 8 * (c.dm ch).gen) pos) with
  | none => c
  | some c => c.setDm ch then'

/-- The status word (Table 12.3). -/
def Chip.dmaStatusWord (c : Chip) (ch : Nat) : Nat :=
  let d := c.dm ch
  let err := if d.result = 2 then c.get (F.DMA_CH_STAT_ERR_SIDE ch) * 2 ^ 35 + c.get (F.DMA_CH_STAT_ERR_RESP ch) * 2 ^ 38 +
    c.get (F.DMA_CH_STAT_ERR_DETAIL ch) * 2 ^ 48 else 0
  (if c.dmCtl ch 2 then c.get (F.DMA_CRC_CRC ch) else 0) + d.result * 2 ^ 32 + b2n d.dfr * 2 ^ 34 + err +
    c.get (F.DMA_LEN_LEN ch) * 2 ^ 64

/-- The next data read of a channel, sampling its request before each burst (R319, R328). -/
def Chip.dmaRead (e ch : Nat) (c : Chip) : Chip :=
  let d := c.dm ch
  let per := c.dmCtl ch 4
  if d.failed || d.stop ≠ 0 || c.dmState ch ≠ dmActive || decide (d.len0 ≤ d.rd) ||
      decide (64 ≤ (d.chunks.filter (fun p => p.st = 0)).length) then c
  else if per && d.burst = 0 && d.chunks.any (fun p => p.st = 0) then c
  else if per && d.burst = 0 && !c.dmaReq ch then (c.setDm ch (fun d => { d with stop := 2 })).dmaStep ch
  else
    let left := (d.len0 - d.rd) / 16
    let b := c.get (F.DMA_CH_CFG_BURST ch)
    let burst := if d.burst = 0 then (if b = 0 then 16 else b) else d.burst
    let n := pieceLen d.src0 d.dst0 d.rd (if per then min left burst else left)
    c.dmaIssue e ch 1 d.rd 0 d.src0 d.rd n [] (fun d => { d with
      rd := d.rd + 16 * n, burst := burst - n, chunks := d.chunks ++ [{ pos := d.rd, n := n, data := [], st := 0 }] })

/-- The next data write of a channel (R319). -/
def Chip.dmaWrite (e ch : Nat) (c : Chip) : Chip :=
  let d := c.dm ch
  match d.nextWrite with
  | none => c
  | some p =>
    if d.failed || decide (64 ≤ (d.chunks.filter (fun p => p.st = 2)).length) then c
    else
      (c.dmaIssue e ch 2 p.pos 1 d.dst0 p.pos p.n p.data (fun d => { d with
        chunks := d.chunks.map (fun q => if q.pos = p.pos then { q with st := 2 } else q) })).dmaStep ch

/-- NI_REQUEST_ACCEPT at a DMA engine: its channel's next request. -/
def Chip.dmaAsk (e : Nat) (write : Bool) (c : Chip) : Chip :=
  match tfind e c.dma.engines with
  | none => c
  | some ch =>
    let d := c.dm ch
    let desc := c.get (F.DMA_DESC_ADDR ch)
    let out := fun (d : DmaCh) => { d with out := true }
    match d.phase with
    | 0 => if write then c.dmaWrite e ch else c.dmaRead e ch
    | 1 => if d.out then c else c.dmaIssue e ch 3 0 0 (c.get (F.DMA_NEXT_W ch)) 0 3 [] out
    | 2 => if d.out || d.allw || d.failed then c else c.dmaIssue e ch 5 0 0 d.dst0 (d.len0 - 16) 1 [] out
    | 4 => if d.out then c else c.dmaIssue e ch 4 0 1 desc 48 1 [c.dmaStatusWord ch] out
    | 5 => if d.out then c else c.dmaIssue e ch 6 0 0 desc 16 1 [] out
    | _ => c

/-! ## Answers -/

/-- The registers of a transfer that is complete: everything is moved (R326, R327). -/
def Chip.dmaAllMoved (ch : Nat) (c : Chip) : Chip :=
  let ps := (c.dm ch).chunks
  ((if ps = [] then c else c.dmaMoved ch ps)).setDm ch (fun d => { d with chunks := [], gen := d.gen + 1 })

/-- Follow NEXT, or pause before it (R322, R329). -/
def Chip.dmaFollow (ch : Nat) (c : Chip) : Chip := (c.setDm ch (fun d => { d with phase := 1, out := false })).dmaStep ch

/-- DMA_TRANSFER_COMPLETE: the fence has passed (R322, R325). -/
def Chip.dmaComplete (ch : Nat) (c : Chip) : Chip :=
  let d := c.dm ch
  if d.phase ≠ 3 || !c.is (F.DMA_CH_STAT_LOADED ch) then c
  else
    let c := c.dmaAllMoved ch
    if c.fromDesc ch then c.setDm ch (fun d => { d with phase := 4, result := 1, out := false })
    else
      let c := c.raiseIf (c.dmCtl ch 1) EV_DMA_DONE (ch + b2n (c.dmCtl ch 2) * 2 ^ 12)
      if !c.dmCtl ch 0 then c.dmaFollow ch
      else if c.is (F.DMA_CH_CMD_ARM ch) then (c.setDm ch (fun d => { d with phase := 6 })).dmaStep ch
      else c.dmaDoneNow ch false

/-- The status write has been answered (R322, R330, R331). -/
def Chip.dmaStatusDone (ch : Nat) (r : Rsp) (addr : Nat) (c : Chip) : Chip :=
  let d := c.dm ch
  if d.result = 2 then c.dmaErrorNow ch
  else if d.result = 3 then c.dmaIdleNow ch
  else if r.code ≠ 0 then (c.dmaFail ch 4 r addr).dmaStep ch
  else
    let c := c.raiseIf (c.dmCtl ch 1) EV_DMA_DONE (ch + b2n (c.dmCtl ch 2) * 2 ^ 12)
    if !c.dmCtl ch 0 then c.dmaFollow ch else (c.setDm ch (fun d => { d with phase := 5 })).dmaStep ch

/-- A fetched descriptor is checked and its transfer begins (R322). -/
def Chip.dmaFetched (ch addr : Nat) (data : List Nat) (c : Chip) : Chip :=
  let w := fun (i : Nat) => data.getD i 0
  let src := w 0 % 2 ^ 64
  let dst := w 0 / 2 ^ 64
  let ctl := w 1 % 2 ^ 64
  let next := w 1 / 2 ^ 64
  let len := w 2 % 2 ^ 64
  if dmaValid (c.is (F.DMA_CH_CFG_RT ch)) src dst ctl next len && w 2 / 2 ^ 64 = 0 then
    let c := ((c.set (F.DMA_SRC_W ch) src).set (F.DMA_DST_W ch) dst).set (F.DMA_CTL_W ch) ctl
    let c := ((c.set (F.DMA_NEXT_W ch) next).set (F.DMA_LEN_LEN ch) len).set (F.DMA_CRC_CRC ch) 0
    let c := (c.set (F.DMA_DESC_ADDR ch) addr).set (F.DMA_CH_STAT_FROM_DESC ch) 1
    (((c.setDm ch (fun d => { d with dfr := false })).dmaBegin ch)).dmaStep ch
  else (c.dmaFail ch 3 rspReservedCode addr).dmaStep ch

/-- The tail re-read has been answered (R322, R323): `CH_DMA_STATUS` commands held for it end. -/
def Chip.dmaReread (ch : Nat) (data : List Nat) (c : Chip) : Chip :=
  let w := data.headD 0
  if w % 2 = 0 then
    let c := (c.set (F.DMA_CTL_W ch) (w % 32)).set (F.DMA_NEXT_W ch) (w / 2 ^ 64)
    c.dmaFollow ch
  else c.dmaDoneNow ch true

/-- The 40 bytes of `CH_DMA_STATUS`. -/
def Chip.dmaStatusBytes (c : Chip) (ch : Nat) : List Byte :=
  c.regBytes [F.DMA_CH_STAT_STATE ch, F.DMA_CH_STAT_CHAIN_IDLE ch, F.DMA_CH_STAT_DEFERRED ch, F.DMA_CH_STAT_LATE_ERR ch,
    F.DMA_CH_STAT_FROM_DESC ch, F.DMA_CH_STAT_ERR_SIDE ch, F.DMA_CH_STAT_ERR_RESP ch, F.DMA_CH_STAT_ERR_DETAIL ch,
    F.DMA_CH_STAT_ENGINE ch, F.DMA_CH_STAT_LOADED ch, F.DMA_CH_STAT_DEFER_CNT ch] ++
  c.regBytes [F.DMA_LEN_LEN ch] ++ c.regBytes [F.DMA_CRC_CRC ch] ++ c.regBytes [F.DMA_DESC_ADDR ch] ++ c.regBytes [F.DMA_ERR_ADDR_ADDR ch]

/-- A read of `DMA_CH_STAT` is held while the tail re-read is outstanding (R323). -/
def Chip.dmaHeld (c : Chip) (ch : Nat) : Bool := (c.dm ch).phase = 5 && (c.dm ch).out

/-- The value of `DMA_CH_STAT`. -/
def Chip.dmaChStat (c : Chip) (ch : Nat) : Nat := leNat ((c.dmaStatusBytes ch).take 8)

/-- Answer the `CH_DMA_STATUS` commands and the register reads that waited for the tail re-read (R323). -/
def Chip.dmaStatReply (ch : Nat) (c : Chip) : Chip :=
  if c.dmaHeld ch then c
  else
    let c' := c.forAll (c.dm ch).statW (fun id => Chip.ok id (c.dmaStatusBytes ch))
    let c' := c'.forAll (List.range (c.dm ch).statR) (fun _ => Chip.answer rspOk (c.dmaChStat ch))
    c'.setDm ch (fun d => { d with statW := [], statR := 0 })

/-- Mark a piece whose data are not to be written, and everything after it (R329, R330). -/
def DmaCh.drop (pos : Nat) (d : DmaCh) : DmaCh :=
  { d with
    chunks := d.chunks.map (fun p => if p.pos = pos then { p with st := 4 } else p)
    cut := some (min pos (d.cut.getD pos)) }

/-- Give up the requests of the present transfer that wait for a reissue: the host's pause or abort ends that wait (R320). -/
def Chip.dmaDropRetry (ch : Nat) (c : Chip) : Chip :=
  let d := c.dm ch
  let mine := d.retry.filter (fun q =>
    match q.2 with
    | .dma _ u _ => u / 8 = d.gen
    | _ => false)
  let c := c.forAll mine (fun q c =>
    match q.2 with
    | .dma _ u pos => c.setDm ch (fun d => if u % 8 < 3 then d.drop pos else { d with out := false })
    | _ => c)
  c.setDm ch (fun d => { d with retry := d.retry.filter (fun q => !mine.contains q) })

/-- A response to a request of a channel (R319, R320, R326, R331). -/
def Chip.dmaResp (ch u pos : Nat) (q : NReq) (r : Rsp) (word : Nat) (data : List Nat) (c : Chip) : Chip :=
  let d := c.dm ch
  let late := u / 8 ≠ d.gen
  let use := u % 8
  let addr := q.addr + 16 * word
  let c :=
    if r = rspBusy then
      let c := (c.inc (F.DMA_CH_STAT_DEFER_CNT ch)).set (F.DMA_CH_STAT_DEFERRED ch) 1
      let c := c.setDm ch (fun d => { d with retry := d.retry ++ [(q, .dma ch u pos)], dfr := d.dfr || !late })
      if !late && (c.dmState ch = dmPausing || c.dmState ch = dmAborting) then c.dmaDropRetry ch else c
    else if late then
      if use = 2 ∧ r.code ≠ 0 then
        (c.set (F.DMA_CH_STAT_LATE_ERR ch) 1).raise EV_DMA_LATE_ERROR (ch + r.code * 2 ^ 12 + r.detail * 2 ^ 15)
      else c
    else
      match use with
      | 1 =>
        if r.code ≠ 0 then (c.setDm ch (fun d => d.drop pos)).dmaFail ch 1 r addr
        else if c.dmState ch = dmAborting then c.setDm ch (fun d => d.drop pos)
        else c.setDm ch (fun d => { d with chunks := d.chunks.map (fun p => if p.pos = pos then { p with st := 1, data := data } else p) })
      | 2 =>
        if r.code ≠ 0 then (c.setDm ch (fun d => d.drop pos)).dmaFail ch 2 r addr
        else ((c.setDm ch (fun d => { d with chunks := d.chunks.map (fun p => if p.pos = pos then { p with st := 3 } else p) })).dmaAdvance ch).dmaYield ch
      | 3 =>
        let c := c.setDm ch (fun d => { d with out := false })
        if r.code ≠ 0 then c.dmaFail ch 3 r addr else c.dmaFetched ch q.addr data
      | 4 => (c.setDm ch (fun d => { d with out := false })).dmaStatusDone ch r addr
      | 5 =>
        let c := c.setDm ch (fun d => { d with out := false })
        if r.code ≠ 0 then c.dmaFail ch 5 r addr else c.setDm ch (fun d => { d with phase := 3 })
      | _ =>
        let c := c.setDm ch (fun d => { d with out := false })
        if r.code ≠ 0 then c.dmaFail ch 6 r addr else c.dmaReread ch data
  (c.dmaStep ch).dmaStatReply ch

/-- DMA_BUSY_RETRY: refused requests are issued again with a fresh timeout (R320). -/
def Chip.dmaRetry (ch : Nat) (c : Chip) : Chip :=
  c.forAll (c.dm ch).retry (fun e c =>
    let q := e.1
    match c.niIssue q.ni q.kind q.cls q.addr q.dev q.n q.rbe q.bes q.data e.2 with
    | none => c
    | some c => c.setDm ch (fun d => { d with retry := d.retry.erase e }))

/-! ## The command register (R324, R325, R329, R330) -/

/-- The active set is valid. -/
def Chip.dmaSetOk (c : Chip) (ch : Nat) : Bool :=
  dmaValid (c.is (F.DMA_CH_CFG_RT ch)) (c.get (F.DMA_SRC_W ch)) (c.get (F.DMA_DST_W ch)) (c.get (F.DMA_CTL_W ch))
    (c.get (F.DMA_NEXT_W ch)) (c.get (F.DMA_LEN_LEN ch))

/-- The shadow set is valid. -/
def Chip.dmaShadowOk (c : Chip) (ch : Nat) : Bool :=
  dmaValid (c.is (F.DMA_CH_CFG_RT ch)) (c.get (F.SH_SRC_W ch)) (c.get (F.SH_DST_W ch)) (c.get (F.SH_CTL_W ch))
    (c.get (F.SH_NEXT_W ch)) (c.get (F.SH_LEN_LEN ch))

/-- IDLE, or DONE with `CHAIN_IDLE` = 0. -/
def Chip.dmaFree (c : Chip) (ch : Nat) : Bool := c.dmState ch = dmIdle || (c.dmState ch = dmDone && !c.chainIdle ch)

/-- The doorbell (R324). -/
def Chip.dmaGo (ch : Nat) (c : Chip) : Chip :=
  if c.dmaFree ch then
    let c := (c.set (F.DMA_CRC_CRC ch) 0).set (F.DMA_CH_STAT_FROM_DESC ch) 0
    (c.setDm ch (fun d => { d with phase := 0, gen := d.gen + 1, dfr := false })).dmaQueue ch
  else if c.dmState ch = dmDone then
    (((c.set (F.DMA_CH_STAT_CHAIN_IDLE ch) 0).setDm ch (fun d => { d with phase := 5, out := false }))).dmaQueue ch
  else if c.dmState ch = dmError then (c.setDm ch (fun d => { d with phase := 0 })).dmaQueue ch
  else c

/-- Whether a doorbell is refused: an invalid active set where it would be used (R324). -/
def Chip.dmaGoBad (c : Chip) (ch : Nat) : Bool := c.dmaFree ch && !c.dmaSetOk ch

/-- Arm the shadow; a free channel promotes it at once (R325). -/
def Chip.dmaArm (ch : Nat) (c : Chip) : Chip :=
  let c := c.set (F.DMA_CH_CMD_ARM ch) 1
  if c.dmaFree ch then c.dmaPromote ch else c

/-- `CLOSE` (R324), after which an armed shadow is promoted, the channel being DONE with `CHAIN_IDLE` = 0 (R325). -/
def Chip.dmaClose (ch : Nat) (c : Chip) : Chip :=
  if c.dmState ch = dmDone && c.chainIdle ch then
    let c := c.set (F.DMA_CH_STAT_CHAIN_IDLE ch) 0
    if c.is (F.DMA_CH_CMD_ARM ch) then c.dmaPromote ch else c
  else c

/-- Set `PAUSE` (R329). -/
def Chip.dmaPause (ch : Nat) (c : Chip) : Chip :=
  let c := c.set (F.DMA_CH_CMD_PAUSE ch) 1
  let st := c.dmState ch
  if st = dmQueued ∨ st = dmWaitDreq then c.dmaPausedNow ch
  else if st = dmActive then (((c.set (F.DMA_CH_STAT_STATE ch) dmPausing).dmaDropRetry ch).dmaStep ch).dmaStatReply ch
  else c

/-- Clear `PAUSE` (R329). -/
def Chip.dmaResume (ch : Nat) (c : Chip) : Chip :=
  let c := c.set (F.DMA_CH_CMD_PAUSE ch) 0
  if c.dmState ch = dmPaused then c.dmaWait ch dmQueued else c

/-- Abort a channel (R330). -/
def Chip.dmaAbort (ch : Nat) (c : Chip) : Chip :=
  let st := c.dmState ch
  let ph := (c.dm ch).phase
  if st = dmActive ∨ st = dmPausing then (((c.set (F.DMA_CH_STAT_STATE ch) dmAborting).dmaDropRetry ch).dmaStep ch).dmaStatReply ch
  else if st = dmAborting ∨ st = dmIdle then c
  else if (st = dmQueued ∨ st = dmWaitDreq ∨ st = dmPaused) ∧ c.fromDesc ch ∧ ph = 0 then
    (c.setDm ch (fun d => { d with phase := 4, result := 3, out := false })).dmaWait ch dmAborting
  else c.dmaIdleNow ch

/-- A write of `DMA_CH_CMD`: what it asks is checked first. -/
def Chip.dmaCmdWrite (ch v : Nat) (c : Chip) : Rsp × Chip :=
  let arm := v.testBit 2 && !c.is (F.DMA_CH_CMD_ARM ch)
  if (arm && !c.dmaShadowOk ch) || (v.testBit 0 && c.dmaGoBad ch) then (rspReservedCode, c)
  else
    let c := if v.testBit 1 then (if c.is (F.DMA_CH_CMD_PAUSE ch) then c else c.dmaPause ch)
      else if c.is (F.DMA_CH_CMD_PAUSE ch) then c.dmaResume ch else c
    let c := if v.testBit 3 then c.dmaClose ch else c
    let c := if v.testBit 0 then c.dmaGo ch else c
    let c := if arm then c.dmaArm ch else c
    (rspOk, if v.testBit 4 then c.set (F.DMA_CH_STAT_DEFER_CNT ch) 0 else c)

/-- A write of another channel register (R325, R332). -/
def Chip.dmaRegWrite (ch off v : Nat) (c : Chip) : Rsp × Chip :=
  let st := c.dmState ch
  let free := st = dmIdle || st = dmPaused || st = dmDone || st = dmError
  let active := fun (f : Fld) => if free then (rspOk, c.set f v) else (rspState, c)
  let shadow := fun (f : Fld) => if c.is (F.DMA_CH_CMD_ARM ch) then (rspState, c) else (rspOk, c.set f v)
  match off with
  | 0x00 => active (F.DMA_SRC_W ch)
  | 0x08 => active (F.DMA_DST_W ch)
  | 0x10 => active (F.DMA_CTL_W ch)
  | 0x18 => active (F.DMA_NEXT_W ch)
  | 0x20 => active (F.DMA_LEN_LEN ch)
  | 0x28 => active (F.DMA_CRC_CRC ch)
  | 0x30 => c.dmaCmdWrite ch v
  | 0x38 => (rspOk, c.writeFlds false v [F.DMA_CH_STAT_DEFERRED ch, F.DMA_CH_STAT_LATE_ERR ch])
  | 0x40 => shadow (F.SH_SRC_W ch)
  | 0x48 => shadow (F.SH_DST_W ch)
  | 0x50 => shadow (F.SH_CTL_W ch)
  | 0x58 => shadow (F.SH_NEXT_W ch)
  | 0x60 => shadow (F.SH_LEN_LEN ch)
  | 0x68 =>
    if 16 < bits v 7 3 then (rspRange, c)
    else (rspOk, ((c.set (F.DMA_CH_CFG_PRIO ch) (bits v 1 0)).set (F.DMA_CH_CFG_RT ch) (bit v 2)).set (F.DMA_CH_CFG_BURST ch) (bits v 7 3))
  | _ => (rspOk, c)

/-- The request of a channel rises: a channel in WAIT_DREQ becomes QUEUED (R328). -/
def Chip.dmaRise (ch : Nat) (c : Chip) : Chip :=
  if c.dmState ch = dmWaitDreq && c.dmaReq ch then c.dmaQueue ch else c

/-- `DMA_DREQ_SET` and `DMA_DREQ_CLR` (Table 12.5). -/
def Chip.dmaDreq (ch : Nat) (on : Bool) (c : Chip) : Chip :=
  (c.set (F.DMA_DREQ_REQ (ch / 64)) (putBit (c.get (F.DMA_DREQ_REQ (ch / 64))) (ch % 64) on)).dmaRise ch

/-- DMA_QUEUE_WAIT_LONG: more than 10 µs in QUEUED (R317). -/
def Chip.dmaLong (ch : Nat) (c : Chip) : Chip :=
  if c.dmState ch = dmQueued then (c.set (F.DMA_CH_STAT_DEFERRED ch) 1).setDm ch (fun d => { d with dfr := true }) else c

/-- `DMA_GSTAT` (Table 12.5). -/
def Chip.dmaGstat (c : Chip) : Nat :=
  c.dma.engines.length + 2 ^ 7 * (c.dma.queued.filter (fun ch => c.dmState ch = dmQueued)).length

/-- A channel reset: outstanding requests are cancelled, every register takes its reset value, the request bit is cleared,
and commands on the channel end with ST_TARGET_RESET (R60, R330). -/
def Chip.dmaReset (ch : Nat) (c : Chip) : Chip :=
  let mine : NOut → Bool := fun o =>
    match o.who with
    | .dma k _ _ => decide (k = ch)
    | _ => false
  let c := c.forAll (c.net.outs.filter mine) (fun o => Chip.outCancel o)
  let c := c.forAll [DmaCh.startW, DmaCh.pauseW, DmaCh.abortW, DmaCh.statW] (fun w => Chip.dmaReply ch w ST_TARGET_RESET dtNone)
  let c := c.forAll (List.range (c.dm ch).statR) (fun _ => Chip.answer rspOk 0)
  let c := (c.dmaUnload ch).dmaUnqueue ch
  let c := c.resetRange (0x680000 + 0x80 * ch) (0x680080 + 0x80 * ch) (fun _ => false)
  { c with dma := { c.dma with chs := tdel ch c.dma.chs } }.dmaDreq ch false

/-! ## Commands (R333) -/

def dtChBusy : Nat := 0x40
def dtShadowArmed : Nat := 0x41
def dtDmaNotPaused : Nat := 0x42
def dtSetup : Nat := 0x43

/-- A 4-byte payload with a channel. -/
def chanChk : Chip → List Byte → Option (Nat × Nat) := lenParam 4 (fun pl => decide (pf pl 0 4 < 4096))

def cmdDmaStatus : Cmd := Cmd.plain 0x06 0x00 live chanChk (fun id pl c =>
  let ch := pf pl 0 4
  if c.dmaHeld ch then c.setDm ch (fun d => { d with statW := d.statW ++ [id] }) else c.ok id (c.dmaStatusBytes ch))

/-- Whether a payload's transfer set is valid. -/
def Chip.dmaPayloadOk (c : Chip) (ch : Nat) (pl : List Byte) : Bool :=
  dmaValid (c.is (F.DMA_CH_CFG_RT ch)) (pf pl 8 8) (pf pl 16 8) (pf pl 24 8) (pf pl 32 8) (pf pl 40 8)

/-- The checks of a payload that carries a transfer set: a reserved bit in it, or a set invalid otherwise, is refused with
SETUP before the command has any effect (R7, R318, R333). -/
def setChk (ok : List Byte → Bool) (c : Chip) (pl : List Byte) : Option (Nat × Nat) :=
  orElse (lenParam 48 (fun pl => decide (pf pl 0 2 < 4096) && ok pl) c pl)
    (if c.dmaPayloadOk (pf pl 0 2) pl then none else some (ST_BAD_PARAM, dtSetup))

def cmdDmaStart : Cmd := Cmd.plain 0x06 0x01 live (setChk (fun pl => decide (pb pl 2 < 2) && pf pl 3 5 = 0))
  (fun id pl c =>
    let ch := pf pl 0 2
    if !c.dmaFree ch then c.fail id ST_BAD_STATE dtChBusy
    else
      let c := ((c.set (F.DMA_SRC_W ch) (pf pl 8 8)).set (F.DMA_DST_W ch) (pf pl 16 8)).set (F.DMA_CTL_W ch) (pf pl 24 8)
      let c := (c.set (F.DMA_NEXT_W ch) (pf pl 32 8)).set (F.DMA_LEN_LEN ch) (pf pl 40 8)
      if pb pl 2 = 0 then (c.dmaGo ch).ok id []
      else ((c.interim id ST_ACCEPTED dtNone []).setDm ch (fun d => { d with startW := d.startW ++ [id] })).dmaGo ch)

def cmdDmaArm : Cmd := Cmd.plain 0x06 0x02 live (setChk (fun pl => pf pl 2 6 = 0)) (fun id pl c =>
  let ch := pf pl 0 2
  if c.is (F.DMA_CH_CMD_ARM ch) then c.fail id ST_BAD_STATE dtShadowArmed
  else
    let c := ((c.set (F.SH_SRC_W ch) (pf pl 8 8)).set (F.SH_DST_W ch) (pf pl 16 8)).set (F.SH_CTL_W ch) (pf pl 24 8)
    let c := (c.set (F.SH_NEXT_W ch) (pf pl 32 8)).set (F.SH_LEN_LEN ch) (pf pl 40 8)
    (c.dmaArm ch).ok id [])

def cmdDmaPause : Cmd := Cmd.plain 0x06 0x03 live chanChk (fun id pl c =>
  let ch := pf pl 0 4
  let st := c.dmState ch
  if st = dmPaused ∨ st = dmIdle ∨ st = dmDone then c.ok id []
  else if st = dmError ∨ st = dmAborting then c.fail id ST_BAD_STATE dtChBusy
  else ((c.interim id ST_ACCEPTED dtNone []).setDm ch (fun d => { d with pauseW := d.pauseW ++ [id] })).dmaPause ch)

def cmdDmaResume : Cmd := Cmd.plain 0x06 0x04 live chanChk (fun id pl c =>
  let ch := pf pl 0 4
  if c.dmState ch = dmPaused ∨ c.dmState ch = dmPausing then (c.dmaResume ch).ok id [] else c.fail id ST_BAD_STATE dtDmaNotPaused)

def cmdDmaAbort : Cmd := Cmd.plain 0x06 0x05 live chanChk (fun id pl c =>
  let ch := pf pl 0 4
  if c.dmState ch = dmIdle then c.ok id []
  else ((c.interim id ST_ACCEPTED dtNone []).setDm ch (fun d => { d with abortW := d.abortW ++ [id] })).dmaAbort ch)

/-! ## Meanings -/

def execDmaGo (ch : Fin 4096) (s : State) :=
  runChip (fun c => if c.dmaGoBad ch then c.answer rspReservedCode 0 else (c.dmaGo ch).answer rspOk 0) s
def execDmaPauseSet (ch : Fin 4096) (s : State) := runChip (fun c => (c.dmaPause ch).answer rspOk 0) s
def execDmaPauseClear (ch : Fin 4096) (s : State) := runChip (fun c => (c.dmaResume ch).answer rspOk 0) s
def execDmaArm (ch : Fin 4096) (s : State) :=
  runChip (fun c =>
    if c.is (F.DMA_CH_CMD_ARM ch) then c.answer rspOk 0
    else if !c.dmaShadowOk ch then c.answer rspReservedCode 0
    else (c.dmaArm ch).answer rspOk 0) s
def execDmaClose (ch : Fin 4096) (s : State) := runChip (fun c => (c.dmaClose ch).answer rspOk 0) s
def execDmaClrCnt (ch : Fin 4096) (s : State) := runChip (fun c => (c.set (F.DMA_CH_STAT_DEFER_CNT ch) 0).answer rspOk 0) s
def execDmaDreqSet (data : Word) (s : State) := runChip (fun c => (c.dmaDreq (data.toNat % 4096) true).answer rspOk 0) s
def execDmaDreqClr (data : Word) (s : State) := runChip (fun c => (c.dmaDreq (data.toNat % 4096) false).answer rspOk 0) s
def execDreqRise (ch : Fin 4096) (s : State) := runChip (Chip.dmaRise ch) s
def execDmaEngineLoad (engine : Fin 64) (s : State) := runChip (Chip.dmaLoad engine) s
def execDmaQueueWaitLong (ch : Fin 4096) (s : State) := runChip (Chip.dmaLong ch) s
def execDmaBusyRetry (ch : Fin 4096) (s : State) := runChip (Chip.dmaRetry ch) s
def execDmaTransferComplete (ch : Fin 4096) (s : State) := runChip (Chip.dmaComplete ch) s
def execDmaChStatRead (ch : Fin 4096) (s : State) :=
  runChip (fun c => if c.dmaHeld ch then c.setDm ch (fun d => { d with statR := d.statR + 1 }) else c.answer rspOk (c.dmaChStat ch)) s
def execChDmaStatus (p : Pkt) (s : State) := runAon (Chip.command cmdDmaStatus p) s
def execChDmaStart (p : Pkt) (s : State) := runAon (Chip.command cmdDmaStart p) s
def execChDmaArm (p : Pkt) (s : State) := runAon (Chip.command cmdDmaArm p) s
def execChDmaPause (p : Pkt) (s : State) := runAon (Chip.command cmdDmaPause p) s
def execChDmaResume (p : Pkt) (s : State) := runAon (Chip.command cmdDmaResume p) s
def execChDmaAbort (p : Pkt) (s : State) := runAon (Chip.command cmdDmaAbort p) s

end Sys2Proof.Machine
end

