-- ==== Sys2Proof/Machine/Rae.lean ====
section
/-! DEFINITION. On-device repair analysis (chapter 6): recipes, contexts, the must-repair rules, the bounded search, groups,
records and the commands of the repair-analysis engine. -/

namespace Sys2Proof.Machine

/-! ## Recipes (R169, R170) -/

/-- A geometry of a recipe. -/
structure Geom where
  num    : Nat
  ownR   : Nat
  ownC   : Nat
  /-- Share exponent (0 without `SHARE`) and the shared spares. -/
  s      : Nat
  sr     : Nat
  sc     : Nat
  policy : Nat
  costR  : Nat
  costC  : Nat
  limit  : Nat
  cap    : Nat
  bmode  : Nat
  /-- The map program: (opcode, operand). -/
  ops    : List (Nat × Nat)
  ranges : List (Nat × Nat)
  deriving DecidableEq, Repr

/-- The defaults of Table 6.3. -/
def Geom.init (g : Nat) : Geom :=
  { num := g, ownR := 0, ownC := 0, s := 0, sr := 0, sc := 0, policy := 0, costR := 1, costC := 1, limit := 1048576,
    cap := 4096, bmode := 0, ops := [], ranges := [] }

/-- Validation so far: closed geometries, the open one with the opcodes it has held, and an `ASSIGN_LO` that waits. -/
structure RecipeSt where
  geoms : List Geom
  cur   : Option Geom
  held  : List Nat
  lo    : Option Nat
  deriving DecidableEq, Repr

/-- Whether an operand lies in range, with its unused bits zero (Table 6.3). -/
def recipeOperand (op v : Nat) : Bool :=
  match op with
  | 0x01 => decide (v < 256)
  | 0x02 => decide (bits v 4 0 ≤ 16) && decide (bits v 12 8 ≤ 16) && v &&& 0x1F1F = v
  | 0x03 => decide (1 ≤ bits v 2 0) && decide (bits v 2 0 ≤ 6) && decide (bits v 12 8 ≤ 16) && decide (bits v 20 16 ≤ 16) &&
      v &&& 0x1F1F07 = v
  | 0x04 => decide (v < 4)
  | 0x05 => decide (1 ≤ bits v 7 0) && decide (1 ≤ bits v 15 8) && decide (v < 65536)
  | 0x06 => decide (1 ≤ v) && decide (v ≤ 1048576)
  | 0x07 => decide (1 ≤ v) && decide (v ≤ 4096)
  | 0x10 | 0x11 | 0x15 => decide (v < 32)
  | 0x13 | 0x14 => decide (v < 65536)
  | 0x12 | 0x16 | 0x17 | 0x18 | 0x19 | 0x1F => v = 0
  | 0x1A => decide (v ≤ 2)
  | 0x20 | 0x21 => decide (v < 1048576)
  | _ => false

/-- Whether a range starts and ends on group boundaries. -/
def groupAligned (s : Nat) (r : Nat × Nat) : Bool := r.1 % 2 ^ s = 0 && (r.2 + 1) % 2 ^ s = 0

/-- A geometry with one more of the words that appear at most once. -/
def Geom.put (g : Geom) (op v : Nat) : Geom :=
  match op with
  | 0x02 => { g with ownR := bits v 4 0, ownC := bits v 12 8 }
  | 0x03 => { g with s := bits v 2 0, sr := bits v 12 8, sc := bits v 20 16 }
  | 0x04 => { g with policy := v }
  | 0x05 => { g with costR := bits v 7 0, costC := bits v 15 8 }
  | 0x06 => { g with limit := v }
  | 0x07 => { g with cap := v }
  | _ => { g with bmode := v }

/-- One word of a recipe; `none` where it is the first to break a rule of R170. -/
def recipeWord (st : RecipeSt) (w : Nat) : Option RecipeSt :=
  let op := w / 2 ^ 23
  let v := w % 2 ^ 23
  if !recipeOperand op v || (st.lo ≠ none && op ≠ 0x21) then none
  else
    match st.cur with
    | none => if op = 0x01 ∧ st.geoms.all (fun g => g.num ≠ v) then some { st with cur := some (.init v), held := [] } else none
    | some g =>
      if op = 0x01 then none
      else if op ≤ 0x07 ∨ op = 0x1A then
        if st.held.contains op || (op = 0x1A && g.ops ≠ []) || (op = 0x03 && !g.ranges.all (groupAligned (bits v 2 0))) then none
        else some { st with cur := some (g.put op v), held := op :: st.held }
      else if op ≤ 0x19 then
        if 32 ≤ g.ops.length || ((op = 0x18 || op = 0x19) && g.ops.any (fun o => o.1 = op)) then none
        else some { st with cur := some { g with ops := g.ops ++ [(op, v)] } }
      else if op = 0x1F then
        if st.held.contains 0x02 && g.ops.any (fun o => o.1 = 0x18) && g.ops.any (fun o => o.1 = 0x19) then
          some { st with geoms := st.geoms ++ [g], cur := none }
        else none
      else if op = 0x20 then some { st with lo := some v }
      else
        match st.lo with
        | none => none
        | some lo =>
          let taken := ((st.geoms ++ [g]).flatMap (fun (h : Geom) => h.ranges)).any (fun r => decide (r.1 ≤ v) && decide (lo ≤ r.2))
          if v < lo || taken || (g.s ≠ 0 && !groupAligned g.s (lo, v)) then none
          else some { st with cur := some { g with ranges := g.ranges ++ [(lo, v)] }, lo := none }

/-- Read a recipe: its geometries, or the index of the first word that breaks a rule. -/
def recipeRead : RecipeSt → Nat → List Nat → Except Nat (List Geom)
  | st, i, [] => if st.cur = none ∧ st.lo = none then .ok st.geoms else .error i
  | st, i, w :: ws =>
    match recipeWord st w with
    | none => .error i
    | some st' => recipeRead st' (i + 1) ws

/-- The first `n` words of the recipe store. -/
def Chip.recipeStore (c : Chip) (n : Nat) : List Nat := (List.range n).map (fun w => c.get (F.RAE_RECIPE_W (w / 2) (w % 2)))

/-- The geometries of the first `n` words. -/
def Chip.recipeTry (c : Chip) (n : Nat) : Except Nat (List Geom) :=
  recipeRead { geoms := [], cur := none, held := [], lo := none } 0 (c.recipeStore n)

/-- The geometries of the recipe in force. -/
def Chip.geoms (c : Chip) : List Geom :=
  if c.is F.RAE_STAT_RECIPE_VALID then
    match c.recipeTry c.rae.words with
    | .ok gs => gs
    | .error _ => []
  else []

/-- The geometry that a domain is assigned. -/
def geomOf (gs : List Geom) (d : Nat) : Option Geom :=
  gs.find? (fun g => g.ranges.any (fun r => decide (r.1 ≤ d) && decide (d ≤ r.2)))

/-! ## Contexts and their cache (R166, R167) -/

/-- A context read from its 64 bytes. -/
def RaeCtx.ofBytes (b : List Byte) : RaeCtx :=
  let f := pb b 2
  { epoch := pb b 0, geom := pb b 1, seen := f.testBit 0, pend := f.testBit 1, lost := f.testBit 2, optimal := f.testBit 3,
    decided := f.testBit 4, verdict := pb b 3 % 16, cause := pb b 3 / 16, ownR := pb b 4, ownC := pb b 5, shrR := pb b 6,
    shrC := pb b 7, poolR := pb b 8, poolC := pb b 9, stored := pf b 12 2, uncov := pf b 14 2, entries := pf b 16 4,
    hits := pf b 20 4, head := pf b 24 4, tail := pf b 28 4, nodes := pf b 32 4, mustR := pb b 36, mustC := pb b 37 }

/-- The 64 bytes of a context. -/
def RaeCtx.toBytes (x : RaeCtx) : List Byte :=
  natLe 1 x.epoch ++ natLe 1 x.geom ++
  natLe 1 (b2n x.seen + 2 * b2n x.pend + 4 * b2n x.lost + 8 * b2n x.optimal + 16 * b2n x.decided) ++
  natLe 1 (x.verdict % 16 + 16 * x.cause) ++ natLe 1 x.ownR ++ natLe 1 x.ownC ++ natLe 1 x.shrR ++ natLe 1 x.shrC ++
  natLe 1 x.poolR ++ natLe 1 x.poolC ++ natLe 2 0 ++ natLe 2 x.stored ++ natLe 2 x.uncov ++ natLe 4 x.entries ++
  natLe 4 x.hits ++ natLe 4 x.head ++ natLe 4 x.tail ++ natLe 4 x.nodes ++ natLe 1 x.mustR ++ natLe 1 x.mustC ++ natLe 26 0

/-- A fresh context (R167): zero but for the geometry, the spares and `HEAD`. -/
def RaeCtx.fresh (g : Option Geom) : RaeCtx :=
  { epoch := 0, geom := (g.map (fun (h : Geom) => h.num)).getD 0, seen := false, pend := false, lost := false,
    optimal := false, decided := false, verdict := 0, cause := 0, ownR := (g.map (fun (h : Geom) => h.ownR)).getD 0,
    ownC := (g.map (fun (h : Geom) => h.ownC)).getD 0, shrR := 0, shrC := 0, poolR := 0, poolC := 0, stored := 0, uncov := 0,
    entries := 0, hits := 0, head := 0xFFFFFFFF, tail := 0, nodes := 0, mustR := 0, mustC := 0 }

/-- The address of a domain's context (R166). -/
def Chip.ctxAddr (c : Chip) (d : Nat) : Nat := c.get F.RAE_CTX_BASE_ADDR + 64 * d

/-- The context of a domain as cached or as it lies in DRAM. -/
def Chip.ctxRaw (c : Chip) (d : Nat) : RaeCtx :=
  match tfind d c.rae.cache with
  | some x => x.1
  | none => .ofBytes (memRead (c.ctxAddr d) 64 c.mem)

/-- The context of a domain in this session: fresh where its epoch differs (R167). -/
def Chip.ctx (c : Chip) (d : Nat) : RaeCtx :=
  let x := c.ctxRaw d
  if x.epoch = c.get F.RAE_STAT_EPOCH then x else .fresh (geomOf c.geoms d)

/-! ## Faults (R186) -/

/-- Zeroing the context area in part: how far is open (R167). -/
def Chip.zeroPart (c : Chip) : Chip :=
  let b := c.get F.RAE_CTX_BASE_ADDR
  { c.freeNext with mem := memZero b (b + c.freeVal % 2 ^ 26) c.mem }

/-- The final reply of the running `CH_RA_FINAL`. -/
def Chip.raeReply (st dt : Nat) (pl : List Byte) (c : Chip) : Chip :=
  match c.rae.final with
  | none => c
  | some id => Chip.finish id st dt pl { c with rae := { c.rae with final := none, abort := false } }

/-- Nothing more is written for the session: no record and no import waits or is on its way. -/
def Rae.quiet (r : Rae) : Rae :=
  { r with queue := [], writing := false, waited := false, sends := [], half := false, imports := 0 }

/-- The RAE is in FAULT. -/
def Chip.raeStopped (c : Chip) : Bool := c.get F.RAE_STAT_STATE = 5

/-- The RAE enters FAULT: `why` 1 uncorrectable, 2 network response, 3 import refused (R186, Table 6.13). Failures after the
first change nothing. -/
def Chip.raeFault (why : Nat) (r : Rsp) (c : Chip) : Chip :=
  if c.raeStopped then c
  else
    let st := if why = 1 then (ST_HW_FAULT, dtNone) else r.status
    let c := (c.set F.RAE_STAT_STATE 5).set F.RAE_STAT_RING_WAIT 0
    let c := { c with rae := c.rae.quiet }
    let c := c.raise EV_RA_FAULT (why + r.detail * 256)
    match c.rae.zeroing with
    | some id => Chip.fail id st.1 st.2 { c.zeroPart with rae := { c.rae with zeroing := none, zeroed := false } }
    | none => c.raeReply st.1 st.2 []

/-- What an answer to a context, pool, FAT or record access means (R186). -/
def Chip.raeAnswer (r : Rsp) (c : Chip) : Chip :=
  if r = rspOk then c else c.raeFault (if r = rspUncorr then 1 else 2) r

/-- RAE_MEMORY_RESPONSE (R186). -/
def Chip.raeMemory (r : Rsp) (uncorr : Bool) (c : Chip) : Chip :=
  if uncorr then c.raeFault 1 r else if r.code = 0 then c else c.raeFault 2 r

/-! ## Row-port accesses of the RAE (R166, R168, R270) -/

/-- Read `n` bytes of a context or the pool: the answer, and FAULT where it is not RSP_OK. -/
def Chip.raeRead (a n : Nat) (c : Chip) : Rsp × Chip :=
  match c.rowRefusal a n with
  | some r => (r, c.raeAnswer r)
  | none => ((c.rowReads a n).1, (c.rowReads a n).2.raeAnswer (c.rowReads a n).1)

/-- Write bytes of a context or the pool: a merge that meets an uncorrectable granule is no RSP_OK here. -/
def Chip.raeStore (a : Nat) (bs : List Byte) (c : Chip) : Rsp × Chip :=
  match c.rowRefusal a bs.length with
  | some r => (r, c.raeAnswer r)
  | none =>
    let p := c.rowWrites a bs
    let r := if p.1 = rspOk ∧ p.2.drState = drFrozen then rspUncorr else p.1
    (r, p.2.raeAnswer r)

/-- The context of a domain enters the cache as the most recently used. Beyond 8,192 contexts the least recently used
leaves, written back if dirty (R166). -/
def Chip.ctxCache (d : Nat) (x : RaeCtx) (dirty : Bool) (c : Chip) : Rsp × Chip :=
  let q := c.rae.cache.filter (fun e => e.1 ≠ d) ++ [(d, x, dirty)]
  let put := fun (q : List (Nat × RaeCtx × Bool)) => Chip.set F.RAE_STAT_CACHE_USED q.length { c with rae := { c.rae with cache := q } }
  match q with
  | (d', y, old) :: q' =>
    if 8192 < q.length then
      if old then (put q').raeStore (c.ctxAddr d') y.toBytes else (rspOk, put q')
    else (rspOk, put q)
  | [] => (rspOk, c)

/-- An access to the context of a domain: a hit becomes the most recently used, and a miss is read from DRAM (R166). -/
def Chip.ctxFetch (d : Nat) (c : Chip) : Rsp × Chip :=
  match tfind d c.rae.cache with
  | some x => c.ctxCache d x.1 x.2
  | none =>
    let p := c.raeRead (c.ctxAddr d) 64
    if p.1 = rspOk then p.2.ctxCache d (c.ctxRaw d) false else p

/-- An access in a session; none in FAULT. -/
def Chip.ctxTouch (d : Nat) (c : Chip) : Chip := if c.raeStopped then c else (c.ctxFetch d).2

/-- Write the context of a domain; the write carries the session's epoch. -/
def Chip.ctxPut (d : Nat) (x : RaeCtx) (c : Chip) : Chip :=
  if c.raeStopped then c else (c.ctxCache d { x with epoch := c.get F.RAE_STAT_EPOCH } true).2

/-- Change the context of a domain. -/
def Chip.ctxUpd (d : Nat) (f : RaeCtx → RaeCtx) (c : Chip) : Chip :=
  let c := c.ctxTouch d
  c.ctxPut d (f (c.ctx d))

/-- Write back every dirty context (Table 6.7, step 6). -/
def Chip.ctxFlush (c : Chip) : Chip :=
  let c := c.forAll (c.rae.cache.filter (fun e => e.2.2)) (fun e c =>
    if c.raeStopped then c else (c.raeStore (c.ctxAddr e.1) e.2.1.toBytes).2)
  if c.raeStopped then c
  else { c with rae := { c.rae with cache := c.rae.cache.map (fun e => (e.1, e.2.1, false)) } }

/-! ## List blocks (R168) -/

/-- The address of a list block. -/
def Chip.blkAddr (c : Chip) (b : Nat) : Nat := c.get F.RAE_POOL_BASE_ADDR + 64 * b

/-- The entries of the list from a block, over at most `fuel` blocks. -/
def Chip.blkList (c : Chip) : Nat → Nat → List Nat
  | 0, _ => []
  | fuel + 1, b =>
    if b = 0xFFFFFFFF then []
    else
      let bs := memRead (c.blkAddr b) 64 c.mem
      (List.range (min 14 (pf bs 4 2))).map (fun i => pf bs (8 + 4 * i) 4) ++ c.blkList fuel (pf bs 0 4)

/-- The list of a context: at most 4,096 entries, in 293 blocks. -/
def Chip.items (c : Chip) (x : RaeCtx) : List Nat := c.blkList 293 x.head

/-- The blocks of the list from a block, over at most `fuel` blocks. -/
def Chip.blkChain (c : Chip) : Nat → Nat → List Nat
  | 0, _ => []
  | fuel + 1, b => if b = 0xFFFFFFFF then [] else b :: c.blkChain fuel (pf (memRead (c.blkAddr b) 4 c.mem) 0 4)

/-- The accesses that reading a domain's context and list takes. -/
def Chip.listTouch (d : Nat) (c : Chip) : Chip :=
  let c := c.ctxTouch d
  c.forAll (c.blkChain 293 (c.ctx d).head) (fun b c => if c.raeStopped then c else (c.raeRead (c.blkAddr b) 64).2)

def itemCell (i : Nat) : Bool := !i.testBit 15
def cellOf (i : Nat) : Nat × Nat := (bits i 14 0, bits i 30 16)
def cellItem (p : Nat × Nat) : Nat := p.1 + p.2 * 2 ^ 16

/-- The cells of a list, and the addresses of its row or column markers. -/
def listCells (is : List Nat) : List (Nat × Nat) := (is.filter itemCell).map cellOf
def listMarks (col : Bool) (is : List Nat) : List Nat := (is.filter (fun i => !itemCell i && i.testBit 16 = col)).map (fun i => bits i 14 0)

/-- The cells that no marked line covers. -/
def listUncov (is : List Nat) : List (Nat × Nat) :=
  (listCells is).filter (fun p => !(listMarks false is).contains p.1 && !(listMarks true is).contains p.2)

/-- OVERFLOW with a cause (R176, Table 6.6). -/
def Chip.raeOverflow (d cause : Nat) (c : Chip) : Chip :=
  c.ctxUpd d (fun x => if x.verdict = 0 then { x with verdict := 3, cause := cause } else x)

/-- A write to the pool in a session; none in FAULT. -/
def Chip.blkStore (a : Nat) (bs : List Byte) (c : Chip) : Chip := if c.raeStopped then c else (c.raeStore a bs).2

/-- Append an entry to a domain's list; false where CAP or the pool refuses it, or in FAULT (R173, R168, R186). -/
def Chip.itemPut (g : Geom) (d item : Nat) (c : Chip) : Bool × Chip :=
  let c := c.ctxTouch d
  let x := c.ctx d
  if c.raeStopped then (false, c)
  else if g.cap ≤ x.stored then (false, c.raeOverflow d 1)
  else if x.stored % 14 = 0 then
    let b := c.get F.RAE_POOL_USED_BLOCKS
    if c.get F.RAE_POOL_BLOCKS_BLOCKS ≤ b then (false, c.raeOverflow d 2)
    else
      let c := c.blkStore (c.blkAddr b) (natLe 4 0xFFFFFFFF ++ natLe 2 1 ++ natLe 2 0 ++ natLe 4 item ++ natLe 52 0)
      let c := if x.head = 0xFFFFFFFF then c else c.blkStore (c.blkAddr x.tail) (natLe 4 b)
      let c := c.ctxPut d { x with stored := x.stored + 1, head := if x.head = 0xFFFFFFFF then b else x.head, tail := b }
      if c.raeStopped then (false, c)
      else
        let c := c.set F.RAE_POOL_USED_BLOCKS (b + 1)
        let all := c.get F.RAE_POOL_BLOCKS_BLOCKS
        if !c.rae.poolLow && decide (9 * all ≤ 10 * (b + 1)) then
          (true, Chip.raise EV_RA_POOL_LOW (all - (b + 1)) { c with rae := { c.rae with poolLow := true } })
        else (true, c)
  else
    let n := x.stored % 14
    let c := (c.blkStore (c.blkAddr x.tail + 4) (natLe 2 (n + 1))).blkStore (c.blkAddr x.tail + 8 + 4 * n) (natLe 4 item)
    let c := c.ctxPut d { x with stored := x.stored + 1 }
    (!c.raeStopped, c)

/-! ## The online phase (R172 to R176) -/

/-- The registers of the map program: A, T, row and column. -/
structure MapSt where
  a   : Nat
  t   : Nat
  row : Nat
  col : Nat

/-- One operation of the map program (Table 6.3). -/
def mapOp (x y b : Nat) (m : MapSt) (o : Nat × Nat) : MapSt :=
  match o.1 with
  | 0x10 => { m with a := x >>> o.2 }
  | 0x11 => { m with a := y >>> o.2 }
  | 0x12 => { m with a := b }
  | 0x13 => { m with a := m.a &&& o.2 }
  | 0x14 => { m with a := m.a ^^^ o.2 }
  | 0x15 => { m with a := (m.a <<< o.2) % 2 ^ 32 }
  | 0x16 => { m with t := m.a }
  | 0x17 => { m with a := m.a ||| m.t }
  | 0x18 => { m with row := m.a % 2 ^ 15 }
  | _ => { m with col := m.a % 2 ^ 15 }

/-- The bit indices for which an entry forms a cell, ascending (BITS of Table 6.3). -/
def Geom.cellBits (g : Geom) (mask : Nat) : List Nat :=
  if g.bmode = 0 then [0]
  else if g.bmode = 1 then (List.range 16).filter (fun p => (List.range 8).any (fun u => mask.testBit (16 * u + p)))
  else (List.range 128).filter (fun i => mask.testBit i)

/-- The cells (row, column) of an entry, in ascending b. -/
def Geom.cells (g : Geom) (e : Nat) : List (Nat × Nat) :=
  (g.cellBits (e % 2 ^ 128)).map (fun b =>
    let m := g.ops.foldl (mapOp (bits e 159 128) (bits e 191 160) b) ⟨0, 0, 0, 0⟩
    (m.row, m.col))

/-- Uncovered cells in a row or a column. -/
def countRow (u : List (Nat × Nat)) (r : Nat) : Nat := (u.filter (fun p => p.1 = r)).length
def countCol (u : List (Nat × Nat)) (k : Nat) : Nat := (u.filter (fun p => p.2 = k)).length

/-- The line that a must-repair rule marks next: true for a column (R174). -/
def mustLine (g : Geom) (x : RaeCtx) (u : List (Nat × Nat)) : Option (Bool × Nat) :=
  match u.find? (fun p => decide (x.ownC + g.sc - x.shrC < countRow u p.1)) with
  | some p => some (false, p.1)
  | none => (u.find? (fun p => decide (x.ownR + g.sr - x.shrR < countCol u p.2))).map (fun p => (true, p.2))

/-- Take one spare for a marked line (R174). -/
def RaeCtx.takeSpare (x : RaeCtx) (g : Geom) (col : Bool) : RaeCtx :=
  if col then
    if 0 < x.ownC then { x with ownC := x.ownC - 1, mustC := x.mustC + 1 }
    else if x.shrC < g.sc then { x with shrC := x.shrC + 1, pend := true, mustC := x.mustC + 1 }
    else { x with verdict := 2, mustC := x.mustC + 1 }
  else
    if 0 < x.ownR then { x with ownR := x.ownR - 1, mustR := x.mustR + 1 }
    else if x.shrR < g.sr then { x with shrR := x.shrR + 1, pend := true, mustR := x.mustR + 1 }
    else { x with verdict := 2, mustR := x.mustR + 1 }

/-- Mark a line: store its marker and take its spare. -/
def Chip.raeMark (g : Geom) (d : Nat) (col : Bool) (a : Nat) (c : Chip) : Chip :=
  let x := c.ctx d
  let shared := if col then x.ownC = 0 ∧ x.shrC < g.sc else x.ownR = 0 ∧ x.shrR < g.sr
  let p := c.itemPut g d (a + 2 ^ 15 + b2n col * 2 ^ 16 + (if shared then 2 ^ 17 else 0))
  if p.1 then
    p.2.ctxUpd d (fun x => { x.takeSpare g col with uncov := (listUncov (p.2.items x)).length })
  else p.2

/-- Apply the must-repair rules until neither fires, or the domain is UNREPAIRABLE or OVERFLOW (R174). -/
def Chip.raeClose (g : Geom) (d : Nat) : Nat → Chip → Chip
  | 0, c => c
  | fuel + 1, c =>
    let x := c.ctx d
    if c.raeStopped ∨ x.verdict = 2 ∨ x.verdict = 3 then c
    else
      match mustLine g x (listUncov (c.items x)) with
      | none => c
      | some (col, a) => Chip.raeClose g d fuel (c.raeMark g d col a)

/-- Store one cell of a domain and apply the rules (R173). -/
def Chip.raeCell (g : Geom) (d : Nat) (p : Nat × Nat) (c : Chip) : Chip :=
  let c := c.listTouch d
  let x := c.ctx d
  let is := c.items x
  if c.raeStopped ∨ x.verdict = 2 ∨ x.verdict = 3 ∨ (listMarks false is).contains p.1 ∨ (listMarks true is).contains p.2 ∨
      (listCells is).contains p then c
  else
    let q := c.itemPut g d (cellItem p)
    if q.1 then Chip.raeClose g d 4097 (q.2.ctxUpd d (fun x => { x with uncov := x.uncov + 1 })) else q.2

/-- Process a taken fail entry (R173). -/
def Chip.raeProcess (e : Nat) (c : Chip) : Chip :=
  let d := bits e 211 192
  let gs := c.geoms
  match geomOf gs d with
  | none =>
    let first := !c.rae.noGeom.testBit d
    Chip.raiseIf first EV_RA_UNASSIGNED d
      { c.inc F.RAE_CNT_UNASSIGNED_COUNT with rae := { c.rae with noGeom := setBit c.rae.noGeom d } }
  | some g =>
    let c := c.ctxTouch d
    let x := c.ctx d
    let c := c.ctxPut d { x with seen := true, entries := min 0xFFFFFFFF (x.entries + 1),
                                 hits := min 0xFFFFFFFF (x.hits + bits e 247 216) }
    if c.raeStopped then c
    else if x.verdict = 2 ∨ x.verdict = 3 then c.inc F.RAE_CNT_DISCARDED_COUNT
    else c.forAll (g.cells e) (fun p => Chip.raeCell g d p)

/-! ## Records and the ring (R182) -/

/-- The ring is full. -/
def Chip.ringFull (c : Chip) : Bool :=
  (c.get F.RAE_OUT_WR_COUNT + 2 ^ 32 - c.get F.RAE_OUT_RD_COUNT) % 2 ^ 32 = 2 ^ c.get F.RAE_OUT_SIZE_LOG

/-- The address of record `n` in the ring. -/
def Chip.ringAddr (c : Chip) (n : Nat) : Nat := c.get F.RAE_OUT_BASE_ADDR + 16 * (n % 2 ^ c.get F.RAE_OUT_SIZE_LOG)

/-- An abort of the final phase takes effect (R187). -/
def Chip.raeAborted (c : Chip) : Chip :=
  let c := c.ctxFlush
  if c.raeStopped then c else Chip.raeReply ST_ABORTED dtNone [] (c.set F.RAE_STAT_STATE 4)

/-- Wait for ring space, or leave the wait (R182); with no record and no entry left to write a pending abort takes effect. -/
def Chip.ringPump (c : Chip) : Chip :=
  match c.rae.queue with
  | [] => if c.rae.abort && c.get F.RAE_STAT_STATE = 2 && c.rae.sends.isEmpty then c.raeAborted else c
  | _ :: _ =>
    if c.rae.writing then c
    else if c.ringFull then c.set F.RAE_STAT_RING_WAIT 1
    else Chip.set F.RAE_STAT_RING_WAIT 0 { c with rae := { c.rae with waited := false } }

/-- The RAE's next request at its NI, in class BULK: the oldest record (R182), else half of the oldest entry for the
destination's import window (R185). `none` where there is none, the ring is full, or the NI withholds acceptance. -/
def Chip.raeIssue (c : Chip) : Option Chip :=
  let ep := c.get F.RAE_STAT_EPOCH
  let send := fun (a : Nat) (dev : Option Nat) (v : Nat) (record : Bool) => c.niIssue 44 1 2 a dev 1 0 [0xFFFF] [v] (.rae record ep)
  match c.rae.queue, c.rae.sends with
  | e :: _, _ =>
    if c.rae.writing || c.ringFull then none
    else
      (send (c.ringAddr (c.get F.RAE_OUT_WR_COUNT)) (if c.is F.RAE_OUT_BASE_REMOTE then some (c.get F.RAE_OUT_BASE_DEVICE) else none) e
        true).map (fun c => { c with rae := { c.rae with writing := true } })
  | [], e :: es =>
    let a := 0x20000501000 + 0x20 * c.rae.dslot
    if c.rae.half then
      (send (a + 16) (some c.rae.dest) (e / 2 ^ 128) false).map (fun c =>
        Chip.ringPump { c with rae := { c.rae with sends := es, half := false } })
    else (send a (some c.rae.dest) (e % 2 ^ 128) false).map (fun c => { c with rae := { c.rae with half := true } })
  | [], [] => none

/-- The answer to a record write of the session with this epoch (R182). -/
def Chip.raeRecord (ep : Nat) (r : Rsp) (c : Chip) : Chip :=
  if !c.rae.writing || ep ≠ c.get F.RAE_STAT_EPOCH then c
  else if r.code ≠ 0 then c.raeAnswer r
  else
    Chip.ringPump (Chip.set F.RAE_OUT_WR_COUNT (c.get F.RAE_OUT_WR_COUNT + 1)
      { c with rae := { c.rae with queue := c.rae.queue.drop 1, writing := false } })

/-- The answer to an import write of a source in the session with this epoch (R185). -/
def Chip.raeImported (ep : Nat) (r : Rsp) (c : Chip) : Chip :=
  if !c.is F.RAE_STAT_SOURCE || ep ≠ c.get F.RAE_STAT_EPOCH || c.raeStopped then c
  else if r.code = 0 then { c with rae := { c.rae with imports := c.rae.imports - 1 } }
  else c.raeFault 3 r

/-- RAE_RING_WAIT_LONG: once per wait. -/
def Chip.ringLong (c : Chip) : Chip :=
  if c.is F.RAE_STAT_RING_WAIT && !c.rae.waited then
    Chip.raise EV_RA_RING_FULL (c.get F.RAE_OUT_WR_COUNT) { c with rae := { c.rae with waited := true } }
  else c

/-! ## The search (R178) -/

/-- A search in progress: the best line set and its cost, nodes visited, the limit met, the search stopped. -/
structure Search where
  best    : Option (List (Bool × Nat) × Nat)
  nodes   : Nat
  limited : Bool
  stop    : Bool

/-- Whether a set of lines covers a cell. -/
def covers (s : List (Bool × Nat)) (p : Nat × Nat) : Bool := s.contains (false, p.1) || s.contains (true, p.2)

/-- The procedure visit of R178 with the spare rows and columns left; `fuel` is more than their sum. -/
def visit (g : Geom) (u : List (Nat × Nat)) : Nat → Nat → Nat → List (Bool × Nat) → Nat → Search → Search
  | 0, _, _, _, _, t => t
  | fuel + 1, rl, cl, s, cost, t =>
    if t.stop then t
    else if t.nodes = g.limit then { t with limited := true, stop := true }
    else
      let t := { t with nodes := t.nodes + 1 }
      match u.find? (fun p => !covers s p) with
      | none =>
        let better :=
          match t.best with
          | none => true
          | some b => decide (cost < b.2)
        let t := if better then { t with best := some (s, cost) } else t
        if g.policy.testBit 1 then { t with stop := true } else t
      | some p =>
        let pruned :=
          match t.best with
          | none => false
          | some b => decide (b.2 ≤ cost + min g.costR g.costC)
        if pruned then t
        else
          let row := fun (t : Search) => if rl = 0 then t else visit g u fuel (rl - 1) cl ((false, p.1) :: s) (cost + g.costR) t
          let col := fun (t : Search) => if cl = 0 then t else visit g u fuel rl (cl - 1) ((true, p.2) :: s) (cost + g.costC) t
          if g.policy.testBit 0 then row (col t) else col (row t)

/-- Cells in ascending (row, column). -/
def sortCells (u : List (Nat × Nat)) : List (Nat × Nat) :=
  u.mergeSort (fun a b => decide (a.1 < b.1) || (a.1 = b.1 && decide (a.2 ≤ b.2)))

/-- The end of a pass: verdict, `OPTIMAL`, nodes and the lines found (R178). -/
def runPass (g : Geom) (u : List (Nat × Nat)) (rows cols : Nat) : Nat × Bool × Nat × List (Bool × Nat) :=
  let t := visit g (sortCells u) (rows + cols + 1) rows cols [] 0 { best := none, nodes := 0, limited := false, stop := false }
  match t.best with
  | some b => (1, !t.limited && !g.policy.testBit 1, t.nodes, b.1)
  | none => (if t.limited then 4 else 2, false, t.nodes, [])

/-! ## Deciding (R177 to R183) -/

/-- Lines found for decided members. -/
abbrev Found := List (Nat × List (Bool × Nat))

/-- One pass for a domain with these spares: the nodes accumulate, and with `final` or a covering the result is the
verdict. -/
def Chip.raePass (g : Geom) (d rows cols : Nat) (last : Bool) (a : Found × Chip) : Found × Chip :=
  let c := a.2.listTouch d
  let x := c.ctx d
  let r := runPass g (listUncov (c.items x)) rows cols
  let x := { x with nodes := min 0xFFFFFFFF (x.nodes + r.2.2.1) }
  if r.1 = 1 then ((d, r.2.2.2) :: a.1, c.ctxPut d { x with verdict := 1, optimal := r.2.1 })
  else (a.1, c.ctxPut d (if last then { x with verdict := r.1 } else x))

/-- A domain without uncovered cells or claims is REPAIRABLE (R178). -/
def Chip.raeEasy (d : Nat) (c : Chip) : Chip :=
  c.ctxUpd d (fun x => if x.verdict = 0 ∧ x.uncov = 0 ∧ !x.pend then { x with verdict := 1, optimal := true, nodes := 0 } else x)

/-- The spare lines of a decided REPAIRABLE domain: own and shared lines of a kind, each ascending (R181). -/
def spareLines (own must : Nat) (marks found : List Nat) : List Nat × List Nat :=
  let ms := marks.mergeSort (fun a b => decide (a ≤ b))
  let k := min must own
  let fs := found.mergeSort (fun a b => decide (a ≤ b))
  let n := own - k
  ((ms.take k ++ fs.take n).mergeSort (fun a b => decide (a ≤ b)), (ms.drop k ++ fs.drop n).mergeSort (fun a b => decide (a ≤ b)))

/-- The found lines of a kind. -/
def foundLines (col : Bool) (fs : List (Bool × Nat)) : List Nat := (fs.filter (fun l => l.1 = col)).map (fun l => l.2)

/-- Round 2 of a group for one member (R180): its claims and the lines it shares come from the pool of the leader. -/
def Chip.raeRound2 (g : Geom) (lead d : Nat) (a : Found × Chip) : Found × Chip :=
  let c := (a.2.ctxTouch lead).ctxTouch d
  let x := c.ctx d
  if c.raeStopped then (a.1, c)
  else if x.verdict ≠ 0 then (a.1, c)
  else
    let l := c.ctx lead
    if l.poolR < x.shrR ∨ l.poolC < x.shrC then (a.1, c.ctxPut d { x with verdict := 2 })
    else
      let a := Chip.raePass g d (x.ownR + (l.poolR - x.shrR)) (x.ownC + (l.poolC - x.shrC)) true (a.1, c)
      let c := a.2
      if (c.ctx d).verdict = 1 then
        let fs := ((a.1.find? (fun e => e.1 = d)).map (fun e => e.2)).getD []
        let r := x.shrR + ((foundLines false fs).length - x.ownR)
        let k := x.shrC + ((foundLines true fs).length - x.ownC)
        let c := c.ctxUpd d (fun x => { x with shrR := r, shrC := k })
        (a.1, c.ctxUpd lead (fun l => { l with poolR := l.poolR - r, poolC := l.poolC - k }))
      else a

/-- A repair record (Table 6.8). -/
def repairRec (d kind seq idx addr : Nat) : Nat :=
  d + kind * 2 ^ 20 + (seq % 2 ^ 32) * 2 ^ 32 + addr * 2 ^ 64 + idx * 2 ^ 80

/-- A verdict record (Table 6.8). -/
def verdictRec (d seq : Nat) (x : RaeCtx) (or' oc sr sc : Nat) : Nat :=
  d + 15 * 2 ^ 20 + (seq % 2 ^ 32) * 2 ^ 32 + x.verdict * 2 ^ 64 + x.cause * 2 ^ 72 + b2n x.optimal * 2 ^ 76 +
  b2n x.lost * 2 ^ 77 + or' * 2 ^ 78 + oc * 2 ^ 83 + sr * 2 ^ 88 + sc * 2 ^ 93 + (min 0x1FFFFF x.nodes) * 2 ^ 98

/-- The number of the next record. -/
def Chip.nextSeq (c : Chip) : Nat := c.get F.RAE_OUT_WR_COUNT + c.rae.queue.length

/-- Queue one repair record for each line, with rising spare indices from `i`. -/
def Chip.queueLines (d kind : Nat) : Nat → List Nat → Chip → Chip
  | _, [], c => c
  | i, a :: as, c =>
    Chip.queueLines d kind (i + 1) as { c with rae := { c.rae with queue := c.rae.queue ++ [repairRec d kind c.nextSeq i a] } }

/-- Count a verdict record and its LOST bit (Table 6.12). -/
def Rae.count (r : Rae) (x : RaeCtx) : Rae :=
  { r with counts := r.counts.modify (x.verdict - 1) (· + 1), losts := r.losts + b2n x.lost }

/-- Queue the records of a domain; shared indices continue from those used (R181, R183). -/
def Chip.raeRecords (g : Geom) (fs : Found) (d : Nat) (a : (Nat × Nat) × Chip) : (Nat × Nat) × Chip :=
  let c := a.2.listTouch d
  let x := c.ctx d
  if c.raeStopped then (a.1, c)
  else if x.seen || x.lost then
    let x := { x with decided := true }
    if x.verdict = 1 then
      let is := c.items x
      let f := ((fs.find? (fun e => e.1 = d)).map (fun e => e.2)).getD []
      let rows := spareLines g.ownR x.mustR (listMarks false is) (foundLines false f)
      let cols := spareLines g.ownC x.mustC (listMarks true is) (foundLines true f)
      let c := c.ctxPut d { x with ownR := g.ownR - rows.1.length, ownC := g.ownC - cols.1.length }
      let c := Chip.queueLines d 1 0 rows.1 c
      let c := Chip.queueLines d 2 0 cols.1 c
      let c := Chip.queueLines d 3 a.1.1 rows.2 c
      let c := Chip.queueLines d 4 a.1.2 cols.2 c
      let v := verdictRec d c.nextSeq x rows.1.length cols.1.length rows.2.length cols.2.length
      ((a.1.1 + rows.2.length, a.1.2 + cols.2.length),
        { c with rae := { c.rae.count x with queue := c.rae.queue ++ [v] } })
    else
      let c := c.ctxPut d x
      (a.1, { c with rae := { c.rae.count x with queue := c.rae.queue ++ [verdictRec d c.nextSeq x 0 0 0 0] } })
  else if c.rae.clean then
    let x := { x with verdict := 1, optimal := true, nodes := 0, cause := 0 }
    (a.1, { c with rae := { c.rae.count x with queue := c.rae.queue ++ [verdictRec d c.nextSeq x 0 0 0 0] } })
  else (a.1, c)

/-- Decide the unit of domains from `d` on: a group, or one domain (R179, R180). A fault drops what it has queued. -/
def Chip.raeDecideUnit (g : Geom) (d : Nat) (c : Chip) : Chip :=
  let ms := (List.range (2 ^ g.s)).map (fun i => d + i)
  let c := c.forAll ms (fun m => Chip.ctxTouch m)
  let act := ms.filter (fun m => (c.ctx m).seen || (c.ctx m).lost)
  let c := c.set F.RAE_STAT_DOM_CUR d
  let c := c.forAll act (fun m => Chip.raeEasy m)
  let open1 := fun (c : Chip) (m : Nat) => (c.ctx m).verdict = 0
  let (fs, c) :=
    if g.s = 0 then
      act.foldl (fun (a : Found × Chip) m =>
        if open1 a.2 m then Chip.raePass g m (a.2.ctx m).ownR (a.2.ctx m).ownC true a else a) ([], c)
    else
      let c := if act = [] then c else c.ctxUpd d (fun l => { l with poolR := g.sr, poolC := g.sc })
      let a := act.foldl (fun (a : Found × Chip) m =>
        if open1 a.2 m && !(a.2.ctx m).pend then Chip.raePass g m (a.2.ctx m).ownR (a.2.ctx m).ownC false a else a) ([], c)
      act.foldl (fun a m => Chip.raeRound2 g d m a) a
  let c := (ms.foldl (fun a m => Chip.raeRecords g fs m a) ((0, 0), c)).2
  if c.raeStopped then { c with rae := c.rae.quiet } else { c with rae := { c.rae with cursor := d + 2 ^ g.s } }

/-- Whether a domain receives a record in this session. -/
def Chip.raeWanted (c : Chip) (d : Nat) : Bool := c.rae.clean || (c.ctx d).seen || (c.ctx d).lost

/-- The next unit from a domain on: its geometry and leader; domains without a geometry are stepped over. The scan reads the
contexts of the domains it passes (R166); none is found in FAULT. -/
def Chip.raeNextUnit (gs : List Geom) : Nat → Nat → Chip → Option (Geom × Nat) × Chip
  | 0, _, c => (none, c)
  | fuel + 1, d, c =>
    if 1048576 ≤ d || c.raeStopped then (none, c)
    else
      match geomOf gs d with
      | some g =>
        let ms := (List.range (2 ^ g.s)).map (fun i => d + i)
        let c := c.forAll ms (fun m => Chip.ctxTouch m)
        if c.raeStopped then (none, c)
        else if ms.any c.raeWanted then (some (g, d), c)
        else Chip.raeNextUnit gs fuel (d + 2 ^ g.s) c
      | none =>
        match ((gs.flatMap (fun (g : Geom) => g.ranges)).map (fun r => r.1)).filter (fun lo => decide (d < lo)) with
        | [] => (none, c)
        | l :: ls => Chip.raeNextUnit gs fuel (ls.foldl min l) c

/-- The set bits of a mask, ascending. -/
def setBits (v : Nat) : List Nat := if v = 0 then [] else (List.range (Nat.log2 v + 1)).filter (fun i => v.testBit i)

/-- Cause LOST for a domain (R176): UNREPAIRABLE and OVERFLOW stay. -/
def Chip.raeLose (d : Nat) (c : Chip) : Chip :=
  (c.ctxUpd d (fun x => { x with lost := true })).ctxUpd d (fun x => if x.verdict = 0 then { x with verdict := 3, cause := 3 } else x)

/-- Step 4 of Table 6.7: the lost-domain map and the imported lost markers. -/
def Chip.raeStep4 (c : Chip) : Chip :=
  if c.rae.lostIn then c
  else
    let gs := c.geoms
    let c := c.forAll ((setBits (c.cap.lost ||| c.rae.markers)).filter (fun d => (geomOf gs d).isSome)) (fun d => Chip.raeLose d)
    { c with rae := { c.rae with lostIn := true } }

/-- Every listed source has ended or has been given up (Table 6.7, step 3). -/
def Chip.raeSourcesIn (c : Chip) : Bool :=
  (List.range 16).all (fun s => !c.is (F.RAE_SRC_LISTED s) || c.is (F.RAE_SRC_END_SEEN s) || c.rae.gone.testBit s)

/-- In FINAL, with steps 2 and 3 done and no abort waiting. -/
def Chip.raeDeciding (c : Chip) : Bool :=
  c.get F.RAE_STAT_STATE = 2 && c.rae.drained && c.raeSourcesIn && !c.rae.abort

/-- RAE_DECIDE_DOMAIN: decide the next domain or group and queue its records. -/
def Chip.raeDecide (c : Chip) : Chip :=
  if c.raeDeciding && !c.is F.RAE_STAT_SOURCE && c.rae.queue = [] then
    let c := c.raeStep4
    match c.raeNextUnit c.geoms 1048577 c.rae.cursor with
    | (none, c) => { c with rae := { c.rae with cursor := 1048576 } }
    | (some (g, d), c) => (c.raeDecideUnit g d).ringPump
  else c

/-! ## Taking entries (R150, R172, R185) -/

/-- A source is to write an entry to the destination's import window, in two halves. -/
def Chip.raeSend (e : Nat) (c : Chip) : Chip :=
  { c with rae := { c.rae with sends := c.rae.sends ++ [e], imports := c.rae.imports + 2 } }

/-- The FAT is empty in FINAL: step 2 is done; a source sends its lost markers and its end marker (R185). -/
def Chip.raeDrained (c : Chip) : Chip :=
  if c.get F.RAE_STAT_STATE = 2 && !c.rae.drained && c.fatOcc = 0 then
    let c := { c with rae := { c.rae with drained := true } }
    if c.is F.RAE_STAT_SOURCE then
      let c := c.forAll (setBits c.cap.lost) (fun d => Chip.raeSend (d * 2 ^ 192 + 2 ^ 213))
      Chip.raeSend (c.srcId * 2 ^ 192 + 2 ^ 214) { c with rae := { c.rae with ended := true } }
    else c
  else c

/-- The next valid entry from the scan index on, wrapping (R172). -/
def Chip.raeScan (c : Chip) : Option Nat :=
  let ks := c.cap.fat.map (fun e => e.1)
  match ks.find? (fun j => decide (c.rae.scan ≤ j)) with
  | some j => some j
  | none => ks.head?

/-- RAE_TAKE: take one entry (R172, R173); a source sends it on (R185). -/
def Chip.raeTake (c : Chip) : Chip :=
  let st := c.get F.RAE_STAT_STATE
  if st = 1 || (st = 2 && !c.rae.drained && !c.rae.abort) then
    match c.raeScan with
    | none => c.raeDrained
    | some j =>
      let e := c.fatAt j
      let c := (c.fatTake j).inc F.RAE_CNT_TAKES_COUNT
      let c := { c with rae := { c.rae with scan := (j + 1) % 131072 } }
      (if c.is F.RAE_STAT_SOURCE then c.raeSend e else c.raeProcess e).raeDrained
  else c

/-- Take the 256-bit word of an import by its type (R185). -/
def Chip.raeImportWord (s e : Nat) (c : Chip) : Rsp × Chip :=
  let t := bits e 215 213
  if t = 0 then (rspOk, c.raeProcess e)
  else if t = 1 then (rspOk, { c with rae := { c.rae with markers := setBit c.rae.markers (bits e 211 192) } })
  else if t = 2 then (rspOk, c.set (F.RAE_SRC_END_SEEN s) 1)
  else (rspReservedCode, c)

/-- RAE_IMPORT_WRITE: half an entry is written to an import window (Table 6.9, R185). -/
def Chip.raeImport (s : Nat) (upper : Bool) (v : Nat) (c : Chip) : Rsp × Chip :=
  if !c.raeActive || !c.is (F.RAE_SRC_LISTED s) then (rspState, c)
  else if !upper then (rspOk, { c with rae := { c.rae with impLo := tput 0 s v c.rae.impLo } })
  else Chip.raeImportWord s (tget 0 s c.rae.impLo + v * 2 ^ 128) (c.inc F.RAE_CNT_TAKES_COUNT)

/-- RAE_SRC_TIMEOUT of a listed source without an end marker: cause LOST everywhere (R185). -/
def Chip.raeSrcTimeout (s : Nat) (c : Chip) : Chip :=
  if c.get F.RAE_STAT_STATE = 2 && c.rae.drained && !c.rae.abort && c.is (F.RAE_SRC_LISTED s) && !c.is (F.RAE_SRC_END_SEEN s) &&
      !c.rae.gone.testBit s then
    let doms := c.geoms.flatMap (fun (g : Geom) => g.ranges.flatMap (fun r => (List.range (r.2 + 1 - r.1)).map (fun i => r.1 + i)))
    let c := c.forAll doms (fun d c => if (c.ctx d).verdict = 2 then c else c.raeLose d)
    Chip.raise EV_RA_SOURCE_LOST (c.get (F.RAE_SRC_DEV s)) { c with rae := { c.rae with gone := setBit c.rae.gone s } }
  else c

/-! ## Sessions (R167, R171, R177, R185 to R188) -/

/-- Open the session that a `CH_RA_BEGIN` payload asks for, at an epoch. -/
def Chip.raeOpen (pl : List Byte) (epoch : Nat) (c : Chip) : Chip :=
  let src := decide (pb pl 0 = 1)
  let r := c.rae
  let c := { c with rae := { Rae.init with words := r.words, zeroed := true, scan := r.scan, dest := pf pl 2 2, dslot := pb pl 4 } }
  let c := ((((c.set F.RAE_STAT_EPOCH epoch).set F.RAE_STAT_STATE 1).set F.RAE_STAT_SOURCE (b2n src)).set F.RAE_OUT_WR_COUNT 0).set
    F.RAE_OUT_RD_COUNT 0
  let c := ((c.set F.RAE_POOL_USED_BLOCKS 0).set F.RAE_STAT_CACHE_USED 0).set F.RAE_STAT_DOM_CUR 0
  c.forAll (List.range 16) (fun s c =>
    let on := !src && decide (s < pb pl 1)
    ((c.set (F.RAE_SRC_DEV s) (if on then pf pl (8 + 2 * s) 2 else 0)).set (F.RAE_SRC_LISTED s) (b2n on)).set (F.RAE_SRC_END_SEEN s) 0)

/-- What the controller answers to the zeroing of the context area: the area meets every bank. -/
def Chip.zeroRefusal (c : Chip) : Option Rsp :=
  let b := c.get F.RAE_CTX_BASE_ADDR
  if c.inLib b (2 ^ 26) then some rspLocked else (List.range 256).findSome? (fun i => c.drRefusal (b + 1024 * i))

/-- RAE_ZEROING_DONE: the context area is zero, and the session begins at epoch 1; or a write of it was refused (R167). -/
def Chip.raeZeroed (c : Chip) : Chip :=
  match c.rae.zeroing with
  | none => c
  | some id =>
    match c.zeroRefusal with
    | some r => c.raeAnswer r
    | none =>
      let b := c.get F.RAE_CTX_BASE_ADDR
      let pl := ((c.slot? id).map (fun (s : Slot) => s.payload)).getD []
      let bad := c.dr.bad.filter (fun g => decide (g < b) || decide (b + 2 ^ 26 ≤ g))
      Chip.ok id [] (Chip.raeOpen pl 1 { c with mem := memZero b (b + 2 ^ 26) c.mem, dr := { c.dr with bad := bad } })

/-- RAE_FINAL_DONE: step 6 and 7 of Table 6.7; a source is done when its end marker is answered (R185). -/
def Chip.raeFinalDone (c : Chip) : Chip :=
  if !c.raeDeciding || c.rae.queue ≠ [] then c
  else if c.is F.RAE_STAT_SOURCE then
    if c.rae.ended && c.rae.imports = 0 then
      Chip.raeReply ST_OK dtNone (natLe 24 0) ((c.set F.RAE_STAT_STATE 3).raise EV_RA_DONE 0)
    else c
  else
    let c := c.raeStep4
    match c.raeNextUnit c.geoms 1048577 c.rae.cursor with
    | (some _, c) => c
    | (none, c) =>
      let c := if c.raeStopped then c else c.ctxFlush
      if c.raeStopped then c
      else
        let c := c.set F.RAE_STAT_STATE 3
        let n := c.get F.RAE_OUT_WR_COUNT
        let c := c.raise EV_RA_DONE n
        c.raeReply ST_OK (if c.rae.gone = 0 then dtNone else 0x65)
          (c.rae.counts.flatMap (natLe 4) ++ natLe 4 n ++ natLe 4 c.rae.losts)

/-- A `CH_SYS_ABORT` of the running final (R187). -/
def Chip.raeAbort (c : Chip) : Chip :=
  if c.get F.RAE_STAT_STATE = 2 then Chip.ringPump { c with rae := { c.rae with abort := true } } else c

/-! ## Registers and commands (R189, R190) -/

/-- A write of a register that changes only outside ONLINE and FINAL (R189): the value's reserved low bits read as zero. -/
def Chip.raeWrite (off v : Nat) (c : Chip) : Rsp × Chip :=
  if c.raeActive then (rspState, c)
  else if off = 0x500008 then (rspOk, c.set F.RAE_CTX_BASE_ADDR (bits v 47 26 * 2 ^ 26))
  else if off = 0x500010 then (rspOk, c.set F.RAE_POOL_BASE_ADDR (bits v 47 6 * 64))
  else if off = 0x500018 then (rspOk, c.set F.RAE_POOL_BLOCKS_BLOCKS v)
  else if off = 0x500028 then
    (rspOk, ((c.set F.RAE_OUT_BASE_ADDR (bits v 47 4 * 16)).set F.RAE_OUT_BASE_DEVICE (bits v 59 48)).set F.RAE_OUT_BASE_REMOTE (bit v 60))
  else if bits v 4 0 < 6 ∨ 24 < bits v 4 0 then (rspRange, c)
  else (rspOk, c.set F.RAE_OUT_SIZE_LOG v)

def dtEnginesActive : Nat := 0x60
def dtRecipeError : Nat := 0x61
def dtNoRecipe : Nat := 0x62
def dtSessionState : Nat := 0x63
def dtAreaRange : Nat := 0x64

/-- The end of DRAM (Table 1.12). -/
def dramTop : Nat := 0x200000000

/-- Whether a byte range lies wholly in DRAM, or wholly within one region's scratchpad. -/
def inDram (r : Nat × Nat) : Bool := decide (r.2 ≤ dramTop)
def inSpad (r : Nat × Nat) : Bool :=
  decide (0x10000000000 ≤ r.1) && decide (r.2 ≤ 0x10000000000 + 192 * 2 ^ 20) && r.1 / 2 ^ 20 = (r.2 - 1) / 2 ^ 20

/-- The areas of a session are refused with AREA_RANGE (Table 6.12). -/
def Chip.raeAreaBad (c : Chip) : Bool :=
  let ctx := (c.get F.RAE_CTX_BASE_ADDR, c.get F.RAE_CTX_BASE_ADDR + 2 ^ 26)
  let pool := (c.get F.RAE_POOL_BASE_ADDR, c.get F.RAE_POOL_BASE_ADDR + 64 * c.get F.RAE_POOL_BLOCKS_BLOCKS)
  let ring := (c.get F.RAE_OUT_BASE_ADDR, c.get F.RAE_OUT_BASE_ADDR + 16 * 2 ^ c.get F.RAE_OUT_SIZE_LOG)
  let local' := !c.is F.RAE_OUT_BASE_REMOTE
  let inD := local' && inDram ring
  !inDram ctx || !inDram pool || overlaps ctx pool && decide (pool.1 < pool.2) || (local' && !inDram ring && !inSpad ring) ||
    (inD && (overlaps ring ctx || (overlaps ring pool && decide (pool.1 < pool.2))))

def cmdRaStatus : Cmd := Cmd.plain 0x05 0x10 live (fun _ pl => lenIs 0 pl) (fun id _ c =>
  c.ok id ([c.regWord 0x500000, c.get F.RAE_POOL_USED_BLOCKS, c.get F.RAE_OUT_WR_COUNT, c.get F.RAE_CNT_TAKES_COUNT,
    c.get F.RAE_CNT_DISCARDED_COUNT].flatMap (natLe 8)))

def cmdRaRecipeLoad : Cmd := Cmd.plain 0x05 0x11 live
  (fun _ pl =>
    if pl.length < 8 then some (ST_BAD_LENGTH, dtNone)
    else orElse (param (decide (1 ≤ pf pl 2 2) && decide (pf pl 2 2 ≤ 1022) && pf pl 4 4 = 0 && decide (pf pl 0 2 + pf pl 2 2 ≤ 4096)))
      (lenIs (8 + 4 * pf pl 2 2) pl))
  (fun id pl c =>
    if c.raeActive then c.fail id ST_BAD_STATE dtSessionState
    else
      let c := c.forAll (List.range (pf pl 2 2)) (fun i =>
        Chip.set (F.RAE_RECIPE_W ((pf pl 0 2 + i) / 2) ((pf pl 0 2 + i) % 2)) (pf pl (8 + 4 * i) 4))
      (c.set F.RAE_STAT_RECIPE_VALID 0).ok id [])

def cmdRaRecipeCommit : Cmd := Cmd.plain 0x05 0x12 live
  (lenParam 4 (fun pl => decide (1 ≤ pf pl 0 4) && decide (pf pl 0 4 ≤ 4096)))
  (fun id pl c =>
    if c.raeActive then c.fail id ST_BAD_STATE dtSessionState
    else
      match c.recipeTry (pf pl 0 4) with
      | .error i => c.finish id ST_BAD_PARAM dtRecipeError (natLe 4 i)
      | .ok _ => Chip.ok id [] (Chip.set F.RAE_STAT_RECIPE_VALID 1 { c with rae := { c.rae with words := pf pl 0 4 } }))

def cmdRaBegin : Cmd := Cmd.plain 0x05 0x13 live
  (fun _ pl =>
    if pl.length < 8 then some (ST_BAD_LENGTH, dtNone)
    else orElse (param (decide (pb pl 0 < 2) && pf pl 5 3 = 0 &&
        (if pb pl 0 = 0 then decide (pb pl 1 ≤ 16) else pb pl 1 = 0 && decide (pf pl 2 2 < 4096) && decide (pb pl 4 < 16)) &&
        (List.range (pb pl 1)).all (fun s => decide (pf pl (8 + 2 * s) 2 < 4096))))
      (lenIs (8 + 2 * pb pl 1) pl))
  (fun id pl c =>
    let st := c.get F.RAE_STAT_STATE
    if c.raeActive || st = 5 || c.rae.zeroing ≠ none then c.fail id ST_BAD_STATE dtSessionState
    else if pb pl 0 = 0 && !c.is F.RAE_STAT_RECIPE_VALID then c.fail id ST_BAD_STATE dtNoRecipe
    else if c.raeAreaBad then c.fail id ST_BAD_PARAM dtAreaRange
    else
      let e := c.get F.RAE_STAT_EPOCH
      if !c.rae.zeroed || e = 255 then
        Chip.interim id ST_ACCEPTED dtNone [] { c with rae := { c.rae with zeroing := some id } }
      else (Chip.raeOpen pl (e + 1) c).ok id [])

def cmdRaFinal : Cmd := Cmd.plain 0x05 0x14 live (lenParam 4 (fun pl => decide (pf pl 0 4 < 2)))
  (fun id pl c =>
    if c.get F.RAE_STAT_STATE ≠ 1 then c.fail id ST_BAD_STATE dtSessionState
    else if engines.any (fun k => c.is (F.CAP_PE_CTL_FAT_EN k) && !c.drained k) then c.fail id ST_BAD_STATE dtEnginesActive
    else
      let c := c.interim id ST_ACCEPTED dtNone []
      Chip.raeDrained (Chip.set F.RAE_STAT_STATE 2
        { c with rae := { c.rae with final := some id, clean := (pb pl 0).testBit 0, abort := false, cursor := 0 } }))

def cmdRaEnd : Cmd := Cmd.plain 0x05 0x15 live (fun _ pl => lenIs 0 pl) (fun id _ c =>
  let c := c.raeReply ST_ABORTED dtNone []
  let c := { c with rae := c.rae.quiet }
  (((c.set F.RAE_STAT_STATE 0).set F.RAE_STAT_SOURCE 0).set F.RAE_STAT_RING_WAIT 0).ok id [])

/-- A context as `CH_RA_CTX_READ` returns it. -/
def Chip.ctxShown (c : Chip) (d : Nat) : List Byte :=
  if c.get F.RAE_STAT_EPOCH = 0 then memRead (c.ctxAddr d) 64 c.mem else (c.ctx d).toBytes

/-- Read `n` contexts from `d` on through the cache: the first answer that is not RSP_OK ends the read, and the RAE enters
FAULT (R166, R186). -/
def Chip.ctxReads : Nat → Nat → List Byte → Chip → (Rsp × List Byte) × Chip
  | 0, _, got, c => ((rspOk, got), c)
  | n + 1, d, got, c =>
    let p := c.ctxFetch d
    if p.1 = rspOk then Chip.ctxReads n (d + 1) (got ++ p.2.ctxShown d) p.2 else ((p.1, []), p.2)

def cmdRaCtxRead : Cmd := Cmd.plain 0x05 0x16 live
  (lenParam 8 (fun pl => decide (1 ≤ pf pl 4 2) && decide (pf pl 4 2 ≤ 63) && pf pl 6 2 = 0 &&
    decide (pf pl 0 4 + pf pl 4 2 ≤ 1048576)))
  (fun id pl c =>
    let p := c.ctxReads (pf pl 4 2) (pf pl 0 4) []
    if p.1.1 = rspOk then p.2.ok id p.1.2 else p.2.fail id p.1.1.status.1 p.1.1.status.2)

/-- Read one record of a ring on this device: from DRAM, or through port B of its bank. A bank that would make it wait is read
as it stands. -/
def Chip.recordRead (a : Nat) (c : Chip) : (Rsp × List Byte) × Chip :=
  if inDram (a, a + 16) then
    match c.rowRefusal a 16 with
    | some r => ((r, []), c)
    | none => (((c.rowReads a 16).1, memRead a 16 c.mem), (c.rowReads a 16).2)
  else if inSpad (a, a + 16) then
    let r := (a - 0x10000000000) / 2 ^ 20
    let w := (a - 0x10000000000) % 2 ^ 20 / 16
    match c.portB r w .read 0 0 0 false with
    | (.wait, c) => ((rspOk, natLe 16 (c.spWord r w)), c)
    | (.done q v, c) => ((q, natLe 16 v), c)
  else ((rspDecerr, []), c)

/-- Read records one after the other up to the first failure. -/
def Chip.recordReads : List Nat → List Byte → Chip → (Rsp × List Byte) × Chip
  | [], got, c => ((rspOk, got), c)
  | a :: as, got, c =>
    let p := c.recordRead a
    if p.1.1 = rspOk then Chip.recordReads as (got ++ p.1.2) p.2 else ((p.1.1, []), p.2)

def cmdRaRingRead : Cmd := Cmd.plain 0x05 0x17 live
  (lenParam 8 (fun pl => decide (1 ≤ pf pl 4 2) && decide (pf pl 4 2 ≤ 255) && pf pl 6 2 = 0))
  (fun id pl c =>
    if c.is F.RAE_OUT_BASE_REMOTE then c.fail id ST_BAD_STATE dtNone
    else
      let p := c.recordReads ((List.range (pf pl 4 2)).map (fun i => c.ringAddr (pf pl 0 4 + i))) []
      if p.1.1 = rspOk then p.2.ok id p.1.2 else p.2.fail id p.1.1.status.1 p.1.1.status.2)

/-! ## The commands -/

def execRaeTake (s : State) := runChip Chip.raeTake s
def execRaeImportWrite (slot : Fin 16) (upper : Bool) (data : Wide) (s : State) :=
  runChip (fun c => answerWrite (c.raeImport slot upper data.toNat)) s
def execRaeSrcTimeout (slot : Fin 16) (s : State) := runChip (Chip.raeSrcTimeout slot) s
def execRaeDecideDomain (s : State) := runChip Chip.raeDecide s
def execRaeRingWaitLong (s : State) := runChip Chip.ringLong s
def execRaeMemoryResponse (rsp : Fin 6) (detail : Byte) (uncorr : Bool) (s : State) :=
  runChip (Chip.raeMemory ⟨rsp, detail.toNat⟩ uncorr) s
def execRaeZeroingDone (s : State) := runChip Chip.raeZeroed s
def execRaeFinalDone (s : State) := runChip Chip.raeFinalDone s
def execRaeCntClr (data : Word) (s : State) :=
  runChip (fun c => (c.clearBits [F.RAE_CNT_TAKES_COUNT, F.RAE_CNT_UNASSIGNED_COUNT, F.RAE_CNT_DISCARDED_COUNT] data.toNat).answer rspOk 0) s
def execRaeOutRdWrite (data : Word) (s : State) :=
  runChip (fun c => (c.set F.RAE_OUT_RD_COUNT data.toNat).ringPump.answer rspOk 0) s
def execChRaStatus (p : Pkt) (s : State) := runAon (Chip.command cmdRaStatus p) s
def execChRaRecipeLoad (p : Pkt) (s : State) := runAon (Chip.command cmdRaRecipeLoad p) s
def execChRaRecipeCommit (p : Pkt) (s : State) := runAon (Chip.command cmdRaRecipeCommit p) s
def execChRaBegin (p : Pkt) (s : State) := runAon (Chip.command cmdRaBegin p) s
def execChRaFinal (p : Pkt) (s : State) := runAon (Chip.command cmdRaFinal p) s
def execChRaEnd (p : Pkt) (s : State) := runAon (Chip.command cmdRaEnd p) s
def execChRaCtxRead (p : Pkt) (s : State) := runAon (Chip.command cmdRaCtxRead p) s
def execChRaRingRead (p : Pkt) (s : State) := runAon (Chip.command cmdRaRingRead p) s

end Sys2Proof.Machine
end

