-- ==== Sys2Proof/Machine/Security.lean ====
section
/-! DEFINITION. Lifecycle, keys, signed requests and attestation (chapter 8, class 0x0A). -/

namespace Sys2Proof.Machine

def dtReqFormat : Nat := 0x40
def dtLastKey : Nat := 0x41
def dtSlotState : Nat := 0x42
def dtRootkeySet : Nat := 0x43

/-- The device's unique ID. -/
def Chip.uid (c : Chip) : Nat := c.get F.SYS_UID_LO_UID + c.get F.SYS_UID_HI_UID * 2 ^ 64

/-! ## Signed requests (R247) -/

/-- Bytes of the request buffer; bytes never written are zero. -/
def Chip.reqBytes (c : Chip) (off n : Nat) : List Byte := (List.range n).map (fun i => tget 0 (off + i) c.cfg.reqBuf)

/-- The 48-byte ARG of a request has its unused bytes zero. -/
def argOk (op : Nat) (a : List Byte) : Bool :=
  if op = 1 then pf a 1 15 = 0 && decide (pb a 0 < 4)
  else if op = 2 then pf a 1 47 = 0 && decide (pb a 0 < 4)
  else if op = 3 then pf a 1 47 = 0
  else pf a 0 48 = 0

/-- Whether an owner key slot is programmed and not revoked. -/
def Chip.keyLive (c : Chip) (k : Nat) : Bool := (c.get F.SEC_STAT_SLOT_PROG).testBit k && !(c.get F.SEC_STAT_SLOT_REV).testBit k

/-- Check 1 as far as the nonce is not concerned: layout and UID. -/
def Chip.reqLayout (c : Chip) (magic op : Nat) : Option (Nat × Nat) :=
  let h := c.reqBytes 0 104
  if pf h 0 4 ≠ magic ∨ pb h 4 ≠ op ∨ pf h 6 2 ≠ 0 ∨ !argOk op (h.drop 56) then some (ST_BAD_PARAM, dtReqFormat)
  else if pf h 8 16 ≠ c.uid then some (ST_ID_MISMATCH, dtNone)
  else none

/-- The nonce, the signing slot with its key's hash, and the signature: a slot that does not exist is refused as in check 3 of
Table 8.8. -/
def Chip.reqAuth (c : Chip) : Option (Nat × Nat) :=
  let h := c.reqBytes 0 168
  let k := pb h 5
  let key := (h.drop 104).take 64
  if some ((h.drop 24).take 32) ≠ c.cfg.nonce then some (ST_AUTH_FAIL, dtNone)
  else if 4 ≤ k then some (ST_DENIED_LIFECYCLE, dtNone)
  else if !(c.keyLive k && decide ((shake256 key).take 32 = tget [] k c.cfg.keyHash)) then some (ST_AUTH_FAIL, dtNone)
  else if !slhVerify256s key h (c.reqBytes 168 29792) then some (ST_AUTH_FAIL, dtSignature)
  else none

/-- Check the request in the buffer for a command of opcode `cmd`: its refusal, if any. The nonce is consumed by the
request checked against it; a failed authentication raises its event. -/
def Chip.checkRequest (magic op cmd : Nat) (c : Chip) : Option (Nat × Nat) × Chip :=
  match c.reqLayout magic op with
  | some f => (some f, c)
  | none =>
    let r := c.reqAuth
    let c := { c with cfg := { c.cfg with nonce := none } }
    match r with
    | some f => (some f, c.raise EV_SEC_AUTH_FAIL (f.2 + cmd * 256))
    | none => (none, c)

/-- MAGIC of the requests of class 0x0A, and of the full test (R247, R380). -/
def reqMagic : Nat := 0x51523954
def testMagic : Nat := 0x54533954

/-- ARG byte `i` of the request. -/
def Chip.reqArg (c : Chip) (i : Nat) : Nat := pb (c.reqBytes 56 48) i

/-! ## Fuse burns (R244 to R246) -/

/-- Start a burn: the command cannot be stopped any more (R57, R251). -/
def Chip.burn (id what num : Nat) (data : List Byte) (c : Chip) : Chip :=
  let c := (c.interim id ST_ACCEPTED dtNone []).setSlot id (fun (s : Slot) => { s with noStop := true })
  { c with cfg := { c.cfg with burns := c.cfg.burns ++ [{ slot := id, what := what, num := num, data := data }] } }

/-- Overwrite the words from `lo` up to `hi` of the store with zeros; they are correctable again. -/
def Chip.nvsZero (lo hi : Nat) (c : Chip) : Chip :=
  let out := fun (w : Nat) => !(decide (lo ≤ w) && decide (w < hi))
  { c with nvs := { c.nvs with words := c.nvs.words.filter (fun e => out e.1), uncorr := c.nvs.uncorr.filter out } }

/-- Steps 2 and 3 of the transition to RMA (R245). -/
def Chip.rmaZeroise (c : Chip) : Chip :=
  let c := ({ c with cfg := { c.cfg with rootKey := List.replicate 32 0xFF } } : Chip).set F.SEC_STAT_ROOTKEY 2
  let c := c.set F.SEC_STAT_SLOT_REV 15
  let c := (((c.nvsZero 0 0x40000).nvsZero 0xA0000 0xA0400).nvsZero 0xA6000 0xAA000)
  c.set F.SEC_STAT_LC lcRma

/-- FUSE_BURN_DONE for a burn of the security class: what the fuses now hold, and the end of its command. The burn of
repair records ends elsewhere. -/
def Chip.burnDone (b : Burn) (c : Chip) : Chip :=
  match b.what with
  | 0 => ((c.set F.SEC_STAT_LC b.num).raise EV_SEC_LC_CHANGED b.num).ok b.slot []
  | 1 =>
    let c := c.set F.SEC_STAT_SLOT_PROG (setBit (c.get F.SEC_STAT_SLOT_PROG) b.num)
    let c := { c with cfg := { c.cfg with keyHash := tset b.num b.data c.cfg.keyHash } }
    (c.raise EV_SEC_KEY_CHANGED b.num).ok b.slot []
  | 2 => ((c.set F.SEC_STAT_SLOT_REV (setBit (c.get F.SEC_STAT_SLOT_REV) b.num)).raise EV_SEC_KEY_CHANGED (b.num + 16)).ok b.slot []
  | 3 => (c.set F.SEC_STAT_MIN_SVN (max b.num (c.get F.SEC_STAT_MIN_SVN))).ok b.slot []
  | 4 => ((c.rmaZeroise).raise EV_SEC_LC_CHANGED lcRma).ok b.slot []
  | 5 =>
    (({ c with cfg := { c.cfg with rootKey := b.data } } : Chip).set F.SEC_STAT_ROOTKEY 1).ok b.slot ((shake256 b.data).take 4)
  | _ => c

/-! ## Commands (R251) -/

def cmdSecStatus : Cmd := Cmd.plain 0x0A 0x00 lcAll (fun _ pl => lenIs 0 pl) (fun id _ c => c.ok id (natLe 8 (c.regWord F.SEC_STAT_LC.off)))

/-- The unsigned transitions of Table 8.11. -/
def lcStep (a b : Nat) : Bool :=
  (a = lcFactory && (b = lcProvisioned || b = lcScrapped)) || (a = lcProvisioned && (b = lcField || b = lcScrapped)) ||
    (a = lcRma && b = lcScrapped)

def cmdSecLcAdvance : Cmd := Cmd.plain 0x0A 0x01 (fun lc => lc = lcFactory || lc = lcProvisioned || lc = lcRma)
  (fun _ pl => lenIs 4 pl)
  (fun id pl c =>
    let t := pf pl 0 4
    if !lcStep c.lc t ∨ c.cfg.burns.any (fun b => b.what = 0 || b.what = 4) then c.fail id ST_BAD_PARAM dtNone
    else if c.lc = lcFactory ∧ t = lcProvisioned ∧ !(c.get F.SEC_STAT_ROOTKEY = 1 && (c.get F.SEC_STAT_SLOT_PROG).testBit 0) then
      c.fail id ST_BAD_STATE dtNone
    else c.burn id 0 t [])

def cmdSecNonce : Cmd := Cmd.plain 0x0A 0x02 live (fun _ pl => lenIs 0 pl) (fun id _ c =>
  let n := c.freeBytes 32
  Chip.ok id n { c with freeCtr := c.freeCtr + 32, cfg := { c.cfg with nonce := some n, reqBuf := [] } })

def cmdSecReqData : Cmd := Cmd.plain 0x0A 0x03 live
  (fun _ pl =>
    if pl.length < 9 ∨ 4096 < pl.length then some (ST_BAD_LENGTH, dtNone)
    else if pf pl 4 4 ≠ 0 ∨ 32768 < pf pl 0 4 + (pl.length - 8) then some (ST_BAD_PARAM, dtNone) else none)
  (fun id pl c =>
    let off := pf pl 0 4
    let d := pl.drop 8
    let buf := ((List.range d.length).zip d).foldl (fun t e => tput 0 (off + e.1) e.2 t) c.cfg.reqBuf
    Chip.ok id [] { c with cfg := { c.cfg with reqBuf := buf } })

/-- Program an owner key slot, unless it is programmed, revoked or about to be. -/
def Chip.keyProg (id k : Nat) (hash : List Byte) (c : Chip) : Chip :=
  if (c.get F.SEC_STAT_SLOT_PROG).testBit k || (c.get F.SEC_STAT_SLOT_REV).testBit k ||
      c.cfg.burns.any (fun b => b.what = 1 && b.num = k) then c.fail id ST_BAD_PARAM dtSlotState
  else c.burn id 1 k hash

def cmdSecKeyProg : Cmd := Cmd.plain 0x0A 0x04 (fun lc => lc = lcFactory || lc = lcProvisioned || lc = lcField)
  (fun c pl =>
    if c.lc = lcField then lenIs 0 pl
    else orElse (lenIs 48 pl) (param (decide (pb pl 0 < 4) && pf pl 1 15 = 0)))
  (fun id pl c =>
    if c.lc = lcField then
      match c.checkRequest reqMagic 1 0x04 with
      | (some f, c) => c.fail id f.1 f.2
      | (none, c) => c.keyProg id (c.reqArg 0) (c.reqBytes 72 32)
    else c.keyProg id (pb pl 0) (pl.drop 16))

def cmdSecKeyRevoke : Cmd := Cmd.plain 0x0A 0x05 lcProvField (fun _ pl => lenIs 0 pl) (fun id _ c =>
  match c.checkRequest reqMagic 2 0x05 with
  | (some f, c) => c.fail id f.1 f.2
  | (none, c) =>
    let k := c.reqArg 0
    let gone := fun (i : Nat) => c.cfg.burns.any (fun b => b.what = 2 && b.num = i)
    if (c.get F.SEC_STAT_SLOT_REV).testBit k || gone k then c.fail id ST_BAD_PARAM dtSlotState
    else if ((List.range 4).filter (fun i => c.keyLive i && !gone i)) = [k] then c.fail id ST_BAD_PARAM dtLastKey
    else if pb (c.reqBytes 0 8) 5 = k then (c.raise EV_SEC_AUTH_FAIL (0x05 * 256)).fail id ST_AUTH_FAIL dtNone
    else c.burn id 2 k [])

def cmdSecSvnRaise : Cmd := Cmd.plain 0x0A 0x06 lcProvField (fun _ pl => lenIs 0 pl) (fun id _ c =>
  match c.checkRequest reqMagic 3 0x06 with
  | (some f, c) => c.fail id f.1 f.2
  | (none, c) => if c.reqArg 0 < c.get F.SEC_STAT_MIN_SVN then c.fail id ST_BAD_PARAM dtNone else c.burn id 3 (c.reqArg 0) [])

def cmdSecRma : Cmd := Cmd.plain 0x0A 0x07 (fun lc => lc = lcField) (fun _ pl => lenIs 0 pl) (fun id _ c =>
  match c.checkRequest reqMagic 4 0x07 with
  | (some f, c) => c.fail id f.1 f.2
  | (none, c) => ({ c with cfg := { c.cfg with rmaPend := true } } : Chip).burn id 4 0 [])

def cmdSecRootkeyProg : Cmd := Cmd.plain 0x0A 0x08 (fun lc => lc = lcFactory) (fun _ pl => lenIs 32 pl) (fun id pl c =>
  if c.get F.SEC_STAT_ROOTKEY ≠ 0 ∨ c.cfg.burns.any (fun b => b.what = 5) then c.fail id ST_BAD_STATE dtRootkeySet
  else c.burn id 5 0 pl)

def cmdSecAttest : Cmd := Cmd.plain 0x0A 0x09 live (fun _ pl => lenIs 32 pl) (fun id _ c => c.interim id ST_ACCEPTED dtNone [])

def cmdSecBlobRead : Cmd := Cmd.plain 0x0A 0x0A lcAll
  (fun c pl => orElse (lenIs 10 pl)
    (param (decide (pb pl 0 < 2) && pf pl 1 3 = 0 && decide (1 ≤ pf pl 8 2) && decide (pf pl 8 2 ≤ 4096) &&
      decide (pf pl 4 4 + pf pl 8 2 ≤ (if pb pl 0 = 0 then c.cfg.report else Config.certificate).length))))
  (fun id pl c =>
    c.ok id (((if pb pl 0 = 0 then c.cfg.report else Config.certificate).drop (pf pl 4 4)).take (pf pl 8 2)))

/-! ## Attestation (R248) -/

/-- Exactly `n` bytes of a string, zeros past its end. -/
def padTo (n : Nat) (bs : List Byte) : List Byte := (List.range n).map (fun i => bs.getD i 0)

/-- One report entry (Table 8.13a). -/
def repEntry (ty kind seq ver time : Nat) (dig : List Byte) : List Byte :=
  natLe 1 ty ++ natLe 1 kind ++ natLe 2 seq ++ natLe 4 ver ++ natLe 8 time ++ padTo 64 dig

/-- The current valid record: header and payload. -/
def Chip.recBytes (c : Chip) (r : Nat) : List Byte :=
  match c.recChosen r with
  | some b => c.recHead r b ++ (c.recBank r b).getD []
  | none => []

/-- The report over a host nonce, signed (Table 8.13a). -/
def Chip.attestReport (c : Chip) (nonce : List Byte) : List Byte :=
  let fw := if c.ch.copy < 2 then (c.recBank 0 c.ch.copy).getD [] else []
  let es := repEntry 3 0 0 c.ch.fwVersion 0 (shake256 fw) ++ repEntry 4 0 0 0 0 (shake256 (c.recBytes 2)) ++
    repEntry 1 0 0 0 0 c.cfg.acc ++ c.cfg.loads.flatMap (fun l => repEntry 2 l.kind l.seq l.ver l.time l.dig)
  let body := natLe 4 0x54413954 ++ natLe 2 1 ++ natLe 2 (3 + c.cfg.loads.length) ++ natLe 16 c.uid ++ nonce ++
    natLe 8 (c.get F.WW_TB_TIME) ++ natLe 1 c.lc ++ natLe 1 (c.get F.SEC_STAT_SLOT_PROG + 16 * c.get F.SEC_STAT_SLOT_REV) ++
    natLe 1 (c.get F.SEC_STAT_MIN_SVN) ++ natLe 1 c.ch.fwSvn ++ natLe 2 (c.get F.SYS_STATE_BOOT_COUNT) ++
    natLe 1 (c.get F.SYS_STATE_CAUSE) ++ natLe 57 0 ++ es
  body ++ padTo 17088 (Config.slhSign128f body)

/-- ATTEST_SIGNED: the report of the oldest waiting `CH_SEC_ATTEST` is built and signed. -/
def Chip.attestSigned (c : Chip) : Chip :=
  match c.runningCmd 0x0A 0x09 (fun _ => true) with
  | none => c
  | some s =>
    let r := c.attestReport s.payload
    Chip.ok s.id (natLe 4 r.length) { c with cfg := { c.cfg with report := r } }

/-! ## The commands -/

def execAttestSigned (s : State) := runChip Chip.attestSigned s
def execChSecStatus (p : Pkt) (s : State) := runAon (Chip.command cmdSecStatus p) s
def execChSecLcAdvance (p : Pkt) (s : State) := runAon (Chip.command cmdSecLcAdvance p) s
def execChSecNonce (p : Pkt) (s : State) := runAon (Chip.command cmdSecNonce p) s
def execChSecReqData (p : Pkt) (s : State) := runAon (Chip.command cmdSecReqData p) s
def execChSecKeyProg (p : Pkt) (s : State) := runAon (Chip.command cmdSecKeyProg p) s
def execChSecKeyRevoke (p : Pkt) (s : State) := runAon (Chip.command cmdSecKeyRevoke p) s
def execChSecSvnRaise (p : Pkt) (s : State) := runAon (Chip.command cmdSecSvnRaise p) s
def execChSecRma (p : Pkt) (s : State) := runAon (Chip.command cmdSecRma p) s
def execChSecRootkeyProg (p : Pkt) (s : State) := runAon (Chip.command cmdSecRootkeyProg p) s
def execChSecAttest (p : Pkt) (s : State) := runAon (Chip.command cmdSecAttest p) s
def execChSecBlobRead (p : Pkt) (s : State) := runAon (Chip.command cmdSecBlobRead p) s

end Sys2Proof.Machine
end

