-- ==== Sys2Proof/Machine/Thermal.lean ====
section
/-! DEFINITION. Temperature, throttling and coolant (chapter 14): sensors and their checks, zones, the throttle law,
estimates, substitution, and the thermal commands. Temperatures are in units of 0.125 °C. -/

namespace Sys2Proof.Machine

/-- A field read as a signed number. -/
def Chip.sgn (c : Chip) (f : Fld) : Int := sext f.w (c.get f)

/-- The layer of a sensor, and the sensors of a layer (Table 14.1). -/
def sensorLayer (i : Nat) : Nat :=
  if i < 48 then 0 else if i < 56 then 1 else if i < 64 then 2 else if i < 68 then 3 else if i < 100 then 4 else if i < 132 then 5 else 6
def sensorsAll : List Nat := List.range 136
def layerSensors (n : Nat) : List Nat := sensorsAll.filter (fun i => sensorLayer i = n)
def layers : List Nat := List.range 7

/-! ## Zones (Table 14.1): 0 to 191 regions, 200 + k engine zones, 220 base, 221 and 222 DRAM layers L1 and L2 -/

def zonesAll : List Nat := List.range 192 ++ (List.range 16).map (fun k => 200 + k) ++ [220, 221, 222]

/-- The sensors that feed a zone. -/
def zoneSensors (z : Nat) : List Nat :=
  if z < 96 then [64 + z / 8 / 3, 68 + 8 * (z / 8 / 3) + z % 8]
  else if z < 192 then [100 + 8 * ((z - 96) / 8 / 3) + z % 8, 132 + (z - 96) / 8 / 3]
  else if z < 216 then [z - 200, 16 + (z - 200)]
  else if z = 220 then List.range 48
  else if z = 221 then (List.range 8).map (fun i => 48 + i)
  else (List.range 8).map (fun i => 56 + i)

/-- The zones a sensor feeds. -/
def sensorZones (i : Nat) : List Nat := zonesAll.filter (fun z => (zoneSensors z).contains i)

/-- S, T and RATE of a zone (R373). -/
def zoneS (z : Nat) : Fld := if z < 192 then F.TH_RZONE_S z else if z < 216 then F.TH_EZONE_S (z - 200) else F.TH_BDZONE_S (z - 220)
def zoneT (z : Nat) : Fld := if z < 192 then F.TH_RZONE_T z else if z < 216 then F.TH_EZONE_T (z - 200) else F.TH_BDZONE_T (z - 220)
def zoneRate (z : Nat) : Fld := if z < 192 then F.TH_RZONE_RATE z else if z < 216 then F.TH_EZONE_RATE (z - 200) else F.TH_BDZONE_RATE (z - 220)

/-! ## Readings (R360, R366 to R368) -/

def Sensor.init : Sensor := { hist := [], conv := 0, ratioBad := 0, rangeBad := 0, stuckBad := 0, rateOn := false, rateLow := 0, rateTrip := 0 }
def Chip.sensor (c : Chip) (i : Nat) : Sensor := tget Sensor.init i c.th.sensors
def Chip.setSensor (i : Nat) (f : Sensor → Sensor) (c : Chip) : Chip :=
  { c with th := { c.th with sensors := tset i (f (c.sensor i)) c.th.sensors } }

/-- Broken, or suspect and so treated as broken. -/
def Chip.sensorOut (c : Chip) (i : Nat) : Bool := c.is (F.TH_SENSOR_BROKEN i) || c.is (F.TH_SENSOR_SUSPECT i)

/-- The estimate of a layer, if valid. -/
def Chip.layerEst (c : Chip) (n : Nat) : Option Int :=
  if c.is (F.TH_EST_EST_VALID (n / 4) (n % 4)) then some (c.sgn (F.TH_EST_T (n / 4) (n % 4))) else none

/-- The substitute of a sensor that has one: its layer's estimate plus 5 °C (R368). -/
def Chip.substitute (c : Chip) (i : Nat) : Option Int :=
  if c.is (F.TH_SENSOR_SUBST i) then (c.layerEst (sensorLayer i)).map (fun t => t + 40) else none

/-- The reading used of a sensor (R360, R366, R368). -/
def Chip.reading (c : Chip) (i : Nat) : Int :=
  if c.sensorOut i then (c.substitute i).getD (8 * c.get F.TH_CFG_LIMIT) else c.sgn (F.TH_SENSOR_RAW i)

/-- The reading that a sensor gives its DRAM zone and the refresh regime: 105 °C from a broken one (R366). -/
def Chip.dramReading (c : Chip) (i : Nat) : Int := if c.sensorOut i then (c.substitute i).getD 840 else c.sgn (F.TH_SENSOR_RAW i)

/-- The highest of a list of readings. -/
def maxOf (l : List Int) : Int := l.foldl max (-2048)

/-- Measured maximum of a layer, of the DRAM zones of L1 and L2, and of the device (R361). -/
def Chip.layerMax (c : Chip) (n : Nat) : Int := maxOf ((layerSensors n).map (fun i => c.sgn (F.TH_SENSOR_USED i)))
def Chip.dramMax (c : Chip) (n : Nat) : Int := maxOf ((layerSensors n).map c.dramReading)
def Chip.deviceMax (c : Chip) : Int := maxOf (sensorsAll.map (fun i => c.sgn (F.TH_SENSOR_USED i)))

/-- Show readings used, layer and device maxima, and the masks (Table 14.6). -/
def Chip.thShow (is : List Nat) (c : Chip) : Chip :=
  let c := c.forAll is (fun i c => c.set (F.TH_SENSOR_USED i) (toBits 12 (c.reading i)))
  let c := c.forAll is (fun i c =>
    let c := c.set (F.TH_BROKEN_MASK (i / 64)) (putBit (c.get (F.TH_BROKEN_MASK (i / 64))) (i % 64) (c.sensorOut i))
    c.set (F.TH_SUBST_MASK (i / 64)) (putBit (c.get (F.TH_SUBST_MASK (i / 64))) (i % 64) (c.is (F.TH_SENSOR_SUBST i))))
  let c := c.forAll (is.map sensorLayer).eraseDups (fun n c => c.set (F.TH_LAYER_T (n / 4) (n % 4)) (toBits 12 (c.layerMax n)))
  c.set F.TH_STAT_DEV_MAX (toBits 12 (maxOf (layers.map (fun n => c.sgn (F.TH_LAYER_T (n / 4) (n % 4))))))

/-- A warning: a reading reaches TH_WARN, until every reading is below TH_RESTART (Table 14.2). -/
def Chip.thWarn (i : Nat) (c : Chip) : Chip :=
  let u := c.sgn (F.TH_SENSOR_USED i)
  if !c.is F.TH_STAT_WARN then
    if 8 * (c.get F.TH_CFG_WARN : Int) ≤ u then (c.set F.TH_STAT_WARN 1).raise EV_TH_WARN (i + toBits 12 u * 2 ^ 8) else c
  else if c.sgn F.TH_STAT_DEV_MAX < 8 * (c.get F.TH_CFG_RESTART : Int) then c.set F.TH_STAT_WARN 0
  else c

/-- The DRAM regime follows the hotter DRAM layer (Table 10.4), and a move of 20 °C asks for a training (R283). -/
def Chip.thDram (c : Chip) : Chip :=
  let t := max (c.dramMax 1) (c.dramMax 2)
  let c := { c with th := { c.th with dramCool := if t ≤ 656 then c.th.dramCool + 1 else 0 } }
  let c := if 680 ≤ t then c.drHotEntry (toBits 8 (t / 8)) else if 320 ≤ c.th.dramCool then c.drNormal else c
  c.forAll [1, 2] (fun n c =>
    match c.dr.temps[n - 1]? with
    | some old => if 160 ≤ (c.dramMax n - old).natAbs then c.drMoved (n - 1) else c
    | none => c)

/-- A rate in units of 0.125 °C/ms against a multiple of RATE, in tenths of a °C/ms. -/
def Chip.rateAbove (c : Chip) (rate : Int) (k : Nat) : Bool := decide (4 * (k * c.get F.TH_CFG_RATE : Nat) < 5 * rate)

/-- The rate rule at a conversion of a sensor that is not broken (R364). -/
def Chip.thRate (i : Nat) (c : Chip) : Chip :=
  let u := c.sgn (F.TH_SENSOR_USED i)
  let h := (u :: (c.sensor i).hist).take 21
  let rate : Int := (h[20]?.map (fun o => u - o)).getD 0
  let c := c.set (F.TH_SENSOR_RATE i) (toBits 12 rate)
  let above := c.rateAbove rate 1
  let trip := c.rateAbove rate 2 && (sensorZones i).all (fun z => c.get (zoneS z) = 64)
  let c := c.setSensor i (fun x => { x with
    hist := h
    rateOn := above || (x.rateOn && decide (x.rateLow + 1 < 200))
    rateLow := if above then 0 else x.rateLow + 1
    rateTrip := if trip then x.rateTrip + 1 else 0 })
  if above then c.flagEvent F.TH_STAT_RATE EV_TH_RATE (i + toBits 12 rate * 2 ^ 8) else c

/-- The checks of a conversion (R366): reason 1 ratio, 2 range, 3 stuck once a check has failed three times in a row. -/
def Chip.thCheck (i : Nat) (raw : Int) (ratioOk moved : Bool) (c : Chip) : Chip :=
  let c := c.setSensor i (fun x => { x with
    conv := x.conv + 1
    ratioBad := if ratioOk then 0 else x.ratioBad + 1
    rangeBad := if decide (-320 ≤ raw) && decide (raw ≤ 1200) then 0 else x.rangeBad + 1
    stuckBad := if (x.conv + 1) % 16 ≠ 0 then x.stuckBad else if moved then 0 else x.stuckBad + 1 })
  let x := c.sensor i
  let why := if 3 ≤ x.ratioBad then 1 else if 3 ≤ x.rangeBad then 2 else if 3 ≤ x.stuckBad then 3 else 0
  if why = 0 ∨ c.is (F.TH_SENSOR_BROKEN i) then c
  else
    let c := ((c.set (F.TH_SENSOR_BROKEN i) 1).set (F.TH_SENSOR_REASON i) why).set F.TH_STAT_BROKEN 1
    (c.setSensor i (fun x => { x with rateOn := false, hist := [] })).raise EV_TH_SENSOR_BROKEN (i + why * 2 ^ 8)

/-- SENSOR_CONVERSION, up to the decision to shut down. -/
def Chip.thConvert (i : Nat) (raw : Int) (ratioOk moved : Bool) (c : Chip) : Chip :=
  let c := c.thCheck i raw ratioOk moved
  let c := c.set (F.TH_SENSOR_RAW i) (toBits 12 (max (-2048) (min 2047 raw)))
  let c := c.thShow [i]
  let c := if c.sensorOut i then (c.set (F.TH_SENSOR_RATE i) 0).setSensor i (fun x => { x with rateOn := false, rateTrip := 0, hist := [] }) else c.thRate i
  let c := c.thWarn i
  if sensorLayer i = 1 ∨ sensorLayer i = 2 then c.thDram else c

/-- The shutdown that a conversion of sensor `i` calls for, if any: 1 temperature, 2 rate (R371). -/
def Chip.thTrip (c : Chip) (i : Nat) : Option Nat :=
  if 8 * (c.get F.TH_CFG_TRIP : Int) ≤ c.sgn (F.TH_SENSOR_USED i) then some 1
  else if 40 ≤ (c.sensor i).rateTrip then some 2
  else none

/-! ## The throttle law (R363, R365) -/

/-- The temperature of a zone (R361, R366). -/
def Chip.zoneTemp (c : Chip) (z : Nat) : Int :=
  maxOf ((zoneSensors z).map (fun i => if 221 ≤ z then c.dramReading i else c.sgn (F.TH_SENSOR_USED i)))

/-- The factor S of a zone (R363). -/
def Chip.zoneFactor (c : Chip) (z : Nat) : Nat :=
  let lo : Int := if 221 ≤ z then 760 else 8 * c.get F.TH_CFG_THROTTLE
  let hi : Int := if 221 ≤ z then 840 else 8 * c.get F.TH_CFG_LIMIT
  let d := c.zoneTemp z - lo
  let s : Nat := if d ≤ 0 then 256 else (max 64 (256 - (256 * d + (hi - lo) - 1) / (hi - lo))).toNat
  let s := if (zoneSensors z).any (fun i => (c.sensor i).rateOn) then min s 128 else s
  let s := if c.aon.coolForced then 64 else s
  min s (c.get F.TH_HOST_S_HOST)

/-- The frequency in force of a region on clock source 0, in 6.25 MHz units: at least 100 MHz (Table 14.3). -/
def throttled (fset s : Nat) : Nat := max 16 (fset * s / 256)

/-- The BULK weight in use for a base-zone factor (R302). -/
def bulkEff (w s : Nat) : Nat := if w = 0 then 0 else max 1 ((2 * w * s + 256) / 512)

/-- Apply the throttle law to a region's clock (Table 14.3). -/
def Chip.regionClock (r : Nat) (c : Chip) : Chip :=
  if c.get (F.FAB_RG_CTL_CLKSRC r) = 0 && !c.is (F.CLK_RG_SLEWING r) then
    c.set (F.CLK_RG_FNOW r) (throttled (c.get (F.CLK_RG_FSET r)) (c.get (zoneS r)))
  else c

/-- The hottest sensor of a zone. -/
def Chip.zoneHot (c : Chip) (z : Nat) : Nat :=
  ((zoneSensors z).find? (fun i => c.sgn (F.TH_SENSOR_USED i) = maxOf ((zoneSensors z).map (fun j => c.sgn (F.TH_SENSOR_USED j))))).getD 0

/-- THROTTLE_UPDATE: S of every zone and what it acts on (R363, R365). -/
def Chip.throttle (c : Chip) : Chip :=
  let was := c.is F.TH_STAT_THROTTLE
  let c := c.forAll zonesAll (fun z c =>
    let s := c.zoneFactor z
    let c := (c.set (zoneS z) s).set (zoneT z) (toBits 12 (c.zoneTemp z))
    c.set (zoneRate z) (b2n ((zoneSensors z).any (fun i => (c.sensor i).rateOn))))
  let c := c.forAll (List.range 192) (fun r => Chip.regionClock r)
  let c := c.set F.NET_STAT_BULK_EFF (bulkEff (c.get F.NET_WRR_W_BULK) (c.get (zoneS 220)))
  let c := c.set F.DR_STAT_THROTTLE (b2n (decide (c.get (zoneS 221) < 256) || decide (c.get (zoneS 222) < 256)))
  let slow := zonesAll.find? (fun z => decide (c.get (zoneS z) < 256))
  let c := c.set F.TH_STAT_THROTTLE (b2n slow.isSome)
  match slow with
  | some z => c.raiseIf (!was) EV_TH_THROTTLE (c.zoneHot z)
  | none => c.raiseIf was EV_TH_THROTTLE_END 0

/-! ## Estimates (R367 to R369) -/

/-- A layer's sensors are declared suspect (R367). -/
def Chip.layerSuspect (n : Nat) (est : Int) (c : Chip) : Chip :=
  let arg := n + toBits 12 (c.layerMax n) * 2 ^ 4 + toBits 12 est * 2 ^ 16
  let c := c.forAll (layerSensors n) (fun i c =>
    (c.set (F.TH_SENSOR_SUSPECT i) 1).setSensor i (fun x => { x with rateOn := false, hist := [] }))
  ((((c.set (F.TH_LAYER_SUSPECT (n / 4) (n % 4)) 1).set F.TH_STAT_SUSPECT 1).thShow (layerSensors n))).raise EV_TH_LAYER_SUSPECT arg

/-- LAYER_ESTIMATE: once per millisecond, with the lid sensors' readings and the estimate of each layer (R367, R369). -/
def Chip.layerEstimate (inlet outlet : Int) (lidOk : Bool) (est : List Int) (c : Chip) : Chip :=
  let c := (c.set F.TH_COOLANT_INLET (toBits 12 inlet)).set F.TH_COOLANT_OUTLET (toBits 12 outlet)
  let inB := decide (inlet < 120) || decide (240 < inlet)
  let riB := decide (144 < outlet - inlet)
  let newI := inB && !c.th.inletBad
  let newR := riB && !c.th.riseBad
  let c := { c with th := { c.th with inletBad := inB, riseBad := riB } }
  let c := if newI then c.set F.TH_COOLANT_INLET_RANGE 1 else c
  let c := if newR then c.set F.TH_COOLANT_RISE_HIGH 1 else c
  let c := c.raiseIf (newI || newR) EV_TH_COOLANT_TEMP
    (b2n newI + 2 * b2n newR + toBits 12 inlet * 2 ^ 4 + toBits 12 outlet * 2 ^ 16)
  let good := fun (n : Nat) => (layerSensors n).any (fun i => !c.sensorOut i)
  let valid := fun (n : Nat) => lidOk && ((decide (0 < n) && good (n - 1)) || (decide (n < 6) && good (n + 1)))
  let flags := layers.map valid
  let c := c.forAll layers (fun n c =>
    let e := est.getD n 0
    let v := flags.getD n false
    let c := (c.set (F.TH_EST_T (n / 4) (n % 4)) (toBits 12 e)).set (F.TH_EST_EST_VALID (n / 4) (n % 4)) (b2n v)
    let c := c.set (F.TH_LAYER_EST_VALID (n / 4) (n % 4)) (b2n v)
    let ms := if v && decide (64 < e - c.layerMax n) then tget 0 n c.th.overMs + 1 else 0
    let c := { c with th := { c.th with overMs := tput 0 n ms c.th.overMs } }
    if 10 ≤ ms ∧ !c.is (F.TH_LAYER_SUSPECT (n / 4) (n % 4)) then c.layerSuspect n e else c)
  (c.thShow (sensorsAll.filter c.sensorOut)).thDram

/-! ## Register writes -/

/-- The permitted ranges of `TH_CFG` (Table 14.2). -/
def thCfgOk (v : Nat) : Bool :=
  let warn := bits v 7 0
  let thr := bits v 15 8
  let lim := bits v 23 16
  let trip := bits v 31 24
  let rst := bits v 39 32
  let rate := bits v 47 40
  decide (60 ≤ rst) && decide (rst + 5 ≤ warn) && decide (warn ≤ thr) && decide (thr + 2 ≤ lim) && decide (lim + 2 ≤ trip) &&
    decide (100 ≤ trip) && decide (trip ≤ 115) && decide (5 ≤ rate) && decide (rate ≤ 50)

def thCfgFlds : List Fld := [F.TH_CFG_WARN, F.TH_CFG_THROTTLE, F.TH_CFG_LIMIT, F.TH_CFG_TRIP, F.TH_CFG_RESTART, F.TH_CFG_RATE]

/-- A write of `TH_CFG` (R362). -/
def Chip.thCfgWrite (v : Nat) (c : Chip) : Rsp × Chip :=
  if thCfgOk v then (rspOk, (c.writeFlds true v thCfgFlds).thShow (sensorsAll.filter c.sensorOut)) else (rspRange, c)

/-- A write of `TH_HOST` (Table 14.6). -/
def Chip.thHostWrite (v : Nat) (c : Chip) : Rsp × Chip :=
  if 64 ≤ bits v 8 0 ∧ bits v 8 0 ≤ 256 then (rspOk, c.set F.TH_HOST_S_HOST (bits v 8 0)) else (rspRange, c)

/-! ## Coolant (R370) -/

/-- COOLANT_OK_FALL: every zone runs at S = 64 within 10 µs. -/
def Chip.coolantFall (c : Chip) : Chip :=
  if !c.is F.SYS_STATE_COOLANT_OK then c
  else
    let c := c.set F.SYS_STATE_COOLANT_OK 0
    if c.dstate = stOff then c
    else if c.dstate = stPor then c.set F.SYS_STATE_LOGIC_PG 0
    else
      let c := { c with aon := { c.aon with coolForced := true } }.set F.TH_STAT_COOLANT_LOW 1
      if c.dstate = stShutdown then { c with aon := { c.aon with restartMs := 0 } }
      else if c.awake then (c.raise EV_TH_COOLANT_LOW 0).throttle
      else c

/-- COOLANT_FORCED_END: the input has been high for 1 s. -/
def Chip.coolantEnd (c : Chip) : Chip :=
  if c.aon.coolForced && c.is F.SYS_STATE_COOLANT_OK then
    let c := { c with aon := { c.aon with coolForced := false } }.set F.TH_STAT_COOLANT_LOW 0
    if c.awake then c.raise EV_TH_COOLANT_RESTORED (min 65535 c.aon.coolLowUs) else c
  else c

/-! ## Commands (R374) -/

def dtNotBroken : Nat := 0x40
def dtNoEstimate : Nat := 0x41
def dtThreshOrder : Nat := 0x42

def thStatFlds : List Fld := [F.TH_STAT_DEV_MAX, F.TH_STAT_WARN, F.TH_STAT_THROTTLE, F.TH_STAT_RATE, F.TH_STAT_BROKEN, F.TH_STAT_SUSPECT,
  F.TH_STAT_COOLANT_LOW]
def thLayerFlds (i : Nat) : List Fld :=
  (List.range 4).flatMap (fun k => [F.TH_LAYER_T i k, F.TH_LAYER_SUSPECT i k, F.TH_LAYER_EST_VALID i k])
def thCoolFlds : List Fld := [F.TH_COOLANT_INLET, F.TH_COOLANT_OUTLET, F.TH_COOLANT_INLET_RANGE, F.TH_COOLANT_RISE_HIGH]
def thTripFlds : List Fld := [F.TH_TRIP_INFO_KIND, F.TH_TRIP_INFO_SENSOR, F.TH_TRIP_INFO_TEMP, F.TH_TRIP_INFO_COUNT]
def thSensorFlds (i : Nat) : List Fld := [F.TH_SENSOR_USED i, F.TH_SENSOR_RAW i, F.TH_SENSOR_RATE i, F.TH_SENSOR_BROKEN i,
  F.TH_SENSOR_REASON i, F.TH_SENSOR_SUSPECT i, F.TH_SENSOR_SUBST i]

def cmdThStatus : Cmd := { Cmd.plain 0x08 0x00 lcAll (fun _ => lenIs 0) (fun id _ c =>
    c.ok id (c.regBytes thStatFlds ++ c.regBytes (thLayerFlds 0) ++ c.regBytes (thLayerFlds 1) ++ c.regBytes thCoolFlds ++
      c.regBytes thTripFlds ++ c.regBytes [F.TH_HOST_S_HOST])) with urgent := true }

def cmdThSensors : Cmd := Cmd.plain 0x08 0x01 live
  (lenParam 4 (fun pl => decide (1 ≤ pb pl 1) && decide (pb pl 0 + pb pl 1 ≤ 136) && pf pl 2 2 = 0))
  (fun id pl c => c.ok id ((List.range (pb pl 1)).flatMap (fun k => c.regBytes (thSensorFlds (pb pl 0 + k)))))

def cmdThSubst : Cmd := Cmd.plain 0x08 0x02 lcProvField
  (lenParam 4 (fun pl => decide (pb pl 0 < 136) && decide (pb pl 1 < 2) && pf pl 2 2 = 0))
  (fun id pl c =>
    let i := pb pl 0
    if !c.sensorOut i then c.fail id ST_BAD_STATE dtNotBroken
    else if pb pl 1 = 1 ∧ (c.layerEst (sensorLayer i)).isNone then c.fail id ST_BAD_STATE dtNoEstimate
    else
      let c := (c.set (F.TH_SENSOR_SUBST i) (pb pl 1)).thShow [i]
      c.ok id (natLe 2 (c.get (F.TH_SENSOR_USED i))))

def cmdThThresh : Cmd := { Cmd.plain 0x08 0x03 live
    (lenParam 8 (fun pl => pf pl 6 2 = 0))
    (fun id pl c =>
      if thCfgOk (pf pl 0 8) then
        let c := (c.thCfgWrite (pf pl 0 8)).2
        c.ok id (c.regBytes thCfgFlds)
      else c.fail id ST_BAD_PARAM dtThreshOrder) with urgent := true }

def cmdThLimit : Cmd := { Cmd.plain 0x08 0x04 live
    (lenParam 4 (fun pl => decide (64 ≤ pf pl 0 4) && decide (pf pl 0 4 ≤ 256)))
    (fun id pl c => (c.set F.TH_HOST_S_HOST (pf pl 0 4)).ok id []) with urgent := true }

/-! ## Meanings -/

/-- TRAINING_DONE. In BOOT the controller trains at `FREQ` 0 without being asked (R283). -/
def Chip.trainEnd (ok : Bool) (c : Chip) : Chip :=
  let boot := decide (c.dstate = stBoot) && decide (c.drState = drInit) && c.dr.train.isNone
  Chip.drTrained ok [c.dramMax 1, c.dramMax 2] (if boot then c.drTrain 0 [] else c)

def execTrainingDone (ok : Bool) (s : State) := runChip (fun c => c.trainEnd ok) s
def execThrottleUpdate (s : State) := runChip (fun c => if decide (stBoot ≤ c.dstate) && decide (c.dstate ≤ stSafe) then c.throttle else c) s
def execLayerEstimate (inlet outlet : Int) (lidOk : Bool) (est : List Int) (s : State) :=
  runChip (fun c => if decide (stBoot ≤ c.dstate) && decide (c.dstate ≤ stSafe) then c.layerEstimate inlet outlet lidOk est else c) s
def execCoolantOkFall (s : State) := runAon Chip.coolantFall s
def execCoolantForcedEnd (s : State) := runAon Chip.coolantEnd s
def execChThStatus (p : Pkt) (s : State) := runAon (Chip.command cmdThStatus p) s
def execChThSensors (p : Pkt) (s : State) := runAon (Chip.command cmdThSensors p) s
def execChThSubst (p : Pkt) (s : State) := runAon (Chip.command cmdThSubst p) s
def execChThThresh (p : Pkt) (s : State) := runAon (Chip.command cmdThThresh p) s
def execChThLimit (p : Pkt) (s : State) := runAon (Chip.command cmdThLimit p) s

end Sys2Proof.Machine
end

