-- ==== Sys2Proof/Machine/SelfTest.lean ====
section
/-! DEFINITION. Self-test, scrubbing and repair (chapter 15): slices, targeted tests, repairs and retirements, the repair log,
STRICT_HALT and SAFE, the full test, and Ligature. -/

namespace Sys2Proof.Machine

def dtFusesFull : Nat := 0x40
def dtTestBusy : Nat := 0x41
def dtLogFull : Nat := 0x42

/-! ## Retirement (R384, R385, Table 15.6) -/

/-- Commands on a region's banks that can no longer be carried out end with ST_RETIRED (R267). -/
def Chip.powerRetired (c : Chip) : Chip :=
  let dead := fun (q : Nat × Nat × Nat × List Nat) => q.2.2.2.any (fun b => c.bankState q.2.1 b = bankGone)
  let ids := (c.sp.waits.filter dead).map (fun q => q.1)
  ({ c with sp := { c.sp with waits := c.sp.waits.filter (fun q => !dead q) } } : Chip).endAll ids ST_RETIRED dtNone

/-- A paging without its targets in a region. -/
def Paging.without (r : Nat) (p : Paging) : Paging :=
  let keep := fun (t : Nat × Nat) => decide (t.1 ≠ r)
  { p with
    targets := p.targets.filter keep
    toMark := p.toMark.filter keep
    marked := p.marked.filter (fun m => decide (m.1 ≠ r))
    left := p.left.filter keep }

/-- A paging that rewrites the governing stop of a region. -/
def Paging.rewrites (r : Nat) (p : Paging) : Bool :=
  match p.why with
  | .rewrite _ r' _ => decide (r' = r)
  | _ => false

/-- No load or paging touches a retired region any more; a rewrite of it ends (R385). -/
def Chip.cfgDrop (r : Nat) (c : Chip) : Chip :=
  let ps := (c.cfg.page.toList ++ c.cfg.waiting).filter (Paging.rewrites r)
  let cut := fun (l : List Paging) => (l.filter (fun p => !p.rewrites r)).map (Paging.without r)
  let mine := c.cfg.page.any (Paging.rewrites r)
  let c := { c with cfg := { c.cfg with
    page := (cut c.cfg.page.toList).head?
    waiting := cut c.cfg.waiting
    load := c.cfg.load.map (fun (l : Load) => { l with targets := l.targets.filter (fun t => decide (t.1 ≠ r)) }) } }
  let c := c.forAll ps (fun p => Chip.pageReply p ST_RETIRED dtNone)
  let c := match c.cfg.rewrite with
    | some (id, _, r', _) => if r' = r then ({ c with cfg := { c.cfg with rewrite := none } } : Chip).fail id ST_RETIRED dtNone else c
    | none => c
  let c := match c.cfg.load with
    | some l => if l.kind = 2 ∧ l.region = r then c.loadFail ST_RETIRED dtNone else c
    | none => c
  if mine then c.pageOver.pageSettle else c

/-- Ligature restarts its pass at region 0, stop S0, frame 0 (R395). -/
def Chip.lgRestart (c : Chip) : Chip :=
  let c := (((c.inc F.LG_CNT_B_RESTARTS).set F.LG_STAT_REGION 0).set F.LG_STAT_STOP 0).set F.LG_STAT_FRAME 0
  c.raise EV_LG_RESTART (c.get F.LG_CNT_B_RESTARTS)

/-- A reload has ended: marks that waited for it are made, and a restart that waited takes place (R393, R395). -/
def Chip.reloadOver (c : Chip) : Chip :=
  let again := c.lg.restart
  let c := ({ c with lg := Ligature.init } : Chip).set F.LG_STAT_RELOADING 0
  let c := if again then c.lgRestart else c
  match c.cfg.page with
  | some p => (c.pageMarks p).pageSettle
  | none => c

/-- A region is retired (R385): domain, state, banks, stops, AUX_IO and serial port, in this order. -/
def Chip.retireRegion (r : Nat) (c : Chip) : Chip :=
  if c.rgState r = rgRetired then c
  else
    let c := c.domClose (domRegion r) 2
    let hadC := (c.rg r).pendC.isSome
    let c := ((c.set (F.FAB_RG_STAT_RSTATE r) rgRetired).set (F.FAB_RG_STAT_HOLD_WHY r) 0).set (F.FAB_RG_STAT_PARTY r) 0
    let c := (c.set (F.FAB_RG_STAT_DEGRADED r) 0).setRg r (fun _ => Region.init)
    let c := if hadC then c.bcastSeen r else c
    let c := (c.set (F.FAB_RG_CAPSTAT_CSTATE r) csIdle).set (F.FAB_RG_CAPCTL_ARM r) 0
    let c := (c.spRegionRetire r).powerRetired
    let c := c.forAll (List.range 8) (fun s => Chip.emptyStop r s)
    let c := c.auxOfRegion r
    let c := if r % 6 = 0 ∧ !c.is (F.SPORT_CTL_HOST (r / 6)) then
        ((c.set (F.SPORT_CTL_MODE (r / 6)) 0).setSport (r / 6) (fun _ => { tx := [], rx := [], busy := false })).spOwners
      else c
    let c := (c.endCmd 0x08 0x16 (fun pl => pb pl 0 = r) ST_RETIRED dtNone []).endCmd 0x08 0x11 (fun pl => pb pl 0 = r) ST_RETIRED dtNone []
    let c := c.cfgDrop r
    if c.lg.reload.any (fun l => decide (l.1 = r)) then c.reloadOver else c

/-- A DRAM bank is retired (R271): what is queued for it is answered or dropped. -/
def Chip.drRetireBank (b : Nat) (c : Chip) : Chip :=
  let c := c.set (F.DR_RETIRED_MASK (b / 64)) (setBit (c.get (F.DR_RETIRED_MASK (b / 64))) (b % 64))
  let mine := fun (a : Nat) => decide (drBank a = b)
  let c := c.forAll (c.dr.rq.filter (fun q => mine q.addr)) (fun q c =>
    match q.net with
    | some t => c.respond t.1 t.2.1 t.2.2 rspRetired 0 [] (niOf q.addr)
    | none => c)
  let lost := c.dr.wq.any (fun w => w.rowOr && mine w.addr)
  let c := ({ c with dr := { c.dr with rq := c.dr.rq.filter (fun q => !mine q.addr), wq := c.dr.wq.filter (fun w => !mine w.addr) } } : Chip).drLevels
  if lost then c.bmFail rspRetired false else c

/-- A vertical-wire bore is retired: its mask bit, and what R211 does to the stops of both regions of its pair. -/
def Chip.retireBore (n b : Nat) (ev : Bool) (c : Chip) : Chip :=
  let f := F.FAB_VMASK_MASK n (b / 64)
  let c := c.set f (setBit (c.get f) (b % 64))
  let uses := fun (c : Chip) (r s : Nat) => (tget 0 (rsKey r s) c.cfg.vuse).testBit b
  c.forAll [n, n + 96] (fun r c =>
    if c.rgState r = rgRetired then c
    else
      let runs := c.rgState r ≠ rgOff
      let hit := uses c r (c.gov r) && c.stopState r (c.gov r) = ssReady
      let bad := (List.range 8).filter (fun s => uses c r s && !(runs && s = c.gov r))
      let c := if hit && runs then c.holdRegion r hwyBore else c
      let c := c.forAll bad (fun s => Chip.emptyStop r s)
      let c := c.raiseIf (ev && bad ≠ []) EV_FAB_STOP_PURGED (r + (bad.map (fun s => 2 ^ s)).sum * 256)
      c.set (F.FAB_RG_STAT_DEGRADED r) 1)

/-- A riser bore is lost: the router's Z port and the regions it serves (Table 15.6). -/
def Chip.retireRiser (n : Nat) (both : Bool) (c : Chip) : Chip :=
  let c := if both then (c.set (F.ROUTER_STAT_ZLINK n) 2).retireRegion n else c
  c.retireRegion (n + 96)

/-- Every sensor wired through a sensor or control bore is broken (Table 15.6); which these are is not in the spec. -/
def Chip.breakSensors (loc : Nat) (ev : Bool) (c : Chip) : Chip :=
  c.forAll ((Config.boreSensors loc).filter (fun i => decide (i < 136))) (fun i c =>
    if c.is (F.TH_SENSOR_BROKEN i) then c
    else
      let c := (c.set (F.TH_SENSOR_BROKEN i) 1).set F.TH_STAT_BROKEN 1
      ((c.setSensor i (fun x => { x with rateOn := false, hist := [] })).thShow [i]).raiseIf ev EV_TH_SENSOR_BROKEN i)

/-- A bore is retired, by its locator (Tables 15.6 and 15.9). -/
def Chip.retireBoreAt (loc : Nat) (ev : Bool) (c : Chip) : Chip :=
  match bits loc 2 0, bits loc 4 3 with
  | 4, 0 => c.retireBore (bits loc 11 5) (bits loc 21 12) ev
  | 3, 0 | 5, 0 => c.retireRegion (bits loc 12 5)
  | 0, 0 | 1, 0 | 2, 0 | 3, 1 => c.retireRiser (bits loc 11 5) true
  | 4, 1 => c.retireRiser (bits loc 11 5) false
  | 0, 1 => c.forAll ((List.range 256).filter (fun b => b % 16 = bits loc 8 5)) (fun b => Chip.drRetireBank b)
  | 1, 1 => c.forAll ((List.range 256).filter (fun b => decide (128 ≤ b) && b % 16 = bits loc 8 5)) (fun b => Chip.drRetireBank b)
  | _, _ => c.breakSensors loc ev

/-- A link half takes effect as retired (R313): one half leaves the link half wide, two retire it. -/
def Chip.halfApply (n p h : Nat) (c : Chip) : Chip :=
  let m := setBit (tget 0 (4 * n + p) c.net.halves) h
  let c := { c with net := { c.net with halves := tset (4 * n + p) m c.net.halves } }
  let v := c.get (F.ROUTER_STAT_LINK n)
  c.set (F.ROUTER_STAT_LINK n) (v - bits v (2 * p + 1) (2 * p) * 4 ^ p + (if m = 3 then 2 else 1) * 4 ^ p)

/-- A lane retired earlier is applied again during BOOT. -/
def Chip.laneQuiet (p l : Nat) (c : Chip) : Chip :=
  let c := (c.set (F.WW_P_STAT_LANE_RET p) (setBit (c.get (F.WW_P_STAT_LANE_RET p)) l)).widthShow p
  if c.get (F.WW_P_STAT_LANE_RET p) = 15 then (c.domClose (domPort p) 2).portLeave p wpRetired else c

/-- Retire an element of the repair log's kinds. With `ev` the events of a retirement decided now are raised (R384, R387). -/
def Chip.retireElem (kind loc : Nat) (ev : Bool) (c : Chip) : Chip :=
  match kind with
  | 2 => ((c.bankRetire (bits loc 7 0) (bits loc 11 8)).powerRetired).raiseIf ev EV_ST_RETIRED (entryArg kind loc)
  | 4 => (c.drRetireBank (bits loc 7 0)).raiseIf ev EV_ST_RETIRED (entryArg kind loc)
  | 6 => c.retireChannel (bits loc 7 0) ev
  | 8 => (c.retireBoreAt loc ev).raiseIf ev (if bits loc 4 0 = 4 then EV_ST_BORE_RETIRED else EV_ST_RETIRED) (entryArg kind loc)
  | 9 => if ev then c.laneRetire (bits loc 2 0) (bits loc 4 3) else c.laneQuiet (bits loc 2 0) (bits loc 4 3)
  | 10 =>
    if ev then
      (({ c with net := { c.net with linkQ := c.net.linkQ ++ [(bits loc 6 0, bits loc 9 7, bit loc 10)] } } : Chip).set
        (F.ROUTER_STAT_QUIESCING (bits loc 6 0)) 1).raise EV_ST_RETIRED (entryArg kind loc)
    else c.halfApply (bits loc 6 0) (bits loc 9 7) (bit loc 10)
  | 11 => (c.retireRegion (bits loc 7 0)).raiseIf ev EV_ST_RETIRED (entryArg kind loc)
  | _ => c

/-! ## Spares (R383, Table 15.5) -/

/-- Entry kind and locator of the spare that a fault found in an element asks for; `sub` names the failing part: a column
([7:0], [8] check array), a row, a cell ([6:0], [7] line), a bond. -/
def spareEntry (kind loc sub : Nat) : Nat × Nat :=
  match kind with
  | 2 | 16 => (1, loc % 2 ^ 12 + bits sub 7 0 * 2 ^ 12 + bit sub 8 * 2 ^ 20)
  | 4 => (3, loc % 2 ^ 8 + sub % 2 ^ 15 * 2 ^ 8)
  | 5 | 6 => (5, loc % 2 ^ 8 + bit sub 7 * 2 ^ 8 + bits sub 6 0 * 2 ^ 9)
  | 8 => (7, loc)
  | k => (k, loc)

/-- The element retired when no spare is left (Table 15.6). -/
def retireEntry (kind loc : Nat) : Nat × Nat :=
  match kind with
  | 1 => (2, loc % 2 ^ 12)
  | 3 => (4, loc % 2 ^ 8)
  | 5 => (6, loc % 2 ^ 8)
  | 7 => (8, loc)
  | k => (k, loc)

/-- Spares of a kind in use among the repairs in force, for elements that satisfy `same`. -/
def Chip.usedSpares (c : Chip) (kind : Nat) (same : Nat → Bool) : List Nat :=
  (c.st.applied.filter (fun e => bits e 3 0 = kind && bits e 5 4 = 0 && same (bits e 47 16))).map (fun e => bits e 15 8)

/-- The lowest free spare for an entry, as its `SPARE` field, if one is left (Table 15.5). -/
def Chip.spareFor (c : Chip) (kind loc bond : Nat) : Option Nat :=
  match kind with
  | 1 =>
    let m := tget 0 (16 * bits loc 7 0 + bits loc 11 8) c.sp.cols
    if loc.testBit 20 then (List.range 2).find? (fun j => !m.testBit (32 + 8 * j + 7)) else (List.range 4).find? (fun j => !m.testBit (8 * j + 7))
  | 3 => (List.range 64).find? (fun j => !(c.usedSpares 3 (fun l => l % 256 = loc % 256)).contains j)
  | 5 =>
    let u := c.unit (loc % 256)
    let n := if loc.testBit 8 then u.spareC else u.spareL
    if n < 2 then some n else none
  | 7 => ((List.range 4).find? (fun j => !((c.usedSpares 7 (fun l => l = loc)).map (fun v => v / 64)).contains j)).map
      (fun j => bond % 64 + 64 * j)
  | _ => none

/-- Map a spare in (R264, R271, Table 3.9). -/
def Chip.mapSpare (kind loc spare : Nat) (c : Chip) : Chip :=
  match kind with
  | 1 =>
    let k := 16 * bits loc 7 0 + bits loc 11 8
    let m := tget 0 k c.sp.cols
    let at' := if loc.testBit 20 then 32 + 8 * (spare % 2) else 8 * (spare % 4)
    let v := if loc.testBit 20 then bits loc 15 12 + 128 else bits loc 18 12 + 128
    { c with sp := { c.sp with cols := tset k (m - bits m (at' + 7) at' * 2 ^ at' + v * 2 ^ at') c.sp.cols } }
  | 5 =>
    let n := loc % 256
    (c.set (F.RD_CH_STAT_SPARE_USED (n / 8) (n % 8)) 1).setUnit n (fun u =>
      if loc.testBit 8 then { u with spareC := spare + 1 } else { u with spareL := spare + 1 })
  | _ => c

/-- Apply a repair log entry or fuse record during BOOT, without events (R387). A mapped spare of fuse origin shows so in the
column map (Table 9.6). -/
def Chip.applyEntry (fused : Bool) (e : Nat) (c : Chip) : Chip :=
  let kind := bits e 3 0
  let loc := bits e 47 16
  let spare := bits e 15 8
  let c := { c with st := { c.st with applied := c.st.applied ++ [e] } }
  if bits e 5 4 = 1 then
    let x := retireEntry kind loc
    c.retireElem x.1 x.2 false
  else
    let c := c.mapSpare kind loc spare
    if kind = 1 ∧ fused then
      let k := 16 * bits loc 7 0 + bits loc 11 8
      let m := tget 0 k c.sp.cols
      { c with sp := { c.sp with cols := tset k (setBit m (48 + (if loc.testBit 20 then 4 + spare % 2 else spare % 4))) c.sp.cols } }
    else c

/-! ## SAFE (R389, R390) -/

/-- A load, paging or rewrite in progress ends, since the device leaves USER (R207, R236; log entry 51). -/
def Chip.cfgCancel (c : Chip) : Chip := (c.loadFail ST_ABORTED dtNone).dropPagings

/-- Every region is held for the device state (R390). -/
def Chip.holdAll (c : Chip) : Chip := c.forAll regions (fun r => Chip.holdRegion r hwyDevice)

/-- Enter SAFE from USER (R389, R390; log entry 43): runs end, regions are held, DEN is low, and the self-test engine stops. -/
def Chip.enterSafe (c : Chip) : Chip :=
  let c := (({ c with prior := none } : Chip).leaveUser).cfgCancel
  let c := (((c.setState stSafe).set F.ST_STAT_HALTED 1).denAllLow).checksEnd
  let c := (c.holdAll).auxAll
  let c := match c.st.slice with
    | some _ => ((c.inc F.ST_CNT_B_INCOMPLETE).set F.ST_LAST_END 5).set F.ST_LAST_VERDICT 2
    | none => c
  let ids := (c.st.queue ++ c.st.cur.toList).flatMap (fun (t : TestItem) => t.slots)
  let full := c.st.full
  let c := { c with st := { c.st with slice := none, cur := none, queue := [], full := none } }
  let c := (c.set F.ST_STAT_ACT 0).endAll ids ST_BAD_STATE dtNone
  match full with
  | some f => (c.fail f.slot ST_HW_FAULT dtNone).endAll f.aborts ST_ABORT_TOO_LATE dtNone
  | none => c

/-! ## The decision (R382 to R384, R389) -/

/-- A permanent fault in an element: 1 repaired, 2 retired (or recorded), 3 pending. -/
def Chip.permanent (kind loc sub : Nat) (c : Chip) : Nat × Chip :=
  let c := c.inc F.ST_CNT_C_PERMANENT
  let e := spareEntry kind loc sub
  let bond := if e.1 = 7 then sub % 64 else 0
  if c.is F.SYS_STATE_STRICT_HALT then
    (3, (((c.logRepair 2 e.1 e.2 bond).raise EV_ST_STRICT_HALT (entryArg e.1 e.2)).enterSafe))
  else
    match c.spareFor e.1 e.2 sub with
    | some j =>
      let c := c.mapSpare e.1 e.2 j
      let c := if e.1 = 1 then c.remapStart (bits e.2 7 0) (bits e.2 11 8) else c
      (1, (c.logRepair 0 e.1 e.2 j).raise EV_ST_REPAIRED (entryArg e.1 e.2))
    | none =>
      let x := retireEntry e.1 e.2
      if x.1 = 12 then (2, (c.raise EV_ST_FUSE_MISMATCH (entryArg 12 x.2)).logRepair 3 12 x.2 0)
      else (2, (c.retireElem x.1 x.2 true).logRepair 1 x.1 x.2 0)

/-- The entry fields by which an event names an element: a scratchpad word by its bank (R399). -/
def elemArg (kind loc : Nat) : Nat := if kind = elemWord then entryArg 2 (loc % 2 ^ 12) else entryArg kind loc

/-- A transient error: counted, with its event (R382). -/
def Chip.transient (kind loc : Nat) (c : Chip) : Chip := (c.inc F.ST_CNT_C_TRANSIENT).raise EV_ST_TRANSIENT (elemArg kind loc)

/-- The `CH_ST_RUN` commands of a test end with its result. -/
def Chip.runDone (ids : List Nat) (result : Nat) (c : Chip) : Chip := c.forAll ids (fun id => Chip.ok id (natLe 4 result))

/-! ## Ligature's part of a test (R393, R394) -/

/-- A reload is complete: counted, and the cause removed (Table 15.10, step 4). -/
def Chip.reloadDone (c : Chip) : Chip :=
  match c.lg.reload with
  | none => c
  | some l =>
    let g := decide (c.gov l.1 = l.2.1)
    let c := (c.inc F.LG_CNT_B_RELOADS).raise EV_LG_RELOAD (l.1 + l.2.1 * 2 ^ 8 + l.2.2.1 * 2 ^ 11 + b2n g * 2 ^ 22)
    (c.releaseRegion l.1 hwyLigature).reloadOver

/-! ## Targeted tests (R381, R382, Table 15.4) -/

/-- Whether a test waits: its bank is not ON, or its controller is FROZEN, TRAINING or away (R381). -/
def Chip.testWaits (c : Chip) (t : TestItem) : Bool :=
  if t.kind = 1 ∨ t.kind = 2 ∨ t.kind = elemWord then
    c.bankState (bits t.loc 7 0) (bits t.loc 11 8) ≠ bankOn || c.is (F.SP_PWR_STAT_BUSY (bits t.loc 7 0) (bits t.loc 11 8))
  else if t.kind = 3 ∨ t.kind = 4 then c.drState ≠ drReady
  else false

/-- The states in which the self-test engine works, outside the full test. -/
def Chip.stRuns (c : Chip) : Bool := decide (stFw ≤ c.dstate) && decide (c.dstate ≤ stConfigFailed) && live c.lc && c.st.full.isNone

/-- The next test to start: the oldest that does not wait. -/
def Chip.testNext (c : Chip) : Option TestItem := c.st.queue.find? (fun t => !c.testWaits t)

/-- TARGETED_TEST_START. Elements retired while they were queued are not tested. -/
def Chip.testStart (c : Chip) : Chip :=
  let dead := c.st.queue.filter (fun t => c.elemRetired t.kind t.loc)
  let c := { c with st := { c.st with queue := c.st.queue.filter (fun t => !c.elemRetired t.kind t.loc) } }
  let c := c.forAll dead (fun t => Chip.runDone t.slots 2)
  if !c.stRuns || c.st.cur.isSome || c.st.slice.isSome then c
  else
    match c.testNext with
    | none => c
    | some t =>
      let c := { c with st := { c.st with cur := some t, queue := c.st.queue.erase t } }
      let c := c.set F.ST_STAT_ACT 2
      if t.kind = 10 then c.set (F.ROUTER_STAT_QUIESCING (bits t.loc 6 0)) 1 else c

/-- The verdict of R378: 0 PASS, 1 FAIL, 2 INCOMPLETE. -/
def TestYield.verdict (endSt done exp : Nat) (sigOk : Bool) : Nat :=
  if endSt ≠ 0 then 2 else if done = exp && sigOk then 0 else 1

/-- A targeted test passed: the error was transient (R382, Table 15.4). -/
def Chip.testPass (t : TestItem) (c : Chip) : Chip :=
  let n := t.loc % 256
  let reed := t.kind = 5 ∨ t.kind = 6
  let rep := decide reed && (c.unit n).repaired
  let c := if rep then c else c.transient t.kind t.loc
  let c := if reed then c.setUnit n (fun u => { u with reacq := 1 })
    else if t.kind = 11 ∧ c.lg.testing then c.reloadDone
    else if t.kind = 9 then c.laneRestore (bits t.loc 2 0) (bits t.loc 4 3)
    else c
  c.runDone t.slots (b2n rep)

/-- A targeted test failed: the fault is permanent. A Reed line repaired by a spare is tested again (Table 3.9, step 4b). -/
def Chip.testFail (t : TestItem) (sub : Nat) (c : Chip) : Chip :=
  let p := c.permanent t.kind t.loc sub
  let c := p.2
  let n := t.loc % 256
  if t.kind = 5 ∨ t.kind = 6 then
    if p.1 = 1 then (c.setUnit n (fun u => { u with repaired := true, line := bit sub 7 })).tqPush t.kind t.loc t.slots
    else c.runDone t.slots p.1
  else c.runDone t.slots p.1

/-- The end of the test in progress: 0 passed, 1 failed, 2 incomplete. -/
def Chip.testOver (verdict sub : Nat) (c : Chip) : Chip :=
  match c.st.cur with
  | none => c
  | some t =>
    let c := ({ c with st := { c.st with cur := none } } : Chip).set F.ST_STAT_ACT 0
    let c := if t.kind = 10 then c.set (F.ROUTER_STAT_QUIESCING (bits t.loc 6 0)) 0 else c
    match verdict with
    | 0 => c.testPass t
    | 1 => c.testFail t sub
    | _ => { c with st := { c.st with queue := t :: c.st.queue } }

/-- TARGETED_TEST_END: a Windway lane's test ends by LANE_TEST_DONE instead. -/
def Chip.testEnd (y : TestYield) (sub : Nat) (c : Chip) : Chip :=
  match c.st.cur with
  | none => c
  | some t =>
    if t.kind = 9 then c
    else
      (c.set F.ST_LAST_SIG_SIG y.sig.toNat).testOver (TestYield.verdict y.endSt y.done.toNat y.exp.toNat y.sigOk) sub

/-- LANE_TEST_DONE: 10^12 bits of PRBS31 on a lane under test (R338). -/
def Chip.laneTested (p l : Nat) (pass : Bool) (c : Chip) : Chip :=
  match c.st.cur with
  | none => c
  | some t => if t.kind = 9 ∧ t.loc = p + 8 * l then c.testOver (if pass then 0 else 1) 0 else c

/-! ## Slices (R376 to R378) -/

/-- The number of elements of each kind, in the model's numbering: scratchpad banks, DRAM banks, bores of Table 15.9, Reed
groups, routers, fuse words. -/
def stCount : Nat → Nat
  | 0 => 3072
  | 1 => 256
  | 2 => 12375040
  | 3 => 32
  | 4 => 96
  | _ => 65536

/-- `ST_CTL.EN` and `KIND_EN`, and `LG_CTL.EN`, as they read: writable only in FACTORY and RMA (R379, R395). -/
def Chip.stOpen (c : Chip) : Bool := c.lc = lcFactory || c.lc = lcRma
def Chip.stEn (c : Chip) : Nat := if c.stOpen then c.get F.ST_CTL_EN else 1
def Chip.stKinds (c : Chip) : Nat := if c.stOpen then c.get F.ST_CTL_KIND_EN else 0x3F
def Chip.lgEn (c : Chip) : Nat := if c.stOpen then c.get F.LG_CTL_EN else 1

/-- Whether a region's clock is within 3 % of its set frequency (R377). -/
def Chip.clockNear (c : Chip) (r : Nat) : Bool :=
  let s := c.get (F.CLK_RG_FSET r)
  let n := c.get (F.CLK_RG_FNOW r)
  decide ((max s n - min s n) * 100 ≤ 3 * s)

/-- SLICE_START: the next enabled kind, or its skip (R376, R377). -/
def Chip.sliceStart (condOk : Bool) (exp : Nat) (c : Chip) : Chip :=
  if c.stEn = 0 || !c.stRuns || c.st.slice.isSome || c.st.cur.isSome || c.testNext.isSome then c
  else
    match ((List.range 6).map (fun i => (c.st.kind + i) % 6)).find? (fun k => c.stKinds.testBit k) with
    | none => c
    | some k =>
      let first := tget 0 k c.st.ptr
      let c := ({ c with st := { c.st with kind := (k + 1) % 6 } } : Chip).set F.ST_STAT_KIND k
      let ok := condOk && (k ≠ 0 || c.clockNear (first / 16))
      if ok then
        let c := if k = 1 then c.drWakeRank (1024 * first) false else c
        ({ c with st := { c.st with slice := some (k, first, c.dstate), skips := tdel k c.st.skips } } : Chip).set F.ST_STAT_ACT 1
      else
        let n := tget 0 k c.st.skips + 1
        let c := { c.inc F.ST_CNT_B_SKIPPED with st := { c.st with skips := tset k n c.st.skips } }
        let c := (((c.set F.ST_LAST_DONE 0).set F.ST_LAST_EXP exp).set F.ST_LAST_VERDICT 3).set F.ST_LAST_KIND k
        (c.set F.ST_LAST_ELEMENT first).raiseIf (decide (n = 100)) EV_ST_SKIPPING k

/-- The kind by which a slice of each kind names a failing element. -/
def sliceElem : Nat → Nat
  | 0 => 16
  | 1 => 3
  | 2 => 8
  | 3 => 5
  | 4 => 10
  | _ => 12

/-- A Reed loopback slice has measured both lines of every channel in use of `n` groups from `first` (R101). -/
def Chip.reedSliced (first n : Nat) (c : Chip) : Chip :=
  c.forAll (List.range (8 * min n 32)) (fun i c =>
    let ch := (8 * first + i) % 256
    if c.chState ch = chRetired then c else (c.setStarved ch false false).setStarved ch true false)

/-- SLICE_END: `n` elements were tested, and `found` names the failing ones; a slice that outlives its device state was cut
(R376, R378, Table 15.2). -/
def Chip.sliceEnd (y : TestYield) (n : Nat) (found : List Nat) (c : Chip) : Chip :=
  match c.st.slice with
  | none => c
  | some (k, first, st) =>
    let e := if c.dstate = st then y.endSt.val else 5
    let v := TestYield.verdict e y.done.toNat y.exp.toNat y.sigOk
    let c := { c with st := { c.st with slice := none, ptr := tset k ((first + (if v = 2 then n else max 1 n)) % stCount k) c.st.ptr } }
    let c := (((c.set F.ST_STAT_ACT 0).set F.ST_LAST_SIG_SIG y.sig.toNat).set F.ST_LAST_DONE y.done.toNat).set F.ST_LAST_EXP y.exp.toNat
    let c := (((c.set F.ST_LAST_END e).set F.ST_LAST_VERDICT v).set F.ST_LAST_KIND k).set F.ST_LAST_ELEMENT first
    let c := if k = 3 then c.reedSliced first n else c
    if v = 0 then c.inc F.ST_CNT_A_PASS
    else if v = 2 then c.inc F.ST_CNT_B_INCOMPLETE
    else
      ((c.inc F.ST_CNT_A_FAIL).raise EV_ST_SLICE_FAIL (k + 8 * first)).forAll (found.filter (fun l => elemOk (sliceElem k) l))
        (fun l => Chip.tqPush (sliceElem k) l [])

/-! ## The full test (R380) -/

/-- Every failure that the full test found is decided as a targeted test would; the counts of repaired and retired. A fault
under STRICT_HALT ends it. -/
def Chip.fullFaults : List (Nat × Nat × Nat) → Nat → Nat → Chip → Nat × Nat × Chip
  | [], a, b, c => (a, b, c)
  | f :: fs, a, b, c =>
    if c.st.full.isNone then (a, b, c)
    else if c.elemRetired f.1 f.2.1 then Chip.fullFaults fs a b c
    else
      let p := c.permanent f.1 f.2.1 f.2.2
      Chip.fullFaults fs (a + b2n (p.1 = 1)) (b + b2n (p.1 = 2)) p.2

/-- The state that the full test leaves: memories zeroed, stops EMPTY, slots FREE, engines stopped, the device in FW with its user
calibration loaded (R97, R380). -/
def Chip.fullWipe (c : Chip) : Chip :=
  let c := { c with mem := [], sp := { c.sp with bad := [] }, dr := { c.dr with bad := [], wq := [] } }
  let c := c.forAll (regions.filter (fun r => c.rgState r ≠ rgRetired)) (fun r c =>
    (c.forAll (List.range 8) (fun s => Chip.emptyStop r s)).setRg r (fun g => { g with ff := 0, bnd := 0 }))
  let c := (({ c with cfg := { c.cfg with slots := [], grants := [] } } : Chip).leaveUser)
  (((c.setState stFw).denAllLow).auxAll).calLoad ((c.recRead 1).getD [])

/-- FULL_TEST_DONE: the test ends, complete or at an element boundary after an abort. -/
def Chip.fullDone (tested : Nat) (passed : List (Nat × Nat)) (failed : List (Nat × Nat × Nat)) (c : Chip) : Chip :=
  match c.st.full with
  | none => c
  | some f =>
    let passed := passed.filter (fun e => elemOk e.1 e.2)
    let c := c.forAll passed (fun e => Chip.transient e.1 e.2)
    let r := Chip.fullFaults (failed.filter (fun e => elemOk e.1 e.2.1)) 0 0 c
    let c := r.2.2
    match c.st.full with
    | none => c
    | some _ =>
      let c := ({ c with st := { c.st with full := none } } : Chip).fullWipe.set F.ST_STAT_ACT 0
      if f.aborts = [] then c.ok f.slot (natLe 4 tested ++ natLe 4 passed.length ++ natLe 4 r.1 ++ natLe 4 r.2.1)
      else (c.fail f.slot ST_ABORTED dtNone).endAll f.aborts ST_OK dtNone

/-! ## Ligature (R391 to R395) -/

/-- Whether Ligature reads a stop: neither EMPTY nor LOADING, in a region that is not RETIRED (R391). -/
def Chip.lgReads (c : Chip) (k : Nat) : Bool := c.rgState (k / 8) ≠ rgRetired && c.stopState (k / 8) (k % 8) = ssReady

/-- The first stop that Ligature reads at or after stop number `k`, in the order of R391; 1,536 where the pass has no more. -/
def Chip.lgFrom (c : Chip) (k : Nat) : Nat := (((List.range 1536).filter (fun i => decide (k ≤ i))).find? c.lgReads).getD 1536

/-- Put the position at the first frame of a stop that is read; past the last one a new pass starts (R391). -/
def Chip.lgMove (k : Nat) (c : Chip) : Chip :=
  let j := c.lgFrom k
  let c := if 1536 ≤ j then c.inc F.LG_STAT_PASSES else c
  let j := if 1536 ≤ j then c.lgFrom 0 % 1536 else j
  ((c.set F.LG_STAT_REGION (j / 8)).set F.LG_STAT_STOP (j % 8)).set F.LG_STAT_FRAME 0

/-- The frame after the present one. -/
def Chip.lgNext (c : Chip) : Chip :=
  let f := c.get F.LG_STAT_FRAME
  if f < 1599 then c.set F.LG_STAT_FRAME (f + 1) else c.lgMove (8 * c.get F.LG_STAT_REGION + c.get F.LG_STAT_STOP + 1)

/-- The first 16-byte word in which two frames differ. -/
def firstDiff (a b : List Byte) : Nat := ((List.range 20).find? (fun w => pf a (16 * w) 16 ≠ pf b (16 * w) 16)).getD 0

/-- A bad frame: counted, recorded, and its reload begins; a governing stop holds its region (R392, R393). -/
def Chip.lgBad (r s q w : Nat) (byCrc : Bool) (c : Chip) : Chip :=
  let c := ((((c.inc F.LG_CNT_A_UNCORR).set F.LG_LAST_REGION r).set F.LG_LAST_STOP s).set F.LG_LAST_FRAME q).set F.LG_LAST_WORD w
  let c := (c.set F.LG_LAST_BY_CRC (b2n byCrc)).set F.LG_STAT_RELOADING 1
  let c := { c with lg := { c.lg with reload := some (r, s, q, w), testing := false, restart := false } }
  if c.gov r = s then c.holdRegion r hwyLigature else c

/-- LIGATURE_FRAME_CHECK: the frame at the position is read: `corr` single-bit errors are corrected, `find` is what else is
found, `vote` 1 an outvoted copy and 2 no agreement (R391, R392, R395). While a reload is in progress no frame is read, and a
restart waits. -/
def Chip.lgCheck (corr : Nat) (find : LgFind) (vote : Nat) (c : Chip) : Chip :=
  if c.lgEn = 0 ∨ c.dstate < stFw ∨ stConfigFailed < c.dstate ∧ c.dstate ≠ stSafe then c
  else if c.lg.reload.isSome then
    if vote = 2 then { c with lg := { c.lg with restart := true } }
    else if vote = 1 then c.inc F.LG_CNT_C_VOTE_CORR
    else c
  else if vote = 2 then c.lgRestart
  else
    let c := if vote = 1 then c.inc F.LG_CNT_C_VOTE_CORR else c
    let here := 8 * c.get F.LG_STAT_REGION + c.get F.LG_STAT_STOP
    let c := if c.lgReads here then c else c.lgMove here
    let r := c.get F.LG_STAT_REGION
    let s := c.get F.LG_STAT_STOP
    let q := c.get F.LG_STAT_FRAME
    if !c.lgReads (8 * r + s) then c
    else
      let k := tget 0 (rsKey r s) c.cfg.src
      let fr := tget zeroFrame (rsKey r s * 1600 + q) c.cfg.conf
      let first := corr ≠ 0 && c.get F.LG_CNT_A_CORR = 0
      let c := (c.addSat F.LG_CNT_A_CORR corr).raiseIf first EV_LG_CORRECTED (r + s * 2 ^ 8 + q * 2 ^ 11)
      let c := c.lgNext
      match find with
      | .word w => c.lgBad r s q w false
      | .crc w => c.lgBad r s q w true
      | .clean => if crc32c fr = c.slotCrc k q then c else c.lgBad r s q (firstDiff fr (c.slotFrame k q)) true

/-- LIGATURE_RELOAD_DONE: the bad frame has been read from its slot, written and read back; `dataBad` says that the slot's
data cannot be read, `again` that the frame reads back bad (R393, R394). -/
def Chip.lgReload (dataBad again : Bool) (c : Chip) : Chip :=
  match c.lg.reload with
  | none => c
  | some (r, s, q, w) =>
    let k := tget 0 (rsKey r s) c.cfg.src
    let a := c.slotAddr k + 0x4000 + 320 * q
    if c.lg.testing then c
    else
    let new := a / 8 * 8 + 8 * (c.freeVal % 40)
    let c := if dataBad then { c.freeNext with dr := { c.dr with bad := if c.dr.bad.contains new then c.dr.bad else c.dr.bad ++ [new] } } else c
    let p := c.rowReads a 320
    let c := p.2
    if p.1 ≠ rspOk then
      let g := decide (c.gov r = s)
      let c := ((c.emptyStop r s).inc F.LG_CNT_C_RELOAD_FAIL).raise EV_LG_RELOAD_FAILED (r + s * 2 ^ 8 + q * 2 ^ 11 + b2n g * 2 ^ 22)
      c.reloadOver
    else
      let c := { c with cfg := { c.cfg with conf := tput zeroFrame (rsKey r s * 1600 + q) (c.slotFrame k q) c.cfg.conf } }
      if again then
        ({ c with lg := { c.lg with testing := true } } : Chip).tqPush 11 (r + s * 2 ^ 8 + q * 2 ^ 11 + w * 2 ^ 22) []
      else c.reloadDone

/-! ## Counters and live words -/

def Chip.clrCounters (v : Nat) (groups : List (List Fld)) (c : Chip) : Chip :=
  c.forAll ((List.range groups.length).filter (fun i => v.testBit i)) (fun i => Chip.clear (groups.getD i []))

/-- ST_CNT_CLR and LG_CNT_CLR. -/
def Chip.stCntClr (v : Nat) (c : Chip) : Chip :=
  c.clrCounters v [[F.ST_CNT_A_PASS, F.ST_CNT_A_FAIL], [F.ST_CNT_B_INCOMPLETE, F.ST_CNT_B_SKIPPED], [F.ST_CNT_C_TRANSIENT, F.ST_CNT_C_PERMANENT]]
def Chip.lgCntClr (v : Nat) (c : Chip) : Chip :=
  c.clrCounters v [[F.LG_CNT_A_CORR, F.LG_CNT_A_UNCORR], [F.LG_CNT_B_RELOADS, F.LG_CNT_B_RESTARTS], [F.LG_CNT_C_VOTE_CORR, F.LG_CNT_C_RELOAD_FAIL]]

/-- `ST_CTL`, `ST_STAT` and `LG_CTL` as they read. -/
def Chip.stCtlWord (c : Chip) : Nat := c.stEn + c.get F.ST_CTL_PERIOD * 2 ^ 16 + c.stKinds * 2 ^ 32
def Chip.stStatWord (c : Chip) : Nat := c.regWord F.ST_STAT_ACT.off + c.st.queue.length * 2 ^ 5
def Chip.lgCtlWord (c : Chip) : Nat := c.lgEn

/-- A write of `ST_CTL` (R379, Table 15.11). -/
def Chip.stCtlWrite (v : Nat) (c : Chip) : Rsp × Chip :=
  let p := bits v 31 16
  if p < 10 ∨ 10000 < p then (rspRange, c)
  else
    let c := c.set F.ST_CTL_PERIOD p
    (rspOk, if c.stOpen then (c.set F.ST_CTL_EN (bit v 0)).set F.ST_CTL_KIND_EN (bits v 37 32) else c)

/-- A write of `LG_CTL` (R395). -/
def Chip.lgCtlWrite (v : Nat) (c : Chip) : Rsp × Chip := (rspOk, if c.stOpen then c.set F.LG_CTL_EN (bit v 0) else c)

/-! ## Commands (R398) -/

/-- While a full test runs every command of the class but `CH_ST_STATUS` is turned away (R398). -/
def notInTest (c : Chip) (_pl : List Byte) : Option (Nat × Nat) := if c.st.full.isSome then some (ST_BAD_STATE, dtTestBusy) else none

def stCmd (op : Nat) (life : Nat → Bool) (chk : Chip → List Byte → Option (Nat × Nat)) (run : Nat → List Byte → Chip → Chip) : Cmd :=
  { Cmd.plain 0x09 op life chk run with when := notInTest }

def cmdStStatus : Cmd := Cmd.plain 0x09 0x00 live (fun _ pl => lenIs 0 pl) (fun id _ c =>
  c.ok id (natLe 8 c.stStatWord ++ [F.ST_LAST_DONE, F.ST_CNT_B_INCOMPLETE, F.ST_CNT_C_TRANSIENT, F.ST_RLOG_ENTRIES].flatMap
    (fun f => natLe 8 (c.regWord f.off))))

def cmdStRun : Cmd := stCmd 0x01 live
  (lenParam 8 (fun pl => decide (1 ≤ pb pl 0) && decide (pb pl 0 ≤ 12) && pf pl 1 3 = 0 && elemOk (pb pl 0) (pf pl 4 4)))
  (fun id pl c =>
    let kind := pb pl 0
    let loc := pf pl 4 4
    if c.elemRetired kind loc then c.fail id ST_RETIRED dtNone
    else if c.dstate = stSafe then c.fail id ST_BAD_STATE dtNone
    else if c.tqFull kind loc then c.fail id ST_BUSY dtQueueFull
    else
      let c := c.interim id ST_ACCEPTED dtNone []
      if kind = 9 ∧ c.wpState (bits loc 2 0) = wpUp then c.laneOut (bits loc 2 0) (bits loc 4 3) [id] else c.tqPush kind loc [id])

/-- In PROVISIONED and FIELD the full test needs a signed request (R380). -/
def cmdStFull : Cmd := { stCmd 0x02 live (fun _ pl => lenIs 0 pl) (fun id _ c =>
  let a := if lcProvField c.lc then c.checkRequest testMagic 5 0x02 else (none, c)
  let c := a.2
  match a.1 with
  | some f => c.fail id f.1 f.2
  | none =>
    let c := c.interim id ST_ACCEPTED dtNone []
    let c := if c.dstate = stUser then (c.leaveUser).cfgCancel else c
    let c := (((c.setState stTest).holdAll).denAllLow).auxAll
    let c := { c with st := { c.st with full := some { slot := id, aborts := [] } } }
    c.set F.ST_STAT_ACT 3) with
  when := fun c pl => orElse (notInTest c pl) (inStates [stFw, stUser] c pl) }

def cmdStLogRead : Cmd := stCmd 0x03 live
  (fun c pl => orElse (lenIs 8 pl) (param (decide (1 ≤ pf pl 2 2) && decide (pf pl 2 2 ≤ 511) && decide (pb pl 4 < 2) && pf pl 5 3 = 0 &&
    decide (pf pl 0 2 + pf pl 2 2 ≤ (if pb pl 4 = 1 then c.st.fused else c.st.log).length))))
  (fun id pl c => c.ok id (rlogBytes (((if pb pl 4 = 1 then c.st.fused else c.st.log).drop (pf pl 0 2)).take (pf pl 2 2))))

/-- The log entries that a fuse burn takes: ACTION 0 or 1, in log order, as far as records are left (R388). -/
def Chip.fuseTakes (c : Chip) : List Nat := (c.st.log.filter (fun e => decide (bits e 5 4 < 2))).take (256 - c.st.fused.length)

def cmdStFuseRepair : Cmd := stCmd 0x04 live (fun _ pl => lenIs 0 pl) (fun id _ c => c.burn id 6 0 [])

def cmdStLogClear : Cmd := stCmd 0x05 (fun lc => lc = lcFactory || lc = lcRma) (fun _ pl => lenIs 0 pl) (fun id _ c =>
  let c := ({ c with st := { c.st with log := [] } } : Chip).setSlot id (fun (s : Slot) => { s with noStop := true })
  ((c.set F.ST_RLOG_FULL 0).rlogShow).recWrite 2 [] none (.slot id dtNone []))

def cmdLgStatus : Cmd := stCmd 0x06 live (fun _ pl => lenIs 0 pl) (fun id _ c =>
  c.ok id ([F.LG_STAT_REGION, F.LG_LAST_REGION, F.LG_CNT_A_CORR, F.LG_CNT_B_RELOADS, F.LG_CNT_C_VOTE_CORR].flatMap
    (fun f => natLe 8 (c.regWord f.off)) ++ natLe 8 c.lgCtlWord))

/-- The burn of fuse repair records: the records, then the record write that removes the burned entries ends the command. -/
def Chip.fuseRepaired (b : Burn) (c : Chip) : Chip :=
  let es := c.fuseTakes
  let all := (c.st.log.filter (fun e => decide (bits e 5 4 < 2))).length
  let c := { c with st := { c.st with fused := c.st.fused ++ es, log := c.st.log.filter (fun e => !es.contains e) } }
  ((c.set F.ST_RLOG_FULL (b2n (decide (4096 ≤ c.st.log.length)))).rlogShow).recWrite 2 (rlogBytes c.st.log) none
    (.slot b.slot (if es.length < all then dtFusesFull else dtNone) (natLe 4 es.length))

/-- FUSE_BURN_DONE: the oldest burn ends. -/
def Chip.fuseDone (c : Chip) : Chip :=
  match c.cfg.burns with
  | [] => c
  | b :: q =>
    let c := { c with cfg := { c.cfg with burns := q } }
    if b.what = 6 then c.fuseRepaired b else c.burnDone b

/-! ## The commands -/

def elemPair (e : Fin 17 × BitVec 32) : Nat × Nat := (e.1, e.2.toNat)
def elemTriple (e : Fin 17 × BitVec 32 × BitVec 16) : Nat × Nat × Nat := (e.1, e.2.1.toNat, e.2.2.toNat)

def execFuseBurnDone (s : State) := runChip Chip.fuseDone s
def execLaneTestDone (port : Fin 8) (lane : Fin 4) (pass : Bool) (s : State) := runChip (Chip.laneTested port lane pass) s
def execSliceStart (condOk : Bool) (exp : BitVec 16) (s : State) := runChip (Chip.sliceStart condOk exp.toNat) s
def execSliceEnd (y : TestYield) (n : Nat) (found : List (BitVec 32)) (s : State) :=
  runChip (Chip.sliceEnd y n (found.map BitVec.toNat)) s
def execTargetedTestStart (s : State) := runChip Chip.testStart s
def execTargetedTestEnd (y : TestYield) (sub : BitVec 16) (s : State) := runChip (Chip.testEnd y sub.toNat) s
def execFullTestDone (tested : BitVec 32) (passed : List (Fin 17 × BitVec 32)) (failed : List (Fin 17 × BitVec 32 × BitVec 16)) (s : State) :=
  runChip (Chip.fullDone tested.toNat (passed.map elemPair) (failed.map elemTriple)) s
def execStCntClr (data : Word) (s : State) := runChip (fun c => (c.stCntClr data.toNat).answer rspOk 0) s
def execLgCntClr (data : Word) (s : State) := runChip (fun c => (c.lgCntClr data.toNat).answer rspOk 0) s
def execLigatureFrameCheck (corr : Fin 21) (find : LgFind) (vote : Fin 3) (s : State) := runChip (Chip.lgCheck corr find vote) s
def execLigatureReloadDone (dataBad again : Bool) (s : State) := runChip (Chip.lgReload dataBad again) s
def execChStStatus (p : Pkt) (s : State) := runAon (Chip.command cmdStStatus p) s
def execChStRun (p : Pkt) (s : State) := runAon (Chip.command cmdStRun p) s
def execChStFull (p : Pkt) (s : State) := runAon (Chip.command cmdStFull p) s
def execChStLogRead (p : Pkt) (s : State) := runAon (Chip.command cmdStLogRead p) s
def execChStFuseRepair (p : Pkt) (s : State) := runAon (Chip.command cmdStFuseRepair p) s
def execChStLogClear (p : Pkt) (s : State) := runAon (Chip.command cmdStLogClear p) s
def execChLgStatus (p : Pkt) (s : State) := runAon (Chip.command cmdLgStatus p) s

end Sys2Proof.Machine
end

