-- ==== Sys2Proof/Machine/Power.lean ====
section
/-! DEFINITION. Region clocks and power, and the persistent store's commands, aperture and counters (chapter 16). -/

namespace Sys2Proof.Machine

def dtNoRecord : Nat := 0x50
def dtNvsUncorrectable : Nat := 0x51
def dtRegionBusy : Nat := 0x52
def dtStopNotReady : Nat := 0x53

/-! ## Region clocks (R412) -/

/-- `FSET` within 16 to 256. -/
def fsetOk (v : Nat) : Bool := decide (16 ≤ v) && decide (v ≤ 256)

/-- Set a region's frequency: on clock source 0 the clock starts to move, unless it is there already; another source
stores it (R412). -/
def Chip.setFset (r v : Nat) (c : Chip) : Chip :=
  let c := c.set (F.CLK_RG_FSET r) v
  if c.get (F.FAB_RG_CTL_CLKSRC r) ≠ 0 ∨ c.rgState r = rgOff ∨ c.rgState r = rgRetired then c
  else if c.get (F.CLK_RG_FNOW r) = throttled v (c.get (zoneS r)) ∧ !c.is (F.CLK_RG_SLEWING r) then c
  else c.set (F.CLK_RG_SLEWING r) 1

/-- A write of `CLK_RG`. -/
def Chip.clkWrite (r v : Nat) (c : Chip) : Rsp × Chip :=
  if fsetOk (bits v 8 0) then (rspOk, c.setFset r (bits v 8 0)) else (rspRange, c)

/-- CLOCK_SLEW_DONE: the frequency of the last `FSET` is in force, after throttling; `CH_CLK_REGION` commands end. -/
def Chip.slewDone (r : Nat) (c : Chip) : Chip :=
  if !c.is (F.CLK_RG_SLEWING r) then c
  else
    let c := (c.set (F.CLK_RG_SLEWING r) 0).regionClock r
    let ids := (c.ch.slots.filter (fun s => s.running && s.cls = 0x08 && s.op = 0x11 && pb s.payload 0 = r)).map (fun s => s.id)
    c.endAll ids ST_OK dtNone

def cmdClkRegion : Cmd := Cmd.plain 0x08 0x11 live
  (lenParam 8 (fun pl => decide (pb pl 0 < 192) && pb pl 1 = 0 && fsetOk (pf pl 2 2) && pf pl 4 4 = 0))
  (fun id pl c =>
    let r := pb pl 0
    if c.rgState r = rgRetired then c.fail id ST_RETIRED dtNone
    else
      let c := c.setFset r (pf pl 2 2)
      if c.is (F.CLK_RG_SLEWING r) then c else c.ok id [])

/-! ## Region power (R413) -/

/-- The running `CH_PWR_REGION` of a region. -/
def Chip.pwrCmd (c : Chip) (r : Nat) : Option Slot := c.runningCmd 0x08 0x16 (fun pl => pb pl 0 = r)

/-- A region that a power command may not touch: HELD, a target of a load, paging, rewrite or Tongue request in progress,
bound to or named by an engine that is ARMED, RUNNING or PAUSED, or changing already. -/
def Chip.regionBusy (c : Chip) (id r : Nat) : Bool :=
  let pages := c.cfg.page.toList ++ c.cfg.waiting
  c.rgState r = rgHeld || pages.any (fun p => p.targets.any (fun t => t.1 = r)) ||
    (c.cfg.load.map (fun (l : Load) => l.targets.any (fun t => t.1 = r) || (l.kind = 2 && l.region = r))).getD false ||
    (c.cfg.rewrite.map (fun q => decide (q.2.2.1 = r))).getD false || c.engineOn r ||
    c.ch.slots.any (fun s => s.running && s.id ≠ id && s.cls = 0x08 && s.op = 0x16 && pb s.payload 0 = r)

def cmdPwrRegion : Cmd := { Cmd.plain 0x08 0x16 live
  (lenParam 4 (fun pl => decide (pb pl 0 < 192) && decide (pb pl 1 < 2) && decide (pb pl 2 < 8) && pb pl 3 = 0 &&
    (pb pl 1 = 1 || pb pl 2 = 0)))
  (fun id pl c =>
    let r := pb pl 0
    let on := pb pl 1 = 1
    let st := c.rgState r
    if st = rgRetired then c.fail id ST_RETIRED dtNone
    else if c.dstate ≠ stUser then c.fail id ST_BAD_STATE dtNone
    else if c.regionBusy id r then c.fail id ST_BAD_STATE dtRegionBusy
    else if (on ∧ st = rgRun) ∨ (!on ∧ st = rgOff) then c.ok id []
    else if on ∧ c.stopState r (pb pl 2) ≠ ssReady then c.fail id ST_BAD_STATE dtStopNotReady
    else
      let c := c.interim id ST_ACCEPTED dtNone []
      if on then c else c.domClose (domRegion r) 1) with
    when := inStates [stUser] }

/-- The commands in flight whose target lies in the domain of a targeted reset (R60). -/
def resetHits (kind idx : Nat) (s : Slot) : Bool :=
  let pl := s.payload
  !s.ended && ((s.cls = 0x00 && s.op = 0x05 && pb pl 0 = kind && pf pl 2 2 = idx) ||
    match kind with
    | 2 => (s.cls = 0x02 && decide (s.op < 0x10) && pb pl 0 = idx) || (s.cls = 0x08 && (s.op = 0x11 || s.op = 0x16) && pb pl 0 = idx)
    | 3 => s.cls = 0x03 && pb pl 0 = idx
    | 4 => s.cls = 0x04 && s.op = 0x06 && pb pl 0 = idx
    | 5 => s.cls = 0x06 && pf pl 0 2 = idx
    | 6 => s.cls = 0x07 && (s.op = 0x04 || s.op = 0x05) && pb pl 0 = idx
    | 7 => s.cls = 0x02 && (s.op = 0x11 || s.op = 0x12 || s.op = 0x14)
    | _ => false)

/-- Commands in flight whose target is a region, or waits for its banks, end with its domain's closing; the one in slot `id` is the
cause (R60). -/
def Chip.regionCmdsEnd (id r st : Nat) (c : Chip) : Chip :=
  let ids := (c.ch.slots.filter (fun s => s.id ≠ id && resetHits 2 r s)).map (fun s => s.id)
  ({ c with sp := { c.sp with waits := c.sp.waits.filter (fun q => q.2.1 ≠ r) } } : Chip).endAll ids st dtNone

/-- REGION_POWER_DONE: the region is unpowered, or powered and running under the named stop. -/
def Chip.powerRegionDone (r : Nat) (c : Chip) : Chip :=
  match c.pwrCmd r with
  | none => c
  | some s =>
    if c.dstate ≠ stUser then (if pb s.payload 1 = 0 then c.domOpen (domRegion r) else c).fail s.id ST_BAD_STATE dtNone
    else if pb s.payload 1 = 0 then
      ((((c.domClosed (domRegion r)).regionOff r).spRegionOff r).regionCmdsEnd s.id r ST_DOMAIN_OFF).ok s.id []
    else
      (((c.regionRun r (pb s.payload 2)).spRegionOn r).domOpen (domRegion r)).ok s.id []

/-! ## The persistent store (R414 to R421, R426) -/

/-- A read meets an uncorrectable word: counted, with its flag and event (R419). -/
def Chip.nvsUnc (w : Nat) (c : Chip) : Chip :=
  ((c.inc F.NVS_CNT_UNC_CNT).set F.NVS_STAT_UNC_WORD w).flagEvent F.NVS_STAT_UNC EV_NVS_UNCORRECTABLE w

/-- A read of `n` words of the user partition for a command; it stops at the first uncorrectable word (Table 16.11). -/
def Chip.userRead (id w n : Nat) (c : Chip) : Chip :=
  let ws := (List.range n).map (fun i => w + i)
  match ws.find? (fun w => c.nvs.uncorr.contains w) with
  | some w => (c.nvsUnc w).fail id ST_HW_FAULT dtNvsUncorrectable
  | none => c.ok id (ws.flatMap (fun w => natLe 8 ((c.nvsWord w).getD 0)))

/-- A read of a word through the aperture (R419). -/
def Chip.wordRead (w : Nat) (c : Chip) : (Rsp × Nat) × Chip :=
  match c.nvsWord w with
  | some x => ((rspOk, x), c)
  | none => ((rspUncorr, 0), c.nvsUnc w)

/-- What follows the last word of a job, or the turn of a read. -/
def Chip.nvsFollow (d : NvsDone) (c : Chip) : Chip :=
  match d with
  | .none => c
  | .slot id dt pl => c.finish id ST_OK dt pl
  | .net ni idx ep => c.respond ni idx ep rspOk 0 [] 52
  | .access => c.answer rspOk 0
  | .fwBegin id b len =>
    Chip.finish id ST_OK b [] (if c.ch.restarting then c else { c with ch := { c.ch with fw := some { copy := b, len := len, data := [], done := [] } } })
  | .userRead id w n => c.userRead id w n
  | .accRead w => let x := c.wordRead w; x.2.answer x.1.1 x.1.2
  | .fwCommit id b => { c with ch := { c.ch with commitDue := c.ch.commitDue ++ [(id, b)] } }

/-- Perform the reads whose turn has come, in their order (R421). -/
def Chip.nvsReads (c : Chip) : Chip :=
  c.forAll (nvsReady [] c.nvs.jobs) (fun j c => Chip.nvsFollow j.done { c with nvs := { c.nvs with jobs := c.nvs.jobs.erase j } })

/-- NVS_WORD_WRITE_DONE. -/
def Chip.nvsWordDone (m : Nat) (c : Chip) : Chip :=
  let p := c.nvsStep m
  Chip.nvsReads (match p.2 with
    | some d => p.1.nvsFollow d
    | none => p.1)

/-- The page of an NI's aperture. -/
def Chip.upage (c : Chip) (ni : Nat) : Nat := c.get (F.NVS_UPAGE_PAGE (ni / 32) (ni % 32))

/-- An access to the aperture by an NI: its answer with the data, or none while its macro is busy or until the word is
written (R419 to R421). `done` answers a write. -/
def Chip.aperture (ni off : Nat) (write wide : Bool) (v : Nat) (done : NvsDone) (c : Chip) : Option (Rsp × Nat) × Chip :=
  if ni < 96 then (some (rspDenied, 0), c)
  else if wide ∨ off % 8 ≠ 0 then (some (rspAlign, 0), c)
  else
    let w := (c.upage ni * 0x80000 + off) / 8
    if write then (none, c.nvsWrite [(w, v)] done)
    else if !c.nvsIdle [nvsMacro w] then (none, c)
    else
      let x := c.wordRead w
      (some x.1, x.2)

/-- NVS_APERTURE_ACCESS; a read of a busy macro takes its turn (R421). -/
def Chip.apertureAccess (ni off : Nat) (write wide : Bool) (v : Nat) (c : Chip) : Chip :=
  match c.aperture ni off write wide v .access with
  | (some r, c) => c.answer r.1 r.2
  | (none, c) =>
    if write then c
    else c.nvsJob { words := [], record := none, payload := none, bank := none, done := .accRead ((c.upage ni * 0x80000 + off) / 8) }

/-- NVS_UPAGE_SELF_ACCESS: the page of the accessing region's NI (R420). -/
def Chip.upageSelf (ni : Nat) (write : Bool) (v : Nat) (c : Chip) : (Rsp × Nat) × Chip :=
  if ni < 96 then ((rspDenied, 0), c)
  else if write then ((rspOk, 0), c.set (F.NVS_UPAGE_PAGE (ni / 32) (ni % 32)) (v % 4))
  else ((rspOk, c.upage ni), c)

/-- NVS_CNT_CLR. -/
def Chip.nvsCntClr (v : Nat) (c : Chip) : Chip := if v.testBit 0 then c.clear [F.NVS_CNT_UNC_CNT, F.NVS_CNT_EVLOG_LOST] else c

/-! ## Commands (R426) -/

/-- The eleven `PWR_RAIL` words: measurements, which are free values (log entry 2). -/
def Chip.railWords (c : Chip) : List Nat := (List.range 11).map (fun i => Config.freeValue (c.freeCtr + i) % 2 ^ 48)

def cmdPwrStatus : Cmd := Cmd.plain 0x08 0x10 lcAll (fun _ pl => lenIs 0 pl) (fun id _ c =>
  Chip.ok id (natLe 8 (c.regWord F.PWR_STAT_VALID.off) ++ c.railWords.flatMap (natLe 8)) { c with freeCtr := c.freeCtr + 11 })

def cmdNvsRecInfo : Cmd := Cmd.plain 0x08 0x12 lcAll (lenParam 4 (fun pl => decide (pf pl 0 4 < 3))) (fun id pl c =>
  let r := pf pl 0 4
  c.ok id (c.recHead r 0 ++ c.recHead r 1 ++ natLe 1 ((c.recChosen r).getD 0xFF) ++
    natLe 1 (b2n (c.recBank r 0).isSome) ++ natLe 1 (b2n (c.recBank r 1).isSome) ++ natLe 1 0))

def cmdNvsRecRead : Cmd := Cmd.plain 0x08 0x13 live
  (lenParam 10 (fun pl => decide (1 ≤ pb pl 0) && decide (pb pl 0 < 3) && pf pl 1 3 = 0 && decide (1 ≤ pf pl 8 2) && decide (pf pl 8 2 ≤ 4096) &&
    decide (pf pl 4 4 + pf pl 8 2 ≤ recCap (pb pl 0))))
  (fun id pl c =>
    match c.recRead (pb pl 0) with
    | none => c.fail id ST_BAD_STATE dtNoRecord
    | some p => c.ok id ((List.range (pf pl 8 2)).map (fun i => p.getD (pf pl 4 4 + i) 0)))

def cmdNvsEvlogRead : Cmd := Cmd.plain 0x08 0x14 lcAll
  (lenParam 6 (fun pl => decide (1 ≤ pf pl 4 2) && decide (pf pl 4 2 ≤ 127)))
  (fun id pl c =>
    let es := (List.range (pf pl 4 2)).filterMap (fun i =>
      let s := (pf pl 0 4 + i) % 2 ^ 32
      match c.evlogAt s with
      | some b => if pf b 16 4 = s then some b else none
      | none => none)
    c.ok id (natLe 4 (c.evlogNewest.getD 0) ++ es.flatten))

/-- A command on the user partition; a read of a busy macro takes its turn (R421). -/
def cmdNvsUser : Cmd := Cmd.plain 0x08 0x15 live
  (fun _ pl =>
    if pl.length < 16 then some (ST_BAD_LENGTH, dtNone)
    else if 1 < pb pl 0 ∨ pf pl 1 3 ≠ 0 ∨ pf pl 4 4 % 8 ≠ 0 ∨ pf pl 8 2 = 0 ∨ 510 < pf pl 8 2 ∨ pf pl 10 6 ≠ 0 ∨
        0x200000 < pf pl 4 4 + 8 * pf pl 8 2 then some (ST_BAD_PARAM, dtNone)
    else if pl.length ≠ 16 + (if pb pl 0 = 1 then 8 * pf pl 8 2 else 0) then some (ST_BAD_LENGTH, dtNone)
    else none)
  (fun id pl c =>
    let w := pf pl 4 4 / 8
    let n := pf pl 8 2
    if pb pl 0 = 1 then c.nvsWrite (wordsOf (pf pl 4 4) (pl.drop 16)) (.slot id dtNone (natLe 4 n))
    else if c.nvsIdle [nvsMacro w, nvsMacro (w + n - 1)] then c.userRead id w n
    else c.nvsJob { words := [], record := none, payload := none, bank := none, done := .userRead id w n })

/-- The user calibration record's payload: the six user values of every channel (R97, Table 16.7). -/
def Chip.calBytes (c : Chip) : List Byte :=
  (List.range 256).flatMap (fun n => (List.range 6).flatMap (fun p => natLe 2 (c.get (calFld true (n / 8) (n % 8) p))))

def cmdRdCalSave : Cmd := Cmd.plain 0x04 0x05 live (fun _ pl => lenIs 0 pl) (fun id _ c =>
  ((c.interim id ST_ACCEPTED dtNone []).setSlot id (fun (s : Slot) => { s with noStop := true })).recWrite 1 c.calBytes none
    (.slot id dtNone []))

/-! ## The commands -/

def execClkRgWrite (r : Fin 192) (data : Word) (s : State) := runChip (fun c => answerWrite (c.clkWrite r data.toNat)) s
def execClockSlewDone (r : Fin 192) (s : State) := runChip (Chip.slewDone r) s
def execRegionPowerDone (r : Fin 192) (s : State) := runChip (Chip.powerRegionDone r) s
def execNvsWordWriteDone (macroNo : Fin 8) (s : State) := runChip (Chip.nvsWordDone macroNo) s
def execNvsApertureAccess (ni : Fin 288) (off : BitVec 19) (write wide : Bool) (data : Word) (s : State) :=
  runChip (Chip.apertureAccess ni off.toNat write wide data.toNat) s
def execNvsUpageSelfAccess (ni : Fin 288) (write : Bool) (data : Word) (s : State) :=
  runChip (fun c => (c.upageSelf ni write data.toNat).2.answer (c.upageSelf ni write data.toNat).1.1 (c.upageSelf ni write data.toNat).1.2) s
def execNvsCntClr (data : Word) (s : State) := runChip (fun c => (c.nvsCntClr data.toNat).answer rspOk 0) s
def execEvlogEntryWritten (s : State) := runChip Chip.evlogWritten s
def execChPwrStatus (p : Pkt) (s : State) := runAon (Chip.command cmdPwrStatus p) s
def execChClkRegion (p : Pkt) (s : State) := runAon (Chip.command cmdClkRegion p) s
def execChPwrRegion (p : Pkt) (s : State) := runAon (Chip.command cmdPwrRegion p) s
def execChNvsRecInfo (p : Pkt) (s : State) := runAon (Chip.command cmdNvsRecInfo p) s
def execChNvsRecRead (p : Pkt) (s : State) := runAon (Chip.command cmdNvsRecRead p) s
def execChNvsEvlogRead (p : Pkt) (s : State) := runAon (Chip.command cmdNvsEvlogRead p) s
def execChNvsUser (p : Pkt) (s : State) := runAon (Chip.command cmdNvsUser p) s
def execChRdCalSave (p : Pkt) (s : State) := runAon (Chip.command cmdRdCalSave p) s

end Sys2Proof.Machine
end

