-- ==== Sys2Proof/Machine/Target.lean ====
section
/-! DEFINITION. Control space as a target (R6, R8, R27, R304): what a read and a write of each register answers and does.
Registers without behaviour of their own follow their access codes. -/

namespace Sys2Proof.Machine

/-! ## Registers of the system and network blocks (R63, R70, R312, R314) -/

/-- EVQ_MASK_WRITE: bits of severity 3 ignore writes; queued entries that become unmasked may request the event IBI (R63). -/
def Chip.evqMask (v : Nat) (c : Chip) : Chip :=
  let n := c.openEvents.length
  (c.set F.EVQ_MASK_MASK (v &&& 0x777777777777)).ibiIfRisen n

/-- EVQ_CLR_LOST. -/
def Chip.evqClrLost (c : Chip) : Chip :=
  c.clear [F.EVQ_LOST_A_LOST_INFO, F.EVQ_LOST_A_LOST_WARN, F.EVQ_LOST_B_LOST_ERROR, F.EVQ_LOST_B_LOST_FATAL]

/-- EVQ_FLUSH: every entry is removed and none is counted; an overflow event owed is raised into the room (R62, R70). -/
def Chip.evqFlush (c : Chip) : Chip := Chip.evqOverflow { c with ch := { c.ch with events := [] } }

/-- A write of `EVQ_CTL`. -/
def Chip.evqCtl (v : Nat) (c : Chip) : Chip :=
  let c := if v.testBit 0 then c.evqClrLost else c
  if v.testBit 1 then c.evqFlush else c

/-- CH_CNT_CLR. -/
def Chip.chCntClr (v : Nat) (c : Chip) : Chip :=
  let c := if v.testBit 0 then c.clear [F.CH_CNT_A_HDR_CRC_ERR, F.CH_CNT_A_PAY_CRC_ERR] else c
  if v.testBit 1 then c.clear [F.CH_CNT_B_BUSY_REFUSALS, F.CH_CNT_B_FWD_LATE] else c

/-- `CH_QSTAT` (Table 2.15). -/
def Chip.qstat (c : Chip) : Nat :=
  c.ch.slots.length + (c.ch.slots.filter (fun s => s.reserved && s.flags.testBit 0)).length * 2 ^ 6 + c.ch.fwd.length * 2 ^ 16 +
    c.refusals * 2 ^ 25

/-- `EVQ_STAT` (Table 2.17). -/
def Chip.evqStat (c : Chip) : Nat := c.ch.events.length + c.openEvents.length * 2 ^ 16

/-- `SYS_ID`, which shows the device ID and the root flag of `WW_ID` (R70). -/
def Chip.sysId (c : Chip) : Nat := 0x02097A + c.get F.WW_ID_DEVICE_ID * 2 ^ 24 + c.get F.WW_ID_ROOT * 2 ^ 36

/-- Every mesh link, as (router, port). -/
def meshLinks : List (Nat × Nat) := ((List.range 96).flatMap (fun n => (List.range 4).map (fun p => (n, p)))).filter (fun l => !atEdge l.1 l.2)

/-- `NET_STAT` (Table 11.10). -/
def Chip.netStat (c : Chip) : Nat :=
  let n := fun (k : Nat) => (meshLinks.filter (fun l => c.linkState l.1 l.2 = k)).length
  c.get F.NET_STAT_BULK_EFF + c.get F.NET_STAT_WRR_PENDING * 2 ^ 8 + c.get F.NET_STAT_QFAIL * 2 ^ 9 + n 1 * 2 ^ 10 + n 2 * 2 ^ 19

/-- `ROUTER_STAT` of router `n` (Table 11.11). -/
def Chip.routerStat (c : Chip) (n : Nat) : Nat :=
  (List.range 4).foldl (fun v p => v + c.linkState n p * 4 ^ p) 0 + c.get (F.ROUTER_STAT_ZLINK n) * 2 ^ 8 +
    c.get (F.ROUTER_STAT_QUIESCING n) * 2 ^ 10

/-- NET_WRR_WRITE: refused with RT or CTL at 0; otherwise every router is to apply the weights, in ascending number, and the
first quiesces. While a write is pending, the new weights go to the routers that have not yet applied it (R302, R312). -/
def Chip.wrrWrite (v : Nat) (c : Chip) : Rsp × Chip :=
  if bits v 7 0 = 0 ∨ bits v 31 24 = 0 then (rspRange, c)
  else
    let c := (((c.set F.NET_WRR_W_RT (bits v 7 0)).set F.NET_WRR_W_FAB (bits v 15 8)).set F.NET_WRR_W_BULK (bits v 23 16)).set
      F.NET_WRR_W_CTL (bits v 31 24)
    if c.net.wrrTo ≠ [] then (rspOk, c)
    else
      let c := { c with net := { c.net with wrrTo := List.range 96, retry := [] } }
      (rspOk, (c.set F.NET_STAT_WRR_PENDING 1).set (F.ROUTER_STAT_QUIESCING 0) 1)

/-- NI_CNT_CLR (Table 11.12). -/
def Chip.niCntClr (ni v : Nat) (c : Chip) : Chip :=
  let c := if v.testBit 0 then c.clear [F.NI_CNT_A_TOUT_CNT ni, F.NI_CNT_A_BUSY_CNT ni] else c
  let c := if v.testBit 1 then c.clear [F.NI_CNT_B_LATE_CNT ni, F.NI_CNT_B_OFF_CNT ni] else c
  if v.testBit 2 then
    c.clear ((List.range 4).flatMap (fun k => [F.NI_LAT_MAX_MAX ni k, F.NI_LAT_N_COUNT ni k, F.NI_LAT_SUM_SUM ni k]))
  else c

/-- A write of `NI_CTL`: OUT_MAX above 512 is refused. -/
def Chip.niCtlWrite (ni v : Nat) (c : Chip) : Rsp × Chip :=
  if 512 < bits v 25 16 then (rspRange, c)
  else (rspOk, ((c.set (F.NI_CTL_TIMEOUT ni) (bits v 15 0)).set (F.NI_CTL_OUT_MAX ni) (bits v 25 16)).set (F.NI_CTL_BUSY_WAIT ni) (bits v 47 32))

/-! ## Reads -/

/-- The word that a read of the register at an offset shows, where part of it is not stored in fields. -/
def Chip.liveWord (c : Chip) (off : Nat) : Nat :=
  let stored := c.regWord off
  match off / 2 ^ 20 with
  | 0x0 => if off = 0x08 then c.sysId else if off = 0x20 then c.qstat else if off = 0x40 then c.evqStat else stored
  | 0x1 => if off = 0x100018 then c.libUse else stored
  | 0x2 => if off % 2 ^ 16 = 8 then c.peStat (bits off 19 16) else stored
  | 0x3 => if off % 2 ^ 15 = 8 then c.rdGrpStat (bits off 19 15) else stored
  | 0x4 =>
    if off = 0x400000 then c.capStat
    else if 0x401000 ≤ off ∧ off < 0x402000 ∧ off % 256 = 8 then c.capPeStat (bits off 11 8)
    else if 0x480000 ≤ off ∧ off < 0x4A0000 then c.fflWindow (off - 0x480000)
    else if 0x4A0000 ≤ off ∧ off < 0x4C0000 then (c.cap.lost >>> (8 * (off - 0x4A0000))) % 2 ^ 64
    else stored
  | 0x6 => if off = 0x600008 then c.dmaGstat else stored
  | 0x7 =>
    if off = 0x700008 then c.netStat
    else if 0x701000 ≤ off ∧ off < 0x701C00 ∧ off % 32 = 0 then c.routerStat ((off - 0x701000) / 32)
    else stored
  | 0x8 => if 0x801000 ≤ off ∧ off < 0x801200 then c.drHist ((off - 0x801000) / 8) else stored
  | 0xA => if 0xA08100 ≤ off ∧ off < 0xA08158 then c.freeVal % 2 ^ 48 else stored
  | 0xB => if off = 0xB00000 then c.stCtlWord else if off = 0xB00008 then c.stStatWord else stored
  | 0xC => if off = 0xC00000 then c.lgCtlWord else stored
  | 0xD => if off = 0xDF0000 then stored + c.nvsBusy else stored
  | 0xE =>
    if off = 0xE00000 then c.fabStat
    else if 0xE05000 ≤ off ∧ off < 0xE05800 ∧ off % 64 = 8 then c.spStat ((off - 0xE05000) / 64)
    else stored
  | _ => stored

/-- Whether an offset holds an entry of the DRAM command history, which has no fields of its own (Table 10.8). -/
def isDrHist (off : Nat) : Bool := decide (0x801000 ≤ off) && decide (off < 0x801200) && off % 8 = 0

/-- The answer to a 64-bit access that no register takes: ALIGN at a register of 128-bit accesses only, else NO_REG (R6). -/
def halfRefusal (off : Nat) : Option Rsp :=
  match regAt off with
  | some (true, _) => some rspAlign
  | some (false, _) => none
  | none =>
    if isDrHist off then none
    else if off % 16 = 8 ∧ ((regAt (off - 8)).map (fun (p : Bool × List Fld) => p.1)).getD false then some rspAlign
    else some rspNoReg

/-- A 64-bit read, by NI `ni`. -/
def Chip.readHalf (ni off : Nat) (c : Chip) : (Rsp × Nat) × Chip :=
  match halfRefusal off with
  | some r => ((r, 0), c)
  | none =>
    if off = 0xDF0010 then c.upageSelf ni false 0
    else if 0xE05000 ≤ off ∧ off < 0xE05800 ∧ off % 64 = 0x10 ∧ !c.is (F.SPORT_CTL_HOST ((off - 0xE05000) / 64)) then ((rspState, 0), c)
    else if 0xE05000 ≤ off ∧ off < 0xE05800 ∧ off % 64 = 0x18 then
      let p := c.spPop ((off - 0xE05000) / 64)
      ((p.1, p.2.1), p.2.2)
    else if 0xA08100 ≤ off ∧ off < 0xA08158 then ((rspOk, c.liveWord off), c.freeNext)
    else ((rspOk, c.liveWord off), c)

/-- A 128-bit read at a register that takes 128-bit accesses only. -/
def Chip.readWide (off : Nat) (fs : List Fld) (c : Chip) : (Rsp × Nat) × Chip :=
  let p := fun (x : Nat × Chip) => ((rspOk, x.1), x.2)
  if off / 2 ^ 20 = 3 ∧ off % 2 ^ 15 = 0x20 then p (c.tsPortRead (bits off 19 15))
  else if off / 2 ^ 20 = 3 ∧ off % 2 ^ 15 = 0x500 then p (c.tsPop (bits off 19 15))
  else if off = 0x400020 then p c.fatPortLo
  else if off = 0x400030 then p c.fatPortHi
  else p (c.wordOf fs, c)

/-- Answer to a control-space access: it waits at its target, its response follows later, or it is done. -/
inductive CtlRes | wait | later | done (r : Rsp) (v : Nat)
  deriving DecidableEq, Repr

/-- A control-space read by NI `ni` at an aligned offset: 64 or 128 bits (R6). A read of a held `DMA_CH_STAT` waits (R322). -/
def Chip.ctlRead (ni off : Nat) (wide : Bool) (c : Chip) : CtlRes × Chip :=
  if 0xD00000 ≤ off ∧ off < 0xD80000 then
    match c.aperture ni (off - 0xD00000) false wide 0 .none with
    | (some (r, v), c) => (.done r v, c)
    | (none, c) => (.wait, c)
  else
    let held := fun (o : Nat) => decide (0x680000 ≤ o) && decide (o < 0x700000) && o % 128 = 0x38 && c.dmaHeld ((o - 0x680000) / 128)
    if held off || (wide && held (off + 8)) then (.wait, c)
    else if wide then
      match regAt off with
      | some (true, fs) =>
        let q := c.readWide off fs
        (.done q.1.1 q.1.2, q.2)
      | _ =>
        let lo := c.readHalf ni off
        let hi := lo.2.readHalf ni (off + 8)
        if lo.1.1 ≠ rspOk then (.done lo.1.1 0, c)
        else if hi.1.1 ≠ rspOk then (.done hi.1.1 0, c)
        else (.done rspOk (lo.1.2 + hi.1.2 * 2 ^ 64), hi.2)
    else
      let q := c.readHalf ni off
      (.done q.1.1 q.1.2, q.2)

/-! ## Writes -/

/-- A 64-bit write to an engine block (R121, R126, R135). -/
def Chip.peWrite (k rel v : Nat) (fs : List Fld) (c : Chip) : Rsp × Chip :=
  if rel = 0 then c.peCtlWrite k v
  else if rel = 0x60 ∨ rel = 0x68 ∨ rel = 0x70 then c.stopBind k ((rel - 0x60) / 8) v
  else if rel = 0x40 then (rspOk, c.set (F.PE_STREAM_BASE_ADDR k) (bits v 47 6 * 64))
  else if rel = 0x280 then (rspOk, c.set (F.PE_LFSR_VAL k) (if v = 0 then 1 else v))
  else if rel = 0x30 ∨ 0x1000 ≤ rel then
    if peTableBad rel 8 v then (rspReservedCode, c) else (rspOk, c.setTimed k fs v)
  else (rspOk, c.writeFlds true v fs)

/-- A 64-bit write to the Reed group blocks: user values take 128-bit writes only (Table 3.15). -/
def Chip.rdWrite (g rel v : Nat) (fs : List Fld) (c : Chip) : Rsp × Chip :=
  if 0x200 ≤ rel ∧ rel < 0x280 then (rspAlign, c)
  else if rel = 0x420 then (rspOk, c.clearBits (rdCounters g) v)
  else (rspOk, c.writeFlds true v fs)

/-- A 64-bit write to the capture block: the bitmap's geometry takes 128-bit writes only (Table 5.9). -/
def Chip.capWrite (off v : Nat) (fs : List Fld) (c : Chip) : Rsp × Chip :=
  if 0x401000 ≤ off ∧ off < 0x402000 ∧ (off % 256 = 0x20 ∨ off % 256 = 0x28) then (rspAlign, c)
  else if 0x401000 ≤ off ∧ off < 0x402000 ∧ off % 256 = 0 ∧ !c.drained (bits off 11 8) then (rspState, c)
  else if 0x401000 ≤ off ∧ off < 0x402000 ∧ off % 256 = 0x48 then (rspOk, c.capCntClr (bits off 11 8) v)
  else (rspOk, c.writeFlds true v fs)

/-- A 64-bit write to the repair-analysis block (R189). -/
def Chip.raeRegWrite (off v : Nat) (fs : List Fld) (c : Chip) : Rsp × Chip :=
  if off = 0x500008 ∨ off = 0x500010 ∨ off = 0x500018 ∨ off = 0x500028 ∨ off = 0x500030 then c.raeWrite off v
  else if off = 0x500040 then (rspOk, (c.set F.RAE_OUT_RD_COUNT v).ringPump)
  else if off = 0x500060 then (rspOk, c.clearBits [F.RAE_CNT_TAKES_COUNT, F.RAE_CNT_UNASSIGNED_COUNT, F.RAE_CNT_DISCARDED_COUNT] v)
  else (rspOk, c.writeFlds true v fs)

/-- A 64-bit write to the Windway block (R343, R354, R357). -/
def Chip.wwWrite (off v : Nat) (fs : List Fld) (c : Chip) : Rsp × Chip :=
  if off = 0x900020 then (rspOk, c.wwCntClr v)
  else if off = 0x900048 then c.tbCtlWrite v
  else if 0x900060 ≤ off ∧ off < 0x900088 then (if c.xgLocked then (rspState, c) else (rspOk, c.writeFlds true v fs))
  else if 0x901000 ≤ off ∧ off < 0x901200 ∧ off % 64 = 0 then (rspOk, c.wpCtlWrite ((off - 0x901000) / 64) v)
  else if 0x901000 ≤ off ∧ off < 0x901200 ∧ off % 64 = 0x18 then (rspOk, c.wpCntClr ((off - 0x901000) / 64) v)
  else if 0x910000 ≤ off then c.routeWrite (bit off 15) (bits off 14 3) v
  else (rspOk, c.writeFlds true v fs)

/-- A 64-bit write to the fabric hard-block block (R208, R212, R214, R218, R219, R261). -/
def Chip.fabWrite (off v : Nat) (fs : List Fld) (c : Chip) : Rsp × Chip :=
  let r := (off - 0xE01000) / 64
  let j := (off - 0xE05000) / 64
  let q := (off - 0xE10000) / 64
  if off = 0xE00118 then c.fabBcast v
  else if 0xE00200 ≤ off ∧ off < 0xE00280 then
    if 191 < bits v 7 0 then (rspRange, c) else (rspOk, (c.writeFlds true v fs).probeSettle ((off - 0xE00200) / 8))
  else if 0xE01000 ≤ off ∧ off < 0xE04000 then
    if off % 64 = 0x08 then c.rgCtlWrite r v
    else if off % 64 = 0x18 then c.capCtlWrite r v
    else if off % 64 = 0x20 then c.trigWrite r (F.FAB_RG_TRIGVAL_VAL r) v
    else if off % 64 = 0x28 then c.trigWrite r (F.FAB_RG_TRIGMASK_MASK r) v
    else (rspOk, c.writeFlds true v fs)
  else if 0xE05000 ≤ off ∧ off < 0xE05800 then
    if off % 64 = 0 then c.spCtl j v
    else if off % 64 = 0x10 then c.spPush j v
    else if off % 64 = 0x18 ∧ !c.is (F.SPORT_CTL_HOST j) then (rspState, c)
    else (rspOk, c.writeFlds true v fs)
  else if 0xE10000 ≤ off then
    if off % 64 = 0 then c.pwrWrite q v
    else if off % 64 = 0x28 then (rspOk, c.spCntClr q v)
    else (rspOk, c.writeFlds true v fs)
  else (rspOk, c.writeFlds true v fs)

/-- A 64-bit write of the register at an offset, by NI `ni`. -/
def Chip.writeHalf (ni off v : Nat) (c : Chip) : Rsp × Chip :=
  match halfRefusal off with
  | some r => (r, c)
  | none =>
    let fs := ((regAt off).map (fun (p : Bool × List Fld) => p.2)).getD []
    let plain : Rsp × Chip := (rspOk, c.writeFlds true v fs)
    match off / 2 ^ 20 with
    | 0x0 =>
      if off = 0x38 then (rspOk, c.chCntClr v)
      else if off = 0x58 then (rspOk, c.evqMask v)
      else if off = 0x60 then (rspOk, c.evqCtl v)
      else plain
    | 0x1 =>
      if off = 0x100008 then c.libWrite (bits v 47 21 * 2 ^ 21) (c.get F.CFG_LIB_SLOTS_SLOTS)
      else if off = 0x100010 then c.libWrite (c.get F.CFG_LIB_BASE_ADDR) (bits v 12 0)
      else plain
    | 0x2 => c.peWrite (bits off 19 16) (off % 2 ^ 16) v fs
    | 0x3 => c.rdWrite (bits off 19 15) (off % 2 ^ 15) v fs
    | 0x4 => c.capWrite off v fs
    | 0x5 => c.raeRegWrite off v fs
    | 0x6 =>
      if off = 0x600010 then (rspOk, c.dmaDreq (v % 4096) true)
      else if off = 0x600018 then (rspOk, c.dmaDreq (v % 4096) false)
      else if 0x680000 ≤ off then c.dmaRegWrite ((off - 0x680000) / 128) (off % 128) v
      else plain
    | 0x7 =>
      if off = 0x700000 then c.wrrWrite v
      else if 0x704000 ≤ off ∧ off % 128 = 0 then c.niCtlWrite ((off - 0x704000) / 128) v
      else if 0x704000 ≤ off ∧ off % 128 = 0x20 then (rspOk, c.niCntClr ((off - 0x704000) / 128) v)
      else plain
    | 0x8 => if off = 0x800040 then (rspOk, c.drCntClr v) else plain
    | 0x9 => c.wwWrite off v fs
    | 0xA =>
      if off = 0xA00008 then c.thCfgWrite v
      else if off = 0xA00040 then c.thHostWrite v
      else if 0xA09000 ≤ off then c.clkWrite ((off - 0xA09000) / 8) v
      else plain
    | 0xB => if off = 0xB00000 then c.stCtlWrite v else if off = 0xB00038 then (rspOk, c.stCntClr v) else plain
    | 0xC => if off = 0xC00000 then c.lgCtlWrite v else if off = 0xC00030 then (rspOk, c.lgCntClr v) else plain
    | 0xD =>
      if off = 0xDF0010 then
        let q := c.upageSelf ni true v
        (q.1.1, q.2)
      else if off = 0xDF0020 then (rspOk, c.nvsCntClr v)
      else plain
    | 0xE => c.fabWrite off v fs
    | _ => plain

/-- A 128-bit write at a register that takes 128-bit accesses only, by NI `ni`. -/
def Chip.writeWide (ni off v : Nat) (fs : List Fld) (c : Chip) : Rsp × Chip :=
  match off / 2 ^ 20 with
  | 0x1 => c.tongueReq ni true v
  | 0x2 =>
    let k := bits off 19 16
    let rel := off % 2 ^ 16
    if rel = 0x400 then c.imDataLo k v
    else if rel = 0x410 then c.imDataHi k v
    else (rspOk, c.setTimed k fs v)
  | 0x3 => if off % 2 ^ 15 = 0x20 then c.tsPortWrite (bits off 19 15) v else (rspOk, c)
  | 0x5 => c.raeImport ((off - 0x501000) / 32) (off % 32 = 16) v
  | _ => (rspOk, c)

/-- A 128-bit write to two registers as one operation: where either is refused, neither changes (R6). -/
def Chip.writePair (ni off v : Nat) (c : Chip) : Rsp × Chip :=
  let lo := c.writeHalf ni off (v % 2 ^ 64)
  let hi := lo.2.writeHalf ni (off + 8) (v / 2 ^ 64)
  if lo.1 ≠ rspOk then (lo.1, c)
  else if hi.1 ≠ rspOk then (hi.1, c)
  else (rspOk, hi.2)

/-- A control-space write by NI `ni` at an aligned offset: 64 or 128 bits (R6). -/
def Chip.ctlWrite (ni off : Nat) (wide : Bool) (v : Nat) (done : NvsDone) (c : Chip) : CtlRes × Chip :=
  if 0xD00000 ≤ off ∧ off < 0xD80000 then
    match c.aperture ni (off - 0xD00000) true wide v done with
    | (some (r, _), c) => (.done r 0, c)
    | (none, c) => (.later, c)
  else
    let p :=
      if !wide then c.writeHalf ni off v
      else
        match regAt off with
        | some (true, fs) => c.writeWide ni off v fs
        | _ =>
          if off / 2 ^ 20 = 3 ∧ 0x200 ≤ off % 2 ^ 15 ∧ off % 2 ^ 15 < 0x280 then
            (rspOk, c.ucalWrite (bits off 19 15 * 8 + bits off 6 4) ((List.range 6).map (fun i => bits v (16 * i + 15) (16 * i))))
          else if 0x401000 ≤ off ∧ off < 0x402000 ∧ off % 256 = 0x20 then
            c.writeBm (bits off 11 8) (v % 2 ^ 64) (v / 2 ^ 64)
          else c.writePair ni off v
    (.done p.1 0, p.2)

/-! ## The commands -/

def execChCntClr (data : Word) (s : State) := runChip (fun c => (c.chCntClr data.toNat).answer rspOk 0) s
def execEvqMaskWrite (data : Word) (s : State) := runChip (fun c => (c.evqMask data.toNat).answer rspOk 0) s
def execEvqClrLost (s : State) := runChip (fun c => c.evqClrLost.answer rspOk 0) s
def execEvqFlush (s : State) := runChip (fun c => c.evqFlush.answer rspOk 0) s
def execNetWrrWrite (data : Word) (s : State) := runChip (fun c => answerWrite (c.wrrWrite data.toNat)) s
def execNiCntClr (ni : Fin 288) (data : Word) (s : State) := runChip (fun c => (c.niCntClr ni data.toNat).answer rspOk 0) s

/-- REGISTER_WRITE: a 64-bit write from a local agent, at the NI of the Chanter controller. -/
def Chip.registerWrite (addr v : Nat) (c : Chip) : Chip :=
  match placeOf addr with
  | .ctl off =>
    if addr % 8 ≠ 0 then c.answer rspAlign 0
    else
      match c.ctlWrite 52 off false v .access with
      | (.done r _, c) => c.answer r 0
      | (_, c) => c
  | _ => if addr % 8 ≠ 0 then c.answer rspAlign 0 else c.answer rspDecerr 0

def execRegisterWrite (addr : BitVec 48) (data : Word) (s : State) := runChip (Chip.registerWrite addr.toNat data.toNat) s

end Sys2Proof.Machine
end

