-- ==== Sys2Proof/Machine/Net.lean ====
section
/-! DEFINITION. The on-stack network's commands (chapter 11): requests at their targets, responses at their initiators, timeouts,
refusals for waiting, closing and opening, riser gates, and the changes of routers; and the accesses of peeks and pokes (R72). -/

namespace Sys2Proof.Machine

/-! ## Requests at their targets (R255 to R258, R297, R309, R310, R313) -/

/-- The bank operation of a request kind (Table 11.2). -/
def kindOp (kind : Nat) : SpOp :=
  match kind with
  | 0 => .read
  | 1 => .write
  | 2 => .add64
  | 3 => .add128
  | _ => .swap

/-- One word of a scratchpad request. -/
def Chip.spadWord (q : NReq) (r w i : Nat) (flaws : List Nat) (coll : Nat) (c : Chip) : PortB × Chip :=
  c.portB r (w + i) (kindOp q.kind) (q.data.getD i 0) (q.bes.getD i (if q.kind = 1 then 0 else 0xFFFF)) (flaws.getD i 0) (coll.testBit i)

/-- The words of a scratchpad request in ascending order, up to the first that fails (R255): the failure and its word, and the
values read before each. -/
def Chip.spadWords (q : NReq) (r w : Nat) (flaws : List Nat) (coll : Nat) :
    Nat → Nat → List Nat → Chip → (Option (Rsp × Nat) × List Nat) × Chip
  | 0, _, got, c => ((none, got), c)
  | n + 1, i, got, c =>
    match c.spadWord q r w i flaws coll with
    | (.wait, c) => ((none, got), c)
    | (.done rsp old, c) =>
      if rsp = rspOk then c.spadWords q r w flaws coll n (i + 1) (got ++ [old]) else ((some (rsp, i), got), c)

/-- A request at a scratchpad. It is performed as a whole, in the order of the region's riser gate; while an earlier one or a word
of it must wait, it waits there (R19, R261, R262, R265, R310). -/
def Chip.netSpad (q : NReq) (r w : Nat) (flaws : List Nat) (coll : Nat) (c : Chip) : Chip :=
  if (c.gateOf r).head?.any (fun p => p ≠ q) || (List.range q.n).any (fun i => (c.spadWord q r w i flaws coll).1 = .wait) then
    c.gateEnter q r
  else
    let p := c.spadWords q r w flaws coll q.n 0 []
    let src := niOf q.addr
    match p.1.1 with
    | some (rsp, i) => (p.2.unflight q).respond q.ni q.idx q.ep rsp i [] src
    | none => (p.2.unflight q).respond q.ni q.idx q.ep rspOk 0 (if q.kind = 1 then [] else p.1.2) src

/-- A request at control space (R297). -/
def Chip.netCtl (q : NReq) (off : Nat) (c : Chip) : Option Chip :=
  let be := if q.kind = 0 then q.rbe else q.bes.headD 0
  let at' := if be = 0xFF00 then off + 8 else off
  let sh := if be = 0xFF00 then 64 else 0
  let src := niOf q.addr
  let reply := fun (r : Rsp) (v : Nat) (c : Chip) =>
    (c.unflight q).respond q.ni q.idx q.ep r 0 (if q.kind = 0 then [v <<< sh] else []) src
  let x :=
    if q.kind = 0 then c.ctlRead q.ni at' (be = 0xFFFF)
    else
      let v := q.data.headD 0 >>> sh
      c.ctlWrite q.ni at' (be = 0xFFFF) (if be = 0xFFFF then v else v % 2 ^ 64) (.net q.ni q.idx q.ep)
  match x with
  | (.wait, _) => none
  | (.later, c) => some (c.unflight q)
  | (.done r v, c) => some (reply r v c)

/-- A request in flight reaches its target: refused where its route needs a retired link (R313), answered by its domain's closing
(R309), or performed. `none` while it waits at its target. -/
def Chip.perform (q : NReq) (flaws : List Nat) (coll : Nat) (c : Chip) : Option Chip :=
  let src := niOf q.addr
  let reply := fun (r : Rsp) (c : Chip) => (c.unflight q).respond q.ni q.idx q.ep r 0 [] src
  if !c.routeOk q.ni src then some ((c.unflight q).respond q.ni q.idx q.ep rspNoPath 0 [] q.ni)
  else
    match (domOf q.addr).filter (fun d => c.domState d ≠ 0) with
    | some d => some ((reply (c.domAnswer d) c).inc (F.NI_CNT_B_OFF_CNT src))
    | none =>
      match placeOf q.addr with
      | .dram => if 2 ≤ q.kind then some (reply rspUnsupported c) else c.drTake q false
      | .spad r w => some (c.netSpad q r w flaws coll)
      | .ctl off => if 2 ≤ q.kind then some (reply rspUnsupported c) else c.netCtl q off
      | .none => none

/-! ## Responses at their initiators (R303, R308, R313, Table 11.12) -/

/-- Count a latency in an NI's counters of a class. -/
def Chip.latency (ni cls ns : Nat) (c : Chip) : Chip :=
  let c := (c.inc (F.NI_LAT_N_COUNT ni cls)).addSat (F.NI_LAT_SUM_SUM ni cls) ns
  c.set (F.NI_LAT_MAX_MAX ni cls) (min 0xFFFF (max (c.get (F.NI_LAT_MAX_MAX ni cls)) (ns / 10)))

/-- Change the peek or poke of a slot. -/
def Chip.setAccess (slot : Nat) (f : ChAccess → ChAccess) (c : Chip) : Chip :=
  { c with ch := { c.ch with access := c.ch.access.map (fun a => if a.slot = slot then f a else a) } }

/-- End the peek or poke of a slot with a status: the words read, or the number of words written (R72). -/
def Chip.accessEnd (a : ChAccess) (st dt : Nat) (c : Chip) : Chip :=
  let c := { c with ch := { c.ch with access := c.ch.access.filter (fun b => b.slot ≠ a.slot) } }
  c.finish a.slot st dt (if a.poke then natLe 4 a.words else a.got)

/-- The answer to an access of a peek or poke; the first failure ends it (R51, R72). -/
def Chip.accessAnswer (slot : Nat) (r : Rsp) (v : Nat) (c : Chip) : Chip :=
  match c.ch.access.find? (fun a => a.slot = slot) with
  | none => c
  | some a =>
    if r ≠ rspOk then c.accessEnd a r.status.1 r.status.2
    else
      let n := if a.wide then 16 else 8
      let x := if !a.wide ∧ a.addr % 16 = 8 then v / 2 ^ 64 else v
      let a := { a with
        addr := a.addr + n
        left := a.left - 1
        got := if a.poke then a.got else a.got ++ natLe n x
        words := a.words + n / 8
        busy := false }
      if a.left = 0 then c.accessEnd a ST_OK dtNone else c.setAccess slot (fun _ => a)

/-- Deliver a response to the agent that made a request. -/
def Chip.agentAnswer (o : NOut) (r : Rsp) (word : Nat) (data : List Nat) (c : Chip) : Chip :=
  match o.who with
  | .design _ => c.emit (.netRsp o.req.ni o.req.idx r.code r.detail word data)
  | .dma ch use pos => c.dmaResp ch use pos o.req r word data
  | .proxy p src ni idx ep rr hops => (c.proxyAnswer p src ni idx ep rr hops o.req.cls r word data).wwPump
  | .chanter slot => c.accessAnswer slot r (data.headD 0)
  | .rae record ep => if record then c.raeRecord ep r else c.raeImported ep r
  | .tongue => c.tonguePump

/-- A response is accepted at its initiator, `ns` after the request (R308). -/
def Chip.deliver (o : NOut) (r : NRsp) (ns : Nat) (c : Chip) : Chip :=
  let c := { c with net := { c.net with outs := c.net.outs.erase o } }
  let c := (((c.wwLanded o).outShow o.req.ni).latency o.req.ni o.req.cls ns).netPump
  c.agentAnswer o ⟨r.code, r.detail⟩ r.word r.data

/-- A response on its way reaches its NI, or the retired link on its route where it is discarded (R308, R313). -/
def Chip.rspArrive (r : NRsp) (ns : Nat) (c : Chip) : Chip :=
  let c := { c with net := { c.net with rsps := c.net.rsps.erase r } }
  if !c.routeOk r.from' r.ni then c
  else
    match c.net.outs.find? (fun o => o.req.ni = r.ni && o.req.idx = r.idx && o.req.ep = r.ep && o.sent) with
    | some o => c.deliver o r ns
    | none => c.bufLate r.ni r.idx r.ep

/-! ## Peeks and pokes (R72) -/

/-- Start the next access of a peek or poke at the Chanter controller's NI, in class CTL. -/
def Chip.accessIssue (a : ChAccess) (c : Chip) : Option Chip :=
  let be := if a.wide then 0xFFFF else if a.addr % 16 = 8 then 0xFF00 else 0x00FF
  let n := if a.wide then 16 else 8
  let v := leNat (a.data.take n) <<< (if be = 0xFF00 then 64 else 0)
  (c.niIssue 52 (b2n a.poke) 3 (a.addr / 16 * 16) none 1 (if a.poke then 0 else be) (if a.poke then [be] else [])
      (if a.poke then [v] else []) (.chanter a.slot)).map
    (fun c => c.setAccess a.slot (fun a => { a with busy := true, data := a.data.drop n }))

/-- Whether a request is an outstanding access of Chanter. -/
def Chip.isChAccess (c : Chip) (ni idx ep : Nat) : Bool :=
  c.net.outs.any (fun o => o.req.ni = ni && o.req.idx = idx && o.req.ep = ep &&
    (match o.who with
     | .chanter _ => true
     | _ => false))

/-- One step of the peeks and pokes in progress: an access is started, performed or answered; `none` where all wait. The latency
of such an access is open. An access of a scratchpad is performed by its own command, with what port A does in the same cycle and
what the bank's check finds (R257, R259). -/
def Chip.accessStep (c : Chip) : Option Chip :=
  match c.ch.access.findSome? (fun a => if a.busy then none else c.accessIssue a) with
  | some c => some c
  | none =>
    match c.net.flight.findSome? (fun q => if c.isChAccess q.ni q.idx q.ep && c.firstOf q && decide (niOf q.addr < 96) then c.perform q [] 0 else none) with
    | some c => some c
    | none =>
      (c.net.rsps.find? (fun r => c.isChAccess r.ni r.idx r.ep)).map (fun r => c.freeNext.rspArrive r c.freeVal)

/-- Run the peeks and pokes as far as they do not wait. -/
def Chip.accessRun : Nat → Chip → Chip
  | 0, c => c
  | n + 1, c =>
    match c.accessStep with
    | some c' => accessRun n c'
    | none => c

/-- Steps enough for every access still to be made. -/
def Chip.accessPump (c : Chip) : Chip := c.accessRun (4 * (c.ch.access.map ChAccess.left).sum + 4)

/-! ## Requests of designs (R19, R295, R298) -/

/-- The NI accepts a design's request from the riser gate, in class FAB. -/
def Chip.riserTake (q : NReq) (c : Chip) : Option Chip :=
  (c.niIssue q.ni q.kind 1 q.addr q.dev q.n q.rbe q.bes q.data (.design (q.ni - 96))).map
    (fun c => { c with net := { c.net with riser := c.net.riser.erase q } })

/-- Accept what waits in the riser gates: of each region the oldest first, as far as its NI has buffers. -/
def Chip.riserPump (c : Chip) : Chip :=
  c.forAll c.net.riser (fun q c =>
    if c.net.riser.find? (fun p => p.ni = q.ni) = some q then (c.riserTake q).getD c else c)

/-- What waits for a buffer of an NI goes on: designs' requests, then accesses of Chanter. -/
def Chip.netServe (c : Chip) : Chip := c.riserPump.accessPump

/-- A design's request enters the riser gate of its region, which holds 16; past them the design waits. -/
def Chip.riserEnter (q : NReq) (c : Chip) : Chip :=
  if 16 ≤ (c.net.riser.filter (fun p => p.ni = q.ni)).length then c
  else { c with net := { c.net with riser := c.net.riser ++ [q] } }

/-! ## The commands -/

/-- A request of a kind, held by a buffer of an NI, reaches its target as the first of its class (R300). -/
def Chip.netRow (kind ni idx : Nat) (flaws : List Nat) (coll : Nat) (c : Chip) : Chip :=
  match c.inFlight ni idx with
  | some q => if q.kind = kind && c.firstOf q then ((c.perform q flaws coll).getD c).netServe else c
  | none => c

/-- NI_REQUEST_ACCEPT: a design's request, which passes the riser gate (R298); the next request of a DMA engine's channel or of the
RAE; or what waits of Chanter and of the Tongue port. -/
def Chip.niAccept (ni : Nat) (ask : NiAsk) (c : Chip) : Chip :=
  match ask with
  | .design kind dev addr len rbe bes data =>
    if 96 ≤ ni ∧ kind.toNat ≤ 4 ∧ c.rgState (ni - 96) = rgRun ∧ c.domState (domRegion (ni - 96)) = 0 then
      let q : NReq := { ni := ni, idx := 0, ep := 0, kind := kind.toNat, cls := 1, addr := addr.toNat, dev := dev.map BitVec.toNat,
                        n := len.val + 1, rbe := rbe.toNat, bes := bes.map BitVec.toNat, data := data.map BitVec.toNat }
      (c.riserEnter q).riserPump
    else c
  | .dma write => if 24 ≤ ni ∧ ni < 88 then c.dmaAsk (ni - 24) write else c
  | .chanter => if ni = 52 then c.accessPump else c
  | .rae => if ni = 44 then c.raeIssue.getD c else c
  | .tongue => if ni = 52 then c.tonguePump else c

/-- NET_UPORT: a packet from region `r` to the engine that names it. It needs a credit to leave; while either domain is closing or
closed it is discarded at the NI where it stands, and its credits are lost until both are open (R296). -/
def Chip.netUport (r k : Nat) (what : UportLoad) (c : Chip) : Chip :=
  let n := match what with
    | .vectors vs => vs.length
    | .flags _ => 0
  let lost := tget 0 k c.net.credit
  let drop := fun (ni : Nat) (c : Chip) =>
    Chip.inc (F.NI_CNT_B_OFF_CNT ni) { c with net := { c.net with credit := tput 0 k (lost + n) c.net.credit } }
  if !c.is (F.PE_CTL_UPORT_EN k) || c.uportRegion k ≠ r || decide (64 < (c.eng k).uport.length + lost + n) then c
  else if c.domState (domRegion r) ≠ 0 then drop (96 + r) c
  else if !c.routeOk (96 + r) (8 + k) then c
  else if c.domState (domEngine k) ≠ 0 then drop (8 + k) c
  else
    match what with
    | .vectors vs => c.forAll vs (fun v => Chip.uportVector k v.toNat)
    | .flags f => c.uportFlags k f.toNat

/-- NET_RESPONSE_ARRIVAL. -/
def Chip.netResponse (ni idx ep ns : Nat) (c : Chip) : Chip :=
  match c.net.rsps.find? (fun r => r.ni = ni && r.idx = idx && r.ep = ep) with
  | some r => (c.rspArrive r ns).netServe
  | none => c

/-- The request is the record write of the repair analysis (R182). -/
def NOut.isRaeRecord (o : NOut) : Bool :=
  match o.who with
  | .rae record _ => record
  | _ => false

/-- RAE_RECORD_RESPONSE: the answer to the record write in progress arrives (R182). -/
def Chip.raeRecordRsp (idx ep ns : Nat) (c : Chip) : Chip :=
  match c.net.outs.find? (fun o => o.isRaeRecord && o.req.idx = idx && o.req.ep = ep) with
  | some o => c.netResponse o.req.ni idx ep ns
  | none => c

/-- NI_TIMEOUT: the request ends with RSP_TOUT after its timeout, counted with the latencies (R307, Table 11.12). -/
def Chip.niTimeout (ni idx : Nat) (c : Chip) : Chip :=
  match c.net.outs.find? (fun o => o.req.ni = ni && o.req.idx = idx) with
  | none => c
  | some o =>
    let c := { c with net := { c.net with flight := if o.sent then c.net.flight else c.net.flight.erase o.req } }
    let c := ((c.outCancel o).inc (F.NI_CNT_A_TOUT_CNT ni)).set (F.NI_STAT_TOUT ni) 1
    ((c.latency ni o.req.cls (100 * o.tmo)).agentAnswer o rspTout 0 []).netServe

/-- NI_BUSY_WAIT_EXPIRY: the FAB or BULK request at the head of a target's ingress queue is refused (R306). What a region's riser
gate holds, or has room for, is taken by the region and waits there (R265, R310). -/
def Chip.busyExpiry (ni cls : Nat) (c : Chip) : Chip :=
  match c.net.flight.find? (fun q => niOf q.addr = ni && q.cls = cls && !c.net.gate.contains q) with
  | none => c
  | some q =>
    if c.get (F.NI_CTL_BUSY_WAIT ni) = 0 || (decide (96 ≤ ni) && decide ((c.gateOf (ni - 96)).length < 16)) || !c.routeOk q.ni ni then c
    else
      (((c.unflight q).respond q.ni q.idx q.ep rspBusy 0 [] ni).inc (F.NI_CNT_A_BUSY_CNT ni)).set (F.NI_STAT_BUSY ni) 1

/-- The number of a domain. -/
def domNum : NetDomain → Nat
  | .region r => domRegion r
  | .engine k => domEngine k
  | .group g => domGroup g
  | .port p => domPort p
  | .dram => domDram

/-- The running `CH_SYS_RESET` of a kind and an index (Table 2.22). -/
def Chip.resetCmd (c : Chip) (kind idx : Nat) : Option Slot :=
  c.runningCmd 0x00 0x05 (fun pl => pb pl 0 = kind && pf pl 2 2 = idx)

/-- Kind and index of the targeted reset that resets a domain. -/
def domReset : NetDomain → Nat × Nat
  | .region r => (2, r)
  | .engine k => (3, k)
  | .group g => (4, g)
  | .port p => (6, p)
  | .dram => (7, 0)

/-- Whether a domain that is not OPEN may report ready: it is powered, not retired, and no reset or power-down of it is in
progress. -/
def Chip.domReady (c : Chip) (d : NetDomain) : Bool :=
  tget 0 (domNum d) c.net.doms / 4 ≠ 2 && (c.resetCmd (domReset d).1 (domReset d).2).isNone &&
    (match d with
     | .region r => c.rgState r ≠ rgOff && c.rgState r ≠ rgRetired && (c.pwrCmd r).isNone
     | .port p => c.wpState p ≠ wpRetired
     | .dram => c.drState ≠ drInit && c.drState ≠ drTraining
     | _ => true)

/-- DOMAIN_REOPEN (Table 11.7, step 6). -/
def Chip.domReopen (d : NetDomain) (c : Chip) : Chip := if c.domState (domNum d) ≠ 0 && c.domReady d then c.domOpen (domNum d) else c

/-- ROUTER_QUIESCE_DONE: the router has drained; its retired link halves and its new weights take effect, and the next router
quiesces (R312). -/
def Chip.quiesced (n : Nat) (c : Chip) : Chip :=
  if !c.is (F.ROUTER_STAT_QUIESCING n) then c
  else
    let qs := c.net.linkQ.filter (fun q => q.1 = n)
    let c := { c with net := { c.net with linkQ := c.net.linkQ.filter (fun q => q.1 ≠ n) } }
    let c := (c.forAll qs (fun q => Chip.halfApply q.1 q.2.1 q.2.2)).set (F.ROUTER_STAT_QUIESCING n) 0
    match c.net.wrrTo with
    | [] => c
    | m :: rest =>
      if m ≠ n || c.net.retry.contains n then c
      else
        let c := { c with net := { c.net with wrrTo := rest, wts := tset n (c.regWord F.NET_WRR_W_RT.off) c.net.wts } }
        match rest with
        | [] => c.set F.NET_STAT_WRR_PENDING 0
        | k :: _ => c.set (F.ROUTER_STAT_QUIESCING k) 1

/-- ROUTER_QUIESCE_RETRY: a weight change not drained in time is abandoned for now; one abandoned is tried again (R312). -/
def Chip.quiesceRetry (n : Nat) (c : Chip) : Chip :=
  if c.net.wrrTo.head? ≠ some n then c
  else if c.net.retry.contains n then
    Chip.set (F.ROUTER_STAT_QUIESCING n) 1 { c with net := { c.net with retry := c.net.retry.erase n } }
  else
    let link := c.net.linkQ.any (fun q => q.1 = n)
    ((({ c with net := { c.net with retry := n :: c.net.retry } } : Chip).set F.NET_STAT_QFAIL 1).set (F.ROUTER_STAT_QUIESCING n) (b2n link))

def flawList (fs : List (Fin 3)) : List Nat := fs.map Fin.val

def execNiRequestAccept (ni : Fin 288) (ask : NiAsk) (s : State) := runChip (Chip.niAccept ni ask) s
def execNetRead (ni : Fin 288) (idx : Fin 512) (flaws : List (Fin 3)) (s : State) := runChip (Chip.netRow 0 ni idx (flawList flaws) 0) s
def execNetWrite (ni : Fin 288) (idx : Fin 512) (flaws : List (Fin 3)) (coll : BitVec 16) (s : State) :=
  runChip (Chip.netRow 1 ni idx (flawList flaws) coll.toNat) s
def execNetAdd64 (ni : Fin 288) (idx : Fin 512) (flaws : List (Fin 3)) (coll : BitVec 16) (s : State) :=
  runChip (Chip.netRow 2 ni idx (flawList flaws) coll.toNat) s
def execNetAdd128 (ni : Fin 288) (idx : Fin 512) (flaws : List (Fin 3)) (coll : BitVec 16) (s : State) :=
  runChip (Chip.netRow 3 ni idx (flawList flaws) coll.toNat) s
def execNetSwap (ni : Fin 288) (idx : Fin 512) (flaws : List (Fin 3)) (coll : BitVec 16) (s : State) :=
  runChip (Chip.netRow 4 ni idx (flawList flaws) coll.toNat) s
def execNetUport (r : Fin 192) (pe : Fin 16) (what : UportLoad) (s : State) := runChip (Chip.netUport r pe what) s
def execNetResponseArrival (ni : Fin 288) (idx : Fin 512) (ep : Fin 4) (ns : Nat) (s : State) :=
  runChip (Chip.netResponse ni idx ep ns) s
def execRaeRecordResponse (idx : Fin 512) (ep : Fin 4) (ns : Nat) (s : State) := runChip (Chip.raeRecordRsp idx ep ns) s
def execNiTimeout (ni : Fin 288) (idx : Fin 512) (s : State) := runChip (Chip.niTimeout ni idx) s
def execNiBusyWaitExpiry (ni : Fin 288) (bulk : Bool) (s : State) := runChip (Chip.busyExpiry ni (if bulk then 2 else 1)) s
def execDomainReopen (d : NetDomain) (s : State) := runChip (Chip.domReopen d) s
def execRouterQuiesceDone (n : Fin 96) (s : State) := runChip (Chip.quiesced n) s
def execRouterQuiesceRetry (n : Fin 96) (s : State) := runChip (Chip.quiesceRetry n) s

end Sys2Proof.Machine
end

