-- ==== Sys2Proof/Machine/Device.lean ====
section
/-! DEFINITION. The device state machine: supplies, REFCLK, RESET_N, coolant, resets, BOOT, trip, shutdown and restart
(R21 to R26, R370 to R372, R400 to R410), and the targeted resets (R408). -/

namespace Sys2Proof.Machine

/-! ## What resets clear (R407, Table 16.3) -/

/-- The factory calibration words, loaded from fuses (R97). -/
def calKey (k : Nat) : Bool :=
  let off := k / 1024
  decide (0x300000 ≤ off) && decide (off < 0x400000) && decide (0x280 ≤ off % 0x8000) && decide (off % 0x8000 < 0x300)

/-- The register fields that a warm reset keeps: the always-on fields, what the fuses hold, and `TRAIN_CNT`, which counts
since the last cold reset (Tables 10.8 and 16.3). -/
def aonKey (k : Nat) : Bool :=
  let off := k / 1024
  let lo := k % 1024
  (off = 0x0 && lo ≠ 4 && lo ≠ 24) || off = 0x10 || off = 0x18 || off = 0x68 || off = 0x100020 || off = 0xA00008 || off = 0xA00038 ||
    off = 0xA00040 || off = 0xA08000 || (off = 0xA00000 && lo = 17) || off = 0x900000 ||
    (decide (0x910000 ≤ off) && decide (off < 0x920000)) || (off = 0x800038 && lo = 32) || calKey k

/-- What outlives the loss of every supply: fuses, and the present levels of rails, REFCLK and COOLANT_OK. -/
def fuseField (k : Nat) : Bool :=
  calKey k || k / 1024 = 0x10 || k / 1024 = 0x18 || k / 1024 = 0x100020 || k = F.PWR_STAT_VALID.key || k = F.PWR_STAT_REFCLK_OK.key ||
    k = F.SYS_STATE_COOLANT_OK.key

/-- A fuse burn that a reset finds in progress lands or does not: the spec gives no rule, so a free value decides. -/
def Chip.burnsEnd (c : Chip) : Chip :=
  c.forAll c.cfg.burns (fun _ c =>
    let land := c.freeVal % 2 = 1
    let c := c.freeNext
    if land then c.fuseDone else { c with cfg := { c.cfg with burns := c.cfg.burns.tail } })

/-- The scratchpads at a reset: contents stay in banks that remain powered; the others are filled with zeros before their
region is released (R262, R263). -/
def Chip.spReset (powered : Bool) (c : Chip) : Chip :=
  if powered then
    c.forAll regions (fun r c => c.forAll banks (fun b c => if c.bankState r b = bankOff then c.bankZero r b else c))
  else
    { c with mem := memZero 0x10000000000 0x20000000000 c.mem, sp := { c.sp with bad := [] } }

/-- Every island but the always-on one is reset (R58, R311, R407). -/
def Chip.islandReset (spads : Bool) (c : Chip) : Chip :=
  let c := ((c.burnsEnd).spReset spads).drQueueReset
  { c with
    rf := tkeep aonKey c.rf
    ch := Chanter.init
    th := Thermal.init
    rd := Reeds.init
    pe := []
    xg := Xg.init
    stops := []
    cap := Cap.init
    rae := Rae.init
    fab := Fabric.init
    sp := { Spads.init with bad := c.sp.bad, fuse := c.sp.fuse }
    net := Net.init
    ww := { Ww.init with ids := c.ww.ids, serial := c.ww.serial }
    dma := Dma.init
    dr := { Dram.init with bad := c.dr.bad }
    cfg := { Cfg.init with keyHash := c.cfg.keyHash, rootKey := c.cfg.rootKey, rmaPend := c.cfg.rmaPend, fwMinSvn := c.cfg.fwMinSvn }
    st := { SelfTest.init with fused := c.st.fused }
    lg := Ligature.init }

/-- Owe an event on entry to FW. -/
def Chip.owe (e : Nat × Nat) (arg : Nat) (c : Chip) : Chip :=
  { c with aon := { c.aon with onFw := c.aon.onFw ++ [(e.1, e.2, arg)] } }

/-- Owe an event on entry to FW in place of an earlier one with the same code. -/
def Chip.oweOnce (e : Nat × Nat) (arg : Nat) (c : Chip) : Chip :=
  Chip.owe e arg { c with aon := { c.aon with onFw := c.aon.onFw.filter (fun x => x.1 ≠ e.1) } }

/-! ## Entry to BOOT (R21, R64) -/

/-- The rank in R24 of an entry to BOOT by its cause (Table 1.9): a warm reset, or another transition. -/
def bootLevel (cause : Nat) : Nat := if 1 ≤ cause ∧ cause ≤ 3 then 3 else 5

/-- Enter BOOT with a cause: the history fields, an empty event queue, and DRAM contents zeroed where a cold reset or a
shutdown came before (R289); the DRAM controller trains (R283), and XSPI_RST_N pulses low (R227). -/
def Chip.enterBoot (cause : Nat) (c : Chip) : Chip :=
  let l := bootLevel cause
  let c := (c.set F.SYS_STATE_PREV_STATE (c.leftBy l)).set F.SYS_STATE_CAUSE cause
  let c := (c.arrive l stBoot).set F.SYS_STATE_STRICT_HALT 0
  let c := c.inc F.SYS_STATE_BOOT_COUNT
  let c := { c with ch := { c.ch with events := [], lossRun := 0, copy := 0xFF, fwVersion := 0, fwSvn := 0 } }
  let c := (if c.aon.dramZero then c.drZero else c).drTrain 0 []
  ({ c with aon := { c.aon with dramZero := false, booted := true } } : Chip).emit .xspiReset

/-- A warm reset takes effect (R58, R407): words being written to the NVS complete, and the islands are reset. A transition of a
lower rank of the same AON cycle is not taken (R24). -/
def Chip.warmClear (c : Chip) : Chip :=
  let ws := (List.range 8).filterMap (fun m => (c.nvsServed m).bind (fun j => j.words.head?.map Prod.fst))
  let c := (c.arrive 3 (c.leftBy 3)).set F.SYS_STATE_BOOT_COUNT (((c.undone 3).map Turn.boots).getD (c.get F.SYS_STATE_BOOT_COUNT))
  let c := { c with turn := c.turn.map (fun (t : Turn) => { t with words := ws }) }
  let c := ((c.nvsStop).denAllLow).islandReset (c.get F.PWR_STAT_VALID |>.testBit 2)
  { c with aon := { c.aon with rstArm := none } }

/-- A reset request that lasts only a moment: RSTACT 0x02 or a device reset command (Table 1.8). In SHUTDOWN it is only
remembered (R24), and a reset already held goes on. -/
def Chip.warmReset (cause : Nat) (c : Chip) : Chip :=
  if c.dstate = stShutdown then { c with aon := { c.aon with rstInShut := true } }
  else if c.dstate = stOff ∨ c.dstate = stPor ∨ c.aon.held then c
  else (c.warmClear).enterBoot cause

/-- A reset condition begins: RESET_N low, a lost rail or a lost REFCLK (R405, R406, R410). The islands stay in reset until
it ends, and BOOT is entered then (Table 1.8). -/
def Chip.holdReset (c : Chip) : Chip :=
  if c.dstate = stShutdown then { c with aon := { c.aon with rstInShut := true } }
  else if c.dstate = stOff ∨ c.dstate = stPor ∨ c.aon.held then c
  else
    let c := c.warmClear
    { c with aon := { c.aon with held := true, bootCause := some 0x01 } }

/-- RESET_N is high, no rail is lost and REFCLK is present. -/
def Chip.noHold (c : Chip) : Bool := !c.aon.resetLow && !c.aon.railHold && !c.aon.refHold

/-- The straps are sampled (R36, R226). -/
def Chip.strap (addrSel bootSrc : Nat) (c : Chip) : Chip :=
  ({ c with aon := { c.aon with addrSel := addrSel % 4, bootSrc := bootSrc % 4 } } : Chip).set F.I3C_STAT_STATIC_ADDR (0x30 + addrSel % 4)

/-- VDD_LOGIC power-good is raised while VDD_LOGIC is valid and COOLANT_OK is high (R370, R402). -/
def Chip.logicPower (c : Chip) : Chip :=
  if (c.get F.PWR_STAT_VALID).testBit 2 && c.is F.SYS_STATE_COOLANT_OK && c.dstate ≠ stOff && c.dstate ≠ stShutdown then
    c.set F.SYS_STATE_LOGIC_PG 1
  else c

/-- POR ends once all rails are valid, `LOGIC_PG` is raised, REFCLK is present and RESET_N is high (Table 1.8); the straps
ADDR_SEL and the voltage of VDD_AUX are then taken (R36, R401). Where RESET_N did not rise just now with `sel` on the straps, their
levels are a free value (log entry 22). -/
def Chip.porCheck (sel : Option Nat) (c : Chip) : Chip :=
  if c.dstate = stPor && c.get F.PWR_STAT_VALID = 0x7FF && c.is F.SYS_STATE_LOGIC_PG && c.is F.PWR_STAT_REFCLK_OK && !c.aon.resetLow then
    let c := { c with aon := { c.aon with railHold := false, refHold := false } }
    let v := c.freeVal
    let c := if sel.isNone then c.freeNext else c
    ((c.strap (sel.getD v) c.aon.bootSrc).set F.PWR_STAT_AUX_V (b2n c.aon.aux18)).enterBoot (c.get F.SYS_STATE_CAUSE)
  else c

/-- A held reset ends once nothing holds it: BOOT is entered with the cause noted, unless it was entered already. -/
def Chip.holdEnd (sel : Option Nat) (c : Chip) : Chip :=
  if c.aon.held && c.noHold then
    let why := c.aon.bootCause
    let c := { c with aon := { c.aon with held := false, bootCause := none } }
    match why with
    | some cause => c.enterBoot cause
    | none => c
  else c.porCheck sel

/-! ## Supplies (R400 to R405) -/

/-- The step of Table 16.2 in which each rail is raised, in Table 16.1 order. -/
def railStep : List Nat := [1, 2, 6, 3, 4, 4, 5, 5, 5, 8, 8]

/-- Rail `i` is valid while a rail of an earlier step is not (R403). -/
def railEarly (valid i : Nat) : Bool :=
  (List.range 11).any (fun j => decide (railStep.getD j 0 < railStep.getD i 0) && !valid.testBit j)

/-- A sequence violation is recorded, and its event owed with the rails valid when it was first seen (R403). -/
def Chip.seqViol (c : Chip) : Chip :=
  let c := c.set F.PWR_STAT_SEQ_VIOL 1
  if c.aon.onFw.any (fun x => x.1 = EV_PWR_SEQ_VIOL.1) then c else c.owe EV_PWR_SEQ_VIOL (c.get F.PWR_STAT_VALID)

/-- A power loss may leave the words being written uncorrectable; others complete or stay as they were (R404, R418). -/
def Chip.nvsPowerLoss (c : Chip) : Chip :=
  let torn := c.freeVal
  let c := c.freeNext
  let whole := c.freeVal
  let c := c.freeNext
  let c := c.forAll (List.range 8) (fun m c =>
    if whole.testBit m && !torn.testBit m then
      match c.nvsServed m with
      | some j => c.nvsPut (j.words.headD (0, 0)).1 (j.words.headD (0, 0)).2
      | none => c
    else c)
  c.nvsTear (torn % 256)

/-- VDD_AON_VALID: from OFF to POR, after a cold reset. -/
def Chip.aonValid (c : Chip) : Chip :=
  if c.dstate ≠ stOff then c
  else
    let c := c.set F.PWR_STAT_VALID (setBit (c.get F.PWR_STAT_VALID) 0)
    let c := (c.setState stPor).set F.SYS_STATE_LOGIC_PG 0
    let c := if c.get F.PWR_STAT_VALID ≠ 1 then c.seqViol else c
    (c.logicPower).porCheck none

/-- VDD_AON_LOST: OFF from any state. Fuses and NVS are kept; a word being written may be torn. -/
def Chip.aonLost (c : Chip) : Chip :=
  if c.dstate = stOff then c
  else
    let c := ((c.nvsPowerLoss).denAllLow).islandReset false
    let c := c.drZero
    let keep : Aon := { Aon.init with resetLow := c.aon.resetLow, addrSel := c.aon.addrSel, bootSrc := c.aon.bootSrc, aux18 := c.aon.aux18 }
    let c := { c with rf := tkeep fuseField c.rf, aon := keep, ww := Ww.init }
    let c := c.set F.PWR_STAT_VALID (clrBit (c.get F.PWR_STAT_VALID) 0)
    c.arrive 1 stOff

/-- RAIL_VALID: a rail reaches 92 % of its nominal voltage. -/
def Chip.railUp (rail : Nat) (aux18 : Bool) (c : Chip) : Chip :=
  let was := (c.get F.PWR_STAT_VALID).testBit rail
  if rail = 0 ∨ was then c
  else
    let c := if rail = 10 then { c with aon := { c.aon with aux18 := aux18 } } else c
    let v := setBit (c.get F.PWR_STAT_VALID) rail
    let c := c.set F.PWR_STAT_VALID v
    if c.dstate = stOff then c
    else
      let c := if c.dstate = stPor ∧ railEarly v rail then c.seqViol else c
      let c := if rail = 10 then c.auxAll else c
      (c.logicPower).porCheck none

/-- RAIL_LOST: a rail other than VDD_AON and VDD_AUX is lost (R405). Without VDD_LOGIC, L4 and L5 are switched off; without
VDD_BASE, a word being written to the NVS may be torn; without VDD_IO, no test instruction drives the pins (R442). -/
def Chip.railDown (rail : Nat) (c : Chip) : Chip :=
  if rail = 0 ∨ rail = 10 ∨ !(c.get F.PWR_STAT_VALID).testBit rail then c
  else
    let c := c.set F.PWR_STAT_VALID (clrBit (c.get F.PWR_STAT_VALID) rail)
    if c.dstate = stOff then c
    else
      let c := (c.set F.PWR_STAT_RAIL_LOST rail).owe EV_PWR_RAIL_LOST rail
      let c := if rail = 2 then (c.set F.SYS_STATE_LOGIC_PG 0).spReset false else c
      let c := if rail = 1 then c.nvsPowerLoss else c
      let c := { c with aon := { c.aon with railHold := c.dstate ≠ stPor } }
      (c.tie).holdReset

/-- VDD_AUX_LOST: every AUX_IO and PROBE pin is high-impedance; no reset (R405). -/
def Chip.auxDown (c : Chip) : Chip :=
  if !c.auxOn then c
  else
    let c := c.set F.PWR_STAT_VALID (clrBit (c.get F.PWR_STAT_VALID) 10)
    let c := c.auxAll
    c.raiseIf c.awake EV_PWR_AUX_LOST 0

/-- RAIL_RESTORED_BOOT: every rail has been valid again for 2 ms with RESET_N high (R405). -/
def Chip.railsBack (c : Chip) : Chip :=
  if c.aon.railHold && c.get F.PWR_STAT_VALID % 2 ^ 10 = 0x3FF && !c.aon.resetLow then
    Chip.holdEnd none { c with aon := { c.aon with railHold := false } }
  else c

/-! ## RESET_N and REFCLK (R406, R410) -/

/-- RESET_N_LOW: a low pulse that the filter takes. -/
def Chip.resetLow (c : Chip) : Chip :=
  let c := c.tie
  Chip.holdReset { c with aon := { c.aon with resetLow := true } }

/-- RESET_N_RELEASE: the straps are sampled (R36, R226). -/
def Chip.resetHigh (addrSel bootSrc : Nat) (c : Chip) : Chip :=
  if !c.aon.resetLow then c
  else
    let c := { c with aon := { c.aon with resetLow := false } }
    if c.dstate = stOff then { c with aon := { c.aon with addrSel := addrSel % 4, bootSrc := bootSrc % 4 } }
    else (c.strap addrSel bootSrc).holdEnd (some addrSel)

/-- REFCLK_LOSS: no edge for 200 ns, or a frequency beyond the limit. -/
def Chip.refclkLost (noEdge : Bool) (c : Chip) : Chip :=
  if !c.is F.PWR_STAT_REFCLK_OK then c
  else
    let c := c.set F.PWR_STAT_REFCLK_OK 0
    if c.dstate = stOff then c
    else
      let c := ((c.set F.PWR_STAT_REFCLK_LOST 1).oweOnce EV_CLK_REFCLK_LOST (b2n noEdge)).tie
      Chip.holdReset { c with aon := { c.aon with refHold := c.dstate ≠ stPor } }

/-- REFCLK_RETURN: present and within limits for 1 ms with RESET_N high. -/
def Chip.refclkBack (c : Chip) : Chip :=
  if c.is F.PWR_STAT_REFCLK_OK then c
  else
    let c := c.set F.PWR_STAT_REFCLK_OK 1
    if c.dstate = stOff then c else Chip.holdEnd none { c with aon := { c.aon with refHold := false } }

/-! ## Coolant, trip and shutdown (R370 to R372, Table 14.5) -/

/-- COOLANT_OK_RISE, after `lowUs` microseconds low: logic power may be switched on, and the 1 s count starts. -/
def Chip.coolantRise (lowUs : Nat) (c : Chip) : Chip :=
  if c.is F.SYS_STATE_COOLANT_OK then c
  else
    let c := c.set F.SYS_STATE_COOLANT_OK 1
    let c := { c with aon := { c.aon with coolLowUs := lowUs } }
    if c.dstate = stOff then c else (c.logicPower).porCheck none

/-- Enter SHUTDOWN: kind 1 temperature, 2 rate, 3 coolant; the sensor and its reading used. For commands and contents it is a
warm reset in which L4 and L5 lose power (R58, R407); a word being written to the NVS is left uncorrectable (R418). A transition of a
lower rank of the same AON cycle is not taken, with what it did to the history fields and the NVS (R24). -/
def Chip.shutdown (kind sensor temp : Nat) (c : Chip) : Chip :=
  let back := ((c.undone 2).map Turn.words).getD []
  let boots := ((c.undone 2).map Turn.boots).getD (c.get F.SYS_STATE_BOOT_COUNT)
  let c := { c with nvs := { c.nvs with uncorr := c.nvs.uncorr ++ back.filter (fun w => !c.nvs.uncorr.contains w) } }
  let c := ((c.nvsTear 0xFF).denAllLow).islandReset false
  let c := ((c.set F.SYS_STATE_PREV_STATE (c.leftBy 2)).set F.SYS_STATE_CAUSE (if kind = 3 then 0x05 else 0x04)).arrive 2 stShutdown
  let c := c.set F.SYS_STATE_BOOT_COUNT boots
  let c := (c.set F.TH_TRIP_INFO_KIND kind).set F.TH_TRIP_INFO_SENSOR sensor
  let c := (c.set F.TH_TRIP_INFO_TEMP temp).inc F.TH_TRIP_INFO_COUNT
  let c := (c.set F.SYS_STATE_LOGIC_PG 0).set F.SYS_STATE_STRICT_HALT 0
  let c := { c with aon := { c.aon with
    rstArm := none
    rstInShut := false
    restartMs := 0
    held := false
    bootCause := none
    dramZero := true } }
  c.oweOnce EV_TH_TRIPPED (c.wordOf thTripFlds)

/-- SENSOR_CONVERSION. In POR and while a reset is held only the trip acts, on the reading itself (R371). -/
def Chip.sensorConvert (i : Nat) (raw : Int) (ratioOk moved : Bool) (c : Chip) : Chip :=
  let c := c.tie
  if c.dstate = stOff ∨ c.dstate = stShutdown then c
  else if c.awake then
    let c := c.thConvert i raw ratioOk moved
    match c.thTrip i with
    | some kind => c.shutdown kind i (c.get (F.TH_SENSOR_USED i))
    | none => c
  else if 8 * (c.get F.TH_CFG_TRIP : Int) ≤ raw then c.shutdown 1 i (toBits 12 (min 2047 raw))
  else c

/-- COOLANT_LOW_5MS: from BOOT onward the device shuts down. No sensor reading goes with it: `TEMP` is a free value. -/
def Chip.coolantLow5 (c : Chip) : Chip :=
  if c.is F.SYS_STATE_COOLANT_OK ∨ c.dstate = stOff ∨ c.dstate = stPor ∨ c.dstate = stShutdown then c
  else
    let c := c.tie
    (c.freeNext).shutdown 3 0xFF (c.freeVal % 4096)

/-- Whether the readings of one moment meet the restart condition (R372): `readings` holds the sensors that pass their
checks. -/
def Chip.coolEnough (c : Chip) (readings : List (Option Int)) (outlet : Int) : Bool :=
  let lim : Int := 8 * c.get F.TH_CFG_RESTART
  let good := fun (i : Nat) => (readings.getD i none)
  sensorsAll.all (fun i => match good i with | some t => decide (t ≤ lim) | none => true) &&
    layers.all (fun n => (layerSensors n).any (fun i => (good i).isSome) || decide (outlet + 40 ≤ lim)) &&
    c.is F.SYS_STATE_COOLANT_OK

/-- SHUTDOWN_SENSOR_READ, once per millisecond. -/
def Chip.shutdownRead (readings : List (Option Int)) (outlet : Int) (c : Chip) : Chip :=
  if c.dstate ≠ stShutdown then c
  else { c with aon := { c.aon with restartMs := if c.coolEnough readings outlet then c.aon.restartMs + 1 else 0 } }

/-- SHUTDOWN_RESTART: the condition has held for 1 s. BOOT goes on once no reset is held. -/
def Chip.shutdownLeave (c : Chip) : Chip :=
  if c.dstate = stShutdown ∧ 1000 ≤ c.aon.restartMs ∧ c.is F.SYS_STATE_COOLANT_OK then
    let c := c.enterBoot (if c.aon.rstInShut then 0x08 else 0x06)
    let c := { c with aon := { c.aon with rstInShut := false, restartMs := 0, held := !c.noHold, bootCause := none } }
    c.logicPower
  else c

/-! ## BOOT (R75, R226, R245, R387) -/

/-- Whether a firmware image passes the checks of R75 beyond the validity of its bank. -/
def Chip.fwPasses (c : Chip) (img : List Byte) : Bool :=
  Config.fwSigOk img && decide (Config.fwFamily img = 0x7A) && decide (Config.fwDevice img = 0x09) && decide (c.cfg.fwMinSvn ≤ Config.fwSvn img)

/-- The firmware copy that BOOT runs: the one chosen by the bank selection first, then the other (R75). -/
def Chip.fwPick (c : Chip) : Option (Nat × List Byte) :=
  match c.recChosen 0 with
  | none => none
  | some b =>
    let try' := fun (b : Nat) => match c.recBank 0 b with
      | some img => if c.fwPasses img then some (b, img) else none
      | none => none
    match try' b with
    | some x => some x
    | none => try' (1 - b)

/-- The entries of a repair log payload (R386). -/
def rlogParse (p : List Byte) : List Nat := (List.range (p.length / 8)).map (fun i => pf p (8 * i) 8)

/-- A pending entry as BOOT decides it: a spare where one is left, otherwise retirement; a fuse word is recorded only (R387). -/
def Chip.decideEntry (c : Chip) (e : Nat) : Nat :=
  let kind := bits e 3 0
  let put := fun (action spare : Nat) => bits e 63 16 * 2 ^ 16 + spare * 2 ^ 8 + action * 16 + kind
  if kind = 12 then put 3 0
  else
    match c.spareFor kind (bits e 47 16) (bits e 15 8) with
    | some j => put 0 j
    | none => put 1 0

/-- The events of a pending entry decided as `e`, applied to the device `b` with the outcome `c` (R384, R387). -/
def decisionEvents (b c : Chip) (e : Nat) : List ((Nat × Nat) × Nat) :=
  let kind := bits e 3 0
  let loc := bits e 47 16
  let broke := (List.range 136).filter (fun i => c.is (F.TH_SENSOR_BROKEN i) && !b.is (F.TH_SENSOR_BROKEN i))
  let p := bits loc 2 0
  if kind = 12 then [(EV_ST_FUSE_MISMATCH, entryArg 12 loc)]
  else if bits e 5 4 = 0 then [(EV_ST_REPAIRED, entryArg kind loc)]
  else
    let x := retireEntry kind loc
    match x.1 with
    | 6 => if b.chState x.2 = chRetired then [] else [(EV_RD_CH_RETIRED, x.2 + x.2 / 16 * 256)]
    | 8 => broke.map (fun i => (EV_TH_SENSOR_BROKEN, i)) ++
        [(if bits loc 4 0 = 4 then EV_ST_BORE_RETIRED else EV_ST_RETIRED, entryArg 8 x.2)]
    | 9 => (EV_WW_LANE_RETIRED, loc % 32 + 32 * c.get (F.WW_P_STAT_WIDTH p)) ::
        (if c.wpState p = wpRetired ∧ b.wpState p ≠ wpRetired then [(EV_WW_PORT_RETIRED, p)] else [])
    | k => [(EV_ST_RETIRED, entryArg k x.2)]

/-- Apply one entry of the log during BOOT, a pending one as now decided; how it stands in the log from then on, and the events
owed for it (R387). -/
def Chip.bootEntry (e : Nat) (c : Chip) : Chip :=
  let e' := if bits e 5 4 = 2 then c.decideEntry e else e
  let d := if bits e' 5 4 < 2 then c.applyEntry false e' else c
  { d with st := { d.st with
    decided := d.st.decided ++ [e']
    told := d.st.told ++ (if bits e 5 4 = 2 then decisionEvents c d e' else []) } }

/-- Repairs as BOOT applies them (R387): the fuse records, then the log in order, its pending entries decided on the way. -/
def Chip.applyRepairs (c : Chip) : Chip :=
  let c := { c with
    st := { c.st with log := rlogParse ((c.recRead 2).getD []), applied := [], decided := [], told := [] }
    sp := { c.sp with cols := c.sp.fuse, remap := [] }
    rd := { c.rd with units := (c.rd.units.map (fun (e : Nat × Reed) => (e.1, { e.2 with spareL := 0, spareC := 0 }))).filter (fun (e : Nat × Reed) => e.2 ≠ Reed.init) } }
  let c := c.forAll c.st.fused (fun e => Chip.applyEntry true e)
  let c := c.forAll c.st.log (fun e => Chip.bootEntry e)
  c.rlogShow

/-- On entry to FW the pending entries are rewritten in the log, and what was decided of them raises its events (R387). -/
def Chip.tellDecisions (c : Chip) : Chip :=
  if c.st.decided = c.st.log then c
  else
    let log := c.st.decided
    let told := c.st.told
    let c : Chip := { c with st := { c.st with log := log, told := [] } }
    (c.forAll told (fun x => Chip.raise x.1 x.2)).rlogShow.recWrite 2 (rlogBytes log) none .none

/-- The banks found invalid beside a valid one (R416). -/
def Chip.badBanks (c : Chip) : List Nat :=
  (List.range 3).flatMap (fun r => (List.range 2).filterMap (fun b =>
    if (c.recBank r b).isNone && (c.recBank r (1 - b)).isSome then some (r + 4 * b) else none))

/-- The training that BOOT makes at `FREQ` 0 has ended, unless it was seen to end already (R283). -/
def Chip.bootTrain (c : Chip) : Chip :=
  if c.drState = drInit ∨ c.drState = drTraining then
    Chip.drTrained true [c.dramMax 1, c.dramMax 2] (if c.dr.train.isNone then c.drTrain 0 [] else c)
  else c

/-- The boot source (R226). -/
def Chip.bootLoad (c : Chip) : Chip := if c.aon.bootSrc = 0 then c.flashLoad else c

/-- Entry to FW: the events owed, pending repairs, user calibration, Windway ports, the boot notice and the boot source
(R64, R69, R97, R226, R339, R387). -/
def Chip.enterFw (copy : Nat) (img : List Byte) (c : Chip) : Chip :=
  let c := { c with
    aon := { c.aon with i3cOpen := true }
    ch := { c.ch with copy := copy, fwVersion := Config.fwVersion img % 2 ^ 32, fwSvn := Config.fwSvn img % 256 } }
  let c := c.setState stFw
  let arg := c.get F.SYS_STATE_CAUSE + c.get F.SYS_STATE_PREV_STATE * 2 ^ 8 + c.get F.SYS_STATE_BOOT_COUNT * 2 ^ 16
  let c := c.raiseAt EV_SYS_BOOTED.1 (if c.get F.SYS_STATE_CAUSE = 0 then 0 else 1) arg
  let c := c.tellDecisions
  let owed := c.aon.onFw
  let c := { c with aon := { c.aon with onFw := [] } }
  let c := c.forAll owed (fun x => Chip.raiseAt x.1 x.2.1 x.2.2)
  let c := c.forAll c.badBanks (fun a => Chip.raise EV_NVS_BANK_INVALID a)
  let c := c.calLoad ((c.recRead 1).getD [])
  ((c.portsStart).notice 1).bootLoad

/-- What BOOT has done by its end: repairs, an RMA transition cut short, DRAM training, the time base at zero, and the event log
found again (R75, R245, R283, R352, R387, R422). -/
def Chip.bootPrep (c : Chip) : Chip :=
  let c := c.applyRepairs
  let c := if c.cfg.rmaPend ∧ c.lc = lcField then (c.rmaZeroise).owe EV_SEC_LC_CHANGED lcRma else c
  ((c.bootTrain).set F.WW_TB_TIME 0).evlogResume

/-- BOOT_DONE: the firmware check ends BOOT in FW, or in RECOVERY if no copy passes (Table 1.8, R75). -/
def Chip.bootDone (c : Chip) : Chip :=
  if c.dstate ≠ stBoot ∨ c.aon.held then c
  else
    let c := c.bootPrep
    match c.fwPick with
    | some (b, img) => c.enterFw b img
    | none => Chip.setState stRecovery { c with aon := { c.aon with i3cOpen := true } }

/-! ## Targeted resets (R408, Tables 2.22 and 16.4) -/

/-- A region reset: flip-flops, gate buffers to and from it, requests, the capture unit and the RW1C bits. -/
def Chip.regionReset (r : Nat) (c : Chip) : Chip :=
  let c := (((c.initFfs r).dropGates r).discardRequests r).endLeases r
  let beside := regions.filter (fun b => decide (b = r + 96 ∨ r = b + 96) || (gateKey r b 0).isSome)
  let stays := fun (b k : Nat) => if b = r + 96 ∨ r = b + 96 then decide (k < 8) else decide (gateKey r b 0 ≠ some k)
  let c := c.forAll beside (fun b c => c.setRg b (fun g => { g with gates := tkeep (stays b) g.gates }))
  let c := c.setRg r (fun g => { g with sent := [], rose := 0, capIdx := 0, capSeen := 0, capLeft := 0, capHit := false })
  let c := (c.set (F.FAB_RG_CAPSTAT_CSTATE r) csIdle).set (F.FAB_RG_CAPCTL_ARM r) 0
  c.clear [F.FAB_RG_STAT_SS_LOST r, F.FAB_RG_STAT_SS_REFUSED r, F.FAB_RG_STAT_GDISC r]

/-- An engine reset; the user-port credits of what its buffer held are lost until its domain is open (R131, R296). -/
def Chip.peReset (k : Nat) (c : Chip) : Chip :=
  let n := (c.eng k).uport.length
  Chip.engineReset k { c with net := { c.net with credit := tput 0 k (tget 0 k c.net.credit + n) c.net.credit } }

/-- A Reed group reset: flags, counters, timestamps and the port address; both lines of every channel are acquired anew. -/
def Chip.groupReset (g : Nat) (c : Chip) : Chip :=
  let c := c.clear ([F.RD_GRP_STAT_TS_OVR g, F.RD_GRP_STAT_TSV g, F.RD_GRP_STAT_CLAMP g, F.RD_GRP_STAT_CONFLICT g] ++ rdCounters g)
  let c := ((c.set (F.RD_TS_PORT_ADDR_LANE g) 0).set (F.RD_TS_PORT_ADDR_TSET g) 0).set (F.RD_TS_PORT_ADDR_AUTOINC g) 1
  let c := { c with rd := { c.rd with buf := tdel g c.rd.buf, dropped := clrBit c.rd.dropped g } }
  c.forAll (List.range 8) (fun i c =>
    let n := 8 * g + i
    if c.chState n = chRetired then c
    else ((c.setStarved n false false).setStarved n true false).setUnit n (fun u =>
      { u with den := false, outL := 0, outC := 0, checks := [], reacq := if u.reacq = 1 then 1 else 2 }))

/-- A controller reset: queues as Table 10.7 says, registers but `DR_CTL`, the retired banks and `TRAIN_CNT`; training runs
again at the frequency in force. Which cause its event then carries the spec does not say: a free value. -/
def Chip.dramReset (c : Chip) : Chip :=
  let c := c.drQueueReset
  let c := c.resetRange 0x800000 0x900000 (fun k =>
    k / 1024 = 0x800000 || (decide (0x800010 ≤ k / 1024) && decide (k / 1024 < 0x800030)) || k = F.DR_CNT_B_TRAIN_CNT.key)
  let cause := c.freeVal % 4
  let c := { c with dr := { c.dr with cmds := [], hist := [] } }
  (c.freeNext).drTrain cause []

/-- What the reset of a target clears, at its domain's closing. -/
def Chip.targetReset (kind idx : Nat) (c : Chip) : Chip :=
  match kind with
  | 2 => (if c.domState (domRegion idx) = 0 then c.domClose (domRegion idx) 0 else c).regionReset idx
  | 3 => (c.domClose (domEngine idx) 0).peReset idx
  | 4 => (c.domClose (domGroup idx) 0).groupReset idx
  | 5 => c.dmaReset idx
  | 6 => c.portReset idx
  | 7 => (c.domClose domDram 0).dramReset
  | _ => c

/-- Open the domain of a target again. -/
def Chip.targetOpen (kind idx : Nat) (c : Chip) : Chip :=
  match kind with
  | 2 => if c.rgState idx = rgOff then c else (c.regionReset idx).domOpen (domRegion idx)
  | 3 => c.domOpen (domEngine idx)
  | 4 => c.domOpen (domGroup idx)
  | 6 => if c.wpState idx = wpRetired then c else c.domOpen (domPort idx)
  | 7 => c.domOpen domDram
  | _ => c

/-- TARGETED_RESET_DONE: the target is open again and the command ends (R74). A controller opens once it has trained. -/
def Chip.targetedDone (kind idx : Nat) (c : Chip) : Chip :=
  match c.resetCmd kind idx with
  | none => c
  | some s => if kind < 2 ∨ (kind = 7 ∧ (c.drState = drTraining ∨ c.drState = drInit)) then c else (c.targetOpen kind idx).ok s.id []

/-! ## Meanings -/

def execVddAonValid (s : State) := runAon Chip.aonValid s
def execVddAonLost (s : State) := runAon Chip.aonLost s
def execRailValid (rail : Fin 11) (aux18 : Bool) (s : State) := runAon (Chip.railUp rail aux18) s
def execRailLost (rail : Fin 11) (s : State) := runAon (Chip.railDown rail) s
def execVddAuxLost (s : State) := runAon Chip.auxDown s
def execRailRestoredBoot (s : State) := runAon Chip.railsBack s
def execResetNLow (s : State) := runAon Chip.resetLow s
def execResetNRelease (addrSel bootSrc : BitVec 2) (s : State) := runAon (Chip.resetHigh addrSel.toNat bootSrc.toNat) s
def execRefclkLoss (noEdge : Bool) (s : State) := runAon (Chip.refclkLost noEdge) s
def execRefclkReturn (s : State) := runAon Chip.refclkBack s
def execCoolantOkRise (lowUs : Nat) (s : State) := runAon (Chip.coolantRise lowUs) s
def execCoolantLow5ms (s : State) := runAon Chip.coolantLow5 s
def execSensorConversion (i : Fin 136) (raw : Int) (ratioOk moved : Bool) (s : State) :=
  runAon (Chip.sensorConvert i raw ratioOk moved) s
def execShutdownSensorRead (readings : List (Option Int)) (outlet : Int) (s : State) := runAon (Chip.shutdownRead readings outlet) s
def execShutdownRestart (s : State) := runAon Chip.shutdownLeave s
def execBootDone (s : State) := runAon Chip.bootDone s
def execTargetedResetDone (kind : Fin 8) (index : BitVec 16) (s : State) := runChip (Chip.targetedDone kind index.toNat) s

end Sys2Proof.Machine
end

