-- ==== Sys2Proof/Machine/ChanterSys.lean ====
section
/-! DEFINITION. Class 0x00 of Chanter's commands (R57, R58, R71 to R77): identity, peek and poke, resets, aborts, events, firmware
update, and Chanter's restart. -/

namespace Sys2Proof.Machine

/-! ## Identity and status (Tables 2.19, 2.20) -/

def cmdSysNop : Cmd := { Cmd.plain 0x00 0x00 lcAll (fun _ _ => none) (fun id pl c => c.ok id pl) with recov := fun _ => true }

/-- The 64 bytes of Table 2.20. -/
def Chip.identity (c : Chip) : List Byte :=
  [0x7A#8, 0x09#8, 0x02#8] ++ natLe 1 c.lc ++ natLe 8 (c.get F.SYS_UID_LO_UID) ++ natLe 8 (c.get F.SYS_UID_HI_UID) ++
    natLe 4 c.ch.fwVersion ++ natLe 1 c.ch.copy ++ natLe 1 c.ch.fwSvn ++ natLe 2 c.srcId ++
    natLe 1 (c.get F.WW_ID_ROOT + 2 * c.get F.SYS_STATE_STRICT_HALT + 4 * c.get F.SYS_STATE_FALLBACK) ++ natLe 3 0 ++
    natLe 4 0x4A970A2B ++ natLe 28 0

def cmdSysIdentify : Cmd :=
  { Cmd.plain 0x00 0x01 lcAll (fun _ => lenIs 0) (fun id _ c => c.ok id c.identity) with recov := fun _ => true }

def cmdSysStatus : Cmd :=
  { Cmd.plain 0x00 0x02 lcAll (fun _ => lenIs 0)
      (fun id _ c => c.ok id (natLe 8 (c.regWord F.SYS_STATE_STATE.off) ++ natLe 8 c.qstat ++ natLe 8 c.evqStat ++
        natLe 8 (c.get F.WW_TB_TIME))) with
    recov := fun _ => true }

/-! ## Peek and poke (R72, R73, Table 2.21) -/

/-- The fields of the header of a peek or poke of at most `most` words. -/
def accessOk (most : Nat) (pl : List Byte) : Bool :=
  let n := pf pl 8 2
  let wide := (pb pl 10).testBit 0
  pf pl 6 2 = 0 && pf pl 0 8 % (if wide then 16 else 8) = 0 && decide (1 ≤ n) && decide (n ≤ most) && decide (pb pl 10 ≤ 1) &&
    pf pl 11 5 = 0 && (!wide || n % 2 = 0)

/-- Begin a peek or poke. -/
def Chip.accessBegin (poke : Bool) (id : Nat) (pl : List Byte) (c : Chip) : Chip :=
  let wide := (pb pl 10).testBit 0
  let a : ChAccess :=
    { slot := id, addr := pf pl 0 8, left := if wide then pf pl 8 2 / 2 else pf pl 8 2, wide := wide, poke := poke,
      data := pl.drop 16, got := [], words := 0, busy := false }
  Chip.accessPump { c with ch := { c.ch with access := c.ch.access ++ [a] } }

def cmdSysPeek : Cmd := Cmd.plain 0x00 0x03 live (fun _ pl => orElse (lenIs 16 pl) (param (accessOk 512 pl))) (Chip.accessBegin false)

/-- The length and fields of a poke: `LEN` is 16 + 8 × COUNT. -/
def pokeChk (pl : List Byte) : Option (Nat × Nat) :=
  if pl.length < 16 then some (ST_BAD_LENGTH, dtNone)
  else orElse (param (accessOk 510 pl)) (lenIs (16 + 8 * pf pl 8 2) pl)

/-- The blocks that a poke may not touch in PROVISIONED and FIELD (R73): Configuration, Ligature, NVS window, 1 MiB each. -/
def lockedBlocks : List Nat := [0x020000100000, 0x020000C00000, 0x020000D00000]

/-- Whether a poke's range touches a locked block. -/
def pokeLocked (pl : List Byte) : Bool :=
  let a := pf pl 0 6
  lockedBlocks.any (fun b => decide (a < b + 0x100000) && decide (b < a + 8 * pf pl 8 2))

def cmdSysPoke : Cmd :=
  { Cmd.plain 0x00 0x04 live (fun _ pl => pokeChk pl) (Chip.accessBegin true) with
    deny := fun c pl => if lcProvField c.lc && pokeLocked pl then some (ST_DENIED_LIFECYCLE, dtLockedRange) else none }

/-! ## Chanter's restart (R58, R59) -/

/-- Chanter restarts: it takes no packet, the firmware that served running commands is gone, and an update session closes. -/
def Chip.restart (c : Chip) : Chip := { c with ch := { c.ch with restarting := true, fw := none, access := [], busy := false } }

/-- End a command that the restart found in flight, with the status recorded for it (R58, R74). -/
def Chip.restartEnd (s : Slot) (c : Chip) : Chip :=
  let r := s.recorded.getD (ST_TARGET_RESET, dtNone)
  c.finish1 s.id r.1 r.2 []

/-- CHANTER_RESTART_DONE: once operations that cannot be stopped have recorded their status, every running command ends. -/
def Chip.restartDone (c : Chip) : Chip :=
  if !c.ch.restarting ∨ c.ch.slots.any (fun s => s.running && s.noStop && s.recorded.isNone) then c
  else
    let dog := c.ch.watchdog
    let ids := c.ch.slots.filter (fun s => !s.ended)
    let c := { c with ch := { c.ch with restarting := false, watchdog := false } }
    (c.forAll ids Chip.restartEnd).raiseIf dog EV_SYS_FW_WATCHDOG c.ch.fwVersion

/-- Whether Chanter's firmware runs (Table 1.7). -/
def Chip.chanterUp (c : Chip) : Bool := c.awake && decide (stFw ≤ c.dstate) && !c.ch.restarting

/-- FW_WATCHDOG. -/
def Chip.watchdogBite (c : Chip) : Chip :=
  if c.chanterUp then Chip.restart { c with ch := { c.ch with watchdog := true } } else c

/-! ## Resets (R60, R74, Table 2.22) -/

/-- The number of targets of each kind. -/
def resetTargets : List Nat := [1, 1, 192, 16, 32, 4096, 8, 1]

/-- Whether the target of a targeted reset is retired. -/
def Chip.resetRetired (c : Chip) (kind idx : Nat) : Bool :=
  (kind = 2 && c.rgState idx = rgRetired) || (kind = 6 && c.wpState idx = wpRetired)

/-- The start of a `CH_SYS_RESET`. -/
def Chip.resetStart (id : Nat) (pl : List Byte) (c : Chip) : Chip :=
  let kind := pb pl 0
  let idx := pf pl 2 2
  if kind = 0 then Chip.ok id [] { c with ch := { c.ch with resetDue := true } }
  else if kind = 1 then (c.setSlot id (fun (s : Slot) => { s with recorded := some (ST_OK, dtNone) })).restart
  else if c.resetRetired kind idx then c.fail id ST_RETIRED dtNone
  else
    let hit := (c.ch.slots.filter (fun s => s.id ≠ id && resetHits kind idx s)).map (fun s => s.id)
    ((c.interim id ST_ACCEPTED dtNone []).endAll hit ST_TARGET_RESET dtNone).targetReset kind idx

def cmdSysReset : Cmd :=
  { Cmd.plain 0x00 0x05 live
      (lenParam 8 (fun pl => pb pl 1 = 0 && pf pl 4 4 = 0 && decide (pf pl 2 2 < resetTargets.getD (pb pl 0) 0)))
      Chip.resetStart with
    urgent := true
    recov := fun pl => pb pl 0 = 0 }

/-- SYS_RESET_TAKES_EFFECT. -/
def Chip.resetEffect (c : Chip) : Chip := if c.ch.resetDue then (c.tie).warmReset 0x03 else c

/-! ## Abort (R57) -/

/-- An abort of a command whose configuration work is in progress or waits (R236, R242, R250). -/
def Chip.stopCfg (id : Nat) (c : Chip) : Chip :=
  let mine := fun (p : Paging) => match p.why with
    | .command i => i = id
    | .rewrite i _ _ => i = id
    | _ => false
  let waiting := c.cfg.waiting.filter mine
  let c := { c with
    cfg := { c.cfg with
      waiting := c.cfg.waiting.filter (fun p => !mine p)
      rewrite := c.cfg.rewrite.filter (fun q => q.1 ≠ id) }
    fab := { c.fab with bcasts := c.fab.bcasts.filter (fun (b : Bcast) => b.slot ≠ some id) } }
  let c := c.forAll waiting (fun p => Chip.pageReply p ST_ABORTED dtNone)
  let c := match c.cfg.page with
    | some p =>
      if mine p then
        Chip.pageReply p ST_ABORTED dtNone (c.pageAbandon p).pageOver
      else c
    | none => c
  let c := if (c.cfg.load.bind Load.slot) = some id then c.loadFail ST_ABORTED dtNone else c
  c.pageSettle

/-- An abort of a memory command: a bank power command, or a frequency change that waits behind a training. -/
def Chip.stopMem (id : Nat) (c : Chip) : Chip :=
  let c := { c with sp := { c.sp with waits := c.sp.waits.filter (fun q => q.1 ≠ id) } }
  let late := match c.dr.freq with
    | some (i, _, true) => decide (i = id)
    | _ => false
  if late then Chip.set F.DR_STAT_FREQ_PENDING 0 { c with dr := { c.dr with freq := none } } else c

/-- An abort of an engine command: a deferred start is withdrawn (R130), a pause or stop no longer asked for. -/
def Chip.stopPe (id : Nat) (c : Chip) : Chip :=
  let c := c.forAll (List.range 16) (fun k c =>
    if (c.eng k).startSlot = some id then c.withdrawStart (c.gang k) else c)
  c.forAll (List.range 16) (fun k c =>
    if (c.eng k).pauseReq.contains id || (c.eng k).stopReq.contains id then
      c.setEng k (fun e => { e with pauseReq := e.pauseReq.erase id, stopReq := e.stopReq.erase id })
    else c)

/-- An abort of a channel check: its result is no longer waited for. -/
def Chip.stopRd (id : Nat) (c : Chip) : Chip :=
  c.forAll (List.range 256) (fun n c =>
    if (c.unit n).checks.contains id then c.setUnit n (fun u => { u with checks := u.checks.erase id }) else c)

/-- An abort of a flush, a zeroing (R155), a `CH_RA_BEGIN`, or a `CH_RA_FINAL` (R187). -/
def Chip.stopCap (id : Nat) (c : Chip) : Chip :=
  let c := { c with
    cap := { c.cap with flush := c.cap.flush.erase id, zero := c.cap.zero.filter (fun z => z.slot ≠ id) }
    rae := { c.rae with zeroing := c.rae.zeroing.filter (fun i => i ≠ id) } }
  if c.rae.final = some id then c.raeAbort else c

/-- An abort of a DMA command: the transfer that a start waits for is aborted (R330); any other wait ends. -/
def Chip.stopDma (id : Nat) (c : Chip) : Chip :=
  match c.dma.chs.find? (fun e => e.2.startW.contains id) with
  | some e => c.dmaAbort e.1
  | none =>
    { c with dma := { c.dma with chs := c.dma.chs.map (fun (e : Nat × DmaCh) => (e.1,
      { e.2 with pauseW := e.2.pauseW.erase id, abortW := e.2.abortW.erase id, statW := e.2.statW.erase id })) } }

/-- An abort of a discovery or route change: it goes on without a reply. Of a lane test, see `Chip.stopTest`. -/
def Chip.stopWw (id : Nat) (c : Chip) : Chip :=
  { c with ww := { c.ww with change := c.ww.change.map (fun g => if g.slot = some id then { g with slot := none } else g) } }

/-- An abort of a targeted test: its result is no longer waited for; of the full test: it ends at the next element (R380). -/
def Chip.stopTest (id ab : Nat) (c : Chip) : Chip :=
  let forget := fun (t : TestItem) => { t with slots := t.slots.erase id }
  { c with st := { c.st with
    queue := c.st.queue.map forget
    cur := c.st.cur.map forget
    full := c.st.full.map (fun f => if f.slot = id then { f with aborts := f.aborts ++ [ab] } else f) } }

/-- An abort of a region's power command, or of a write to the user partition. -/
def Chip.stopPwr (s : Slot) (c : Chip) : Chip :=
  let c := { c with nvs := { c.nvs with jobs := c.nvs.jobs.filter (fun j =>
    match j.done with
    | .slot i _ _ => decide (i ≠ s.id)
    | .fwBegin i _ _ | .userRead i _ _ => decide (i ≠ s.id)
    | _ => true) } }
  let c := c.nvsReads
  let r := pb s.payload 0
  if s.op = 0x16 ∧ c.rgState r ≠ rgOff then c.domOpen (domRegion r) else c

/-- An abort of a peek, a poke or a firmware update's begin. -/
def Chip.stopSys (s : Slot) (c : Chip) : Chip :=
  let c := { c with ch := { c.ch with access := c.ch.access.filter (fun a => a.slot ≠ s.id) } }
  if s.op = 0x0B then c.stopPwr s else c

/-- Stop what a running command waits for, as its home chapter describes; `ab` is the slot of the abort. -/
def Chip.stopCmd (s : Slot) (ab : Nat) (c : Chip) : Chip :=
  match s.cls with
  | 0x00 => c.stopSys s
  | 0x01 => c.stopCfg s.id
  | 0x02 => c.stopMem s.id
  | 0x03 => c.stopPe s.id
  | 0x04 => c.stopRd s.id
  | 0x05 => c.stopCap s.id
  | 0x06 => c.stopDma s.id
  | 0x07 => (c.stopWw s.id).stopTest s.id ab
  | 0x08 => c.stopPwr s
  | 0x09 => c.stopTest s.id ab
  | _ => c

/-- A command whose abort takes effect only at a later point of its work: a running final (R187), a transfer that drains (R330), a
full test (R380). -/
def Chip.stopLater (c : Chip) (id : Nat) : Bool :=
  c.rae.final = some id || c.dma.chs.any (fun e => e.2.startW.contains id) || (c.st.full.map (fun (f : FullTest) => decide (f.slot = id))).getD false

/-- The outcome of an abort for the command it names (R57). -/
def Chip.abortOf (id : Nat) (s : Slot) (c : Chip) : Chip :=
  if s.cls = 0x00 ∧ s.op = 0x06 then c.fail id ST_BAD_PARAM dtNone
  else if s.ended then c.fail id ST_ABORT_TOO_LATE dtNone
  else
    let c := c.setSlot s.id (fun (t : Slot) => { t with aborts := t.aborts ++ [id] })
    if s.noStop then c
    else if s.waits then c.fail s.id ST_ABORTED dtNone
    else
      let c := c.stopCmd s id
      if c.stopLater s.id then c else c.fail s.id ST_ABORTED dtNone

/-- The start of a `CH_SYS_ABORT`: the command of the same route with the TAG and DEST it names. -/
def Chip.abortStart (id : Nat) (pl : List Byte) (c : Chip) : Chip :=
  let route := (c.slot? id).map Slot.route
  let hit := if c.isOwn (bits (pf pl 0 4) 27 16) then c.ch.slots.find? (fun s => some s.route = route && s.tag = pf pl 0 2) else none
  match hit with
  | none => c.fail id ST_ABORT_TOO_LATE dtNotInFlight
  | some s => c.abortOf id s

def cmdSysAbort : Cmd :=
  { Cmd.plain 0x00 0x06 lcAll (lenParam 4 (fun pl => bits (pf pl 0 4) 31 28 = 0)) Chip.abortStart with urgent := true }

/-! ## Events (R62, R63, R69) -/

/-- The start of a `CH_SYS_EVENT_READ`. -/
def Chip.eventRead (id : Nat) (pl : List Byte) (c : Chip) : Chip :=
  let n := pf pl 0 2
  let es := c.ch.events.take n
  let c := if (pf pl 0 4).testBit 16 then c else Chip.evqOverflow { c with ch := { c.ch with events := c.ch.events.drop n } }
  c.finish id ST_OK (min 255 c.ch.events.length) (es.flatMap evBytes)

def cmdSysEventRead : Cmd :=
  { Cmd.plain 0x00 0x07 lcAll
      (lenParam 4 (fun pl => decide (1 ≤ pf pl 0 2) && decide (pf pl 0 2 ≤ 256) && decide (pf pl 0 4 < 2 ^ 17))) Chip.eventRead with
    urgent := true
    recov := fun _ => true }

def cmdSysEventMask : Cmd := Cmd.plain 0x00 0x08 lcAll (lenParam 8 (fun pl => pf pl 6 2 = 0)) (fun id pl c =>
  let c := c.evqMask (pf pl 0 8)
  c.ok id (natLe 8 (c.get F.EVQ_MASK_MASK)))

def cmdSysNotice : Cmd := Cmd.plain 0x00 0x09 live (lenParam 4 (fun pl => decide (pf pl 0 4 ≤ 1))) (fun id pl c =>
  Chip.ok id [] { c with ch := { c.ch with notices := pf pl 0 4 = 1 } })

/-! ## Firmware update (R75 to R77) -/

/-- Version and security version of a firmware copy, zero where the copy is invalid (Table 2.23). -/
def Chip.fwVersions (c : Chip) (b : Nat) : Nat × Nat :=
  match c.recBank 0 b with
  | some img => (Config.fwVersion img, Config.fwSvn img)
  | none => (0, 0)

def cmdSysFwInfo : Cmd :=
  { Cmd.plain 0x00 0x0A lcAll (fun _ => lenIs 0) (fun id _ c =>
      let a := c.fwVersions 0
      let b := c.fwVersions 1
      c.ok id (natLe 4 a.1 ++ natLe 4 b.1 ++ natLe 1 a.2 ++ natLe 1 b.2 ++ natLe 1 c.ch.copy ++ natLe 1 c.cfg.fwMinSvn ++
        natLe 1 ((c.ch.fw.map (fun (f : FwSession) => 1 + f.copy)).getD 0) ++ natLe 3 0)) with
    recov := fun _ => true }

/-- The copy that an update writes (R76). -/
def Chip.fwTarget (c : Chip) : Nat :=
  if c.dstate ≠ stRecovery then 1 - c.ch.copy
  else
    match c.recChosen 0 with
    | none => 0
    | some b => 1 - b

/-- The start of a `CH_SYS_FW_BEGIN`: an open session is discarded and the copy's header is invalidated; then the session opens and
the command ends (`Chip.nvsFollow`). -/
def Chip.fwBegin (id : Nat) (pl : List Byte) (c : Chip) : Chip :=
  let b := c.fwTarget
  let h := recHdr 0 b / 8
  Chip.nvsWrite [(h, tget 0 h c.nvs.words / 2 ^ 32 * 2 ^ 32)] (.fwBegin id b (pf pl 0 4)) { c with ch := { c.ch with fw := none } }

def cmdSysFwBegin : Cmd :=
  { Cmd.plain 0x00 0x0B live (lenParam 8 (fun pl => pf pl 4 4 = 0 && pf pl 0 4 % 8 = 0 && decide (pf pl 0 4 ≤ 1048576))) Chip.fwBegin with
    recov := fun _ => true }

/-- The start of a `CH_SYS_FW_DATA`. -/
def Chip.fwData (id : Nat) (pl : List Byte) (c : Chip) : Chip :=
  match c.ch.fw with
  | none => c.fail id ST_BAD_STATE dtNoSession
  | some f =>
    if f.len < pf pl 0 4 + (pl.length - 8) then c.fail id ST_BAD_PARAM dtNone
    else Chip.ok id [] { c with ch := { c.ch with fw := some { f with
      data := memWrite (pf pl 0 4) (pl.drop 8) f.data
      done := f.done ++ [(pf pl 0 4, pl.length - 8)] } } }

def cmdSysFwData : Cmd :=
  { Cmd.plain 0x00 0x0C live
      (fun _ pl =>
        if pl.length < 16 ∨ pl.length % 8 ≠ 0 then some (ST_BAD_LENGTH, dtNone)
        else param (pf pl 4 4 = 0)) Chip.fwData with
    recov := fun _ => true }

/-- Every byte of a session's image has been written; a range never written fails the signature check (R76). -/
def FwSession.whole (f : FwSession) : Bool :=
  (List.range f.len).all (fun i => f.done.any (fun r => decide (r.1 ≤ i) && decide (i < r.1 + r.2)))

/-- The checks of a commit (R75, R76): its refusal, if any. -/
def Chip.fwRefusal (c : Chip) (whole : Bool) (img : List Byte) : Option (Nat × Nat) :=
  if !whole || !Config.fwSigOk img || Config.fwFamily img != 0x7A || Config.fwDevice img != 0x09 then some (ST_AUTH_FAIL, dtSignature)
  else if Config.fwSvn img < c.cfg.fwMinSvn then some (ST_AUTH_FAIL, dtRollback)
  else none

/-- The start of a `CH_SYS_FW_COMMIT`: the image that the session holds is checked and written as a record. DESIGN CHOICE (log entry
44): without an open session it ends as R76 ends `CH_SYS_FW_DATA`, with no interim reply; and the session of a commit that passes
its checks closes when the commit starts. -/
def Chip.fwCommit (id : Nat) (c : Chip) : Chip :=
  match c.ch.fw with
  | none => c.fail id ST_BAD_STATE dtNoSession
  | some f =>
    let img := memRead 0 f.len f.data
    let c := Chip.interim id ST_ACCEPTED dtNone [] { c with ch := { c.ch with fw := none } }
    match c.fwRefusal f.whole img with
    | some r => c.fail id r.1 r.2
    | none => (c.setSlot id (fun (s : Slot) => { s with noStop := true })).recWrite 0 img (some f.copy) (.fwCommit id f.copy)

def cmdSysFwCommit : Cmd :=
  { Cmd.plain 0x00 0x0D live (lenParam 4 (fun pl => decide (pf pl 0 4 ≤ 1))) (fun id _ c => c.fwCommit id) with recov := fun _ => true }

/-- FW_COMMIT_DONE: the header that validates the copy stands; what follows depends on the state and on ACTIVATE (R77). -/
def Chip.commitDone (c : Chip) : Chip :=
  match c.ch.commitDue with
  | [] => c
  | (id, b) :: due =>
    let c := { c with ch := { c.ch with commitDue := due } }
    let img := (c.recBank 0 b).getD []
    let act := ((c.slot? id).map (fun s => decide (pf s.payload 0 4 = 1))).getD false
    let c := c.raise EV_SYS_FW_UPDATED (b + Config.fwVersion img % 2 ^ 24 * 2 ^ 8)
    let c := c.ok id []
    if c.dstate = stRecovery then c.enterBoot 0x07
    else if act then
      Chip.restart { c with ch := { c.ch with
        copy := b
        fwVersion := Config.fwVersion img % 2 ^ 32
        fwSvn := Config.fwSvn img % 256 } }
    else c

/-! ## Meanings -/

def execChSysNop (p : Pkt) (s : State) := runAon (Chip.command cmdSysNop p) s
def execChSysIdentify (p : Pkt) (s : State) := runAon (Chip.command cmdSysIdentify p) s
def execChSysStatus (p : Pkt) (s : State) := runAon (Chip.command cmdSysStatus p) s
def execChSysPeek (p : Pkt) (s : State) := runAon (Chip.command cmdSysPeek p) s
def execChSysPoke (p : Pkt) (s : State) := runAon (Chip.command cmdSysPoke p) s
def execChSysReset (p : Pkt) (s : State) := runAon (Chip.command cmdSysReset p) s
def execChSysAbort (p : Pkt) (s : State) := runAon (Chip.command cmdSysAbort p) s
def execChSysEventRead (p : Pkt) (s : State) := runAon (Chip.command cmdSysEventRead p) s
def execChSysEventMask (p : Pkt) (s : State) := runAon (Chip.command cmdSysEventMask p) s
def execChSysNotice (p : Pkt) (s : State) := runAon (Chip.command cmdSysNotice p) s
def execChSysFwInfo (p : Pkt) (s : State) := runAon (Chip.command cmdSysFwInfo p) s
def execChSysFwBegin (p : Pkt) (s : State) := runAon (Chip.command cmdSysFwBegin p) s
def execChSysFwData (p : Pkt) (s : State) := runAon (Chip.command cmdSysFwData p) s
def execChSysFwCommit (p : Pkt) (s : State) := runAon (Chip.command cmdSysFwCommit p) s
def execFwCommitDone (s : State) := runChip Chip.commitDone s
def execFwWatchdog (s : State) := runChip Chip.watchdogBite s
def execChanterRestartDone (s : State) := runChip Chip.restartDone s
def execSysResetTakesEffect (s : State) := runChip Chip.resetEffect s

end Sys2Proof.Machine
end

