-- ==== Sys2Proof/Machine/ChanterBus.lean ====
section
/-! DEFINITION. Chanter packets as raw bytes (R39, R44, R47), and the root's forwarding of packets and replies (R66 to R69). -/

namespace Sys2Proof.Machine

/-- Every command of every class (Table 2.9). -/
def commands : List Cmd :=
  [
    cmdSysNop, cmdSysIdentify, cmdSysStatus, cmdSysPeek, cmdSysPoke, cmdSysReset, cmdSysAbort, cmdSysEventRead, cmdSysEventMask, cmdSysNotice, cmdSysFwInfo, cmdSysFwBegin, cmdSysFwData, cmdSysFwCommit,
    cmdCfgStatus, cmdCfgLoadBegin, cmdCfgLoadData, cmdCfgLoadEnd, cmdCfgLoadDram, cmdCfgPage, cmdCfgDraw, cmdCfgRewriteSlot, cmdCfgLibStatus, cmdCfgLibFree, cmdCfgXspi,
    cmdSpStatus, cmdSpPower, cmdSpColmapRead,
    cmdDrStatus, cmdDrFreq, cmdDrTrain, cmdDrSnapshot, cmdDrThaw,
    cmdPeStatus, cmdPeLoad, cmdPeStart, cmdPePause, cmdPeResume, cmdPeStop, cmdPeAbort, cmdPeGang, cmdPeClock,
    cmdRdCalSave, cmdRdStatus, cmdRdTsWrite, cmdRdTsRead, cmdRdCalWrite, cmdRdCalRead, cmdRdCheck,
    cmdCapStatus, cmdCapConfig, cmdCapClear, cmdCapBmFlush, cmdCapBmZero, cmdCapFflRead, cmdCapFatRead, cmdCapLostRead,
    cmdRaStatus, cmdRaRecipeLoad, cmdRaRecipeCommit, cmdRaBegin, cmdRaFinal, cmdRaEnd, cmdRaCtxRead, cmdRaRingRead,
    cmdDmaStatus, cmdDmaStart, cmdDmaArm, cmdDmaPause, cmdDmaResume, cmdDmaAbort,
    cmdWwStatus, cmdWwDiscover, cmdWwTopoRead, cmdWwRoute, cmdWwPort, cmdWwLaneTest,
    cmdThStatus, cmdThSensors, cmdThSubst, cmdThThresh, cmdThLimit,
    cmdPwrRegion, cmdPwrStatus,
    cmdClkRegion,
    cmdNvsRecInfo, cmdNvsRecRead, cmdNvsEvlogRead, cmdNvsUser,
    cmdStStatus, cmdStRun, cmdStFull, cmdStLogRead, cmdStFuseRepair, cmdStLogClear,
    cmdLgStatus,
    cmdSecStatus, cmdSecLcAdvance, cmdSecNonce, cmdSecReqData, cmdSecKeyProg, cmdSecKeyRevoke, cmdSecSvnRaise, cmdSecRma, cmdSecRootkeyProg, cmdSecAttest, cmdSecBlobRead,
    cmdFabStatus, cmdFabProbe, cmdFabCapArm, cmdFabCapStop, cmdFabCapRead]

/-- The command of a class and opcode (check 8 of R47). -/
def commandOf (cls op : Nat) : Option Cmd := commands.find? (fun k => k.cls = cls && k.op = op)

/-- Checks 1 to 4 of R47 on the bytes of a packet: its refusal, if any. `cut` says that bytes beyond MWL were discarded (R39). -/
def rawRefusal (cut : Bool) (b : List Byte) : Option (Nat × Nat) :=
  let len := pf b 4 2
  if b.length < 16 then some (ST_BAD_LENGTH, dtLenMismatch)
  else if crc32c (b.take 12) ≠ pf b 12 4 then some (ST_BAD_CRC, dtHdrCrc)
  else if 4096 < len then some (ST_BAD_LENGTH, dtLenRange)
  else if cut ∨ b.length ≠ packetLen len then some (ST_BAD_LENGTH, dtLenMismatch)
  else if len ≠ 0 ∧ crc32c ((b.drop 16).take len) ≠ pf b (16 + len) 4 then some (ST_BAD_CRC, dtPayloadCrc)
  else if bits (pb b 6) 7 3 ≠ 0 ∨ pb b 7 ≠ 0 ∨ bits (pf b 8 2) 15 12 ≠ 0 ∨ pf b 10 2 ≠ 0 then some (ST_BAD_PARAM, dtReservedNonzero)
  else none

/-- A packet of raw bytes that Chanter takes from a host: checks 1 to 4, their counters (Table 2.16), then the rest of R47. -/
def Chip.rawPacket (route : Route) (cut : Bool) (b : List Byte) (c : Chip) : Chip :=
  match rawRefusal cut b with
  | some (st, dt) =>
    let c := if dt = dtHdrCrc then c.inc F.CH_CNT_A_HDR_CRC_ERR else if dt = dtPayloadCrc then c.inc F.CH_CNT_A_PAY_CRC_ERR else c
    c.refuse route (pb b 0) (pb b 1) (pf b 2 2) st dt
  | none =>
    c.takePacket (commandOf (pb b 0) (pb b 1)) route (pb b 0) (pb b 1) (pf b 2 2) (pb b 6) (pf b 8 2) ((b.drop 16).take (pf b 4 2))

/-! ## Starting accepted commands (R54) -/

/-- Start the waiting command of a slot: it is checked against the present state of its target, and its operation begins. No
accepted command ends with a DETAIL of checks 1 to 7 (R49). -/
def Chip.startSlot (s : Slot) (c : Chip) : Chip :=
  let c := c.setSlot s.id (fun (t : Slot) => { t with started := true })
  match commandOf s.cls s.op with
  | none => c
  | some k =>
    match k.when c s.payload with
    | some r => c.fail s.id r.1 (if r.2 ≤ dtNotRoot then dtNone else r.2)
    | none => k.run s.id s.payload c

/-- The commands that may start next: the oldest URGENT one of each class if one waits, otherwise the oldest of each class. -/
def Chip.startable (c : Chip) : List Slot :=
  let ws := c.ch.slots.filter Slot.waits
  let us := ws.filter (fun s => s.flags.testBit 0)
  let l := if us = [] then ws else us
  l.filter (fun s => (l.find? (fun t => t.cls = s.cls)) = some s)

/-- In a tick, Chanter starts a command that waits, unless it is occupied. Which one of different classes starts, and whether Chanter
is occupied afterwards, are free values; with nothing waiting it is not. -/
def Chip.startNext (c : Chip) : Chip :=
  if !c.chanterUp then c
  else
    match c.startable with
    | [] => { c with ch := { c.ch with busy := false } }
    | s :: l =>
      let v := c.freeVal
      let was := c.ch.busy
      let c := Chip.freeNext { c with ch := { c.ch with busy := decide (v % 2 = 1) } }
      if was then c else c.startSlot (((s :: l)[v / 2 % (l.length + 1)]?).getD s)

/-- What a tick brings: a command that waits may start, and the time base goes on. -/
def Chip.tickAll (c : Chip) : Chip := (c.startNext).tick

/-- A step with no command waiting: one tick passes (log entry 4). -/
def idle (s : State) : Host.Outcome State Fault Refusal := runChip Chip.tickAll s

/-! ## Windway (R66 to R69) -/

/-- WW_CHANTER_PACKET from device `src`, or over the host bridge of the root. A packet that Chanter cannot take stays on the link
(R48, R58). The root has made checks 1 to 7 of what it forwards (Table 2.12). -/
def Chip.wwPacket (src : Nat) (bridge : Bool) (b : List Byte) (c : Chip) : Chip :=
  if bridge then
    if c.takesPackets && c.is F.WW_ID_ROOT && !c.ww.gaveUp then c.rawPacket .bridge false b else c
  else if src ≠ 0 ∨ c.is F.WW_ID_ROOT then
    if c.takesPackets then (c.inc F.CH_CNT_B_FWD_LATE).raise EV_SYS_FOREIGN_PACKET src else c
  else if c.takesPackets then
    c.takePacket (commandOf (pb b 0) (pb b 1)) .root (pb b 0) (pb b 1) (pf b 2 2) (pb b 6) (pf b 8 2) ((b.drop 16).take (pf b 4 2))
  else c

/-- A notice at the root: it goes to the host through the bridge, and a boot notice ends what was forwarded to its sender (R68,
R69). -/
def Chip.rootNotice (src : Nat) (b : List Byte) (c : Chip) : Chip :=
  let c := if c.ww.gaveUp then c else c.emit (.wwReply .bridge b)
  if pb b 7 = 1 then c.fwdEnd (fun e => e.dest = src) ST_TARGET_RESET dtNone else c

/-- FWD_REPLY_ARRIVAL: a reply or notice from device `src` (R67, R68). The entry is freed after the final reply. -/
def Chip.fwdReply (src : Nat) (b : List Byte) (c : Chip) : Chip :=
  if !c.is F.WW_ID_ROOT then c
  else if pf b 2 2 = 0xFFFF then c.rootNotice src b
  else
    match c.ch.fwd.find? (fun e => e.dest = src && e.tag = pf b 2 2) with
    | none => (c.inc F.CH_CNT_B_FWD_LATE).raise EV_SYS_FWD_LATE (src + pf b 2 2 * 2 ^ 16)
    | some e =>
      let final := pb b 6 ≠ ST_ACCEPTED ∧ pb b 6 ≠ ST_DEFERRED
      let fwd := if final then c.ch.fwd.erase e else c.ch.fwd.map (fun x => if x = e then { e with replied := true } else x)
      Chip.sendReply e.route none false b { c with ch := { c.ch with fwd := fwd } }

/-- FWD_TIMEOUT: no reply at all has come for the oldest such entry within 100 ms (R68). -/
def Chip.fwdLapse (dest tag : Nat) (c : Chip) : Chip :=
  match c.ch.fwd.find? (fun e => e.dest = dest && e.tag = tag && !e.replied) with
  | none => c
  | some e => c.fwdEnd (fun x => x = e) ST_TIMEOUT dtFwdNoReply

def execWwChanterPacket (src : BitVec 12) (bridge : Bool) (bytes : List Byte) (s : State) := runChip (Chip.wwPacket src.toNat bridge bytes) s
def execFwdReplyArrival (src : BitVec 12) (bytes : List Byte) (s : State) := runChip (Chip.fwdReply src.toNat bytes) s
def execFwdTimeout (dest : BitVec 12) (tag : BitVec 16) (s : State) := runChip (Chip.fwdLapse dest.toNat tag.toNat) s

end Sys2Proof.Machine
end

