-- ==== Sys2Proof/Machine/I3c.lean ====
section
/-! DEFINITION. The I3C target (R35 to R43): private transfers, common commands, target reset, and the repeated event IBI. -/

namespace Sys2Proof.Machine

/-- The target answers: it has reached FW or RECOVERY since the end of POR, and the device is not in OFF, POR or SHUTDOWN (R37). -/
def Chip.i3cLive (c : Chip) : Bool :=
  c.aon.i3cOpen && decide (c.dstate ≠ stOff) && decide (c.dstate ≠ stPor) && decide (c.dstate ≠ stShutdown)

/-- The address at which the target answers: the dynamic one once assigned, else the static one (R37). -/
def Chip.i3cAddr (c : Chip) : Nat := if c.is F.I3C_STAT_DYN_VALID then c.get F.I3C_STAT_DYN_ADDR else c.get F.I3C_STAT_STATIC_ADDR

/-- Whether a transfer to an address is answered. -/
def Chip.i3cMine (c : Chip) (addr : Nat) : Bool := c.i3cLive && addr = c.i3cAddr

def Chip.ack (c : Chip) : Chip := c.emit .i3cAck
def Chip.nack (c : Chip) : Chip := c.emit .i3cNack

/-- A transfer in which the target detects a target error of the MIPI specification: the protocol error flag is set, and nothing
else comes of it (R40, log entry 45). -/
def Chip.i3cFault (c : Chip) : Chip := if c.i3cLive then { c with aon := { c.aon with protoErr := true } } else c

/-- A transfer to an address, unless it has a target error. -/
def Chip.i3cTo (who : I3cTo) (f : Nat → Chip → Chip) (c : Chip) : Chip :=
  match who with
  | .addr a => f a.toNat c
  | .bad => c.i3cFault

/-- A directed common command: NACKed where the address is not answered. -/
def Chip.i3cDirect (addr : Nat) (f : Chip → Chip) (c : Chip) : Chip := if c.i3cMine addr then f c else c.nack

/-- A common command in either form (R35, R37): a broadcast reaches a target that answers. -/
def Chip.i3cCcc (dst : CccDst) (f : Chip → Chip) (c : Chip) : Chip :=
  match dst with
  | .broadcast => if c.i3cLive then f c else c
  | .direct a => c.i3cDirect a.toNat (fun c => f c.ack)
  | .bad => c.i3cFault

/-- A GET command: the bytes it returns. -/
def Chip.i3cGet (addr : Nat) (bs : List Byte) (c : Chip) : Chip := c.i3cDirect addr (fun c => c.emit (.i3cData bs))

/-- `n` bytes of a value, most significant first, as common commands send them (PRESUMED, the MIPI standard). -/
def msbFirst (n v : Nat) : List Byte := (natLe n v).reverse

/-- Whether a private transfer's mode names a packet or a reply (Table 2.1). -/
def modeOk (code : Byte) : I3cMode → Bool
  | .sdr => true
  | .ddr c => c = code

/-! ## Private transfers (R39, R40, R47, R48) -/

/-- I3C_PRIVATE_WRITE. Bytes beyond MWL are discarded; a transfer with a target error sets the protocol error flag and brings no
packet (R40). -/
def Chip.privateWrite (addr : Nat) (mode : I3cMode) (busErr : Bool) (bs : List Byte) (c : Chip) : Chip :=
  if !c.i3cMine addr || !modeOk 0x01#8 mode || !c.takesPackets then c.nack
  else
    let c := c.ack
    if busErr then { c with aon := { c.aon with protoErr := true } }
    else c.rawPacket .i3c (decide (c.get F.I3C_STAT_MWL < bs.length)) (bs.take (c.get F.I3C_STAT_MWL))

/-- A reply has been read to its end: its slot is free, and a read of every waiting reply clears the reply-ready IBI (R43, R53). -/
def Chip.replyRead (r : Reply) (c : Chip) : Chip :=
  let c := { c with ch := { c.ch with replies := c.ch.replies.tail, ibiReply := c.ch.ibiReply && decide (1 < c.ch.replies.length) } }
  match r.slot with
  | some id => c.freeSlot id
  | none => c

/-- I3C_PRIVATE_READ: the next bytes of the oldest waiting reply, at most MRL (R39). -/
def Chip.privateRead (addr : Nat) (mode : I3cMode) (c : Chip) : Chip :=
  if !c.i3cMine addr || !modeOk 0x81#8 mode then c.nack
  else
    match c.ch.replies with
    | [] => c.nack
    | r :: rest =>
      let part := (r.bytes.drop r.sent).take (c.get F.I3C_STAT_MRL)
      let sent := r.sent + part.length
      let c := c.emit (.i3cData part)
      if r.bytes.length ≤ sent then c.replyRead r
      else { c with ch := { c.ch with replies := { r with sent := sent } :: rest } }

/-! ## Common commands (R37 to R42) -/

/-- ENEC and DISEC: IBIs are turned on and off once a dynamic address has enabled them; hot-join is never initiated (R42). -/
def Chip.ibiTurn (on intr : Bool) (c : Chip) : Chip :=
  if intr && c.is F.I3C_STAT_DYN_VALID then c.set F.I3C_STAT_IBI_EN (b2n on) else c

/-- The device receives a dynamic address, which enables its IBIs (R42). -/
def Chip.dynAssign (a : Nat) (c : Chip) : Chip :=
  ((c.set F.I3C_STAT_DYN_ADDR a).set F.I3C_STAT_DYN_VALID 1).set F.I3C_STAT_IBI_EN 1

/-- RSTDAA clears the dynamic address, the IBI enable, MWL and MRL (R37). -/
def Chip.dynClear (c : Chip) : Chip :=
  let c := ((c.set F.I3C_STAT_DYN_ADDR 0).set F.I3C_STAT_DYN_VALID 0).set F.I3C_STAT_IBI_EN 0
  (c.set F.I3C_STAT_MWL 4116).set F.I3C_STAT_MRL 4116

/-- ENTDAA: a target with a dynamic address takes no part. -/
def Chip.entDaa (a : Nat) (c : Chip) : Chip := if c.i3cLive && !c.is F.I3C_STAT_DYN_VALID then (c.dynAssign a).ack else c

/-- SETDASA to the static address, which is answered only while no dynamic address is assigned. -/
def Chip.setDasa (addr a : Nat) (c : Chip) : Chip :=
  if c.is F.I3C_STAT_DYN_VALID then c.nack else c.i3cDirect addr (fun c => (c.dynAssign a).ack)

/-- SETNEWDA to the dynamic address. -/
def Chip.setNewDa (addr a : Nat) (c : Chip) : Chip :=
  if c.is F.I3C_STAT_DYN_VALID then c.i3cDirect addr (fun c => (c.set F.I3C_STAT_DYN_ADDR a).ack) else c.nack

/-- A limit from 64 to 4,116 bytes is taken; any other leaves the setting (R39). -/
def Chip.setLimit (f : Fld) (n : Nat) (c : Chip) : Chip := if 64 ≤ n ∧ n ≤ 4116 then c.set f n else c

/-- The provisional ID (R38). -/
def Chip.pid (c : Chip) : Nat := 0x1D3 * 2 ^ 33 + 0x7A09 * 2 ^ 16 + c.aon.addrSel % 4 * 2 ^ 12 + 0x002

/-- The status word of GETSTATUS (R40). -/
def Chip.i3cStatus (c : Chip) : Nat :=
  min 15 c.ch.replies.length + b2n c.aon.protoErr * 2 ^ 5 + c.dstate * 2 ^ 8 + b2n (!c.openEvents.isEmpty) * 2 ^ 12 +
    b2n (decide (32 ≤ c.ch.slots.length)) * 2 ^ 13

/-- GETSTATUS; reading clears the protocol error bit. -/
def Chip.getStatus (addr : Nat) (c : Chip) : Chip :=
  c.i3cDirect addr (fun c => Chip.emit (.i3cData (msbFirst 2 c.i3cStatus)) { c with aon := { c.aon with protoErr := false } })

/-- RSTACT (R41): actions 0x00 to 0x02 are armed in place of an earlier one. -/
def Chip.rstAct (dst : CccDst) (action : Nat) (c : Chip) : Chip :=
  let arm := fun (c : Chip) => { c with aon := { c.aon with rstArm := some action } }
  if action ≤ 2 then c.i3cCcc dst arm
  else
    match dst with
    | .broadcast => c
    | .direct _ => c.nack
    | .bad => c.i3cFault

/-- TARGET_RESET_PATTERN (R35, R41): the armed action is performed, and then none is armed. -/
def Chip.resetPattern (c : Chip) : Chip :=
  let a := c.aon.rstArm
  let c := { c with aon := { c.aon with rstArm := none } }
  match a with
  | some 1 => if c.chanterUp then c.restart else c
  | some 2 => (c.tie).warmReset 0x02
  | _ => c

/-- EVENT_IBI_REPEAT (R43). -/
def Chip.ibiRepeat (c : Chip) : Chip := if c.openEvents = [] then c else c.requestEventIbi

/-- UNSUPPORTED_CCC (Table 2.2); a broadcast common command without an operand of its own, such as RSTDAA, that has a target error
is one the target does not know. -/
def Chip.cccOther (dst : CccDst) (c : Chip) : Chip :=
  match dst with
  | .broadcast => c
  | .direct _ => c.nack
  | .bad => c.i3cFault

/-! ## Meanings -/

def execI3cPrivateWrite (addr : BitVec 7) (mode : I3cMode) (busErr : Bool) (bytes : List Byte) (s : State) :=
  runAon (Chip.privateWrite addr.toNat mode busErr bytes) s
def execI3cPrivateRead (addr : I3cTo) (mode : I3cMode) (s : State) :=
  runAon (Chip.i3cTo addr (fun a => Chip.privateRead a mode)) s
def execHdrOtherMode (s : State) := runAon (fun c => c) s
def execUnsupportedCcc (dst : CccDst) (s : State) := runAon (Chip.cccOther dst) s
def execEnec (dst : CccDst) (intr _hotJoin : Bool) (s : State) := runAon (Chip.i3cCcc dst (Chip.ibiTurn true intr)) s
def execDisec (dst : CccDst) (intr _hotJoin : Bool) (s : State) := runAon (Chip.i3cCcc dst (Chip.ibiTurn false intr)) s
def execRstdaa (s : State) := runAon (Chip.i3cCcc .broadcast Chip.dynClear) s
def execEntdaa (dyn : I3cTo) (s : State) := runAon (Chip.i3cTo dyn Chip.entDaa) s
def execSetdasa (addr : I3cTo) (dyn : BitVec 7) (s : State) := runAon (Chip.i3cTo addr (fun a => Chip.setDasa a dyn.toNat)) s
def execSetnewda (addr : I3cTo) (dyn : BitVec 7) (s : State) := runAon (Chip.i3cTo addr (fun a => Chip.setNewDa a dyn.toNat)) s
def execSetmwl (dst : CccDst) (len : BitVec 16) (s : State) :=
  runAon (Chip.i3cCcc dst (Chip.setLimit F.I3C_STAT_MWL len.toNat)) s
def execSetmrl (dst : CccDst) (len : BitVec 16) (s : State) :=
  runAon (Chip.i3cCcc dst (Chip.setLimit F.I3C_STAT_MRL len.toNat)) s
def execGetmwl (addr : I3cTo) (s : State) :=
  runAon (Chip.i3cTo addr (fun a c => c.i3cGet a (msbFirst 2 (c.get F.I3C_STAT_MWL)))) s
def execGetmrl (addr : I3cTo) (s : State) :=
  runAon (Chip.i3cTo addr (fun a c => c.i3cGet a (msbFirst 2 (c.get F.I3C_STAT_MRL) ++ [1#8]))) s
def execGetpid (addr : I3cTo) (s : State) := runAon (Chip.i3cTo addr (fun a c => c.i3cGet a (msbFirst 6 c.pid))) s
def execGetbcr (addr : I3cTo) (s : State) := runAon (Chip.i3cTo addr (fun a => Chip.i3cGet a [0x06#8])) s
def execGetdcr (addr : I3cTo) (s : State) := runAon (Chip.i3cTo addr (fun a => Chip.i3cGet a [0x00#8])) s
def execGetstatus (addr : I3cTo) (s : State) := runAon (Chip.i3cTo addr Chip.getStatus) s
def execGetmxds (addr : I3cTo) (s : State) := runAon (Chip.i3cTo addr (fun a => Chip.i3cGet a [0x00#8, 0x00#8])) s
def execRstact (dst : CccDst) (action : Byte) (s : State) := runAon (Chip.rstAct dst action.toNat) s
def execTargetResetPattern (s : State) := runAon Chip.resetPattern s
def execEventIbiRepeat (s : State) := runChip Chip.ibiRepeat s

end Sys2Proof.Machine
end

