-- ==== Sys2Proof/Machine/Jtag.lean ====
section
/-! DEFINITION. The test access port (R440 to R442). -/

namespace Sys2Proof.Machine

/-- What drives the pins that have boundary cells: the device; the preloaded cells, steadily or as the pulse or the pulse train of
IEEE 1149.6; or nothing. -/
inductive PinSource
  | device
  | cells (levels : Nat)
  | pulse (levels : Nat)
  | train (levels : Nat)
  | highZ
  deriving DecidableEq, Repr

/-- EXTEST, CLAMP, HIGHZ and the 1149.6 instructions control the pins only while RESET_N is low and VDD_IO is valid (R442). -/
def Chip.tapControls (c : Chip) : Bool := c.aon.resetLow && (c.get F.PWR_STAT_VALID).testBit 9

/-- Who drives the pins (Table 17.10, R442). THERMTRIP_N and COOLANT_OK have observe-only cells and stay with the device (R441). -/
def Chip.pinSource (c : Chip) : PinSource :=
  if !c.tapControls then .device
  else
    match c.jtag.ir with
    | 0x00 => .cells c.jtag.latch
    | 0x04 => .cells c.jtag.latch
    | 0x05 => .highZ
    | 0x06 => .pulse c.jtag.latch
    | 0x07 => .train c.jtag.latch
    | _ => .device

/-- Who drives DRV and DEN: nothing until the device has entered BOOT, or while VDD_IO is not valid (R434). -/
def Chip.channelSource (c : Chip) : PinSource :=
  match c.pinSource with
  | .device => if c.aon.booted && (c.get F.PWR_STAT_VALID).testBit 9 then .device else .highZ
  | p => p

/-- Load an instruction. -/
def Chip.tapLoad (op : Nat) (c : Chip) : Chip := { c with jtag := { c.jtag with ir := op } }

/-- IDCODE: the 32 bits of the identification register (R440). -/
def Chip.tapId (c : Chip) : Chip := (c.tapLoad 0x01).emit (.tdo 0x4A970A2B 32)

/-- The one-bit data path of BYPASS. The bit captured is 0 (PRESUMED, IEEE 1149.1). -/
def Chip.tapBypass (op : Nat) (c : Chip) : Chip := (c.tapLoad op).emit (.tdo 0 1)

/-- An instruction that works on the pins through the boundary register: the cells are the data path while it controls the pins,
and otherwise it acts as BYPASS (R442). -/
def Chip.tapTest (op : Nat) (c : Chip) : Chip :=
  if c.tapControls then c.tapLoad op else c.tapBypass op

/-- SAMPLE/PRELOAD: the pins are captured and the cells preloaded. -/
def Chip.tapSample (pins preload : Nat) (c : Chip) : Chip :=
  Chip.emit (.tdo pins 2028) { c with jtag := { ir := 0x02, bsr := pins, latch := preload } }

/-- Opcodes that Table 17.10 does not list act as BYPASS (R440); one that it lists is that instruction's row. -/
def listedOps : List Nat := [0x00, 0x01, 0x02, 0x04, 0x05, 0x06, 0x07]

def execTapReset (s : State) := runAon (Chip.tapLoad 0x01) s
def execExtest (s : State) := runAon (Chip.tapTest 0x00) s
def execJtagIdcode (s : State) := runAon Chip.tapId s
def execSamplePreload (pins preload : BitVec 2028) (s : State) := runAon (Chip.tapSample pins.toNat preload.toNat) s
def execJtagClamp (s : State) := runAon (Chip.tapBypass 0x04) s
def execJtagHighz (s : State) := runAon (Chip.tapBypass 0x05) s
def execExtestPulse (s : State) := runAon (Chip.tapTest 0x06) s
def execExtestTrain (s : State) := runAon (Chip.tapTest 0x07) s
def execJtagBypass (opcode : Byte) (s : State) :=
  runAon (fun c => if listedOps.contains opcode.toNat then c else c.tapBypass opcode.toNat) s

end Sys2Proof.Machine
end

