-- ==== Sys2Proof/Machine/Dispatch.lean ====
section
/-! DEFINITION. One arm per command: the meaning of each row of the opcode table. -/

namespace Sys2Proof.Machine

def exec (i : Instr) (s : State) : Host.Outcome State Fault Refusal :=
  match i with
  | .vddAonValid => Sys2Proof.Machine.execVddAonValid s
  | .vddAonLost => Sys2Proof.Machine.execVddAonLost s
  | .railValid rail aux18 => Sys2Proof.Machine.execRailValid rail aux18 s
  | .railLost rail => Sys2Proof.Machine.execRailLost rail s
  | .vddAuxLost => Sys2Proof.Machine.execVddAuxLost s
  | .resetNLow => Sys2Proof.Machine.execResetNLow s
  | .resetNRelease addrSel bootSrc => Sys2Proof.Machine.execResetNRelease addrSel bootSrc s
  | .refclkLoss noEdge => Sys2Proof.Machine.execRefclkLoss noEdge s
  | .refclkReturn => Sys2Proof.Machine.execRefclkReturn s
  | .coolantOkFall => Sys2Proof.Machine.execCoolantOkFall s
  | .coolantOkRise lowUs => Sys2Proof.Machine.execCoolantOkRise lowUs s
  | .coolantLow5ms => Sys2Proof.Machine.execCoolantLow5ms s
  | .coolantForcedEnd => Sys2Proof.Machine.execCoolantForcedEnd s
  | .bootDone => Sys2Proof.Machine.execBootDone s
  | .shutdownSensorRead readings outlet => Sys2Proof.Machine.execShutdownSensorRead readings outlet s
  | .shutdownRestart => Sys2Proof.Machine.execShutdownRestart s
  | .i3cPrivateWrite addr mode busErr bytes => Sys2Proof.Machine.execI3cPrivateWrite addr mode busErr bytes s
  | .i3cPrivateRead addr mode => Sys2Proof.Machine.execI3cPrivateRead addr mode s
  | .hdrOtherMode => Sys2Proof.Machine.execHdrOtherMode s
  | .unsupportedCcc dst => Sys2Proof.Machine.execUnsupportedCcc dst s
  | .enec dst intr hotJoin => Sys2Proof.Machine.execEnec dst intr hotJoin s
  | .disec dst intr hotJoin => Sys2Proof.Machine.execDisec dst intr hotJoin s
  | .rstdaa => Sys2Proof.Machine.execRstdaa s
  | .entdaa dyn => Sys2Proof.Machine.execEntdaa dyn s
  | .setdasa addr dyn => Sys2Proof.Machine.execSetdasa addr dyn s
  | .setnewda addr dyn => Sys2Proof.Machine.execSetnewda addr dyn s
  | .setmwl dst len => Sys2Proof.Machine.execSetmwl dst len s
  | .setmrl dst len => Sys2Proof.Machine.execSetmrl dst len s
  | .getmwl addr => Sys2Proof.Machine.execGetmwl addr s
  | .getmrl addr => Sys2Proof.Machine.execGetmrl addr s
  | .getpid addr => Sys2Proof.Machine.execGetpid addr s
  | .getbcr addr => Sys2Proof.Machine.execGetbcr addr s
  | .getdcr addr => Sys2Proof.Machine.execGetdcr addr s
  | .getstatus addr => Sys2Proof.Machine.execGetstatus addr s
  | .getmxds addr => Sys2Proof.Machine.execGetmxds addr s
  | .rstact dst action => Sys2Proof.Machine.execRstact dst action s
  | .targetResetPattern => Sys2Proof.Machine.execTargetResetPattern s
  | .eventIbiRepeat => Sys2Proof.Machine.execEventIbiRepeat s
  | .fwWatchdog => Sys2Proof.Machine.execFwWatchdog s
  | .chanterRestartDone => Sys2Proof.Machine.execChanterRestartDone s
  | .chSysNop p => Sys2Proof.Machine.execChSysNop p s
  | .chSysIdentify p => Sys2Proof.Machine.execChSysIdentify p s
  | .chSysStatus p => Sys2Proof.Machine.execChSysStatus p s
  | .chSysPeek p => Sys2Proof.Machine.execChSysPeek p s
  | .chSysPoke p => Sys2Proof.Machine.execChSysPoke p s
  | .chSysReset p => Sys2Proof.Machine.execChSysReset p s
  | .sysResetTakesEffect => Sys2Proof.Machine.execSysResetTakesEffect s
  | .targetedResetDone kind index => Sys2Proof.Machine.execTargetedResetDone kind index s
  | .chSysAbort p => Sys2Proof.Machine.execChSysAbort p s
  | .chSysEventRead p => Sys2Proof.Machine.execChSysEventRead p s
  | .chSysEventMask p => Sys2Proof.Machine.execChSysEventMask p s
  | .chSysNotice p => Sys2Proof.Machine.execChSysNotice p s
  | .chSysFwInfo p => Sys2Proof.Machine.execChSysFwInfo p s
  | .chSysFwBegin p => Sys2Proof.Machine.execChSysFwBegin p s
  | .chSysFwData p => Sys2Proof.Machine.execChSysFwData p s
  | .chSysFwCommit p => Sys2Proof.Machine.execChSysFwCommit p s
  | .fwCommitDone => Sys2Proof.Machine.execFwCommitDone s
  | .wwChanterPacket src bridge bytes => Sys2Proof.Machine.execWwChanterPacket src bridge bytes s
  | .fwdReplyArrival src bytes => Sys2Proof.Machine.execFwdReplyArrival src bytes s
  | .fwdTimeout dest tag => Sys2Proof.Machine.execFwdTimeout dest tag s
  | .chCntClr data => Sys2Proof.Machine.execChCntClr data s
  | .evqMaskWrite data => Sys2Proof.Machine.execEvqMaskWrite data s
  | .evqClrLost => Sys2Proof.Machine.execEvqClrLost s
  | .evqFlush => Sys2Proof.Machine.execEvqFlush s
  | .registerWrite addr data => Sys2Proof.Machine.execRegisterWrite addr data s
  | .engineCycle pe => Sys2Proof.Machine.execEngineCycle pe s
  | .seqNext pe word => Sys2Proof.Machine.execSeqNext pe word s
  | .seqJmp pe word => Sys2Proof.Machine.execSeqJmp pe word s
  | .seqJc pe word => Sys2Proof.Machine.execSeqJc pe word s
  | .seqCall pe word => Sys2Proof.Machine.execSeqCall pe word s
  | .seqRet pe word => Sys2Proof.Machine.execSeqRet pe word s
  | .seqLoop pe word => Sys2Proof.Machine.execSeqLoop pe word s
  | .seqLdlc pe word => Sys2Proof.Machine.execSeqLdlc pe word s
  | .seqRepeat pe word => Sys2Proof.Machine.execSeqRepeat pe word s
  | .seqWaitf pe word => Sys2Proof.Machine.execSeqWaitf pe word s
  | .waitfTimeout pe => Sys2Proof.Machine.execWaitfTimeout pe s
  | .seqSync pe word => Sys2Proof.Machine.execSeqSync pe word s
  | .syncTick pe tick => Sys2Proof.Machine.execSyncTick pe tick s
  | .seqPause pe word => Sys2Proof.Machine.execSeqPause pe word s
  | .seqHalt pe word => Sys2Proof.Machine.execSeqHalt pe word s
  | .holdCycle pe => Sys2Proof.Machine.execHoldCycle pe s
  | .holdLong pe => Sys2Proof.Machine.execHoldLong pe s
  | .peStartTick pe tick => Sys2Proof.Machine.execPeStartTick pe tick s
  | .streamPrefillDone pe => Sys2Proof.Machine.execStreamPrefillDone pe s
  | .streamReadResponse pe rsp count => Sys2Proof.Machine.execStreamReadResponse pe rsp count s
  | .uportVectorArrival pe vec => Sys2Proof.Machine.execUportVectorArrival pe vec s
  | .uportFlagUpdate pe flags => Sys2Proof.Machine.execUportFlagUpdate pe flags s
  | .peImDataWrite pe hi => Sys2Proof.Machine.execPeImDataWrite pe hi s
  | .peStopbindWrite pe k mask => Sys2Proof.Machine.execPeStopbindWrite pe k mask s
  | .chPeStatus p => Sys2Proof.Machine.execChPeStatus p s
  | .chPeLoad p => Sys2Proof.Machine.execChPeLoad p s
  | .chPeStart p => Sys2Proof.Machine.execChPeStart p s
  | .chPePause p => Sys2Proof.Machine.execChPePause p s
  | .chPeResume p => Sys2Proof.Machine.execChPeResume p s
  | .chPeStop p => Sys2Proof.Machine.execChPeStop p s
  | .chPeAbort p => Sys2Proof.Machine.execChPeAbort p s
  | .chPeGang p => Sys2Proof.Machine.execChPeGang p s
  | .chPeClock p => Sys2Proof.Machine.execChPeClock p s
  | .peClockLocked pe => Sys2Proof.Machine.execPeClockLocked pe s
  | .compareResult pe obs => Sys2Proof.Machine.execCompareResult pe obs s
  | .driftMeasurement ch capture err => Sys2Proof.Machine.execDriftMeasurement ch capture err s
  | .driftStarved ch capture => Sys2Proof.Machine.execDriftStarved ch capture s
  | .reedReacquireDone ch deltaL deltaC => Sys2Proof.Machine.execReedReacquireDone ch deltaL deltaC s
  | .rdTsPortDataWrite g data => Sys2Proof.Machine.execRdTsPortDataWrite g data s
  | .rdTsPortDataRead g => Sys2Proof.Machine.execRdTsPortDataRead g s
  | .rdTsPopRead g => Sys2Proof.Machine.execRdTsPopRead g s
  | .rdUcalWrite ch data => Sys2Proof.Machine.execRdUcalWrite ch data s
  | .rdCntClr g data => Sys2Proof.Machine.execRdCntClr g data s
  | .chRdStatus p => Sys2Proof.Machine.execChRdStatus p s
  | .chRdTsWrite p => Sys2Proof.Machine.execChRdTsWrite p s
  | .chRdTsRead p => Sys2Proof.Machine.execChRdTsRead p s
  | .chRdCalWrite p => Sys2Proof.Machine.execChRdCalWrite p s
  | .chRdCalRead p => Sys2Proof.Machine.execChRdCalRead p s
  | .chRdCalSave p => Sys2Proof.Machine.execChRdCalSave p s
  | .chRdCheck p => Sys2Proof.Machine.execChRdCheck p s
  | .failDispatch => Sys2Proof.Machine.execFailDispatch s
  | .fatWaitExpiry pe => Sys2Proof.Machine.execFatWaitExpiry pe s
  | .bmWritebackResponse addr rsp detail perr => Sys2Proof.Machine.execBmWritebackResponse addr rsp detail perr s
  | .fatPortReadLo => Sys2Proof.Machine.execFatPortReadLo s
  | .fatPortReadHi => Sys2Proof.Machine.execFatPortReadHi s
  | .capPeCntClr pe data => Sys2Proof.Machine.execCapPeCntClr pe data s
  | .chCapStatus p => Sys2Proof.Machine.execChCapStatus p s
  | .chCapConfig p => Sys2Proof.Machine.execChCapConfig p s
  | .chCapClear p => Sys2Proof.Machine.execChCapClear p s
  | .chCapBmFlush p => Sys2Proof.Machine.execChCapBmFlush p s
  | .chCapBmZero p => Sys2Proof.Machine.execChCapBmZero p s
  | .bmZeroRowDone rsp detail => Sys2Proof.Machine.execBmZeroRowDone rsp detail s
  | .chCapFflRead p => Sys2Proof.Machine.execChCapFflRead p s
  | .chCapFatRead p => Sys2Proof.Machine.execChCapFatRead p s
  | .chCapLostRead p => Sys2Proof.Machine.execChCapLostRead p s
  | .raeTake => Sys2Proof.Machine.execRaeTake s
  | .raeImportWrite slot upper data => Sys2Proof.Machine.execRaeImportWrite slot upper data s
  | .raeSrcTimeout slot => Sys2Proof.Machine.execRaeSrcTimeout slot s
  | .raeDecideDomain => Sys2Proof.Machine.execRaeDecideDomain s
  | .raeRecordResponse idx ep ns => Sys2Proof.Machine.execRaeRecordResponse idx ep ns s
  | .raeRingWaitLong => Sys2Proof.Machine.execRaeRingWaitLong s
  | .raeMemoryResponse rsp detail uncorr => Sys2Proof.Machine.execRaeMemoryResponse rsp detail uncorr s
  | .raeZeroingDone => Sys2Proof.Machine.execRaeZeroingDone s
  | .raeFinalDone => Sys2Proof.Machine.execRaeFinalDone s
  | .raeCntClr data => Sys2Proof.Machine.execRaeCntClr data s
  | .chRaStatus p => Sys2Proof.Machine.execChRaStatus p s
  | .chRaRecipeLoad p => Sys2Proof.Machine.execChRaRecipeLoad p s
  | .chRaRecipeCommit p => Sys2Proof.Machine.execChRaRecipeCommit p s
  | .chRaBegin p => Sys2Proof.Machine.execChRaBegin p s
  | .chRaFinal p => Sys2Proof.Machine.execChRaFinal p s
  | .chRaEnd p => Sys2Proof.Machine.execChRaEnd p s
  | .chRaCtxRead p => Sys2Proof.Machine.execChRaCtxRead p s
  | .chRaRingRead p => Sys2Proof.Machine.execChRaRingRead p s
  | .stopRequestArrival r src => Sys2Proof.Machine.execStopRequestArrival r src s
  | .stopSwitchDecision r => Sys2Proof.Machine.execStopSwitchDecision r s
  | .stopMark r => Sys2Proof.Machine.execStopMark r s
  | .gateWordArrival src dst bore upper => Sys2Proof.Machine.execGateWordArrival src dst bore upper s
  | .partyLineRise r lines => Sys2Proof.Machine.execPartyLineRise r lines s
  | .roMeasure r mhz => Sys2Proof.Machine.execRoMeasure r mhz s
  | .fabBcastGo data => Sys2Proof.Machine.execFabBcastGo data s
  | .fabRgClrCnt r data => Sys2Proof.Machine.execFabRgClrCnt r data s
  | .fabRgCapctlArm r data => Sys2Proof.Machine.execFabRgCapctlArm r data s
  | .fabRgCapctlStop r data => Sys2Proof.Machine.execFabRgCapctlStop r data s
  | .captureTrigger r => Sys2Proof.Machine.execCaptureTrigger r s
  | .captureDone r => Sys2Proof.Machine.execCaptureDone r s
  | .spCtlWrite j data => Sys2Proof.Machine.execSpCtlWrite j data s
  | .spTxWrite j data => Sys2Proof.Machine.execSpTxWrite j data s
  | .spRxRead j => Sys2Proof.Machine.execSpRxRead j s
  | .serialByteReceived j byte bad nack => Sys2Proof.Machine.execSerialByteReceived j byte bad nack s
  | .serialByteSent j => Sys2Proof.Machine.execSerialByteSent j s
  | .chFabStatus p => Sys2Proof.Machine.execChFabStatus p s
  | .chFabProbe p => Sys2Proof.Machine.execChFabProbe p s
  | .chFabCapArm p => Sys2Proof.Machine.execChFabCapArm p s
  | .chFabCapStop p => Sys2Proof.Machine.execChFabCapStop p s
  | .chFabCapRead p => Sys2Proof.Machine.execChFabCapRead p s
  | .chCfgStatus p => Sys2Proof.Machine.execChCfgStatus p s
  | .chCfgLoadBegin p => Sys2Proof.Machine.execChCfgLoadBegin p s
  | .chCfgLoadData p => Sys2Proof.Machine.execChCfgLoadData p s
  | .chCfgLoadEnd p => Sys2Proof.Machine.execChCfgLoadEnd p s
  | .chCfgLoadDram p => Sys2Proof.Machine.execChCfgLoadDram p s
  | .chCfgPage p => Sys2Proof.Machine.execChCfgPage p s
  | .chCfgDraw p => Sys2Proof.Machine.execChCfgDraw p s
  | .chCfgRewriteSlot p => Sys2Proof.Machine.execChCfgRewriteSlot p s
  | .chCfgLibStatus p => Sys2Proof.Machine.execChCfgLibStatus p s
  | .chCfgLibFree p => Sys2Proof.Machine.execChCfgLibFree p s
  | .chCfgXspi p => Sys2Proof.Machine.execChCfgXspi p s
  | .flashSegmentRead part => Sys2Proof.Machine.execFlashSegmentRead part s
  | .loadStallTimeout => Sys2Proof.Machine.execLoadStallTimeout s
  | .pagingDone verified failed => Sys2Proof.Machine.execPagingDone verified failed s
  | .signatureVerified => Sys2Proof.Machine.execSignatureVerified s
  | .rewriteHold r => Sys2Proof.Machine.execRewriteHold r s
  | .tongueReqWrite ni wide data => Sys2Proof.Machine.execTongueReqWrite ni wide data s
  | .chSecStatus p => Sys2Proof.Machine.execChSecStatus p s
  | .chSecLcAdvance p => Sys2Proof.Machine.execChSecLcAdvance p s
  | .chSecNonce p => Sys2Proof.Machine.execChSecNonce p s
  | .chSecReqData p => Sys2Proof.Machine.execChSecReqData p s
  | .chSecKeyProg p => Sys2Proof.Machine.execChSecKeyProg p s
  | .chSecKeyRevoke p => Sys2Proof.Machine.execChSecKeyRevoke p s
  | .chSecSvnRaise p => Sys2Proof.Machine.execChSecSvnRaise p s
  | .chSecRma p => Sys2Proof.Machine.execChSecRma p s
  | .chSecRootkeyProg p => Sys2Proof.Machine.execChSecRootkeyProg p s
  | .chSecAttest p => Sys2Proof.Machine.execChSecAttest p s
  | .chSecBlobRead p => Sys2Proof.Machine.execChSecBlobRead p s
  | .fuseBurnDone => Sys2Proof.Machine.execFuseBurnDone s
  | .attestSigned => Sys2Proof.Machine.execAttestSigned s
  | .spARead r bank k flaw => Sys2Proof.Machine.execSpARead r bank k flaw s
  | .spAWrite r bank k data be flaw => Sys2Proof.Machine.execSpAWrite r bank k data be flaw s
  | .spAAdd64 r bank k data flaw => Sys2Proof.Machine.execSpAAdd64 r bank k data flaw s
  | .spAAdd128 r bank k data flaw => Sys2Proof.Machine.execSpAAdd128 r bank k data flaw s
  | .spASwap r bank k data flaw => Sys2Proof.Machine.execSpASwap r bank k data flaw s
  | .spAReservedOp r bank => Sys2Proof.Machine.execSpAReservedOp r bank s
  | .spPwrCtlWrite r data => Sys2Proof.Machine.execSpPwrCtlWrite r data s
  | .bankTransitionDone r bank => Sys2Proof.Machine.execBankTransitionDone r bank s
  | .spCntClr r data => Sys2Proof.Machine.execSpCntClr r data s
  | .leaseStart r bank => Sys2Proof.Machine.execLeaseStart r bank s
  | .leaseEnd r bank => Sys2Proof.Machine.execLeaseEnd r bank s
  | .chSpStatus p => Sys2Proof.Machine.execChSpStatus p s
  | .chSpPower p => Sys2Proof.Machine.execChSpPower p s
  | .chSpColmapRead p => Sys2Proof.Machine.execChSpColmapRead p s
  | .dramRowAccessDone busy parity found => Sys2Proof.Machine.execDramRowAccessDone busy parity found s
  | .dramRequestAccept src => Sys2Proof.Machine.execDramRequestAccept src s
  | .refreshDue => Sys2Proof.Machine.execRefreshDue s
  | .refreshDone => Sys2Proof.Machine.execRefreshDone s
  | .rankPowerDown rank => Sys2Proof.Machine.execRankPowerDown rank s
  | .trainingDone ok => Sys2Proof.Machine.execTrainingDone ok s
  | .freqRelocked => Sys2Proof.Machine.execFreqRelocked s
  | .thawDone => Sys2Proof.Machine.execThawDone s
  | .drCntClr data => Sys2Proof.Machine.execDrCntClr data s
  | .chDrStatus p => Sys2Proof.Machine.execChDrStatus p s
  | .chDrFreq p => Sys2Proof.Machine.execChDrFreq p s
  | .chDrTrain p => Sys2Proof.Machine.execChDrTrain p s
  | .chDrSnapshot p => Sys2Proof.Machine.execChDrSnapshot p s
  | .chDrThaw p => Sys2Proof.Machine.execChDrThaw p s
  | .niRequestAccept ni ask => Sys2Proof.Machine.execNiRequestAccept ni ask s
  | .netRead ni idx flaws => Sys2Proof.Machine.execNetRead ni idx flaws s
  | .netWrite ni idx flaws coll => Sys2Proof.Machine.execNetWrite ni idx flaws coll s
  | .netAdd64 ni idx flaws coll => Sys2Proof.Machine.execNetAdd64 ni idx flaws coll s
  | .netAdd128 ni idx flaws coll => Sys2Proof.Machine.execNetAdd128 ni idx flaws coll s
  | .netSwap ni idx flaws coll => Sys2Proof.Machine.execNetSwap ni idx flaws coll s
  | .netUport r pe what => Sys2Proof.Machine.execNetUport r pe what s
  | .netResponseArrival ni idx ep ns => Sys2Proof.Machine.execNetResponseArrival ni idx ep ns s
  | .niTimeout ni idx => Sys2Proof.Machine.execNiTimeout ni idx s
  | .niBusyWaitExpiry ni bulk => Sys2Proof.Machine.execNiBusyWaitExpiry ni bulk s
  | .domainReopen d => Sys2Proof.Machine.execDomainReopen d s
  | .netWrrWrite data => Sys2Proof.Machine.execNetWrrWrite data s
  | .routerQuiesceDone n => Sys2Proof.Machine.execRouterQuiesceDone n s
  | .routerQuiesceRetry n => Sys2Proof.Machine.execRouterQuiesceRetry n s
  | .niCntClr ni data => Sys2Proof.Machine.execNiCntClr ni data s
  | .dmaGo ch => Sys2Proof.Machine.execDmaGo ch s
  | .dmaPauseSet ch => Sys2Proof.Machine.execDmaPauseSet ch s
  | .dmaPauseClear ch => Sys2Proof.Machine.execDmaPauseClear ch s
  | .dmaArm ch => Sys2Proof.Machine.execDmaArm ch s
  | .dmaClose ch => Sys2Proof.Machine.execDmaClose ch s
  | .dmaClrCnt ch => Sys2Proof.Machine.execDmaClrCnt ch s
  | .dmaDreqSet data => Sys2Proof.Machine.execDmaDreqSet data s
  | .dmaDreqClr data => Sys2Proof.Machine.execDmaDreqClr data s
  | .dreqRise ch => Sys2Proof.Machine.execDreqRise ch s
  | .dmaEngineLoad engine => Sys2Proof.Machine.execDmaEngineLoad engine s
  | .dmaQueueWaitLong ch => Sys2Proof.Machine.execDmaQueueWaitLong ch s
  | .dmaBusyRetry ch => Sys2Proof.Machine.execDmaBusyRetry ch s
  | .dmaTransferComplete ch => Sys2Proof.Machine.execDmaTransferComplete ch s
  | .dmaChStatRead ch => Sys2Proof.Machine.execDmaChStatRead ch s
  | .chDmaStatus p => Sys2Proof.Machine.execChDmaStatus p s
  | .chDmaStart p => Sys2Proof.Machine.execChDmaStart p s
  | .chDmaArm p => Sys2Proof.Machine.execChDmaArm p s
  | .chDmaPause p => Sys2Proof.Machine.execChDmaPause p s
  | .chDmaResume p => Sys2Proof.Machine.execChDmaResume p s
  | .chDmaAbort p => Sys2Proof.Machine.execChDmaAbort p s
  | .wwFrameReceive port frame laneBad => Sys2Proof.Machine.execWwFrameReceive port frame laneBad s
  | .wwReplayTimeout port => Sys2Proof.Machine.execWwReplayTimeout port s
  | .wwErrWindow port => Sys2Proof.Machine.execWwErrWindow port s
  | .laneTestDone port lane pass => Sys2Proof.Machine.execLaneTestDone port lane pass s
  | .portTrained port bridge uid partner => Sys2Proof.Machine.execPortTrained port bridge uid partner s
  | .linkDown port => Sys2Proof.Machine.execLinkDown port s
  | .wwProbe port serial root path rev => Sys2Proof.Machine.execWwProbe port serial root path rev s
  | .wwProbeReply port h serial uid ports => Sys2Proof.Machine.execWwProbeReply port h serial uid ports s
  | .discWaitExpiry => Sys2Proof.Machine.execDiscWaitExpiry s
  | .wwPathWrite port h what => Sys2Proof.Machine.execWwPathWrite port h what s
  | .wwPathReply port h => Sys2Proof.Machine.execWwPathReply port h s
  | .epochSwitch port h => Sys2Proof.Machine.execEpochSwitch port h s
  | .routeOldDrained => Sys2Proof.Machine.execRouteOldDrained s
  | .wwReq port h q => Sys2Proof.Machine.execWwReq port h q s
  | .wwRsp port h r => Sys2Proof.Machine.execWwRsp port h r s
  | .wwErr port h ni idx ep detail => Sys2Proof.Machine.execWwErr port h ni idx ep detail s
  | .linkChange port h changed state => Sys2Proof.Machine.execLinkChange port h changed state s
  | .holdAnn port h tick hold why => Sys2Proof.Machine.execHoldAnn port h tick hold why s
  | .xgFault port h dev => Sys2Proof.Machine.execXgFault port h dev s
  | .timeCode port time echo at' => Sys2Proof.Machine.execTimeCode port time echo at' s
  | .timeCodeSend => Sys2Proof.Machine.execTimeCodeSend s
  | .syncInEdge at' => Sys2Proof.Machine.execSyncInEdge at' s
  | .tbLock => Sys2Proof.Machine.execTbLock s
  | .tbSourceLost => Sys2Proof.Machine.execTbSourceLost s
  | .wwCntClr data => Sys2Proof.Machine.execWwCntClr data s
  | .wwPRetrain port => Sys2Proof.Machine.execWwPRetrain port s
  | .wwPCntClr port data => Sys2Proof.Machine.execWwPCntClr port data s
  | .wwRouteEntryWrite bank d data => Sys2Proof.Machine.execWwRouteEntryWrite bank d data s
  | .chWwStatus p => Sys2Proof.Machine.execChWwStatus p s
  | .chWwDiscover p => Sys2Proof.Machine.execChWwDiscover p s
  | .chWwTopoRead p => Sys2Proof.Machine.execChWwTopoRead p s
  | .chWwRoute p => Sys2Proof.Machine.execChWwRoute p s
  | .chWwPort p => Sys2Proof.Machine.execChWwPort p s
  | .chWwLaneTest p => Sys2Proof.Machine.execChWwLaneTest p s
  | .sensorConversion idx raw ratioOk moved => Sys2Proof.Machine.execSensorConversion idx raw ratioOk moved s
  | .throttleUpdate => Sys2Proof.Machine.execThrottleUpdate s
  | .layerEstimate inlet outlet lidOk est => Sys2Proof.Machine.execLayerEstimate inlet outlet lidOk est s
  | .chThStatus p => Sys2Proof.Machine.execChThStatus p s
  | .chThSensors p => Sys2Proof.Machine.execChThSensors p s
  | .chThSubst p => Sys2Proof.Machine.execChThSubst p s
  | .chThThresh p => Sys2Proof.Machine.execChThThresh p s
  | .chThLimit p => Sys2Proof.Machine.execChThLimit p s
  | .sliceStart condOk exp => Sys2Proof.Machine.execSliceStart condOk exp s
  | .sliceEnd y n found => Sys2Proof.Machine.execSliceEnd y n found s
  | .targetedTestStart => Sys2Proof.Machine.execTargetedTestStart s
  | .targetedTestEnd y sub => Sys2Proof.Machine.execTargetedTestEnd y sub s
  | .fullTestDone tested passed failed => Sys2Proof.Machine.execFullTestDone tested passed failed s
  | .stCntClr data => Sys2Proof.Machine.execStCntClr data s
  | .chStStatus p => Sys2Proof.Machine.execChStStatus p s
  | .chStRun p => Sys2Proof.Machine.execChStRun p s
  | .chStFull p => Sys2Proof.Machine.execChStFull p s
  | .chStLogRead p => Sys2Proof.Machine.execChStLogRead p s
  | .chStFuseRepair p => Sys2Proof.Machine.execChStFuseRepair p s
  | .chStLogClear p => Sys2Proof.Machine.execChStLogClear p s
  | .chLgStatus p => Sys2Proof.Machine.execChLgStatus p s
  | .ligatureFrameCheck corr find vote => Sys2Proof.Machine.execLigatureFrameCheck corr find vote s
  | .ligatureReloadDone dataBad again => Sys2Proof.Machine.execLigatureReloadDone dataBad again s
  | .lgCntClr data => Sys2Proof.Machine.execLgCntClr data s
  | .clkRgWrite r data => Sys2Proof.Machine.execClkRgWrite r data s
  | .clockSlewDone r => Sys2Proof.Machine.execClockSlewDone r s
  | .chPwrStatus p => Sys2Proof.Machine.execChPwrStatus p s
  | .chClkRegion p => Sys2Proof.Machine.execChClkRegion p s
  | .chNvsRecInfo p => Sys2Proof.Machine.execChNvsRecInfo p s
  | .chNvsRecRead p => Sys2Proof.Machine.execChNvsRecRead p s
  | .chNvsEvlogRead p => Sys2Proof.Machine.execChNvsEvlogRead p s
  | .chNvsUser p => Sys2Proof.Machine.execChNvsUser p s
  | .chPwrRegion p => Sys2Proof.Machine.execChPwrRegion p s
  | .regionPowerDone r => Sys2Proof.Machine.execRegionPowerDone r s
  | .nvsWordWriteDone macroNo => Sys2Proof.Machine.execNvsWordWriteDone macroNo s
  | .nvsApertureAccess ni off write wide data => Sys2Proof.Machine.execNvsApertureAccess ni off write wide data s
  | .nvsUpageSelfAccess ni write data => Sys2Proof.Machine.execNvsUpageSelfAccess ni write data s
  | .nvsCntClr data => Sys2Proof.Machine.execNvsCntClr data s
  | .evlogEntryWritten => Sys2Proof.Machine.execEvlogEntryWritten s
  | .tapReset => Sys2Proof.Machine.execTapReset s
  | .extest => Sys2Proof.Machine.execExtest s
  | .jtagIdcode => Sys2Proof.Machine.execJtagIdcode s
  | .samplePreload pins preload => Sys2Proof.Machine.execSamplePreload pins preload s
  | .jtagClamp => Sys2Proof.Machine.execJtagClamp s
  | .jtagHighz => Sys2Proof.Machine.execJtagHighz s
  | .extestPulse => Sys2Proof.Machine.execExtestPulse s
  | .extestTrain => Sys2Proof.Machine.execExtestTrain s
  | .jtagBypass opcode => Sys2Proof.Machine.execJtagBypass opcode s
  | .regionClockEdge r auxIn riser ports => Sys2Proof.Machine.execRegionClockEdge r auxIn riser ports s
  | .prefillLate pe => Sys2Proof.Machine.execPrefillLate pe s
  | .syncOutPulse => Sys2Proof.Machine.execSyncOutPulse s
  | .raeOutRdWrite data => Sys2Proof.Machine.execRaeOutRdWrite data s
  | .railRestoredBoot => Sys2Proof.Machine.execRailRestoredBoot s

end Sys2Proof.Machine
end

