-- ==== Sys2Proof/Safety.lean ====
section
/-! DEFINITION. What the claims are stated in: the state a command leaves, when Chanter accepts a packet, and what is sound: memory
in its canonical form and every buffer within the size the spec gives it. -/

namespace Sys2Proof.Machine

/-! ## What a command leaves -/

/-- The state after an effect on the device: the queue stays as it is. -/
def State.after (s : State) (f : Chip → Chip) : State := { s with chip := f s.chip.quiet }

/-! ## Acceptance of a packet (R44, R47, R48, R66) -/

/-- The packet of a command row is accepted here: Chanter takes packets, the payload fits LEN and MWL, it is for this device, and
checks 5 to 13 pass, and it starts at once (R54). -/
def Chip.accepts (c : Chip) (k : Cmd) (p : Pkt) : Prop :=
  c.takesPackets = true ∧ p.payload.length ≤ 4096 ∧
    (p.route = .i3c → packetLen p.payload.length ≤ c.get F.I3C_STAT_MWL) ∧
    c.wayOf p.route p.tag.toNat p.dest.toNat (p.flags.toNat.testBit 2) = .run ∧
    c.cmdRefusal k p.flags.toNat p.payload = none ∧ c.startsNow k.cls p.flags.toNat = true

/-- The device with a slot taken for an accepted packet (R53). -/
def Chip.slotFor (c : Chip) (k : Cmd) (p : Pkt) : Chip :=
  c.takeSlot true p.route k.cls k.op p.tag.toNat p.flags.toNat p.dest.toNat p.payload

/-! ## Soundness -/

/-- Memory is in its canonical form, and every buffer holds no more than the spec gives it. -/
structure Chip.Sound (c : Chip) : Prop where
  /-- Listed addresses rise, and no listed byte is zero (log entry 9). -/
  mem      : c.mem.wf = true
  /-- 32 command slots (R53). -/
  slots    : c.ch.slots.length ≤ 32
  /-- Eight refusal replies (R48). -/
  refusals : c.refusals ≤ 8
  /-- 256 event queue entries (R61). -/
  events   : c.ch.events.length ≤ 256
  /-- 256 forwarding entries (R67). -/
  fwd      : c.ch.fwd.length ≤ 256
  /-- 16 entries that wait for the event log (R423). -/
  evlog    : c.nvs.logBuf.length ≤ 16
  /-- 4,096 timestamp records in each Reed group (R95). -/
  stamps   : ∀ e ∈ c.rd.buf, e.2.length ≤ 4096
  /-- 65,536 words in each engine's fail FIFO (R142). -/
  fails    : ∀ e ∈ c.cap.fifo, e.2.length ≤ 65536
  /-- 4,096 words in each engine's first-fail log (R158). -/
  ffl      : ∀ e ∈ c.cap.ffl, e.2.length ≤ 4096
  /-- 256 fuse repair records (R388). -/
  fused    : c.st.fused.length ≤ 256
  /-- RSTACT arms nothing but actions 0x00 to 0x02 (R41). -/
  armed    : ∀ a, c.aon.rstArm = some a → a ≤ 2

end Sys2Proof.Machine
end

