-- ==== Sys2Proof/Certificates/Slice0/Obligations.lean ====
section
/-! DEFINITION. The statements about the model, for the provers: what every command completes with, family by family; then the step, the
invariant that every step keeps, frames, and rules of the spec. Each docstring names the rules it rests on. -/

open Sys2Proof Sys2Proof.Machine

/-- R23, R400 to R405: the supply rows. What each does to the register file and the always-on state, where the rail was the
other way before; a reset condition holds the device as RESET_N low does (Chip.holdReset). -/
def Obligations.SupplyRows : Prop :=
  ∀ s : State,
    (s.chip.dstate = stOff → s.chip.get F.PWR_STAT_VALID = 0 →
      exec .vddAonValid s = .next (s.after fun c => ((c.set F.PWR_STAT_VALID 1).setState stPor).set F.SYS_STATE_LOGIC_PG 0)) ∧
    (s.chip.dstate ≠ stOff → ∃ t, exec .vddAonLost s = .next t ∧ t.chip.dstate = stOff ∧
      (t.chip.get F.PWR_STAT_VALID).testBit 0 = false ∧ t.chip.ch = Chanter.init ∧ t.pending = s.pending ∧
      t.chip.jtag = s.chip.jtag ∧ (s.chip.cfg.burns = [] → t.chip.st.fused = s.chip.st.fused)) ∧
    (∀ (rail : Fin 11) (aux18 : Bool), rail.val ≠ 0 → rail.val ≠ 10 → (s.chip.get F.PWR_STAT_VALID).testBit rail = false →
      s.chip.dstate = stPor → railEarly (setBit (s.chip.get F.PWR_STAT_VALID) rail) rail = false →
      setBit (s.chip.get F.PWR_STAT_VALID) rail % 2 ^ 11 ≠ 0x7FF →
      exec (.railValid rail aux18) s = .next (s.after fun c =>
        (c.set F.PWR_STAT_VALID (setBit (c.get F.PWR_STAT_VALID) rail)).logicPower)) ∧
    (∀ rail : Fin 11, rail.val ≠ 0 → rail.val ≠ 10 →
      (s.chip.get F.PWR_STAT_VALID).testBit rail = true → s.chip.dstate ≠ stOff →
      exec (.railLost rail) s = .next (s.after fun c =>
        let c := (c.set F.PWR_STAT_VALID (clrBit (c.get F.PWR_STAT_VALID) rail)).set F.PWR_STAT_RAIL_LOST rail
        let c := c.owe EV_PWR_RAIL_LOST rail
        let c := if rail.val = 2 then (c.set F.SYS_STATE_LOGIC_PG 0).spReset false else c
        let c := if rail.val = 1 then c.nvsPowerLoss else c
        Chip.holdReset (Chip.tie { c with aon := { c.aon with railHold := c.dstate ≠ stPor } }))) ∧
    ((s.chip.get F.PWR_STAT_VALID).testBit 10 = true → s.chip.awake = true →
      exec .vddAuxLost s = .next (s.after fun c =>
        let d := (c.set F.PWR_STAT_VALID (clrBit (c.get F.PWR_STAT_VALID) 10)).auxAll
        d.raiseIf d.awake EV_PWR_AUX_LOST 0)) ∧
    (s.chip.aon.railHold = true → s.chip.get F.PWR_STAT_VALID % 2 ^ 10 = 0x3FF → s.chip.aon.resetLow = false →
      s.chip.aon.held = true → s.chip.aon.refHold = false → ∀ cause, s.chip.aon.bootCause = some cause →
      exec .railRestoredBoot s = .next (s.after fun c =>
        Chip.enterBoot cause { c with aon := { c.aon with railHold := false, held := false, bootCause := none } }))

/-- R405, R406, R410, Table 1.8: the rows of RESET_N, REFCLK and COOLANT_OK, and what ends a held reset. -/
def Obligations.ResetPinRows : Prop :=
  ∀ s : State,
    (s.chip.awake = true →
      exec .resetNLow s = .next (s.after fun c =>
        let c := c.tie
        let d := Chip.warmClear { c with aon := { c.aon with resetLow := true } }
        { d with aon := { d.aon with held := true, bootCause := some 0x01 } })) ∧
    (∀ (addrSel bootSrc : BitVec 2) (cause : Nat), s.chip.aon.resetLow = true → s.chip.aon.held = true →
      s.chip.aon.railHold = false → s.chip.aon.refHold = false → s.chip.dstate ≠ stOff → s.chip.aon.bootCause = some cause →
      exec (.resetNRelease addrSel bootSrc) s = .next (s.after fun c =>
        let d := Chip.strap addrSel.toNat bootSrc.toNat { c with aon := { c.aon with resetLow := false } }
        Chip.enterBoot cause { d with aon := { d.aon with held := false, bootCause := none } })) ∧
    (∀ noEdge : Bool, s.chip.is F.PWR_STAT_REFCLK_OK = true → s.chip.awake = true →
      exec (.refclkLoss noEdge) s = .next (s.after fun c =>
        let c := (((c.set F.PWR_STAT_REFCLK_OK 0).set F.PWR_STAT_REFCLK_LOST 1).oweOnce EV_CLK_REFCLK_LOST (b2n noEdge)).tie
        let d := Chip.warmClear { c with aon := { c.aon with refHold := true } }
        { d with aon := { d.aon with held := true, bootCause := some 0x01 } })) ∧
    (∀ cause : Nat, s.chip.is F.PWR_STAT_REFCLK_OK = false → s.chip.dstate ≠ stOff → s.chip.aon.held = true →
      s.chip.aon.resetLow = false → s.chip.aon.railHold = false → s.chip.aon.bootCause = some cause →
      exec .refclkReturn s = .next (s.after fun c =>
        let d := c.set F.PWR_STAT_REFCLK_OK 1
        Chip.enterBoot cause { d with aon := { d.aon with refHold := false, held := false, bootCause := none } })) ∧
    (s.chip.is F.SYS_STATE_COOLANT_OK = true → s.chip.awake = true →
      exec .coolantOkFall s = .next (s.after fun c =>
        let d := c.set F.SYS_STATE_COOLANT_OK 0
        Chip.throttle (Chip.raise EV_TH_COOLANT_LOW 0
          (({ d with aon := { d.aon with coolForced := true } } : Chip).set F.TH_STAT_COOLANT_LOW 1)))) ∧
    (∀ lowUs : Nat, s.chip.is F.SYS_STATE_COOLANT_OK = false → s.chip.awake = true →
      exec (.coolantOkRise lowUs) s = .next (s.after fun c =>
        let d := c.set F.SYS_STATE_COOLANT_OK 1
        Chip.logicPower { d with aon := { d.aon with coolLowUs := lowUs } })) ∧
    (s.chip.is F.SYS_STATE_COOLANT_OK = false → s.chip.awake = true →
      exec .coolantLow5ms s = .next (s.after fun c =>
        let c := c.tie
        (c.freeNext).shutdown 3 0xFF (c.freeVal % 4096))) ∧
    (s.chip.aon.coolForced = true → s.chip.is F.SYS_STATE_COOLANT_OK = true → s.chip.awake = true →
      exec .coolantForcedEnd s = .next (s.after fun c =>
        Chip.raise EV_TH_COOLANT_RESTORED (min 65535 c.aon.coolLowUs)
          (({ c with aon := { c.aon with coolForced := false } } : Chip).set F.TH_STAT_COOLANT_LOW 0)))

/-- R24, R58, R226, R371, R372, R408: the rows that end BOOT, that trip, that leave SHUTDOWN and that end a targeted reset.
The state left is the device's, or the one that an earlier transition of the same AON cycle left (`Chip.leftBy`, R24). -/
def Obligations.StateMachineRows : Prop :=
  ∀ s : State,
    (∀ (i : Fin 136) (raw : Int) (ratioOk moved : Bool), s.chip.dstate = stPor → 8 * (s.chip.get F.TH_CFG_TRIP : Int) ≤ raw →
      exec (.sensorConversion i raw ratioOk moved) s =
        .next (s.after fun c => (c.tie).shutdown 1 i (toBits 12 (min 2047 raw)))) ∧
    (∀ (i : Fin 136) (raw : Int) (ratioOk moved : Bool), s.chip.awake = true →
      exec (.sensorConversion i raw ratioOk moved) s = .next (s.after fun c =>
        let d := (c.tie).thConvert i raw ratioOk moved
        match d.thTrip i with
        | some kind => d.shutdown kind i (d.get (F.TH_SENSOR_USED i))
        | none => d)) ∧
    (∀ (readings : List (Option Int)) (outlet : Int), s.chip.dstate = stShutdown →
      exec (.shutdownSensorRead readings outlet) s = .next (s.after fun c =>
        { c with aon := { c.aon with restartMs := if c.coolEnough readings outlet then c.aon.restartMs + 1 else 0 } })) ∧
    (s.chip.dstate = stShutdown → 1000 ≤ s.chip.aon.restartMs → s.chip.is F.SYS_STATE_COOLANT_OK = true →
      ∃ t, exec .shutdownRestart s = .next t ∧ t.chip.dstate = stBoot ∧ t.chip.get F.SYS_STATE_PREV_STATE = s.chip.quiet.leftBy 5 % 16 ∧
        t.chip.get F.SYS_STATE_CAUSE = (if s.chip.aon.rstInShut then 0x08 else 0x06) ∧ t.chip.aon.restartMs = 0 ∧
        t.chip.aon.rstInShut = false ∧ t.chip.ch.events = [] ∧ t.pending = s.pending) ∧
    (s.chip.dstate = stBoot → s.chip.aon.held = false →
      (s.chip.quiet.bootPrep.fwPick = none → ∃ t, exec .bootDone s = .next t ∧ t.chip.dstate = stRecovery ∧
        t.chip.aon.i3cOpen = true ∧ t.chip.mem = s.chip.quiet.bootPrep.mem ∧ t.pending = s.pending) ∧
      exec .bootDone s = .next (s.after fun c =>
        let c := c.bootPrep
        match c.fwPick with
        | some (copy, img) => c.enterFw copy img
        | none => Chip.setState stRecovery { c with aon := { c.aon with i3cOpen := true } })) ∧
    (∀ (kind : Fin 8) (index : BitVec 16) (slot : Slot), s.chip.awake = true → s.chip.resetCmd kind index.toNat = some slot →
      2 ≤ kind.val → (kind.val = 7 → s.chip.drState ≠ drTraining ∧ s.chip.drState ≠ drInit) →
      exec (.targetedResetDone kind index) s = .next (s.after fun c => (c.targetOpen kind index.toNat).ok slot.id []))

/-- R35, R37, R39, R40, R42, R43: the I3C rows that transfer data and that the target answers. `i3cMine` says that the address is
the one the target answers at. Of a transfer with a target error nothing comes but the protocol error flag: the model's choice beside
R40 (log entry 45). -/
def Obligations.I3cTransferRows : Prop :=
  ∀ s : State,
    (∀ (addr : BitVec 7) (mode : I3cMode) (bytes : List Byte), s.chip.i3cMine addr.toNat = true → modeOk 0x01#8 mode = true →
      s.chip.takesPackets = true → bytes.length ≤ s.chip.get F.I3C_STAT_MWL →
      exec (.i3cPrivateWrite addr mode true bytes) s = .next (s.after fun c =>
        { c.ack with aon := { c.aon with protoErr := true } }) ∧
      exec (.i3cPrivateWrite addr mode false bytes) s = .next (s.after fun c => c.ack.rawPacket .i3c false bytes)) ∧
    (∀ (addr : BitVec 7) (mode : I3cMode) (r : Reply) (rest : List Reply), s.chip.i3cMine addr.toNat = true →
      modeOk 0x81#8 mode = true → s.chip.ch.replies = r :: rest →
      (r.sent + s.chip.get F.I3C_STAT_MRL < r.bytes.length →
        exec (.i3cPrivateRead (.addr addr) mode) s = .next (s.after fun c =>
          { c.emit (.i3cData ((r.bytes.drop r.sent).take (c.get F.I3C_STAT_MRL))) with
            ch := { c.ch with replies := { r with sent := r.sent + c.get F.I3C_STAT_MRL } :: rest } })) ∧
      (r.sent ≤ r.bytes.length → r.bytes.length ≤ r.sent + s.chip.get F.I3C_STAT_MRL →
        exec (.i3cPrivateRead (.addr addr) mode) s = .next (s.after fun c =>
          (c.emit (.i3cData (r.bytes.drop r.sent))).replyRead r))) ∧
    (∀ addr : BitVec 7, s.chip.i3cMine addr.toNat = true →
      exec (.getmwl (.addr addr)) s = .next (s.after fun c => c.emit (.i3cData (msbFirst 2 (c.get F.I3C_STAT_MWL)))) ∧
      exec (.getmrl (.addr addr)) s = .next (s.after fun c => c.emit (.i3cData (msbFirst 2 (c.get F.I3C_STAT_MRL) ++ [1#8]))) ∧
      exec (.getpid (.addr addr)) s = .next (s.after fun c => c.emit (.i3cData (msbFirst 6 c.pid))) ∧
      exec (.getbcr (.addr addr)) s = .next (s.after fun c => c.emit (.i3cData [0x06#8])) ∧
      exec (.getdcr (.addr addr)) s = .next (s.after fun c => c.emit (.i3cData [0x00#8])) ∧
      exec (.getmxds (.addr addr)) s = .next (s.after fun c => c.emit (.i3cData [0x00#8, 0x00#8])) ∧
      exec (.getstatus (.addr addr)) s = .next (s.after fun c =>
        Chip.emit (.i3cData (msbFirst 2 c.i3cStatus)) { c with aon := { c.aon with protoErr := false } })) ∧
    exec .hdrOtherMode s = .next (s.after id) ∧
    exec (.unsupportedCcc .broadcast) s = .next (s.after id) ∧
    (∀ a : BitVec 7, exec (.unsupportedCcc (.direct a)) s = .next (s.after Chip.nack)) ∧
    (s.chip.i3cLive = true → ∀ (mode : I3cMode) (i : Instr),
      i ∈ [.i3cPrivateRead .bad mode, .unsupportedCcc .bad, .getmwl .bad, .getmrl .bad,
        .getpid .bad, .getbcr .bad, .getdcr .bad, .getmxds .bad, .getstatus .bad] →
      exec i s = .next (s.after fun c => { c with aon := { c.aon with protoErr := true } })) ∧
    (s.chip.awake = true → s.chip.openEvents ≠ [] → exec .eventIbiRepeat s = .next (s.after Chip.requestEventIbi))

/-- R37, R39, R41, R42: the I3C rows that change addresses, limits, the IBI enable and the armed reset. Of a
common command with a target error nothing comes but the protocol error flag: the model's choice beside R40 (log entry 45). -/
def Obligations.I3cSettingRows : Prop :=
  ∀ s : State,
    (∀ (a : BitVec 7) (hotJoin : Bool), s.chip.i3cMine a.toNat = true → s.chip.is F.I3C_STAT_DYN_VALID = true →
      exec (.enec (.direct a) true hotJoin) s = .next (s.after fun c => c.ack.set F.I3C_STAT_IBI_EN 1) ∧
      exec (.disec (.direct a) true hotJoin) s = .next (s.after fun c => c.ack.set F.I3C_STAT_IBI_EN 0)) ∧
    (s.chip.i3cLive = true → exec .rstdaa s = .next (s.after fun c =>
      let d := ((c.set F.I3C_STAT_DYN_ADDR 0).set F.I3C_STAT_DYN_VALID 0).set F.I3C_STAT_IBI_EN 0
      (d.set F.I3C_STAT_MWL 4116).set F.I3C_STAT_MRL 4116)) ∧
    (∀ dyn : BitVec 7, s.chip.i3cLive = true → s.chip.is F.I3C_STAT_DYN_VALID = false →
      exec (.entdaa (.addr dyn)) s = .next (s.after fun c =>
        (((c.set F.I3C_STAT_DYN_ADDR dyn.toNat).set F.I3C_STAT_DYN_VALID 1).set F.I3C_STAT_IBI_EN 1).ack)) ∧
    (∀ addr dyn : BitVec 7, s.chip.i3cMine addr.toNat = true → s.chip.is F.I3C_STAT_DYN_VALID = false →
      exec (.setdasa (.addr addr) dyn) s = .next (s.after fun c =>
        (((c.set F.I3C_STAT_DYN_ADDR dyn.toNat).set F.I3C_STAT_DYN_VALID 1).set F.I3C_STAT_IBI_EN 1).ack)) ∧
    (∀ addr dyn : BitVec 7, s.chip.i3cMine addr.toNat = true → s.chip.is F.I3C_STAT_DYN_VALID = true →
      exec (.setnewda (.addr addr) dyn) s = .next (s.after fun c => (c.set F.I3C_STAT_DYN_ADDR dyn.toNat).ack)) ∧
    (∀ (a : BitVec 7) (len : BitVec 16), s.chip.i3cMine a.toNat = true → 64 ≤ len.toNat → len.toNat ≤ 4116 →
      exec (.setmwl (.direct a) len) s = .next (s.after fun c => c.ack.set F.I3C_STAT_MWL len.toNat) ∧
      exec (.setmrl (.direct a) len) s = .next (s.after fun c => c.ack.set F.I3C_STAT_MRL len.toNat)) ∧
    (∀ (a : BitVec 7) (len : BitVec 16), s.chip.i3cMine a.toNat = true → (len.toNat < 64 ∨ 4116 < len.toNat) →
      exec (.setmwl (.direct a) len) s = .next (s.after Chip.ack) ∧
      exec (.setmrl (.direct a) len) s = .next (s.after Chip.ack)) ∧
    (∀ (a : BitVec 7) (action : Byte), s.chip.i3cMine a.toNat = true → action.toNat ≤ 2 →
      exec (.rstact (.direct a) action) s = .next (s.after fun c => { c.ack with aon := { c.aon with rstArm := some action.toNat } })) ∧
    (∀ (a : BitVec 7) (action : Byte), 2 < action.toNat →
      exec (.rstact (.direct a) action) s = .next (s.after Chip.nack) ∧
      exec (.rstact .broadcast action) s = .next (s.after id)) ∧
    (s.chip.i3cLive = true → ∀ (b : BitVec 7) (intr hotJoin : Bool) (len : BitVec 16) (action : Byte) (i : Instr),
      i ∈ [.enec .bad intr hotJoin, .disec .bad intr hotJoin, .entdaa .bad, .setdasa .bad b,
        .setnewda .bad b, .setmwl .bad len, .setmrl .bad len, .rstact .bad action] →
      exec i s = .next (s.after fun c => { c with aon := { c.aon with protoErr := true } })) ∧
    (s.chip.aon.rstArm = some 1 → s.chip.chanterUp = true →
      exec .targetResetPattern s = .next (s.after fun c => Chip.restart { c with aon := { c.aon with rstArm := none } })) ∧
    (s.chip.aon.rstArm = some 2 → s.chip.awake = true →
      exec .targetResetPattern s = .next (s.after fun c =>
        (Chip.warmClear (Chip.tie { c with aon := { c.aon with rstArm := none } })).enterBoot 0x02)) ∧
    ((s.chip.aon.rstArm = none ∨ s.chip.aon.rstArm = some 0) →
      exec .targetResetPattern s = .next (s.after fun c => { c with aon := { c.aon with rstArm := none } }))

/-- R440 to R442, Table 17.10: the rows of the test access port. The bit that BYPASS captures is the model's choice (log entry 42). -/
def Obligations.TapRows : Prop :=
  ∀ s : State,
    exec .tapReset s = .next (s.after fun c => { c with jtag := { c.jtag with ir := 0x01 } }) ∧
    exec .jtagIdcode s = .next (s.after fun c => Chip.emit (.tdo 0x4A970A2B 32) { c with jtag := { c.jtag with ir := 0x01 } }) ∧
    (∀ pins preload : BitVec 2028, exec (.samplePreload pins preload) s = .next (s.after fun c =>
      Chip.emit (.tdo pins.toNat 2028) { c with jtag := { ir := 0x02, bsr := pins.toNat, latch := preload.toNat } })) ∧
    (s.chip.aon.resetLow = true → (s.chip.get F.PWR_STAT_VALID).testBit 9 = true →
      exec .extest s = .next (s.after fun c => { c with jtag := { c.jtag with ir := 0x00 } }) ∧
      exec .extestPulse s = .next (s.after fun c => { c with jtag := { c.jtag with ir := 0x06 } }) ∧
      exec .extestTrain s = .next (s.after fun c => { c with jtag := { c.jtag with ir := 0x07 } })) ∧
    ((s.chip.aon.resetLow = false ∨ (s.chip.get F.PWR_STAT_VALID).testBit 9 = false) →
      exec .extest s = .next (s.after fun c => Chip.emit (.tdo 0 1) { c with jtag := { c.jtag with ir := 0x00 } }) ∧
      exec .extestPulse s = .next (s.after fun c => Chip.emit (.tdo 0 1) { c with jtag := { c.jtag with ir := 0x06 } }) ∧
      exec .extestTrain s = .next (s.after fun c => Chip.emit (.tdo 0 1) { c with jtag := { c.jtag with ir := 0x07 } })) ∧
    exec .jtagClamp s = .next (s.after fun c => Chip.emit (.tdo 0 1) { c with jtag := { c.jtag with ir := 0x04 } }) ∧
    exec .jtagHighz s = .next (s.after fun c => Chip.emit (.tdo 0 1) { c with jtag := { c.jtag with ir := 0x05 } }) ∧
    (∀ opcode : Byte, opcode.toNat ∉ listedOps →
      exec (.jtagBypass opcode) s = .next (s.after fun c => Chip.emit (.tdo 0 1) { c with jtag := { c.jtag with ir := opcode.toNat } }))

/-- R57, R60, R69, R71 to R77, Tables 2.19 to 2.23: what each command of class 0x00 does once its packet is accepted and
it starts. A CH_SYS_FW_COMMIT with no session answers as R76 gives it for CH_SYS_FW_DATA: the model's choice (log entry 44). -/
def Obligations.SystemCommandRows : Prop :=
  ∀ (s : State) (p : Pkt),
    (s.chip.quiet.accepts cmdSysNop p →
      exec (.chSysNop p) s = .next (s.after fun c => (c.slotFor cmdSysNop p).ok c.ch.nextId p.payload)) ∧
    (s.chip.quiet.accepts cmdSysIdentify p →
      exec (.chSysIdentify p) s = .next (s.after fun c => (c.slotFor cmdSysIdentify p).ok c.ch.nextId c.identity)) ∧
    (s.chip.quiet.accepts cmdSysStatus p →
      exec (.chSysStatus p) s = .next (s.after fun c =>
        let d := c.slotFor cmdSysStatus p
        d.ok c.ch.nextId (natLe 8 (d.regWord 0) ++ natLe 8 d.qstat ++ natLe 8 d.evqStat ++ natLe 8 (c.get F.WW_TB_TIME)))) ∧
    (s.chip.quiet.accepts cmdSysPeek p →
      exec (.chSysPeek p) s = .next (s.after fun c =>
        let d := c.slotFor cmdSysPeek p
        let wide := (pb p.payload 10).testBit 0
        Chip.accessPump { d with ch := { d.ch with access := c.ch.access ++
          [{ slot := c.ch.nextId, addr := pf p.payload 0 8, left := if wide then pf p.payload 8 2 / 2 else pf p.payload 8 2,
             wide := wide, poke := false, data := p.payload.drop 16, got := [], words := 0, busy := false }] } })) ∧
    (s.chip.quiet.accepts cmdSysPoke p →
      exec (.chSysPoke p) s = .next (s.after fun c =>
        let d := c.slotFor cmdSysPoke p
        let wide := (pb p.payload 10).testBit 0
        Chip.accessPump { d with ch := { d.ch with access := c.ch.access ++
          [{ slot := c.ch.nextId, addr := pf p.payload 0 8, left := if wide then pf p.payload 8 2 / 2 else pf p.payload 8 2,
             wide := wide, poke := true, data := p.payload.drop 16, got := [], words := 0, busy := false }] } })) ∧
    (s.chip.quiet.accepts cmdSysReset p → pb p.payload 0 = 0 →
      exec (.chSysReset p) s = .next (s.after fun c =>
        let d := c.slotFor cmdSysReset p
        Chip.ok c.ch.nextId [] { d with ch := { d.ch with resetDue := true } })) ∧
    (s.chip.quiet.accepts cmdSysReset p → pb p.payload 0 = 1 →
      exec (.chSysReset p) s = .next (s.after fun c =>
        ((c.slotFor cmdSysReset p).setSlot c.ch.nextId (fun (t : Slot) => { t with recorded := some (ST_OK, dtNone) })).restart)) ∧
    (s.chip.quiet.accepts cmdSysReset p → 2 ≤ pb p.payload 0 → s.chip.resetRetired (pb p.payload 0) (pf p.payload 2 2) = false →
      exec (.chSysReset p) s = .next (s.after fun c =>
        let d := c.slotFor cmdSysReset p
        let hit := (d.ch.slots.filter (fun t => t.id ≠ c.ch.nextId && resetHits (pb p.payload 0) (pf p.payload 2 2) t)).map (fun t => t.id)
        ((d.interim c.ch.nextId ST_ACCEPTED dtNone []).endAll hit ST_TARGET_RESET dtNone).targetReset (pb p.payload 0) (pf p.payload 2 2))) ∧
    (∀ t : Slot, s.chip.quiet.accepts cmdSysAbort p → s.chip.slot? s.chip.ch.nextId = none →
      s.chip.isOwn (bits (pf p.payload 0 4) 27 16) = true →
      s.chip.ch.slots.find? (fun t => t.route = p.route && t.tag = pf p.payload 0 2) = some t →
      exec (.chSysAbort p) s = .next (s.after fun c => (c.slotFor cmdSysAbort p).abortOf c.ch.nextId t)) ∧
    (s.chip.quiet.accepts cmdSysEventRead p → (pf p.payload 0 4).testBit 16 = true →
      exec (.chSysEventRead p) s = .next (s.after fun c =>
        (c.slotFor cmdSysEventRead p).finish c.ch.nextId ST_OK (min 255 c.ch.events.length)
          ((c.ch.events.take (pf p.payload 0 2)).flatMap evBytes))) ∧
    (s.chip.quiet.accepts cmdSysEventRead p → (pf p.payload 0 4).testBit 16 = false →
      exec (.chSysEventRead p) s = .next (s.after fun c =>
        let d := c.slotFor cmdSysEventRead p
        let e := Chip.evqOverflow { d with ch := { d.ch with events := c.ch.events.drop (pf p.payload 0 2) } }
        e.finish c.ch.nextId ST_OK (min 255 e.ch.events.length) ((c.ch.events.take (pf p.payload 0 2)).flatMap evBytes))) ∧
    (s.chip.quiet.accepts cmdSysEventMask p →
      exec (.chSysEventMask p) s = .next (s.after fun c =>
        let d := (c.slotFor cmdSysEventMask p).evqMask (pf p.payload 0 8)
        d.ok c.ch.nextId (natLe 8 (d.get F.EVQ_MASK_MASK)))) ∧
    (s.chip.quiet.accepts cmdSysNotice p →
      exec (.chSysNotice p) s = .next (s.after fun c =>
        let d := c.slotFor cmdSysNotice p
        Chip.ok c.ch.nextId [] { d with ch := { d.ch with notices := pf p.payload 0 4 = 1 } })) ∧
    (s.chip.quiet.accepts cmdSysFwInfo p →
      exec (.chSysFwInfo p) s = .next (s.after fun c =>
        (c.slotFor cmdSysFwInfo p).ok c.ch.nextId
          (natLe 4 (c.fwVersions 0).1 ++ natLe 4 (c.fwVersions 1).1 ++ natLe 1 (c.fwVersions 0).2 ++ natLe 1 (c.fwVersions 1).2 ++
            natLe 1 c.ch.copy ++ natLe 1 c.cfg.fwMinSvn ++ natLe 1 ((c.ch.fw.map (fun (f : FwSession) => 1 + f.copy)).getD 0) ++ natLe 3 0))) ∧
    (s.chip.quiet.accepts cmdSysFwBegin p →
      exec (.chSysFwBegin p) s = .next (s.after fun c =>
        let d := c.slotFor cmdSysFwBegin p
        let h := recHdr 0 c.fwTarget / 8
        Chip.nvsWrite [(h, tget 0 h c.nvs.words / 2 ^ 32 * 2 ^ 32)] (.fwBegin c.ch.nextId c.fwTarget (pf p.payload 0 4))
          { d with ch := { d.ch with fw := none } })) ∧
    (∀ f : FwSession, s.chip.quiet.accepts cmdSysFwData p → s.chip.ch.fw = some f →
      pf p.payload 0 4 + (p.payload.length - 8) ≤ f.len →
      exec (.chSysFwData p) s = .next (s.after fun c =>
        let d := c.slotFor cmdSysFwData p
        Chip.ok c.ch.nextId [] { d with ch := { d.ch with
          fw := some { f with
            data := memWrite (pf p.payload 0 4) (p.payload.drop 8) f.data
            done := f.done ++ [(pf p.payload 0 4, p.payload.length - 8)] } } })) ∧
    (s.chip.quiet.accepts cmdSysFwData p → s.chip.ch.fw = none →
      exec (.chSysFwData p) s = .next (s.after fun c => (c.slotFor cmdSysFwData p).fail c.ch.nextId ST_BAD_STATE dtNoSession)) ∧
    (s.chip.quiet.accepts cmdSysFwCommit p → s.chip.ch.fw = none →
      exec (.chSysFwCommit p) s = .next (s.after fun c => (c.slotFor cmdSysFwCommit p).fail c.ch.nextId ST_BAD_STATE dtNoSession)) ∧
    (∀ f : FwSession, s.chip.quiet.accepts cmdSysFwCommit p → s.chip.ch.fw = some f →
      exec (.chSysFwCommit p) s = .next (s.after fun c =>
        let d := c.slotFor cmdSysFwCommit p
        let e := Chip.interim c.ch.nextId ST_ACCEPTED dtNone [] { d with ch := { d.ch with fw := none } }
        match c.fwRefusal f.whole (memRead 0 f.len f.data) with
        | none =>
          (e.setSlot c.ch.nextId (fun (t : Slot) => { t with noStop := true })).recWrite 0 (memRead 0 f.len f.data) (some f.copy)
            (.fwCommit c.ch.nextId f.copy)
        | some r => e.fail c.ch.nextId r.1 r.2))

/-- R58, R59, R66 to R69, R74, R77: the events of Chanter itself and of the forwarding of packets. -/
def Obligations.ChanterEventRows : Prop :=
  ∀ s : State,
    (s.chip.chanterUp = true →
      exec .fwWatchdog s = .next (s.after fun c => Chip.restart { c with ch := { c.ch with watchdog := true } })) ∧
    (s.chip.awake = true → s.chip.ch.restarting = true →
      s.chip.ch.slots.any (fun t => t.running && t.noStop && t.recorded.isNone) = false →
      exec .chanterRestartDone s = .next (s.after fun c =>
        (Chip.forAll (c.ch.slots.filter (fun t => !t.ended)) Chip.restartEnd
          { c with ch := { c.ch with restarting := false, watchdog := false } }).raiseIf c.ch.watchdog EV_SYS_FW_WATCHDOG c.ch.fwVersion)) ∧
    (s.chip.awake = true → s.chip.ch.resetDue = true →
      exec .sysResetTakesEffect s = .next (s.after fun c => (c.tie).warmClear.enterBoot 0x03)) ∧
    (∀ (id copy : Nat) (due : List (Nat × Nat)), s.chip.awake = true → s.chip.ch.commitDue = (id, copy) :: due →
      exec .fwCommitDone s = .next (s.after fun c =>
        let d : Chip := { c with ch := { c.ch with commitDue := due } }
        let img := (d.recBank 0 copy).getD []
        let act := ((d.slot? id).map (fun t => decide (pf t.payload 0 4 = 1))).getD false
        let e := (d.raise EV_SYS_FW_UPDATED (copy + Config.fwVersion img % 2 ^ 24 * 2 ^ 8)).ok id []
        if e.dstate = stRecovery then e.enterBoot 0x07
        else if act then
          Chip.restart { e with ch := { e.ch with
            copy := copy, fwVersion := Config.fwVersion img % 2 ^ 32, fwSvn := Config.fwSvn img % 256 } }
        else e)) ∧
    (∀ bytes : List Byte, s.chip.takesPackets = true → s.chip.is F.WW_ID_ROOT = true → s.chip.ww.gaveUp = false →
      exec (.wwChanterPacket 0 true bytes) s = .next (s.after (Chip.rawPacket .bridge false bytes))) ∧
    (∀ (src : BitVec 12) (bytes : List Byte), s.chip.takesPackets = true → src ≠ 0 →
      exec (.wwChanterPacket src false bytes) s = .next (s.after fun c =>
        (c.inc F.CH_CNT_B_FWD_LATE).raise EV_SYS_FOREIGN_PACKET src.toNat)) ∧
    (∀ bytes : List Byte, s.chip.takesPackets = true → s.chip.is F.WW_ID_ROOT = false →
      exec (.wwChanterPacket 0 false bytes) s = .next (s.after
        (Chip.takePacket (commandOf (pb bytes 0) (pb bytes 1)) .root (pb bytes 0) (pb bytes 1) (pf bytes 2 2) (pb bytes 6) (pf bytes 8 2)
          ((bytes.drop 16).take (pf bytes 4 2))))) ∧
    (∀ (src : BitVec 12) (bytes : List Byte) (e : Fwd), s.chip.awake = true → s.chip.is F.WW_ID_ROOT = true →
      pf bytes 2 2 ≠ 0xFFFF → s.chip.ch.fwd.find? (fun e => e.dest = src.toNat && e.tag = pf bytes 2 2) = some e →
      pb bytes 6 ≠ ST_ACCEPTED → pb bytes 6 ≠ ST_DEFERRED →
      exec (.fwdReplyArrival src bytes) s = .next (s.after fun c =>
        Chip.sendReply e.route none false bytes { c with ch := { c.ch with fwd := c.ch.fwd.erase e } })) ∧
    (∀ (src : BitVec 12) (bytes : List Byte), s.chip.awake = true → s.chip.is F.WW_ID_ROOT = true →
      pf bytes 2 2 ≠ 0xFFFF → s.chip.ch.fwd.find? (fun e => e.dest = src.toNat && e.tag = pf bytes 2 2) = none →
      exec (.fwdReplyArrival src bytes) s = .next (s.after fun c =>
        (c.inc F.CH_CNT_B_FWD_LATE).raise EV_SYS_FWD_LATE (src.toNat + pf bytes 2 2 * 2 ^ 16))) ∧
    (∀ (dest : BitVec 12) (tag : BitVec 16) (e : Fwd), s.chip.awake = true →
      s.chip.ch.fwd.find? (fun e => e.dest = dest.toNat && e.tag = tag.toNat && !e.replied) = some e →
      exec (.fwdTimeout dest tag) s = .next (s.after (Chip.fwdEnd (fun x => x = e) ST_TIMEOUT dtFwdNoReply)))

/-- R6, R34, R62, R63, R70, R302, R312, R314: every write of the register rows completes. CH_CNT_CLR, the event queue rows, NET_WRR and
NI_CNT_CLR do what their tables say for every value written; a REGISTER_WRITE off a multiple of 8 answers ALIGN, one that no control
block serves DECERR, one that no register of 64-bit accesses takes what R6 gives it, one of a register of the system block follows its
access codes, and any other does what the register's own write does. -/
def Obligations.RegisterRows : Prop :=
  ∀ s : State, s.chip.awake = true →
    (∀ (addr : BitVec 48) (data : Word), addr.toNat % 8 ≠ 0 →
      exec (.registerWrite addr data) s = .next (s.after fun c => c.answer rspAlign 0)) ∧
    (∀ (addr : BitVec 48) (data : Word), addr.toNat % 8 = 0 → (∀ off, placeOf addr.toNat ≠ .ctl off) →
      exec (.registerWrite addr data) s = .next (s.after fun c => c.answer rspDecerr 0)) ∧
    (∀ (addr : BitVec 48) (data : Word) (off : Nat) (r : Rsp), addr.toNat % 8 = 0 → placeOf addr.toNat = .ctl off →
      ¬(0xD00000 ≤ off ∧ off < 0xD80000) → halfRefusal off = some r →
      exec (.registerWrite addr data) s = .next (s.after fun c => c.answer r 0)) ∧
    (∀ (addr : BitVec 48) (data : Word) (off : Nat) (fs : List Fld), addr.toNat % 8 = 0 → placeOf addr.toNat = .ctl off →
      regAt off = some (false, fs) → off < 0x100000 → off ≠ 0x38 → off ≠ 0x58 → off ≠ 0x60 →
      exec (.registerWrite addr data) s = .next (s.after fun c => (c.writeFlds true data.toNat fs).answer rspOk 0)) ∧
    (∀ (addr : BitVec 48) (data : Word) (off : Nat), addr.toNat % 8 = 0 → placeOf addr.toNat = .ctl off →
      ¬(0xD00000 ≤ off ∧ off < 0xD80000) →
      exec (.registerWrite addr data) s = .next (s.after fun c => answerWrite (c.writeHalf 52 off data.toNat))) ∧
    (∀ (addr : BitVec 48) (data : Word) (off : Nat), addr.toNat % 8 = 0 → placeOf addr.toNat = .ctl off →
      0xD00000 ≤ off → off < 0xD80000 → ∃ t, exec (.registerWrite addr data) s = .next t ∧ t.pending = s.pending) ∧
    (∀ data : Word, exec (.chCntClr data) s = .next (s.after fun c =>
      let d := if data.toNat.testBit 0 then (c.set F.CH_CNT_A_HDR_CRC_ERR 0).set F.CH_CNT_A_PAY_CRC_ERR 0 else c
      Chip.answer rspOk 0 (if data.toNat.testBit 1 then (d.set F.CH_CNT_B_BUSY_REFUSALS 0).set F.CH_CNT_B_FWD_LATE 0 else d))) ∧
    (∀ data : Word, exec (.evqMaskWrite data) s = .next (s.after fun c =>
      ((c.set F.EVQ_MASK_MASK (data.toNat &&& 0x777777777777)).ibiIfRisen c.openEvents.length).answer rspOk 0)) ∧
    (exec .evqClrLost s = .next (s.after fun c =>
      ((((c.set F.EVQ_LOST_A_LOST_INFO 0).set F.EVQ_LOST_A_LOST_WARN 0).set F.EVQ_LOST_B_LOST_ERROR 0).set
        F.EVQ_LOST_B_LOST_FATAL 0).answer rspOk 0)) ∧
    (exec .evqFlush s = .next (s.after fun c =>
      if c.ch.lossRun = 0 then Chip.answer rspOk 0 { c with ch := { c.ch with events := [] } }
      else Chip.answer rspOk 0 (Chip.raise EV_SYS_EVQ_OVERFLOW c.ch.lossRun { c with ch := { c.ch with events := [], lossRun := 0 } }))) ∧
    (∀ data : Word, (bits data.toNat 7 0 = 0 ∨ bits data.toNat 31 24 = 0) →
      exec (.netWrrWrite data) s = .next (s.after fun c => c.answer rspRange 0)) ∧
    (∀ data : Word, bits data.toNat 7 0 ≠ 0 → bits data.toNat 31 24 ≠ 0 →
      exec (.netWrrWrite data) s = .next (s.after fun c =>
        let d := (((c.set F.NET_WRR_W_RT (bits data.toNat 7 0)).set F.NET_WRR_W_FAB (bits data.toNat 15 8)).set
          F.NET_WRR_W_BULK (bits data.toNat 23 16)).set F.NET_WRR_W_CTL (bits data.toNat 31 24)
        if c.net.wrrTo = [] then
          let e : Chip := { d with net := { d.net with wrrTo := List.range 96, retry := [] } }
          ((e.set F.NET_STAT_WRR_PENDING 1).set (F.ROUTER_STAT_QUIESCING 0) 1).answer rspOk 0
        else d.answer rspOk 0)) ∧
    (∀ (ni : Fin 288) (data : Word), exec (.niCntClr ni data) s = .next (s.after fun c =>
      let d := if data.toNat.testBit 0 then (c.set (F.NI_CNT_A_TOUT_CNT ni) 0).set (F.NI_CNT_A_BUSY_CNT ni) 0 else c
      let e := if data.toNat.testBit 1 then (d.set (F.NI_CNT_B_LATE_CNT ni) 0).set (F.NI_CNT_B_OFF_CNT ni) 0 else d
      Chip.answer rspOk 0 (if data.toNat.testBit 2 then
        e.clear ((List.range 4).flatMap (fun k => [F.NI_LAT_MAX_MAX ni k, F.NI_LAT_N_COUNT ni k, F.NI_LAT_SUM_SUM ni k])) else e)))

/-- R109, R111 to R114, R127, R129, R133: the twelve sequencer rows and the engine cycle, of a running engine that is in no gang and does
not hold, and whose instruction has no fault: the cycle is issued and every effect of the instruction takes place. In a gang on one
device every member issues its own instruction in the same cycle. -/
def Obligations.SequencerRows : Prop :=
  (∀ (s : State) (k : Fin 16), s.chip.awake = true → s.chip.is (F.PE_CTL_GANG_EN k) = false → s.chip.peState k = peRunning →
    (s.chip.eng k).pause = none →
    let idle := fun c : Chip => c.setEng k (fun e => { e with pause := none })
    let runs := fun (w : Nat) (c : Chip) =>
      ((Chip.issue k w (idle c)).set (F.PE_STAT_GF k) (gangFlags (c.get (F.PE_STAT_GF k)) [w])).afterCycle [k.val] [(k.val, w)]
    (∀ word : BitVec 256, ∀ row ∈ [(Instr.seqNext k word, seqNEXT), (Instr.seqJmp k word, seqJMP), (Instr.seqJc k word, seqJC),
        (Instr.seqCall k word, seqCALL), (Instr.seqRet k word, seqRET), (Instr.seqLoop k word, seqLOOP),
        (Instr.seqLdlc k word, seqLDLC), (Instr.seqRepeat k word, seqREPEAT), (Instr.seqWaitf k word, seqWAITF),
        (Instr.seqSync k word, seqSYNC), (Instr.seqPause k word, seqPAUSE), (Instr.seqHalt k word, seqHALT)],
      (idle s.chip.quiet).issueFault k (withSeq row.2 word.toNat) = none →
      exec row.1 s = .next (s.after (runs (withSeq row.2 word.toNat)))) ∧
    ((idle s.chip.quiet).issueFault k (tget 0 ((idle s.chip.quiet).eng k).npc ((idle s.chip.quiet).eng k).im) = none →
      exec (.engineCycle k) s = .next (s.after fun c => runs (tget 0 ((idle c).eng k).npc ((idle c).eng k).im) c))) ∧
  (∀ (s : State) (k : Fin 16) (ms : List Nat) (l : Nat), s.chip.awake = true → s.chip.gang k = ms → ms.head? = some l →
    s.chip.xsys l = false → s.chip.peState l = peRunning → (s.chip.eng l).pause = none →
    let idle := fun c : Chip => c.forAll ms (fun j => Chip.setEng j (fun e => { e with pause := none }))
    let ws := ms.map (fun j => (j, tget 0 ((idle s.chip.quiet).eng j).npc ((idle s.chip.quiet).eng j).im))
    (∀ p ∈ ws, (idle s.chip.quiet).issueFault p.1 p.2 = none) →
    exec (.engineCycle k) s = .next (s.after fun c =>
      (((idle c).forAll ws (fun p => Chip.issue p.1 p.2)).forAll ms (fun j =>
        Chip.set (F.PE_STAT_GF j) (gangFlags ((idle c).get (F.PE_STAT_GF l)) (ws.map Prod.snd)))).afterCycle ms ws))

/-- R112, R127, R130, R134: the rows of waits, holds and starts of an engine that is in no gang. -/
def Obligations.EngineWaitRows : Prop :=
  ∀ (s : State) (k : Fin 16), s.chip.awake = true → s.chip.is (F.PE_CTL_GANG_EN k) = false →
    (∀ q : Pause, (s.chip.eng k).pause = some q → s.chip.quiet.waitExpired k q = true →
      exec (.waitfTimeout k) s = .next (s.after fun c =>
        c.setEng k (fun e => { e with npc := iTgt q.word, pause := some { q with met := true } }))) ∧
    (∀ q : Pause, (s.chip.eng k).pause = some q → s.chip.quiet.holding k = true →
      exec (.holdCycle k) s = .next (s.after fun c =>
        let n := c.get (F.PE_CYCLE_COUNT k)
        let cy := c.laneUses k { q.cyc with num := n, cmask := ones128, held := true, fle := false }
        let met := if iSeq q.word = seqWAITF then c.waitMet k q else q.met
        let d := (c.emitCycle k cy).setEng k (fun e =>
          { e with cmpQ := e.cmpQ ++ [cy], pause := some { q with held := q.held + 1, met := met } })
        (d.set (F.PE_CYCLE_COUNT k) (n + 1)).inc (F.PE_HOLD_COUNT k))) ∧
    (∀ q : Pause, (s.chip.eng k).pause = some q → s.chip.quiet.holding k = true → q.long = false →
      exec (.holdLong k) s = .next (s.after fun c =>
        (c.setEng k (fun e => { e with pause := some { q with long := true } })).raise EV_PE_HOLD_LONG (c.peArg k (c.holdWhy k)))) ∧
    (∀ (q : Pause) (tick : Nat), (s.chip.eng k).pause = some q → iSeq q.word = seqSYNC → tick % s.chip.syncPeriod k = 0 →
      q.began < tick →
      exec (.syncTick k tick) s = .next (s.after fun c => c.setEng k (fun e => { e with pause := some { q with met := true } }))) ∧
    (∀ tick : Nat, s.chip.peState k = peArmed → ((s.chip.eng k).streamOn = false ∨ (s.chip.eng k).prefilled = true) →
      exec (.peStartTick k tick) s = .next (s.after fun c =>
        let t := match (c.eng k).startTick with
          | some n => n + 64
          | none => tick
        let d := (Chip.beginEngine k t c).setEng k (fun e => { e with startSlot := none })
        d.forAll (c.eng k).startSlot.toList (fun i => Chip.ok i []))) ∧
    (s.chip.peState k = peArmed → (s.chip.eng k).startTick.isSome = true → (s.chip.eng k).streamOn = true →
      (s.chip.eng k).prefilled = false →
      exec (.prefillLate k) s = .next (s.after fun c =>
        (c.withdrawStart [k.val]).forAll (c.eng k).startSlot.toList (fun i => Chip.fail i ST_BAD_STATE dtPrefillLate))) ∧
    (s.chip.peState k = peArmed → (s.chip.eng k).streamOn = true →
      min 16384 (s.chip.get (F.PE_STREAM_LEN_LEN k)) ≤ (s.chip.eng k).stream.length →
      exec (.streamPrefillDone k) s = .next (s.after fun c => c.setEng k (fun e => { e with prefilled := true })))

/-- R107, R121, R122, R124, R126: the rows that bring an engine vectors, flags, table words and its clock. `rowBad` says that a read
finds an uncorrectable granule (R286), `rowRefusal` that no row access is made there. -/
def Obligations.EngineInputRows : Prop :=
  ∀ (s : State) (k : Fin 16), s.chip.awake = true →
    (∀ (rsp : Fin 6) (count : Nat), s.chip.peActive k = true → (s.chip.eng k).streamOn = true →
      let n := min count (min (16384 - (s.chip.eng k).stream.length) (s.chip.get (F.PE_STREAM_LEN_LEN k) - (s.chip.eng k).streamReq))
      let at' := fun i => s.chip.get (F.PE_STREAM_BASE_ADDR k) + 64 * ((s.chip.eng k).streamReq + i)
      let takes := fun vs => s.after fun c => c.setEng k (fun e => { e with stream := e.stream ++ vs, streamReq := e.streamReq + n })
      (rsp ≠ 0 → exec (.streamReadResponse k rsp count) s = .next (takes ((List.range n).map (fun _ => SVec.bad)))) ∧
      (rsp = 0 → (∀ i < n, s.chip.quiet.rowBad (at' i) 64 = false ∧ s.chip.quiet.rowRefusal (at' i) 64 = none) →
        exec (.streamReadResponse k rsp count) s =
          .next (takes ((List.range n).map (fun i => SVec.ok (leNat (memRead (at' i) 64 s.chip.mem))))))) ∧
    (∀ vec : BitVec 256, s.chip.is (F.PE_CTL_UPORT_EN k) = true → (s.chip.eng k).uport.length < 64 →
      exec (.uportVectorArrival k vec) s = .next (s.after fun c => c.setEng k (fun e => { e with uport := e.uport ++ [vec.toNat] }))) ∧
    (∀ vec : BitVec 256, (s.chip.eng k).uport.length = 64 → exec (.uportVectorArrival k vec) s = .next (s.after id)) ∧
    (∀ flags : Byte, s.chip.is (F.PE_CTL_UPORT_EN k) = true →
      exec (.uportFlagUpdate k flags) s = .next (s.after fun c => c.setEng k (fun e => { e with uf := flags.toNat }))) ∧
    (∀ hi : BitVec 128, s.chip.peActive k = true → exec (.peImDataWrite k hi) s = .next (s.after fun c => c.answer rspState 0)) ∧
    (∀ hi : BitVec 128, s.chip.peActive k = false → s.chip.is (F.PE_IM_ADDR_AUTOINC k) = true →
      exec (.peImDataWrite k hi) s = .next (s.after fun c =>
        let a := c.get (F.PE_IM_ADDR_ADDR k)
        let d := c.imStore k a ((c.eng k).imLo + hi.toNat * 2 ^ 128)
        (d.set (F.PE_IM_ADDR_ADDR k) ((a + 1) % 65536)).answer rspOk 0)) ∧
    (∀ (j : Fin 3) (mask : Word), s.chip.peActive k = false →
      (∀ i : Nat, i < 16 → i ≠ k.val → s.chip.get (F.PE_STOPBIND_MASK i j) &&& mask.toNat = 0) →
      exec (.peStopbindWrite k j mask) s = .next (s.after fun c => (c.set (F.PE_STOPBIND_MASK k j) mask.toNat).answer rspOk 0)) ∧
    (∀ (j : Fin 3) (mask : Word) (i : Nat), s.chip.peActive k = false → i < 16 → i ≠ k.val →
      s.chip.get (F.PE_STOPBIND_MASK i j) &&& mask.toNat ≠ 0 →
      exec (.peStopbindWrite k j mask) s = .next (s.after fun c => c.answer rspDenied 0)) ∧
    (∀ slot : Slot, s.chip.runningCmd 0x03 0x08 (fun pl => pb pl 0 = k.val) = some slot →
      exec (.peClockLocked k) s = .next (s.after fun c => c.ok slot.id []))

/-- R107, R127, R129, R130, R133, R136, Table 4.12: what each command of class 0x03 does once its packet is accepted, for an engine
that is in no gang (the gang command apart). -/
def Obligations.EngineCommandRows : Prop :=
  ∀ (s : State) (p : Pkt) (k : Nat), k < 16 → s.chip.is (F.PE_CTL_GANG_EN k) = false →
    (s.chip.quiet.accepts cmdPeStatus p → pf p.payload 0 4 = k →
      exec (.chPeStatus p) s = .next (s.after fun c =>
        let d := c.slotFor cmdPeStatus p
        d.ok c.ch.nextId (natLe 8 (d.regWord (F.PE_CTL_FSTEP k).off) ++ natLe 8 (d.peStat k) ++ natLe 8 (c.get (F.PE_CYCLE_COUNT k)) ++
          natLe 8 (c.get (F.PE_HOLD_COUNT k)) ++ natLe 8 (d.regWord (F.PE_FAULT_CODE k).off) ++ natLe 8 (c.get (F.PE_START_TICK_TICK k))))) ∧
    (s.chip.quiet.accepts cmdPeLoad p → pb p.payload 0 = k → s.chip.peActive k = false →
      exec (.chPeLoad p) s = .next (s.after fun c =>
        ((c.slotFor cmdPeLoad p).forAll (List.range (pf p.payload 4 2)) (fun i =>
          Chip.imStore k (pf p.payload 2 2 + i) (pf p.payload (8 + 32 * i) 32))).ok c.ch.nextId [])) ∧
    (s.chip.quiet.accepts cmdPeStart p → pb p.payload 0 = k → pb p.payload 1 = 0 → s.chip.peActive k = false →
      exec (.chPeStart p) s = .next (s.after fun c =>
        (c.slotFor cmdPeStart p).arm [k] (pf p.payload 2 2) none c.ch.nextId)) ∧
    (s.chip.quiet.accepts cmdPeStart p → pb p.payload 0 = k → pb p.payload 1 = 1 → s.chip.peActive k = false →
      s.chip.get F.WW_TB_TIME + 375 ≤ pf p.payload 8 8 → pf p.payload 8 8 ≤ s.chip.get F.WW_TB_TIME + 2 ^ 32 →
      exec (.chPeStart p) s = .next (s.after fun c =>
        ((c.slotFor cmdPeStart p).interim c.ch.nextId ST_DEFERRED dtWaitTick []).arm (((c.slotFor cmdPeStart p).interim
          c.ch.nextId ST_DEFERRED dtWaitTick []).gang k) (pf p.payload 2 2) (some (pf p.payload 8 8)) c.ch.nextId)) ∧
    (s.chip.quiet.accepts cmdPePause p → pf p.payload 0 4 = k → s.chip.peActive k = true → s.chip.peState k ≠ pePaused →
      exec (.chPePause p) s = .next (s.after fun c =>
        let d := ((c.slotFor cmdPePause p).interim c.ch.nextId ST_ACCEPTED dtNone []).setEng k (fun e =>
          { e with pauseReq := e.pauseReq ++ [c.ch.nextId] })
        if d.holding k then d.enterPaused (d.gang k) else d)) ∧
    (s.chip.quiet.accepts cmdPeResume p → pf p.payload 0 4 = k → s.chip.peState k = pePaused →
      exec (.chPeResume p) s = .next (s.after fun c =>
        ((c.slotFor cmdPeResume p).set (F.PE_STAT_STATE k) peRunning).ok c.ch.nextId [])) ∧
    (s.chip.quiet.accepts cmdPeStop p → pf p.payload 0 4 = k → s.chip.peActive k = true →
      exec (.chPeStop p) s = .next (s.after fun c =>
        let d := ((c.slotFor cmdPeStop p).interim c.ch.nextId ST_ACCEPTED dtNone []).setEng k (fun e =>
          { e with stopReq := e.stopReq ++ [c.ch.nextId] })
        if d.holding k then d.endRun (d.gang k) peStopped (fun _ => 0) false else d)) ∧
    (s.chip.quiet.accepts cmdPeAbort p → pf p.payload 0 4 = k → s.chip.peActive k = true →
      exec (.chPeAbort p) s = .next (s.after fun c =>
        ((c.slotFor cmdPeAbort p).endRun [k] peAborted (fun _ => 0) false).ok c.ch.nextId [])) ∧
    (s.chip.quiet.accepts cmdPeGang p → (pb p.payload 2).testBit 1 = false →
      (∀ i < 16, ∀ j < 16, (pf p.payload 0 2).testBit i = true → (pf p.payload 0 2).testBit j = true →
        s.chip.peActive j = false ∧ s.chip.get (F.PE_CTL_FSTEP i) = s.chip.get (F.PE_CTL_FSTEP j) ∧
        s.chip.get (F.PE_CTL_MCODE i) = s.chip.get (F.PE_CTL_MCODE j)) →
      exec (.chPeGang p) s = .next (s.after fun c =>
        let ms := engines.filter (fun j => (pf p.payload 0 2).testBit j)
        (((c.slotFor cmdPeGang p).leaveGangs ms).makeGang ms (bit (pb p.payload 2) 0)).ok c.ch.nextId [])) ∧
    (s.chip.quiet.accepts cmdPeClock p → pb p.payload 0 = k → s.chip.peActive k = false →
      exec (.chPeClock p) s = .next (s.after fun c =>
        ((c.slotFor cmdPeClock p).set (F.PE_CTL_FSTEP k) (pf p.payload 2 2)).set (F.PE_CTL_MCODE k) (pb p.payload 4)))

/-- R85, R92, R95, R97, R100, R101, R103, R125, R138, R139: the rows of the Reed groups. A channel is `8 × group + lane`. -/
def Obligations.ReedRows : Prop :=
  ∀ s : State, s.chip.awake = true →
    (∀ (k : Fin 16) (obs : List (List PinObs)) (cy : Cycle) (q : List Cycle), (s.chip.eng k).cmpQ = cy :: q →
      let taken := fun c : Chip => c.setEng k (fun e => { e with cmpQ := q })
      (cy.held = true → exec (.compareResult k obs) s = .next (s.after taken)) ∧
      (cy.held = false → ((taken s.chip.quiet).compareCycle k cy obs).1 = 0 →
        exec (.compareResult k obs) s = .next (s.after fun c => ((taken c).compareCycle k cy obs).2)) ∧
      (cy.held = false → ((taken s.chip.quiet).compareCycle k cy obs).1 ≠ 0 → cy.fle = false →
        exec (.compareResult k obs) s = .next (s.after fun c => ((taken c).compareCycle k cy obs).2.set (F.PE_STAT_FAIL k) 1))) ∧
    (∀ (ch : Fin 256) (cap : Bool) (err : Int), s.chip.is (F.RD_GRP_CTL_DRIFT_EN (ch / 8)) = true → s.chip.chState ch = chActive →
      (s.chip.engineRun (ch / 8) = false ∨ (s.chip.unit ch).idle.testBit (b2n cap) = true) →
      (err - sext 16 (s.chip.get (driftFld ch cap))).natAbs ≤ 24 →
      (sext 16 (s.chip.get (driftFld ch cap)) + driftStep err (sext 16 (s.chip.get (driftFld ch cap)))).natAbs ≤ 1000 →
      exec (.driftMeasurement ch cap err) s = .next (s.after fun c =>
        let d := sext 16 (c.get (driftFld ch cap))
        ((((c.setStarved ch cap false).setUnit ch (fun u => { u with idle := clrBit u.idle (b2n cap) })).setUnit ch
          (fun u => if cap then { u with outC := 0 } else { u with outL := 0 })).calNote ch).set
          (driftFld ch cap) (toBits 16 (d + driftStep err d)))) ∧
    (∀ (ch : Fin 256) (cap : Bool) (err : Int), s.chip.engineRun (ch / 8) = true → (s.chip.unit ch).idle.testBit (b2n cap) = false →
      exec (.driftMeasurement ch cap err) s = .next (s.after id)) ∧
    (∀ (ch : Fin 256) (cap : Bool), s.chip.chState ch ≠ chRetired →
      exec (.driftStarved ch cap) s = .next (s.after fun c => (c.setStarved ch cap true).raise EV_RD_DRIFT_STARVED (ch + b2n cap * 256))) ∧
    (∀ (ch : Fin 256) (dl dc : Int), s.chip.chState ch ≠ chRetired → (s.chip.unit ch).reacq = 2 →
      exec (.reedReacquireDone ch dl dc) s = .next (s.after fun c =>
        (((c.calNote ch).set (driftFld ch false) (toBits 16 dl)).set (driftFld ch true) (toBits 16 dc)).setUnit ch (fun u => { u with reacq := 0 }))) ∧
    (∀ (g : Fin 32) (data : Wide), tsReserved data.toNat = false →
      exec (.rdTsPortDataWrite g data) s = .next (s.after fun c =>
        ((c.tsWrite g (c.get (F.RD_TS_PORT_ADDR_TSET g)) (c.get (F.RD_TS_PORT_ADDR_LANE g)) data.toNat).tsPortNext g).answer rspOk 0)) ∧
    (∀ (g : Fin 32) (data : Wide), tsReserved data.toNat = true →
      exec (.rdTsPortDataWrite g data) s = .next (s.after fun c => c.answer rspReservedCode 0)) ∧
    (∀ g : Fin 32, exec (.rdTsPortDataRead g) s = .next (s.after fun c =>
      (c.tsPortNext g).answer rspOk (c.tsEntry g (c.get (F.RD_TS_PORT_ADDR_TSET g)) (c.get (F.RD_TS_PORT_ADDR_LANE g))))) ∧
    (∀ (g : Fin 32) (r : Nat) (q : List Nat), s.chip.tsBuf g = r :: q →
      exec (.rdTsPopRead g) s = .next (s.after fun c =>
        Chip.answer rspOk r { c with rd := { c.rd with buf := tput [] g.val q c.rd.buf } })) ∧
    (∀ g : Fin 32, s.chip.tsBuf g = [] → exec (.rdTsPopRead g) s = .next (s.after fun c => c.answer rspOk 0)) ∧
    (∀ (ch : Fin 256) (data : Wide), exec (.rdUcalWrite ch data) s = .next (s.after fun c =>
      (c.ucalWrite ch ((List.range 6).map (fun i => bits data.toNat (16 * i + 15) (16 * i)))).answer rspOk 0)) ∧
    (∀ g : Fin 32, exec (.rdCntClr g 0xF) s = .next (s.after fun c =>
      ((((c.set (F.RD_TS_DROPPED_COUNT g) 0).set (F.RD_EDGE_CLAMP_COUNT g) 0).set (F.RD_TSV_UI_COUNT g) 0).set
        (F.RD_CONFLICT_COUNT g) 0).answer rspOk 0))

/-- R97, R105, Table 3.17: what each command of class 0x04 does once its packet is accepted. -/
def Obligations.ReedCommandRows : Prop :=
  ∀ (s : State) (p : Pkt),
    (s.chip.quiet.accepts cmdRdStatus p →
      exec (.chRdStatus p) s = .next (s.after fun c =>
        let d := c.slotFor cmdRdStatus p
        let g := pf p.payload 0 4
        d.ok c.ch.nextId (natLe 8 (d.rdGrpStat g) ++ (List.range 8).flatMap (fun l => natLe 8 (d.regWord (F.RD_CH_STAT_STATE g l).off)) ++
          (rdCounters g).flatMap (fun f => natLe 8 (c.get f))))) ∧
    (s.chip.quiet.accepts cmdRdTsWrite p →
      exec (.chRdTsWrite p) s = .next (s.after fun c =>
        ((c.slotFor cmdRdTsWrite p).forAll (List.range (pf p.payload 2 2)) (fun i c =>
          c.tsWrite (pb p.payload 0) ((pb p.payload 1 + i / 8) % 256) (i % 8) (pf p.payload (4 + 16 * i) 16))).ok c.ch.nextId [])) ∧
    (s.chip.quiet.accepts cmdRdTsRead p →
      exec (.chRdTsRead p) s = .next (s.after fun c =>
        (c.slotFor cmdRdTsRead p).ok c.ch.nextId ((List.range (pf p.payload 2 2)).flatMap (fun i =>
          natLe 16 (c.tsEntry (pb p.payload 0) ((pb p.payload 1 + i / 8) % 256) (i % 8)))))) ∧
    (s.chip.quiet.accepts cmdRdCalWrite p →
      exec (.chRdCalWrite p) s = .next (s.after fun c =>
        let g := pb p.payload 0
        let lanes := (List.range 8).filter (fun l => (pb p.payload 1).testBit l && c.chState (8 * g + l) ≠ chRetired)
        let d := (c.slotFor cmdRdCalWrite p).forAll lanes (fun l =>
          Chip.ucalWrite (8 * g + l) ((List.range 6).map (fun i => pf p.payload (4 + 12 * l + 2 * i) 2)))
        d.finish c.ch.nextId ST_OK (if lanes.any (fun l => d.clampMask (8 * g + l) ≠ 0) then dtCalClamped else dtNone) [])) ∧
    (s.chip.quiet.accepts cmdRdCalRead p →
      exec (.chRdCalRead p) s = .next (s.after fun c =>
        let g := pf p.payload 0 4
        let d := c.slotFor cmdRdCalRead p
        d.ok c.ch.nextId ((List.range 8).flatMap (fun l =>
          (List.range 6).flatMap (fun i => natLe 2 (c.get (calFld false g l i))) ++
          (List.range 6).flatMap (fun i => natLe 2 (c.get (calFld true g l i))) ++
          (List.range 6).flatMap (fun i => natLe 2 (toBits 16 (d.kEff (8 * g + l) i))) ++
          natLe 2 (c.get (F.RD_CH_STAT_DRIFT_L g l)) ++ natLe 2 (c.get (F.RD_CH_STAT_DRIFT_C g l)))))) ∧
    (s.chip.quiet.accepts cmdRdCalSave p →
      exec (.chRdCalSave p) s = .next (s.after fun c =>
        let d := c.slotFor cmdRdCalSave p
        ((d.interim c.ch.nextId ST_ACCEPTED dtNone []).setSlot c.ch.nextId (fun (k : Slot) => { k with noStop := true })).recWrite 1
          d.calBytes none (.slot c.ch.nextId dtNone []))) ∧
    (∀ n : Nat, s.chip.quiet.accepts cmdRdCheck p → n = 8 * pb p.payload 0 + pb p.payload 1 → s.chip.engineRun (pb p.payload 0) = false →
      s.chip.chState n ≠ chRetired → s.chip.dstate ≠ stSafe →
      (s.chip.quiet.slotFor cmdRdCheck p).tqFull 5 (n + (s.chip.unit n).line * 256) = false →
      exec (.chRdCheck p) s = .next (s.after fun c =>
        let d := (c.slotFor cmdRdCheck p).interim c.ch.nextId ST_ACCEPTED dtNone []
        (d.setUnit n (fun u => { u with checks := u.checks ++ [c.ch.nextId] })).tqPush 5 (n + (c.unit n).line * 256) []))

/-- R142, R148, R154 to R156, R164, Tables 5.4 and 5.10: the rows of fail capture. -/
def Obligations.CaptureRows : Prop :=
  ∀ s : State, s.chip.awake = true →
    (∀ k : Nat, (rotFrom s.chip.cap.rr).find? (fun k => s.chip.fifo k ≠ []) = some k →
      exec .failDispatch s = .next (s.after fun c => Chip.dispatch k { c with cap := { c.cap with rr := (k + 1) % 16 } })) ∧
    (∀ (k : Fin 16) (e : Nat) (q : List Nat), s.chip.cap.fatWait.testBit k = true → s.chip.fifo k = e :: q →
      exec (.fatWaitExpiry k) s = .next (s.after fun c =>
        let d := c.fatReject k e
        Chip.dispatch k { d with cap := { d.cap with headFat := setBit d.cap.headFat k, fatWait := clrBit d.cap.fatWait k } })) ∧
    (∀ (a : BitVec 48) (rsp : Fin 6) (detail : Byte) (perr : Bool) (l : BmLine),
      s.chip.cap.lines.find? (fun l => l.addr = a.toNat && (l.wb = 1 || l.wb = 2)) = some l →
      (rsp ≠ 0 → exec (.bmWritebackResponse a rsp detail perr) s = .next (s.after (Chip.bmFail ⟨rsp, detail.toNat⟩ false))) ∧
      (∀ r : Rsp, rsp = 0 → s.chip.quiet.rowRefusal a.toNat 1024 = some r →
        exec (.bmWritebackResponse a rsp detail perr) s = .next (s.after (Chip.bmFail r false))) ∧
      (rsp = 0 → s.chip.quiet.rowRefusal a.toNat 1024 = none → s.chip.dr.wq.length < 256 →
        exec (.bmWritebackResponse a rsp detail perr) s = .next (s.after fun c =>
          ((c.drWakeRank a.toNat perr).drPush a.toNat ((natLe 1024 l.bits).map (fun b => (true, b))) true).setWb a.toNat (l.wb + 2)))) ∧
    (∀ (detail : Byte) (z : BmZero) (zs : List BmZero), s.chip.cap.zero = z :: zs → s.chip.dr.wq.length < 256 →
      let stop := min z.stop (rowBase z.next + 1024)
      let queued := fun c : Chip => (c.drWakeRank z.next false).drPush z.next ((List.range (stop - z.next)).map (fun _ => (true, 0))) false
      s.chip.quiet.rowRefusal z.next (stop - z.next) = none →
      (stop = z.stop → exec (.bmZeroRowDone 0 detail) s = .next (s.after fun c =>
        let d := queued c
        Chip.ok z.slot [] { d with cap := { d.cap with zero := zs } })) ∧
      (stop ≠ z.stop → exec (.bmZeroRowDone 0 detail) s = .next (s.after fun c =>
        let d := queued c
        { d with cap := { d.cap with zero := { z with next := stop } :: zs } }))) ∧
    (exec .fatPortReadLo s = .next (s.after fun c =>
      let e := c.fatAt (c.get F.FAT_PORT_ADDR_INDEX)
      Chip.answer rspOk (e % 2 ^ 128) { c with cap := { c.cap with snap := e } })) ∧
    (s.chip.is F.FAT_PORT_ADDR_AUTOINC = false →
      exec .fatPortReadHi s = .next (s.after fun c => c.answer rspOk (c.cap.snap >>> 128))) ∧
    (s.chip.is F.FAT_PORT_ADDR_AUTOINC = true →
      exec .fatPortReadHi s = .next (s.after fun c =>
        (c.set F.FAT_PORT_ADDR_INDEX ((c.get F.FAT_PORT_ADDR_INDEX + 1) % 131072)).answer rspOk (c.cap.snap >>> 128))) ∧
    (∀ k : Fin 16, exec (.capPeCntClr k 1) s = .next (s.after fun c => (c.set (F.CAP_FWORDS_COUNT k) 0).answer rspOk 0))

/-- R154, R156, R162 to R164: what each command of class 0x05, opcodes 0x00 to 0x07, does once its packet is accepted. -/
def Obligations.CaptureCommandRows : Prop :=
  ∀ (s : State) (p : Pkt),
    (s.chip.quiet.accepts cmdCapStatus p →
      exec (.chCapStatus p) s = .next (s.after fun c =>
        let d := c.slotFor cmdCapStatus p
        let k := pf p.payload 0 4
        d.ok c.ch.nextId (natLe 8 d.capStat ++ natLe 8 (d.regWord (F.CAP_PE_CTL_EN k).off) ++ natLe 8 (d.capPeStat k) ++
          natLe 8 (c.get (F.CAP_FWORDS_COUNT k)) ++ natLe 8 (c.get (F.CAP_DROPPED_COUNT k)) ++
          natLe 8 (c.get (F.FAT_REJ_CNT_COUNT k)) ++ natLe 8 (c.get (F.BM_LOST_CNT_COUNT k))))) ∧
    (∀ k v g : Nat, s.chip.quiet.accepts cmdCapConfig p → k = pb p.payload 0 → v = pf p.payload 4 4 → g = pf p.payload 16 8 →
      s.chip.drained k = true →
      bmGeomBad (bits (pf p.payload 8 8) 47 10 * 1024) (bits g 4 0) (bits g 9 5) (bits g 11 10) = false →
      exec (.chCapConfig p) s = .next (s.after fun c =>
        let d := ((c.slotFor cmdCapConfig p).writeBm k (pf p.payload 8 8) g).2
        (((((d.set (F.CAP_PE_CTL_EN k) (bit v 0)).set (F.CAP_PE_CTL_FAT_EN k) (bit v 1)).set (F.CAP_PE_CTL_BM_EN k) (bit v 2)).set
          (F.CAP_PE_CTL_FFL_KEEP k) (bit v 3)).set (F.CAP_PE_CTL_CMASK_CH k) (bits v 31 16)).ok c.ch.nextId [])) ∧
    (s.chip.quiet.accepts cmdCapClear p → (pb p.payload 2).testBit 2 = false → (pb p.payload 2).testBit 3 = false →
      exec (.chCapClear p) s = .next (s.after fun c =>
        let ks := engines.filter (fun k => (pf p.payload 0 2).testBit k)
        let d := c.slotFor cmdCapClear p
        let d := if (pb p.payload 2).testBit 0 then d.forAll ks (fun k => Chip.capClearEng k) else d
        (if (pb p.payload 2).testBit 1 then d.forAll ks (fun k c => { c with cap := { c.cap with ffl := tdel k c.cap.ffl } }) else d).ok
          c.ch.nextId [])) ∧
    (s.chip.quiet.accepts cmdCapBmFlush p →
      exec (.chCapBmFlush p) s = .next (s.after fun c =>
        let d := (c.slotFor cmdCapBmFlush p).interim c.ch.nextId ST_ACCEPTED dtNone []
        Chip.flushDone { d with cap := { d.cap with
          flush := d.cap.flush ++ [c.ch.nextId]
          lines := d.cap.lines.map (fun l => if l.dirty && l.wb = 0 then { l with wb := 2 } else l) } })) ∧
    (∀ k : Nat, s.chip.quiet.accepts cmdCapBmZero p → k = pf p.payload 0 4 → s.chip.is F.CAP_STAT_BM_FAULT = false →
      s.chip.drained k = true →
      (∀ j : Nat, j < 16 → s.chip.is (F.CAP_PE_CTL_BM_EN j) = true → overlaps (s.chip.bmRange k) (s.chip.bmRange j) = true →
        s.chip.drained j = true) →
      exec (.chCapBmZero p) s = .next (s.after fun c =>
        let r := c.bmRange k
        let d := (c.slotFor cmdCapBmZero p).interim c.ch.nextId ST_ACCEPTED dtNone []
        ({ d with cap := { d.cap with
          lines := d.cap.lines.filter (fun l => !overlaps r (l.addr, l.addr + 1024))
          zero := d.cap.zero ++ [{ slot := c.ch.nextId, next := r.1, stop := r.2 }] } } : Chip).flushDone.retryHeads)) ∧
    (s.chip.quiet.accepts cmdCapFflRead p →
      exec (.chCapFflRead p) s = .next (s.after fun c =>
        (c.slotFor cmdCapFflRead p).ok c.ch.nextId
          ((((c.fflOf (pb p.payload 0)).drop (pf p.payload 2 2)).take (pf p.payload 4 2)).flatMap (natLe 32)))) ∧
    (s.chip.quiet.accepts cmdCapFatRead p → pb p.payload 6 = 0 →
      exec (.chCapFatRead p) s = .next (s.after fun c =>
        let i := pf p.payload 0 4
        let n := pf p.payload 4 2
        (c.slotFor cmdCapFatRead p).ok c.ch.nextId (natLe 4 ((i + n) % 131072) ++
          ((List.range n).map (fun j => c.fatAt ((i + j) % 131072))).flatMap (natLe 32)))) ∧
    (s.chip.quiet.accepts cmdCapLostRead p →
      exec (.chCapLostRead p) s = .next (s.after fun c =>
        (c.slotFor cmdCapLostRead p).ok c.ch.nextId (natLe (pf p.payload 4 2) (c.cap.lost >>> pf p.payload 0 4))))

/-- R172, R173, R176, R182, R185 to R187, R189: the rows of the repair-analysis engine. -/
def Obligations.RepairAnalysisRows : Prop :=
  ∀ s : State, s.chip.awake = true →
    (∀ (j e : Nat), s.chip.get F.RAE_STAT_STATE = 1 → s.chip.raeScan = some j → s.chip.fatAt j = e →
      s.chip.is F.RAE_STAT_SOURCE = false →
      exec .raeTake s = .next (s.after fun c =>
        let d := (c.fatTake j).inc F.RAE_CNT_TAKES_COUNT
        (Chip.raeProcess e { d with rae := { d.rae with scan := (j + 1) % 131072 } }).raeDrained)) ∧
    (∀ (j e : Nat), s.chip.get F.RAE_STAT_STATE = 1 → s.chip.raeScan = some j → s.chip.fatAt j = e →
      s.chip.is F.RAE_STAT_SOURCE = true →
      exec .raeTake s = .next (s.after fun c =>
        let d := (c.fatTake j).inc F.RAE_CNT_TAKES_COUNT
        (Chip.raeSend e { d with rae := { d.rae with scan := (j + 1) % 131072 } }).raeDrained)) ∧
    (∀ (k : Fin 16) (v : Wide), s.chip.raeActive = true → s.chip.is (F.RAE_SRC_LISTED k) = true →
      exec (.raeImportWrite k false v) s = .next (s.after fun c =>
        Chip.answer rspOk 0 { c with rae := { c.rae with impLo := tput 0 k v.toNat c.rae.impLo } })) ∧
    (∀ (k : Fin 16) (v : Wide), s.chip.raeActive = true → s.chip.is (F.RAE_SRC_LISTED k) = true →
      bits (tget 0 k s.chip.rae.impLo + v.toNat * 2 ^ 128) 215 213 = 2 →
      exec (.raeImportWrite k true v) s = .next (s.after fun c =>
        ((c.inc F.RAE_CNT_TAKES_COUNT).set (F.RAE_SRC_END_SEEN k) 1).answer rspOk 0)) ∧
    (∀ (k : Fin 16) (upper : Bool) (v : Wide), (s.chip.raeActive = false ∨ s.chip.is (F.RAE_SRC_LISTED k) = false) →
      exec (.raeImportWrite k upper v) s = .next (s.after fun c => c.answer rspState 0)) ∧
    (∀ k : Fin 16, s.chip.get F.RAE_STAT_STATE = 2 → s.chip.rae.drained = true → s.chip.rae.abort = false →
      s.chip.is (F.RAE_SRC_LISTED k) = true → s.chip.is (F.RAE_SRC_END_SEEN k) = false → s.chip.rae.gone.testBit k = false →
      s.chip.geoms = [] →
      exec (.raeSrcTimeout k) s = .next (s.after fun c =>
        Chip.raise EV_RA_SOURCE_LOST (c.get (F.RAE_SRC_DEV k)) { c with rae := { c.rae with gone := setBit c.rae.gone k } })) ∧
    (∀ (g : Geom) (d : Nat) (t : Chip), s.chip.raeDeciding = true → s.chip.is F.RAE_STAT_SOURCE = false → s.chip.rae.queue = [] →
      s.chip.rae.lostIn = true → s.chip.quiet.raeNextUnit s.chip.geoms 1048577 s.chip.rae.cursor = (some (g, d), t) →
      exec .raeDecideDomain s = .next (s.after fun _ => (t.raeDecideUnit g d).ringPump)) ∧
    (∀ (idx : Fin 512) (ep : Fin 4) (ns : Nat) (o : NOut) (r : NRsp),
      s.chip.net.outs.find? (fun o => o.isRaeRecord && o.req.idx = idx.val && o.req.ep = ep.val) = some o →
      s.chip.net.rsps.find? (fun r => r.ni = o.req.ni && r.idx = idx.val && r.ep = ep.val) = some r →
      exec (.raeRecordResponse idx ep ns) s = .next (s.after fun c => (c.rspArrive r ns).netServe)) ∧
    (∀ ep : Nat, s.chip.rae.writing = true → ep = s.chip.get F.RAE_STAT_EPOCH →
      s.chip.raeRecord ep rspOk = Chip.ringPump (Chip.set F.RAE_OUT_WR_COUNT (s.chip.get F.RAE_OUT_WR_COUNT + 1)
        { s.chip with rae := { s.chip.rae with queue := s.chip.rae.queue.drop 1, writing := false } })) ∧
    (s.chip.is F.RAE_STAT_RING_WAIT = true → s.chip.rae.waited = false →
      exec .raeRingWaitLong s = .next (s.after fun c =>
        Chip.raise EV_RA_RING_FULL (c.get F.RAE_OUT_WR_COUNT) { c with rae := { c.rae with waited := true } })) ∧
    (∀ (rsp : Fin 6) (detail : Byte), s.chip.get F.RAE_STAT_STATE ≠ 5 → s.chip.rae.zeroing = none → s.chip.rae.final = none →
      exec (.raeMemoryResponse rsp detail true) s = .next (s.after fun c =>
        let d := (c.set F.RAE_STAT_STATE 5).set F.RAE_STAT_RING_WAIT 0
        Chip.raise EV_RA_FAULT (1 + detail.toNat * 256) { d with rae := d.rae.quiet })) ∧
    (∀ (id : Nat) (k : Slot), s.chip.rae.zeroing = some id → s.chip.slot? id = some k → s.chip.quiet.zeroRefusal = none →
      exec .raeZeroingDone s = .next (s.after fun c =>
        let b := c.get F.RAE_CTX_BASE_ADDR
        let bad := c.dr.bad.filter (fun g => decide (g < b) || decide (b + 2 ^ 26 ≤ g))
        Chip.ok id [] (Chip.raeOpen k.payload 1 { c with mem := memZero b (b + 2 ^ 26) c.mem, dr := { c.dr with bad := bad } }))) ∧
    (∀ (id : Nat) (r : Rsp), s.chip.rae.zeroing = some id → s.chip.quiet.zeroRefusal = some r →
      exec .raeZeroingDone s = .next (s.after (Chip.raeAnswer r))) ∧
    (s.chip.raeDeciding = true → s.chip.rae.queue = [] → s.chip.is F.RAE_STAT_SOURCE = true → s.chip.rae.ended = true →
      s.chip.rae.imports = 0 →
      exec .raeFinalDone s = .next (s.after fun c =>
        Chip.raeReply ST_OK dtNone (natLe 24 0) ((c.set F.RAE_STAT_STATE 3).raise EV_RA_DONE 0))) ∧
    (exec (.raeCntClr 5) s = .next (s.after fun c =>
      ((c.set F.RAE_CNT_TAKES_COUNT 0).set F.RAE_CNT_DISCARDED_COUNT 0).answer rspOk 0)) ∧
    (∀ data : Word, exec (.raeOutRdWrite data) s = .next (s.after fun c =>
      (c.set F.RAE_OUT_RD_COUNT data.toNat).ringPump.answer rspOk 0))

/-- R189, R190 and Table 6.12: what each command of class 0x05, opcodes 0x10 to 0x17, does once its packet is accepted. -/
def Obligations.RepairAnalysisCommandRows : Prop :=
  ∀ (s : State) (p : Pkt),
    (s.chip.quiet.accepts cmdRaStatus p →
      exec (.chRaStatus p) s = .next (s.after fun c =>
        let d := c.slotFor cmdRaStatus p
        d.ok c.ch.nextId
          (natLe 8 (d.regWord 0x500000) ++ natLe 8 (c.get F.RAE_POOL_USED_BLOCKS) ++ natLe 8 (c.get F.RAE_OUT_WR_COUNT) ++
            natLe 8 (c.get F.RAE_CNT_TAKES_COUNT) ++ natLe 8 (c.get F.RAE_CNT_DISCARDED_COUNT)))) ∧
    (s.chip.quiet.accepts cmdRaRecipeLoad p → s.chip.raeActive = false →
      exec (.chRaRecipeLoad p) s = .next (s.after fun c =>
        let d := (c.slotFor cmdRaRecipeLoad p).forAll (List.range (pf p.payload 2 2)) (fun i =>
          Chip.set (F.RAE_RECIPE_W ((pf p.payload 0 2 + i) / 2) ((pf p.payload 0 2 + i) % 2)) (pf p.payload (8 + 4 * i) 4))
        (d.set F.RAE_STAT_RECIPE_VALID 0).ok c.ch.nextId [])) ∧
    (∀ gs : List Geom, s.chip.quiet.accepts cmdRaRecipeCommit p → s.chip.raeActive = false →
      s.chip.recipeTry (pf p.payload 0 4) = .ok gs →
      exec (.chRaRecipeCommit p) s = .next (s.after fun c =>
        let d := c.slotFor cmdRaRecipeCommit p
        Chip.ok c.ch.nextId [] (Chip.set F.RAE_STAT_RECIPE_VALID 1 { d with rae := { d.rae with words := pf p.payload 0 4 } }))) ∧
    (∀ i : Nat, s.chip.quiet.accepts cmdRaRecipeCommit p → s.chip.raeActive = false →
      s.chip.recipeTry (pf p.payload 0 4) = .error i →
      exec (.chRaRecipeCommit p) s = .next (s.after fun c =>
        (c.slotFor cmdRaRecipeCommit p).finish c.ch.nextId ST_BAD_PARAM dtRecipeError (natLe 4 i))) ∧
    (s.chip.quiet.accepts cmdRaBegin p → s.chip.raeActive = false → s.chip.get F.RAE_STAT_STATE ≠ 5 →
      s.chip.rae.zeroing = none → (pb p.payload 0 = 0 → s.chip.is F.RAE_STAT_RECIPE_VALID = true) → s.chip.raeAreaBad = false →
      s.chip.rae.zeroed = true → s.chip.get F.RAE_STAT_EPOCH < 255 →
      exec (.chRaBegin p) s = .next (s.after fun c =>
        (Chip.raeOpen p.payload (c.get F.RAE_STAT_EPOCH + 1) (c.slotFor cmdRaBegin p)).ok c.ch.nextId [])) ∧
    (s.chip.quiet.accepts cmdRaBegin p → s.chip.raeActive = false → s.chip.get F.RAE_STAT_STATE ≠ 5 →
      s.chip.rae.zeroing = none → (pb p.payload 0 = 0 → s.chip.is F.RAE_STAT_RECIPE_VALID = true) → s.chip.raeAreaBad = false →
      s.chip.rae.zeroed = false →
      exec (.chRaBegin p) s = .next (s.after fun c =>
        let d := c.slotFor cmdRaBegin p
        Chip.interim c.ch.nextId ST_ACCEPTED dtNone [] { d with rae := { d.rae with zeroing := some c.ch.nextId } })) ∧
    (s.chip.quiet.accepts cmdRaFinal p → s.chip.get F.RAE_STAT_STATE = 1 →
      (∀ k ∈ engines, s.chip.is (F.CAP_PE_CTL_FAT_EN k) = true → s.chip.drained k = true) →
      exec (.chRaFinal p) s = .next (s.after fun c =>
        let d := (c.slotFor cmdRaFinal p).interim c.ch.nextId ST_ACCEPTED dtNone []
        Chip.raeDrained (Chip.set F.RAE_STAT_STATE 2
          { d with rae := { d.rae with final := some c.ch.nextId, clean := (pb p.payload 0).testBit 0, abort := false,
                                       cursor := 0 } }))) ∧
    (s.chip.quiet.accepts cmdRaEnd p → s.chip.rae.final = none →
      exec (.chRaEnd p) s = .next (s.after fun c =>
        let d := c.slotFor cmdRaEnd p
        let e : Chip := { d with rae := d.rae.quiet }
        (((e.set F.RAE_STAT_STATE 0).set F.RAE_STAT_SOURCE 0).set F.RAE_STAT_RING_WAIT 0).ok c.ch.nextId [])) ∧
    (∀ (bs : List Byte) (t : Chip), s.chip.quiet.accepts cmdRaCtxRead p →
      (s.chip.quiet.slotFor cmdRaCtxRead p).ctxReads (pf p.payload 4 2) (pf p.payload 0 4) [] = ((rspOk, bs), t) →
      exec (.chRaCtxRead p) s = .next (s.after fun _ => t.ok s.chip.ch.nextId bs)) ∧
    (∀ (bs : List Byte) (t : Chip), s.chip.quiet.accepts cmdRaRingRead p → s.chip.is F.RAE_OUT_BASE_REMOTE = false →
      (s.chip.quiet.slotFor cmdRaRingRead p).recordReads
        ((List.range (pf p.payload 4 2)).map (fun i => s.chip.ringAddr (pf p.payload 0 4 + i))) [] = ((rspOk, bs), t) →
      exec (.chRaRingRead p) s = .next (s.after fun _ => t.ok s.chip.ch.nextId bs))

/-- R193, R198, R201, R205, R206, R208, R212 to R214, R218, Tables 7.3, 7.6, 7.8 to 7.10: the rows of the fabric. -/
def Obligations.FabricRows : Prop :=
  ∀ s : State, s.chip.awake = true →
    (∀ (r : Fin 192) (stop : Nat), s.chip.stops.find? (fun q => q.1 = r.val ∧ q.2.1 = 2) = some (r.val, 2, stop) →
      s.chip.rgState r = rgRun →
      exec (.stopRequestArrival r 2) s = .next (s.after fun c =>
        Chip.setRg r (fun g => { g with pendC := some stop }) { c with stops := c.stops.erase (r.val, 2, stop) })) ∧
    (∀ (r : Fin 192) (stop : Nat), s.chip.rgState r = rgRun → s.chip.candidates r = [(2, stop)] →
      s.chip.stopState r stop = ssReady → stop ≠ s.chip.gov r → s.chip.lg.reload = none →
      exec (.stopSwitchDecision r) s = .next (s.after fun c =>
        Chip.bcastSeen r ((c.setRg r (fun g => { g with pendC := none, pendE := none, design := none })).set
          (F.FAB_RG_STAT_GOV r) stop))) ∧
    (∀ (r : Fin 192) (stop : Nat), s.chip.rgState r = rgRun → s.chip.candidates r = [(2, stop)] →
      s.chip.stopState r stop ≠ ssReady →
      exec (.stopSwitchDecision r) s = .next (s.after fun c =>
        Chip.bcastSeen r (((c.setRg r (fun g => { g with pendC := none, pendE := none, design := none })).inc
          (F.FAB_RG_CNT_REFUSED r)).flagEvent (F.FAB_RG_STAT_SS_REFUSED r) EV_FAB_STOP_REFUSED (r + stop * 256 + 2 * 2048)))) ∧
    (∀ (a b : Fin 192) (bore : Fin 800) (upper : Bool) (gate k own w : Nat), gate = 2 * bore.val + b2n upper →
      gateKey a b gate = some k → gateKey b a gate = some own →
      tfind own (s.chip.rg a).sent = some w → (k < 8 ∨ s.chip.boreMasked (min a b) ((k - 8) / 2) = false) →
      let heard := fun c : Chip => c.setRg a (fun g => { g with sent := tdel own g.sent })
      (s.chip.rgState b = rgRun → tget 0 b s.chip.net.doms % 4 = 0 → (tget [] k (s.chip.rg b).gates).length < 16 →
        exec (.gateWordArrival a b bore upper) s = .next (s.after fun c =>
          (heard c).setRg b (fun g => { g with gates := tset k (tget [] k (c.rg b).gates ++ [w]) g.gates }))) ∧
      (s.chip.rgState b = rgOff ∨ s.chip.rgState b = rgRetired ∨ tget 0 b s.chip.net.doms % 4 ≠ 0 →
        exec (.gateWordArrival a b bore upper) s = .next (s.after fun c =>
          ((heard c).inc (F.FAB_RG_GDISC_COUNT a)).flagEvent (F.FAB_RG_STAT_GDISC a) EV_FAB_GATE_DISCARD a)) ∧
      (tget 0 b s.chip.net.doms % 4 = 0 →
        (s.chip.rgState b = rgHeld ∨ s.chip.rgState b = rgRun ∧ 16 ≤ (tget [] k (s.chip.rg b).gates).length) →
        exec (.gateWordArrival a b bore upper) s = .next (s.after id))) ∧
    (∀ (r : Fin 192) (lines : BitVec 4), (s.chip.rg r).rose &&& lines.toNat = 5 → s.chip.get (F.FAB_RG_CTL_PARTY_EV r) = 15 → (s.chip.rg r).partyAt = [] →
      exec (.partyLineRise r lines) s = .next (s.after fun c =>
        let now := c.get F.WW_TB_TIME
        ((c.setRg r (fun g => { g with rose := g.rose &&& (15 - lines.toNat) })).setRg r (fun g => { g with partyAt := tset 2 now (tset 0 now g.partyAt) })).raise
          EV_FAB_PARTY (r + 5 * 256))) ∧
    (∀ (r : Fin 192) (mhz : BitVec 16), exec (.roMeasure r mhz) s = .next (s.after fun c =>
      c.set (F.FAB_RG_STAT_RO_MEAS r) (if c.get (F.FAB_RG_CTL_CLKSRC r) = 1 then mhz.toNat else 0))) ∧
    (∀ v : Word, (v.toNat.testBit 3 = false ∨ s.chip.is F.FAB_BCAST_GO = true) →
      exec (.fabBcastGo v) s = .next (s.after fun c => (c.set F.FAB_BCAST_STOP (bits v.toNat 2 0)).answer rspOk 0)) ∧
    (∀ v : Word, v.toNat.testBit 3 = true → s.chip.is F.FAB_BCAST_GO = false → s.chip.bcastBad (bits v.toNat 2 0) s.chip.bcastMask = false →
      exec (.fabBcastGo v) s = .next (s.after fun c =>
        (((c.set F.FAB_BCAST_STOP (bits v.toNat 2 0)).set F.FAB_BCAST_GO 1).sendBcast none (bits v.toNat 2 0) c.bcastMask).answer
          rspOk 0)) ∧
    (∀ (r : Fin 192) (v : Word), bits v.toNat 1 0 ≠ 3 → 1 ≤ bits v.toNat 10 4 → bits v.toNat 10 4 ≤ 80 →
      (s.chip.rgState r = rgHeld ∨ s.chip.rgState r = rgOff) → bits v.toNat 1 0 = 1 → v.toNat.testBit 63 = true →
      exec (.fabRgClrCnt r v) s = .next (s.after fun c =>
        let d := ((((c.set (F.FAB_RG_CTL_CLKSRC r) 1).set (F.FAB_RG_CTL_POSC r) (bits v.toNat 3 2)).set (F.FAB_RG_CTL_RO_SET r)
          (bits v.toNat 10 4)).set (F.FAB_RG_CTL_USS_EN r) (bit v.toNat 11)).set (F.FAB_RG_CTL_PARTY_EV r) (bits v.toNat 15 12)
        (((d.set (F.FAB_RG_CNT_LOST r) 0).set (F.FAB_RG_CNT_REFUSED r) 0).set (F.FAB_RG_GDISC_COUNT r) 0).answer rspOk 0)) ∧
    (∀ (r : Fin 192) (v : Word), bits v.toNat 3 2 ≠ 3 → s.chip.is (F.FAB_RG_CAPCTL_ARM r) = false →
      s.chip.bankState r 15 < 2 → v.toNat.testBit 0 = true → v.toNat.testBit 1 = false →
      exec (.fabRgCapctlArm r v) s = .next (s.after fun c =>
        ((((c.set (F.FAB_RG_CAPCTL_TMODE r) (bits v.toNat 3 2)).set (F.FAB_RG_CAPCTL_TPARTY r) (bits v.toNat 5 4)).set
          (F.FAB_RG_CAPCTL_TRIG_POS r) (bits v.toNat 25 16)).capArm r).answer rspOk 0)) ∧
    (∀ (r : Fin 192) (v : Word), bits v.toNat 3 2 ≠ 3 → s.chip.is (F.FAB_RG_CAPCTL_ARM r) = false →
      v.toNat.testBit 0 = false → v.toNat.testBit 1 = true →
      exec (.fabRgCapctlStop r v) s = .next (s.after fun c =>
        ((((c.set (F.FAB_RG_CAPCTL_TMODE r) (bits v.toNat 3 2)).set (F.FAB_RG_CAPCTL_TPARTY r) (bits v.toNat 5 4)).set
          (F.FAB_RG_CAPCTL_TRIG_POS r) (bits v.toNat 25 16)).capStop r).answer rspOk 0)) ∧
    (∀ r : Fin 192, s.chip.get (F.FAB_RG_CAPSTAT_CSTATE r) = csArmed → (s.chip.rg r).capHit = true →
      exec (.captureTrigger r) s = .next (s.after fun c =>
        let pos := c.get (F.FAB_RG_CAPCTL_TRIG_POS r)
        (((c.set (F.FAB_RG_CAPSTAT_CSTATE r) csTriggered).set (F.FAB_RG_CAPSTAT_TRIG r) (((c.rg r).capIdx + 1023) % 1024)).set
          (F.FAB_RG_CAPSTAT_SHORT r) (b2n (decide ((c.rg r).capSeen - 1 < pos)))).setRg r (fun g => { g with capLeft := 1023 - pos }))) ∧
    (∀ r : Fin 192, s.chip.get (F.FAB_RG_CAPSTAT_CSTATE r) = csTriggered → (s.chip.rg r).capLeft = 0 → 1024 ≤ (s.chip.rg r).capSeen →
      exec (.captureDone r) s = .next (s.after fun c =>
        let d := ((c.set (F.FAB_RG_CAPSTAT_CSTATE r) csDone).set (F.FAB_RG_CAPCTL_ARM r) 0).set (F.FAB_RG_CAPSTAT_START r)
          (c.rg r).capIdx
        (d.set (F.FAB_RG_CAPSTAT_COUNT r) 1024).raise EV_FAB_CAP_DONE (r + d.get (F.FAB_RG_CAPSTAT_TRIG r) * 256))) ∧
    (∀ (j : Fin 32) (v : Word), bits v.toNat 2 0 = 0 → (spPins v.toNat).all (fun p => decide (p ≤ 95)) = true →
      (∀ i < 32, s.chip.get (F.SPORT_CTL_MODE i) = 0) →
      exec (.spCtlWrite j v) s = .next (s.after fun c =>
        let d := c.forAll [F.SPORT_CTL_MODE j, F.SPORT_CTL_HOST j, F.SPORT_CTL_SPIMODE j, F.SPORT_CTL_PAR_EN j, F.SPORT_CTL_PAR_ODD j,
          F.SPORT_CTL_DIV j] (fun f => Chip.set f (bits v.toNat (f.lo + f.w - 1) f.lo))
        (((d.setSport j (fun p => { p with busy := false })).forAll (List.range 4) (fun i =>
          Chip.set (F.SPORT_CTL_PIN j i) (bits v.toNat (32 + 8 * i + 6) (32 + 8 * i)))).spOwners).answer rspOk 0)) ∧
    (∀ (j : Fin 32) (v : Word), s.chip.is (F.SPORT_CTL_HOST j) = true → (s.chip.sport j).tx.length < 64 →
      exec (.spTxWrite j v) s = .next (s.after fun c =>
        (c.setSport j (fun p => { p with tx := p.tx ++ [v.toNat % 4096] })).answer rspOk 0)) ∧
    (∀ (j : Fin 32) (b : Nat) (q : List Nat), s.chip.is (F.SPORT_CTL_HOST j) = true → (s.chip.sport j).rx = b :: q →
      exec (.spRxRead j) s = .next (s.after fun c =>
        ((c.setSport j (fun p => { p with rx := q })).portSettle j).answer rspOk (b + 256))) ∧
    (∀ (j : Fin 32) (b : Byte), s.chip.get (F.SPORT_CTL_MODE j) ≠ 0 → (s.chip.sport j).rx.length < 64 →
      exec (.serialByteReceived j b false false) s = .next (s.after fun c =>
        (c.setSport j (fun p => { p with rx := p.rx ++ [b.toNat] })).portSettle j)) ∧
    (∀ (j : Fin 32) (b : Byte), s.chip.get (F.SPORT_CTL_MODE j) ≠ 0 → 64 ≤ (s.chip.sport j).rx.length →
      exec (.serialByteReceived j b false false) s = .next (s.after fun c =>
        c.flagEvent (F.SPORT_STAT_RX_OVR j) EV_FAB_SERIAL (j + 32))) ∧
    (∀ (j : Fin 32) (w : Nat) (q : List Nat), (s.chip.sport j).tx = w :: q → s.chip.get (F.SPORT_CTL_MODE j) ≠ 0 →
      exec (.serialByteSent j) s = .next (s.after fun c =>
        let m := c.get (F.SPORT_CTL_MODE j)
        ((c.setSport j (fun p => { p with tx := q, busy := (m = 1 || m = 4) && !w.testBit 9 })).serialOut j (sendSigs m w)).portSettle
          j)) ∧
    (∀ (r : Fin 192) (auxIn : Bool) (riser ports : List Nat), s.chip.rgState r = rgRun →
      exec (.regionClockEdge r auxIn riser ports) s = .next (s.after fun c =>
        let fs := c.govFrames r
        let g := c.rg r
        let lv := partyLevels fs g.ff
        let rose := lv &&& (15 - c.get (F.FAB_RG_STAT_PARTY r))
        let d := (c.set (F.FAB_RG_STAT_PARTY r) lv).setRg r (fun _ => { g.gatesEdge with
          ff := ffsAfter fs g.ff (c.inputsOf r auxIn riser ports) c.freeCtr
          bnd := bndAfter fs g.ff g.bnd (c.inputsOf r auxIn riser ports) c.freeCtr
          rose := g.rose ||| rose
          design := if bndLevel g.bnd .stopReq then some (bndBits g.bnd 3 (fun i => .stopSel i)) else none })
        ((d.freeNext.capSample r (bndBits g.bnd 64 (fun i => .tap i)) rose).serialEdge r g.bnd).auxEdge r auxIn))

/-- R218 and R220: what each command of class 0x0B does once its packet is accepted and its region is not RETIRED. -/
def Obligations.FabricCommandRows : Prop :=
  ∀ (s : State) (p : Pkt),
    (∀ r : Nat, s.chip.quiet.accepts cmdFabStatus p → r = pf p.payload 0 4 → s.chip.rgState r ≠ rgRetired →
      exec (.chFabStatus p) s = .next (s.after fun c =>
        let d := c.slotFor cmdFabStatus p
        d.ok c.ch.nextId (natLe 8 (d.regWord (F.FAB_RG_STAT_GOV r).off) ++
          natLe 8 (d.regWord (F.FAB_RG_CTL_CLKSRC r).off) ++ natLe 8 (d.regWord (F.FAB_RG_CNT_LOST r).off) ++
          natLe 8 (d.regWord (F.FAB_RG_CAPSTAT_CSTATE r).off) ++ natLe 8 (c.get (F.FAB_RG_GDISC_COUNT r))))) ∧
    (∀ j : Nat, s.chip.quiet.accepts cmdFabProbe p → j = pb p.payload 0 → s.chip.rgState (pb p.payload 1) ≠ rgRetired →
      exec (.chFabProbe p) s = .next (s.after fun c =>
        (((((c.slotFor cmdFabProbe p).set (F.PROBE_SEL_REGION j) (pb p.payload 1)).set (F.PROBE_SEL_TAP j)
          (bits (pb p.payload 2) 5 0)).set (F.PROBE_SEL_EN j) (bit (pb p.payload 2) 7)).probeSettle j).ok c.ch.nextId [])) ∧
    (∀ r : Nat, s.chip.quiet.accepts cmdFabCapArm p → r = pb p.payload 0 → s.chip.rgState r = rgRun → s.chip.capBusy r = false →
      s.chip.bankState r 15 < 2 →
      exec (.chFabCapArm p) s = .next (s.after fun c =>
        let d := (((c.slotFor cmdFabCapArm p).set (F.FAB_RG_CAPCTL_TMODE r) (bits (pb p.payload 1) 1 0)).set
          (F.FAB_RG_CAPCTL_TPARTY r) (bits (pb p.payload 1) 3 2)).set (F.FAB_RG_CAPCTL_TRIG_POS r) (pf p.payload 2 2)
        (((d.set (F.FAB_RG_TRIGVAL_VAL r) (pf p.payload 8 8)).set (F.FAB_RG_TRIGMASK_MASK r) (pf p.payload 16 8)).capArm r).ok
          c.ch.nextId [])) ∧
    (∀ r : Nat, s.chip.quiet.accepts cmdFabCapStop p → r = pf p.payload 0 4 → s.chip.rgState r ≠ rgRetired →
      exec (.chFabCapStop p) s = .next (s.after fun c => ((c.slotFor cmdFabCapStop p).capStop r).ok c.ch.nextId [])) ∧
    (∀ r : Nat, s.chip.quiet.accepts cmdFabCapRead p → r = pb p.payload 0 → s.chip.rgState r ≠ rgRetired →
      s.chip.get (F.FAB_RG_CAPSTAT_CSTATE r) = csDone →
      exec (.chFabCapRead p) s = .next (s.after fun c =>
        let n := min (pf p.payload 4 2) (c.get (F.FAB_RG_CAPSTAT_COUNT r) - pf p.payload 2 2)
        (c.slotFor cmdFabCapRead p).ok c.ch.nextId ((List.range n).flatMap (fun i =>
          memRead (capAddr r ((c.get (F.FAB_RG_CAPSTAT_START r) + pf p.payload 2 2 + i) % 1024)) 8 c.mem))))

/-- R207, R208, R225, R227, R232, R234 to R237, R241, R243 and R248: the rows of image loading and paging. -/
def Obligations.ConfigurationRows : Prop :=
  ∀ s : State, s.chip.awake = true →
    (∀ (r : Fin 192) (p : Paging) (t : Nat × Nat), s.chip.cfg.page = some p → s.chip.rgState r = rgRun →
      p.toMark.find? (fun t => t.1 = r.val) = some t → (s.chip.rg r).pendC ≠ some t.2 → s.chip.lg.reload = none →
      s.chip.governs r t.2 = false →
      exec (.stopMark r) s = .next (s.after fun c =>
        let st := c.stopState t.1 t.2
        let d := c.set (F.FAB_RG_STAT_STOPST t.1 t.2) ssLoading
        { d with cfg := { d.cfg with
          page := some { p with toMark := p.toMark.filter (fun x => x ≠ t), marked := p.marked ++ [(t.1, t.2, st)] } } })) ∧
    (∀ (p : Paging) (id : Nat) (v f : BitVec 192) (t : Chip), s.chip.cfg.page = some p → p.toMark = [] → p.why = .command id →
      s.chip.quiet.slotRead p.slot = (none, t) →
      (∀ x ∈ p.left, v.toNat.testBit x.1 = true ∧ f.toNat.testBit x.1 = false) →
      exec (.pagingDone v f) s = .next (s.after fun _ =>
        let d := t.forAll p.left (fun x => Chip.writeStop x.1 x.2 p.slot)
        (d.forAll p.left (fun x => Chip.readyStop x.1 x.2 p.slot)).pageEnd { p with left := [] } ST_OK dtNone)) ∧
    (∀ (p : Paging) (v f : BitVec 192) (st dt : Nat) (t : Chip), s.chip.cfg.page = some p → p.toMark = [] →
      s.chip.quiet.slotRead p.slot = (some (st, dt), t) →
      exec (.pagingDone v f) s = .next (s.after fun _ => t.pageEnd p st dt)) ∧
    (∀ l : Load, s.chip.cfg.load = some l → l.final = true → l.kind = 1 → l.golden = false → l.filled = [] → l.targets = [] →
      l.slot = none → l.more = [] →
      exec .signatureVerified s = .next (s.after fun c =>
        if slhVerify256s ((l.header.drop 80).take 64) (l.header ++ l.chain) l.sig then
          ((((Chip.measure l { c with cfg := { c.cfg with load := none } }).cfgPhase 0 1).raise EV_CFG_LOADED
            (1 + bits (pf l.header 12 4) 15 0 * 65536)).probeAll.pageNext).loadRun
        else c.loadFail ST_AUTH_FAIL dtSignature)) ∧
    (∀ (r : Fin 192) (id k : Nat) (re : Bool), s.chip.cfg.rewrite = some (id, k, r.val, re) → s.chip.lg.reload = none →
      s.chip.rgState r ≠ rgRetired →
      exec (.rewriteHold r) s = .next (s.after fun c =>
        let b : Chip := { c with cfg := { c.cfg with rewrite := none } }
        let d := (b.holdRegion r hwyConfig).set (F.FAB_RG_STAT_STOPST r (b.gov r)) ssLoading
        let e : Chip := { d with cfg := { d.cfg with src := tdel (rsKey r (d.gov r)) d.cfg.src } }
        Chip.pageAsk { Paging.new (.rewrite id r re) k [(r.val, e.gov r)] [] with marked := [(r.val, e.gov r, ssLoading)] } e)) ∧
    (∀ (r : Fin 192) (id k : Nat) (re : Bool), s.chip.cfg.rewrite = some (id, k, r.val, re) → s.chip.lg.reload = none →
      s.chip.rgState r = rgRetired →
      exec (.rewriteHold r) s = .next (s.after fun c =>
        Chip.fail id ST_RETIRED dtNone { c with cfg := { c.cfg with rewrite := none } })) ∧
    (∀ l : Load, s.chip.cfg.load = some l → l.flash = false → l.dram = false → l.final = false → l.slot = none →
      (l.complete = false → exec .loadStallTimeout s = .next (s.after fun c => (c.loadFail ST_TIMEOUT dtStall).pageSettle)) ∧
      (l.complete = true → exec .loadStallTimeout s = .next (s.after id))) ∧
    (∀ (l : Load) (t : List Byte), s.chip.cfg.load = some l → l.flash = true → l.table ≠ 0 →
      (tableOk t = true → exec (.flashSegmentRead (.table t)) s = .next (s.after fun c =>
        let d := c.set F.CFG_STAT_TBL_COPY (l.table - 1)
        Chip.xspiRead (pf t 8 4) (pb t 6) (pf t 12 4) { d with cfg := { d.cfg with
          golden := if pf t 20 4 = 0 then none else some (pf t 16 4, pf t 20 4, pb t 6)
          load := some { l with table := 0, limit := some (pf t 12 4) } } })) ∧
      (tableOk t = false → l.table = 1 → exec (.flashSegmentRead (.table t)) s = .next (s.after fun c =>
        Chip.xspiRead 0x10000 20 64 { c with cfg := { c.cfg with load := some { l with table := 2 } } })) ∧
      (tableOk t = false → l.table ≠ 1 → exec (.flashSegmentRead (.table t)) s = .next (s.after fun c =>
        Chip.loadFail ST_BAD_PARAM dtNoFlash { c with cfg := { c.cfg with golden := none } }))) ∧
    (∀ (l : Load) (bs : List Byte), s.chip.cfg.load = some l → l.flash = true → l.table = 0 → l.final = false → l.limit = none →
      exec (.flashSegmentRead (.image bs)) s = .next (s.after fun c => c.loadFeed bs none)) ∧
    (∀ (l : Load) (bs : List Byte) (n : Nat), s.chip.cfg.load = some l → l.flash = true → l.table = 0 → l.final = false →
      l.limit = some n →
      exec (.flashSegmentRead (.image bs)) s = .next (s.after fun c => c.loadFeed (bs.take (n - l.next)) none)) ∧
    (∀ (ni : Fin 288) (v : Wide) (q t k a : Nat), 96 ≤ ni.val → q = ni.val - 96 → t = bits v.toNat 7 0 → k = bits v.toNat 23 12 →
      a = bits v.toNat 111 64 → s.chip.cfg.page = none → s.chip.cfg.waiting = [] →
      s.chip.cfg.grants.any (fun g => g.req = q && decide (g.first ≤ t) && decide (t ≤ g.last) && g.stops.testBit (bits v.toNat 10 8) &&
        decide (g.slotLo ≤ k) && decide (k ≤ g.slotHi)) = true →
      t < 192 → s.chip.slotState k = slValid → a % 8 = 0 → 0x10000000000 + q * 0x100000 ≤ a →
      a + 8 ≤ 0x10000000000 + q * 0x100000 + 0x100000 → (s.chip.rgState t = rgRun ∨ s.chip.rgState t = rgHeld) →
      (s.chip.vmapMeets t (s.chip.slotVmap k) = false →
        exec (.tongueReqWrite ni true v) s = .next (s.after fun c =>
          (c.pageAsk (Paging.new (.tongue q a (bits v.toNat 127 112)) k [(t, bits v.toNat 10 8)] [(t, bits v.toNat 10 8)])).answer
            rspOk 0)) ∧
      (s.chip.vmapMeets t (s.chip.slotVmap k) = true →
        exec (.tongueReqWrite ni true v) s = .next (s.after fun c => (c.tongueDone a (bits v.toNat 127 112) 2).answer rspOk 0))) ∧
    (∀ (ni : Fin 288) (v : Wide), ni.val < 96 → exec (.tongueReqWrite ni true v) s = .next (s.after fun c => c.answer rspDenied 0)) ∧
    (∀ (ni : Fin 288) (v : Wide), exec (.tongueReqWrite ni false v) s = .next (s.after fun c => c.answer rspAlign 0))

/-- R208, R222 to R224, R227, R233, R240, R241 and R250: what each command of class 0x01 does once its packet is accepted. -/
def Obligations.ConfigurationCommandRows : Prop :=
  ∀ (s : State) (p : Pkt),
    (s.chip.quiet.accepts cmdCfgStatus p →
      exec (.chCfgStatus p) s = .next (s.after fun c =>
        let d := c.slotFor cmdCfgStatus p
        d.ok c.ch.nextId (natLe 8 (d.regWord F.CFG_STAT_PHASE.off) ++ natLe 8 c.libUse ++ natLe 8 (d.regWord F.SEC_STAT_LC.off)))) ∧
    (s.chip.quiet.accepts cmdCfgLoadBegin p → s.chip.loadState (pb p.payload 0) (pb p.payload 1) = none →
      exec (.chCfgLoadBegin p) s = .next (s.after fun c =>
        let h := p.payload.drop 8
        let d := c.slotFor cmdCfgLoadBegin p
        match d.headerRefusal (pb p.payload 0) h with
        | some f =>
          let e := ((d.set F.CFG_STAT_LAST_STATUS f.1).set F.CFG_STAT_LAST_DETAIL f.2).set F.CFG_STAT_LAST_SEG 0
          (e.raise EV_CFG_LOAD_FAILED (f.1 + f.2 * 256)).fail c.ch.nextId f.1 f.2
        | none =>
          let e := if pb p.payload 0 = 0 then (d.enterConfiguring).set F.CFG_STAT_SRC_FLASH 0 else d
          let l := { Load.ofFlash false 0 none with
            kind := pb p.payload 0, flash := false, dram := false, region := pb p.payload 1, reinit := decide (pb p.payload 2 = 1) }
          Chip.ok c.ch.nextId [] (Chip.cfgPhase 2 (pb p.payload 0) { e with cfg := { e.cfg with load := some (e.openLoad l h) } }))) ∧
    (∀ l : Load, s.chip.quiet.accepts cmdCfgLoadData p → s.chip.cfg.load = some l → l.flash = false → l.dram = false →
      l.final = false → l.ending = false → pf p.payload 0 4 = l.next →
      (l.slot = none → exec (.chCfgLoadData p) s = .next (s.after fun c =>
        (c.slotFor cmdCfgLoadData p).loadFeed (p.payload.drop 8) (some c.ch.nextId))) ∧
      (∀ i : Nat, l.slot = some i → exec (.chCfgLoadData p) s = .next (s.after fun c =>
        let d := c.slotFor cmdCfgLoadData p
        { d with cfg := { d.cfg with load := some { l with
          next := l.next + (p.payload.drop 8).length, more := l.more ++ [(c.ch.nextId, some (p.payload.drop 8))] } } }))) ∧
    (∀ l : Load, s.chip.quiet.accepts cmdCfgLoadEnd p → s.chip.cfg.load = some l → l.flash = false → l.dram = false →
      l.final = false → l.ending = false → l.slot = none → l.kind ≠ 0 → pf l.header 18 2 < l.seg → l.buf = [] →
      l.next = pf l.header 20 4 →
      exec (.chCfgLoadEnd p) s = .next (s.after fun c =>
        let d := (c.slotFor cmdCfgLoadEnd p).interim c.ch.nextId ST_ACCEPTED dtNone []
        (Chip.cfgPhase 3 l.kind { d with cfg := { d.cfg with
          load := some { l with slot := some c.ch.nextId, final := true } } }).pageSettle)) ∧
    (∀ (a n : Nat) (t : Chip), s.chip.quiet.accepts cmdCfgLoadDram p → a = pf p.payload 0 8 → n = pf p.payload 8 4 →
      s.chip.loadState (pb p.payload 12) (pb p.payload 13) = none → overlaps (a, a + n) s.chip.libRange = false → 256 ≤ n →
      (s.chip.quiet.slotFor cmdCfgLoadDram p).rowReads a n = (rspOk, t) →
      exec (.chCfgLoadDram p) s = .next (s.after fun c =>
        match t.loadOpen (pb p.payload 12) (pb p.payload 13) (decide (pb p.payload 14 = 1)) true (some n) (memRead a 256 t.mem) with
        | (some f, d) => d.fail c.ch.nextId f.1 f.2
        | (none, d) => (d.interim c.ch.nextId ST_ACCEPTED dtNone []).loadFeed (memRead (a + 256) (n - 256) d.mem) (some c.ch.nextId))) ∧
    (∀ k : Nat, s.chip.quiet.accepts cmdCfgPage p → k = pf p.payload 2 2 → s.chip.dstate = stUser →
      k < s.chip.get F.CFG_LIB_SLOTS_SLOTS → s.chip.slotState k = slValid →
      (∀ r ∈ maskRegions (pf p.payload 8 24), s.chip.vmapMeets r (s.chip.slotVmap k) = false) →
      exec (.chCfgPage p) s = .next (s.after fun c =>
        let ts := (maskRegions (pf p.payload 8 24)).map (fun r => (r, pb p.payload 0))
        ((c.slotFor cmdCfgPage p).interim c.ch.nextId ST_ACCEPTED dtNone []).pageAsk (Paging.new (.command c.ch.nextId) k ts ts))) ∧
    (s.chip.quiet.accepts cmdCfgDraw p → s.chip.bcastBad (pb p.payload 0) (maskRegions (pf p.payload 8 24)) = false →
      exec (.chCfgDraw p) s = .next (s.after fun c =>
        (c.slotFor cmdCfgDraw p).sendBcast (some c.ch.nextId) (pb p.payload 0) (maskRegions (pf p.payload 8 24)))) ∧
    (∀ k r : Nat, s.chip.quiet.accepts cmdCfgRewriteSlot p → r = pb p.payload 0 → k = pf p.payload 2 2 →
      s.chip.loadState 2 r = none → k < s.chip.get F.CFG_LIB_SLOTS_SLOTS → s.chip.slotState k = slValid →
      s.chip.vmapMeets r (s.chip.slotVmap k) = false →
      exec (.chCfgRewriteSlot p) s = .next (s.after fun c =>
        let d := (c.slotFor cmdCfgRewriteSlot p).interim c.ch.nextId ST_ACCEPTED dtNone []
        { d with cfg := { d.cfg with rewrite := some (c.ch.nextId, k, r, decide (pb p.payload 1 = 1)) } })) ∧
    (s.chip.quiet.accepts cmdCfgLibStatus p →
      exec (.chCfgLibStatus p) s = .next (s.after fun c =>
        (c.slotFor cmdCfgLibStatus p).ok c.ch.nextId ((List.range (pf p.payload 2 2)).flatMap (fun i =>
          natLe 2 (c.slotState (pf p.payload 0 2 + i) + 4 * b2n (c.slotReferenced (pf p.payload 0 2 + i))))))) ∧
    (s.chip.quiet.accepts cmdCfgLibFree p →
      (∀ i < pf p.payload 2 2, s.chip.slotReferenced (pf p.payload 0 2 + i) = false ∧
        s.chip.slotState (pf p.payload 0 2 + i) ≠ slFilling ∧ s.chip.slotState (pf p.payload 0 2 + i) ≠ slPending) →
      exec (.chCfgLibFree p) s = .next (s.after fun c =>
        ((c.slotFor cmdCfgLibFree p).forAll ((List.range (pf p.payload 2 2)).map (fun i => pf p.payload 0 2 + i))
          (fun k => Chip.setSlotState k slFree)).ok c.ch.nextId [])) ∧
    (s.chip.quiet.accepts cmdCfgXspi p → (∀ l : Load, s.chip.cfg.load = some l → l.flash = false) →
      exec (.chCfgXspi p) s = .next (s.after fun c =>
        let n := pf p.payload 8 2
        let d := (c.slotFor cmdCfgXspi p).emit (.xspi (pb p.payload 0) (pb p.payload 1)
          (if pb p.payload 2 = 0 then none else some (pf p.payload 4 4)) (pb p.payload 3) n (p.payload.drop 16))
        Chip.ok c.ch.nextId (d.freeBytes n) { d with freeCtr := d.freeCtr + n }))

/-- R244 to R248 and R251: what the signing of a report and each command of class 0x0A does. The random bytes are free
values (log entry 2). -/
def Obligations.SecurityRows : Prop :=
  ∀ (s : State) (p : Pkt),
    (∀ k : Slot, s.chip.awake = true → s.chip.runningCmd 0x0A 0x09 (fun _ => true) = some k →
      exec .attestSigned s = .next (s.after fun c =>
        Chip.ok k.id (natLe 4 (c.attestReport k.payload).length) { c with cfg := { c.cfg with report := c.attestReport k.payload } })) ∧
    (s.chip.quiet.accepts cmdSecStatus p →
      exec (.chSecStatus p) s = .next (s.after fun c =>
        let d := c.slotFor cmdSecStatus p
        d.ok c.ch.nextId (natLe 8 (d.regWord F.SEC_STAT_LC.off)))) ∧
    (s.chip.quiet.accepts cmdSecLcAdvance p → s.chip.lc = lcFactory → pf p.payload 0 4 = lcProvisioned → s.chip.cfg.burns = [] →
      s.chip.get F.SEC_STAT_ROOTKEY = 1 → (s.chip.get F.SEC_STAT_SLOT_PROG).testBit 0 = true →
      exec (.chSecLcAdvance p) s = .next (s.after fun c => (c.slotFor cmdSecLcAdvance p).burn c.ch.nextId 0 lcProvisioned [])) ∧
    (s.chip.quiet.accepts cmdSecNonce p →
      exec (.chSecNonce p) s = .next (s.after fun c =>
        let d := c.slotFor cmdSecNonce p
        Chip.ok c.ch.nextId (d.freeBytes 32)
          { d with freeCtr := d.freeCtr + 32, cfg := { d.cfg with nonce := some (d.freeBytes 32), reqBuf := [] } })) ∧
    (s.chip.quiet.accepts cmdSecReqData p →
      exec (.chSecReqData p) s = .next (s.after fun c =>
        let d := c.slotFor cmdSecReqData p
        let bs := p.payload.drop 8
        Chip.ok c.ch.nextId [] { d with cfg := { d.cfg with
          reqBuf := ((List.range bs.length).zip bs).foldl (fun t e => tput 0 (pf p.payload 0 4 + e.1) e.2 t) c.cfg.reqBuf } })) ∧
    (∀ k : Nat, s.chip.quiet.accepts cmdSecKeyProg p → s.chip.lc ≠ lcField → k = pb p.payload 0 →
      (s.chip.get F.SEC_STAT_SLOT_PROG).testBit k = false → (s.chip.get F.SEC_STAT_SLOT_REV).testBit k = false →
      s.chip.cfg.burns = [] →
      exec (.chSecKeyProg p) s = .next (s.after fun c =>
        (c.slotFor cmdSecKeyProg p).burn c.ch.nextId 1 k (p.payload.drop 16))) ∧
    (s.chip.quiet.accepts cmdSecKeyRevoke p →
      exec (.chSecKeyRevoke p) s = .next (s.after fun c =>
        match (c.slotFor cmdSecKeyRevoke p).checkRequest reqMagic 2 0x05 with
        | (some f, d) => d.fail c.ch.nextId f.1 f.2
        | (none, d) =>
          let k := d.reqArg 0
          let gone := fun (i : Nat) => d.cfg.burns.any (fun b => b.what = 2 && b.num = i)
          if (d.get F.SEC_STAT_SLOT_REV).testBit k || gone k then d.fail c.ch.nextId ST_BAD_PARAM dtSlotState
          else if ((List.range 4).filter (fun i => d.keyLive i && !gone i)) = [k] then d.fail c.ch.nextId ST_BAD_PARAM dtLastKey
          else if pb (d.reqBytes 0 8) 5 = k then (d.raise EV_SEC_AUTH_FAIL (0x05 * 256)).fail c.ch.nextId ST_AUTH_FAIL dtNone
          else d.burn c.ch.nextId 2 k [])) ∧
    (s.chip.quiet.accepts cmdSecSvnRaise p →
      exec (.chSecSvnRaise p) s = .next (s.after fun c =>
        match (c.slotFor cmdSecSvnRaise p).checkRequest reqMagic 3 0x06 with
        | (some f, d) => d.fail c.ch.nextId f.1 f.2
        | (none, d) =>
          if d.reqArg 0 < d.get F.SEC_STAT_MIN_SVN then d.fail c.ch.nextId ST_BAD_PARAM dtNone
          else d.burn c.ch.nextId 3 (d.reqArg 0) [])) ∧
    (s.chip.quiet.accepts cmdSecRma p →
      exec (.chSecRma p) s = .next (s.after fun c =>
        match (c.slotFor cmdSecRma p).checkRequest reqMagic 4 0x07 with
        | (some f, d) => d.fail c.ch.nextId f.1 f.2
        | (none, d) => Chip.burn c.ch.nextId 4 0 [] { d with cfg := { d.cfg with rmaPend := true } })) ∧
    (s.chip.quiet.accepts cmdSecRootkeyProg p → s.chip.get F.SEC_STAT_ROOTKEY = 0 → s.chip.cfg.burns = [] →
      exec (.chSecRootkeyProg p) s = .next (s.after fun c =>
        (c.slotFor cmdSecRootkeyProg p).burn c.ch.nextId 5 0 p.payload)) ∧
    (s.chip.quiet.accepts cmdSecAttest p →
      exec (.chSecAttest p) s = .next (s.after fun c => (c.slotFor cmdSecAttest p).interim c.ch.nextId ST_ACCEPTED dtNone [])) ∧
    (s.chip.quiet.accepts cmdSecBlobRead p →
      exec (.chSecBlobRead p) s = .next (s.after fun c =>
        (c.slotFor cmdSecBlobRead p).ok c.ch.nextId
          (((if pb p.payload 0 = 0 then c.cfg.report else Config.certificate).drop (pf p.payload 4 4)).take (pf p.payload 8 2))))

/-- R254, R256 to R263, R265, Tables 9.1, 9.2 and 9.5: the rows of the scratchpad banks. -/
def Obligations.ScratchpadRows : Prop :=
  ∀ (s : State) (r : Fin 192) (b : Fin 16), s.chip.awake = true →
    (∀ k : BitVec 12, s.chip.rgState r = rgRun → s.chip.is (F.SP_PWR_STAT_LEASE r b) = false → s.chip.bankState r b = bankOn →
      s.chip.is (F.SP_PWR_STAT_BUSY r b) = false → s.chip.capHolds r (16 * k.toNat + b) = false →
      s.chip.sp.bad.contains (spAddr r (16 * k.toNat + b)) = false →
      let w := 16 * k.toNat + b
      let noted := fun (odd : Nat) (c : Chip) => { c with sp := { c.sp with lastA := tset (16 * r.val + b) (2 * k.toNat + odd) c.sp.lastA } }
      exec (.spARead r b k 0) s = .next (s.after fun c => (noted 0 c).emit (.portA r b 0 (some (c.spWord r w)))) ∧
      (∀ (data : Wide) (be : BitVec 16), exec (.spAWrite r b k data be 0) s = .next (s.after fun c =>
        (Chip.spStore r w .write data.toNat be.toNat (noted 1 c)).emit (.portA r b 0 none))) ∧
      (∀ data : Wide, exec (.spAAdd64 r b k data 0) s = .next (s.after fun c =>
        Chip.emit (.portA r b 0 (some (c.spWord r w)))
          { noted 1 c with mem := memWrite (spAddr r w) (natLe 16 (atomicValue .add64 (c.spWord r w) data.toNat)) c.mem })) ∧
      (∀ data : Wide, exec (.spAAdd128 r b k data 0) s = .next (s.after fun c =>
        Chip.emit (.portA r b 0 (some (c.spWord r w)))
          { noted 1 c with mem := memWrite (spAddr r w) (natLe 16 (atomicValue .add128 (c.spWord r w) data.toNat)) c.mem })) ∧
      (∀ data : Wide, exec (.spASwap r b k data 0) s = .next (s.after fun c =>
        Chip.emit (.portA r b 0 (some (c.spWord r w)))
          { noted 1 c with mem := memWrite (spAddr r w) (natLe 16 (atomicValue .swap (c.spWord r w) data.toNat)) c.mem })) ∧
      exec (.spAReservedOp r b) s = .next (s.after fun c => c.emit (.portA r b 3 none))) ∧
    (∀ k : BitVec 12, s.chip.rgState r = rgRun → s.chip.is (F.SP_PWR_STAT_LEASE r b) = false →
      s.chip.is (F.SP_PWR_STAT_BUSY r b) = false → s.chip.bankState r b ≠ bankOn →
      (∀ flaw : Fin 3, exec (.spARead r b k flaw) s = .next (s.after fun c => c.emit (.portA r b 2 none))) ∧
      (∀ (data : Wide) (be : BitVec 16) (flaw : Fin 3), exec (.spAWrite r b k data be flaw) s =
        .next (s.after fun c => c.emit (.portA r b 2 none)))) ∧
    (∀ v : Word, (∀ b < 16, bits v.toNat (2 * b + 1) (2 * b) ≠ 3) → s.chip.capKeeps r (bits v.toNat 31 30) = false →
      exec (.spPwrCtlWrite r v) s = .next (s.after fun c =>
        ((c.forAll banks (fun b => Chip.set (F.SP_PWR_CTL_MODE r b) (bits v.toNat (2 * b + 1) (2 * b)))).forAll banks
          (fun b => Chip.bankStart r b)).answer rspOk 0)) ∧
    (s.chip.is (F.SP_PWR_STAT_BUSY r b) = true → s.chip.bankState r b = bankOn → tget 0 (16 * r.val + b) s.chip.sp.goal = bankRet →
      exec (.bankTransitionDone r b) s = .next (s.after fun c =>
        let d := (c.set (F.SP_PWR_STAT_STATE r b) bankRet).set (F.SP_PWR_STAT_BUSY r b) 0
        (Chip.powerDone { d with sp := { d.sp with goal := tdel (16 * r.val + b) c.sp.goal } }).bankStart r b)) ∧
    (s.chip.is (F.SP_PWR_STAT_BUSY r b) = true → tget 0 (16 * r.val + b) s.chip.sp.goal = bankOff →
      exec (.bankTransitionDone r b) s = .next (s.after fun c =>
        let d := ((c.bankZero r b).set (F.SP_PWR_STAT_STATE r b) bankOff).set (F.SP_PWR_STAT_BUSY r b) 0
        (Chip.powerDone { d with sp := { d.sp with goal := tdel (16 * r.val + b) d.sp.goal } }).bankStart r b)) ∧
    (exec (.spCntClr r 1) s = .next (s.after fun c =>
      ((c.set (F.SP_CNT_A_SP_CORR_CNT r) 0).set (F.SP_CNT_A_SP_UNCORR_CNT r) 0).answer rspOk 0)) ∧
    (s.chip.rgState r = rgRun → s.chip.bankState r b = bankOn → s.chip.is (F.SP_PWR_STAT_BUSY r b) = false →
      exec (.leaseStart r b) s = .next (s.after fun c => c.set (F.SP_PWR_STAT_LEASE r b) 1)) ∧
    (s.chip.is (F.SP_PWR_STAT_LEASE r b) = true → tfind (16 * r.val + b) s.chip.sp.remap = none →
      exec (.leaseEnd r b) s = .next (s.after fun c => c.set (F.SP_PWR_STAT_LEASE r b) 0)) ∧
    (∀ p : Nat, s.chip.is (F.SP_PWR_STAT_LEASE r b) = true →
      tfind (16 * r.val + b) s.chip.sp.remap = some p →
      exec (.leaseEnd r b) s = .next (s.after fun c =>
        let d := c.set (F.SP_PWR_STAT_LEASE r b) 0
        let k := 16 * r.val + b
        Chip.freeNext { d with sp := { d.sp with
          remap := if 4096 ≤ p + c.freeVal then tdel k c.sp.remap else tset k (p + c.freeVal) c.sp.remap } })) ∧
    (s.chip.is (F.SP_PWR_STAT_LEASE r b) = false →
      exec (.leaseEnd r b) s = .next (s.after id))

/-- R262 and R267: what each command of class 0x02, opcodes 0x00 to 0x02, does once its packet is accepted. -/
def Obligations.ScratchpadCommandRows : Prop :=
  ∀ (s : State) (p : Pkt),
    (∀ r : Nat, s.chip.quiet.accepts cmdSpStatus p → r = pf p.payload 0 4 → s.chip.rgnRefusal r = none →
      exec (.chSpStatus p) s = .next (s.after fun c =>
        let d := c.slotFor cmdSpStatus p
        d.ok c.ch.nextId ([0x00, 0x08, 0x10, 0x18, 0x20].flatMap (fun o => natLe 8 (d.regWord (spReg r o)))))) ∧
    (∀ r : Nat, s.chip.quiet.accepts cmdSpPower p → r = pb p.payload 0 → s.chip.rgnRefusal r = none →
      (∀ b ∈ banks, (pf p.payload 2 2).testBit b = true → s.chip.bankState r b ≠ bankGone) →
      s.chip.capKeeps r (pb p.payload 1) = false →
      exec (.chSpPower p) s = .next (s.after fun c =>
        let bs := banks.filter (fun b => (pf p.payload 2 2).testBit b)
        let d := ((((c.slotFor cmdSpPower p).interim c.ch.nextId ST_ACCEPTED dtNone []).forAll bs
          (fun b => Chip.set (F.SP_PWR_CTL_MODE r b) (pb p.payload 1))).forAll bs (fun b => Chip.bankStart r b))
        Chip.powerDone { d with sp := { d.sp with waits := d.sp.waits ++ [(c.ch.nextId, r, pb p.payload 1, bs)] } })) ∧
    (∀ r : Nat, s.chip.quiet.accepts cmdSpColmapRead p → r = pf p.payload 0 4 → s.chip.rgnRefusal r = none →
      exec (.chSpColmapRead p) s = .next (s.after fun c =>
        (c.slotFor cmdSpColmapRead p).ok c.ch.nextId (banks.flatMap (fun b => natLe 8 (tget 0 (16 * r + b) c.sp.cols)))))

/-- R272 to R282, R285, R286 and R288: the rows of the DRAM controller. -/
def Obligations.DramRows : Prop :=
  ∀ s : State, s.chip.awake = true →
    (∀ (busy : List (BitVec 8)) (f : GranFlaws), ∀ parity ∈ [none, some DrParity.activate, some .transfer, some .precharge],
      (∀ p : DrPick, s.chip.quiet.drChoose busy = some p →
        exec (.dramRowAccessDone busy parity f) s = .next (s.after fun c =>
          (c.drRowServe p.addr parity f (c.drTogether p)).drSelfEntry)) ∧
      (s.chip.quiet.drChoose busy = none → exec (.dramRowAccessDone busy parity f) s = .next (s.after id))) ∧
    (∀ (busy : List (BitVec 8)) (w : DrWrite), s.chip.drState = drReady → s.chip.is F.DR_STAT_CATCHUP = false →
      s.chip.get F.DR_STAT_OWED < s.chip.drP → s.chip.dr.thaw = none → s.chip.dr.freq = none → s.chip.dr.rq = [] →
      s.chip.dr.wq = [w] → w.rowOr = false → s.chip.dr.bad = [] →
      exec (.dramRowAccessDone busy none { corr := [], bad := [], synd := 0 }) s = .next (s.after fun c =>
        let d := (c.drActivate w.addr false).drTransfer 3 w.addr false
        (Chip.drLevels { d with dr := { d.dr with wq := [], bad := [], thaw := none } }).drPrecharge w.addr false)) ∧
    (∀ (busy : List (BitVec 8)) (q : DrRead) (ni idx ep : Nat), s.chip.drState = drReady → s.chip.is F.DR_STAT_CATCHUP = false →
      s.chip.get F.DR_STAT_OWED < s.chip.drP → s.chip.dr.thaw = none → s.chip.dr.freq = none → s.chip.dr.rq = [q] →
      s.chip.dr.wq = [] → s.chip.is F.DR_STAT_DRAINING = false → q.net = some (ni, idx, ep) → s.chip.dr.bad = [] →
      exec (.dramRowAccessDone busy none { corr := [], bad := [], synd := 0 }) s = .next (s.after fun c =>
        let d := (c.drActivate q.addr false).drTransfer 2 q.addr false
        let e := Chip.drLevels { d with dr := { d.dr with rq := [], bad := [], thaw := none } }
        (e.respond ni idx ep rspOk 0 q.data (niOf q.addr)).drPrecharge q.addr false)) ∧
    (∀ (rt : Bool) (a : BitVec 33) (perr : Bool), s.chip.quiet.drRefusal (rowBase a.toNat) = none → s.chip.dr.rq.length < 256 →
      exec (.dramRequestAccept (.rowRead rt a perr)) s = .next (s.after fun c =>
        (c.drAsk none rt (rowBase a.toNat) 1024).drWakeRank (rowBase a.toNat) perr)) ∧
    (∀ (a : BitVec 33) (perr : Bool), exec (.dramRequestAccept (.rowOr a perr)) s =
      .next (s.after fun c => c.bmQueue (rowBase a.toNat) rspOk perr)) ∧
    (∀ (rt : Bool) (a : BitVec 33) (perr : Bool), s.chip.drState = drFrozen →
      exec (.dramRequestAccept (.rowRead rt a perr)) s = .next (s.after id)) ∧
    (∀ (ni : Fin 288) (idx : Fin 512) (perr : Bool) (q : NReq) (d : Chip), s.chip.quiet.inFlight ni idx = some q → s.chip.quiet.firstOf q = true →
      placeOf q.addr = .dram → q.kind ≤ 1 → s.chip.domState domDram = 0 → s.chip.routeOk q.ni (niOf q.addr) = true →
      s.chip.quiet.drTake q perr = some d →
      exec (.dramRequestAccept (.net ni idx perr)) s = .next (s.after fun _ => d)) ∧
    (exec .refreshDue s = .next (s.after fun c => c.set F.DR_STAT_OWED (min 8 (c.get F.DR_STAT_OWED + 1)))) ∧
    (∀ (busy : List (BitVec 8)) (f : GranFlaws) (i : Instr) (perr : Bool),
      (i, perr) ∈ [(.refreshDone, false), (.dramRowAccessDone busy (some .refresh) f, true)] →
      s.chip.get F.DR_STAT_OWED ≠ 0 → s.chip.get F.DR_STAT_OWED ≤ 8 → s.chip.quiet.drMayRefresh = true →
      exec i s = .next (s.after fun c =>
        let d := ((c.set F.DR_STAT_OWED (c.get F.DR_STAT_OWED - 1)).set F.DR_STAT_PD 0).drCmd 5 0 0 0 perr
        (if c.get F.DR_STAT_OWED = 1 then d.set F.DR_STAT_CATCHUP 0 else d).drParity perr 0)) ∧
    (s.chip.is F.DR_STAT_CATCHUP = false → s.chip.get F.DR_STAT_OWED < s.chip.drP → s.chip.drState = drReady →
      (s.chip.dr.rq ≠ [] ∨ s.chip.dr.wq ≠ []) → exec .refreshDone s = .next (s.after id)) ∧
    (∀ (busy : List (BitVec 8)) (f : GranFlaws) (k : Fin 4) (i : Instr) (perr : Bool),
      (i, perr) ∈ [(.rankPowerDown k, false), (.dramRowAccessDone busy (some (.powerDown k)) f, true)] →
      s.chip.get F.DR_CTL_PD_TIMER ≠ 0 → s.chip.drState = drReady →
      (∀ q ∈ s.chip.dr.rq, drBank q.addr / 64 ≠ k.val) → (∀ w ∈ s.chip.dr.wq, drBank w.addr / 64 ≠ k.val) →
      (s.chip.get F.DR_STAT_PD).testBit k = false →
      exec i s = .next (s.after fun c =>
        ((c.set F.DR_STAT_PD (setBit (c.get F.DR_STAT_PD) k)).drCmd 6 (64 * k) 0 0 perr).drParity perr (65536 * k))) ∧
    (∀ (busy : List (BitVec 8)) (f : GranFlaws) (i : Instr) (perr : Bool) (id fr : Nat),
      (i, perr) ∈ [(.freqRelocked, false), (.dramRowAccessDone busy (some .selfExit) f, true)] →
      s.chip.dr.freq = some (id, fr, false) → s.chip.drState = drSelf →
      exec i s = .next (s.after fun c =>
        let d := (c.set F.DR_CTL_FREQ fr).drCmd 9 0 0 0 perr
        Chip.drParity perr 0 { d.set F.DR_STAT_STATE drTraining with dr := { d.dr with train := some (1, []) } })) ∧
    (∀ (id : Nat) (flush : Bool), s.chip.dr.thaw = some (id, flush, 0, 0) → s.chip.drState ≠ drFrozen →
      exec .thawDone s = .next (s.after fun c =>
        let d := if flush then c.drLevels else c
        Chip.ok id [] { d with dr := { d.dr with thaw := none } })) ∧
    exec (.drCntClr 3) s = .next (s.after fun c =>
      ((((c.set F.DR_CNT_A_CORR_CNT 0).set F.DR_CNT_A_FREEZES 0).set F.DR_CNT_B_CATCHUP_CNT 0).set F.DR_CNT_B_TRAIN_CNT 0).answer
        rspOk 0)

/-- R285, R287, R288 and R291: what each command of class 0x02, opcodes 0x10 to 0x14, does once its packet is accepted. -/
def Obligations.DramCommandRows : Prop :=
  ∀ (s : State) (p : Pkt),
    (s.chip.quiet.accepts cmdDrStatus p →
      exec (.chDrStatus p) s = .next (s.after fun c =>
        let d := c.slotFor cmdDrStatus p
        d.ok c.ch.nextId (d.drRegs [0x00, 0x08, 0x30, 0x38, 0x48, 0x50]))) ∧
    (∀ fr : Nat, s.chip.quiet.accepts cmdDrFreq p → fr = pf p.payload 0 4 → s.chip.drState ≠ drFrozen → s.chip.dr.freq = none →
      fr ≠ s.chip.get F.DR_CTL_FREQ → s.chip.dr.train = none →
      exec (.chDrFreq p) s = .next (s.after fun c =>
        let d := ((c.slotFor cmdDrFreq p).interim c.ch.nextId ST_ACCEPTED dtNone []).set F.DR_STAT_FREQ_PENDING 1
        Chip.drSelfEntry { d with dr := { d.dr with freq := some (c.ch.nextId, fr, false) } })) ∧
    (s.chip.quiet.accepts cmdDrFreq p → pf p.payload 0 4 = s.chip.get F.DR_CTL_FREQ → s.chip.drState ≠ drFrozen →
      s.chip.dr.freq = none →
      exec (.chDrFreq p) s = .next (s.after fun c => (c.slotFor cmdDrFreq p).ok c.ch.nextId [])) ∧
    (s.chip.quiet.accepts cmdDrTrain p → s.chip.drState ≠ drFrozen → s.chip.dr.freq = none → s.chip.dr.train = none →
      exec (.chDrTrain p) s = .next (s.after fun c =>
        let d := (c.slotFor cmdDrTrain p).interim c.ch.nextId ST_ACCEPTED dtNone []
        { d.set F.DR_STAT_STATE drTraining with dr := { d.dr with train := some (2, [c.ch.nextId]) } })) ∧
    (s.chip.quiet.accepts cmdDrSnapshot p →
      exec (.chDrSnapshot p) s = .next (s.after fun c =>
        let d := c.slotFor cmdDrSnapshot p
        d.ok c.ch.nextId (d.drRegs [0x48, 0x50, 0x58, 0x60, 0x68] ++
          (List.range (pb p.payload 1)).flatMap (fun i => natLe 8 (c.drHist (pb p.payload 0 + i)))))) ∧
    (s.chip.quiet.accepts cmdDrThaw p → s.chip.drState = drFrozen → s.chip.get F.DR_FRZ_STAT_CAUSE ≠ 1 →
      exec (.chDrThaw p) s = .next (s.after fun c =>
        let d := ((c.slotFor cmdDrThaw p).interim c.ch.nextId ST_ACCEPTED dtNone []).setSlot c.ch.nextId
          (fun (k : Slot) => { k with noStop := true })
        let d := (((d.set F.DR_FRZ_SYND_LOST 0).set F.DR_STAT_STATE drReady).set F.DR_FRZ_STAT_FROZEN 0).raise EV_DR_THAWED
          (pf p.payload 0 4)
        { d with dr := { d.dr with thaw := some (c.ch.nextId, decide (pb p.payload 0 = 1), d.dr.wq.length, d.dr.rq.length) } }))

/-- R283, R361 to R370 and R374: the rows of thermal control, and the end of a DRAM training. -/
def Obligations.ThermalRows : Prop :=
  ∀ (s : State) (p : Pkt),
    (∀ ids : List Nat, s.chip.awake = true → s.chip.dr.train = some (2, ids) → s.chip.drState = drTraining → s.chip.dr.freq = none →
      exec (.trainingDone true) s = .next (s.after fun c =>
        let d : Chip := { c with dr := { c.dr with train := none } }
        let d := (Chip.set F.DR_STAT_RETRAIN_DUE 0
          { d.inc F.DR_CNT_B_TRAIN_CNT with dr := { d.dr with temps := [c.dramMax 1, c.dramMax 2] } }).set F.DR_STAT_STATE drReady
        (d.raise EV_DR_TRAINED (d.get F.DR_CTL_FREQ + 2 * 4)).endAll ids ST_OK dtNone)) ∧
    (∀ (cause : Nat) (ids : List Nat), s.chip.awake = true → s.chip.dr.train = some (cause, ids) → s.chip.drState = drTraining →
      exec (.trainingDone false) s = .next (s.after fun c => c.drFreeze 3 false 0 0)) ∧
    (s.chip.awake = true → exec .throttleUpdate s = .next (s.after Chip.throttle)) ∧
    (∀ (inlet outlet : Int) (lidOk : Bool) (est : List Int), s.chip.awake = true →
      exec (.layerEstimate inlet outlet lidOk est) s = .next (s.after (Chip.layerEstimate inlet outlet lidOk est))) ∧
    (s.chip.quiet.accepts cmdThStatus p →
      exec (.chThStatus p) s = .next (s.after fun c =>
        (c.slotFor cmdThStatus p).ok c.ch.nextId (c.regBytes thStatFlds ++ c.regBytes (thLayerFlds 0) ++ c.regBytes (thLayerFlds 1) ++
          c.regBytes thCoolFlds ++ c.regBytes thTripFlds ++ c.regBytes [F.TH_HOST_S_HOST]))) ∧
    (s.chip.quiet.accepts cmdThSensors p →
      exec (.chThSensors p) s = .next (s.after fun c =>
        let d := c.slotFor cmdThSensors p
        d.ok c.ch.nextId ((List.range (pb p.payload 1)).flatMap (fun k => d.regBytes (thSensorFlds (pb p.payload 0 + k)))))) ∧
    (∀ i : Nat, s.chip.quiet.accepts cmdThSubst p → i = pb p.payload 0 → s.chip.sensorOut i = true →
      (pb p.payload 1 = 1 → (s.chip.layerEst (sensorLayer i)).isSome = true) →
      exec (.chThSubst p) s = .next (s.after fun c =>
        let d := ((c.slotFor cmdThSubst p).set (F.TH_SENSOR_SUBST i) (pb p.payload 1)).thShow [i]
        d.ok c.ch.nextId (natLe 2 (d.get (F.TH_SENSOR_USED i))))) ∧
    (s.chip.quiet.accepts cmdThThresh p → thCfgOk (pf p.payload 0 8) = true →
      exec (.chThThresh p) s = .next (s.after fun c =>
        let d := ((c.slotFor cmdThThresh p).writeFlds true (pf p.payload 0 8) thCfgFlds)
        let d := d.thShow (sensorsAll.filter d.sensorOut)
        d.ok c.ch.nextId (d.regBytes thCfgFlds))) ∧
    (s.chip.quiet.accepts cmdThLimit p →
      exec (.chThLimit p) s = .next (s.after fun c =>
        ((c.slotFor cmdThLimit p).set F.TH_HOST_S_HOST (pf p.payload 0 4)).ok c.ch.nextId []))

/-- R255 to R258, R295 to R298, R300, R303, R306 to R309 and R312: the rows of the network. -/
def Obligations.NetworkRows : Prop :=
  ∀ s : State, s.chip.awake = true →
    (∀ (ni : Fin 288) (kind : BitVec 4) (dev : Option (BitVec 12)) (addr : BitVec 48) (len : Fin 16) (rbe : BitVec 16)
      (bes : List (BitVec 16)) (data : List Wide) (q : NReq), 96 ≤ ni.val → kind.toNat ≤ 4 → s.chip.rgState (ni - 96) = rgRun →
      s.chip.domState (domRegion (ni - 96)) = 0 → s.chip.net.riser = [] →
      q = { ni := ni, idx := 0, ep := 0, kind := kind.toNat, cls := 1, addr := addr.toNat, dev := dev.map BitVec.toNat,
            n := len.val + 1, rbe := rbe.toNat, bes := bes.map BitVec.toNat, data := data.map BitVec.toNat } →
      (∀ d : Chip, (s.chip.quiet.riserEnter q).riserTake q = some d →
        exec (.niRequestAccept ni (.design kind dev addr len rbe bes data)) s = .next (s.after fun _ => d)) ∧
      ((s.chip.quiet.riserEnter q).riserTake q = none →
        exec (.niRequestAccept ni (.design kind dev addr len rbe bes data)) s = .next (s.after (Chip.riserEnter q)))) ∧
    (∀ (ni : Fin 288) (idx : Fin 512) (q : NReq) (r w : Nat), s.chip.inFlight ni idx = some q → s.chip.firstOf q = true →
      q.n = 1 → placeOf q.addr = .spad r w → s.chip.routeOk q.ni (niOf q.addr) = true → s.chip.domState (domRegion r) = 0 →
      s.chip.rgState r = rgRun → s.chip.bankState r (w % 16) = bankOn → s.chip.is (F.SP_PWR_STAT_LEASE r (w % 16)) = false →
      s.chip.is (F.SP_PWR_STAT_BUSY r (w % 16)) = false → s.chip.capHolds r w = false →
      s.chip.sp.bad.contains (spAddr r w) = false → (s.chip.gateOf r = [] ∨ (s.chip.gateOf r).head? = some q) →
      let answer := fun (data : List Nat) (c : Chip) =>
        ((c.unflight q).respond q.ni q.idx q.ep rspOk 0 data (niOf q.addr)).netServe
      (q.kind = 0 → exec (.netRead ni idx []) s = .next (s.after fun c => answer [c.spWord r w] c)) ∧
      (q.kind = 1 → exec (.netWrite ni idx [] 0) s = .next (s.after fun c =>
        answer [] (c.spStore r w .write (q.data.getD 0 0) (q.bes.getD 0 0)))) ∧
      (q.kind = 2 → exec (.netAdd64 ni idx [] 0) s = .next (s.after fun c =>
        answer [c.spWord r w] (c.spStore r w .add64 (q.data.getD 0 0) 0xFFFF))) ∧
      (q.kind = 3 → exec (.netAdd128 ni idx [] 0) s = .next (s.after fun c =>
        answer [c.spWord r w] (c.spStore r w .add128 (q.data.getD 0 0) 0xFFFF))) ∧
      (q.kind = 4 → exec (.netSwap ni idx [] 0) s = .next (s.after fun c =>
        answer [c.spWord r w] (c.spStore r w .swap (q.data.getD 0 0) 0xFFFF)))) ∧
    (∀ (ni : Fin 288) (idx : Fin 512) (q : NReq) (flaws : List (Fin 3)), s.chip.inFlight ni idx = some q → s.chip.firstOf q = true →
      s.chip.routeOk q.ni (niOf q.addr) = false → q.kind = 0 →
      exec (.netRead ni idx flaws) s = .next (s.after fun c =>
        ((c.unflight q).respond q.ni q.idx q.ep rspNoPath 0 [] q.ni).netServe)) ∧
    (∀ (r : Fin 192) (k : Fin 16) (f : Byte), s.chip.is (F.PE_CTL_UPORT_EN k) = true → s.chip.uportRegion k = r.val →
      (s.chip.eng k).uport.length + tget 0 k s.chip.net.credit ≤ 64 → s.chip.domState (domRegion r) = 0 →
      s.chip.domState (domEngine k) = 0 → s.chip.routeOk (96 + r) (8 + k) = true →
      exec (.netUport r k (.flags f)) s = .next (s.after (Chip.uportFlags k f.toNat))) ∧
    (∀ (ni : Fin 288) (idx : Fin 512) (ep : Fin 4) (ns : Nat) (r : NRsp) (o : NOut),
      s.chip.net.rsps.find? (fun r => r.ni = ni.val && r.idx = idx.val && r.ep = ep.val) = some r →
      s.chip.routeOk r.from' r.ni = true →
      s.chip.net.outs.find? (fun o => o.req.ni = r.ni && o.req.idx = r.idx && o.req.ep = r.ep && o.sent) = some o →
      exec (.netResponseArrival ni idx ep ns) s = .next (s.after fun c =>
        (Chip.deliver o r ns { c with net := { c.net with rsps := c.net.rsps.erase r } }).netServe)) ∧
    (∀ (ni : Fin 288) (idx : Fin 512) (o : NOut),
      s.chip.net.outs.find? (fun o => o.req.ni = ni.val && o.req.idx = idx.val) = some o → o.sent = true →
      exec (.niTimeout ni idx) s = .next (s.after fun c =>
        let d := ((c.outCancel o).inc (F.NI_CNT_A_TOUT_CNT ni)).set (F.NI_STAT_TOUT ni) 1
        ((d.latency ni o.req.cls (100 * o.tmo)).agentAnswer o rspTout 0 []).netServe)) ∧
    (∀ (ni : Fin 288) (q : NReq), s.chip.net.flight.find? (fun q => niOf q.addr = ni.val && q.cls = 2 && !s.chip.net.gate.contains q) = some q → ni.val < 96 →
      s.chip.get (F.NI_CTL_BUSY_WAIT ni) ≠ 0 → s.chip.routeOk q.ni ni = true →
      exec (.niBusyWaitExpiry ni true) s = .next (s.after fun c =>
        (((c.unflight q).respond q.ni q.idx q.ep rspBusy 0 [] ni).inc (F.NI_CNT_A_BUSY_CNT ni)).set (F.NI_STAT_BUSY ni) 1)) ∧
    (∀ d : NetDomain, s.chip.domState (domNum d) ≠ 0 → s.chip.domReady d = true →
      exec (.domainReopen d) s = .next (s.after (Chip.domOpen (domNum d)))) ∧
    (∀ n : Fin 96, s.chip.is (F.ROUTER_STAT_QUIESCING n) = true → s.chip.net.linkQ = [] → s.chip.net.wrrTo = [n.val] →
      s.chip.net.retry = [] →
      exec (.routerQuiesceDone n) s = .next (s.after fun c =>
        let d := c.set (F.ROUTER_STAT_QUIESCING n) 0
        Chip.set F.NET_STAT_WRR_PENDING 0 { d with net := { d.net with
          linkQ := [], wrrTo := [], wts := tset n.val (d.regWord F.NET_WRR_W_RT.off) d.net.wts } })) ∧
    (∀ (n : Fin 96) (ns : List Nat), s.chip.net.wrrTo = n.val :: ns → s.chip.net.retry.contains n.val = true →
      exec (.routerQuiesceRetry n) s = .next (s.after fun c =>
        Chip.set (F.ROUTER_STAT_QUIESCING n) 1 { c with net := { c.net with retry := c.net.retry.erase n.val } })) ∧
    (∀ (n : Fin 96) (ns : List Nat), s.chip.net.wrrTo = n.val :: ns → s.chip.net.retry.contains n.val = false → s.chip.net.linkQ = [] →
      exec (.routerQuiesceRetry n) s = .next (s.after fun c =>
        let d : Chip := { c with net := { c.net with retry := n.val :: c.net.retry } }
        (d.set F.NET_STAT_QFAIL 1).set (F.ROUTER_STAT_QUIESCING n) 0))

/-- R317, R320, R322 to R326, R328, R329 and Table 12.5: the rows of DMA channels. -/
def Obligations.DmaRows : Prop :=
  ∀ (s : State) (ch : Fin 4096), s.chip.awake = true →
    (s.chip.dmaFree ch = true → s.chip.dmaSetOk ch = true → s.chip.is (F.DMA_CH_CMD_PAUSE ch) = false →
      exec (.dmaGo ch) s = .next (s.after fun c =>
        let d := ((c.set (F.DMA_CRC_CRC ch) 0).set (F.DMA_CH_STAT_FROM_DESC ch) 0).setDm ch
          (fun x => { x with phase := 0, gen := x.gen + 1, dfr := false })
        (d.dmaWait ch dmQueued).answer rspOk 0)) ∧
    (s.chip.dmaFree ch = true → s.chip.dmaSetOk ch = false →
      exec (.dmaGo ch) s = .next (s.after fun c => c.answer rspReservedCode 0)) ∧
    (s.chip.dmState ch = dmDone → s.chip.chainIdle ch = true → s.chip.is (F.DMA_CH_CMD_PAUSE ch) = false →
      exec (.dmaGo ch) s = .next (s.after fun c =>
        (((c.set (F.DMA_CH_STAT_CHAIN_IDLE ch) 0).setDm ch (fun x => { x with phase := 5, out := false })).dmaWait ch dmQueued).answer
          rspOk 0)) ∧
    (s.chip.dmState ch = dmQueued →
      exec (.dmaPauseSet ch) s = .next (s.after fun c => ((c.set (F.DMA_CH_CMD_PAUSE ch) 1).dmaPausedNow ch).answer rspOk 0)) ∧
    (s.chip.dmState ch = dmPaused →
      exec (.dmaPauseClear ch) s = .next (s.after fun c => ((c.set (F.DMA_CH_CMD_PAUSE ch) 0).dmaWait ch dmQueued).answer rspOk 0)) ∧
    (s.chip.is (F.DMA_CH_CMD_ARM ch) = false → s.chip.dmaShadowOk ch = true → s.chip.dmaFree ch = false →
      exec (.dmaArm ch) s = .next (s.after fun c => (c.set (F.DMA_CH_CMD_ARM ch) 1).answer rspOk 0)) ∧
    (s.chip.is (F.DMA_CH_CMD_ARM ch) = false → s.chip.dmaShadowOk ch = true → s.chip.dmState ch = dmIdle →
      exec (.dmaArm ch) s = .next (s.after fun c => ((c.set (F.DMA_CH_CMD_ARM ch) 1).dmaPromote ch).answer rspOk 0)) ∧
    (s.chip.dmState ch = dmDone → s.chip.chainIdle ch = true → s.chip.is (F.DMA_CH_CMD_ARM ch) = false →
      exec (.dmaClose ch) s = .next (s.after fun c => (c.set (F.DMA_CH_STAT_CHAIN_IDLE ch) 0).answer rspOk 0)) ∧
    (exec (.dmaClrCnt ch) s = .next (s.after fun c => (c.set (F.DMA_CH_STAT_DEFER_CNT ch) 0).answer rspOk 0)) ∧
    (∀ v : Word, v.toNat % 4096 = ch →
      exec (.dmaDreqSet v) s = .next (s.after fun c =>
        ((c.set (F.DMA_DREQ_REQ (ch / 64)) (putBit (c.get (F.DMA_DREQ_REQ (ch / 64))) (ch % 64) true)).dmaRise ch).answer rspOk 0) ∧
      exec (.dmaDreqClr v) s = .next (s.after fun c =>
        ((c.set (F.DMA_DREQ_REQ (ch / 64)) (putBit (c.get (F.DMA_DREQ_REQ (ch / 64))) (ch % 64) false)).dmaRise ch).answer rspOk 0)) ∧
    (s.chip.dmState ch = dmWaitDreq → s.chip.dmaReq ch = true → s.chip.is (F.DMA_CH_CMD_PAUSE ch) = false →
      exec (.dreqRise ch) s = .next (s.after fun c => c.dmaWait ch dmQueued)) ∧
    (∀ e : Fin 64, s.chip.dma.engines = [] → s.chip.dma.queued = [ch.val] → s.chip.dmState ch = dmQueued →
      s.chip.dm ch = DmaCh.init → s.chip.dmCtl ch 4 = false →
      exec (.dmaEngineLoad e) s = .next (s.after fun c =>
        let d : Chip := { c with dma := { c.dma with
          queued := [], engines := [(e.val, ch.val)], rr := tset (c.get (F.DMA_CH_CFG_PRIO ch)) ch.val c.dma.rr } }
        let d := ((d.set (F.DMA_CH_STAT_ENGINE ch) e).set (F.DMA_CH_STAT_LOADED ch) 1).set (F.DMA_CH_STAT_STATE ch) dmActive
        ((d.setDm ch (fun x => { x with moved := 0, stop := 0, cut := none, out := false })).dmaBegin ch).dmaStep ch)) ∧
    (s.chip.dmState ch = dmQueued →
      exec (.dmaQueueWaitLong ch) s = .next (s.after fun c =>
        (c.set (F.DMA_CH_STAT_DEFERRED ch) 1).setDm ch (fun x => { x with dfr := true }))) ∧
    (∀ (q : NReq) (a : Agent) (d : Chip), (s.chip.dm ch).retry = [(q, a)] →
      s.chip.quiet.niIssue q.ni q.kind q.cls q.addr q.dev q.n q.rbe q.bes q.data a = some d →
      exec (.dmaBusyRetry ch) s = .next (s.after fun _ => d.setDm ch (fun x => { x with retry := x.retry.erase (q, a) }))) ∧
    ((s.chip.dm ch).phase = 3 → s.chip.is (F.DMA_CH_STAT_LOADED ch) = true → (s.chip.dm ch).chunks = [] → s.chip.fromDesc ch = true →
      exec (.dmaTransferComplete ch) s = .next (s.after fun c =>
        (c.setDm ch (fun x => { x with chunks := [], gen := x.gen + 1 })).setDm ch
          (fun x => { x with phase := 4, result := 1, out := false }))) ∧
    (s.chip.dmaHeld ch = false →
      exec (.dmaChStatRead ch) s = .next (s.after fun c => c.answer rspOk (c.dmaChStat ch))) ∧
    (s.chip.dmaHeld ch = true →
      exec (.dmaChStatRead ch) s = .next (s.after fun c => c.setDm ch (fun x => { x with statR := x.statR + 1 })))

/-- R324, R325, R329, R330 and R333: what each command of class 0x06 does once its packet is accepted. -/
def Obligations.DmaCommandRows : Prop :=
  ∀ (s : State) (p : Pkt) (ch : Nat),
    (s.chip.quiet.accepts cmdDmaStatus p → ch = pf p.payload 0 4 → s.chip.dmaHeld ch = false →
      exec (.chDmaStatus p) s = .next (s.after fun c =>
        let d := c.slotFor cmdDmaStatus p
        d.ok c.ch.nextId (d.dmaStatusBytes ch))) ∧
    (s.chip.quiet.accepts cmdDmaStatus p → ch = pf p.payload 0 4 → s.chip.dmaHeld ch = true →
      exec (.chDmaStatus p) s = .next (s.after fun c =>
        (c.slotFor cmdDmaStatus p).setDm ch (fun x => { x with statW := x.statW ++ [c.ch.nextId] }))) ∧
    (s.chip.quiet.accepts cmdDmaStart p → ch = pf p.payload 0 2 → s.chip.dmaFree ch = true →
      exec (.chDmaStart p) s = .next (s.after fun c =>
        let d := (((c.slotFor cmdDmaStart p).set (F.DMA_SRC_W ch) (pf p.payload 8 8)).set (F.DMA_DST_W ch) (pf p.payload 16 8)).set
          (F.DMA_CTL_W ch) (pf p.payload 24 8)
        let d := (d.set (F.DMA_NEXT_W ch) (pf p.payload 32 8)).set (F.DMA_LEN_LEN ch) (pf p.payload 40 8)
        if pb p.payload 2 = 0 then (d.dmaGo ch).ok c.ch.nextId []
        else ((d.interim c.ch.nextId ST_ACCEPTED dtNone []).setDm ch
          (fun x => { x with startW := x.startW ++ [c.ch.nextId] })).dmaGo ch)) ∧
    (s.chip.quiet.accepts cmdDmaArm p → ch = pf p.payload 0 2 → s.chip.is (F.DMA_CH_CMD_ARM ch) = false →
      exec (.chDmaArm p) s = .next (s.after fun c =>
        let d := (((c.slotFor cmdDmaArm p).set (F.SH_SRC_W ch) (pf p.payload 8 8)).set (F.SH_DST_W ch) (pf p.payload 16 8)).set
          (F.SH_CTL_W ch) (pf p.payload 24 8)
        let d := (d.set (F.SH_NEXT_W ch) (pf p.payload 32 8)).set (F.SH_LEN_LEN ch) (pf p.payload 40 8)
        (d.dmaArm ch).ok c.ch.nextId [])) ∧
    (s.chip.quiet.accepts cmdDmaPause p → ch = pf p.payload 0 4 →
      (s.chip.dmState ch = dmQueued ∨ s.chip.dmState ch = dmActive ∨ s.chip.dmState ch = dmWaitDreq ∨ s.chip.dmState ch = dmPausing) →
      exec (.chDmaPause p) s = .next (s.after fun c =>
        (((c.slotFor cmdDmaPause p).interim c.ch.nextId ST_ACCEPTED dtNone []).setDm ch
          (fun x => { x with pauseW := x.pauseW ++ [c.ch.nextId] })).dmaPause ch)) ∧
    (s.chip.quiet.accepts cmdDmaPause p → ch = pf p.payload 0 4 →
      (s.chip.dmState ch = dmPaused ∨ s.chip.dmState ch = dmIdle ∨ s.chip.dmState ch = dmDone) →
      exec (.chDmaPause p) s = .next (s.after fun c => (c.slotFor cmdDmaPause p).ok c.ch.nextId [])) ∧
    (s.chip.quiet.accepts cmdDmaResume p → ch = pf p.payload 0 4 → s.chip.dmState ch = dmPaused →
      exec (.chDmaResume p) s = .next (s.after fun c => ((c.slotFor cmdDmaResume p).dmaResume ch).ok c.ch.nextId [])) ∧
    (s.chip.quiet.accepts cmdDmaAbort p → ch = pf p.payload 0 4 → s.chip.dmState ch ≠ dmIdle →
      exec (.chDmaAbort p) s = .next (s.after fun c =>
        (((c.slotFor cmdDmaAbort p).interim c.ch.nextId ST_ACCEPTED dtNone []).setDm ch
          (fun x => { x with abortW := x.abortW ++ [c.ch.nextId] })).dmaAbort ch)) ∧
    (s.chip.quiet.accepts cmdDmaAbort p → ch = pf p.payload 0 4 → s.chip.dmState ch = dmIdle →
      exec (.chDmaAbort p) s = .next (s.after fun c => (c.slotFor cmdDmaAbort p).ok c.ch.nextId []))

/-- R336 to R339, R346 and R350 to R354: the rows of Windway's link, its ports, its discovery at the root, and the time base. -/
def Obligations.WindwayLinkRows : Prop :=
  ∀ s : State, s.chip.awake = true →
    (∀ (p : Fin 8) (f : BitVec 200) (bad : BitVec 4), s.chip.wpState p = wpUp → frameCrc f.toNat ≠ bits f.toNat 183 152 →
      exec (.wwFrameReceive p f bad) s = .next (s.after fun c =>
        ((c.inc (F.WW_P_CNT_CRC_ERR p)).setWp p (fun w => { w with
          errs := w.errs + 1
          fails := (List.range 4).map (fun l => w.fails.getD l 0 + bit bad.toNat l) })).wpNak p)) ∧
    (∀ (p : Fin 8) (f : BitVec 200) (bad : BitVec 4), s.chip.wpState p = wpUp → frameCrc f.toNat = bits f.toNat 183 152 →
      f.toNat.testBit 144 = false → f.toNat.testBit 145 = false → bits f.toNat 150 149 = 0 →
      bits f.toNat 135 128 = (s.chip.wp p).rxSeq →
      exec (.wwFrameReceive p f bad) s = .next (s.after fun c =>
        ((c.setWp p (fun w => { w with rxSeq := (w.rxSeq + 1) % 256, gap := false })).emit (.wwAck p (bits f.toNat 135 128) false)).emit
          (.wwFlit p (bits f.toNat 148 146) (f.toNat % 2 ^ 128)))) ∧
    (∀ p : Fin 8, (∀ x ∈ (s.chip.wp p).unacked, x.2 < 3) →
      exec (.wwReplayTimeout p) s = .next (s.after (Chip.wpResend p))) ∧
    (∀ p : Fin 8, (s.chip.wp p).errs ≤ s.chip.get F.WW_CTL_ERR_THRESH →
      exec (.wwErrWindow p) s = .next (s.after fun c => c.setWp p (fun w => { w with errs := 0 }))) ∧
    (∀ (p : Fin 8) (uid : BitVec 128) (partner : Fin 8), s.chip.wwRuns = true → s.chip.is (F.WW_P_CTL_EN p) = true →
      s.chip.wpState p = wpTraining → s.chip.domState (domPort p) = 0 →
      exec (.portTrained p false uid partner) s = .next (s.after fun c =>
        let d := (((c.set (F.WW_P_STAT_LSTATE p) wpUp).set (F.WW_P_STAT_BRIDGE p) 0).set (F.WW_P_CTL_RETRAIN p) 0)
        let d := ((d.set (F.WW_P_STAT_PARTNER_PORT p) partner).set (F.WW_P_STAT_PARTNER_ID p) (c.idOf uid.toNat))
        let d := (d.setWp p (fun w => { w with uid := uid.toNat })).widthShow p
        (d.raise EV_WW_LINK_UP (p + 8 * d.get (F.WW_P_STAT_WIDTH p))).linkChanged p wpUp)) ∧
    (∀ p : Fin 8, s.chip.wpState p = wpUp →
      exec (.linkDown p) s = .next (s.after fun c => ((c.portLeave p wpDown).raise EV_WW_LINK_DOWN p).linkChanged p wpDown)) ∧
    (∀ g : WwChange, s.chip.ww.change = some g → g.phase = 0 → s.chip.get F.WW_INFLIGHT_OLD ≠ 0 → s.chip.ww.topo = [] →
      s.chip.ww.ids = [(s.chip.ownUid, 0)] →
      exec .discWaitExpiry s = .next (s.after fun c =>
        let d := c.set F.WW_ID_DEVICES 1
        { d with ww := { d.ww with change := some { g with phase := 1 } } })) ∧
    (∀ g : WwChange, s.chip.ww.change = some g → g.phase = 1 → s.chip.get F.WW_INFLIGHT_OLD = 0 →
      exec .routeOldDrained s = .next (s.after (Chip.changeWrite g))) ∧
    (∀ (p : Fin 8) (time : Nat) (at' : Fin 32000), s.chip.wpState p = wpUp → s.chip.is F.WW_TB_CTL_MASTER = true →
      exec (.timeCode p time none at') s = .next (s.after fun c =>
        c.setWp p (fun w => { w with heard := some (time, 32000 * c.get F.WW_TB_TIME + at') }))) ∧
    (∀ p : Nat, p < 8 → (∀ q < 8, s.chip.wpState q = wpUp ↔ q = p) →
      exec .timeCodeSend s = .next (s.after fun c =>
        c.emit (.timeCode p (32000 * c.get F.WW_TB_TIME)
          ((c.wp p).heard.map (fun h => (h.1, 32000 * c.get F.WW_TB_TIME - h.2)))))) ∧
    (∀ at' : Fin 32000, s.chip.tbRuns = true → s.chip.is F.WW_TB_CTL_MASTER = false → s.chip.is F.WW_TB_CTL_SRC = true →
      s.chip.get F.WW_TB_TIME % 2 ^ s.chip.get F.WW_TB_CTL_SYNC_LOG = 0 → s.chip.get F.WW_TB_CTL_PIN_OFFSET = 0 →
      at'.val ≤ 1200 →
      exec (.syncInEdge at') s = .next (s.after fun c => c.set F.WW_TB_STAT_PHASE_ERR (toBits 16 (-((at'.val / 3 : Nat) : Int))))) ∧
    (s.chip.tbRuns = true → s.chip.is F.WW_TB_STAT_LOCKED = false → s.chip.is F.WW_TB_CTL_MASTER = true →
      s.chip.get F.WW_TB_STAT_PHASE_ERR = 0 →
      exec .tbLock s = .next (s.after fun c => (c.set F.WW_TB_STAT_LOCKED 1).raise EV_WW_TB_LOCK (c.get F.WW_TB_STAT_UPSTREAM))) ∧
    (s.chip.is F.WW_TB_CTL_MASTER = false → s.chip.is F.WW_TB_STAT_LOCKED = true →
      exec .tbSourceLost s = .next (s.after fun c => (c.set F.WW_TB_STAT_LOCKED 0).raise EV_WW_TB_UNLOCK 1)) ∧
    (s.chip.tbRuns = true → s.chip.get F.WW_TB_TIME % 2 ^ s.chip.get F.WW_TB_CTL_SYNC_LOG = 0 →
      exec .syncOutPulse s = .next (s.after fun c => c.emit (.syncOut (c.get F.WW_TB_TIME)))) ∧
    (exec (.wwCntClr 1) s = .next (s.after fun c => ((c.set F.WW_CNT_UNDELIV_CNT 0).set F.WW_CNT_ERR_CNT 0).answer rspOk 0)) ∧
    (∀ p : Fin 8, exec (.wwPCntClr p 1) s = .next (s.after fun c =>
      ((c.set (F.WW_P_CNT_CRC_ERR p) 0).set (F.WW_P_CNT_REPLAYS p) 0).answer rspOk 0)) ∧
    (∀ p : Fin 8, s.chip.wpState p ≠ wpRetired → s.chip.is (F.WW_P_CTL_EN p) = true → s.chip.wwRuns = true →
      exec (.wwPRetrain p) s = .next (s.after fun c =>
        (((c.set (F.WW_P_STAT_LSTATE p) wpTraining).set (F.WW_P_STAT_WIDTH p) 0).set (F.WW_P_CTL_RETRAIN p) 1).answer rspOk 0)) ∧
    (∀ (b : Fin 2) (d : BitVec 12) (v : Word), b.val ≠ s.chip.get F.WW_ID_EPOCH → s.chip.get F.WW_INFLIGHT_OLD = 0 →
      exec (.wwRouteEntryWrite b d v) s = .next (s.after fun c =>
        (c.set (F.WW_ROUTE_W b d.toNat) (v.toNat % 2 ^ (if d.toNat = 0xFFF then 40 else 41))).answer rspOk 0)) ∧
    (∀ (b : Fin 2) (d : BitVec 12) (v : Word), b.val = s.chip.get F.WW_ID_EPOCH ∨ s.chip.get F.WW_INFLIGHT_OLD ≠ 0 →
      exec (.wwRouteEntryWrite b d v) s = .next (s.after fun c => c.answer rspState 0))

/-- R339, R340, R343, R344, R346 to R348, R351, R355, R356: a packet on an UP port is delivered at its last hop, forwarded before it, and
cannot go on where the next port is not UP. -/
def Obligations.WindwayPacketRows : Prop :=
  ∀ (s : State) (p : Fin 8) (h : WwHdr), s.chip.awake = true → s.chip.wpState p = wpUp → h.hopix.toNat < h.hops.toNat →
    (∀ (serial : Nat) (uid : BitVec 128) (ports : List (Fin 4 × BitVec 128 × Fin 8)), h.hopix.toNat + 1 = h.hops.toNat →
      exec (.wwProbeReply p h serial uid ports) s = .next (s.after
        (Chip.probeReply serial uid.toNat (routePorts (hdrRroute h p) h.hops.toNat) (probePorts ports)))) ∧
    (∀ what : WwPathWrite, h.hopix.toNat + 1 = h.hops.toNat →
      exec (.wwPathWrite p h what) s = .next (s.after (Chip.pathWrite h (hdrRroute h p) what))) ∧
    (h.hopix.toNat + 1 = h.hops.toNat →
      exec (.wwPathReply p h) s = .next (s.after Chip.pathAck) ∧
      exec (.epochSwitch p h) s = .next (s.after fun c =>
        c.epochSwitch.wwAlong wtPathReply 3 0xFFF (hdrRroute h p) h.hops.toNat 1 [])) ∧
    (h.hopix.toNat + 1 = h.hops.toNat → h.dst.toNat = s.chip.get F.WW_ID_DEVICE_ID →
      (∀ q : WwRequest, exec (.wwReq p h q) s = .next (s.after (Chip.proxy p h (hdrRroute h p) q))) ∧
      (∀ r : WwResponse, exec (.wwRsp p h r) s = .next (s.after fun c =>
        c.respond r.ni r.idx r.ep ⟨r.code.toNat, r.detail.toNat⟩ r.word (r.data.map BitVec.toNat) 24)) ∧
      (∀ (ni : Fin 288) (idx : Fin 512) (ep : Fin 4) (detail : Byte), exec (.wwErr p h ni idx ep detail) s = .next (s.after fun c =>
        c.respond ni idx ep ⟨1, detail.toNat⟩ 0 [] 24)) ∧
      (∀ (port : Fin 8) (st : Fin 4) (e : Nat × Nat), s.chip.is F.WW_ID_ROOT = true →
        s.chip.ww.ids.find? (fun e => e.2 = h.src.toNat) = some e →
        exec (.linkChange p h port st) s = .next (s.after (Chip.rootReact e.1 port st))) ∧
      (∀ (tick : Word) (hold : Bool) (why : Byte), exec (.holdAnn p h tick hold why) s = .next (s.after
        (Chip.holdAnn h.src.toNat tick.toNat hold))) ∧
      (∀ dev : BitVec 12, exec (.xgFault p h dev) s = .next (s.after Chip.xgFault))) ∧
    (h.hopix.toNat + 1 = h.hops.toNat → h.dst.toNat ≠ s.chip.get F.WW_ID_DEVICE_ID →
      (∀ q : WwRequest, exec (.wwReq p h q) s = .next (s.after (Chip.wwSendErr p h q.ni q.idx q.ep 0x32))) ∧
      (∀ dev : BitVec 12, exec (.xgFault p h dev) s = .next (s.after fun c => c.inc F.WW_CNT_UNDELIV_CNT))) ∧
    (h.hopix.toNat + 1 < h.hops.toNat → s.chip.wpState (hopOf h.route.toNat (h.hopix.toNat + 1)) = wpUp →
      (∀ q : WwRequest, exec (.wwReq p h q) s = .next (s.after fun c =>
        c.wwPort (hopOf h.route.toNat (h.hopix.toNat + 1)) wtReq (1 + q.data.length)
          (hdrList h (h.hopix.toNat + 1) (hdrRroute h p)) (requestFields q)))) ∧
    (h.hopix.toNat + 1 < h.hops.toNat → s.chip.wpState (hopOf h.route.toNat (h.hopix.toNat + 1)) ≠ wpUp →
      (∀ q : WwRequest, exec (.wwReq p h q) s = .next (s.after (Chip.wwSendErr p h q.ni q.idx q.ep 0x31)))) ∧
    (∀ (serial : Nat) (root : BitVec 128) (path rev : List (Fin 8)), s.chip.is F.WW_ID_ROOT = false → root.toNat ≠ s.chip.ownUid →
      s.chip.ww.seen.contains (root.toNat, serial) = false → path.length = 12 →
      exec (.wwProbe p serial root path rev) s = .next (s.after fun c =>
        Chip.wwByPath (p.val :: rev.map Fin.val) wtProbeReply 1
          ([serial, c.ownUid] ++ wwPorts.flatMap (fun q => [c.wpState q, (c.wp q).uid, c.get (F.WW_P_STAT_PARTNER_PORT q)]))
          { c with ww := { c.ww with seen := (root.toNat, serial) :: c.ww.seen } })) ∧
    (∀ (serial : Nat) (root : BitVec 128) (path rev : List (Fin 8)), s.chip.is F.WW_ID_ROOT = false →
      s.chip.ww.seen.contains (root.toNat, serial) = true →
      exec (.wwProbe p serial root path rev) s = .next (s.after fun c => c))

/-- R338, R340 to R342, R351 and R358: what each command of class 0x07 does once its packet is accepted. -/
def Obligations.WindwayCommandRows : Prop :=
  ∀ (s : State) (p : Pkt),
    (s.chip.quiet.accepts cmdWwStatus p →
      exec (.chWwStatus p) s = .next (s.after fun c =>
        let d := c.slotFor cmdWwStatus p
        d.ok c.ch.nextId (d.regBytes wwIdFlds ++
          d.regBytes [F.WW_CTL_AUTO_REROUTE, F.WW_CTL_AUTO_REDISC, F.WW_CTL_ERR_THRESH, F.WW_CTL_DISC_WAIT] ++
          d.regBytes [F.WW_INFLIGHT_CUR, F.WW_INFLIGHT_OLD] ++
          d.regBytes [F.WW_TB_STAT_LOCKED, F.WW_TB_STAT_STEPPED, F.WW_TB_STAT_PHASE_ERR, F.WW_TB_STAT_UPSTREAM] ++
          wwPorts.flatMap (fun q => d.regBytes (wpStatFlds q))))) ∧
    (s.chip.quiet.accepts cmdWwDiscover p → s.chip.is F.WW_ID_ROOT = true → s.chip.ww.change = none →
      exec (.chWwDiscover p) s = .next (s.after fun c =>
        ((c.slotFor cmdWwDiscover p).interim c.ch.nextId ST_ACCEPTED dtNone []).discStart (some c.ch.nextId))) ∧
    (s.chip.quiet.accepts cmdWwTopoRead p → s.chip.is F.WW_ID_ROOT = true →
      exec (.chWwTopoRead p) s = .next (s.after fun c =>
        let d := c.slotFor cmdWwTopoRead p
        d.ok c.ch.nextId ((List.range (pf p.payload 2 2)).flatMap (fun i => d.topoBytes (pf p.payload 0 2 + i))))) ∧
    (s.chip.quiet.accepts cmdWwRoute p → s.chip.is F.WW_ID_ROOT = true → s.chip.ww.change = none → s.chip.get F.WW_INFLIGHT_OLD = 0 →
      exec (.chWwRoute p) s = .next (s.after fun c =>
        ((c.slotFor cmdWwRoute p).interim c.ch.nextId ST_ACCEPTED dtNone []).routeStart (some c.ch.nextId)
          (decide (pb p.payload 0 = 0)))) ∧
    (s.chip.quiet.accepts cmdWwPort p → s.chip.wpState (pb p.payload 0) ≠ wpRetired →
      exec (.chWwPort p) s = .next (s.after fun c =>
        let d := c.slotFor cmdWwPort p
        (if pb p.payload 1 = 2 then d.portRetrain (pb p.payload 0)
          else d.portEnable (pb p.payload 0) (decide (pb p.payload 1 = 1))).ok c.ch.nextId [])) ∧
    (s.chip.quiet.accepts cmdWwLaneTest p → (s.chip.get (F.WW_P_STAT_LANE_RET (pb p.payload 0))).testBit (pb p.payload 1) = false →
      s.chip.wpState (pb p.payload 0) = wpUp → s.chip.dstate ≠ stSafe →
      s.chip.tqFull 9 (pb p.payload 0 + 8 * pb p.payload 1) = false →
      exec (.chWwLaneTest p) s = .next (s.after fun c =>
        ((c.slotFor cmdWwLaneTest p).interim c.ch.nextId ST_ACCEPTED dtNone []).laneOut (pb p.payload 0) (pb p.payload 1)
          [c.ch.nextId]))

/-- R411 to R413, R415 to R421 and R423: the rows of clocks, region power and the persistent store. -/
def Obligations.PowerRows : Prop :=
  ∀ s : State, s.chip.awake = true →
    (∀ (r : Fin 192) (v : Word), fsetOk (bits v.toNat 8 0) = true → s.chip.get (F.FAB_RG_CTL_CLKSRC r) = 0 → s.chip.rgState r = rgRun →
      s.chip.get (F.CLK_RG_FNOW r) ≠ throttled (bits v.toNat 8 0) (s.chip.get (zoneS r)) →
      exec (.clkRgWrite r v) s = .next (s.after fun c =>
        ((c.set (F.CLK_RG_FSET r) (bits v.toNat 8 0)).set (F.CLK_RG_SLEWING r) 1).answer rspOk 0)) ∧
    (∀ (r : Fin 192) (v : Word), fsetOk (bits v.toNat 8 0) = false →
      exec (.clkRgWrite r v) s = .next (s.after fun c => c.answer rspRange 0)) ∧
    (∀ r : Fin 192, s.chip.is (F.CLK_RG_SLEWING r) = true → s.chip.get (F.FAB_RG_CTL_CLKSRC r) = 0 → s.chip.ch.slots = [] →
      exec (.clockSlewDone r) s = .next (s.after fun c =>
        (c.set (F.CLK_RG_SLEWING r) 0).set (F.CLK_RG_FNOW r) (throttled (c.get (F.CLK_RG_FSET r)) (c.get (zoneS r))))) ∧
    (∀ (r : Fin 192) (k : Slot), s.chip.pwrCmd r = some k → s.chip.dstate = stUser → pb k.payload 1 = 0 →
      exec (.regionPowerDone r) s = .next (s.after fun c =>
        ((((c.domClosed (domRegion r)).regionOff r).spRegionOff r).regionCmdsEnd k.id r ST_DOMAIN_OFF).ok k.id [])) ∧
    (∀ (r : Fin 192) (k : Slot), s.chip.pwrCmd r = some k → s.chip.dstate = stUser → pb k.payload 1 = 1 →
      exec (.regionPowerDone r) s = .next (s.after fun c =>
        (((c.regionRun r (pb k.payload 2)).spRegionOn r).domOpen (domRegion r)).ok k.id [])) ∧
    (∀ (m : Fin 8) (w : Nat × Nat) (d : NvsDone), nvsMacro w.1 = m.val →
      s.chip.nvs.jobs = [{ words := [w], record := none, payload := none, bank := none, done := d }] →
      exec (.nvsWordWriteDone m) s = .next (s.after fun c =>
        let e := c.nvsPut w.1 w.2
        Chip.nvsReads (Chip.nvsFollow d { e with nvs := { e.nvs with jobs := [] } }))) ∧
    (∀ (ni : Fin 288) (off : BitVec 19) (v : Word) (w x : Nat), 96 ≤ ni.val → off.toNat % 8 = 0 →
      w = (s.chip.upage ni * 0x80000 + off.toNat) / 8 → s.chip.nvs.jobs = [] → s.chip.nvsWord w = some x →
      exec (.nvsApertureAccess ni off false false v) s = .next (s.after fun c => c.answer rspOk x)) ∧
    (∀ (ni : Fin 288) (off : BitVec 19) (v : Word) (w : Nat), 96 ≤ ni.val → off.toNat % 8 = 0 →
      w = (s.chip.upage ni * 0x80000 + off.toNat) / 8 → s.chip.nvs.jobs = [] → s.chip.nvsWord w = none →
      exec (.nvsApertureAccess ni off false false v) s = .next (s.after fun c => (c.nvsUnc w).answer rspUncorr 0)) ∧
    (∀ (ni : Fin 288) (off : BitVec 19) (v : Word) (w : Nat), 96 ≤ ni.val → off.toNat % 8 = 0 →
      w = (s.chip.upage ni * 0x80000 + off.toNat) / 8 → s.chip.nvsIdle [nvsMacro w] = false →
      exec (.nvsApertureAccess ni off false false v) s = .next (s.after
        (Chip.nvsJob { words := [], record := none, payload := none, bank := none, done := .accRead w }))) ∧
    (∀ (ni : Fin 288) (off : BitVec 19) (v : Word) (w : Nat), 96 ≤ ni.val → off.toNat % 8 = 0 →
      w = (s.chip.upage ni * 0x80000 + off.toNat) / 8 →
      exec (.nvsApertureAccess ni off true false v) s = .next (s.after fun c => c.nvsWrite [(w, v.toNat)] .access)) ∧
    (∀ (ni : Fin 288) (off : BitVec 19) (write wide : Bool) (v : Word), ni.val < 96 →
      exec (.nvsApertureAccess ni off write wide v) s = .next (s.after fun c => c.answer rspDenied 0)) ∧
    (∀ (ni : Fin 288) (v : Word), 96 ≤ ni.val →
      exec (.nvsUpageSelfAccess ni true v) s = .next (s.after fun c =>
        (c.set (F.NVS_UPAGE_PAGE (ni / 32) (ni % 32)) (v.toNat % 4)).answer rspOk 0) ∧
      exec (.nvsUpageSelfAccess ni false v) s = .next (s.after fun c => c.answer rspOk (c.upage ni))) ∧
    (exec (.nvsCntClr 1) s = .next (s.after fun c => ((c.set F.NVS_CNT_UNC_CNT 0).set F.NVS_CNT_EVLOG_LOST 0).answer rspOk 0)) ∧
    (∀ (e : Ev) (boot : Nat) (q : List (Ev × Nat)), s.chip.nvs.logBuf = (e, boot) :: q → s.chip.dstate ≠ stBoot →
      exec .evlogEntryWritten s = .next (s.after fun c =>
        let n := c.nvs.logSeq
        let d := c.forAll (wordsOf (8 * evlogSlot n) (evlogBytes e n boot)) (fun w => Chip.nvsPut w.1 w.2)
        { d with nvs := { d.nvs with logBuf := q, logSeq := (n + 1) % 2 ^ 32 } })) ∧
    (s.chip.dstate = stBoot → exec .evlogEntryWritten s = .next (s.after fun c => c))

/-- R412, R413, R415, R416, R419, R423 and R426: what each command on power, clocks and the persistent store does once its packet is
accepted. The rail measurements are free values (log entry 2). -/
def Obligations.PowerCommandRows : Prop :=
  ∀ (s : State) (p : Pkt),
    (s.chip.quiet.accepts cmdPwrStatus p →
      exec (.chPwrStatus p) s = .next (s.after fun c =>
        let d := c.slotFor cmdPwrStatus p
        Chip.ok c.ch.nextId (natLe 8 (d.regWord F.PWR_STAT_VALID.off) ++ d.railWords.flatMap (natLe 8)) { d with freeCtr := d.freeCtr + 11 })) ∧
    (s.chip.quiet.accepts cmdClkRegion p → s.chip.rgState (pb p.payload 0) ≠ rgRetired →
      exec (.chClkRegion p) s = .next (s.after fun c =>
        let d := (c.slotFor cmdClkRegion p).setFset (pb p.payload 0) (pf p.payload 2 2)
        if d.is (F.CLK_RG_SLEWING (pb p.payload 0)) then d else d.ok c.ch.nextId [])) ∧
    (∀ r : Nat, s.chip.quiet.accepts cmdPwrRegion p → r = pb p.payload 0 → s.chip.rgState r = rgRun → s.chip.dstate = stUser →
      (s.chip.quiet.slotFor cmdPwrRegion p).regionBusy s.chip.ch.nextId r = false → pb p.payload 1 = 0 →
      exec (.chPwrRegion p) s = .next (s.after fun c =>
        ((c.slotFor cmdPwrRegion p).interim c.ch.nextId ST_ACCEPTED dtNone []).domClose (domRegion r) 1)) ∧
    (∀ r : Nat, s.chip.quiet.accepts cmdPwrRegion p → r = pb p.payload 0 → s.chip.rgState r = rgOff → s.chip.dstate = stUser →
      (s.chip.quiet.slotFor cmdPwrRegion p).regionBusy s.chip.ch.nextId r = false → pb p.payload 1 = 1 →
      s.chip.stopState r (pb p.payload 2) = ssReady →
      exec (.chPwrRegion p) s = .next (s.after fun c =>
        (c.slotFor cmdPwrRegion p).interim c.ch.nextId ST_ACCEPTED dtNone [])) ∧
    (∀ r : Nat, s.chip.quiet.accepts cmdNvsRecInfo p → r = pf p.payload 0 4 →
      exec (.chNvsRecInfo p) s = .next (s.after fun c =>
        let d := c.slotFor cmdNvsRecInfo p
        d.ok c.ch.nextId (d.recHead r 0 ++ d.recHead r 1 ++ natLe 1 ((d.recChosen r).getD 0xFF) ++
          natLe 1 (b2n (d.recBank r 0).isSome) ++ natLe 1 (b2n (d.recBank r 1).isSome) ++ natLe 1 0))) ∧
    (∀ bs : List Byte, s.chip.quiet.accepts cmdNvsRecRead p → s.chip.recRead (pb p.payload 0) = some bs →
      exec (.chNvsRecRead p) s = .next (s.after fun c =>
        (c.slotFor cmdNvsRecRead p).ok c.ch.nextId ((List.range (pf p.payload 8 2)).map (fun i => bs.getD (pf p.payload 4 4 + i) 0)))) ∧
    (s.chip.quiet.accepts cmdNvsEvlogRead p →
      exec (.chNvsEvlogRead p) s = .next (s.after fun c =>
        let d := c.slotFor cmdNvsEvlogRead p
        let es := (List.range (pf p.payload 4 2)).filterMap (fun i =>
          let n := (pf p.payload 0 4 + i) % 2 ^ 32
          match d.evlogAt n with
          | some b => if pf b 16 4 = n then some b else none
          | none => none)
        d.ok c.ch.nextId (natLe 4 (d.evlogNewest.getD 0) ++ es.flatten))) ∧
    (s.chip.quiet.accepts cmdNvsUser p → pb p.payload 0 = 1 →
      exec (.chNvsUser p) s = .next (s.after fun c =>
        (c.slotFor cmdNvsUser p).nvsWrite (wordsOf (pf p.payload 4 4) (p.payload.drop 16))
          (.slot c.ch.nextId dtNone (natLe 4 (pf p.payload 8 2))))) ∧
    (s.chip.quiet.accepts cmdNvsUser p → pb p.payload 0 = 0 → s.chip.nvs.uncorr = [] → s.chip.nvs.jobs = [] →
      exec (.chNvsUser p) s = .next (s.after fun c =>
        (c.slotFor cmdNvsUser p).ok c.ch.nextId ((List.range (pf p.payload 8 2)).flatMap (fun i =>
          natLe 8 (tget 0 (pf p.payload 4 4 / 8 + i) c.nvs.words)))))

/-- R244, R246, R338, R376 to R380, R382, R388, R391 to R394 and Table 15.2: the rows of self-test, of fuse burns and of Ligature. -/
def Obligations.SelfTestRows : Prop :=
  ∀ s : State, s.chip.awake = true →
    (∀ (b : Burn) (q : List Burn), s.chip.cfg.burns = b :: q → b.what ≠ 6 →
      exec .fuseBurnDone s = .next (s.after fun c => Chip.burnDone b { c with cfg := { c.cfg with burns := q } })) ∧
    (∀ (b : Burn) (q : List Burn), s.chip.cfg.burns = b :: q → b.what = 6 →
      exec .fuseBurnDone s = .next (s.after fun c => Chip.fuseRepaired b { c with cfg := { c.cfg with burns := q } })) ∧
    (∀ (p : Fin 8) (l : Fin 4) (t : TestItem), s.chip.st.cur = some t → t.kind = 9 → t.loc = p + 8 * l →
      exec (.laneTestDone p l true) s = .next (s.after fun c =>
        Chip.testPass t (Chip.set F.ST_STAT_ACT 0 { c with st := { c.st with cur := none } })) ∧
      exec (.laneTestDone p l false) s = .next (s.after fun c =>
        Chip.testFail t 0 (Chip.set F.ST_STAT_ACT 0 { c with st := { c.st with cur := none } }))) ∧
    (∀ exp : BitVec 16, s.chip.stEn ≠ 0 → s.chip.stRuns = true → s.chip.st.slice = none → s.chip.st.cur = none → s.chip.st.queue = [] →
      s.chip.st.kind = 1 → s.chip.stKinds.testBit 1 = true →
      exec (.sliceStart true exp) s = .next (s.after fun c =>
        let d : Chip := Chip.set F.ST_STAT_KIND 1 { c with st := { c.st with kind := 2 } }
        let d := d.drWakeRank (1024 * tget 0 1 c.st.ptr) false
        Chip.set F.ST_STAT_ACT 1
          { d with st := { d.st with slice := some (1, tget 0 1 c.st.ptr, d.dstate), skips := tdel 1 d.st.skips } })) ∧
    (∀ exp : BitVec 16, s.chip.stEn ≠ 0 → s.chip.stRuns = true → s.chip.st.slice = none → s.chip.st.cur = none → s.chip.st.queue = [] →
      s.chip.st.kind = 1 → s.chip.stKinds.testBit 1 = true → tget 0 1 s.chip.st.skips = 0 →
      exec (.sliceStart false exp) s = .next (s.after fun c =>
        let d : Chip := Chip.set F.ST_STAT_KIND 1 { c with st := { c.st with kind := 2 } }
        let d : Chip := { d.inc F.ST_CNT_B_SKIPPED with st := { d.st with skips := tset 1 1 d.st.skips } }
        ((((d.set F.ST_LAST_DONE 0).set F.ST_LAST_EXP exp.toNat).set F.ST_LAST_VERDICT 3).set F.ST_LAST_KIND 1).set F.ST_LAST_ELEMENT
          (tget 0 1 c.st.ptr))) ∧
    (∀ (y : TestYield) (n k first : Nat) (found : List (BitVec 32)), s.chip.st.slice = some (k, first, s.chip.dstate) → y.endSt = 0 →
      y.done = y.exp → y.sigOk = true →
      exec (.sliceEnd y n found) s = .next (s.after fun c =>
        let d : Chip := { c with st := { c.st with slice := none, ptr := tset k ((first + max 1 n) % stCount k) c.st.ptr } }
        let d := (((d.set F.ST_STAT_ACT 0).set F.ST_LAST_SIG_SIG y.sig.toNat).set F.ST_LAST_DONE y.done.toNat).set F.ST_LAST_EXP y.exp.toNat
        let d := (((d.set F.ST_LAST_END 0).set F.ST_LAST_VERDICT 0).set F.ST_LAST_KIND k).set F.ST_LAST_ELEMENT first
        (if k = 3 then d.reedSliced first n else d).inc F.ST_CNT_A_PASS)) ∧
    (∀ t : TestItem, s.chip.st.queue = [t] → s.chip.elemRetired t.kind t.loc = false → s.chip.testWaits t = false → s.chip.stRuns = true →
      s.chip.st.cur = none → s.chip.st.slice = none → t.kind ≠ 10 →
      exec .targetedTestStart s = .next (s.after fun c =>
        Chip.set F.ST_STAT_ACT 2 { c with st := { c.st with cur := some t, queue := [] } })) ∧
    (∀ (y : TestYield) (sub : BitVec 16) (t : TestItem), s.chip.st.cur = some t → t.kind ≠ 9 → t.kind ≠ 10 → y.endSt = 0 →
      y.done = y.exp → y.sigOk = true →
      exec (.targetedTestEnd y sub) s = .next (s.after fun c =>
        let d := c.set F.ST_LAST_SIG_SIG y.sig.toNat
        Chip.testPass t (Chip.set F.ST_STAT_ACT 0 { d with st := { d.st with cur := none } }))) ∧
    (∀ (y : TestYield) (sub : BitVec 16) (t : TestItem), s.chip.st.cur = some t → t.kind ≠ 9 → t.kind ≠ 10 → y.endSt ≠ 0 →
      exec (.targetedTestEnd y sub) s = .next (s.after fun c =>
        let d := c.set F.ST_LAST_SIG_SIG y.sig.toNat
        let d : Chip := Chip.set F.ST_STAT_ACT 0 { d with st := { d.st with cur := none } }
        { d with st := { d.st with queue := t :: d.st.queue } })) ∧
    (∀ (tested : BitVec 32) (f : FullTest), s.chip.st.full = some f → f.aborts = [] →
      exec (.fullTestDone tested [] []) s = .next (s.after fun c =>
        ((Chip.fullWipe { c with st := { c.st with full := none } }).set F.ST_STAT_ACT 0).ok f.slot
          (natLe 4 tested.toNat ++ natLe 4 0 ++ natLe 4 0 ++ natLe 4 0))) ∧
    (exec (.stCntClr 2) s = .next (s.after fun c =>
      ((c.set F.ST_CNT_B_INCOMPLETE 0).set F.ST_CNT_B_SKIPPED 0).answer rspOk 0)) ∧
    (exec (.lgCntClr 4) s = .next (s.after fun c =>
      ((c.set F.LG_CNT_C_VOTE_CORR 0).set F.LG_CNT_C_RELOAD_FAIL 0).answer rspOk 0)) ∧
    (∀ (r t q : Nat) (w : Fin 20), s.chip.lgEn ≠ 0 → stFw ≤ s.chip.dstate → s.chip.dstate ≤ stConfigFailed → s.chip.lg.reload = none →
      r = s.chip.get F.LG_STAT_REGION → t = s.chip.get F.LG_STAT_STOP → q = s.chip.get F.LG_STAT_FRAME → t < 8 →
      s.chip.rgState r ≠ rgRetired → s.chip.stopState r t = ssReady →
      exec (.ligatureFrameCheck 0 (.word w) 0) s = .next (s.after fun c => (c.addSat F.LG_CNT_A_CORR 0).lgNext.lgBad r t q w false)) ∧
    (s.chip.lgEn ≠ 0 → stFw ≤ s.chip.dstate → s.chip.dstate ≤ stConfigFailed → s.chip.lg.reload = none →
      (∀ corr : Fin 21, ∀ find : LgFind, exec (.ligatureFrameCheck corr find 2) s = .next (s.after fun c =>
        let d := (((c.inc F.LG_CNT_B_RESTARTS).set F.LG_STAT_REGION 0).set F.LG_STAT_STOP 0).set F.LG_STAT_FRAME 0
        d.raise EV_LG_RESTART (d.get F.LG_CNT_B_RESTARTS)))) ∧
    (s.chip.lgEn ≠ 0 → stFw ≤ s.chip.dstate → s.chip.dstate ≤ stConfigFailed → s.chip.lg.reload ≠ none →
      (∀ corr : Fin 21, ∀ find : LgFind, exec (.ligatureFrameCheck corr find 2) s = .next (s.after fun c =>
        { c with lg := { c.lg with restart := true } }) ∧
        exec (.ligatureFrameCheck corr find 0) s = .next (s.after fun c => c))) ∧
    (∀ r t q w a : Nat, s.chip.lg.reload = some (r, t, q, w) → s.chip.lg.testing = false →
      a = s.chip.slotAddr (tget 0 (rsKey r t) s.chip.cfg.src) + 0x4000 + 320 * q →
      ((∀ b ∈ rowsOf a 320, s.chip.drRefusal b = none) → s.chip.dr.bad = [] →
        exec (.ligatureReloadDone false false) s = .next (s.after fun c =>
          Chip.reloadDone { c with cfg := { c.cfg with
            conf := tput zeroFrame (rsKey r t * 1600 + q) (c.slotFrame (tget 0 (rsKey r t) c.cfg.src) q) c.cfg.conf } })) ∧
      (∀ b : Nat, b ∈ rowsOf a 320 → s.chip.drRefusal b ≠ none →
        exec (.ligatureReloadDone false false) s = .next (s.after fun c =>
          (((c.emptyStop r t).inc F.LG_CNT_C_RELOAD_FAIL).raise EV_LG_RELOAD_FAILED
            (r + t * 2 ^ 8 + q * 2 ^ 11 + b2n (decide (c.gov r = t)) * 2 ^ 22)).reloadOver)))

/-- R380, R381, R386, R388, R395 and R398: what each command of class 0x09 does once its packet is accepted. -/
def Obligations.SelfTestCommandRows : Prop :=
  ∀ (s : State) (p : Pkt),
    (s.chip.quiet.accepts cmdStStatus p →
      exec (.chStStatus p) s = .next (s.after fun c =>
        let d := c.slotFor cmdStStatus p
        d.ok c.ch.nextId (natLe 8 d.stStatWord ++ [F.ST_LAST_DONE, F.ST_CNT_B_INCOMPLETE, F.ST_CNT_C_TRANSIENT, F.ST_RLOG_ENTRIES].flatMap
          (fun f => natLe 8 (d.regWord f.off))))) ∧
    (∀ k l : Nat, s.chip.quiet.accepts cmdStRun p → k = pb p.payload 0 → l = pf p.payload 4 4 → s.chip.st.full = none → k ≠ 9 →
      s.chip.elemRetired k l = false → s.chip.dstate ≠ stSafe → s.chip.tqFull k l = false →
      exec (.chStRun p) s = .next (s.after fun c =>
        ((c.slotFor cmdStRun p).interim c.ch.nextId ST_ACCEPTED dtNone []).tqPush k l [c.ch.nextId])) ∧
    (s.chip.quiet.accepts cmdStFull p → s.chip.st.full = none → lcProvField s.chip.lc = false → s.chip.dstate = stFw →
      exec (.chStFull p) s = .next (s.after fun c =>
        let d := ((((c.slotFor cmdStFull p).interim c.ch.nextId ST_ACCEPTED dtNone []).setState stTest).holdAll.denAllLow).auxAll
        Chip.set F.ST_STAT_ACT 3 { d with st := { d.st with full := some { slot := c.ch.nextId, aborts := [] } } })) ∧
    (s.chip.quiet.accepts cmdStFull p → lcProvField s.chip.lc = false → s.chip.dstate = stUser →
      exec (.chStFull p) s = .next (s.after fun c =>
        let d := (((c.slotFor cmdStFull p).interim c.ch.nextId ST_ACCEPTED dtNone []).leaveUser).cfgCancel
        let d := (((d.setState stTest).holdAll).denAllLow).auxAll
        Chip.set F.ST_STAT_ACT 3 { d with st := { d.st with full := some { slot := c.ch.nextId, aborts := [] } } })) ∧
    (s.chip.quiet.accepts cmdStLogRead p → s.chip.st.full = none →
      exec (.chStLogRead p) s = .next (s.after fun c =>
        (c.slotFor cmdStLogRead p).ok c.ch.nextId (rlogBytes (((if pb p.payload 4 = 1 then c.st.fused else c.st.log).drop
          (pf p.payload 0 2)).take (pf p.payload 2 2))))) ∧
    (s.chip.quiet.accepts cmdStFuseRepair p → s.chip.st.full = none →
      exec (.chStFuseRepair p) s = .next (s.after fun c => (c.slotFor cmdStFuseRepair p).burn c.ch.nextId 6 0 [])) ∧
    (s.chip.quiet.accepts cmdStLogClear p → s.chip.st.full = none →
      exec (.chStLogClear p) s = .next (s.after fun c =>
        let d := c.slotFor cmdStLogClear p
        let d := Chip.setSlot c.ch.nextId (fun (k : Slot) => { k with noStop := true }) { d with st := { d.st with log := [] } }
        ((d.set F.ST_RLOG_FULL 0).rlogShow).recWrite 2 [] none (.slot c.ch.nextId dtNone []))) ∧
    (s.chip.quiet.accepts cmdLgStatus p → s.chip.st.full = none →
      exec (.chLgStatus p) s = .next (s.after fun c =>
        let d := c.slotFor cmdLgStatus p
        d.ok c.ch.nextId ([F.LG_STAT_REGION, F.LG_LAST_REGION, F.LG_CNT_A_CORR, F.LG_CNT_B_RELOADS, F.LG_CNT_C_VOTE_CORR].flatMap
          (fun f => natLe 8 (d.regWord f.off)) ++ natLe 8 d.lgCtlWord)))

/-- The step law of a block: the command at the front of the queue is what runs, on the state with the queue's rest. -/
def Obligations.StepRunsTheFrontCommand : Prop :=
  ∀ (s : State) (c : Instr) (rest : List Instr), s.pending = c :: rest → step s = exec c { s with pending := rest }

/-- The model's choice (log entries 4 and 5), no rule of the spec but for the order of R54: a step with an empty queue is one tick of the
375 MHz time base, at which a Chanter command that waits may start; where none waits, nothing else happens. A command that is accepted
while another of its class waits, or an urgent one, waits too, and so does one that finds Chanter at work. A command that starts is the
oldest of its class that waits, and an urgent one where any urgent one waits (R54). In a device whose islands do not run, a tick changes
nothing but the outputs of the command before (log entry 3). -/
def Obligations.EmptyQueueTicks : Prop :=
  (∀ s : State, s.pending = [] →
    (s.chip.awake = true → s.chip.chanterUp = true → s.chip.startable = [] →
      step s = .next (s.after fun c => Chip.tick { c with ch := { c.ch with busy := false } })) ∧
    (s.chip.awake = true → s.chip.chanterUp = true → s.chip.startable ≠ [] → s.chip.ch.busy = false →
      ∃ k ∈ s.chip.startable, step s = .next (s.after fun c =>
        (Chip.startSlot k { c with ch := { c.ch with busy := decide (c.freeVal % 2 = 1) }, freeCtr := c.freeCtr + 1 }).tick)) ∧
    (s.chip.awake = true → s.chip.chanterUp = true → s.chip.startable ≠ [] → s.chip.ch.busy = true →
      step s = .next (s.after fun c =>
        Chip.tick { c with ch := { c.ch with busy := decide (c.freeVal % 2 = 1) }, freeCtr := c.freeCtr + 1 })) ∧
    (s.chip.awake = true → s.chip.chanterUp = false → step s = .next (s.after Chip.tick)) ∧
    (s.chip.awake = false → step s = .next (s.after id))) ∧
  (∀ c : Chip, c.tbRuns = true → c.tick = c.set F.WW_TB_TIME (c.get F.WW_TB_TIME + 1)) ∧
  (∀ c : Chip, c.tbRuns = false → c.tick = c) ∧
  (∀ (c : Chip) (k : Slot), k ∈ c.startable →
    k ∈ c.ch.slots ∧ k.waits = true ∧
    (k.flags.testBit 0 = false → ∀ u ∈ c.ch.slots, u.waits = true → u.flags.testBit 0 = false) ∧
    ∃ xs ys, c.ch.slots = xs ++ k :: ys ∧ ∀ u ∈ xs, u.waits = true → u.flags.testBit 0 = k.flags.testBit 0 → u.cls ≠ k.cls) ∧
  (∀ (c : Chip) (k : Cmd) (p : Pkt), c.takesPackets = true → p.payload.length ≤ 4096 →
    (p.route = .i3c → packetLen p.payload.length ≤ c.get F.I3C_STAT_MWL) →
    c.wayOf p.route p.tag.toNat p.dest.toNat (p.flags.toNat.testBit 2) = .run →
    c.cmdRefusal k p.flags.toNat p.payload = none → c.startsNow k.cls p.flags.toNat = false →
    Chip.command k p c = c.takeSlot false p.route k.cls k.op p.tag.toNat p.flags.toNat p.dest.toNat p.payload)

/-- The state after reset is sound: canonical memory, and no buffer beyond its size. -/
def Obligations.ResetIsSound : Prop := State.reset.chip.Sound

/-- R41, R48, R53, R61, R67, R95, R142, R158, R388, R423 and the canonical form of memory (log entry 9): from every sound state, one
step of any command leaves a sound state. The sizes of the buffers are the spec's. -/
def Obligations.EveryStepKeepsSound : Prop :=
  ∀ s s' : State, s.chip.Sound → step s = .next s' → s'.chip.Sound

/-- R8, R34: a field reads what was last stored in it, reduced to its width; no other field moves; and a count stops at its maximum. -/
def Obligations.FieldStoreFrame : Prop :=
  ∀ (c : Chip) (f g : Fld) (v n : Nat),
    (c.set f v).get f = v % 2 ^ f.w ∧
    (g.key ≠ f.key → (c.set f v).get g = c.get g) ∧
    ({ c.set f v with rf := c.rf } : Chip) = c ∧
    (c.addSat f n).get f = min (2 ^ f.w - 1) (c.get f + n) ∧
    (c.get f ≤ 2 ^ f.w - 1 → c.get f ≤ (c.inc f).get f)

/-- R440 to R442: the test access port and the device keep apart. Whatever the nine rows of the port shift or load, the device itself
stays as it is; and no other command, be it a reset or a loss of power (log entry 42), moves the port's registers. -/
def Obligations.TapIsolation : Prop :=
  (∀ (s : State) (pins preload : BitVec 2028) (op : Byte),
    ∀ row ∈ [Instr.tapReset, .extest, .jtagIdcode, .samplePreload pins preload, .jtagClamp, .jtagHighz, .extestPulse, .extestTrain,
        .jtagBypass op],
      ∃ t, exec row s = .next t ∧ t.pending = s.pending ∧
        t.chip = { s.chip.quiet with jtag := t.chip.jtag, out := t.chip.out } ∧
        (s.chip.jtag.ir < 256 → t.chip.jtag.ir < 256)) ∧
  (∀ (i : Instr) (s t : State), exec i s = .next t → t.chip.jtag ≠ s.chip.jtag →
    i = .tapReset ∨ i = .extest ∨ i = .jtagIdcode ∨ (∃ pins preload, i = .samplePreload pins preload) ∨ i = .jtagClamp ∨ i = .jtagHighz ∨
      i = .extestPulse ∨ i = .extestTrain ∨ ∃ op, i = .jtagBypass op)

/-- R35, R37, R39 to R42: the frame of the common commands of the I3C target. Beside the armed action, the protocol error flag and the
five fields named, nothing changes. -/
def Obligations.CommonCommandsFrame : Prop :=
  ∀ (s : State) (dst : CccDst) (a b : I3cTo) (dyn : BitVec 7) (on hot : Bool) (len : BitVec 16) (act : Byte),
    ∀ row ∈ [Instr.enec dst on hot, .disec dst on hot, .rstdaa, .entdaa b, .setdasa a dyn, .setnewda a dyn, .setmwl dst len,
        .setmrl dst len, .getmwl a, .getmrl a, .getpid a, .getbcr a, .getdcr a, .getmxds a, .getstatus a, .rstact dst act],
      ∃ t, exec row s = .next t ∧ t.pending = s.pending ∧
        t.chip = { s.chip.quiet with
          rf := t.chip.rf
          aon := { s.chip.aon with rstArm := t.chip.aon.rstArm, protoErr := t.chip.aon.protoErr }
          out := t.chip.out } ∧
        ∀ g : Fld, g.key ∉ [F.I3C_STAT_DYN_ADDR, F.I3C_STAT_DYN_VALID, F.I3C_STAT_IBI_EN, F.I3C_STAT_MWL, F.I3C_STAT_MRL].map Fld.key →
          t.chip.get g = s.chip.get g

/-- R254, R256 to R260: the frame of port A. A row of port A stores to its own word of its own bank and nowhere else, a read stores
nothing, and only the banks' own state, the event queue and log, the self-test queue and registers can change beside. -/
def Obligations.PortAFrame : Prop :=
  ∀ (s : State) (r : Fin 192) (b : Fin 16) (k : BitVec 12) (data : Wide) (be : BitVec 16) (flaw : Fin 3),
    (∀ row ∈ [Instr.spARead r b k flaw, .spAWrite r b k data be flaw, .spAAdd64 r b k data flaw, .spAAdd128 r b k data flaw,
        .spASwap r b k data flaw, .spAReservedOp r b],
      ∃ t, exec row s = .next t ∧ t.pending = s.pending ∧
        t.chip = { s.chip.quiet with
          rf := t.chip.rf, mem := t.chip.mem, ch := t.chip.ch, sp := t.chip.sp, st := t.chip.st, nvs := t.chip.nvs, out := t.chip.out } ∧
        ∀ a : Nat, a < spAddr r (16 * k.toNat + b) ∨ spAddr r (16 * k.toNat + b) + 16 ≤ a → memGet a t.chip.mem = memGet a s.chip.mem) ∧
    (∃ t, exec (.spARead r b k flaw) s = .next t ∧ t.chip.mem = s.chip.mem)

/-- R47, R48, R53, R67: the frame of the reading commands, for every packet, accepted or refused. They store nothing in memory, and
only Chanter's own state, the event log's buffer, registers and outputs can change. -/
def Obligations.ReadingCommandsFrame : Prop :=
  ∀ (s : State) (p : Pkt),
    ∀ row ∈ [Instr.chSysNop p, .chSysIdentify p, .chSysStatus p, .chThStatus p, .chSpStatus p, .chSpColmapRead p, .chPeStatus p, .chRdStatus p,
        .chRdCalRead p, .chCapStatus p, .chCapFflRead p, .chCapLostRead p, .chRaStatus p, .chDrStatus p, .chCfgStatus p, .chCfgLibStatus p,
        .chSecStatus p, .chStStatus p, .chStLogRead p, .chLgStatus p, .chWwStatus p, .chNvsRecInfo p],
      ∃ t, exec row s = .next t ∧ t.pending = s.pending ∧
        t.chip = { s.chip.quiet with
          rf := t.chip.rf, ch := t.chip.ch, nvs := { s.chip.nvs with logBuf := t.chip.nvs.logBuf }, freeCtr := t.chip.freeCtr, out := t.chip.out }

/-- R46. The polynomial's own definition, on the bit-reversed input, and stored little-endian at the end of a packet. -/
def Obligations.CrcIsCrc32c : Prop :=
  let shift := fun (r : BitVec 32) => if r.msb then (r <<< 1) ^^^ 0x1EDC6F41#32 else r <<< 1
  let byte := fun (r : BitVec 32) (b : Byte) =>
    (List.range 8).foldl (fun r _ => shift r) (r ^^^ (b.reverse.setWidth 32 <<< 24))
  (∀ bs : List Byte, crc32c bs = ((bs.foldl byte 0xFFFFFFFF#32).reverse ^^^ 0xFFFFFFFF#32).toNat) ∧
  crc32c [0x31#8, 0x32#8, 0x33#8, 0x34#8, 0x35#8, 0x36#8, 0x37#8, 0x38#8, 0x39#8] = 0xE3069283 ∧
  (∀ (cls op tag status detail src depth : Nat) (pl : List Byte), pl ≠ [] →
    (replyBytes cls op tag status detail src depth pl).drop (16 + pl.length) = natLe 4 (crc32c pl))

/-- R115, Table 4.4: both address ALUs, in arithmetic modulo 2^32, with the carry flags and the rule of `YCC`. -/
def Obligations.AddressAlus : Prop :=
  let put := fun (v : Nat → BitVec 32) (r : Nat) (x : BitVec 32) (j : Nat) => if j = r then x else v j
  let alu : Nat → Nat → BitVec 32 → (Nat → BitVec 32) → Bool → (Nat → BitVec 32) × Bool := fun op r imm v cy =>
    match op with
    | 0x0 => (v, cy)
    | 0x1 => (put v 0 (v 0 + v r), false)
    | 0x2 => (put v 0 (v 0 - v r), false)
    | 0x3 => if v 0 = v 2 then (put v 0 (v 1), true) else (put v 0 (v 0 + v r), false)
    | 0x4 => if v 0 = v 1 then (put v 0 (v 2), true) else (put v 0 (v 0 - v r), false)
    | 0x5 => (put v 0 (v 1), false)
    | 0x6 => (put v 0 (v 2), false)
    | 0x7 => (put v 0 imm, false)
    | 0x8 => (put v r imm, false)
    | 0x9 => (put v 6 (v 0), false)
    | 0xA => (put v 0 (v 6), false)
    | _ => (put v 0 (v 0 ^^^ v 7), false)
  ∀ (c : Chip) (k : Fin 16) (w : Nat), iXop w < 0xC → iYop w < 0xC →
    (∀ r < 8, c.get (F.PE_XALU_VAL k r) < 2 ^ 32 ∧ c.get (F.PE_YALU_VAL k r) < 2 ^ 32) →
    let imm := BitVec.ofNat 32 (iImmb w)
    let vx := fun r => BitVec.ofNat 32 (c.get (F.PE_XALU_VAL k r))
    let vy := fun r => BitVec.ofNat 32 (c.get (F.PE_YALU_VAL k r))
    let x : (Nat → BitVec 32) × Bool := alu (iXop w) (iXr w) imm vx (c.eng k).xcy
    let y : (Nat → BitVec 32) × Bool := if iYcc w = false ∨ ((iXop w = 3 ∨ iXop w = 4) ∧ x.2 = true) then alu (iYop w) (iYr w) imm vy (c.eng k).ycy
      else (vy, (c.eng k).ycy)
    let d := c.aluStep k w
    (∀ r < 8, d.get (F.PE_XALU_VAL k r) = (x.1 r).toNat ∧ d.get (F.PE_YALU_VAL k r) = (y.1 r).toNat) ∧
    (d.eng k).xcy = x.2 ∧ (d.eng k).ycy = y.2

/-- R114: a CALL with eight entries in use and a RET with none end the run in FAULT with their codes, the instruction is not issued, and
every run starts with an empty stack. The engine is in no gang and does not hold, and its instruction is a legal one. -/
def Obligations.CallStackFaults : Prop :=
  ∀ (s : State) (k : Fin 16) (word : BitVec 256),
    (s.chip.awake = true → s.chip.is (F.PE_CTL_GANG_EN k) = false → s.chip.peState k = peRunning → (s.chip.eng k).pause = none →
      (s.chip.eng k).npc < 65536 →
      let ends := fun (row : Instr) (code : Nat) => ∃ t, exec row s = .next t ∧ t.chip.peState k = peFault ∧
        t.chip.get (F.PE_FAULT_CODE k) = code ∧ t.chip.get (F.PE_FAULT_ADDR k) = (s.chip.eng k).npc ∧
        t.chip.get (F.PE_CYCLE_COUNT k) = s.chip.get (F.PE_CYCLE_COUNT k) ∧
        t.chip.get (F.PE_STAT_STACK_DEPTH k) = s.chip.get (F.PE_STAT_STACK_DEPTH k) ∧
        ∀ r < 8, t.chip.get (F.PE_XALU_VAL k r) = s.chip.get (F.PE_XALU_VAL k r)
      (8 ≤ s.chip.get (F.PE_STAT_STACK_DEPTH k) → s.chip.illegal k (withSeq seqCALL word.toNat) = false →
        ends (.seqCall k word) fcSTACK_OVF) ∧
      (s.chip.get (F.PE_STAT_STACK_DEPTH k) = 0 → s.chip.illegal k (withSeq seqRET word.toNat) = false →
        ends (.seqRet k word) fcSTACK_UNF)) ∧
    (∀ tick : Nat, (s.chip.beginEngine k tick).get (F.PE_STAT_STACK_DEPTH k) = 0)

/-- R258: an atomic operation reads, computes and writes its word in one bank operation, whatever the byte enables. -/
def Obligations.AtomicsOnOneWord : Prop :=
  ∀ (c : Chip) (r w be port : Nat) (n : BitVec 128), c.sp.bad.contains (spAddr r w) = false →
    let old := BitVec.ofNat 128 (c.spWord r w)
    let lane := fun (x y : BitVec 128) (i : Nat) => x.extractLsb' (64 * i) 64 + y.extractLsb' (64 * i) 64
    ∀ row ∈ [(SpOp.add64, (lane old n 1 ++ lane old n 0 : BitVec 128)), (SpOp.add128, old + n), (SpOp.swap, n)],
      ∃ d, c.bankOp r w row.1 n.toNat be 0 port = (.ok old.toNat, d) ∧ d.spWord r w = row.2.toNat ∧
        ∀ a : Nat, a < spAddr r w ∨ spAddr r w + 16 ≤ a → memGet a d.mem = memGet a c.mem

/-- R45, Table 2.5: a reply's header, payload and payload CRC, and what a command's final reply is composed of. -/
def Obligations.ReplyLayout : Prop :=
  (∀ (cls op tag status detail src depth : Nat) (pl : List Byte), cls < 2 ^ 8 → op < 2 ^ 8 → tag < 2 ^ 16 → status < 2 ^ 8 →
    detail < 2 ^ 8 → src < 2 ^ 16 → depth < 2 ^ 16 → pl.length ≤ 4096 →
    let bs := replyBytes cls op tag status detail src depth pl
    pb bs 0 = cls ∧ pb bs 1 = op ∧ pf bs 2 2 = tag ∧ pf bs 4 2 = pl.length ∧ pb bs 6 = status ∧ pb bs 7 = detail ∧ pf bs 8 2 = src ∧
      pf bs 10 2 = depth ∧ pf bs 12 4 = crc32c (bs.take 12) ∧ (bs.drop 16).take pl.length = pl ∧
      bs.drop (16 + pl.length) = (if pl = [] then [] else natLe 4 (crc32c pl))) ∧
  (∀ (c : Chip) (id status detail : Nat) (pl : List Byte) (k : Slot), c.slot? id = some k → k.ended = false → c.ch.restarting = false →
    let bytes := replyBytes (k.cls ||| 0x80) k.op k.tag status detail (c.get F.WW_ID_DEVICE_ID) (c.ch.slots.length - 1) pl
    (k.route = .i3c → (c.finish1 id status detail pl).ch.replies = c.ch.replies ++
      [{ slot := some id, refusal := false, bytes := bytes, sent := 0 }]) ∧
    (k.route ≠ .i3c → ∃ more, (c.finish1 id status detail pl).out = c.out ++ .wwReply k.route bytes :: more))

/-- R21, Table 1.6: the word at offset 0x0000 of the system block, its reset values, what a warm reset keeps and what a cold reset
leaves. The premise rules out states with a field wider than the register gives it, which no run reaches. -/
def Obligations.SysStateLayout : Prop :=
  (∀ c : Chip, (∀ f ∈ [F.SYS_STATE_STATE, F.SYS_STATE_FALLBACK, F.SYS_STATE_PREV_STATE, F.SYS_STATE_CAUSE, F.SYS_STATE_STRICT_HALT,
      F.SYS_STATE_COOLANT_OK, F.SYS_STATE_LOGIC_PG, F.SYS_STATE_BOOT_COUNT], c.get f < 2 ^ f.w) →
    let w := c.regWord 0x0000
    bits w 3 0 = c.dstate ∧ bits w 4 4 = c.get F.SYS_STATE_FALLBACK ∧ bits w 7 5 = 0 ∧ bits w 11 8 = c.get F.SYS_STATE_PREV_STATE ∧
      bits w 15 12 = 0 ∧ bits w 23 16 = c.get F.SYS_STATE_CAUSE ∧ bits w 24 24 = c.get F.SYS_STATE_STRICT_HALT ∧
      bits w 25 25 = c.get F.SYS_STATE_COOLANT_OK ∧ bits w 26 26 = c.get F.SYS_STATE_LOGIC_PG ∧ bits w 31 27 = 0 ∧
      bits w 47 32 = c.get F.SYS_STATE_BOOT_COUNT ∧ bits w 63 48 = 0) ∧
  (F.SYS_STATE_STATE.rst = 2 ∧ F.SYS_STATE_FALLBACK.rst = 0 ∧ F.SYS_STATE_PREV_STATE.rst = 0 ∧ F.SYS_STATE_CAUSE.rst = 0 ∧
    F.SYS_STATE_STRICT_HALT.rst = 0 ∧ F.SYS_STATE_LOGIC_PG.rst = 0 ∧ F.SYS_STATE_BOOT_COUNT.rst = 0) ∧
  (∀ c : Chip, ∀ f ∈ [F.SYS_STATE_PREV_STATE, F.SYS_STATE_CAUSE, F.SYS_STATE_BOOT_COUNT], c.warmClear.get f = c.get f) ∧
  (∀ s : State, s.chip.dstate ≠ stOff → ∃ t, exec .vddAonLost s = .next t ∧
    ∀ f ∈ [F.SYS_STATE_PREV_STATE, F.SYS_STATE_CAUSE, F.SYS_STATE_BOOT_COUNT], t.chip.get f = 0)

/-- R41: what RSTACT arms, what the Target Reset Pattern then performs, and what disarms. -/
def Obligations.ResetActions : Prop :=
  ∀ s : State,
    (∀ act : Byte, act.toNat ≤ 2 →
      (s.chip.i3cLive = true → exec (.rstact .broadcast act) s = .next (s.after fun c =>
        { c with aon := { c.aon with rstArm := some act.toNat } })) ∧
      (∀ a : BitVec 7, s.chip.i3cMine a.toNat = true → exec (.rstact (.direct a) act) s = .next (s.after fun c =>
        Chip.ack { c with aon := { c.aon with rstArm := some act.toNat } }))) ∧
    (∀ act : Byte, 2 < act.toNat →
      exec (.rstact .broadcast act) s = .next (s.after id) ∧
      ∀ a : BitVec 7, exec (.rstact (.direct a) act) s = .next (s.after Chip.nack)) ∧
    (∀ disarmed : Chip → Chip, (disarmed = fun c => { c with aon := { c.aon with rstArm := none } }) →
      ((s.chip.aon.rstArm = none ∨ s.chip.aon.rstArm = some 0) →
        exec .targetResetPattern s = .next (s.after disarmed)) ∧
      (s.chip.aon.rstArm = some 1 → s.chip.chanterUp = true →
        exec .targetResetPattern s = .next (s.after fun c => (disarmed c).restart)) ∧
      (s.chip.aon.rstArm = some 2 → s.chip.awake = true →
        exec .targetResetPattern s = .next (s.after fun c => ((disarmed c).tie).warmClear.enterBoot 0x02))) ∧
    (∃ t, exec .targetResetPattern s = .next t ∧ t.chip.aon.rstArm = none) ∧
    (∀ act : Byte, s.chip.i3cLive = true →
      exec (.rstact .bad act) s = .next (s.after fun c => { c with aon := { c.aon with protoErr := true } })) ∧
    (∀ c : Chip, c.warmClear.aon.rstArm = none) ∧
    (s.chip.dstate ≠ stOff → ∃ t, exec .vddAonLost s = .next t ∧ t.chip.aon.rstArm = none)

/-- R38: the identification values of the I3C target. -/
def Obligations.IdentificationValues : Prop :=
  ∀ (s : State) (a : BitVec 7), s.chip.i3cMine a.toNat = true →
    (∃ v : Nat, v < 2 ^ 48 ∧ bits v 47 33 = 0x1D3 ∧ bits v 32 32 = 0 ∧ bits v 31 16 = 0x7A09 ∧ bits v 15 14 = 0 ∧
      bits v 13 12 = s.chip.aon.addrSel % 4 ∧ bits v 11 0 = 0x002 ∧
      exec (.getpid (.addr a)) s = .next (s.after fun c => c.emit (.i3cData (natLe 6 v).reverse))) ∧
    exec (.getbcr (.addr a)) s = .next (s.after fun c => c.emit (.i3cData [0x06#8])) ∧
    exec (.getdcr (.addr a)) s = .next (s.after fun c => c.emit (.i3cData [0x00#8])) ∧
    exec (.getmxds (.addr a)) s = .next (s.after fun c => c.emit (.i3cData [0x00#8, 0x00#8]))

/-- R306: a FAB or BULK request that waited too long at its target is answered RSP_SLVERR, BUSY, and is not performed; with
`BUSY_WAIT` = 0 it is never refused; and requests of the classes RT and CTL stay where they are. A request that has gone into a region's
riser gate waits there without limit (R19, R310), so that one for a region waits at the NI only while that gate holds 16; and the path to
the target is whole (R313). -/
def Obligations.BusyRefusal : Prop :=
  ∀ (s : State) (ni : Fin 288) (bulk : Bool) (q : NReq), s.chip.awake = true → (96 ≤ ni.val → 16 ≤ (s.chip.gateOf (ni - 96)).length) →
    s.chip.net.flight.find? (fun q => niOf q.addr = ni.val && q.cls = (if bulk then 2 else 1) && !s.chip.net.gate.contains q) = some q →
    s.chip.routeOk q.ni ni = true →
    (s.chip.get (F.NI_CTL_BUSY_WAIT ni) ≠ 0 → s.chip.get (F.NI_CNT_A_BUSY_CNT ni) < 2 ^ (F.NI_CNT_A_BUSY_CNT ni).w - 1 →
      ∃ t, exec (.niBusyWaitExpiry ni bulk) s = .next t ∧
        t.chip.net.rsps = s.chip.net.rsps ++ [{ ni := q.ni, idx := q.idx, ep := q.ep, code := 1, detail := 0x01, word := 0, data := [], from' := ni }] ∧
        t.chip.mem = s.chip.mem ∧
        t.chip.get (F.NI_CNT_A_BUSY_CNT ni) = s.chip.get (F.NI_CNT_A_BUSY_CNT ni) + 1 ∧ t.chip.is (F.NI_STAT_BUSY ni) = true ∧
        (∀ g : Fld, g.key ≠ (F.NI_CNT_A_BUSY_CNT ni).key → g.key ≠ (F.NI_STAT_BUSY ni).key → t.chip.get g = s.chip.get g) ∧
        ∀ p ∈ s.chip.net.flight, (p.cls = 0 ∨ p.cls = 3) → p ∈ t.chip.net.flight) ∧
    (s.chip.get (F.NI_CTL_BUSY_WAIT ni) = 0 → exec (.niBusyWaitExpiry ni bulk) s = .next (s.after id))

/-- R153: a word outside the bitmap's geometry sets no bit, is counted, sets the flag, and raises its event the first time; the bitmap
sink has accepted it, so that it goes on to the fail-address table. -/
def Obligations.BitmapRange : Prop :=
  ∀ (c : Chip) (k : Fin 16) (e : Nat), c.is (F.CAP_PE_CTL_BM_EN k) = true →
    (2 ^ c.get (F.BM_GEOM_BXW k) ≤ fwX e ∨ 2 ^ c.get (F.BM_GEOM_BYW k) ≤ fwY e) →
    ∃ d, c.bmOffer k e = .accepted d ∧ d.mem = c.mem ∧ d.cap = c.cap ∧
      d.get (F.BM_RANGE_CNT_COUNT k) = min (2 ^ 48 - 1) (c.get (F.BM_RANGE_CNT_COUNT k) + 1) ∧
      d.is (F.CAP_PE_STAT_BM_RANGE k) = true ∧
      (c.is (F.CAP_PE_STAT_BM_RANGE k) = true → d.ch.events = c.ch.events) ∧
      (c.is (F.CAP_PE_STAT_BM_RANGE k) = false → c.ch.events.length < 256 →
        ∃ v : Ev, d.ch.events = c.ch.events ++ [v] ∧ v.code = 0x0505 ∧ v.sev = 1 ∧ v.arg = k)

/-- R61, R62, R64: an event joins the end of the queue; a full queue of 256 loses its oldest entry of the lowest severity present, or
else the new event; what is lost is counted by its severity; and entry to BOOT leaves the queue empty. -/
def Obligations.EventQueueLoss : Prop :=
  (∀ (c : Chip) (e : Ev), c.ch.events.length < 256 → (c.evqPut e).ch.events = c.ch.events ++ [e] ∧ (c.evqPut e).rf = c.rf) ∧
  (∀ (c : Chip) (e : Ev), c.ch.events.length = 256 → (∀ x ∈ c.ch.events, x.sev ≤ 3) → e.sev ≤ 3 →
    (c.evqPut e).ch.lossRun = c.ch.lossRun + 1 ∧
    ∃ m : Nat, (∃ x ∈ c.ch.events, x.sev = m) ∧ (∀ x ∈ c.ch.events, m ≤ x.sev) ∧
      (m ≤ e.sev → (∃ xs y ys, c.ch.events = xs ++ y :: ys ∧ y.sev = m ∧ (∀ x ∈ xs, x.sev ≠ m) ∧
          (c.evqPut e).ch.events = xs ++ ys ++ [e]) ∧
        (c.evqPut e).get (lostFld m) = min (2 ^ (lostFld m).w - 1) (c.get (lostFld m) + 1)) ∧
      (e.sev < m → (c.evqPut e).ch.events = c.ch.events ∧
        (c.evqPut e).get (lostFld e.sev) = min (2 ^ (lostFld e.sev).w - 1) (c.get (lostFld e.sev) + 1))) ∧
  (∀ (c : Chip) (cause : Nat), (c.enterBoot cause).ch.events = [])

/-- R363: the throttle law. S of every zone is the program of R363, with temperatures in units of 0.125 °C; the thresholds stand in
`TH_CFG` in whole °C, and L1 and L2 are the zones 221 and 222. The quotient of the negated number, rounded down, is the ceiling. -/
def Obligations.ThrottleLaw : Prop :=
  ∀ (c : Chip) (z : Nat), c.get F.TH_CFG_THROTTLE < c.get F.TH_CFG_LIMIT →
    let lo : Int := if 221 ≤ z then 8 * 95 else 8 * (c.get F.TH_CFG_THROTTLE : Int)
    let hi : Int := if 221 ≤ z then 8 * 105 else 8 * (c.get F.TH_CFG_LIMIT : Int)
    let d := c.zoneTemp z - lo
    let s1 : Int := if d ≤ 0 then 256 else max 64 (256 + (-(256 * d)) / (hi - lo))
    let s2 : Int := if (zoneSensors z).any (fun i => (c.sensor i).rateOn) then min s1 128 else s1
    let s3 : Int := if c.aon.coolForced then 64 else s2
    (c.zoneFactor z : Int) = min s3 (c.get F.TH_HOST_S_HOST : Int)
end

