-- ==== Sys2Proof/Laws/Tab.lean ====
section
/-! SUPPORT. Laws of the sparse tables and of byte memory: reads after writes, and the canonical form. -/

namespace Sys2Proof.Machine

variable {α : Type}

/-! ## Reads after writes -/

@[simp] theorem tget_nil (d : α) (k : Nat) : tget d k [] = d := rfl

theorem tget_tset_same (d : α) (k : Nat) (v : α) (t : Tab α) : tget d k (tset k v t) = v := by
  induction t with
  | nil => simp [tset, tget]
  | cons e t ih =>
    obtain ⟨k', v'⟩ := e
    simp only [tset]
    split
    · simp [tget]
    · split
      · simp [tget]
      · rename_i h _
        simp [tget, h, ih]

theorem tget_tset_ne (d : α) {j k : Nat} (h : j ≠ k) (v : α) (t : Tab α) : tget d j (tset k v t) = tget d j t := by
  induction t with
  | nil => simp [tset, tget, h.symm]
  | cons e t ih =>
    obtain ⟨k', v'⟩ := e
    simp only [tset]
    split
    · rename_i hk
      subst hk
      simp [tget, h.symm]
    · split
      · simp [tget, h.symm]
      · simp [tget, ih]

theorem tget_filter_of_true (d : α) (k : Nat) (p : Nat × α → Bool) (hp : ∀ e : Nat × α, e.1 = k → p e = true) (t : Tab α) :
    tget d k (t.filter p) = tget d k t := by
  induction t with
  | nil => rfl
  | cons e t ih =>
    obtain ⟨k', v'⟩ := e
    by_cases hk : k' = k
    · subst hk
      simp [List.filter, hp, tget]
    · by_cases h : p (k', v') = true
      · simp [List.filter, h, tget, hk, ih]
      · simp [List.filter, h, tget, hk, ih]

theorem tget_filter_of_false (d : α) (k : Nat) (p : Nat × α → Bool) (hp : ∀ e : Nat × α, e.1 = k → p e = false) (t : Tab α) :
    tget d k (t.filter p) = d := by
  induction t with
  | nil => rfl
  | cons e t ih =>
    obtain ⟨k', v'⟩ := e
    by_cases h : p (k', v') = true
    · have hk : k' ≠ k := fun e => by simp [hp (k', v') e] at h
      simp [List.filter, h, tget, hk, ih]
    · simp [List.filter, h, ih]

@[simp] theorem tget_tdel_same (d : α) (k : Nat) (t : Tab α) : tget d k (tdel k t) = d :=
  tget_filter_of_false d k _ (fun e h => by simp [h]) t

theorem tget_tdel_ne (d : α) {j k : Nat} (h : j ≠ k) (t : Tab α) : tget d j (tdel k t) = tget d j t :=
  tget_filter_of_true d j _ (fun e he => by simp [he, h]) t

@[simp] theorem tget_tput_same [DecidableEq α] (d : α) (k : Nat) (v : α) (t : Tab α) : tget d k (tput d k v t) = v := by
  unfold tput
  split
  · rename_i h
    simp [h]
  · exact tget_tset_same d k v t

theorem tget_tput_ne [DecidableEq α] (d d' : α) {j k : Nat} (h : j ≠ k) (v : α) (t : Tab α) :
    tget d j (tput d' k v t) = tget d j t := by
  unfold tput
  split
  · exact tget_tdel_ne d h t
  · exact tget_tset_ne d h v t

/-- Keeping entries by key leaves the value at every key that is kept. -/
theorem tget_tkeep (d : α) (p : Nat → Bool) (k : Nat) (t : Tab α) : tget d k (tkeep p t) = if p k then tget d k t else d := by
  unfold tkeep
  split
  · rename_i h
    exact tget_filter_of_true d k _ (fun e he => by simp [he, h]) t
  · rename_i h
    exact tget_filter_of_false d k _ (fun e he => by simpa [he] using h) t

/-! ## The canonical form -/

theorem tsorted_iff (t : Tab α) : tsorted t = true ↔ t.Pairwise (fun a b => a.1 < b.1) := by
  induction t with
  | nil => simp [tsorted]
  | cons e t ih =>
    cases t with
    | nil => simp [tsorted]
    | cons e' t =>
      obtain ⟨k, v⟩ := e
      obtain ⟨k', v'⟩ := e'
      simp only [tsorted, Bool.and_eq_true, decide_eq_true_eq, ih]
      constructor
      · rintro ⟨h, hp⟩
        refine List.pairwise_cons.2 ⟨?_, hp⟩
        intro b hb
        cases hb with
        | head => exact h
        | tail _ hb => exact Nat.lt_trans h ((List.pairwise_cons.1 hp).1 b hb)
      · intro hp
        exact ⟨(List.pairwise_cons.1 hp).1 (k', v') (by simp), (List.pairwise_cons.1 hp).2⟩

theorem tsorted_filter (p : Nat × α → Bool) {t : Tab α} (h : tsorted t = true) : tsorted (t.filter p) = true :=
  (tsorted_iff _).2 (((tsorted_iff t).1 h).filter p)

theorem mem_tset {k : Nat} {v : α} {t : Tab α} {e : Nat × α} (h : e ∈ tset k v t) : e = (k, v) ∨ e ∈ t := by
  induction t with
  | nil => simpa [tset] using h
  | cons e' t ih =>
    obtain ⟨k', v'⟩ := e'
    simp only [tset] at h
    split at h
    · cases h with
      | head => exact .inl rfl
      | tail _ h => exact .inr (List.mem_cons_of_mem _ h)
    · split at h
      · cases h with
        | head => exact .inl rfl
        | tail _ h => exact .inr h
      · cases h with
        | head => exact .inr (by simp)
        | tail _ h => exact (ih h).imp id (List.mem_cons_of_mem _)

theorem tsorted_tset (k : Nat) (v : α) {t : Tab α} (h : tsorted t = true) : tsorted (tset k v t) = true := by
  rw [tsorted_iff] at h ⊢
  induction t with
  | nil => simp [tset]
  | cons e t ih =>
    obtain ⟨k', v'⟩ := e
    have ⟨h1, h2⟩ := List.pairwise_cons.1 h
    simp only [tset]
    split
    · rename_i hk
      subst hk
      exact List.pairwise_cons.2 ⟨h1, h2⟩
    · rename_i hne
      split
      · rename_i hlt
        refine List.pairwise_cons.2 ⟨?_, h⟩
        intro b hb
        cases hb with
        | head => exact hlt
        | tail _ hb => exact Nat.lt_trans hlt (h1 b hb)
      · rename_i hge
        refine List.pairwise_cons.2 ⟨?_, ih h2⟩
        intro b hb
        cases mem_tset hb with
        | inl hb => subst hb; simp only; omega
        | inr hb => exact h1 b hb

theorem tsorted_tput [DecidableEq α] (d : α) (k : Nat) (v : α) {t : Tab α} (h : tsorted t = true) : tsorted (tput d k v t) = true := by
  unfold tput
  split
  · exact tsorted_filter _ h
  · exact tsorted_tset k v h

/-! ## Byte memory -/

@[simp] theorem memGet_memPut_same (a : Nat) (b : Byte) (m : Memory) : memGet a (memPut a b m) = b := tget_tput_same 0 a b m

theorem memGet_memPut_ne {a a' : Nat} (h : a ≠ a') (b : Byte) (m : Memory) : memGet a (memPut a' b m) = memGet a m :=
  tget_tput_ne 0 0 h b m

/-- A write leaves every byte outside its range. -/
theorem memGet_memWrite_out (a : Nat) (at' : Nat) (bs : List Byte) (m : Memory) (h : a < at' ∨ at' + bs.length ≤ a) :
    memGet a (memWrite at' bs m) = memGet a m := by
  induction bs generalizing at' m with
  | nil => rfl
  | cons b bs ih =>
    simp only [List.length_cons] at h
    simp only [memWrite]
    rw [ih (at' + 1) _ (by omega), memGet_memPut_ne (by omega)]

/-- A write puts each of its bytes in place. -/
theorem memGet_memWrite_in (at' i : Nat) (bs : List Byte) (m : Memory) (h : i < bs.length) :
    memGet (at' + i) (memWrite at' bs m) = bs[i] := by
  induction bs generalizing at' i m with
  | nil => simp at h
  | cons b bs ih =>
    simp only [memWrite]
    cases i with
    | zero => rw [memGet_memWrite_out _ _ _ _ (by omega)]; simp
    | succ i =>
      have := ih (at' + 1) i (memPut at' b m) (by simpa using h)
      rw [show at' + (i + 1) = at' + 1 + i by omega, this]
      simp

theorem memGet_memZero (a lo hi : Nat) (m : Memory) : memGet a (memZero lo hi m) = if lo ≤ a ∧ a < hi then 0 else memGet a m := by
  unfold memGet memZero
  split
  · rename_i h
    exact tget_filter_of_false 0 a _ (fun e he => by simp [he, h]) m
  · rename_i h
    exact tget_filter_of_true 0 a _ (fun e he => by simp [he]; omega) m

theorem wf_iff (m : Memory) : Memory.wf m = true ↔ tsorted m = true ∧ ∀ e ∈ m, e.2 ≠ 0 := by
  simp [Memory.wf, List.all_eq_true]

theorem wf_filter (p : Nat × Byte → Bool) {m : Memory} (h : Memory.wf m = true) : Memory.wf (List.filter p m) = true := by
  rw [wf_iff] at h ⊢
  exact ⟨tsorted_filter p h.1, fun e he => h.2 e (List.mem_filter.1 he).1⟩

theorem wf_memPut (a : Nat) (b : Byte) {m : Memory} (h : Memory.wf m = true) : Memory.wf (memPut a b m) = true := by
  unfold memPut tput
  split
  · exact wf_filter _ h
  · rename_i hb
    rw [wf_iff] at h ⊢
    refine ⟨tsorted_tset a b h.1, fun e he => ?_⟩
    cases mem_tset he with
    | inl he => subst he; exact hb
    | inr he => exact h.2 e he

theorem wf_memWrite (a : Nat) (bs : List Byte) {m : Memory} (h : Memory.wf m = true) : Memory.wf (memWrite a bs m) = true := by
  induction bs generalizing a m with
  | nil => exact h
  | cons b bs ih => exact ih (a + 1) (wf_memPut a b h)

theorem wf_memWriteMask (a : Nat) (bs : List (Bool × Byte)) {m : Memory} (h : Memory.wf m = true) :
    Memory.wf (memWriteMask a bs m) = true := by
  induction bs generalizing a m with
  | nil => exact h
  | cons b bs ih =>
    obtain ⟨e, b⟩ := b
    simp only [memWriteMask]
    split
    · exact ih (a + 1) (wf_memPut a b h)
    · exact ih (a + 1) h

theorem wf_memZero (lo hi : Nat) {m : Memory} (h : Memory.wf m = true) : Memory.wf (memZero lo hi m) = true := wf_filter _ h

end Sys2Proof.Machine
end

