-- ==== Sys2Proof/Laws/State.lean ====
section
/-! SUPPORT. What each named update of the state leaves in each part, so that no proof unfolds a record update. -/

namespace Sys2Proof.Machine

variable (c : Chip) (s : State) (f g : Fld) (v : Nat) (o : Out)

/-! ## Fields of registers -/

/-- A field that was set reads as what was stored, reduced to its width. -/
@[simp] theorem Chip.get_set_same : (c.set f v).get f = v % 2 ^ f.w := tget_tput_same _ _ _ _

/-- Setting a field leaves every field of another key. -/
theorem Chip.get_set_ne {f g : Fld} (v : Nat) (c : Chip) (h : f.key ≠ g.key) : (c.set g v).get f = c.get f :=
  tget_tput_ne _ _ h _ _

/-- A one-bit field that was set to 1 is set. -/
theorem Chip.is_set_one (h : f.w = 1) : (c.set f 1).is f = true := by simp [Chip.is, h]

/-- A field that was set to 0 is clear. -/
@[simp] theorem Chip.is_set_zero : (c.set f 0).is f = false := by simp [Chip.is]

@[simp] theorem Chip.set_mem : (c.set f v).mem = c.mem := rfl
@[simp] theorem Chip.set_aon : (c.set f v).aon = c.aon := rfl
@[simp] theorem Chip.set_ch : (c.set f v).ch = c.ch := rfl
@[simp] theorem Chip.set_th : (c.set f v).th = c.th := rfl
@[simp] theorem Chip.set_rd : (c.set f v).rd = c.rd := rfl
@[simp] theorem Chip.set_pe : (c.set f v).pe = c.pe := rfl
@[simp] theorem Chip.set_xg : (c.set f v).xg = c.xg := rfl
@[simp] theorem Chip.set_stops : (c.set f v).stops = c.stops := rfl
@[simp] theorem Chip.set_cap : (c.set f v).cap = c.cap := rfl
@[simp] theorem Chip.set_rae : (c.set f v).rae = c.rae := rfl
@[simp] theorem Chip.set_fab : (c.set f v).fab = c.fab := rfl
@[simp] theorem Chip.set_sp : (c.set f v).sp = c.sp := rfl
@[simp] theorem Chip.set_net : (c.set f v).net = c.net := rfl
@[simp] theorem Chip.set_ww : (c.set f v).ww = c.ww := rfl
@[simp] theorem Chip.set_dma : (c.set f v).dma = c.dma := rfl
@[simp] theorem Chip.set_dr : (c.set f v).dr = c.dr := rfl
@[simp] theorem Chip.set_cfg : (c.set f v).cfg = c.cfg := rfl
@[simp] theorem Chip.set_st : (c.set f v).st = c.st := rfl
@[simp] theorem Chip.set_lg : (c.set f v).lg = c.lg := rfl
@[simp] theorem Chip.set_nvs : (c.set f v).nvs = c.nvs := rfl
@[simp] theorem Chip.set_jtag : (c.set f v).jtag = c.jtag := rfl
@[simp] theorem Chip.set_freeCtr : (c.set f v).freeCtr = c.freeCtr := rfl
@[simp] theorem Chip.set_turn : (c.set f v).turn = c.turn := rfl
@[simp] theorem Chip.set_prior : (c.set f v).prior = c.prior := rfl
@[simp] theorem Chip.set_out : (c.set f v).out = c.out := rfl
@[simp] theorem Chip.set_refusals : (c.set f v).refusals = c.refusals := rfl

/-! ## Outputs, free values, and the start of a command -/

@[simp] theorem Chip.emit_get : (c.emit o).get f = c.get f := rfl
@[simp] theorem Chip.emit_is : (c.emit o).is f = c.is f := rfl
@[simp] theorem Chip.emit_rf : (c.emit o).rf = c.rf := rfl
@[simp] theorem Chip.emit_mem : (c.emit o).mem = c.mem := rfl
@[simp] theorem Chip.emit_aon : (c.emit o).aon = c.aon := rfl
@[simp] theorem Chip.emit_ch : (c.emit o).ch = c.ch := rfl
@[simp] theorem Chip.emit_th : (c.emit o).th = c.th := rfl
@[simp] theorem Chip.emit_rd : (c.emit o).rd = c.rd := rfl
@[simp] theorem Chip.emit_pe : (c.emit o).pe = c.pe := rfl
@[simp] theorem Chip.emit_xg : (c.emit o).xg = c.xg := rfl
@[simp] theorem Chip.emit_stops : (c.emit o).stops = c.stops := rfl
@[simp] theorem Chip.emit_cap : (c.emit o).cap = c.cap := rfl
@[simp] theorem Chip.emit_rae : (c.emit o).rae = c.rae := rfl
@[simp] theorem Chip.emit_fab : (c.emit o).fab = c.fab := rfl
@[simp] theorem Chip.emit_sp : (c.emit o).sp = c.sp := rfl
@[simp] theorem Chip.emit_net : (c.emit o).net = c.net := rfl
@[simp] theorem Chip.emit_ww : (c.emit o).ww = c.ww := rfl
@[simp] theorem Chip.emit_dma : (c.emit o).dma = c.dma := rfl
@[simp] theorem Chip.emit_dr : (c.emit o).dr = c.dr := rfl
@[simp] theorem Chip.emit_cfg : (c.emit o).cfg = c.cfg := rfl
@[simp] theorem Chip.emit_st : (c.emit o).st = c.st := rfl
@[simp] theorem Chip.emit_lg : (c.emit o).lg = c.lg := rfl
@[simp] theorem Chip.emit_nvs : (c.emit o).nvs = c.nvs := rfl
@[simp] theorem Chip.emit_jtag : (c.emit o).jtag = c.jtag := rfl
@[simp] theorem Chip.emit_freeCtr : (c.emit o).freeCtr = c.freeCtr := rfl
@[simp] theorem Chip.emit_turn : (c.emit o).turn = c.turn := rfl
@[simp] theorem Chip.emit_prior : (c.emit o).prior = c.prior := rfl
@[simp] theorem Chip.emit_out : (c.emit o).out = c.out ++ [o] := rfl

@[simp] theorem Chip.freeNext_get : c.freeNext.get f = c.get f := rfl
@[simp] theorem Chip.freeNext_is : c.freeNext.is f = c.is f := rfl
@[simp] theorem Chip.freeNext_rf : (c.freeNext).rf = c.rf := rfl
@[simp] theorem Chip.freeNext_mem : (c.freeNext).mem = c.mem := rfl
@[simp] theorem Chip.freeNext_aon : (c.freeNext).aon = c.aon := rfl
@[simp] theorem Chip.freeNext_ch : (c.freeNext).ch = c.ch := rfl
@[simp] theorem Chip.freeNext_th : (c.freeNext).th = c.th := rfl
@[simp] theorem Chip.freeNext_rd : (c.freeNext).rd = c.rd := rfl
@[simp] theorem Chip.freeNext_pe : (c.freeNext).pe = c.pe := rfl
@[simp] theorem Chip.freeNext_xg : (c.freeNext).xg = c.xg := rfl
@[simp] theorem Chip.freeNext_stops : (c.freeNext).stops = c.stops := rfl
@[simp] theorem Chip.freeNext_cap : (c.freeNext).cap = c.cap := rfl
@[simp] theorem Chip.freeNext_rae : (c.freeNext).rae = c.rae := rfl
@[simp] theorem Chip.freeNext_fab : (c.freeNext).fab = c.fab := rfl
@[simp] theorem Chip.freeNext_sp : (c.freeNext).sp = c.sp := rfl
@[simp] theorem Chip.freeNext_net : (c.freeNext).net = c.net := rfl
@[simp] theorem Chip.freeNext_ww : (c.freeNext).ww = c.ww := rfl
@[simp] theorem Chip.freeNext_dma : (c.freeNext).dma = c.dma := rfl
@[simp] theorem Chip.freeNext_dr : (c.freeNext).dr = c.dr := rfl
@[simp] theorem Chip.freeNext_cfg : (c.freeNext).cfg = c.cfg := rfl
@[simp] theorem Chip.freeNext_st : (c.freeNext).st = c.st := rfl
@[simp] theorem Chip.freeNext_lg : (c.freeNext).lg = c.lg := rfl
@[simp] theorem Chip.freeNext_nvs : (c.freeNext).nvs = c.nvs := rfl
@[simp] theorem Chip.freeNext_jtag : (c.freeNext).jtag = c.jtag := rfl
@[simp] theorem Chip.freeNext_turn : (c.freeNext).turn = c.turn := rfl
@[simp] theorem Chip.freeNext_prior : (c.freeNext).prior = c.prior := rfl
@[simp] theorem Chip.freeNext_out : (c.freeNext).out = c.out := rfl
@[simp] theorem Chip.freeNext_freeCtr : c.freeNext.freeCtr = c.freeCtr + 1 := rfl

@[simp] theorem Chip.quiet_get : c.quiet.get f = c.get f := rfl
@[simp] theorem Chip.quiet_is : c.quiet.is f = c.is f := rfl
@[simp] theorem Chip.quiet_rf : (c.quiet).rf = c.rf := rfl
@[simp] theorem Chip.quiet_mem : (c.quiet).mem = c.mem := rfl
@[simp] theorem Chip.quiet_aon : (c.quiet).aon = c.aon := rfl
@[simp] theorem Chip.quiet_ch : (c.quiet).ch = c.ch := rfl
@[simp] theorem Chip.quiet_th : (c.quiet).th = c.th := rfl
@[simp] theorem Chip.quiet_rd : (c.quiet).rd = c.rd := rfl
@[simp] theorem Chip.quiet_pe : (c.quiet).pe = c.pe := rfl
@[simp] theorem Chip.quiet_xg : (c.quiet).xg = c.xg := rfl
@[simp] theorem Chip.quiet_stops : (c.quiet).stops = c.stops := rfl
@[simp] theorem Chip.quiet_cap : (c.quiet).cap = c.cap := rfl
@[simp] theorem Chip.quiet_rae : (c.quiet).rae = c.rae := rfl
@[simp] theorem Chip.quiet_fab : (c.quiet).fab = c.fab := rfl
@[simp] theorem Chip.quiet_sp : (c.quiet).sp = c.sp := rfl
@[simp] theorem Chip.quiet_net : (c.quiet).net = c.net := rfl
@[simp] theorem Chip.quiet_ww : (c.quiet).ww = c.ww := rfl
@[simp] theorem Chip.quiet_dma : (c.quiet).dma = c.dma := rfl
@[simp] theorem Chip.quiet_dr : (c.quiet).dr = c.dr := rfl
@[simp] theorem Chip.quiet_cfg : (c.quiet).cfg = c.cfg := rfl
@[simp] theorem Chip.quiet_st : (c.quiet).st = c.st := rfl
@[simp] theorem Chip.quiet_lg : (c.quiet).lg = c.lg := rfl
@[simp] theorem Chip.quiet_nvs : (c.quiet).nvs = c.nvs := rfl
@[simp] theorem Chip.quiet_jtag : (c.quiet).jtag = c.jtag := rfl
@[simp] theorem Chip.quiet_freeCtr : (c.quiet).freeCtr = c.freeCtr := rfl
@[simp] theorem Chip.quiet_out : c.quiet.out = [] := rfl
@[simp] theorem Chip.quiet_turn : c.quiet.turn = none := rfl
@[simp] theorem Chip.quiet_prior : c.quiet.prior = c.turn := rfl
@[simp] theorem Chip.quiet_awake : c.quiet.awake = c.awake := rfl

/-! ## The state -/

@[simp] theorem State.after_pending (t : Chip → Chip) : (s.after t).pending = s.pending := rfl
@[simp] theorem State.after_chip (t : Chip → Chip) : (s.after t).chip = t s.chip.quiet := rfl

/-- Everything a meaning of the always-on island can do. -/
theorem runAon_eq (t : Chip → Chip) : runAon t s = .next (s.after t) := rfl

/-- A meaning of another island in a device whose islands run. -/
theorem runChip_awake (t : Chip → Chip) (h : s.chip.awake = true) : runChip t s = .next (s.after t) := by
  simp [runChip, State.after, Chip.quiet, h]

/-- A meaning of another island in a device whose islands do not run: nothing but the outputs change. -/
theorem runChip_asleep (t : Chip → Chip) (h : s.chip.awake = false) : runChip t s = .next (s.after id) := by
  simp [runChip, State.after, Chip.quiet, h]

/-- A step with a command at the front runs it with the queue's rest. -/
theorem step_cons (i : Instr) (rest : List Instr) (h : s.pending = i :: rest) : step s = exec i { s with pending := rest } := by
  simp [step, h]

/-- A step with an empty queue is one tick. -/
theorem step_nil (h : s.pending = []) : step s = idle s := by simp [step, h]

/-- What a step with no command does: a waiting Chanter command starts, then a tick passes (log entries 4 and 5). -/
theorem idle_eq : idle s = runChip Chip.tickAll s := rfl

end Sys2Proof.Machine
end

