-- ==== Sys2Proof/Laws/Holds.lean ====
section
/-! SUPPORT. The predicate that the soundness lemmas carry: a sound device whose test access port is a given one; and how it passes
through conditions, folds and updates of the other parts of the device. -/

namespace Sys2Proof.Machine

/-- The device is sound, and its test access port is `j`. -/
structure Chip.Holds (j : Jtag) (c : Chip) : Prop where
  sound : c.Sound
  port  : c.jtag = j

variable {j : Jtag} {c : Chip}

/-- An update: each part that soundness speaks of stays within its bound. -/
theorem Chip.holds_gen {rf : Tab Nat} {mem : Memory} {aon : Aon} {ch : Chanter} {th : Thermal} {rd : Reeds} {pe : Tab Pe} {xg : Xg}
    {stops : List (Nat × Nat × Nat)} {cap : Cap} {rae : Rae} {fab : Fabric} {sp : Spads} {net : Net} {ww : Ww} {dma : Dma}
    {dr : Dram} {cfg : Cfg} {st : SelfTest} {lg : Ligature} {nvs : Nvs} {jtag : Jtag} {freeCtr : Nat} {turn prior : Option Turn} {out : List Out}
    (h : Chip.Holds j c) (hp : jtag = c.jtag) (hm : c.mem.wf = true → mem.wf = true) (hs : c.ch.slots.length ≤ 32 → ch.slots.length ≤ 32)
    (hr : (c.ch.replies.filter Reply.refusal).length ≤ 8 → (ch.replies.filter Reply.refusal).length ≤ 8)
    (he : c.ch.events.length ≤ 256 → ch.events.length ≤ 256) (hf : c.ch.fwd.length ≤ 256 → ch.fwd.length ≤ 256)
    (hl : c.nvs.logBuf.length ≤ 16 → nvs.logBuf.length ≤ 16)
    (hb : (∀ e ∈ c.rd.buf, e.2.length ≤ 4096) → ∀ e ∈ rd.buf, e.2.length ≤ 4096)
    (hq : (∀ e ∈ c.cap.fifo, e.2.length ≤ 65536) → ∀ e ∈ cap.fifo, e.2.length ≤ 65536)
    (hg : (∀ e ∈ c.cap.ffl, e.2.length ≤ 4096) → ∀ e ∈ cap.ffl, e.2.length ≤ 4096)
    (hu : c.st.fused.length ≤ 256 → st.fused.length ≤ 256)
    (ha : (∀ a, c.aon.rstArm = some a → a ≤ 2) → ∀ a, aon.rstArm = some a → a ≤ 2) :
    Chip.Holds j (Chip.mk rf mem aon ch th rd pe xg stops cap rae fab sp net ww dma dr cfg st lg nvs jtag freeCtr turn prior out) :=
  ⟨⟨hm h.sound.mem, hs h.sound.slots, hr h.sound.refusals, he h.sound.events, hf h.sound.fwd, hl h.sound.evlog, hb h.sound.stamps,
    hq h.sound.fails, hg h.sound.ffl, hu h.sound.fused, ha h.sound.armed⟩, hp.trans h.port⟩

/-- An update of memory to another canonical memory, and of parts that soundness does not speak of. -/
theorem Chip.holds_mk_mem {rf : Tab Nat} {mem : Memory} {aon : Aon} {ch : Chanter} {th : Thermal} {rd : Reeds} {pe : Tab Pe} {xg : Xg}
    {stops : List (Nat × Nat × Nat)} {cap : Cap} {rae : Rae} {fab : Fabric} {sp : Spads} {net : Net} {ww : Ww} {dma : Dma}
    {dr : Dram} {cfg : Cfg} {st : SelfTest} {lg : Ligature} {nvs : Nvs} {jtag : Jtag} {freeCtr : Nat} {turn prior : Option Turn} {out : List Out}
    (hp : jtag = c.jtag) (hs : ch.slots = c.ch.slots) (hr : ch.replies = c.ch.replies)
    (he : ch.events = c.ch.events) (hf : ch.fwd = c.ch.fwd) (hl : nvs.logBuf = c.nvs.logBuf) (hb : rd.buf = c.rd.buf)
    (hq : cap.fifo = c.cap.fifo) (hg : cap.ffl = c.cap.ffl) (hu : st.fused = c.st.fused) (ha : aon.rstArm = c.aon.rstArm)
    (h : Chip.Holds j c) (hm : c.mem.wf = true → mem.wf = true) :
    Chip.Holds j (Chip.mk rf mem aon ch th rd pe xg stops cap rae fab sp net ww dma dr cfg st lg nvs jtag freeCtr turn prior out) := by
  apply Chip.holds_gen h hp hm <;> simp only [hs, hr, he, hf, hl, hb, hq, hg, hu, ha] <;> exact id

/-- An update of parts that soundness does not speak of. -/
theorem Chip.holds_mk {rf : Tab Nat} {mem : Memory} {aon : Aon} {ch : Chanter} {th : Thermal} {rd : Reeds} {pe : Tab Pe} {xg : Xg}
    {stops : List (Nat × Nat × Nat)} {cap : Cap} {rae : Rae} {fab : Fabric} {sp : Spads} {net : Net} {ww : Ww} {dma : Dma}
    {dr : Dram} {cfg : Cfg} {st : SelfTest} {lg : Ligature} {nvs : Nvs} {jtag : Jtag} {freeCtr : Nat} {turn prior : Option Turn} {out : List Out}
    (hp : jtag = c.jtag) (hm : mem = c.mem) (hs : ch.slots = c.ch.slots) (hr : ch.replies = c.ch.replies)
    (he : ch.events = c.ch.events) (hf : ch.fwd = c.ch.fwd) (hl : nvs.logBuf = c.nvs.logBuf) (hb : rd.buf = c.rd.buf)
    (hq : cap.fifo = c.cap.fifo) (hg : cap.ffl = c.cap.ffl) (hu : st.fused = c.st.fused) (ha : aon.rstArm = c.aon.rstArm)
    (h : Chip.Holds j c) :
    Chip.Holds j (Chip.mk rf mem aon ch th rd pe xg stops cap rae fab sp net ww dma dr cfg st lg nvs jtag freeCtr turn prior out) :=
  Chip.holds_mk_mem hp hs hr he hf hl hb hq hg hu ha h (fun hw => hm ▸ hw)

theorem Chip.holds_ite {p : Prop} [Decidable p] {a b : Chip} (ha : p → Chip.Holds j a) (hb : ¬p → Chip.Holds j b) :
    Chip.Holds j (if p then a else b) := by
  split
  · exact ha ‹_›
  · exact hb ‹_›

theorem Chip.holds_ite_snd {α : Type} {p : Prop} [Decidable p] {a b : α × Chip} (ha : p → Chip.Holds j a.2) (hb : ¬p → Chip.Holds j b.2) :
    Chip.Holds j (if p then a else b).2 := by
  split
  · exact ha ‹_›
  · exact hb ‹_›

theorem Chip.holds_pair {α : Type} {a : α} {d : Chip} (h : Chip.Holds j d) : Chip.Holds j (a, d).2 := h

theorem Chip.holds_of_pair {α : Type} {x : α × Chip} {a : α} {d : Chip} (e : x = (a, d)) (h : Chip.Holds j x.2) : Chip.Holds j d := by
  subst e
  exact h

theorem Chip.holds_foldl {α : Type} (l : List α) {f : Chip → α → Chip} (hf : ∀ c a, Chip.Holds j c → Chip.Holds j (f c a))
    (h : Chip.Holds j c) : Chip.Holds j (l.foldl f c) := by
  induction l generalizing c with
  | nil => exact h
  | cons a l ih => exact ih (hf c a h)

theorem Chip.holds_foldl_snd {α β : Type} (l : List α) {f : β × Chip → α → β × Chip} {x : β × Chip}
    (hf : ∀ x a, Chip.Holds j x.2 → Chip.Holds j (f x a).2) (h : Chip.Holds j x.2) : Chip.Holds j (l.foldl f x).2 := by
  induction l generalizing x with
  | nil => exact h
  | cons a l ih => exact ih (hf x a h)

theorem Chip.forAll_holds {α : Type} {l : List α} {f : α → Chip → Chip} (hf : ∀ a c, Chip.Holds j c → Chip.Holds j (f a c))
    (h : Chip.Holds j c) : Chip.Holds j (c.forAll l f) :=
  Chip.holds_foldl l (fun c a hc => hf a c hc) h

theorem Chip.when_holds {b : Bool} {f : Chip → Chip} (hf : ∀ c, Chip.Holds j c → Chip.Holds j (f c)) (h : Chip.Holds j c) :
    Chip.Holds j (c.when b f) :=
  Chip.holds_ite (fun _ => hf c h) (fun _ => h)

theorem wf_foldl {α : Type} (l : List α) {f : Memory → α → Memory} {m : Memory} (hf : ∀ m a, m.wf = true → (f m a).wf = true)
    (h : m.wf = true) : (l.foldl f m).wf = true := by
  induction l generalizing m with
  | nil => exact h
  | cons a l ih => exact ih (hf m a h)

/-! ## Lists in a table -/

theorem bound_tput {α : Type} [DecidableEq α] {n : Nat} {d : List α} {k : Nat} {l : List α} {t : Tab (List α)} (hl : l.length ≤ n)
    (h : ∀ e ∈ t, e.2.length ≤ n) : ∀ e ∈ tput d k l t, e.2.length ≤ n := by
  intro e he
  unfold tput at he
  split at he
  · exact h e (List.mem_filter.1 he).1
  · rcases mem_tset he with rfl | he
    · exact hl
    · exact h e he

theorem bound_tdel {α : Type} {n : Nat} {k : Nat} {t : Tab (List α)} (h : ∀ e ∈ t, e.2.length ≤ n) : ∀ e ∈ tdel k t, e.2.length ≤ n :=
  fun e he => h e (List.mem_filter.1 he).1

theorem bound_tget {α : Type} {n : Nat} {d : List α} {k : Nat} {t : Tab (List α)} (hd : d.length ≤ n) (h : ∀ e ∈ t, e.2.length ≤ n) :
    (tget d k t).length ≤ n := by
  induction t with
  | nil => exact hd
  | cons e t ih =>
    obtain ⟨k', v⟩ := e
    unfold tget
    split
    · exact h (k', v) (List.mem_cons_self ..)
    · exact ih (fun e he => h e (List.mem_cons_of_mem _ he))

/-- What an operation that may not go on leaves, if it goes on. -/
def Chip.HoldsO (j : Jtag) (o : Option Chip) : Prop := ∀ d, o = some d → Chip.Holds j d

theorem Chip.holds_getD {o : Option Chip} (ho : Chip.HoldsO j o) (h : Chip.Holds j c) : Chip.Holds j (o.getD c) := by
  cases o with
  | none => exact h
  | some d => exact ho d rfl

theorem Chip.holdsO_map {α : Type} {o : Option α} {f : α → Chip} (hf : ∀ a, o = some a → Chip.Holds j (f a)) :
    Chip.HoldsO j (o.map f) := by
  intro d e
  cases o with
  | none => cases e
  | some a =>
    cases e
    exact hf a rfl

theorem Chip.holdsO_none : Chip.HoldsO j none := fun _ e => by cases e

theorem Chip.holdsO_some (h : Chip.Holds j c) : Chip.HoldsO j (some c) := fun _ e => by
  cases e
  exact h

theorem Chip.holdsO_ite {p : Prop} [Decidable p] {a b : Option Chip} (ha : p → Chip.HoldsO j a) (hb : ¬p → Chip.HoldsO j b) :
    Chip.HoldsO j (if p then a else b) := by
  split
  · exact ha ‹_›
  · exact hb ‹_›

end Sys2Proof.Machine
end

