-- ==== Sys2Proof/Laws/KeepOps.lean ====
section
/-! SUPPORT. Each operation of Machine/Ops.lean keeps the device sound and leaves its test access port. -/

namespace Sys2Proof.Machine

variable {j : Jtag} {c : Chip}

theorem Chip.set_holds {x0 x1} (h : Chip.Holds j c) : Chip.Holds j (Chip.set x0 x1 c) := by
  unfold Chip.set
  refine Chip.holds_mk rfl rfl rfl rfl rfl rfl rfl rfl rfl rfl rfl rfl ?_
  exact h

theorem Chip.addSat_holds {x0 x1} (h : Chip.Holds j c) : Chip.Holds j (Chip.addSat x0 x1 c) := by
  unfold Chip.addSat
  refine Chip.set_holds ?_
  exact h

theorem Chip.inc_holds {x0} (h : Chip.Holds j c) : Chip.Holds j (Chip.inc x0 c) := by
  unfold Chip.inc
  refine Chip.addSat_holds ?_
  exact h

theorem Chip.emit_holds {x0} (h : Chip.Holds j c) : Chip.Holds j (Chip.emit x0 c) := by
  unfold Chip.emit
  refine Chip.holds_mk rfl rfl rfl rfl rfl rfl rfl rfl rfl rfl rfl rfl ?_
  exact h

theorem Chip.writeFld_holds {x0 x1 x2} (h : Chip.Holds j c) : Chip.Holds j (Chip.writeFld x0 x1 x2 c) := by
  unfold Chip.writeFld
  extract_lets v0
  split
  · refine Chip.set_holds ?_
    exact h
  · refine Chip.holds_ite (fun p5 => ?_) (fun p5 => ?_)
    · refine Chip.set_holds ?_
      exact h
    · exact h
  · refine Chip.set_holds ?_
    exact h
  · refine Chip.holds_ite (fun p10 => ?_) (fun p10 => ?_)
    · refine Chip.set_holds ?_
      exact h
    · exact h
  · exact h
  · exact h
  · exact h

theorem Chip.writeFlds_holds {x0 x1 x2} (h : Chip.Holds j c) : Chip.Holds j (Chip.writeFlds x0 x1 x2 c) := by
  unfold Chip.writeFlds
  refine Chip.forAll_holds ?_ ?_
  · intro y0
    intro y1
    intro y2
    refine Chip.writeFld_holds ?_
    exact y2
  · exact h

theorem Chip.clear_holds {x0} (h : Chip.Holds j c) : Chip.Holds j (Chip.clear x0 c) := by
  unfold Chip.clear
  refine Chip.forAll_holds ?_ ?_
  · intro y0
    intro y1
    intro y2
    refine Chip.set_holds ?_
    exact y2
  · exact h

theorem Chip.resetRange_holds {x0 x1 x2} (h : Chip.Holds j c) : Chip.Holds j (Chip.resetRange x0 x1 x2 c) := by
  unfold Chip.resetRange
  refine Chip.holds_mk rfl rfl rfl rfl rfl rfl rfl rfl rfl rfl rfl rfl ?_
  exact h

theorem Chip.freeNext_holds (h : Chip.Holds j c) : Chip.Holds j (Chip.freeNext c) := by
  unfold Chip.freeNext
  refine Chip.holds_mk rfl rfl rfl rfl rfl rfl rfl rfl rfl rfl rfl rfl ?_
  exact h

theorem Chip.quiet_holds (h : Chip.Holds j c) : Chip.Holds j (Chip.quiet c) := by
  unfold Chip.quiet
  refine Chip.holds_mk rfl rfl rfl rfl rfl rfl rfl rfl rfl rfl rfl rfl ?_
  exact h

end Sys2Proof.Machine
end

