-- ==== Sys2Proof/Laws/KeepOperands.lean ====
section
/-! SUPPORT. Each operation of Machine/Operands.lean keeps the device sound and leaves its test access port. -/

namespace Sys2Proof.Machine

variable {j : Jtag} {c : Chip}

theorem Chip.tie_holds (h : Chip.Holds j c) : Chip.Holds j (Chip.tie c) := by
  unfold Chip.tie
  refine Chip.holds_ite (fun _ => h) (fun _ => Chip.freeNext_holds (Chip.holds_ite (fun _ => h) (fun _ => ?_)))
  exact Chip.holds_mk rfl rfl rfl rfl rfl rfl rfl rfl rfl rfl rfl rfl h

theorem Chip.arrive_holds {x0 x1} (h : Chip.Holds j c) : Chip.Holds j (Chip.arrive x0 x1 c) := by
  unfold Chip.arrive
  extract_lets v0 v1 v2 v3
  have w4 : Chip.Holds j v1 := by
    unfold v1
    refine Chip.holds_mk rfl rfl rfl rfl rfl rfl rfl rfl rfl rfl rfl rfl ?_
    exact h
  clear_value v1
  have w5 : Chip.Holds j v2 := by
    unfold v2
    refine Chip.set_holds ?_
    exact w4
  clear_value v2
  have w6 : Chip.Holds j v3 := by
    unfold v3
    refine Chip.holds_ite (fun p7 => ?_) (fun p7 => ?_)
    · exact w5
    · refine Chip.set_holds ?_
      exact w5
  clear_value v3
  refine Chip.holds_ite (fun p8 => ?_) (fun p8 => ?_)
  · exact w6
  · refine Chip.set_holds ?_
    exact w6

theorem Chip.setState_holds {x0} (h : Chip.Holds j c) : Chip.Holds j (Chip.setState x0 c) := by
  unfold Chip.setState
  refine Chip.arrive_holds ?_
  exact h

theorem Chip.answer_holds {x0 x1} (h : Chip.Holds j c) : Chip.Holds j (Chip.answer x0 x1 c) := by
  unfold Chip.answer
  refine Chip.emit_holds ?_
  exact h

end Sys2Proof.Machine
end

