-- ==== Sys2Proof/Laws/KeepFlags.lean ====
section
/-! SUPPORT. Each operation of Machine/Flags.lean keeps the device sound and leaves its test access port. -/

namespace Sys2Proof.Machine

variable {j : Jtag} {c : Chip}

theorem Chip.notice_holds {x0} (h : Chip.Holds j c) : Chip.Holds j (Chip.notice x0 c) := by
  unfold Chip.notice
  refine Chip.holds_ite (fun p0 => ?_) (fun p0 => ?_)
  · exact h
  · refine Chip.holds_ite (fun p1 => ?_) (fun p1 => ?_)
    · refine Chip.emit_holds ?_
      exact h
    · refine Chip.emit_holds ?_
      exact h

theorem Chip.emitIbi_holds {x0} (h : Chip.Holds j c) : Chip.Holds j (Chip.emitIbi x0 c) := by
  unfold Chip.emitIbi
  refine Chip.holds_mk rfl rfl rfl rfl rfl rfl rfl rfl rfl rfl rfl rfl ?_
  exact h

theorem Chip.requestEventIbi_holds (h : Chip.Holds j c) : Chip.Holds j (Chip.requestEventIbi c) := by
  unfold Chip.requestEventIbi
  extract_lets v0
  have w1 : Chip.Holds j v0 := by
    unfold v0
    refine Chip.holds_ite (fun p2 => ?_) (fun p2 => ?_)
    · refine Chip.emitIbi_holds ?_
      exact h
    · exact h
  clear_value v0
  refine Chip.holds_ite (fun p3 => ?_) (fun p3 => ?_)
  · refine Chip.notice_holds ?_
    exact w1
  · exact w1

theorem Chip.ibiIfRisen_holds {x0} (h : Chip.Holds j c) : Chip.Holds j (Chip.ibiIfRisen x0 c) := by
  unfold Chip.ibiIfRisen
  refine Chip.holds_ite (fun p0 => ?_) (fun p0 => ?_)
  · refine Chip.requestEventIbi_holds ?_
    exact h
  · exact h

theorem dropSev_length_of_mem {sev : Nat} {es : List Ev} (h : ∃ e ∈ es, e.sev = sev) : (dropSev sev es).length + 1 = es.length := by
  induction es with
  | nil =>
    obtain ⟨_, h, _⟩ := h
    cases h
  | cons e es ih =>
    unfold dropSev
    split
    · rfl
    · rename_i hne
      obtain ⟨x, hx, hs⟩ := h
      rcases List.mem_cons.1 hx with rfl | hx
      · exact absurd hs hne
      · simpa using ih ⟨x, hx, hs⟩

theorem foldl_min_mem (es : List Ev) (m : Nat) :
    es.foldl (fun m x => min m x.sev) m = m ∨ ∃ e ∈ es, e.sev = es.foldl (fun m x => min m x.sev) m := by
  induction es generalizing m with
  | nil => exact .inl rfl
  | cons e es ih =>
    rcases ih (min m e.sev) with h | ⟨x, hx, h⟩
    · simp only [List.foldl_cons, h]
      rcases Nat.le_total m e.sev with hm | hm
      · exact .inl (Nat.min_eq_left hm)
      · exact .inr ⟨e, List.mem_cons_self .., (Nat.min_eq_right hm).symm⟩
    · exact .inr ⟨x, List.mem_cons_of_mem _ hx, h⟩

theorem minSev_mem {es : List Ev} (h : es ≠ []) : ∃ e ∈ es, e.sev = minSev es := by
  cases es with
  | nil => exact absurd rfl h
  | cons e es =>
    rcases foldl_min_mem es e.sev with hm | ⟨x, hx, hm⟩
    · exact ⟨e, List.mem_cons_self .., hm.symm⟩
    · exact ⟨x, List.mem_cons_of_mem _ hx, hm⟩

theorem Chip.evqPut_holds {x0} (h : Chip.Holds j c) : Chip.Holds j (Chip.evqPut x0 c) := by
  unfold Chip.evqPut
  split
  · rename_i hn
    refine Chip.holds_gen h rfl id id id (fun _ => ?_) id id id id id id id
    rw [List.length_append]
    exact hn
  · rename_i hn
    extract_lets m
    refine Chip.holds_ite (fun _ => ?_) (fun _ => ?_)
    · refine Chip.inc_holds (Chip.holds_gen h rfl id id id (fun he => ?_) id id id id id id id)
      have := dropSev_length_of_mem (minSev_mem (es := c.ch.events) (fun h0 => by simp [h0] at hn))
      rw [List.length_append]
      simp only [m, List.length_singleton]
      omega
    · exact Chip.inc_holds (Chip.holds_mk rfl rfl rfl rfl rfl rfl rfl rfl rfl rfl rfl rfl h)

theorem Chip.evLogPut_holds {x0} (h : Chip.Holds j c) : Chip.Holds j (Chip.evLogPut x0 c) := by
  unfold Chip.evLogPut
  refine Chip.holds_ite (fun _ => ?_) (fun _ => h)
  refine Chip.holds_ite (fun hn => ?_) (fun _ => Chip.inc_holds h)
  refine Chip.holds_gen h rfl id id id id id (fun _ => ?_) id id id id id
  rw [List.length_append]
  exact hn

theorem Chip.raiseAt_holds {x0 x1 x2} (h : Chip.Holds j c) : Chip.Holds j (Chip.raiseAt x0 x1 x2 c) := by
  unfold Chip.raiseAt
  extract_lets v0 v1
  refine Chip.ibiIfRisen_holds ?_
  refine Chip.evLogPut_holds ?_
  refine Chip.evqPut_holds ?_
  exact h

theorem Chip.raise_holds {x0 x1} (h : Chip.Holds j c) : Chip.Holds j (Chip.raise x0 x1 c) := by
  unfold Chip.raise
  refine Chip.raiseAt_holds ?_
  exact h

theorem Chip.raiseIf_holds {x0 x1 x2} (h : Chip.Holds j c) : Chip.Holds j (Chip.raiseIf x0 x1 x2 c) := by
  unfold Chip.raiseIf
  refine Chip.holds_ite (fun p0 => ?_) (fun p0 => ?_)
  · refine Chip.raise_holds ?_
    exact h
  · exact h

theorem Chip.evqOverflow_holds (h : Chip.Holds j c) : Chip.Holds j (Chip.evqOverflow c) := by
  unfold Chip.evqOverflow
  refine Chip.holds_ite (fun p0 => ?_) (fun p0 => ?_)
  · extract_lets v1 v2
    refine Chip.raise_holds ?_
    refine Chip.holds_mk rfl rfl rfl rfl rfl rfl rfl rfl rfl rfl rfl rfl ?_
    exact h
  · exact h

theorem Chip.flagEvent_holds {x0 x1 x2} (h : Chip.Holds j c) : Chip.Holds j (Chip.flagEvent x0 x1 x2 c) := by
  unfold Chip.flagEvent
  refine Chip.holds_ite (fun p0 => ?_) (fun p0 => ?_)
  · exact h
  · refine Chip.raise_holds ?_
    refine Chip.set_holds ?_
    exact h

end Sys2Proof.Machine
end

