-- ==== Sys2Proof/Laws/KeepChanter.lean ====
section
/-! SUPPORT. Each operation of Machine/Chanter.lean keeps the device sound and leaves its test access port. -/

namespace Sys2Proof.Machine

variable {j : Jtag} {c : Chip}

theorem Chip.sendReply_holds' {x0 x1 x3} {b : Bool} (hb : b = true → c.refusals < 8) (h : Chip.Holds j c) :
    Chip.Holds j (Chip.sendReply x0 x1 b x3 c) := by
  unfold Chip.sendReply
  have hq : ((c.ch.replies ++ [({ slot := x1, refusal := b, bytes := x3, sent := 0 } : Reply)]).filter Reply.refusal).length ≤ 8 := by
    have h1 := h.sound.refusals
    rw [List.filter_append, List.length_append]
    unfold Chip.refusals at h1 hb
    cases b with
    | false => exact h1
    | true => exact hb rfl
  split
  · extract_lets v d
    have hd : Chip.Holds j d := Chip.holds_gen h rfl id id (fun _ => hq) id id id id id id id id
    refine Chip.holds_ite (fun _ => hd) (fun _ => ?_)
    exact Chip.emit_holds (Chip.holds_mk rfl rfl rfl rfl rfl rfl rfl rfl rfl rfl rfl rfl hd)
  · exact Chip.emit_holds h

theorem Chip.sendReply_holds {x0 x1 x3} (h : Chip.Holds j c) : Chip.Holds j (Chip.sendReply x0 x1 false x3 c) :=
  Chip.sendReply_holds' (fun e => by cases e) h

theorem Chip.setSlot_holds {x0 x1} (h : Chip.Holds j c) : Chip.Holds j (Chip.setSlot x0 x1 c) := by
  unfold Chip.setSlot
  refine Chip.holds_gen h rfl id (fun hs => ?_) id id id id id id id id id
  rw [List.length_map]
  exact hs

theorem Chip.freeSlot_holds {x0} (h : Chip.Holds j c) : Chip.Holds j (Chip.freeSlot x0 c) := by
  unfold Chip.freeSlot
  exact Chip.holds_gen h rfl id (Nat.le_trans (List.length_filter_le _ _)) id id id id id id id id id

theorem Chip.interim_holds {x0 x1 x2 x3} (h : Chip.Holds j c) : Chip.Holds j (Chip.interim x0 x1 x2 x3 c) := by
  unfold Chip.interim
  split
  · exact h
  · refine Chip.sendReply_holds ?_
    exact h

theorem Chip.finish1_holds {x0 x1 x2 x3} (h : Chip.Holds j c) : Chip.Holds j (Chip.finish1 x0 x1 x2 x3 c) := by
  unfold Chip.finish1
  split
  · exact h
  · refine Chip.holds_ite (fun p5 => ?_) (fun p5 => ?_)
    · exact h
    · refine Chip.holds_ite (fun p6 => ?_) (fun p6 => ?_)
      · refine Chip.holds_ite (fun p7 => ?_) (fun p7 => ?_)
        · refine Chip.setSlot_holds ?_
          exact h
        · exact h
      · extract_lets v8 v9 v10
        have w11 : Chip.Holds j v9 := by
          unfold v9
          refine Chip.sendReply_holds ?_
          exact h
        clear_value v9
        have w12 : Chip.Holds j v10 := by
          unfold v10
          refine Chip.holds_ite (fun p13 => ?_) (fun p13 => ?_)
          · refine Chip.setSlot_holds ?_
            exact w11
          · refine Chip.freeSlot_holds ?_
            exact w11
        clear_value v10
        refine Chip.raiseIf_holds ?_
        exact w12

theorem Chip.finish_holds {x0 x1 x2 x3} (h : Chip.Holds j c) : Chip.Holds j (Chip.finish x0 x1 x2 x3 c) := by
  unfold Chip.finish
  extract_lets v0
  refine Chip.forAll_holds ?_ ?_
  · intro y1
    intro y2
    intro y3
    refine Chip.finish1_holds ?_
    exact y3
  · refine Chip.finish1_holds ?_
    exact h

theorem Chip.ok_holds {x0 x1} (h : Chip.Holds j c) : Chip.Holds j (Chip.ok x0 x1 c) := by
  unfold Chip.ok
  refine Chip.finish_holds ?_
  exact h

theorem Chip.fail_holds {x0 x1 x2} (h : Chip.Holds j c) : Chip.Holds j (Chip.fail x0 x1 x2 c) := by
  unfold Chip.fail
  refine Chip.finish_holds ?_
  exact h

theorem Chip.endCmd_holds {x0 x1 x2 x3 x4 x5} (h : Chip.Holds j c) : Chip.Holds j (Chip.endCmd x0 x1 x2 x3 x4 x5 c) := by
  unfold Chip.endCmd
  split
  · refine Chip.finish_holds ?_
    exact h
  · exact h

theorem Chip.refuse_holds {x0 x1 x2 x3 x4 x5} (hr : c.takesPackets = true) (h : Chip.Holds j c) :
    Chip.Holds j (Chip.refuse x0 x1 x2 x3 x4 x5 c) := by
  have hr : c.refusals < 8 := by
    unfold Chip.takesPackets at hr
    simp only [Bool.and_eq_true, decide_eq_true_eq] at hr
    exact hr.2
  unfold Chip.refuse
  extract_lets d
  have hd : Chip.Holds j d := Chip.holds_ite (fun _ => Chip.inc_holds h) (fun _ => h)
  refine Chip.sendReply_holds' (fun _ => ?_) hd
  have e : d.refusals = c.refusals := by
    simp only [d]
    split <;> rfl
  rw [e]
  exact hr

theorem Chip.inc_takes {f : Fld} (hk : F.SYS_STATE_STATE.key ≠ f.key) : (c.inc f).takesPackets = c.takesPackets := by
  have e : (c.inc f).get F.SYS_STATE_STATE = c.get F.SYS_STATE_STATE := Chip.get_set_ne _ _ hk
  unfold Chip.takesPackets Chip.awake Chip.dstate
  rw [e]
  rfl

theorem Chip.forwardPkt_holds {x0 x1 x2 x3 x4 x5 x6} (hr : c.takesPackets = true) (h : Chip.Holds j c) :
    Chip.Holds j (Chip.forwardPkt x0 x1 x2 x3 x4 x5 x6 c) := by
  unfold Chip.forwardPkt
  refine Chip.holds_ite (fun hn => Chip.emit_holds ?_) (fun _ => Chip.refuse_holds hr h)
  refine Chip.holds_gen h rfl id id id id (fun _ => ?_) id id id id id id
  rw [List.length_append]
  exact hn

theorem Chip.takeSlot_holds {x0 x1 x2 x3 x4 x5 x6 x7} (hn : c.ch.slots.length < 32) (h : Chip.Holds j c) :
    Chip.Holds j (Chip.takeSlot x0 x1 x2 x3 x4 x5 x6 x7 c) := by
  unfold Chip.takeSlot
  extract_lets s
  refine Chip.holds_gen h rfl id (fun _ => ?_) id id id id id id id id id
  rw [List.length_append]
  exact hn

theorem Chip.cmdRefusal_none {k : Cmd} {flags : Nat} {pl : List Byte} (e : c.cmdRefusal k flags pl = none) : c.ch.slots.length < 32 := by
  unfold Chip.cmdRefusal at e
  extract_lets u at e
  split at e
  · cases e
  · split at e
    · cases e
    · split at e
      · cases e
      · split at e
        · cases e
        · split at e
          · cases e
          · have hu : (if u = true then 32 else 30) ≤ 32 := by
              cases u <;> decide
            by_cases hn : c.ch.slots.length < if u = true then 32 else 30
            · exact Nat.lt_of_lt_of_le hn hu
            · rw [if_neg hn] at e
              cases e

theorem Chip.runCmd_holds {x0 x1 x2 x3 x4 x5 x6 x7} (hr : c.takesPackets = true)
    (hk : ∀ k, x0 = some k → ∀ id pl c, Chip.Holds j c → Chip.Holds j (Cmd.run k id pl c)) (h : Chip.Holds j c) :
    Chip.Holds j (Chip.runCmd x0 x1 x2 x3 x4 x5 x6 x7 c) := by
  unfold Chip.runCmd
  split
  · exact Chip.refuse_holds hr h
  · split
    · exact Chip.refuse_holds hr h
    · rename_i e
      have hn := Chip.cmdRefusal_none e
      exact Chip.holds_ite (fun _ => hk _ rfl _ _ _ (Chip.takeSlot_holds hn h)) (fun _ => Chip.takeSlot_holds hn h)

theorem Chip.takePacket_holds {x0 x1 x2 x3 x4 x5 x6 x7} (hr : c.takesPackets = true)
    (hk : ∀ k, x0 = some k → ∀ id pl c, Chip.Holds j c → Chip.Holds j (Cmd.run k id pl c)) (h : Chip.Holds j c) :
    Chip.Holds j (Chip.takePacket x0 x1 x2 x3 x4 x5 x6 x7 c) := by
  unfold Chip.takePacket
  split
  · exact Chip.refuse_holds hr h
  · exact Chip.forwardPkt_holds hr h
  · exact Chip.runCmd_holds hr hk h

theorem Chip.command_holds {k p} (hk : ∀ id pl c, Chip.Holds j c → Chip.Holds j (Cmd.run k id pl c)) (h : Chip.Holds j c) :
    Chip.Holds j (Chip.command k p c) := by
  unfold Chip.command
  refine Chip.holds_ite (fun _ => ?_) (fun hr => ?_)
  · exact Chip.holds_ite (fun _ => Chip.emit_holds h) (fun _ => h)
  · have hr : c.takesPackets = true := by simpa using hr
    refine Chip.holds_ite (fun _ => Chip.refuse_holds hr h) (fun _ => ?_)
    refine Chip.holds_ite (fun _ => Chip.refuse_holds hr h) (fun _ => ?_)
    refine Chip.takePacket_holds hr (fun k' e => ?_) h
    cases e
    exact hk

end Sys2Proof.Machine
end

