-- ==== Sys2Proof/Laws/KeepNvs.lean ====
section
/-! SUPPORT. Each operation of Machine/Nvs.lean keeps the device sound and leaves its test access port. -/

namespace Sys2Proof.Machine

variable {j : Jtag} {c : Chip}

theorem Chip.nvsPut_holds {x0 x1} (h : Chip.Holds j c) : Chip.Holds j (Chip.nvsPut x0 x1 c) := by
  unfold Chip.nvsPut
  refine Chip.holds_ite (fun p0 => ?_) (fun p0 => ?_)
  · exact h
  · refine Chip.holds_mk rfl rfl rfl rfl rfl rfl rfl rfl rfl rfl rfl rfl ?_
    exact h

theorem Chip.nvsJob_holds {x0} (h : Chip.Holds j c) : Chip.Holds j (Chip.nvsJob x0 c) := by
  unfold Chip.nvsJob
  refine Chip.holds_mk rfl rfl rfl rfl rfl rfl rfl rfl rfl rfl rfl rfl ?_
  exact h

theorem Chip.recWrite_holds {x0 x1 x2 x3} (h : Chip.Holds j c) : Chip.Holds j (Chip.recWrite x0 x1 x2 x3 c) := by
  unfold Chip.recWrite
  refine Chip.nvsJob_holds ?_
  exact h

theorem Chip.nvsWrite_holds {x0 x1} (h : Chip.Holds j c) : Chip.Holds j (Chip.nvsWrite x0 x1 c) := by
  unfold Chip.nvsWrite
  refine Chip.nvsJob_holds ?_
  exact h

theorem Chip.nvsStep_holds {x0} (h : Chip.Holds j c) : Chip.Holds j (Chip.nvsStep x0 c).1 := by
  unfold Chip.nvsStep
  split
  · exact h
  · extract_lets w d1 v d2
    have h1 : Chip.Holds j d1 := Chip.nvsPut_holds h
    clear_value d1
    exact Chip.holds_mk (c := d1) rfl rfl rfl rfl rfl rfl rfl rfl rfl rfl rfl rfl h1

theorem Chip.evlogWords_holds {x0} (h : Chip.Holds j c) : Chip.Holds j (Chip.evlogWords x0 c) := by
  unfold Chip.evlogWords
  split
  · exact h
  · refine Chip.forAll_holds ?_ ?_
    · intro y7
      intro y8
      intro y9
      refine Chip.nvsPut_holds ?_
      exact y9
    · exact h

theorem Chip.evlogWritten_holds (h : Chip.Holds j c) : Chip.Holds j (Chip.evlogWritten c) := by
  unfold Chip.evlogWritten
  refine Chip.holds_ite (fun _ => h) (fun _ => ?_)
  extract_lets d
  have hd : Chip.Holds j d := Chip.evlogWords_holds h
  clear_value d
  exact Chip.holds_gen hd rfl id id id id id (fun hl => by rw [List.length_tail]; omega) id id id id id

theorem Chip.evlogResume_holds (h : Chip.Holds j c) : Chip.Holds j (Chip.evlogResume c) := by
  unfold Chip.evlogResume
  refine Chip.holds_mk rfl rfl rfl rfl rfl rfl rfl rfl rfl rfl rfl rfl ?_
  exact h

theorem Chip.nvsStop_holds (h : Chip.Holds j c) : Chip.Holds j (Chip.nvsStop c) := by
  unfold Chip.nvsStop
  extract_lets d0 d1
  have h0 : Chip.Holds j d0 := Chip.holds_ite (fun _ => Chip.freeNext_holds (Chip.evlogWords_holds h)) (fun _ => h)
  clear_value d0
  have h1 : Chip.Holds j d1 := by
    refine Chip.forAll_holds (fun m c h => ?_) h0
    split
    · exact Chip.nvsPut_holds h
    · exact h
  clear_value d1
  exact Chip.holds_gen h1 rfl id id id id id (fun _ => Nat.zero_le _) id id id id id

theorem Chip.nvsTear_holds {x0} (h : Chip.Holds j c) : Chip.Holds j (Chip.nvsTear x0 c) := by
  unfold Chip.nvsTear
  extract_lets k log ws d
  have hd : Chip.Holds j d := Chip.holds_ite (fun _ => Chip.freeNext_holds (Chip.evlogWords_holds h)) (fun _ => h)
  clear_value d
  exact Chip.holds_gen hd rfl id id id id id (fun _ => Nat.zero_le _) id id id id id

end Sys2Proof.Machine
end

