-- ==== Sys2Proof/Laws/KeepLink.lean ====
section
/-! SUPPORT. Each operation of Machine/Link.lean keeps the device sound and leaves its test access port. -/

namespace Sys2Proof.Machine

variable {j : Jtag} {c : Chip}

theorem Chip.setWp_holds {x0 x1} (h : Chip.Holds j c) : Chip.Holds j (Chip.setWp x0 x1 c) := by
  unfold Chip.setWp
  refine Chip.holds_mk rfl rfl rfl rfl rfl rfl rfl rfl rfl rfl rfl rfl ?_
  exact h

theorem Chip.wpFrames_holds {x0 x1} (h : Chip.Holds j c) : Chip.Holds j (Chip.wpFrames x0 x1 c) := by
  induction x1 generalizing c x0
  · unfold Chip.wpFrames
    exact h
  · rename_i nn ih
    unfold Chip.wpFrames
    split
    · exact h
    · extract_lets v29
      have w30 : Chip.Holds j v29 := by
        unfold v29
        refine Chip.setWp_holds ?_
        exact h
      clear_value v29
      refine ih ?_
      refine Chip.holds_ite (fun p31 => ?_) (fun p31 => ?_)
      · refine Chip.emit_holds ?_
        exact w30
      · exact w30

theorem Chip.wpFill_holds {x0} (h : Chip.Holds j c) : Chip.Holds j (Chip.wpFill x0 c) := by
  unfold Chip.wpFill
  refine Chip.holds_ite (fun p0 => ?_) (fun p0 => ?_)
  · exact h
  · refine Chip.wpFrames_holds ?_
    exact h

theorem Chip.wwPort_holds {x0 x1 x2 x3 x4} (h : Chip.Holds j c) : Chip.Holds j (Chip.wwPort x0 x1 x2 x3 x4 c) := by
  unfold Chip.wwPort
  refine Chip.holds_ite (fun p0 => ?_) (fun p0 => ?_)
  · refine Chip.wpFill_holds ?_
    refine Chip.setWp_holds ?_
    exact h
  · refine Chip.inc_holds ?_
    exact h

theorem Chip.wwAlong_holds {x0 x1 x2 x3 x4 x5 x6} (h : Chip.Holds j c) : Chip.Holds j (Chip.wwAlong x0 x1 x2 x3 x4 x5 x6 c) := by
  unfold Chip.wwAlong
  refine Chip.wwPort_holds ?_
  exact h

theorem Chip.wwTo_holds {x0 x1 x2 x3} (h : Chip.Holds j c) : Chip.Holds j (Chip.wwTo x0 x1 x2 x3 c) := by
  unfold Chip.wwTo
  split
  · refine Chip.inc_holds ?_
    exact h
  · refine Chip.wwAlong_holds ?_
    exact h

end Sys2Proof.Machine
end

