-- ==== Sys2Proof/Laws/KeepCapture.lean ====
section
/-! SUPPORT. Each operation of Machine/Capture.lean keeps the device sound and leaves its test access port. -/

namespace Sys2Proof.Machine

variable {j : Jtag} {c : Chip}

theorem Chip.setEng_holds {x0 x1} (h : Chip.Holds j c) : Chip.Holds j (Chip.setEng x0 x1 c) := by
  unfold Chip.setEng
  refine Chip.holds_mk rfl rfl rfl rfl rfl rfl rfl rfl rfl rfl rfl rfl ?_
  exact h

theorem Chip.setFifo_holds {x0 x1} (hn : x1.length ≤ 65536) (h : Chip.Holds j c) : Chip.Holds j (Chip.setFifo x0 x1 c) := by
  unfold Chip.setFifo
  extract_lets v d
  have hd : Chip.Holds j d := Chip.holds_gen h rfl id id id id id id id (bound_tput hn) id id id
  refine Chip.holds_ite (fun _ => Chip.set_holds hd) (fun _ => ?_)
  exact Chip.holds_ite (fun _ => Chip.set_holds hd) (fun _ => hd)

theorem Chip.markLost_holds {x0} (h : Chip.Holds j c) : Chip.Holds j (Chip.markLost x0 c) := by
  unfold Chip.markLost
  refine Chip.holds_mk rfl rfl rfl rfl rfl rfl rfl rfl rfl rfl rfl rfl ?_
  exact h

theorem Chip.countFails_holds {x0 x1} (h : Chip.Holds j c) : Chip.Holds j (Chip.countFails x0 x1 c) := by
  unfold Chip.countFails
  refine Chip.inc_holds ?_
  refine Chip.forAll_holds ?_ ?_
  · intro y0
    intro y1
    intro y2
    refine Chip.addSat_holds ?_
    exact y2
  · exact h

theorem Chip.logFail_holds {x0 x1 x2} (h : Chip.Holds j c) : Chip.Holds j (Chip.logFail x0 x1 x2 c) := by
  unfold Chip.logFail
  extract_lets l l' v d
  refine Chip.holds_ite (fun hn => ?_) (fun _ => h)
  refine Chip.raiseIf_holds ?_
  refine Chip.holds_gen h rfl id id id id id id id id (bound_tput ?_) id id
  simp only [l', List.length_append]
  exact hn

theorem Chip.enterFail_holds {x0 x1} (h : Chip.Holds j c) : Chip.Holds j (Chip.enterFail x0 x1 c) := by
  unfold Chip.enterFail
  extract_lets e q full d
  have hd : Chip.Holds j d := Chip.logFail_holds (Chip.countFails_holds h)
  clear_value d
  refine Chip.holds_ite (fun _ => ?_) (fun hf => ?_)
  · extract_lets v a
    refine Chip.flagEvent_holds (Chip.markLost_holds ?_)
    exact Chip.holds_mk (c := d.inc _) rfl rfl rfl rfl rfl rfl rfl rfl rfl rfl rfl rfl (Chip.inc_holds hd)
  · refine Chip.setFifo_holds ?_ (Chip.holds_mk rfl rfl rfl rfl rfl rfl rfl rfl rfl rfl rfl rfl hd)
    rw [List.length_append, List.length_singleton]
    simp only [full, decide_eq_true_eq] at hf
    omega

theorem Chip.fatMark_holds (h : Chip.Holds j c) : Chip.Holds j (Chip.fatMark c) := by
  unfold Chip.fatMark
  refine Chip.holds_ite (fun p0 => ?_) (fun p0 => ?_)
  · refine Chip.raise_holds ?_
    refine Chip.set_holds ?_
    exact h
  · refine Chip.holds_ite (fun p1 => ?_) (fun p1 => ?_)
    · refine Chip.set_holds ?_
      exact h
    · exact h

theorem Chip.fatInsert_holds {x1 x2 x3 x4} (h : Chip.Holds j c) : Chip.HoldsO j (Chip.fatInsert c x1 x2 x3 x4) := by
  unfold Chip.fatInsert
  extract_lets v0 v1
  split
  · refine Chip.holdsO_some ?_
    refine Chip.holds_mk rfl rfl rfl rfl rfl rfl rfl rfl rfl rfl rfl rfl ?_
    exact h
  · split
    · refine Chip.holdsO_some ?_
      refine Chip.fatMark_holds ?_
      refine Chip.holds_mk rfl rfl rfl rfl rfl rfl rfl rfl rfl rfl rfl rfl ?_
      exact h
    · exact Chip.holdsO_none

theorem Chip.fatReject_holds {x0 x1} (h : Chip.Holds j c) : Chip.Holds j (Chip.fatReject x0 x1 c) := by
  unfold Chip.fatReject
  refine Chip.flagEvent_holds ?_
  refine Chip.set_holds ?_
  refine Chip.inc_holds ?_
  refine Chip.markLost_holds ?_
  exact h

theorem Chip.setWb_holds {x0 x1} (h : Chip.Holds j c) : Chip.Holds j (Chip.setWb x0 x1 c) := by
  unfold Chip.setWb
  refine Chip.holds_mk rfl rfl rfl rfl rfl rfl rfl rfl rfl rfl rfl rfl ?_
  exact h

theorem Chip.flushMark_holds (h : Chip.Holds j c) : Chip.Holds j (Chip.flushMark c) := by
  unfold Chip.flushMark
  refine Chip.holds_ite (fun p0 => ?_) (fun p0 => ?_)
  · exact h
  · refine Chip.holds_mk rfl rfl rfl rfl rfl rfl rfl rfl rfl rfl rfl rfl ?_
    exact h

/-- What a step of the bitmap sink leaves. -/
def BmStep.chip : BmStep → Chip
  | .accepted c => c
  | .waits c => c

theorem Chip.bmOffer_holds {x0 x1} (h : Chip.Holds j c) : Chip.Holds j (Chip.bmOffer c x0 x1).chip := by
  unfold Chip.bmOffer
  extract_lets x y bxw bs base fresh
  split
  · exact h
  · split
    · exact Chip.flagEvent_holds (Chip.inc_holds h)
    · split
      · exact Chip.inc_holds h
      · split
        · exact Chip.holds_mk rfl rfl rfl rfl rfl rfl rfl rfl rfl rfl rfl rfl h
        · split
          · exact Chip.holds_mk rfl rfl rfl rfl rfl rfl rfl rfl rfl rfl rfl rfl h
          · split
            · exact h
            · split
              · exact h
              · split
                · exact Chip.setWb_holds (Chip.holds_mk rfl rfl rfl rfl rfl rfl rfl rfl rfl rfl rfl rfl h)
                · exact Chip.holds_mk rfl rfl rfl rfl rfl rfl rfl rfl rfl rfl rfl rfl h

theorem Chip.dispatch_holds {x0} (h : Chip.Holds j c) : Chip.Holds j (Chip.dispatch x0 c) := by
  unfold Chip.dispatch
  split
  · exact h
  · rename_i w q e
    have hq := bound_tget (d := ([] : List Nat)) (k := x0) (Nat.zero_le _) h.sound.fails
    have e : tget [] x0 c.cap.fifo = w :: q := e
    rw [e, List.length_cons] at hq
    extract_lets s1 f s2 d1 d2
    have h1 : Chip.Holds j d1 := by
      refine Chip.holds_ite (fun _ => h) (fun _ => ?_)
      refine Chip.holds_ite (fun _ => Chip.holds_mk rfl rfl rfl rfl rfl rfl rfl rfl rfl rfl rfl rfl h) (fun _ => ?_)
      split
      · rename_i d hd
        exact Chip.holds_mk rfl rfl rfl rfl rfl rfl rfl rfl rfl rfl rfl rfl (Chip.fatInsert_holds h d hd)
      · refine Chip.holds_ite (fun _ => ?_) (fun _ => Chip.holds_mk rfl rfl rfl rfl rfl rfl rfl rfl rfl rfl rfl rfl h)
        exact Chip.holds_mk rfl rfl rfl rfl rfl rfl rfl rfl rfl rfl rfl rfl (Chip.fatReject_holds h)
    clear_value d1
    have h2 : Chip.Holds j d2 := by
      refine Chip.holds_ite (fun _ => h1) (fun _ => ?_)
      have hb := Chip.bmOffer_holds (x0 := x0) (x1 := w) h1
      split
      · rename_i d hd
        rw [hd] at hb
        exact Chip.flushMark_holds (Chip.holds_mk (c := d) rfl rfl rfl rfl rfl rfl rfl rfl rfl rfl rfl rfl hb)
      · rename_i d hd
        rw [hd] at hb
        exact hb
    clear_value d2
    refine Chip.holds_ite (fun _ => ?_) (fun _ => h2)
    exact Chip.setFifo_holds (by omega) (Chip.holds_mk rfl rfl rfl rfl rfl rfl rfl rfl rfl rfl rfl rfl h2)

theorem Chip.retryHeads_holds (h : Chip.Holds j c) : Chip.Holds j (Chip.retryHeads c) := by
  unfold Chip.retryHeads
  refine Chip.forAll_holds ?_ ?_
  · intro y0
    intro y1
    intro y2
    refine Chip.dispatch_holds ?_
    exact y2
  · exact h

theorem Chip.failDispatch_holds (h : Chip.Holds j c) : Chip.Holds j (Chip.failDispatch c) := by
  unfold Chip.failDispatch
  split
  · exact h
  · refine Chip.dispatch_holds ?_
    refine Chip.holds_mk rfl rfl rfl rfl rfl rfl rfl rfl rfl rfl rfl rfl ?_
    exact h

theorem Chip.fatExpire_holds {x0} (h : Chip.Holds j c) : Chip.Holds j (Chip.fatExpire x0 c) := by
  unfold Chip.fatExpire
  refine Chip.holds_ite (fun p0 => ?_) (fun p0 => ?_)
  · split
    · exact h
    · extract_lets v7 v8
      have w9 : Chip.Holds j v7 := by
        unfold v7
        refine Chip.fatReject_holds ?_
        exact h
      clear_value v7
      refine Chip.dispatch_holds ?_
      refine Chip.holds_mk rfl rfl rfl rfl rfl rfl rfl rfl rfl rfl rfl rfl ?_
      exact w9
  · exact h

theorem Chip.fatTake_holds {x0} (h : Chip.Holds j c) : Chip.Holds j (Chip.fatTake x0 c) := by
  unfold Chip.fatTake
  refine Chip.retryHeads_holds ?_
  refine Chip.fatMark_holds ?_
  refine Chip.holds_mk rfl rfl rfl rfl rfl rfl rfl rfl rfl rfl rfl rfl ?_
  exact h

theorem Chip.bmFail_holds {x0 x1} (h : Chip.Holds j c) : Chip.Holds j (Chip.bmFail x0 x1 c) := by
  unfold Chip.bmFail
  extract_lets v0 v1 v2 v3 v4 v5
  have w6 : Chip.Holds j v1 := by
    unfold v1
    refine Chip.raise_holds ?_
    refine Chip.set_holds ?_
    exact h
  clear_value v1
  have w7 : Chip.Holds j v4 := by
    unfold v4
    refine Chip.holds_mk rfl rfl rfl rfl rfl rfl rfl rfl rfl rfl rfl rfl ?_
    exact w6
  clear_value v4
  have w8 : Chip.Holds j v5 := by
    unfold v5
    refine Chip.forAll_holds ?_ ?_
    · intro y9
      intro y10
      intro y11
      refine Chip.fail_holds ?_
      exact y11
    · exact w7
  clear_value v5
  refine Chip.retryHeads_holds ?_
  exact w8

theorem Chip.flushDone_holds (h : Chip.Holds j c) : Chip.Holds j (Chip.flushDone c) := by
  unfold Chip.flushDone
  refine Chip.holds_ite (fun p0 => ?_) (fun p0 => ?_)
  · extract_lets v1 v2 v3
    have w4 : Chip.Holds j v3 := by
      unfold v3
      refine Chip.holds_mk rfl rfl rfl rfl rfl rfl rfl rfl rfl rfl rfl rfl ?_
      exact h
    clear_value v3
    refine Chip.forAll_holds ?_ ?_
    · intro y5
      intro y6
      intro y7
      refine Chip.ok_holds ?_
      exact y7
    · refine Chip.set_holds ?_
      exact w4
  · exact h

theorem Chip.bmPerformed_holds {x0} (h : Chip.Holds j c) : Chip.Holds j (Chip.bmPerformed x0 c) := by
  unfold Chip.bmPerformed
  split
  · exact h
  · extract_lets v5 v6
    refine Chip.retryHeads_holds ?_
    refine Chip.flushDone_holds ?_
    refine Chip.flushMark_holds ?_
    refine Chip.holds_mk rfl rfl rfl rfl rfl rfl rfl rfl rfl rfl rfl rfl ?_
    exact h

theorem Chip.fatPortLo_holds (h : Chip.Holds j c) : Chip.Holds j (Chip.fatPortLo c).2 := by
  unfold Chip.fatPortLo
  extract_lets v0 v1
  refine Chip.holds_pair ?_
  refine Chip.holds_mk rfl rfl rfl rfl rfl rfl rfl rfl rfl rfl rfl rfl ?_
  exact h

theorem Chip.fatPortHi_holds (h : Chip.Holds j c) : Chip.Holds j (Chip.fatPortHi c).2 := by
  unfold Chip.fatPortHi
  refine Chip.holds_pair ?_
  refine Chip.holds_ite (fun p0 => ?_) (fun p0 => ?_)
  · refine Chip.set_holds ?_
    exact h
  · exact h

theorem Chip.clearBits_holds {x0 x1} (h : Chip.Holds j c) : Chip.Holds j (Chip.clearBits x0 x1 c) := by
  unfold Chip.clearBits
  refine Chip.forAll_holds ?_ ?_
  · intro y0
    intro y1
    intro y2
    refine Chip.holds_ite (fun p3 => ?_) (fun p3 => ?_)
    · refine Chip.set_holds ?_
      exact y2
    · exact y2
  · exact h

theorem Chip.capCntClr_holds {x0 x1} (h : Chip.Holds j c) : Chip.Holds j (Chip.capCntClr x0 x1 c) := by
  unfold Chip.capCntClr
  extract_lets v0
  have w1 : Chip.Holds j v0 := by
    unfold v0
    refine Chip.clearBits_holds ?_
    exact h
  clear_value v0
  refine Chip.holds_ite (fun p2 => ?_) (fun p2 => ?_)
  · refine Chip.clear_holds ?_
    exact w1
  · exact w1

theorem Chip.writeBm_holds {x0 x1 x2} (h : Chip.Holds j c) : Chip.Holds j (Chip.writeBm x0 x1 x2 c).2 := by
  unfold Chip.writeBm
  extract_lets v0
  refine Chip.holds_ite_snd (fun p1 => ?_) (fun p1 => ?_)
  · refine Chip.holds_pair ?_
    exact h
  · refine Chip.holds_ite_snd (fun p2 => ?_) (fun p2 => ?_)
    · refine Chip.holds_pair ?_
      exact h
    · refine Chip.holds_pair ?_
      refine Chip.set_holds ?_
      refine Chip.set_holds ?_
      refine Chip.set_holds ?_
      refine Chip.set_holds ?_
      exact h

theorem cmdCapStatus_holds {x0 x1} (h : Chip.Holds j c) : Chip.Holds j (Cmd.run cmdCapStatus x0 x1 c) := by
  dsimp -zeta only [cmdCapStatus, Cmd.plain]
  extract_lets v0
  refine Chip.ok_holds ?_
  exact h

theorem cmdCapConfig_holds {x0 x1} (h : Chip.Holds j c) : Chip.Holds j (Cmd.run cmdCapConfig x0 x1 c) := by
  dsimp -zeta only [cmdCapConfig, Cmd.plain]
  extract_lets v0 v1 v2 v3 v4
  have w5 : Chip.Holds j v2 := by
    unfold v2
    refine Chip.writeBm_holds ?_
    exact h
  clear_value v2
  have w6 : Chip.Holds j v4 := by
    unfold v4
    refine Chip.set_holds ?_
    refine Chip.set_holds ?_
    refine Chip.set_holds ?_
    refine Chip.set_holds ?_
    refine Chip.set_holds ?_
    exact w5
  clear_value v4
  refine Chip.holds_ite (fun p7 => ?_) (fun p7 => ?_)
  · refine Chip.fail_holds ?_
    exact h
  · refine Chip.holds_ite (fun p8 => ?_) (fun p8 => ?_)
    · refine Chip.fail_holds ?_
      exact h
    · refine Chip.ok_holds ?_
      exact w6

theorem Chip.capClearEng_holds {x0} (h : Chip.Holds j c) : Chip.Holds j (Chip.capClearEng x0 c) := by
  unfold Chip.capClearEng
  refine Chip.clear_holds ?_
  refine Chip.capCntClr_holds ?_
  exact h

theorem cmdCapClear_holds {x0 x1} (h : Chip.Holds j c) : Chip.Holds j (Cmd.run cmdCapClear x0 x1 c) := by
  dsimp -zeta only [cmdCapClear, Cmd.plain]
  extract_lets what ks d1 d2 s3 d3 s4 d4
  refine Chip.holds_ite (fun _ => Chip.fail_holds h) (fun _ => ?_)
  refine Chip.holds_ite (fun _ => Chip.fail_holds h) (fun _ => ?_)
  have h1 : Chip.Holds j d1 := Chip.holds_ite (fun _ => Chip.forAll_holds (fun _ _ h => Chip.capClearEng_holds h) h) (fun _ => h)
  clear_value d1
  have h2 : Chip.Holds j d2 := Chip.holds_ite (fun _ => Chip.forAll_holds (fun _ _ h =>
    Chip.holds_gen h rfl id id id id id id id id bound_tdel id id) h1) (fun _ => h1)
  clear_value d2
  have h3 : Chip.Holds j d3 := Chip.holds_ite (fun _ => Chip.fatMark_holds
    (Chip.holds_mk rfl rfl rfl rfl rfl rfl rfl rfl rfl rfl rfl rfl h2)) (fun _ => h2)
  clear_value d3
  have h4 : Chip.Holds j d4 := Chip.holds_ite (fun _ => Chip.holds_mk rfl rfl rfl rfl rfl rfl rfl rfl rfl rfl rfl rfl h3) (fun _ => h3)
  clear_value d4
  exact Chip.ok_holds h4

theorem cmdCapBmFlush_holds {x0 x1} (h : Chip.Holds j c) : Chip.Holds j (Cmd.run cmdCapBmFlush x0 x1 c) := by
  dsimp -zeta only [cmdCapBmFlush, Cmd.plain]
  extract_lets v0 v1
  have w2 : Chip.Holds j v0 := by
    unfold v0
    refine Chip.interim_holds ?_
    exact h
  clear_value v0
  refine Chip.flushDone_holds ?_
  refine Chip.flushMark_holds ?_
  refine Chip.holds_mk rfl rfl rfl rfl rfl rfl rfl rfl rfl rfl rfl rfl ?_
  exact w2

theorem cmdCapBmZero_holds {x0 x1} (h : Chip.Holds j c) : Chip.Holds j (Cmd.run cmdCapBmZero x0 x1 c) := by
  dsimp -zeta only [cmdCapBmZero, Cmd.plain]
  extract_lets v0 v1 v2 v3 v4
  have w5 : Chip.Holds j v2 := by
    unfold v2
    refine Chip.interim_holds ?_
    exact h
  clear_value v2
  refine Chip.holds_ite (fun p6 => ?_) (fun p6 => ?_)
  · refine Chip.fail_holds ?_
    exact h
  · refine Chip.holds_ite (fun p7 => ?_) (fun p7 => ?_)
    · refine Chip.fail_holds ?_
      exact h
    · refine Chip.retryHeads_holds ?_
      refine Chip.flushDone_holds ?_
      refine Chip.holds_mk rfl rfl rfl rfl rfl rfl rfl rfl rfl rfl rfl rfl ?_
      exact w5

theorem cmdCapFflRead_holds {x0 x1} (h : Chip.Holds j c) : Chip.Holds j (Cmd.run cmdCapFflRead x0 x1 c) := by
  dsimp -zeta only [cmdCapFflRead, Cmd.plain]
  refine Chip.ok_holds ?_
  exact h

theorem cmdCapFatRead_holds {x0 x1} (h : Chip.Holds j c) : Chip.Holds j (Cmd.run cmdCapFatRead x0 x1 c) := by
  dsimp -zeta only [cmdCapFatRead, Cmd.plain]
  extract_lets v0 v1 v2
  refine Chip.ok_holds ?_
  exact h

theorem cmdCapLostRead_holds {x0 x1} (h : Chip.Holds j c) : Chip.Holds j (Cmd.run cmdCapLostRead x0 x1 c) := by
  dsimp -zeta only [cmdCapLostRead, Cmd.plain]
  refine Chip.ok_holds ?_
  exact h

end Sys2Proof.Machine
end

