-- ==== Sys2Proof/Laws/KeepTestQueue.lean ====
section
/-! SUPPORT. Each operation of Machine/TestQueue.lean keeps the device sound and leaves its test access port. -/

namespace Sys2Proof.Machine

variable {j : Jtag} {c : Chip}

theorem Chip.tqPush_holds {x0 x1 x2} (h : Chip.Holds j c) : Chip.Holds j (Chip.tqPush x0 x1 x2 c) := by
  unfold Chip.tqPush
  extract_lets v0 v1
  refine Chip.holds_ite (fun p2 => ?_) (fun p2 => ?_)
  · exact h
  · refine Chip.holds_ite (fun p3 => ?_) (fun p3 => ?_)
    · refine Chip.holds_mk rfl rfl rfl rfl rfl rfl rfl rfl rfl rfl rfl rfl ?_
      exact h
    · refine Chip.holds_ite (fun p4 => ?_) (fun p4 => ?_)
      · refine Chip.holds_mk rfl rfl rfl rfl rfl rfl rfl rfl rfl rfl rfl rfl ?_
        exact h
      · refine Chip.holds_ite (fun p5 => ?_) (fun p5 => ?_)
        · refine Chip.set_holds ?_
          exact h
        · refine Chip.holds_mk rfl rfl rfl rfl rfl rfl rfl rfl rfl rfl rfl rfl ?_
          exact h

theorem Chip.rlogShow_holds (h : Chip.Holds j c) : Chip.Holds j (Chip.rlogShow c) := by
  unfold Chip.rlogShow
  refine Chip.set_holds ?_
  refine Chip.set_holds ?_
  refine Chip.set_holds ?_
  exact h

theorem Chip.logRepair_holds {x0 x1 x2 x3} (h : Chip.Holds j c) : Chip.Holds j (Chip.logRepair x0 x1 x2 x3 c) := by
  unfold Chip.logRepair
  extract_lets v0 v1 v2 v3 v4
  have w5 : Chip.Holds j v2 := by
    unfold v2
    refine Chip.holds_ite (fun p6 => ?_) (fun p6 => ?_)
    · refine Chip.holds_mk rfl rfl rfl rfl rfl rfl rfl rfl rfl rfl rfl rfl ?_
      exact h
    · exact h
  clear_value v2
  have w7 : Chip.Holds j v4 := by
    unfold v4
    refine Chip.holds_mk rfl rfl rfl rfl rfl rfl rfl rfl rfl rfl rfl rfl ?_
    exact w5
  clear_value v4
  refine Chip.holds_ite (fun p8 => ?_) (fun p8 => ?_)
  · refine Chip.raise_holds ?_
    refine Chip.set_holds ?_
    exact w5
  · refine Chip.recWrite_holds ?_
    refine Chip.rlogShow_holds ?_
    exact w7

end Sys2Proof.Machine
end

