-- ==== Sys2Proof/Laws/KeepRowPort.lean ====
section
/-! SUPPORT. Each operation of Machine/RowPort.lean keeps the device sound and leaves its test access port. -/

namespace Sys2Proof.Machine

variable {j : Jtag} {c : Chip}

theorem Chip.drCmd_holds {x0 x1 x2 x3 x4} (h : Chip.Holds j c) : Chip.Holds j (Chip.drCmd x0 x1 x2 x3 x4 c) := by
  unfold Chip.drCmd
  extract_lets v0 v1 v2
  have w3 : Chip.Holds j v1 := by
    unfold v1
    refine Chip.freeNext_holds ?_
    exact h
  clear_value v1
  refine Chip.holds_mk rfl rfl rfl rfl rfl rfl rfl rfl rfl rfl rfl rfl ?_
  exact w3

theorem Chip.drLevels_holds (h : Chip.Holds j c) : Chip.Holds j (Chip.drLevels c) := by
  unfold Chip.drLevels
  extract_lets v0 v1
  have w2 : Chip.Holds j v1 := by
    unfold v1
    refine Chip.set_holds ?_
    refine Chip.set_holds ?_
    exact h
  clear_value v1
  refine Chip.holds_ite (fun p3 => ?_) (fun p3 => ?_)
  · refine Chip.set_holds ?_
    exact w2
  · refine Chip.holds_ite (fun p4 => ?_) (fun p4 => ?_)
    · refine Chip.set_holds ?_
      exact w2
    · exact w2

theorem Chip.endAll_holds {x0 x1 x2} (h : Chip.Holds j c) : Chip.Holds j (Chip.endAll x0 x1 x2 c) := by
  unfold Chip.endAll
  refine Chip.forAll_holds ?_ ?_
  · intro y0
    intro y1
    intro y2
    refine Chip.finish_holds ?_
    exact y2
  · exact h

theorem Chip.drStops_holds (h : Chip.Holds j c) : Chip.Holds j (Chip.drStops c) := by
  unfold Chip.drStops
  extract_lets v0 v1
  refine Chip.endAll_holds ?_
  refine Chip.set_holds ?_
  refine Chip.holds_mk rfl rfl rfl rfl rfl rfl rfl rfl rfl rfl rfl rfl ?_
  exact h

theorem Chip.drFreeze_holds {x0 x1 x2 x3} (h : Chip.Holds j c) : Chip.Holds j (Chip.drFreeze x0 x1 x2 x3 c) := by
  unfold Chip.drFreeze
  refine Chip.holds_ite (fun p0 => ?_) (fun p0 => ?_)
  · exact h
  · extract_lets v1 v2 v3 v4 v5 v6 v7 v8 v9 v10
    have w11 : Chip.Holds j v2 := by
      unfold v2
      refine Chip.set_holds ?_
      refine Chip.set_holds ?_
      exact h
    clear_value v2
    have w12 : Chip.Holds j v3 := by
      unfold v3
      refine Chip.set_holds ?_
      refine Chip.set_holds ?_
      refine Chip.set_holds ?_
      exact w11
    clear_value v3
    have w13 : Chip.Holds j v4 := by
      unfold v4
      refine Chip.set_holds ?_
      refine Chip.set_holds ?_
      refine Chip.set_holds ?_
      exact w12
    clear_value v4
    have w14 : Chip.Holds j v5 := by
      unfold v5
      refine Chip.set_holds ?_
      refine Chip.set_holds ?_
      refine Chip.set_holds ?_
      exact w13
    clear_value v5
    have w15 : Chip.Holds j v6 := by
      unfold v6
      refine Chip.set_holds ?_
      refine Chip.set_holds ?_
      exact w14
    clear_value v6
    have w16 : Chip.Holds j v7 := by
      unfold v7
      refine Chip.set_holds ?_
      exact w15
    clear_value v7
    have w17 : Chip.Holds j v8 := by
      unfold v8
      refine Chip.inc_holds ?_
      exact w16
    clear_value v8
    have w18 : Chip.Holds j v10 := by
      unfold v10
      refine Chip.holds_mk rfl rfl rfl rfl rfl rfl rfl rfl rfl rfl rfl rfl ?_
      exact w17
    clear_value v10
    refine Chip.drStops_holds ?_
    refine Chip.raise_holds ?_
    exact w18

theorem Chip.drParity_holds {x0 x1} (h : Chip.Holds j c) : Chip.Holds j (Chip.drParity x0 x1 c) := by
  unfold Chip.drParity
  refine Chip.holds_ite (fun p0 => ?_) (fun p0 => ?_)
  · refine Chip.drFreeze_holds ?_
    exact h
  · exact h

theorem Chip.drWakeRank_holds {x0 x1} (h : Chip.Holds j c) : Chip.Holds j (Chip.drWakeRank x0 x1 c) := by
  unfold Chip.drWakeRank
  extract_lets v0
  refine Chip.holds_ite (fun p1 => ?_) (fun p1 => ?_)
  · refine Chip.drParity_holds ?_
    refine Chip.drCmd_holds ?_
    refine Chip.set_holds ?_
    exact h
  · exact h

theorem Chip.drPush_holds {x0 x1 x2} (h : Chip.Holds j c) : Chip.Holds j (Chip.drPush x0 x1 x2 c) := by
  unfold Chip.drPush
  extract_lets v0 v1 v2 v3
  refine Chip.drLevels_holds ?_
  refine Chip.holds_mk_mem rfl rfl rfl rfl rfl rfl rfl rfl rfl rfl rfl ?_ (fun hm => ?_)
  · exact h
  · repeat first | with_reducible exact hm | with_reducible refine wf_memWrite _ _ ?_ | with_reducible refine wf_memZero _ _ ?_ | with_reducible refine wf_memWriteMask _ _ ?_ | with_reducible refine wf_filter _ ?_ | with_reducible refine wf_memPut _ _ ?_ | with_reducible refine wf_foldl _ (fun m a hm => ?_) ?_ | split | exact hm

theorem Chip.drAsk_holds {x0 x1 x2 x3} (h : Chip.Holds j c) : Chip.Holds j (Chip.drAsk x0 x1 x2 x3 c) := by
  unfold Chip.drAsk
  extract_lets v0 v1 v2
  refine Chip.drLevels_holds ?_
  refine Chip.holds_mk rfl rfl rfl rfl rfl rfl rfl rfl rfl rfl rfl rfl ?_
  exact h

theorem Chip.rowReads_holds {x0 x1} (h : Chip.Holds j c) : Chip.Holds j (Chip.rowReads x0 x1 c).2 := by
  unfold Chip.rowReads
  split
  · refine Chip.holds_pair ?_
    exact h
  · split
    · refine Chip.holds_pair ?_
      refine Chip.drFreeze_holds ?_
      refine Chip.freeNext_holds ?_
      exact h
    · refine Chip.holds_pair ?_
      exact h

theorem Chip.rowWrites_holds {x0 x1} (h : Chip.Holds j c) : Chip.Holds j (Chip.rowWrites x0 x1 c).2 := by
  unfold Chip.rowWrites
  split
  · refine Chip.holds_pair ?_
    exact h
  · extract_lets v5 v6 v7 v8
    have w9 : Chip.Holds j v6 := by
      unfold v6
      refine Chip.drWakeRank_holds ?_
      exact h
    clear_value v6
    have w10 : Chip.Holds j v7 := by
      unfold v7
      refine Chip.drPush_holds ?_
      exact w9
    clear_value v7
    split
    · refine Chip.holds_pair ?_
      refine Chip.drFreeze_holds ?_
      refine Chip.freeNext_holds ?_
      exact w10
    · refine Chip.holds_pair ?_
      refine Chip.holds_mk_mem rfl rfl rfl rfl rfl rfl rfl rfl rfl rfl rfl ?_ (fun hm => ?_)
      · exact w9
      · repeat first | with_reducible exact hm | with_reducible refine wf_memWrite _ _ ?_ | with_reducible refine wf_memZero _ _ ?_ | with_reducible refine wf_memWriteMask _ _ ?_ | with_reducible refine wf_filter _ ?_ | with_reducible refine wf_memPut _ _ ?_ | with_reducible refine wf_foldl _ (fun m a hm => ?_) ?_ | split | exact hm

theorem Chip.bmQueue_holds {x0 x1 x2} (h : Chip.Holds j c) : Chip.Holds j (Chip.bmQueue x0 x1 x2 c) := by
  unfold Chip.bmQueue
  split
  · exact h
  · refine Chip.holds_ite (fun p5 => ?_) (fun p5 => ?_)
    · refine Chip.bmFail_holds ?_
      exact h
    · split
      · refine Chip.bmFail_holds ?_
        exact h
      · refine Chip.holds_ite (fun p11 => ?_) (fun p11 => ?_)
        · exact h
        · refine Chip.setWb_holds ?_
          refine Chip.drPush_holds ?_
          refine Chip.drWakeRank_holds ?_
          exact h

theorem Chip.bmZeroRow_holds {x0} (h : Chip.Holds j c) : Chip.Holds j (Chip.bmZeroRow x0 c) := by
  unfold Chip.bmZeroRow
  split
  · exact h
  · extract_lets v6 v7 v8 v9 v10 v11
    have w12 : Chip.Holds j v9 := by
      unfold v9
      refine Chip.holds_mk rfl rfl rfl rfl rfl rfl rfl rfl rfl rfl rfl rfl ?_
      exact h
    clear_value v9
    have w13 : Chip.Holds j v10 := by
      unfold v10
      refine Chip.drPush_holds ?_
      refine Chip.drWakeRank_holds ?_
      exact h
    clear_value v10
    refine Chip.holds_ite (fun p14 => ?_) (fun p14 => ?_)
    · refine Chip.fail_holds ?_
      refine Chip.bmFail_holds ?_
      exact w12
    · refine Chip.holds_ite (fun p15 => ?_) (fun p15 => ?_)
      · exact h
      · refine Chip.holds_ite (fun p16 => ?_) (fun p16 => ?_)
        · refine Chip.ok_holds ?_
          refine Chip.holds_mk rfl rfl rfl rfl rfl rfl rfl rfl rfl rfl rfl rfl ?_
          exact w13
        · refine Chip.holds_mk rfl rfl rfl rfl rfl rfl rfl rfl rfl rfl rfl rfl ?_
          exact w13

end Sys2Proof.Machine
end

