-- ==== Sys2Proof/Laws/KeepReed.lean ====
section
/-! SUPPORT. Each operation of Machine/Reed.lean keeps the device sound and leaves its test access port. -/

namespace Sys2Proof.Machine

variable {j : Jtag} {c : Chip}

theorem Chip.setUnit_holds {x0 x1} (h : Chip.Holds j c) : Chip.Holds j (Chip.setUnit x0 x1 c) := by
  unfold Chip.setUnit
  refine Chip.holds_mk rfl rfl rfl rfl rfl rfl rfl rfl rfl rfl rfl rfl ?_
  exact h

theorem Chip.noteOld_holds {x0 x1 x2} (h : Chip.Holds j c) : Chip.Holds j (Chip.noteOld x0 x1 x2 c) := by
  unfold Chip.noteOld
  refine Chip.holds_ite (fun p0 => ?_) (fun p0 => ?_)
  · extract_lets v1 v2
    refine Chip.holds_mk rfl rfl rfl rfl rfl rfl rfl rfl rfl rfl rfl rfl ?_
    exact h
  · refine Chip.holds_mk rfl rfl rfl rfl rfl rfl rfl rfl rfl rfl rfl rfl ?_
    exact h

theorem Chip.forgetOld_holds {x0} (h : Chip.Holds j c) : Chip.Holds j (Chip.forgetOld x0 c) := by
  unfold Chip.forgetOld
  refine Chip.holds_mk rfl rfl rfl rfl rfl rfl rfl rfl rfl rfl rfl rfl ?_
  exact h

theorem Chip.setTimed_holds {x0 x1 x2} (h : Chip.Holds j c) : Chip.Holds j (Chip.setTimed x0 x1 x2 c) := by
  unfold Chip.setTimed
  extract_lets d
  have hd : Chip.Holds j d := by
    unfold d
    split
    · exact Chip.noteOld_holds h
    · exact h
  clear_value d
  exact Chip.forAll_holds (fun _ _ h => Chip.set_holds h) hd

theorem Chip.tsWrite_holds {x0 x1 x2 x3} (h : Chip.Holds j c) : Chip.Holds j (Chip.tsWrite x0 x1 x2 x3 c) := by
  unfold Chip.tsWrite
  extract_lets v0 v1
  have w2 : Chip.Holds j v0 := by
    unfold v0
    refine Chip.noteOld_holds ?_
    exact h
  clear_value v0
  refine Chip.holds_mk rfl rfl rfl rfl rfl rfl rfl rfl rfl rfl rfl rfl ?_
  exact w2

theorem Chip.calNote_holds {x0} (h : Chip.Holds j c) : Chip.Holds j (Chip.calNote x0 c) := by
  unfold Chip.calNote
  refine Chip.holds_ite (fun p0 => ?_) (fun p0 => ?_)
  · extract_lets v1 v2 v3 v4 v5
    refine Chip.freeNext_holds ?_
    refine Chip.holds_mk rfl rfl rfl rfl rfl rfl rfl rfl rfl rfl rfl rfl ?_
    exact h
  · refine Chip.holds_mk rfl rfl rfl rfl rfl rfl rfl rfl rfl rfl rfl rfl ?_
    exact h

theorem Chip.clampCheck_holds {x0} (h : Chip.Holds j c) : Chip.Holds j (Chip.clampCheck x0 c) := by
  unfold Chip.clampCheck
  extract_lets v0 v1
  refine Chip.holds_ite (fun p2 => ?_) (fun p2 => ?_)
  · refine Chip.set_holds ?_
    exact h
  · refine Chip.holds_ite (fun p3 => ?_) (fun p3 => ?_)
    · exact h
    · refine Chip.raise_holds ?_
      refine Chip.set_holds ?_
      exact h

theorem Chip.ucalWrite_holds {x0 x1} (h : Chip.Holds j c) : Chip.Holds j (Chip.ucalWrite x0 x1 c) := by
  unfold Chip.ucalWrite
  refine Chip.clampCheck_holds ?_
  refine Chip.forAll_holds ?_ ?_
  · intro y0
    intro y1
    intro y2
    refine Chip.set_holds ?_
    exact y2
  · refine Chip.calNote_holds ?_
    exact h

theorem Chip.calLoad_holds {x0} (h : Chip.Holds j c) : Chip.Holds j (Chip.calLoad x0 c) := by
  unfold Chip.calLoad
  extract_lets v0
  have w1 : Chip.Holds j v0 := by
    unfold v0
    refine Chip.forAll_holds ?_ ?_
    · intro y2
      intro y3
      intro y4
      refine Chip.forAll_holds ?_ ?_
      · intro y5
        intro y6
        intro y7
        refine Chip.set_holds ?_
        exact y7
      · exact y4
    · exact h
  clear_value v0
  refine Chip.forAll_holds ?_ ?_
  · intro y8
    intro y9
    intro y10
    refine Chip.clampCheck_holds ?_
    exact y10
  · exact w1

theorem Chip.placeEdge_holds {x0 x1 x2 x3 x4} (h : Chip.Holds j c) : Chip.Holds j (Chip.placeEdge x0 x1 x2 x3 x4 c) := by
  unfold Chip.placeEdge
  extract_lets v0 v1 v2 v3
  have w4 : Chip.Holds j v2 := by
    unfold v2
    refine Chip.setUnit_holds ?_
    exact h
  clear_value v2
  have w5 : Chip.Holds j v3 := by
    unfold v3
    refine Chip.holds_ite (fun p6 => ?_) (fun p6 => ?_)
    · refine Chip.flagEvent_holds ?_
      refine Chip.inc_holds ?_
      exact w4
    · exact w4
  clear_value v3
  refine Chip.emit_holds ?_
  exact w5

theorem Chip.drvUi_holds {x0 x1 x2 x3 x4} (h : Chip.Holds j c) : Chip.Holds j (Chip.drvUi x0 x1 x2 x3 x4 c) := by
  unfold Chip.drvUi
  refine Chip.forAll_holds ?_ ?_
  · intro y0
    intro y1
    intro y2
    refine Chip.holds_ite (fun p3 => ?_) (fun p3 => ?_)
    · exact y2
    · refine Chip.placeEdge_holds ?_
      exact y2
  · exact h

theorem Chip.denUi_holds {x0 x1 x2 x3 x4} (h : Chip.Holds j c) : Chip.Holds j (Chip.denUi x0 x1 x2 x3 x4 c) := by
  unfold Chip.denUi
  split
  · refine Chip.placeEdge_holds ?_
    exact h
  · exact h

theorem Chip.uiEmit_holds {x0 x1 x2} (h : Chip.Holds j c) : Chip.Holds j (Chip.uiEmit x0 x1 x2 c) := by
  unfold Chip.uiEmit
  extract_lets v0 v1 v2 v3
  have w4 : Chip.Holds j v3 := by
    unfold v3
    refine Chip.holds_ite (fun p5 => ?_) (fun p5 => ?_)
    · refine Chip.inc_holds ?_
      exact h
    · exact h
  clear_value v3
  split
  · exact h
  · refine Chip.holds_ite (fun p11 => ?_) (fun p11 => ?_)
    · exact h
    · extract_lets v12 v13 v14 v15 v16 v17 v18
      have w19 : Chip.Holds j v17 := by
        unfold v17
        refine Chip.holds_ite (fun p20 => ?_) (fun p20 => ?_)
        · exact w4
        · refine Chip.flagEvent_holds ?_
          refine Chip.inc_holds ?_
          exact w4
      clear_value v17
      have w21 : Chip.Holds j v18 := by
        unfold v18
        refine Chip.denUi_holds ?_
        refine Chip.drvUi_holds ?_
        exact w19
      clear_value v18
      refine Chip.setUnit_holds ?_
      exact w21

theorem Chip.emitCycle_holds {x0 x1} (h : Chip.Holds j c) : Chip.Holds j (Chip.emitCycle x0 x1 c) := by
  unfold Chip.emitCycle
  refine Chip.forAll_holds ?_ ?_
  · intro y0
    intro y1
    intro y2
    refine Chip.forAll_holds ?_ ?_
    · intro y3
      intro y4
      intro y5
      refine Chip.uiEmit_holds ?_
      exact y5
    · exact y2
  · exact h

theorem Chip.idleDen_holds {x0} (h : Chip.Holds j c) : Chip.Holds j (Chip.idleDen x0 c) := by
  unfold Chip.idleDen
  refine Chip.forAll_holds ?_ ?_
  · intro y0
    intro y1
    intro y2
    extract_lets v3 v4 v5
    refine Chip.holds_ite (fun p6 => ?_) (fun p6 => ?_)
    · refine Chip.placeEdge_holds ?_
      exact y2
    · exact y2
  · exact h

theorem Chip.clearEdges_holds {x0} (h : Chip.Holds j c) : Chip.Holds j (Chip.clearEdges x0 c) := by
  unfold Chip.clearEdges
  refine Chip.forAll_holds ?_ ?_
  · intro y0
    intro y1
    intro y2
    refine Chip.setUnit_holds ?_
    exact y2
  · exact h

theorem Chip.denAllLow_holds (h : Chip.Holds j c) : Chip.Holds j (Chip.denAllLow c) := by
  unfold Chip.denAllLow
  refine Chip.holds_mk rfl rfl rfl rfl rfl rfl rfl rfl rfl rfl rfl rfl ?_
  exact h

theorem Chip.tsPut_holds {x0 x1} (h : Chip.Holds j c) : Chip.Holds j (Chip.tsPut x0 x1 c) := by
  unfold Chip.tsPut
  extract_lets q v d
  refine Chip.holds_ite (fun hn => ?_) (fun _ => ?_)
  · refine Chip.holds_gen h rfl id id id id id id (bound_tput ?_) id id id id
    rw [List.length_append]
    exact hn
  · exact Chip.flagEvent_holds (Chip.inc_holds (Chip.holds_mk rfl rfl rfl rfl rfl rfl rfl rfl rfl rfl rfl rfl h))

theorem Chip.laneCompare_holds {x0 x1 x2 x3 x4} {a : Nat × Chip} (h : Chip.Holds j a.2) :
    Chip.Holds j (Chip.laneCompare x0 x1 x2 x3 x4 a).2 := by
  unfold Chip.laneCompare
  extract_lets n d l cal o r d1 d2
  have hd : Chip.Holds j d := h
  clear_value d
  have h1 : Chip.Holds j d1 := by
    unfold d1
    split
    · exact Chip.tsPut_holds hd
    · exact hd
  clear_value d1
  have h2 : Chip.Holds j d2 := Chip.holds_ite (fun _ => Chip.flagEvent_holds (Chip.inc_holds h1)) (fun _ => h1)
  clear_value d2
  exact Chip.holds_ite_snd (fun _ => h) (fun _ => h2)

theorem Chip.compareCycle_holds {x0 x1 x2} (h : Chip.Holds j c) : Chip.Holds j (Chip.compareCycle x0 x1 x2 c).2 := by
  unfold Chip.compareCycle
  refine Chip.holds_foldl_snd _ ?_ ?_
  · intro y0
    intro y1
    intro y2
    refine Chip.holds_foldl_snd _ ?_ ?_
    · intro y3
      intro y4
      intro y5
      refine Chip.laneCompare_holds ?_
      exact y5
    · exact y2
  · refine Chip.holds_pair ?_
    exact h

theorem Chip.compareResult_holds {x0 x1} (h : Chip.Holds j c) : Chip.Holds j (Chip.compareResult x0 x1 c) := by
  unfold Chip.compareResult
  split
  · exact h
  · extract_lets v6 v7 v8 v9 v10 v11
    have w12 : Chip.Holds j v6 := by
      unfold v6
      refine Chip.setEng_holds ?_
      exact h
    clear_value v6
    have w13 : Chip.Holds j v7.2 := by
      unfold v7
      refine Chip.compareCycle_holds ?_
      exact w12
    clear_value v7
    have w14 : Chip.Holds j v9 := by
      unfold v9
      refine Chip.holds_ite (fun p15 => ?_) (fun p15 => ?_)
      · exact w13
      · refine Chip.set_holds ?_
        exact w13
    clear_value v9
    refine Chip.holds_ite (fun p16 => ?_) (fun p16 => ?_)
    · exact w12
    · refine Chip.holds_ite (fun p17 => ?_) (fun p17 => ?_)
      · refine Chip.enterFail_holds ?_
        exact w14
      · exact w14

theorem Chip.tsPop_holds {x0} (h : Chip.Holds j c) : Chip.Holds j (Chip.tsPop x0 c).2 := by
  unfold Chip.tsPop
  split
  · exact h
  · rename_i q e
    refine Chip.holds_pair (Chip.holds_gen h rfl id id id id id id (fun hb => bound_tput ?_ hb) id id id id)
    have hq := bound_tget (d := ([] : List Nat)) (k := x0) (Nat.zero_le _) hb
    have e : tget [] x0 c.rd.buf = _ :: q := e
    rw [e, List.length_cons] at hq
    exact Nat.le_of_succ_le hq

theorem Chip.tsPortNext_holds {x0} (h : Chip.Holds j c) : Chip.Holds j (Chip.tsPortNext x0 c) := by
  unfold Chip.tsPortNext
  refine Chip.holds_ite (fun p0 => ?_) (fun p0 => ?_)
  · extract_lets v1 v2
    have w3 : Chip.Holds j v2 := by
      unfold v2
      refine Chip.set_holds ?_
      exact h
    clear_value v2
    refine Chip.holds_ite (fun p4 => ?_) (fun p4 => ?_)
    · refine Chip.set_holds ?_
      exact w3
    · exact w3
  · exact h

theorem Chip.tsPortWrite_holds {x0 x1} (h : Chip.Holds j c) : Chip.Holds j (Chip.tsPortWrite x0 x1 c).2 := by
  unfold Chip.tsPortWrite
  refine Chip.holds_ite_snd (fun p0 => ?_) (fun p0 => ?_)
  · refine Chip.holds_pair ?_
    exact h
  · refine Chip.holds_pair ?_
    refine Chip.tsPortNext_holds ?_
    refine Chip.tsWrite_holds ?_
    exact h

theorem Chip.tsPortRead_holds {x0} (h : Chip.Holds j c) : Chip.Holds j (Chip.tsPortRead x0 c).2 := by
  unfold Chip.tsPortRead
  refine Chip.holds_pair ?_
  refine Chip.tsPortNext_holds ?_
  exact h

theorem Chip.setChState_holds {x0 x1} (h : Chip.Holds j c) : Chip.Holds j (Chip.setChState x0 x1 c) := by
  unfold Chip.setChState
  extract_lets v0 v1 v2 v3
  have w4 : Chip.Holds j v2 := by
    unfold v2
    refine Chip.set_holds ?_
    exact h
  clear_value v2
  have w5 : Chip.Holds j v3 := by
    unfold v3
    refine Chip.set_holds ?_
    exact w4
  clear_value v3
  refine Chip.set_holds ?_
  exact w5

theorem Chip.calError_holds {x0 x1 x2} (h : Chip.Holds j c) : Chip.Holds j (Chip.calError x0 x1 x2 c) := by
  unfold Chip.calError
  extract_lets v0 v1
  have w2 : Chip.Holds j v0 := by
    unfold v0
    refine Chip.setChState_holds ?_
    refine Chip.set_holds ?_
    exact h
  clear_value v0
  have w3 : Chip.Holds j v1 := by
    unfold v1
    refine Chip.setUnit_holds ?_
    exact w2
  clear_value v1
  refine Chip.tqPush_holds ?_
  refine Chip.raise_holds ?_
  exact w3

theorem Chip.setStarved_holds {x0 x1 x2} (h : Chip.Holds j c) : Chip.Holds j (Chip.setStarved x0 x1 x2 c) := by
  unfold Chip.setStarved
  extract_lets v0 v1 v2
  have w3 : Chip.Holds j v0 := by
    unfold v0
    refine Chip.setUnit_holds ?_
    exact h
  clear_value v0
  have w4 : Chip.Holds j v2 := by
    unfold v2
    refine Chip.set_holds ?_
    exact w3
  clear_value v2
  refine Chip.set_holds ?_
  exact w4

theorem Chip.setDrift_holds {x0 x1 x2} (h : Chip.Holds j c) : Chip.Holds j (Chip.setDrift x0 x1 x2 c) := by
  unfold Chip.setDrift
  refine Chip.set_holds ?_
  refine Chip.calNote_holds ?_
  exact h

theorem Chip.driftMeasure_holds {x0 x1 x2} (h : Chip.Holds j c) : Chip.Holds j (Chip.driftMeasure x0 x1 x2 c) := by
  unfold Chip.driftMeasure
  refine Chip.holds_ite (fun p0 => ?_) (fun p0 => ?_)
  · exact h
  · extract_lets v1 v2 v3 v4 v5 v6
    have w7 : Chip.Holds j v1 := by
      unfold v1
      refine Chip.setUnit_holds ?_
      refine Chip.setStarved_holds ?_
      exact h
    clear_value v1
    have w8 : Chip.Holds j v4 := by
      unfold v4
      refine Chip.setUnit_holds ?_
      exact w7
    clear_value v4
    have w9 : Chip.Holds j v5 := by
      unfold v5
      refine Chip.setUnit_holds ?_
      exact w7
    clear_value v5
    refine Chip.holds_ite (fun p10 => ?_) (fun p10 => ?_)
    · exact w7
    · refine Chip.holds_ite (fun p11 => ?_) (fun p11 => ?_)
      · refine Chip.holds_ite (fun p12 => ?_) (fun p12 => ?_)
        · refine Chip.calError_holds ?_
          exact w8
        · exact w8
      · refine Chip.holds_ite (fun p13 => ?_) (fun p13 => ?_)
        · refine Chip.calError_holds ?_
          exact w9
        · refine Chip.setDrift_holds ?_
          exact w9

theorem Chip.driftStarve_holds {x0 x1} (h : Chip.Holds j c) : Chip.Holds j (Chip.driftStarve x0 x1 c) := by
  unfold Chip.driftStarve
  refine Chip.holds_ite (fun p0 => ?_) (fun p0 => ?_)
  · exact h
  · refine Chip.raise_holds ?_
    refine Chip.setStarved_holds ?_
    exact h

theorem Chip.checkDone_holds {x0 x1} (h : Chip.Holds j c) : Chip.Holds j (Chip.checkDone x0 x1 c) := by
  unfold Chip.checkDone
  extract_lets v0
  refine Chip.forAll_holds ?_ ?_
  · intro y1
    intro y2
    intro y3
    refine Chip.ok_holds ?_
    exact y3
  · refine Chip.setUnit_holds ?_
    exact h

theorem Chip.checksEnd_holds (h : Chip.Holds j c) : Chip.Holds j (Chip.checksEnd c) := by
  unfold Chip.checksEnd
  extract_lets v0 v1 v2
  refine Chip.forAll_holds ?_ ?_
  · intro y3
    intro y4
    intro y5
    refine Chip.fail_holds ?_
    exact y5
  · refine Chip.holds_mk rfl rfl rfl rfl rfl rfl rfl rfl rfl rfl rfl rfl ?_
    exact h

theorem Chip.reacquired_holds {x0 x1 x2} (h : Chip.Holds j c) : Chip.Holds j (Chip.reacquired x0 x1 x2 c) := by
  unfold Chip.reacquired
  extract_lets v0 v1 v2 v3 v4 v5
  have w6 : Chip.Holds j v1 := by
    unfold v1
    refine Chip.set_holds ?_
    refine Chip.set_holds ?_
    refine Chip.calNote_holds ?_
    exact h
  clear_value v1
  have w7 : Chip.Holds j v3 := by
    unfold v3
    refine Chip.setChState_holds ?_
    exact w6
  clear_value v3
  have w8 : Chip.Holds j v4 := by
    unfold v4
    refine Chip.setUnit_holds ?_
    exact w7
  clear_value v4
  have w9 : Chip.Holds j v5 := by
    unfold v5
    refine Chip.holds_ite (fun p10 => ?_) (fun p10 => ?_)
    · refine Chip.raise_holds ?_
      exact w8
    · refine Chip.raiseIf_holds ?_
      exact w8
  clear_value v5
  refine Chip.holds_ite (fun p11 => ?_) (fun p11 => ?_)
  · exact h
  · refine Chip.holds_ite (fun p12 => ?_) (fun p12 => ?_)
    · refine Chip.setUnit_holds ?_
      exact w6
    · refine Chip.checkDone_holds ?_
      exact w9

theorem Chip.retireChannel_holds {x0 x1} (h : Chip.Holds j c) : Chip.Holds j (Chip.retireChannel x0 x1 c) := by
  unfold Chip.retireChannel
  refine Chip.holds_ite (fun p0 => ?_) (fun p0 => ?_)
  · exact h
  · extract_lets v1
    have w2 : Chip.Holds j v1 := by
      unfold v1
      refine Chip.setUnit_holds ?_
      refine Chip.setChState_holds ?_
      exact h
    clear_value v1
    refine Chip.checkDone_holds ?_
    refine Chip.raiseIf_holds ?_
    exact w2

theorem cmdRdStatus_holds {x0 x1} (h : Chip.Holds j c) : Chip.Holds j (Cmd.run cmdRdStatus x0 x1 c) := by
  dsimp -zeta only [cmdRdStatus, Cmd.plain]
  extract_lets v0
  refine Chip.ok_holds ?_
  exact h

theorem cmdRdTsWrite_holds {x0 x1} (h : Chip.Holds j c) : Chip.Holds j (Cmd.run cmdRdTsWrite x0 x1 c) := by
  dsimp -zeta only [cmdRdTsWrite, Cmd.plain]
  refine Chip.ok_holds ?_
  refine Chip.forAll_holds ?_ ?_
  · intro y0
    intro y1
    intro y2
    extract_lets v3
    refine Chip.tsWrite_holds ?_
    exact y2
  · exact h

theorem cmdRdTsRead_holds {x0 x1} (h : Chip.Holds j c) : Chip.Holds j (Cmd.run cmdRdTsRead x0 x1 c) := by
  dsimp -zeta only [cmdRdTsRead, Cmd.plain]
  refine Chip.ok_holds ?_
  exact h

theorem cmdRdCalWrite_holds {x0 x1} (h : Chip.Holds j c) : Chip.Holds j (Cmd.run cmdRdCalWrite x0 x1 c) := by
  dsimp -zeta only [cmdRdCalWrite, Cmd.plain]
  extract_lets v0 v1 v2
  have w3 : Chip.Holds j v2 := by
    unfold v2
    refine Chip.forAll_holds ?_ ?_
    · intro y4
      intro y5
      intro y6
      refine Chip.ucalWrite_holds ?_
      exact y6
    · exact h
  clear_value v2
  refine Chip.finish_holds ?_
  exact w3

theorem cmdRdCalRead_holds {x0 x1} (h : Chip.Holds j c) : Chip.Holds j (Cmd.run cmdRdCalRead x0 x1 c) := by
  dsimp -zeta only [cmdRdCalRead, Cmd.plain]
  extract_lets v0
  refine Chip.ok_holds ?_
  exact h

theorem cmdRdCheck_holds {x0 x1} (h : Chip.Holds j c) : Chip.Holds j (Cmd.run cmdRdCheck x0 x1 c) := by
  dsimp -zeta only [cmdRdCheck, Cmd.plain]
  extract_lets v0
  refine Chip.holds_ite (fun p1 => ?_) (fun p1 => ?_)
  · refine Chip.fail_holds ?_
    exact h
  · refine Chip.holds_ite (fun p2 => ?_) (fun p2 => ?_)
    · refine Chip.fail_holds ?_
      exact h
    · refine Chip.holds_ite (fun p3 => ?_) (fun p3 => ?_)
      · refine Chip.fail_holds ?_
        exact h
      · refine Chip.holds_ite (fun p4 => ?_) (fun p4 => ?_)
        · refine Chip.fail_holds ?_
          exact h
        · refine Chip.tqPush_holds ?_
          refine Chip.setUnit_holds ?_
          refine Chip.interim_holds ?_
          exact h

end Sys2Proof.Machine
end

