-- ==== Sys2Proof/Laws/KeepPe.lean ====
section
/-! SUPPORT. Each operation of Machine/Pe.lean keeps the device sound and leaves its test access port. -/

namespace Sys2Proof.Machine

variable {j : Jtag} {c : Chip}

theorem Chip.aluStep_holds {x0 x1} (h : Chip.Holds j c) : Chip.Holds j (Chip.aluStep x0 x1 c) := by
  unfold Chip.aluStep
  extract_lets v0 v1 v2 v3
  have w4 : Chip.Holds j v2 := by
    unfold v2
    split
    · refine Chip.set_holds ?_
      exact h
    · exact h
  clear_value v2
  have w10 : Chip.Holds j v3 := by
    unfold v3
    split
    · refine Chip.set_holds ?_
      exact w4
    · exact w4
  clear_value v3
  refine Chip.setEng_holds ?_
  exact w10

theorem Chip.setNow_holds {x0 x1 x2} (h : Chip.Holds j c) : Chip.Holds j (Chip.setNow x0 x1 x2 c) := by
  unfold Chip.setNow
  refine Chip.set_holds ?_
  refine Chip.holds_mk rfl rfl rfl rfl rfl rfl rfl rfl rfl rfl rfl rfl ?_
  exact h

theorem Chip.formCycle_holds {x0 x1} (h : Chip.Holds j c) : Chip.Holds j (Chip.formCycle x0 x1 c).2 := by
  unfold Chip.formCycle
  extract_lets v0 v1 v2 v3 v4 v5 v6 v7 v8 v9 v10 v11 v12
  have w13 : Chip.Holds j v10 := by
    unfold v10
    refine Chip.holds_ite (fun p14 => ?_) (fun p14 => ?_)
    · refine Chip.set_holds ?_
      exact h
    · exact h
  clear_value v10
  have w15 : Chip.Holds j v11 := by
    unfold v11
    refine Chip.holds_ite (fun p16 => ?_) (fun p16 => ?_)
    · refine Chip.setNow_holds ?_
      exact w13
    · exact w13
  clear_value v11
  have w17 : Chip.Holds j v12 := by
    unfold v12
    refine Chip.holds_ite (fun p18 => ?_) (fun p18 => ?_)
    · refine Chip.setEng_holds ?_
      exact w15
    · exact w15
  clear_value v12
  refine Chip.holds_ite_snd (fun p19 => ?_) (fun p19 => ?_)
  · refine Chip.holds_pair ?_
    refine Chip.setEng_holds ?_
    exact h
  · refine Chip.holds_pair ?_
    exact w17

theorem Chip.sequence_holds {x0 x1 x2 x3} (h : Chip.Holds j c) : Chip.Holds j (Chip.sequence x0 x1 x2 x3 c) := by
  unfold Chip.sequence
  extract_lets v0 v1 v2 v3
  split
  · unfold v0
    refine Chip.setEng_holds ?_
    exact h
  · unfold v0
    refine Chip.setEng_holds ?_
    exact h
  · unfold v0
    refine Chip.setEng_holds ?_
    refine Chip.set_holds ?_
    refine Chip.set_holds ?_
    exact h
  · unfold v0
    refine Chip.setEng_holds ?_
    refine Chip.set_holds ?_
    exact h
  · unfold v0
    refine Chip.setEng_holds ?_
    refine Chip.set_holds ?_
    exact h
  · unfold v0
    refine Chip.setEng_holds ?_
    refine Chip.set_holds ?_
    exact h
  · refine Chip.holds_ite (fun p18 => ?_) (fun p18 => ?_)
    · refine Chip.setEng_holds ?_
      exact h
    · unfold v0
      refine Chip.setEng_holds ?_
      exact h
  · unfold v0
    refine Chip.setEng_holds ?_
    exact h

theorem Chip.xgAnnounce_holds {x0} (h : Chip.Holds j c) : Chip.Holds j (Chip.xgAnnounce x0 c) := by
  unfold Chip.xgAnnounce
  extract_lets v0 v1 v2 v3 v4
  have w5 : Chip.Holds j v4 := by
    unfold v4
    refine Chip.forAll_holds ?_ ?_
    · intro y6
      intro y7
      intro y8
      refine Chip.wwTo_holds ?_
      exact y8
    · exact h
  clear_value v4
  refine Chip.holds_ite (fun p9 => ?_) (fun p9 => ?_)
  · exact h
  · refine Chip.holds_mk rfl rfl rfl rfl rfl rfl rfl rfl rfl rfl rfl rfl ?_
    exact w5

theorem Chip.endEngine_holds {x0 x1 x2 x3} (h : Chip.Holds j c) : Chip.Holds j (Chip.endEngine x0 x1 x2 x3 c) := by
  unfold Chip.endEngine
  extract_lets v0 v1 v2 v3 v4
  have w5 : Chip.Holds j v1 := by
    unfold v1
    refine Chip.holds_ite (fun p6 => ?_) (fun p6 => ?_)
    · exact h
    · refine Chip.set_holds ?_
      refine Chip.set_holds ?_
      exact h
  clear_value v1
  have w7 : Chip.Holds j v2 := by
    unfold v2
    refine Chip.holds_ite (fun p8 => ?_) (fun p8 => ?_)
    · refine Chip.set_holds ?_
      exact w5
    · exact w5
  clear_value v2
  have w9 : Chip.Holds j v3 := by
    unfold v3
    refine Chip.setEng_holds ?_
    refine Chip.set_holds ?_
    exact w7
  clear_value v3
  have w10 : Chip.Holds j v4 := by
    unfold v4
    refine Chip.holds_ite (fun p11 => ?_) (fun p11 => ?_)
    · refine Chip.idleDen_holds ?_
      exact w9
    · exact w9
  clear_value v4
  refine Chip.raise_holds ?_
  exact w10

theorem Chip.endWaiters_holds {x0 x1 x2} (h : Chip.Holds j c) : Chip.Holds j (Chip.endWaiters x0 x1 x2 c) := by
  unfold Chip.endWaiters
  extract_lets e d1 d2 d3
  have h1 : Chip.Holds j d1 := Chip.setEng_holds h
  clear_value d1
  have h2 : Chip.Holds j d2 := Chip.forAll_holds (fun _ _ h => Chip.fail_holds h) h1
  clear_value d2
  have h3 : Chip.Holds j d3 := by
    refine Chip.forAll_holds (fun _ _ h => ?_) h2
    split <;> exact Chip.fail_holds h
  clear_value d3
  refine Chip.forAll_holds (fun _ _ h => ?_) h3
  repeat' split
  all_goals exact Chip.fail_holds h

theorem Chip.endRun_holds {x0 x1 x2 x3} (h : Chip.Holds j c) : Chip.Holds j (Chip.endRun x0 x1 x2 x3 c) := by
  unfold Chip.endRun
  extract_lets v0 v1
  have w2 : Chip.Holds j v1 := by
    unfold v1
    refine Chip.forAll_holds ?_ ?_
    · intro y3
      intro y4
      intro y5
      refine Chip.endEngine_holds ?_
      exact y5
    · exact h
  clear_value v1
  refine Chip.forAll_holds ?_ ?_
  · intro y6
    intro y7
    intro y8
    refine Chip.endWaiters_holds ?_
    exact y8
  · exact w2

theorem Chip.xgSendFault_holds (h : Chip.Holds j c) : Chip.Holds j (Chip.xgSendFault c) := by
  unfold Chip.xgSendFault
  refine Chip.forAll_holds ?_ ?_
  · intro y0
    intro y1
    intro y2
    refine Chip.wwTo_holds ?_
    exact y2
  · exact h

theorem Chip.faultRun_holds {x0 x1 x2} (h : Chip.Holds j c) : Chip.Holds j (Chip.faultRun x0 x1 x2 c) := by
  unfold Chip.faultRun
  extract_lets v0 v1
  have w2 : Chip.Holds j v1 := by
    unfold v1
    refine Chip.endRun_holds ?_
    exact h
  clear_value v1
  refine Chip.holds_ite (fun p3 => ?_) (fun p3 => ?_)
  · refine Chip.xgSendFault_holds ?_
    exact w2
  · exact w2

theorem Chip.gangFault_holds {x0} (h : Chip.Holds j c) : Chip.Holds j (Chip.gangFault x0 c) := by
  unfold Chip.gangFault
  refine Chip.endRun_holds ?_
  exact h

theorem Chip.leaveUser_holds (h : Chip.Holds j c) : Chip.Holds j (Chip.leaveUser c) := by
  unfold Chip.leaveUser
  extract_lets v0
  refine Chip.forAll_holds ?_ ?_
  · intro y1
    intro y2
    intro y3
    refine Chip.endRun_holds ?_
    exact y3
  · exact h

theorem Chip.sendStops_holds {x0 x1} (h : Chip.Holds j c) : Chip.Holds j (Chip.sendStops x0 x1 c) := by
  unfold Chip.sendStops
  refine Chip.holds_ite (fun p0 => ?_) (fun p0 => ?_)
  · refine Chip.forAll_holds ?_ ?_
    · intro y1
      intro y2
      intro y3
      refine Chip.emit_holds ?_
      refine Chip.holds_mk rfl rfl rfl rfl rfl rfl rfl rfl rfl rfl rfl rfl ?_
      exact y3
    · exact h
  · exact h

theorem Chip.issue_holds {x0 x1} (h : Chip.Holds j c) : Chip.Holds j (Chip.issue x0 x1 c) := by
  unfold Chip.issue
  extract_lets v0 v1 v2 v3 v4 v5 v6 v7 v8 v9
  have w10 : Chip.Holds j v3.2 := by
    unfold v3
    refine Chip.formCycle_holds ?_
    exact h
  clear_value v3
  have w11 : Chip.Holds j v5 := by
    unfold v5
    refine Chip.aluStep_holds ?_
    exact w10
  clear_value v5
  have w12 : Chip.Holds j v6 := by
    unfold v6
    refine Chip.set_holds ?_
    refine Chip.sequence_holds ?_
    exact w11
  clear_value v6
  have w13 : Chip.Holds j v7 := by
    unfold v7
    refine Chip.holds_ite (fun p14 => ?_) (fun p14 => ?_)
    · refine Chip.set_holds ?_
      exact w12
    · exact w12
  clear_value v7
  have w15 : Chip.Holds j v8 := by
    unfold v8
    refine Chip.sendStops_holds ?_
    refine Chip.emitCycle_holds ?_
    exact w13
  clear_value v8
  have w16 : Chip.Holds j v9 := by
    unfold v9
    refine Chip.setEng_holds ?_
    exact w15
  clear_value v9
  refine Chip.set_holds ?_
  exact w16

theorem Chip.enterPaused_holds {x0} (h : Chip.Holds j c) : Chip.Holds j (Chip.enterPaused x0 c) := by
  unfold Chip.enterPaused
  extract_lets v0
  have w1 : Chip.Holds j v0 := by
    unfold v0
    refine Chip.forAll_holds ?_ ?_
    · intro y2
      intro y3
      intro y4
      refine Chip.raise_holds ?_
      refine Chip.set_holds ?_
      exact y4
    · exact h
  clear_value v0
  refine Chip.forAll_holds ?_ ?_
  · intro y5
    intro y6
    intro y7
    refine Chip.forAll_holds ?_ ?_
    · intro y8
      intro y9
      intro y10
      refine Chip.ok_holds ?_
      exact y10
    · refine Chip.setEng_holds ?_
      exact y7
  · exact w1

theorem Chip.waitfExpire_holds {x0} (h : Chip.Holds j c) : Chip.Holds j (Chip.waitfExpire x0 c) := by
  unfold Chip.waitfExpire
  split
  · exact h
  · refine Chip.holds_ite (fun p5 => ?_) (fun p5 => ?_)
    · refine Chip.setEng_holds ?_
      exact h
    · exact h

theorem Chip.afterCycle_holds {x0 x1} (h : Chip.Holds j c) : Chip.Holds j (Chip.afterCycle x0 x1 c) := by
  unfold Chip.afterCycle
  extract_lets v0 v1 v2 v3 v4
  have w5 : Chip.Holds j v3 := by
    unfold v3
    refine Chip.holds_ite (fun p6 => ?_) (fun p6 => ?_)
    · exact h
    · refine Chip.forAll_holds ?_ ?_
      · intro y7
        intro y8
        intro y9
        refine Chip.setEng_holds ?_
        exact y9
      · exact h
  clear_value v3
  split
  · refine Chip.faultRun_holds ?_
    exact w5
  · refine Chip.holds_ite (fun p15 => ?_) (fun p15 => ?_)
    · refine Chip.endRun_holds ?_
      exact w5
    · refine Chip.holds_ite (fun p16 => ?_) (fun p16 => ?_)
      · exact w5
      · refine Chip.holds_ite (fun p17 => ?_) (fun p17 => ?_)
        · refine Chip.endRun_holds ?_
          exact w5
        · refine Chip.holds_ite (fun p18 => ?_) (fun p18 => ?_)
          · refine Chip.enterPaused_holds ?_
            exact w5
          · exact w5

theorem Chip.engineCycle_holds {x0 x1} (h : Chip.Holds j c) : Chip.Holds j (Chip.engineCycle x0 x1 c) := by
  unfold Chip.engineCycle
  extract_lets v0 v1 v2 v3 v4 v5 v6 v7 v8
  have w9 : Chip.Holds j v2 := by
    unfold v2
    refine Chip.xgAnnounce_holds ?_
    exact h
  clear_value v2
  have w10 : Chip.Holds j v3 := by
    unfold v3
    refine Chip.waitfExpire_holds ?_
    exact w9
  clear_value v3
  have w11 : Chip.Holds j v4 := by
    unfold v4
    refine Chip.forAll_holds ?_ ?_
    · intro y12
      intro y13
      intro y14
      refine Chip.setEng_holds ?_
      exact y14
    · exact w10
  clear_value v4
  have w15 : Chip.Holds j v7 := by
    unfold v7
    refine Chip.forAll_holds ?_ ?_
    · intro y16
      intro y17
      intro y18
      refine Chip.issue_holds ?_
      exact y18
    · exact w11
  clear_value v7
  have w19 : Chip.Holds j v8 := by
    unfold v8
    refine Chip.forAll_holds ?_ ?_
    · intro y20
      intro y21
      intro y22
      refine Chip.set_holds ?_
      exact y22
    · exact w15
  clear_value v8
  refine Chip.holds_ite (fun p23 => ?_) (fun p23 => ?_)
  · exact h
  · refine Chip.holds_ite (fun p24 => ?_) (fun p24 => ?_)
    · exact w9
    · split
      · refine Chip.faultRun_holds ?_
        exact w11
      · refine Chip.afterCycle_holds ?_
        exact w19

theorem Chip.holdCycle_holds {x0} (h : Chip.Holds j c) : Chip.Holds j (Chip.holdCycle x0 c) := by
  unfold Chip.holdCycle
  extract_lets v0 v1 v2
  have w3 : Chip.Holds j v2 := by
    unfold v2
    refine Chip.xgAnnounce_holds ?_
    exact h
  clear_value v2
  refine Chip.holds_ite (fun p4 => ?_) (fun p4 => ?_)
  · exact w3
  · refine Chip.forAll_holds ?_ ?_
    · intro y5
      intro y6
      intro y7
      split
      · exact y7
      · extract_lets v13 v14 v15 v16 v17 v18
        have w19 : Chip.Holds j v17 := by
          unfold v17
          refine Chip.emitCycle_holds ?_
          exact y7
        clear_value v17
        have w20 : Chip.Holds j v18 := by
          unfold v18
          refine Chip.setEng_holds ?_
          exact w19
        clear_value v18
        refine Chip.inc_holds ?_
        refine Chip.set_holds ?_
        exact w20
    · exact w3

theorem Chip.holdLong_holds {x0} (h : Chip.Holds j c) : Chip.Holds j (Chip.holdLong x0 c) := by
  unfold Chip.holdLong
  extract_lets v0
  split
  · exact h
  · refine Chip.holds_ite (fun p6 => ?_) (fun p6 => ?_)
    · refine Chip.raise_holds ?_
      refine Chip.setEng_holds ?_
      exact h
    · exact h

theorem Chip.syncTick_holds {x0 x1} (h : Chip.Holds j c) : Chip.Holds j (Chip.syncTick x0 x1 c) := by
  unfold Chip.syncTick
  extract_lets v0 v1 v2
  have w3 : Chip.Holds j v2 := by
    unfold v2
    refine Chip.xgAnnounce_holds ?_
    exact h
  clear_value v2
  split
  · exact w3
  · refine Chip.holds_ite (fun p9 => ?_) (fun p9 => ?_)
    · exact w3
    · refine Chip.holds_ite (fun p10 => ?_) (fun p10 => ?_)
      · refine Chip.holds_ite (fun p11 => ?_) (fun p11 => ?_)
        · refine Chip.enterPaused_holds ?_
          exact w3
        · exact w3
      · refine Chip.setEng_holds ?_
        exact w3

theorem Chip.beginEngine_holds {x0 x1} (h : Chip.Holds j c) : Chip.Holds j (Chip.beginEngine x0 x1 c) := by
  unfold Chip.beginEngine
  extract_lets d1 d2 d3 d4 v d5
  have h2 : Chip.Holds j d2 := Chip.set_holds (Chip.set_holds (Chip.set_holds (Chip.set_holds (Chip.set_holds (Chip.set_holds
    (Chip.set_holds h))))))
  clear_value d2
  have h4 : Chip.Holds j d4 := Chip.setEng_holds (Chip.forAll_holds (fun _ _ h => Chip.set_holds h) h2)
  clear_value d4
  refine Chip.clearEdges_holds (Chip.forgetOld_holds (Chip.holds_ite (fun _ => h4) (fun _ => ?_)))
  exact Chip.holds_gen h4 rfl id id id id id id id id bound_tdel id id

theorem Chip.startTick_holds {x0 x1} (h : Chip.Holds j c) : Chip.Holds j (Chip.startTick x0 x1 c) := by
  unfold Chip.startTick
  extract_lets v0 v1 v2 v3 v4 v5
  have w6 : Chip.Holds j v4 := by
    unfold v4
    refine Chip.forAll_holds ?_ ?_
    · intro y7
      intro y8
      intro y9
      refine Chip.beginEngine_holds ?_
      exact y9
    · exact h
  clear_value v4
  have w10 : Chip.Holds j v5 := by
    unfold v5
    refine Chip.setEng_holds ?_
    exact w6
  clear_value v5
  refine Chip.holds_ite (fun p11 => ?_) (fun p11 => ?_)
  · refine Chip.forAll_holds ?_ ?_
    · intro y12
      intro y13
      intro y14
      refine Chip.ok_holds ?_
      exact y14
    · exact w10
  · exact h

theorem Chip.withdrawStart_holds {x0} (h : Chip.Holds j c) : Chip.Holds j (Chip.withdrawStart x0 c) := by
  unfold Chip.withdrawStart
  refine Chip.forAll_holds ?_ ?_
  · intro y0
    intro y1
    intro y2
    extract_lets v3 v4 v5
    have w6 : Chip.Holds j v4 := by
      unfold v4
      refine Chip.forAll_holds ?_ ?_
      · intro y7
        intro y8
        intro y9
        refine Chip.fail_holds ?_
        exact y9
      · refine Chip.setEng_holds ?_
        exact y2
    clear_value v4
    have w10 : Chip.Holds j v5 := by
      unfold v5
      refine Chip.set_holds ?_
      refine Chip.set_holds ?_
      exact w6
    clear_value v5
    refine Chip.setEng_holds ?_
    refine Chip.set_holds ?_
    exact w10
  · exact h

theorem Chip.prefillLate_holds {x0} (h : Chip.Holds j c) : Chip.Holds j (Chip.prefillLate x0 c) := by
  unfold Chip.prefillLate
  extract_lets v0 v1 v2
  refine Chip.holds_ite (fun p3 => ?_) (fun p3 => ?_)
  · refine Chip.forAll_holds ?_ ?_
    · intro y4
      intro y5
      intro y6
      refine Chip.fail_holds ?_
      exact y6
    · refine Chip.withdrawStart_holds ?_
      exact h
  · exact h

theorem Chip.prefillDone_holds {x0} (h : Chip.Holds j c) : Chip.Holds j (Chip.prefillDone x0 c) := by
  unfold Chip.prefillDone
  extract_lets v0
  refine Chip.holds_ite (fun p1 => ?_) (fun p1 => ?_)
  · refine Chip.setEng_holds ?_
    exact h
  · exact h

theorem Chip.streamRead_holds {x0 x1 x2} (h : Chip.Holds j c) : Chip.Holds j (Chip.streamRead x0 x1 x2 c) := by
  unfold Chip.streamRead
  extract_lets v0 v1 v2 v3 v4 v5
  refine Chip.holds_ite (fun p6 => ?_) (fun p6 => ?_)
  · exact h
  · refine Chip.setEng_holds ?_
    refine Chip.holds_ite (fun p7 => ?_) (fun p7 => ?_)
    · refine Chip.rowReads_holds ?_
      exact h
    · exact h

theorem Chip.uportVector_holds {x0 x1} (h : Chip.Holds j c) : Chip.Holds j (Chip.uportVector x0 x1 c) := by
  unfold Chip.uportVector
  refine Chip.holds_ite (fun p0 => ?_) (fun p0 => ?_)
  · refine Chip.setEng_holds ?_
    exact h
  · exact h

theorem Chip.uportFlags_holds {x0 x1} (h : Chip.Holds j c) : Chip.Holds j (Chip.uportFlags x0 x1 c) := by
  unfold Chip.uportFlags
  refine Chip.holds_ite (fun p0 => ?_) (fun p0 => ?_)
  · refine Chip.setEng_holds ?_
    exact h
  · exact h

theorem Chip.imStore_holds {x0 x1 x2} (h : Chip.Holds j c) : Chip.Holds j (Chip.imStore x0 x1 x2 c) := by
  unfold Chip.imStore
  refine Chip.setEng_holds ?_
  exact h

theorem Chip.imDataLo_holds {x0 x1} (h : Chip.Holds j c) : Chip.Holds j (Chip.imDataLo x0 x1 c).2 := by
  unfold Chip.imDataLo
  refine Chip.holds_ite_snd (fun p0 => ?_) (fun p0 => ?_)
  · refine Chip.holds_pair ?_
    exact h
  · refine Chip.holds_pair ?_
    refine Chip.setEng_holds ?_
    exact h

theorem Chip.imDataHi_holds {x0 x1} (h : Chip.Holds j c) : Chip.Holds j (Chip.imDataHi x0 x1 c).2 := by
  unfold Chip.imDataHi
  refine Chip.holds_ite_snd (fun p0 => ?_) (fun p0 => ?_)
  · refine Chip.holds_pair ?_
    exact h
  · extract_lets v1 v2
    have w3 : Chip.Holds j v2 := by
      unfold v2
      refine Chip.imStore_holds ?_
      exact h
    clear_value v2
    refine Chip.holds_pair ?_
    refine Chip.holds_ite (fun p4 => ?_) (fun p4 => ?_)
    · refine Chip.set_holds ?_
      exact w3
    · exact w3

theorem Chip.stopBind_holds {x0 x1 x2} (h : Chip.Holds j c) : Chip.Holds j (Chip.stopBind x0 x1 x2 c).2 := by
  unfold Chip.stopBind
  refine Chip.holds_ite_snd (fun p0 => ?_) (fun p0 => ?_)
  · refine Chip.holds_pair ?_
    exact h
  · refine Chip.holds_ite_snd (fun p1 => ?_) (fun p1 => ?_)
    · refine Chip.holds_pair ?_
      exact h
    · refine Chip.holds_pair ?_
      refine Chip.set_holds ?_
      exact h

theorem Chip.peCtlWrite_holds {x0 x1} (h : Chip.Holds j c) : Chip.Holds j (Chip.peCtlWrite x0 x1 c).2 := by
  unfold Chip.peCtlWrite
  refine Chip.holds_ite_snd (fun p0 => ?_) (fun p0 => ?_)
  · refine Chip.holds_pair ?_
    exact h
  · refine Chip.holds_ite_snd (fun p1 => ?_) (fun p1 => ?_)
    · refine Chip.holds_pair ?_
      exact h
    · refine Chip.holds_pair ?_
      refine Chip.set_holds ?_
      refine Chip.set_holds ?_
      refine Chip.set_holds ?_
      exact h

theorem cmdPeStatus_holds {x0 x1} (h : Chip.Holds j c) : Chip.Holds j (Cmd.run cmdPeStatus x0 x1 c) := by
  dsimp -zeta only [cmdPeStatus, Cmd.plain]
  extract_lets v0
  refine Chip.ok_holds ?_
  exact h

theorem cmdPeLoad_holds {x0 x1} (h : Chip.Holds j c) : Chip.Holds j (Cmd.run cmdPeLoad x0 x1 c) := by
  dsimp -zeta only [cmdPeLoad, Cmd.plain]
  refine Chip.holds_ite (fun p0 => ?_) (fun p0 => ?_)
  · refine Chip.fail_holds ?_
    exact h
  · refine Chip.ok_holds ?_
    refine Chip.forAll_holds ?_ ?_
    · intro y1
      intro y2
      intro y3
      refine Chip.imStore_holds ?_
      exact y3
    · exact h

theorem Chip.arm_holds {x0 x1 x2 x3} (h : Chip.Holds j c) : Chip.Holds j (Chip.arm x0 x1 x2 x3 c) := by
  unfold Chip.arm
  extract_lets v0 v1 v2
  have w3 : Chip.Holds j v1 := by
    unfold v1
    refine Chip.holds_ite (fun p4 => ?_) (fun p4 => ?_)
    · refine Chip.holds_mk rfl rfl rfl rfl rfl rfl rfl rfl rfl rfl rfl rfl ?_
      exact h
    · exact h
  clear_value v1
  have w5 : Chip.Holds j v2 := by
    unfold v2
    refine Chip.forAll_holds ?_ ?_
    · intro y6
      intro y7
      intro y8
      extract_lets v9 v10 v11 v12
      have w13 : Chip.Holds j v12 := by
        unfold v12
        refine Chip.set_holds ?_
        refine Chip.set_holds ?_
        refine Chip.set_holds ?_
        exact y8
      clear_value v12
      refine Chip.setEng_holds ?_
      exact w13
    · exact w3
  clear_value v2
  refine Chip.setEng_holds ?_
  exact w5

theorem cmdPeStart_holds {x0 x1} (h : Chip.Holds j c) : Chip.Holds j (Cmd.run cmdPeStart x0 x1 c) := by
  dsimp -zeta only [cmdPeStart, Cmd.plain]
  dsimp only []
  refine Chip.holds_ite (fun p0 => ?_) (fun p0 => ?_)
  · refine Chip.fail_holds ?_
    exact h
  · refine Chip.holds_ite (fun p1 => ?_) (fun p1 => ?_)
    · refine Chip.fail_holds ?_
      exact h
    · refine Chip.holds_ite (fun p2 => ?_) (fun p2 => ?_)
      · refine Chip.holds_ite (fun p3 => ?_) (fun p3 => ?_)
        · refine Chip.fail_holds ?_
          exact h
        · refine Chip.arm_holds ?_
          refine Chip.interim_holds ?_
          exact h
      · refine Chip.arm_holds ?_
        exact h

theorem cmdPePause_holds {x0 x1} (h : Chip.Holds j c) : Chip.Holds j (Cmd.run cmdPePause x0 x1 c) := by
  dsimp -zeta only [cmdPePause, Cmd.plain]
  extract_lets v0 v1
  have w2 : Chip.Holds j v1 := by
    unfold v1
    refine Chip.setEng_holds ?_
    refine Chip.interim_holds ?_
    exact h
  clear_value v1
  refine Chip.holds_ite (fun p3 => ?_) (fun p3 => ?_)
  · refine Chip.fail_holds ?_
    exact h
  · refine Chip.holds_ite (fun p4 => ?_) (fun p4 => ?_)
    · refine Chip.ok_holds ?_
      exact h
    · refine Chip.holds_ite (fun p5 => ?_) (fun p5 => ?_)
      · refine Chip.fail_holds ?_
        exact h
      · refine Chip.holds_ite (fun p6 => ?_) (fun p6 => ?_)
        · refine Chip.xgAnnounce_holds ?_
          exact w2
        · refine Chip.holds_ite (fun p7 => ?_) (fun p7 => ?_)
          · refine Chip.enterPaused_holds ?_
            exact w2
          · exact w2

theorem cmdPeResume_holds {x0 x1} (h : Chip.Holds j c) : Chip.Holds j (Cmd.run cmdPeResume x0 x1 c) := by
  dsimp -zeta only [cmdPeResume, Cmd.plain]
  extract_lets v0
  refine Chip.holds_ite (fun p1 => ?_) (fun p1 => ?_)
  · refine Chip.fail_holds ?_
    exact h
  · refine Chip.holds_ite (fun p2 => ?_) (fun p2 => ?_)
    · refine Chip.fail_holds ?_
      exact h
    · refine Chip.ok_holds ?_
      refine Chip.xgAnnounce_holds ?_
      refine Chip.forAll_holds ?_ ?_
      · intro y3
        intro y4
        intro y5
        refine Chip.set_holds ?_
        exact y5
      · exact h

theorem cmdPeStop_holds {x0 x1} (h : Chip.Holds j c) : Chip.Holds j (Cmd.run cmdPeStop x0 x1 c) := by
  dsimp -zeta only [cmdPeStop, Cmd.plain]
  extract_lets v0 v1
  have w2 : Chip.Holds j v1 := by
    unfold v1
    refine Chip.setEng_holds ?_
    refine Chip.interim_holds ?_
    exact h
  clear_value v1
  refine Chip.holds_ite (fun p3 => ?_) (fun p3 => ?_)
  · refine Chip.fail_holds ?_
    exact h
  · refine Chip.holds_ite (fun p4 => ?_) (fun p4 => ?_)
    · refine Chip.fail_holds ?_
      exact h
    · refine Chip.holds_ite (fun p5 => ?_) (fun p5 => ?_)
      · refine Chip.endRun_holds ?_
        exact w2
      · exact w2

theorem cmdPeAbort_holds {x0 x1} (h : Chip.Holds j c) : Chip.Holds j (Cmd.run cmdPeAbort x0 x1 c) := by
  dsimp -zeta only [cmdPeAbort, Cmd.plain]
  extract_lets v0
  refine Chip.holds_ite (fun p1 => ?_) (fun p1 => ?_)
  · refine Chip.fail_holds ?_
    exact h
  · refine Chip.holds_ite (fun p2 => ?_) (fun p2 => ?_)
    · refine Chip.fail_holds ?_
      exact h
    · refine Chip.ok_holds ?_
      refine Chip.endRun_holds ?_
      exact h

theorem Chip.ungang_holds {x0} (h : Chip.Holds j c) : Chip.Holds j (Chip.ungang x0 c) := by
  unfold Chip.ungang
  refine Chip.set_holds ?_
  refine Chip.set_holds ?_
  refine Chip.set_holds ?_
  exact h

theorem Chip.makeGang_holds {x0 x1} (h : Chip.Holds j c) : Chip.Holds j (Chip.makeGang x0 x1 c) := by
  unfold Chip.makeGang
  refine Chip.forAll_holds ?_ ?_
  · intro y0
    intro y1
    intro y2
    refine Chip.set_holds ?_
    refine Chip.set_holds ?_
    refine Chip.set_holds ?_
    exact y2
  · exact h

theorem Chip.leaveGangs_holds {x0} (h : Chip.Holds j c) : Chip.Holds j (Chip.leaveGangs x0 c) := by
  unfold Chip.leaveGangs
  refine Chip.forAll_holds ?_ ?_
  · intro y0
    intro y1
    intro y2
    refine Chip.holds_ite (fun p3 => ?_) (fun p3 => ?_)
    · extract_lets v4 v5 v6
      have w7 : Chip.Holds j v6 := by
        unfold v6
        refine Chip.ungang_holds ?_
        exact y2
      clear_value v6
      refine Chip.holds_ite (fun p8 => ?_) (fun p8 => ?_)
      · refine Chip.forAll_holds ?_ ?_
        · intro y9
          intro y10
          intro y11
          refine Chip.ungang_holds ?_
          exact y11
        · exact w7
      · refine Chip.makeGang_holds ?_
        exact w7
    · exact y2
  · exact h

theorem cmdPeGang_holds {x0 x1} (h : Chip.Holds j c) : Chip.Holds j (Cmd.run cmdPeGang x0 x1 c) := by
  dsimp -zeta only [cmdPeGang, Cmd.plain]
  extract_lets v0 v1 v2
  refine Chip.holds_ite (fun p3 => ?_) (fun p3 => ?_)
  · refine Chip.holds_ite (fun p4 => ?_) (fun p4 => ?_)
    · refine Chip.fail_holds ?_
      exact h
    · refine Chip.ok_holds ?_
      refine Chip.forAll_holds ?_ ?_
      · intro y5
        intro y6
        intro y7
        refine Chip.ungang_holds ?_
        exact y7
      · exact h
  · refine Chip.holds_ite (fun p8 => ?_) (fun p8 => ?_)
    · refine Chip.fail_holds ?_
      exact h
    · refine Chip.holds_ite (fun p9 => ?_) (fun p9 => ?_)
      · refine Chip.fail_holds ?_
        exact h
      · refine Chip.ok_holds ?_
        refine Chip.makeGang_holds ?_
        refine Chip.leaveGangs_holds ?_
        exact h

theorem cmdPeClock_holds {x0 x1} (h : Chip.Holds j c) : Chip.Holds j (Cmd.run cmdPeClock x0 x1 c) := by
  dsimp -zeta only [cmdPeClock, Cmd.plain]
  extract_lets v0
  refine Chip.holds_ite (fun p1 => ?_) (fun p1 => ?_)
  · refine Chip.fail_holds ?_
    exact h
  · refine Chip.holds_ite (fun p2 => ?_) (fun p2 => ?_)
    · refine Chip.fail_holds ?_
      exact h
    · refine Chip.forAll_holds ?_ ?_
      · intro y3
        intro y4
        intro y5
        refine Chip.set_holds ?_
        refine Chip.set_holds ?_
        exact y5
      · exact h

theorem Chip.clockLocked_holds {x0} (h : Chip.Holds j c) : Chip.Holds j (Chip.clockLocked x0 c) := by
  unfold Chip.clockLocked
  refine Chip.endCmd_holds ?_
  exact h

theorem Chip.engineReset_holds {x0} (h : Chip.Holds j c) : Chip.Holds j (Chip.engineReset x0 c) := by
  unfold Chip.engineReset
  refine Chip.holds_ite (fun p0 => ?_) (fun p0 => ?_)
  · extract_lets v1 v2 v3 v4
    have w5 : Chip.Holds j v1 := by
      unfold v1
      refine Chip.endRun_holds ?_
      exact h
    clear_value v1
    have w6 : Chip.Holds j v3 := by
      unfold v3
      refine Chip.resetRange_holds ?_
      exact w5
    clear_value v3
    refine Chip.setEng_holds ?_
    exact w6
  · extract_lets v7 v8
    have w9 : Chip.Holds j v7 := by
      unfold v7
      refine Chip.resetRange_holds ?_
      exact h
    clear_value v7
    refine Chip.setEng_holds ?_
    exact w9

end Sys2Proof.Machine
end

