-- ==== Sys2Proof/Laws/KeepFabric.lean ====
section
/-! SUPPORT. Each operation of Machine/Fabric.lean keeps the device sound and leaves its test access port. -/

namespace Sys2Proof.Machine

variable {j : Jtag} {c : Chip}

theorem Chip.setRg_holds {x0 x1} (h : Chip.Holds j c) : Chip.Holds j (Chip.setRg x0 x1 c) := by
  unfold Chip.setRg
  refine Chip.holds_mk rfl rfl rfl rfl rfl rfl rfl rfl rfl rfl rfl rfl ?_
  exact h

theorem Chip.emptyStop_holds {x0 x1} (h : Chip.Holds j c) : Chip.Holds j (Chip.emptyStop x0 x1 c) := by
  unfold Chip.emptyStop
  extract_lets v0 v1
  have w2 : Chip.Holds j v0 := by
    unfold v0
    refine Chip.set_holds ?_
    exact h
  clear_value v0
  refine Chip.holds_mk rfl rfl rfl rfl rfl rfl rfl rfl rfl rfl rfl rfl ?_
  exact w2

theorem Chip.initFfs_holds {x0} (h : Chip.Holds j c) : Chip.Holds j (Chip.initFfs x0 c) := by
  unfold Chip.initFfs
  extract_lets v0 v1
  refine Chip.setRg_holds ?_
  exact h

theorem Chip.bcastSeen_holds {x0} (h : Chip.Holds j c) : Chip.Holds j (Chip.bcastSeen x0 c) := by
  unfold Chip.bcastSeen
  extract_lets v0 v1 v2 v3 v4 v5
  have w6 : Chip.Holds j v5 := by
    unfold v5
    refine Chip.holds_mk rfl rfl rfl rfl rfl rfl rfl rfl rfl rfl rfl rfl ?_
    exact h
  clear_value v5
  refine Chip.forAll_holds ?_ ?_
  · intro y7
    intro y8
    intro y9
    split
    · refine Chip.ok_holds ?_
      exact y9
    · refine Chip.set_holds ?_
      exact y9
  · exact w6

theorem Chip.lostRequest_holds {x0 x1} (h : Chip.Holds j c) : Chip.Holds j (Chip.lostRequest x0 x1 c) := by
  unfold Chip.lostRequest
  refine Chip.flagEvent_holds ?_
  refine Chip.inc_holds ?_
  exact h

theorem Chip.discardRequests_holds {x0} (h : Chip.Holds j c) : Chip.Holds j (Chip.discardRequests x0 c) := by
  unfold Chip.discardRequests
  extract_lets v0 v1 v2
  have w3 : Chip.Holds j v1 := by
    unfold v1
    refine Chip.setRg_holds ?_
    exact h
  clear_value v1
  have w4 : Chip.Holds j v2 := by
    unfold v2
    refine Chip.holds_ite (fun p5 => ?_) (fun p5 => ?_)
    · refine Chip.bcastSeen_holds ?_
      refine Chip.lostRequest_holds ?_
      exact w3
    · exact w3
  clear_value v2
  refine Chip.holds_ite (fun p6 => ?_) (fun p6 => ?_)
  · refine Chip.lostRequest_holds ?_
    exact w4
  · exact w4

theorem Chip.setSport_holds {x0 x1} (h : Chip.Holds j c) : Chip.Holds j (Chip.setSport x0 x1 c) := by
  unfold Chip.setSport
  refine Chip.holds_mk rfl rfl rfl rfl rfl rfl rfl rfl rfl rfl rfl rfl ?_
  exact h

theorem Chip.auxSettle_holds {x0} (h : Chip.Holds j c) : Chip.Holds j (Chip.auxSettle x0 c) := by
  unfold Chip.auxSettle
  extract_lets v0 v1 v2
  have w3 : Chip.Holds j v2 := by
    unfold v2
    refine Chip.set_holds ?_
    refine Chip.set_holds ?_
    exact h
  clear_value v2
  refine Chip.holds_ite (fun p4 => ?_) (fun p4 => ?_)
  · exact w3
  · refine Chip.emit_holds ?_
    exact w3

theorem Chip.probeSettle_holds {x0} (h : Chip.Holds j c) : Chip.Holds j (Chip.probeSettle x0 c) := by
  unfold Chip.probeSettle
  extract_lets v0 v1
  refine Chip.holds_ite (fun p2 => ?_) (fun p2 => ?_)
  · exact h
  · refine Chip.emit_holds ?_
    refine Chip.holds_mk rfl rfl rfl rfl rfl rfl rfl rfl rfl rfl rfl rfl ?_
    exact h

theorem Chip.probeAll_holds (h : Chip.Holds j c) : Chip.Holds j (Chip.probeAll c) := by
  unfold Chip.probeAll
  refine Chip.forAll_holds ?_ ?_
  · intro y0
    intro y1
    intro y2
    refine Chip.probeSettle_holds ?_
    exact y2
  · exact h

theorem Chip.auxOfRegion_holds {x0} (h : Chip.Holds j c) : Chip.Holds j (Chip.auxOfRegion x0 c) := by
  unfold Chip.auxOfRegion
  refine Chip.probeAll_holds ?_
  refine Chip.auxSettle_holds ?_
  exact h

theorem Chip.auxAll_holds (h : Chip.Holds j c) : Chip.Holds j (Chip.auxAll c) := by
  unfold Chip.auxAll
  refine Chip.probeAll_holds ?_
  refine Chip.forAll_holds ?_ ?_
  · intro y0
    intro y1
    intro y2
    refine Chip.auxSettle_holds ?_
    exact y2
  · exact h

theorem Chip.markOne_holds {x0} (h : Chip.Holds j c) : Chip.Holds j (Chip.markOne x0 c) := by
  unfold Chip.markOne
  split
  · exact h
  · extract_lets v5 v6 v7
    have w8 : Chip.Holds j v6 := by
      unfold v6
      refine Chip.set_holds ?_
      exact h
    clear_value v6
    refine Chip.holds_mk rfl rfl rfl rfl rfl rfl rfl rfl rfl rfl rfl rfl ?_
    exact w8

theorem Chip.markTurned_holds {x0} (h : Chip.Holds j c) : Chip.Holds j (Chip.markTurned x0 c) := by
  unfold Chip.markTurned
  split
  · refine Chip.holds_ite (fun p3 => ?_) (fun p3 => ?_)
    · exact h
    · refine Chip.markOne_holds ?_
      exact h
  · exact h

theorem Chip.endLeases_holds {x0} (h : Chip.Holds j c) : Chip.Holds j (Chip.endLeases x0 c) := by
  unfold Chip.endLeases
  refine Chip.forAll_holds ?_ ?_
  · intro y0
    intro y1
    intro y2
    refine Chip.set_holds ?_
    exact y2
  · exact h

theorem Chip.holdRegion_holds {x0 x1} (h : Chip.Holds j c) : Chip.Holds j (Chip.holdRegion x0 x1 c) := by
  unfold Chip.holdRegion
  refine Chip.holds_ite (fun p0 => ?_) (fun p0 => ?_)
  · exact h
  · extract_lets v1
    have w2 : Chip.Holds j v1 := by
      unfold v1
      refine Chip.set_holds ?_
      exact h
    clear_value v1
    refine Chip.holds_ite (fun p3 => ?_) (fun p3 => ?_)
    · refine Chip.auxOfRegion_holds ?_
      refine Chip.markTurned_holds ?_
      refine Chip.discardRequests_holds ?_
      refine Chip.set_holds ?_
      refine Chip.endLeases_holds ?_
      exact w2
    · exact w2

theorem Chip.releaseRegion_holds {x0 x1} (h : Chip.Holds j c) : Chip.Holds j (Chip.releaseRegion x0 x1 c) := by
  unfold Chip.releaseRegion
  extract_lets v0 v1
  have w2 : Chip.Holds j v1 := by
    unfold v1
    refine Chip.set_holds ?_
    exact h
  clear_value v1
  refine Chip.holds_ite (fun p3 => ?_) (fun p3 => ?_)
  · refine Chip.auxOfRegion_holds ?_
    refine Chip.set_holds ?_
    exact w2
  · exact w2

theorem Chip.dropGates_holds {x0} (h : Chip.Holds j c) : Chip.Holds j (Chip.dropGates x0 c) := by
  unfold Chip.dropGates
  refine Chip.setRg_holds ?_
  exact h

theorem Chip.regionOff_holds {x0} (h : Chip.Holds j c) : Chip.Holds j (Chip.regionOff x0 c) := by
  unfold Chip.regionOff
  extract_lets v0 v1
  have w2 : Chip.Holds j v0 := by
    unfold v0
    refine Chip.set_holds ?_
    refine Chip.discardRequests_holds ?_
    exact h
  clear_value v0
  have w3 : Chip.Holds j v1 := by
    unfold v1
    refine Chip.set_holds ?_
    refine Chip.set_holds ?_
    exact w2
  clear_value v1
  refine Chip.auxOfRegion_holds ?_
  refine Chip.markTurned_holds ?_
  refine Chip.dropGates_holds ?_
  refine Chip.setRg_holds ?_
  exact w3

theorem Chip.regionRun_holds {x0 x1} (h : Chip.Holds j c) : Chip.Holds j (Chip.regionRun x0 x1 c) := by
  unfold Chip.regionRun
  extract_lets v0 v1
  have w2 : Chip.Holds j v0 := by
    unfold v0
    refine Chip.set_holds ?_
    refine Chip.set_holds ?_
    exact h
  clear_value v0
  have w3 : Chip.Holds j v1 := by
    unfold v1
    refine Chip.setRg_holds ?_
    refine Chip.set_holds ?_
    exact w2
  clear_value v1
  refine Chip.auxOfRegion_holds ?_
  refine Chip.initFfs_holds ?_
  exact w3

theorem Chip.stopArrive_holds {x0 x1} (h : Chip.Holds j c) : Chip.Holds j (Chip.stopArrive x0 x1 c) := by
  unfold Chip.stopArrive
  split
  · exact h
  · extract_lets v5 v6 v7
    have w8 : Chip.Holds j v5 := by
      unfold v5
      refine Chip.holds_mk rfl rfl rfl rfl rfl rfl rfl rfl rfl rfl rfl rfl ?_
      exact h
    clear_value v5
    have w9 : Chip.Holds j v7 := by
      unfold v7
      refine Chip.setRg_holds ?_
      exact w8
    clear_value v7
    refine Chip.holds_ite (fun p10 => ?_) (fun p10 => ?_)
    · refine Chip.holds_ite (fun p11 => ?_) (fun p11 => ?_)
      · refine Chip.bcastSeen_holds ?_
        exact w8
      · exact w8
    · refine Chip.holds_ite (fun p12 => ?_) (fun p12 => ?_)
      · exact w9
      · refine Chip.discardRequests_holds ?_
        exact w9

theorem Chip.stopDecide_holds {x0} (h : Chip.Holds j c) : Chip.Holds j (Chip.stopDecide x0 c) := by
  unfold Chip.stopDecide
  split
  · exact h
  · extract_lets v6 v7 v8 v9 v10
    have w11 : Chip.Holds j v7 := by
      unfold v7
      refine Chip.forAll_holds ?_ ?_
      · intro y12
        intro y13
        intro y14
        refine Chip.lostRequest_holds ?_
        exact y14
      · exact h
    clear_value v7
    have w15 : Chip.Holds j v8 := by
      unfold v8
      refine Chip.setRg_holds ?_
      exact w11
    clear_value v8
    have w16 : Chip.Holds j v9 := by
      unfold v9
      refine Chip.set_holds ?_
      exact w15
    clear_value v9
    have w17 : Chip.Holds j v10 := by
      unfold v10
      refine Chip.holds_ite (fun p18 => ?_) (fun p18 => ?_)
      · refine Chip.flagEvent_holds ?_
        refine Chip.inc_holds ?_
        exact w15
      · refine Chip.holds_ite (fun p19 => ?_) (fun p19 => ?_)
        · refine Chip.holds_ite (fun p20 => ?_) (fun p20 => ?_)
          · refine Chip.holdRegion_holds ?_
            exact w16
          · exact w16
        · exact w15
    clear_value v10
    refine Chip.holds_ite (fun p21 => ?_) (fun p21 => ?_)
    · refine Chip.bcastSeen_holds ?_
      exact w17
    · exact w17

theorem Chip.sendBcast_holds {x0 x1 x2} (h : Chip.Holds j c) : Chip.Holds j (Chip.sendBcast x0 x1 x2 c) := by
  unfold Chip.sendBcast
  refine Chip.holds_mk rfl rfl rfl rfl rfl rfl rfl rfl rfl rfl rfl rfl ?_
  exact h

theorem Chip.fabBcast_holds {x0} (h : Chip.Holds j c) : Chip.Holds j (Chip.fabBcast x0 c).2 := by
  unfold Chip.fabBcast
  extract_lets v0
  refine Chip.holds_ite_snd (fun p1 => ?_) (fun p1 => ?_)
  · refine Chip.holds_ite_snd (fun p2 => ?_) (fun p2 => ?_)
    · refine Chip.holds_pair ?_
      exact h
    · refine Chip.holds_pair ?_
      refine Chip.sendBcast_holds ?_
      refine Chip.set_holds ?_
      refine Chip.set_holds ?_
      exact h
  · refine Chip.holds_pair ?_
    refine Chip.set_holds ?_
    exact h

theorem Chip.gateWord_holds {x0 x1 x2} (h : Chip.Holds j c) : Chip.Holds j (Chip.gateWord x0 x1 x2 c) := by
  unfold Chip.gateWord
  split
  · split
    · exact h
    · extract_lets v11 v12 v13
      refine Chip.holds_ite (fun p14 => ?_) (fun p14 => ?_)
      · exact h
      · refine Chip.holds_ite (fun p15 => ?_) (fun p15 => ?_)
        · refine Chip.flagEvent_holds ?_
          refine Chip.inc_holds ?_
          unfold v12
          refine Chip.setRg_holds ?_
          exact h
        · refine Chip.holds_ite (fun p16 => ?_) (fun p16 => ?_)
          · exact h
          · refine Chip.holds_ite (fun p17 => ?_) (fun p17 => ?_)
            · refine Chip.setRg_holds ?_
              unfold v12
              refine Chip.setRg_holds ?_
              exact h
            · exact h
  · exact h

theorem Chip.partyRise_holds {x0 x1} (h : Chip.Holds j c) : Chip.Holds j (Chip.partyRise x0 x1 c) := by
  unfold Chip.partyRise
  extract_lets v0 v1 v2 v3
  have w4 : Chip.Holds j v2 := by
    unfold v2
    refine Chip.holds_ite (fun p5 => ?_) (fun p5 => ?_)
    · exact h
    · refine Chip.setRg_holds ?_
      exact h
  clear_value v2
  have w6 : Chip.Holds j v3 := by
    unfold v3
    refine Chip.setRg_holds ?_
    exact w4
  clear_value v3
  refine Chip.holds_ite (fun p7 => ?_) (fun p7 => ?_)
  · exact w4
  · refine Chip.raise_holds ?_
    exact w6

theorem Chip.roMeasure_holds {x0 x1} (h : Chip.Holds j c) : Chip.Holds j (Chip.roMeasure x0 x1 c) := by
  unfold Chip.roMeasure
  refine Chip.set_holds ?_
  exact h

theorem Chip.rgCntClr_holds {x0} (h : Chip.Holds j c) : Chip.Holds j (Chip.rgCntClr x0 c) := by
  unfold Chip.rgCntClr
  refine Chip.clear_holds ?_
  exact h

theorem Chip.rgCtlWrite_holds {x0 x1} (h : Chip.Holds j c) : Chip.Holds j (Chip.rgCtlWrite x0 x1 c).2 := by
  unfold Chip.rgCtlWrite
  extract_lets v0 v1 v2 v3 v4 v5 v6 v7
  have w8 : Chip.Holds j v5 := by
    unfold v5
    refine Chip.set_holds ?_
    refine Chip.set_holds ?_
    refine Chip.set_holds ?_
    refine Chip.set_holds ?_
    refine Chip.set_holds ?_
    exact h
  clear_value v5
  have w9 : Chip.Holds j v6 := by
    unfold v6
    refine Chip.holds_ite (fun p10 => ?_) (fun p10 => ?_)
    · exact w8
    · refine Chip.set_holds ?_
      exact w8
  clear_value v6
  have w11 : Chip.Holds j v7 := by
    unfold v7
    refine Chip.holds_ite (fun p12 => ?_) (fun p12 => ?_)
    · refine Chip.set_holds ?_
      exact w9
    · exact w9
  clear_value v7
  refine Chip.holds_ite_snd (fun p13 => ?_) (fun p13 => ?_)
  · refine Chip.holds_pair ?_
    exact h
  · refine Chip.holds_ite_snd (fun p14 => ?_) (fun p14 => ?_)
    · refine Chip.holds_pair ?_
      exact h
    · refine Chip.holds_ite_snd (fun p15 => ?_) (fun p15 => ?_)
      · refine Chip.holds_pair ?_
        exact h
      · refine Chip.holds_pair ?_
        refine Chip.holds_ite (fun p16 => ?_) (fun p16 => ?_)
        · refine Chip.rgCntClr_holds ?_
          exact w11
        · exact w11

theorem Chip.capArm_holds {x0} (h : Chip.Holds j c) : Chip.Holds j (Chip.capArm x0 c) := by
  unfold Chip.capArm
  extract_lets v0 v1
  have w2 : Chip.Holds j v0 := by
    unfold v0
    refine Chip.set_holds ?_
    refine Chip.set_holds ?_
    exact h
  clear_value v0
  have w3 : Chip.Holds j v1 := by
    unfold v1
    refine Chip.set_holds ?_
    refine Chip.set_holds ?_
    refine Chip.set_holds ?_
    exact w2
  clear_value v1
  refine Chip.setRg_holds ?_
  refine Chip.set_holds ?_
  exact w3

theorem Chip.capTrigger_holds {x0} (h : Chip.Holds j c) : Chip.Holds j (Chip.capTrigger x0 c) := by
  unfold Chip.capTrigger
  extract_lets v0 v1 v2
  have w3 : Chip.Holds j v2 := by
    unfold v2
    refine Chip.set_holds ?_
    refine Chip.set_holds ?_
    refine Chip.set_holds ?_
    exact h
  clear_value v2
  refine Chip.holds_ite (fun p4 => ?_) (fun p4 => ?_)
  · refine Chip.setRg_holds ?_
    exact w3
  · exact h

theorem Chip.capFinish_holds {x0} (h : Chip.Holds j c) : Chip.Holds j (Chip.capFinish x0 c) := by
  unfold Chip.capFinish
  extract_lets v0 v1
  have w2 : Chip.Holds j v1 := by
    unfold v1
    refine Chip.set_holds ?_
    refine Chip.set_holds ?_
    refine Chip.set_holds ?_
    exact h
  clear_value v1
  refine Chip.raise_holds ?_
  refine Chip.set_holds ?_
  exact w2

theorem Chip.capDone_holds {x0} (h : Chip.Holds j c) : Chip.Holds j (Chip.capDone x0 c) := by
  unfold Chip.capDone
  refine Chip.holds_ite (fun p0 => ?_) (fun p0 => ?_)
  · refine Chip.capFinish_holds ?_
    exact h
  · exact h

theorem Chip.capStop_holds {x0} (h : Chip.Holds j c) : Chip.Holds j (Chip.capStop x0 c) := by
  unfold Chip.capStop
  refine Chip.holds_ite (fun p0 => ?_) (fun p0 => ?_)
  · refine Chip.capFinish_holds ?_
    exact h
  · exact h

theorem Chip.capSample_holds {x0 x1 x2} (h : Chip.Holds j c) : Chip.Holds j (Chip.capSample x0 x1 x2 c) := by
  unfold Chip.capSample
  extract_lets v0 v1 v2 v3 v4
  have w5 : Chip.Holds j v0 := by
    unfold v0
    refine Chip.capDone_holds ?_
    refine Chip.capTrigger_holds ?_
    exact h
  clear_value v0
  have w6 : Chip.Holds j v4 := by
    unfold v4
    refine Chip.holds_mk_mem rfl rfl rfl rfl rfl rfl rfl rfl rfl rfl rfl ?_ (fun hm => ?_)
    · exact w5
    · repeat first | with_reducible exact hm | with_reducible refine wf_memWrite _ _ ?_ | with_reducible refine wf_memZero _ _ ?_ | with_reducible refine wf_memWriteMask _ _ ?_ | with_reducible refine wf_filter _ ?_ | with_reducible refine wf_memPut _ _ ?_ | with_reducible refine wf_foldl _ (fun m a hm => ?_) ?_ | split | exact hm
  clear_value v4
  refine Chip.holds_ite (fun p7 => ?_) (fun p7 => ?_)
  · refine Chip.setRg_holds ?_
    exact w6
  · exact w5

theorem Chip.capCtlWrite_holds {x0 x1} (h : Chip.Holds j c) : Chip.Holds j (Chip.capCtlWrite x0 x1 c).2 := by
  unfold Chip.capCtlWrite
  extract_lets v0 v1 v2 v3
  have w4 : Chip.Holds j v2 := by
    unfold v2
    refine Chip.set_holds ?_
    refine Chip.set_holds ?_
    refine Chip.set_holds ?_
    exact h
  clear_value v2
  have w5 : Chip.Holds j v3 := by
    unfold v3
    refine Chip.holds_ite (fun p6 => ?_) (fun p6 => ?_)
    · refine Chip.capArm_holds ?_
      exact w4
    · exact w4
  clear_value v3
  refine Chip.holds_ite_snd (fun p7 => ?_) (fun p7 => ?_)
  · refine Chip.holds_pair ?_
    exact h
  · refine Chip.holds_ite_snd (fun p8 => ?_) (fun p8 => ?_)
    · refine Chip.holds_pair ?_
      exact h
    · refine Chip.holds_ite_snd (fun p9 => ?_) (fun p9 => ?_)
      · refine Chip.holds_pair ?_
        exact h
      · refine Chip.holds_pair ?_
        refine Chip.holds_ite (fun p10 => ?_) (fun p10 => ?_)
        · refine Chip.capStop_holds ?_
          exact w5
        · exact w5

theorem Chip.trigWrite_holds {x0 x1 x2} (h : Chip.Holds j c) : Chip.Holds j (Chip.trigWrite x0 x1 x2 c).2 := by
  unfold Chip.trigWrite
  refine Chip.holds_ite_snd (fun p0 => ?_) (fun p0 => ?_)
  · refine Chip.holds_pair ?_
    exact h
  · refine Chip.holds_pair ?_
    refine Chip.set_holds ?_
    exact h

theorem Chip.spOwners_holds (h : Chip.Holds j c) : Chip.Holds j (Chip.spOwners c) := by
  unfold Chip.spOwners
  extract_lets v0
  refine Chip.forAll_holds ?_ ?_
  · intro y1
    intro y2
    intro y3
    refine Chip.holds_ite (fun p4 => ?_) (fun p4 => ?_)
    · refine Chip.auxSettle_holds ?_
      refine Chip.set_holds ?_
      exact y3
    · refine Chip.holds_ite (fun p5 => ?_) (fun p5 => ?_)
      · extract_lets v6 v7
        refine Chip.auxSettle_holds ?_
        refine Chip.set_holds ?_
        exact y3
      · exact y3
  · exact h

theorem Chip.portSettle_holds {x0} (h : Chip.Holds j c) : Chip.Holds j (Chip.portSettle x0 c) := by
  unfold Chip.portSettle
  refine Chip.forAll_holds ?_ ?_
  · intro y0
    intro y1
    intro y2
    refine Chip.auxSettle_holds ?_
    exact y2
  · exact h

theorem Chip.serialOut_holds {x0 x1} (h : Chip.Holds j c) : Chip.Holds j (Chip.serialOut x0 x1 c) := by
  unfold Chip.serialOut
  refine Chip.holds_ite (fun p0 => ?_) (fun p0 => ?_)
  · refine Chip.forAll_holds ?_ ?_
    · intro y1
      intro y2
      intro y3
      refine Chip.emit_holds ?_
      exact y3
    · exact h
  · exact h

theorem Chip.spCtl_holds {x0 x1} (h : Chip.Holds j c) : Chip.Holds j (Chip.spCtl x0 x1 c).2 := by
  unfold Chip.spCtl
  extract_lets v0 v1 v2 v3
  have w4 : Chip.Holds j v2 := by
    unfold v2
    refine Chip.forAll_holds ?_ ?_
    · intro y5
      intro y6
      intro y7
      refine Chip.set_holds ?_
      exact y7
    · exact h
  clear_value v2
  have w8 : Chip.Holds j v3 := by
    unfold v3
    refine Chip.holds_ite (fun p9 => ?_) (fun p9 => ?_)
    · refine Chip.setSport_holds ?_
      exact w4
    · exact w4
  clear_value v3
  refine Chip.holds_ite_snd (fun p10 => ?_) (fun p10 => ?_)
  · refine Chip.holds_pair ?_
    exact h
  · refine Chip.holds_ite_snd (fun p11 => ?_) (fun p11 => ?_)
    · refine Chip.holds_pair ?_
      exact h
    · refine Chip.holds_ite_snd (fun p12 => ?_) (fun p12 => ?_)
      · refine Chip.holds_pair ?_
        exact h
      · refine Chip.holds_ite_snd (fun p13 => ?_) (fun p13 => ?_)
        · refine Chip.holds_pair ?_
          exact h
        · refine Chip.holds_pair ?_
          refine Chip.spOwners_holds ?_
          refine Chip.forAll_holds ?_ ?_
          · intro y14
            intro y15
            intro y16
            refine Chip.set_holds ?_
            exact y16
          · exact w8

theorem Chip.spPush_holds {x0 x1} (h : Chip.Holds j c) : Chip.Holds j (Chip.spPush x0 x1 c).2 := by
  unfold Chip.spPush
  refine Chip.holds_ite_snd (fun p0 => ?_) (fun p0 => ?_)
  · refine Chip.holds_pair ?_
    exact h
  · refine Chip.holds_pair ?_
    refine Chip.setSport_holds ?_
    exact h

theorem Chip.spPop_holds {x0} (h : Chip.Holds j c) : Chip.Holds j (Chip.spPop x0 c).2.2 := by
  unfold Chip.spPop
  split
  · exact h
  · split
    · exact h
    · exact Chip.portSettle_holds (Chip.setSport_holds h)

theorem Chip.spReceive_holds {x0 x1 x2 x3} (h : Chip.Holds j c) : Chip.Holds j (Chip.spReceive x0 x1 x2 x3 c) := by
  unfold Chip.spReceive
  extract_lets v0 v1
  have w2 : Chip.Holds j v1 := by
    unfold v1
    refine Chip.holds_ite (fun p3 => ?_) (fun p3 => ?_)
    · refine Chip.flagEvent_holds ?_
      exact h
    · exact h
  clear_value v1
  refine Chip.holds_ite (fun p4 => ?_) (fun p4 => ?_)
  · exact h
  · refine Chip.holds_ite (fun p5 => ?_) (fun p5 => ?_)
    · refine Chip.flagEvent_holds ?_
      refine Chip.serialOut_holds ?_
      refine Chip.setSport_holds ?_
      exact h
    · refine Chip.holds_ite (fun p6 => ?_) (fun p6 => ?_)
      · refine Chip.flagEvent_holds ?_
        exact w2
      · refine Chip.portSettle_holds ?_
        refine Chip.setSport_holds ?_
        exact w2

theorem Chip.spSent_holds {x0} (h : Chip.Holds j c) : Chip.Holds j (Chip.spSent x0 c) := by
  unfold Chip.spSent
  extract_lets v0
  split
  · exact h
  · refine Chip.holds_ite (fun p7 => ?_) (fun p7 => ?_)
    · exact h
    · refine Chip.portSettle_holds ?_
      refine Chip.serialOut_holds ?_
      refine Chip.setSport_holds ?_
      exact h

theorem Chip.auxEdge_holds {x0 x1} (h : Chip.Holds j c) : Chip.Holds j (Chip.auxEdge x0 x1 c) := by
  unfold Chip.auxEdge
  extract_lets v0 v1
  have w2 : Chip.Holds j v1 := by
    unfold v1
    refine Chip.holds_ite (fun p3 => ?_) (fun p3 => ?_)
    · refine Chip.set_holds ?_
      exact h
    · exact h
  clear_value v1
  refine Chip.auxOfRegion_holds ?_
  exact w2

theorem Chip.serialEdge_holds {x0 x1} (h : Chip.Holds j c) : Chip.Holds j (Chip.serialEdge x0 x1 c) := by
  unfold Chip.serialEdge
  extract_lets v0 v1
  have w2 : Chip.Holds j v1 := by
    unfold v1
    refine Chip.holds_ite (fun p3 => ?_) (fun p3 => ?_)
    · refine Chip.setSport_holds ?_
      exact h
    · exact h
  clear_value v1
  refine Chip.holds_ite (fun p4 => ?_) (fun p4 => ?_)
  · refine Chip.holds_ite (fun p5 => ?_) (fun p5 => ?_)
    · refine Chip.portSettle_holds ?_
      refine Chip.setSport_holds ?_
      exact w2
    · exact w2
  · exact h

theorem Chip.clockEdge_holds {x0 x1 x2 x3} (h : Chip.Holds j c) : Chip.Holds j (Chip.clockEdge x0 x1 x2 x3 c) := by
  unfold Chip.clockEdge
  refine Chip.holds_ite (fun p0 => ?_) (fun p0 => ?_)
  · exact h
  · extract_lets v1 v2 v3 v4 v5 v6 v7 v8 v9 v10
    have w11 : Chip.Holds j v9 := by
      unfold v9
      refine Chip.setRg_holds ?_
      refine Chip.set_holds ?_
      exact h
    clear_value v9
    have w12 : Chip.Holds j v10 := by
      unfold v10
      refine Chip.serialEdge_holds ?_
      refine Chip.capSample_holds ?_
      refine Chip.freeNext_holds ?_
      exact w11
    clear_value v10
    refine Chip.auxEdge_holds ?_
    exact w12

theorem notRetired_holds {x0 x1} {f : Chip → Chip} (hf : ∀ c, Chip.Holds j c → Chip.Holds j (f c)) (h : Chip.Holds j c) :
    Chip.Holds j (notRetired x0 x1 f c) :=
  Chip.holds_ite (fun _ => Chip.fail_holds h) (fun _ => hf c h)

theorem cmdFabStatus_holds {x0 x1} (h : Chip.Holds j c) : Chip.Holds j (Cmd.run cmdFabStatus x0 x1 c) := by
  dsimp -zeta only [cmdFabStatus, Cmd.plain]
  extract_lets v0
  refine notRetired_holds ?_ ?_
  · intro y1
    intro y2
    refine Chip.ok_holds ?_
    exact y2
  · exact h

theorem cmdFabProbe_holds {x0 x1} (h : Chip.Holds j c) : Chip.Holds j (Cmd.run cmdFabProbe x0 x1 c) := by
  dsimp -zeta only [cmdFabProbe, Cmd.plain]
  refine notRetired_holds ?_ ?_
  · intro y0
    intro y1
    extract_lets v2
    refine Chip.ok_holds ?_
    refine Chip.probeSettle_holds ?_
    refine Chip.set_holds ?_
    refine Chip.set_holds ?_
    refine Chip.set_holds ?_
    exact y1
  · exact h

theorem cmdFabCapArm_holds {x0 x1} (h : Chip.Holds j c) : Chip.Holds j (Cmd.run cmdFabCapArm x0 x1 c) := by
  dsimp -zeta only [cmdFabCapArm, Cmd.plain]
  extract_lets v0
  refine notRetired_holds ?_ ?_
  · intro y1
    intro y2
    refine Chip.holds_ite (fun p3 => ?_) (fun p3 => ?_)
    · refine Chip.fail_holds ?_
      exact y2
    · refine Chip.holds_ite (fun p4 => ?_) (fun p4 => ?_)
      · refine Chip.fail_holds ?_
        exact y2
      · refine Chip.holds_ite (fun p5 => ?_) (fun p5 => ?_)
        · refine Chip.fail_holds ?_
          exact y2
        · extract_lets v6 v7
          have w8 : Chip.Holds j v6 := by
            unfold v6
            refine Chip.set_holds ?_
            refine Chip.set_holds ?_
            refine Chip.set_holds ?_
            exact y2
          clear_value v6
          have w9 : Chip.Holds j v7 := by
            unfold v7
            refine Chip.set_holds ?_
            refine Chip.set_holds ?_
            exact w8
          clear_value v7
          refine Chip.ok_holds ?_
          refine Chip.capArm_holds ?_
          exact w9
  · exact h

theorem cmdFabCapStop_holds {x0 x1} (h : Chip.Holds j c) : Chip.Holds j (Cmd.run cmdFabCapStop x0 x1 c) := by
  dsimp -zeta only [cmdFabCapStop, Cmd.plain]
  refine notRetired_holds ?_ ?_
  · intro y0
    intro y1
    refine Chip.ok_holds ?_
    refine Chip.capStop_holds ?_
    exact y1
  · exact h

theorem cmdFabCapRead_holds {x0 x1} (h : Chip.Holds j c) : Chip.Holds j (Cmd.run cmdFabCapRead x0 x1 c) := by
  dsimp -zeta only [cmdFabCapRead, Cmd.plain]
  extract_lets v0
  refine notRetired_holds ?_ ?_
  · intro y1
    intro y2
    refine Chip.holds_ite (fun p3 => ?_) (fun p3 => ?_)
    · refine Chip.fail_holds ?_
      exact y2
    · extract_lets v4
      refine Chip.ok_holds ?_
      exact y2
  · exact h

end Sys2Proof.Machine
end

