-- ==== Sys2Proof/Laws/KeepScratch.lean ====
section
/-! SUPPORT. Each operation of Machine/Scratch.lean keeps the device sound and leaves its test access port. -/

namespace Sys2Proof.Machine

variable {j : Jtag} {c : Chip}

theorem Chip.spUncorr_holds {x0 x1 x2} (h : Chip.Holds j c) : Chip.Holds j (Chip.spUncorr x0 x1 x2 c) := by
  unfold Chip.spUncorr
  extract_lets v0 v1 v2 v3
  have w4 : Chip.Holds j v2 := by
    unfold v2
    refine Chip.holds_mk rfl rfl rfl rfl rfl rfl rfl rfl rfl rfl rfl rfl ?_
    exact h
  clear_value v2
  have w5 : Chip.Holds j v3 := by
    unfold v3
    refine Chip.set_holds ?_
    refine Chip.set_holds ?_
    refine Chip.inc_holds ?_
    exact w4
  clear_value v3
  refine Chip.tqPush_holds ?_
  refine Chip.flagEvent_holds ?_
  exact w5

theorem Chip.spCorrect_holds {x0 x1} (h : Chip.Holds j c) : Chip.Holds j (Chip.spCorrect x0 x1 c) := by
  unfold Chip.spCorrect
  refine Chip.tqPush_holds ?_
  refine Chip.flagEvent_holds ?_
  refine Chip.inc_holds ?_
  exact h

theorem Chip.spStore_holds {x0 x1 x2 x3 x4} (h : Chip.Holds j c) : Chip.Holds j (Chip.spStore x0 x1 x2 x3 x4 c) := by
  unfold Chip.spStore
  extract_lets v0 v1 v2 v3
  split
  · exact h
  · refine Chip.holds_mk_mem rfl rfl rfl rfl rfl rfl rfl rfl rfl rfl rfl ?_ (fun hm => ?_)
    · exact h
    · repeat first | with_reducible exact hm | with_reducible refine wf_memWrite _ _ ?_ | with_reducible refine wf_memZero _ _ ?_ | with_reducible refine wf_memWriteMask _ _ ?_ | with_reducible refine wf_filter _ ?_ | with_reducible refine wf_memPut _ _ ?_ | with_reducible refine wf_foldl _ (fun m a hm => ?_) ?_ | split | exact hm
  · refine Chip.holds_mk_mem rfl rfl rfl rfl rfl rfl rfl rfl rfl rfl rfl ?_ (fun hm => ?_)
    · exact h
    · repeat first | with_reducible exact hm | with_reducible refine wf_memWrite _ _ ?_ | with_reducible refine wf_memZero _ _ ?_ | with_reducible refine wf_memWriteMask _ _ ?_ | with_reducible refine wf_filter _ ?_ | with_reducible refine wf_memPut _ _ ?_ | with_reducible refine wf_foldl _ (fun m a hm => ?_) ?_ | split | exact hm

theorem Chip.bankOp_holds {x0 x1 x2 x3 x4 x5 x6} (h : Chip.Holds j c) : Chip.Holds j (Chip.bankOp x0 x1 x2 x3 x4 x5 x6 c).2 := by
  unfold Chip.bankOp
  refine Chip.holds_ite_snd (fun p0 => ?_) (fun p0 => ?_)
  · refine Chip.holds_pair ?_
    refine Chip.spUncorr_holds ?_
    exact h
  · extract_lets v1 v2
    have w3 : Chip.Holds j v2 := by
      unfold v2
      refine Chip.holds_ite (fun p4 => ?_) (fun p4 => ?_)
      · refine Chip.spCorrect_holds ?_
        exact h
      · exact h
    clear_value v2
    refine Chip.holds_pair ?_
    refine Chip.spStore_holds ?_
    exact w3

theorem Chip.bankDiscard_holds {x0 x1 x2 x3 x4} (h : Chip.Holds j c) : Chip.Holds j (Chip.bankDiscard x0 x1 x2 x3 x4 c).2 := by
  unfold Chip.bankDiscard
  refine Chip.holds_ite_snd (fun p0 => ?_) (fun p0 => ?_)
  · refine Chip.bankOp_holds ?_
    exact h
  · refine Chip.holds_pair ?_
    exact h

theorem Chip.portA_holds {x0 x1 x2 x3 x4 x5 x6} (h : Chip.Holds j c) : Chip.Holds j (Chip.portA x0 x1 x2 x3 x4 x5 x6 c) := by
  unfold Chip.portA
  refine Chip.holds_ite (fun p0 => ?_) (fun p0 => ?_)
  · exact h
  · refine Chip.holds_ite (fun p1 => ?_) (fun p1 => ?_)
    · refine Chip.emit_holds ?_
      exact h
    · extract_lets v2 v3 v4
      have w5 : Chip.Holds j v3 := by
        unfold v3
        refine Chip.holds_mk rfl rfl rfl rfl rfl rfl rfl rfl rfl rfl rfl rfl ?_
        exact h
      clear_value v3
      split
      · rename_i z6 z7 z8 z9
        have w10 : Chip.Holds j z8 := Chip.holds_of_pair z9 (by
            refine Chip.holds_ite_snd (fun p11 => ?_) (fun p11 => ?_)
            · refine Chip.bankDiscard_holds ?_
              exact w5
            · refine Chip.bankOp_holds ?_
              exact w5
          )
        refine Chip.emit_holds ?_
        exact w10
      · rename_i z12 z13 z14
        have w15 : Chip.Holds j z13 := Chip.holds_of_pair z14 (by
            refine Chip.holds_ite_snd (fun p16 => ?_) (fun p16 => ?_)
            · refine Chip.bankDiscard_holds ?_
              exact w5
            · refine Chip.bankOp_holds ?_
              exact w5
          )
        refine Chip.emit_holds ?_
        exact w15

theorem Chip.portABad_holds {x0 x1} (h : Chip.Holds j c) : Chip.Holds j (Chip.portABad x0 x1 c) := by
  unfold Chip.portABad
  refine Chip.holds_ite (fun p0 => ?_) (fun p0 => ?_)
  · exact h
  · refine Chip.holds_ite (fun p1 => ?_) (fun p1 => ?_)
    · refine Chip.emit_holds ?_
      exact h
    · refine Chip.emit_holds ?_
      exact h

theorem Chip.portB_holds {x0 x1 x2 x3 x4 x5 x6} (h : Chip.Holds j c) : Chip.Holds j (Chip.portB x0 x1 x2 x3 x4 x5 x6 c).2 := by
  unfold Chip.portB
  extract_lets v0 v1 v2 v3
  refine Chip.holds_ite_snd (fun p4 => ?_) (fun p4 => ?_)
  · refine Chip.holds_pair ?_
    exact h
  · refine Chip.holds_ite_snd (fun p5 => ?_) (fun p5 => ?_)
    · refine Chip.holds_pair ?_
      exact h
    · refine Chip.holds_ite_snd (fun p6 => ?_) (fun p6 => ?_)
      · refine Chip.holds_pair ?_
        exact h
      · refine Chip.holds_ite_snd (fun p7 => ?_) (fun p7 => ?_)
        · refine Chip.holds_pair ?_
          refine Chip.freeNext_holds ?_
          exact h
        · refine Chip.holds_ite_snd (fun p8 => ?_) (fun p8 => ?_)
          · refine Chip.holds_pair ?_
            refine Chip.flagEvent_holds ?_
            refine Chip.inc_holds ?_
            exact h
          · split
            · rename_i z9 z10 z11 z12
              have w13 : Chip.Holds j z11 := Chip.holds_of_pair z12 (by
                  refine Chip.bankOp_holds ?_
                  exact h
                )
              refine Chip.holds_pair ?_
              exact w13
            · rename_i z14 z15 z16
              have w17 : Chip.Holds j z15 := Chip.holds_of_pair z16 (by
                  refine Chip.bankOp_holds ?_
                  exact h
                )
              refine Chip.holds_pair ?_
              exact w17

theorem Chip.bankZero_holds {x0 x1} (h : Chip.Holds j c) : Chip.Holds j (Chip.bankZero x0 x1 c) := by
  unfold Chip.bankZero
  extract_lets v0 v1
  refine Chip.holds_mk_mem rfl rfl rfl rfl rfl rfl rfl rfl rfl rfl rfl ?_ (fun hm => ?_)
  · exact h
  · repeat first | with_reducible exact hm | with_reducible refine wf_memWrite _ _ ?_ | with_reducible refine wf_memZero _ _ ?_ | with_reducible refine wf_memWriteMask _ _ ?_ | with_reducible refine wf_filter _ ?_ | with_reducible refine wf_memPut _ _ ?_ | with_reducible refine wf_foldl _ (fun m a hm => ?_) ?_ | split | exact hm

theorem Chip.bankStart_holds {x0 x1} (h : Chip.Holds j c) : Chip.Holds j (Chip.bankStart x0 x1 c) := by
  unfold Chip.bankStart
  extract_lets v0 v1 v2
  have w3 : Chip.Holds j v1 := by
    unfold v1
    refine Chip.set_holds ?_
    refine Chip.set_holds ?_
    exact h
  clear_value v1
  refine Chip.holds_ite (fun p4 => ?_) (fun p4 => ?_)
  · exact h
  · refine Chip.holds_mk rfl rfl rfl rfl rfl rfl rfl rfl rfl rfl rfl rfl ?_
    exact w3

theorem Chip.powerDone_holds (h : Chip.Holds j c) : Chip.Holds j (Chip.powerDone c) := by
  unfold Chip.powerDone
  extract_lets v0 v1 v2 v3
  have w4 : Chip.Holds j v3 := by
    unfold v3
    refine Chip.holds_mk rfl rfl rfl rfl rfl rfl rfl rfl rfl rfl rfl rfl ?_
    exact h
  clear_value v3
  refine Chip.forAll_holds ?_ ?_
  · intro y5
    intro y6
    intro y7
    refine Chip.ok_holds ?_
    exact y7
  · exact w4

theorem Chip.bankDone_holds {x0 x1} (h : Chip.Holds j c) : Chip.Holds j (Chip.bankDone x0 x1 c) := by
  unfold Chip.bankDone
  refine Chip.holds_ite (fun p0 => ?_) (fun p0 => ?_)
  · exact h
  · extract_lets v1 v2 v3 v4
    have w5 : Chip.Holds j v2 := by
      unfold v2
      refine Chip.holds_ite (fun p6 => ?_) (fun p6 => ?_)
      · refine Chip.bankZero_holds ?_
        exact h
      · exact h
    clear_value v2
    have w7 : Chip.Holds j v3 := by
      unfold v3
      refine Chip.set_holds ?_
      refine Chip.set_holds ?_
      exact w5
    clear_value v3
    refine Chip.bankStart_holds ?_
    refine Chip.powerDone_holds ?_
    refine Chip.holds_mk rfl rfl rfl rfl rfl rfl rfl rfl rfl rfl rfl rfl ?_
    exact w7

theorem Chip.spRegionOff_holds {x0} (h : Chip.Holds j c) : Chip.Holds j (Chip.spRegionOff x0 c) := by
  unfold Chip.spRegionOff
  refine Chip.forAll_holds ?_ ?_
  · intro y0
    intro y1
    intro y2
    refine Chip.holds_ite (fun p3 => ?_) (fun p3 => ?_)
    · refine Chip.set_holds ?_
      exact y2
    · exact y2
  · refine Chip.endLeases_holds ?_
    exact h

theorem Chip.spRegionOn_holds {x0} (h : Chip.Holds j c) : Chip.Holds j (Chip.spRegionOn x0 c) := by
  unfold Chip.spRegionOn
  refine Chip.forAll_holds ?_ ?_
  · intro y0
    intro y1
    intro y2
    refine Chip.holds_ite (fun p3 => ?_) (fun p3 => ?_)
    · refine Chip.set_holds ?_
      exact y2
    · exact y2
  · exact h

theorem Chip.bankRetire_holds {x0 x1} (h : Chip.Holds j c) : Chip.Holds j (Chip.bankRetire x0 x1 c) := by
  unfold Chip.bankRetire
  extract_lets v0 v1
  have w2 : Chip.Holds j v0 := by
    unfold v0
    refine Chip.set_holds ?_
    refine Chip.set_holds ?_
    refine Chip.set_holds ?_
    refine Chip.bankZero_holds ?_
    exact h
  clear_value v0
  refine Chip.set_holds ?_
  refine Chip.holds_mk rfl rfl rfl rfl rfl rfl rfl rfl rfl rfl rfl rfl ?_
  exact w2

theorem Chip.spRegionRetire_holds {x0} (h : Chip.Holds j c) : Chip.Holds j (Chip.spRegionRetire x0 c) := by
  unfold Chip.spRegionRetire
  refine Chip.forAll_holds ?_ ?_
  · intro y0
    intro y1
    intro y2
    extract_lets v3 v4
    have w5 : Chip.Holds j v3 := by
      unfold v3
      refine Chip.set_holds ?_
      refine Chip.set_holds ?_
      refine Chip.set_holds ?_
      refine Chip.bankZero_holds ?_
      exact y2
    clear_value v3
    refine Chip.holds_mk rfl rfl rfl rfl rfl rfl rfl rfl rfl rfl rfl rfl ?_
    exact w5
  · exact h

theorem Chip.pwrWrite_holds {x0 x1} (h : Chip.Holds j c) : Chip.Holds j (Chip.pwrWrite x0 x1 c).2 := by
  unfold Chip.pwrWrite
  extract_lets v0 v1
  have w2 : Chip.Holds j v1 := by
    unfold v1
    refine Chip.forAll_holds ?_ ?_
    · intro y3
      intro y4
      intro y5
      refine Chip.set_holds ?_
      exact y5
    · exact h
  clear_value v1
  refine Chip.holds_ite_snd (fun p6 => ?_) (fun p6 => ?_)
  · refine Chip.holds_pair ?_
    exact h
  · refine Chip.holds_ite_snd (fun p7 => ?_) (fun p7 => ?_)
    · refine Chip.holds_pair ?_
      exact h
    · refine Chip.holds_pair ?_
      refine Chip.forAll_holds ?_ ?_
      · intro y8
        intro y9
        intro y10
        refine Chip.bankStart_holds ?_
        exact y10
      · exact w2

theorem Chip.leaseStart_holds {x0 x1} (h : Chip.Holds j c) : Chip.Holds j (Chip.leaseStart x0 x1 c) := by
  unfold Chip.leaseStart
  refine Chip.holds_ite (fun p0 => ?_) (fun p0 => ?_)
  · refine Chip.set_holds ?_
    exact h
  · exact h

theorem Chip.remapStart_holds {x0 x1} (h : Chip.Holds j c) : Chip.Holds j (Chip.remapStart x0 x1 c) := by
  unfold Chip.remapStart
  refine Chip.holds_mk rfl rfl rfl rfl rfl rfl rfl rfl rfl rfl rfl rfl ?_
  exact h

theorem Chip.leaseEnd_holds {x0 x1} (h : Chip.Holds j c) : Chip.Holds j (Chip.leaseEnd x0 x1 c) := by
  unfold Chip.leaseEnd
  refine Chip.holds_ite (fun _ => h) (fun _ => ?_)
  extract_lets v1
  have w : Chip.Holds j v1 := Chip.set_holds h
  clear_value v1
  split
  · exact w
  · exact Chip.freeNext_holds (Chip.holds_mk rfl rfl rfl rfl rfl rfl rfl rfl rfl rfl rfl rfl w)

theorem Chip.spCntClr_holds {x0 x1} (h : Chip.Holds j c) : Chip.Holds j (Chip.spCntClr x0 x1 c) := by
  unfold Chip.spCntClr
  extract_lets v0
  have w1 : Chip.Holds j v0 := by
    unfold v0
    refine Chip.holds_ite (fun p2 => ?_) (fun p2 => ?_)
    · refine Chip.clear_holds ?_
      exact h
    · exact h
  clear_value v0
  refine Chip.holds_ite (fun p3 => ?_) (fun p3 => ?_)
  · refine Chip.set_holds ?_
    exact w1
  · exact w1

theorem cmdSpStatus_holds {x0 x1} (h : Chip.Holds j c) : Chip.Holds j (Cmd.run cmdSpStatus x0 x1 c) := by
  dsimp -zeta only [cmdSpStatus, Cmd.plain]
  extract_lets v0
  split
  · refine Chip.fail_holds ?_
    exact h
  · refine Chip.ok_holds ?_
    exact h

theorem cmdSpPower_holds {x0 x1} (h : Chip.Holds j c) : Chip.Holds j (Cmd.run cmdSpPower x0 x1 c) := by
  dsimp -zeta only [cmdSpPower, Cmd.plain]
  extract_lets v0 v1 v2 v3 v4 v5
  have w6 : Chip.Holds j v2 := by
    unfold v2
    refine Chip.interim_holds ?_
    exact h
  clear_value v2
  have w7 : Chip.Holds j v3 := by
    unfold v3
    refine Chip.forAll_holds ?_ ?_
    · intro y8
      intro y9
      intro y10
      refine Chip.set_holds ?_
      exact y10
    · exact w6
  clear_value v3
  have w11 : Chip.Holds j v4 := by
    unfold v4
    refine Chip.forAll_holds ?_ ?_
    · intro y12
      intro y13
      intro y14
      refine Chip.bankStart_holds ?_
      exact y14
    · exact w7
  clear_value v4
  split
  · refine Chip.fail_holds ?_
    exact h
  · refine Chip.holds_ite (fun p20 => ?_) (fun p20 => ?_)
    · refine Chip.fail_holds ?_
      exact h
    · refine Chip.holds_ite (fun p21 => ?_) (fun p21 => ?_)
      · refine Chip.fail_holds ?_
        exact h
      · refine Chip.powerDone_holds ?_
        refine Chip.holds_mk rfl rfl rfl rfl rfl rfl rfl rfl rfl rfl rfl rfl ?_
        exact w11

theorem cmdSpColmapRead_holds {x0 x1} (h : Chip.Holds j c) : Chip.Holds j (Cmd.run cmdSpColmapRead x0 x1 c) := by
  dsimp -zeta only [cmdSpColmapRead, Cmd.plain]
  extract_lets v0
  split
  · refine Chip.fail_holds ?_
    exact h
  · refine Chip.ok_holds ?_
    exact h

end Sys2Proof.Machine
end

