-- ==== Sys2Proof/Laws/KeepNetCore.lean ====
section
/-! SUPPORT. Each operation of Machine/NetCore.lean keeps the device sound and leaves its test access port. -/

namespace Sys2Proof.Machine

variable {j : Jtag} {c : Chip}

theorem Chip.niShow_holds {x0} (h : Chip.Holds j c) : Chip.Holds j (Chip.niShow x0 c) := by
  unfold Chip.niShow
  refine Chip.set_holds ?_
  exact h

theorem Chip.domSet_holds {x0 x1} (h : Chip.Holds j c) : Chip.Holds j (Chip.domSet x0 x1 c) := by
  unfold Chip.domSet
  extract_lets v0 v1
  have w2 : Chip.Holds j v1 := by
    unfold v1
    refine Chip.holds_mk rfl rfl rfl rfl rfl rfl rfl rfl rfl rfl rfl rfl ?_
    exact h
  clear_value v1
  refine Chip.forAll_holds ?_ ?_
  · intro y3
    intro y4
    intro y5
    refine Chip.niShow_holds ?_
    exact y5
  · exact w2

theorem Chip.outShow_holds {x0} (h : Chip.Holds j c) : Chip.Holds j (Chip.outShow x0 c) := by
  unfold Chip.outShow
  refine Chip.set_holds ?_
  exact h

theorem Chip.bufOwe_holds {x0 x1} (h : Chip.Holds j c) : Chip.Holds j (Chip.bufOwe x0 x1 c) := by
  unfold Chip.bufOwe
  extract_lets v0 v1 v2 v3 v4
  have w5 : Chip.Holds j v3 := by
    unfold v3
    refine Chip.holds_mk rfl rfl rfl rfl rfl rfl rfl rfl rfl rfl rfl rfl ?_
    exact h
  clear_value v3
  refine Chip.holds_ite (fun p6 => ?_) (fun p6 => ?_)
  · refine Chip.set_holds ?_
    refine Chip.holds_mk rfl rfl rfl rfl rfl rfl rfl rfl rfl rfl rfl rfl ?_
    exact w5
  · exact w5

theorem Chip.bufLate_holds {x0 x1 x2} (h : Chip.Holds j c) : Chip.Holds j (Chip.bufLate x0 x1 x2 c) := by
  unfold Chip.bufLate
  extract_lets v0 v1 v2 v3 v4 v5
  have w6 : Chip.Holds j v2 := by
    unfold v2
    refine Chip.set_holds ?_
    refine Chip.inc_holds ?_
    exact h
  clear_value v2
  have w7 : Chip.Holds j v4 := by
    unfold v4
    refine Chip.holds_mk rfl rfl rfl rfl rfl rfl rfl rfl rfl rfl rfl rfl ?_
    exact w6
  clear_value v4
  refine Chip.holds_ite (fun p8 => ?_) (fun p8 => ?_)
  · split
    · refine Chip.set_holds ?_
      refine Chip.holds_mk rfl rfl rfl rfl rfl rfl rfl rfl rfl rfl rfl rfl ?_
      exact w7
    · exact w7
  · refine Chip.holds_mk rfl rfl rfl rfl rfl rfl rfl rfl rfl rfl rfl rfl ?_
    exact w6

theorem Chip.respond_holds {x0 x1 x2 x3 x4 x5 x6} (h : Chip.Holds j c) : Chip.Holds j (Chip.respond x0 x1 x2 x3 x4 x5 x6 c) := by
  unfold Chip.respond
  refine Chip.holds_mk rfl rfl rfl rfl rfl rfl rfl rfl rfl rfl rfl rfl ?_
  exact h

theorem Chip.netPump_holds (h : Chip.Holds j c) : Chip.Holds j (Chip.netPump c) := by
  unfold Chip.netPump
  refine Chip.forAll_holds ?_ ?_
  · intro y0
    intro y1
    intro y2
    refine Chip.holds_ite (fun p3 => ?_) (fun p3 => ?_)
    · refine Chip.holds_mk rfl rfl rfl rfl rfl rfl rfl rfl rfl rfl rfl rfl ?_
      exact y2
    · exact y2
  · exact h

theorem Chip.unflight_holds {x0} (h : Chip.Holds j c) : Chip.Holds j (Chip.unflight x0 c) := by
  unfold Chip.unflight
  refine Chip.netPump_holds ?_
  refine Chip.holds_mk rfl rfl rfl rfl rfl rfl rfl rfl rfl rfl rfl rfl ?_
  exact h

theorem Chip.gateEnter_holds {x0 x1} (h : Chip.Holds j c) : Chip.Holds j (Chip.gateEnter x0 x1 c) := by
  unfold Chip.gateEnter
  refine Chip.holds_ite (fun p0 => ?_) (fun p0 => ?_)
  · exact h
  · refine Chip.netPump_holds ?_
    refine Chip.holds_mk rfl rfl rfl rfl rfl rfl rfl rfl rfl rfl rfl rfl ?_
    exact h

theorem Chip.wwRequest_holds {x0 x1 x2} (h : Chip.Holds j c) : Chip.Holds j (Chip.wwRequest x0 x1 x2 c) := by
  unfold Chip.wwRequest
  extract_lets v0
  have w1 : Chip.Holds j v0 := by
    unfold v0
    refine Chip.wwAlong_holds ?_
    exact h
  clear_value v0
  refine Chip.set_holds ?_
  exact w1

theorem Chip.wwLanded_holds {x0} (h : Chip.Holds j c) : Chip.Holds j (Chip.wwLanded x0 c) := by
  unfold Chip.wwLanded
  split
  · exact h
  · refine Chip.holds_ite (fun p5 => ?_) (fun p5 => ?_)
    · refine Chip.set_holds ?_
      exact h
    · refine Chip.set_holds ?_
      exact h

theorem Chip.outCancel_holds {x0} (h : Chip.Holds j c) : Chip.Holds j (Chip.outCancel x0 c) := by
  unfold Chip.outCancel
  extract_lets v0 v1 v2
  have w3 : Chip.Holds j v1 := by
    unfold v1
    refine Chip.holds_mk rfl rfl rfl rfl rfl rfl rfl rfl rfl rfl rfl rfl ?_
    exact h
  clear_value v1
  have w4 : Chip.Holds j v2 := by
    unfold v2
    refine Chip.holds_ite (fun p5 => ?_) (fun p5 => ?_)
    · refine Chip.bufOwe_holds ?_
      exact w3
    · exact w3
  clear_value v2
  refine Chip.netPump_holds ?_
  refine Chip.outShow_holds ?_
  refine Chip.wwLanded_holds ?_
  exact w4

theorem Chip.niIssue_holds {x0 x1 x2 x3 x4 x5 x6 x7 x8 x9} (h : Chip.Holds j c) : Chip.HoldsO j (Chip.niIssue x0 x1 x2 x3 x4 x5 x6 x7 x8 x9 c) := by
  unfold Chip.niIssue
  extract_lets v0 v1 v2 v3 v4 v5
  split
  · exact Chip.holdsO_none
  · extract_lets v11 v12 v13 v14 v15
    have w16 : Chip.Holds j v14 := by
      unfold v14
      refine Chip.holds_mk rfl rfl rfl rfl rfl rfl rfl rfl rfl rfl rfl rfl ?_
      exact h
    clear_value v14
    have w17 : Chip.Holds j v15 := by
      unfold v15
      refine Chip.outShow_holds ?_
      exact w16
    clear_value v15
    refine Chip.holdsO_some ?_
    refine Chip.holds_ite (fun p18 => ?_) (fun p18 => ?_)
    · refine Chip.respond_holds ?_
      exact w17
    · refine Chip.holds_ite (fun p19 => ?_) (fun p19 => ?_)
      · refine Chip.respond_holds ?_
        exact w17
      · generalize v3 = u20
        split
        · refine Chip.respond_holds ?_
          exact w17
        · refine Chip.wwRequest_holds ?_
          exact w17
        · refine Chip.netPump_holds ?_
          exact w17

theorem Chip.domClose_holds {x0 x1} (h : Chip.Holds j c) : Chip.Holds j (Chip.domClose x0 x1 c) := by
  unfold Chip.domClose
  extract_lets v0 v1 v2 v3 v4 v5 v6 v7 v8
  have w9 : Chip.Holds j v0 := by
    unfold v0
    refine Chip.domSet_holds ?_
    exact h
  clear_value v0
  have w10 : Chip.Holds j v2 := by
    unfold v2
    refine Chip.forAll_holds ?_ ?_
    · intro y11
      intro y12
      intro y13
      refine Chip.inc_holds ?_
      refine Chip.respond_holds ?_
      refine Chip.unflight_holds ?_
      exact y13
    · exact w9
  clear_value v2
  have w14 : Chip.Holds j v4 := by
    unfold v4
    refine Chip.holds_ite (fun p15 => ?_) (fun p15 => ?_)
    · refine Chip.holds_mk rfl rfl rfl rfl rfl rfl rfl rfl rfl rfl rfl rfl ?_
      exact w10
    · exact w9
  clear_value v4
  have w16 : Chip.Holds j v5 := by
    unfold v5
    refine Chip.forAll_holds ?_ ?_
    · intro y17
      intro y18
      intro y19
      split
      · refine Chip.inc_holds ?_
        refine Chip.respond_holds ?_
        exact y19
      · exact y19
    · exact w14
  clear_value v5
  have w25 : Chip.Holds j v7 := by
    unfold v7
    refine Chip.holds_ite (fun p26 => ?_) (fun p26 => ?_)
    · refine Chip.holds_mk rfl rfl rfl rfl rfl rfl rfl rfl rfl rfl rfl rfl ?_
      exact w16
    · exact w14
  clear_value v7
  refine Chip.holds_ite (fun p27 => ?_) (fun p27 => ?_)
  · exact w25
  · refine Chip.domSet_holds ?_
    refine Chip.forAll_holds ?_ ?_
    · intro y28
      intro y29
      intro y30
      refine Chip.outCancel_holds ?_
      exact y30
    · exact w25

theorem Chip.domClosed_holds {x0} (h : Chip.Holds j c) : Chip.Holds j (Chip.domClosed x0 c) := by
  unfold Chip.domClosed
  refine Chip.holds_ite (fun p0 => ?_) (fun p0 => ?_)
  · refine Chip.domSet_holds ?_
    refine Chip.forAll_holds ?_ ?_
    · intro y1
      intro y2
      intro y3
      refine Chip.outCancel_holds ?_
      exact y3
    · exact h
  · exact h

theorem Chip.domOpen_holds {x0} (h : Chip.Holds j c) : Chip.Holds j (Chip.domOpen x0 c) := by
  unfold Chip.domOpen
  refine Chip.holds_ite (fun p0 => ?_) (fun p0 => ?_)
  · exact h
  · extract_lets v1 v2 v3
    have w4 : Chip.Holds j v1 := by
      unfold v1
      refine Chip.domSet_holds ?_
      exact h
    clear_value v1
    refine Chip.holds_mk rfl rfl rfl rfl rfl rfl rfl rfl rfl rfl rfl rfl ?_
    exact w4

end Sys2Proof.Machine
end

