-- ==== Sys2Proof/Laws/KeepCfgLoad.lean ====
section
/-! SUPPORT. Each operation of Machine/CfgLoad.lean keeps the device sound and leaves its test access port. -/

namespace Sys2Proof.Machine

variable {j : Jtag} {c : Chip}

theorem Chip.setSlotState_holds {x0 x1} (h : Chip.Holds j c) : Chip.Holds j (Chip.setSlotState x0 x1 c) := by
  unfold Chip.setSlotState
  refine Chip.holds_ite (fun p0 => ?_) (fun p0 => ?_)
  · refine Chip.holds_mk rfl rfl rfl rfl rfl rfl rfl rfl rfl rfl rfl rfl ?_
    exact h
  · extract_lets v1 v2
    refine Chip.holds_mk rfl rfl rfl rfl rfl rfl rfl rfl rfl rfl rfl rfl ?_
    exact h

theorem Chip.fillSlot_holds {x0 x1 x2} (h : Chip.Holds j c) : Chip.Holds j (Chip.fillSlot x0 x1 x2 c) := by
  unfold Chip.fillSlot
  extract_lets v0 v1 v2
  refine Chip.holds_mk_mem rfl rfl rfl rfl rfl rfl rfl rfl rfl rfl rfl ?_ (fun hm => ?_)
  · exact h
  · unfold v2
    unfold v1
    repeat first | with_reducible exact hm | with_reducible refine wf_memWrite _ _ ?_ | with_reducible refine wf_memZero _ _ ?_ | with_reducible refine wf_memWriteMask _ _ ?_ | with_reducible refine wf_filter _ ?_ | with_reducible refine wf_memPut _ _ ?_ | with_reducible refine wf_foldl _ (fun m a hm => ?_) ?_ | split | exact hm

theorem Chip.readyStop_holds {x0 x1 x2} (h : Chip.Holds j c) : Chip.Holds j (Chip.readyStop x0 x1 x2 c) := by
  unfold Chip.readyStop
  extract_lets v0 v1 v2
  have w3 : Chip.Holds j v1 := by
    unfold v1
    refine Chip.set_holds ?_
    exact h
  clear_value v1
  refine Chip.holds_ite (fun p4 => ?_) (fun p4 => ?_)
  · refine Chip.emptyStop_holds ?_
    exact h
  · refine Chip.holds_mk rfl rfl rfl rfl rfl rfl rfl rfl rfl rfl rfl rfl ?_
    exact w3

theorem Chip.writeStop_holds {x0 x1 x2} (h : Chip.Holds j c) : Chip.Holds j (Chip.writeStop x0 x1 x2 c) := by
  unfold Chip.writeStop
  extract_lets v0 v1 v2
  refine Chip.holds_mk rfl rfl rfl rfl rfl rfl rfl rfl rfl rfl rfl rfl ?_
  exact h

theorem Chip.unmark_holds {x0} (h : Chip.Holds j c) : Chip.Holds j (Chip.unmark x0 c) := by
  unfold Chip.unmark
  refine Chip.forAll_holds ?_ ?_
  · intro y0
    intro y1
    intro y2
    refine Chip.set_holds ?_
    exact y2
  · exact h

theorem Chip.tonguePumpN_holds {x0} (h : Chip.Holds j c) : Chip.Holds j (Chip.tonguePumpN x0 c) := by
  induction x0 generalizing c
  · unfold Chip.tonguePumpN
    exact h
  · rename_i nn ih
    unfold Chip.tonguePumpN
    split
    · exact h
    · extract_lets v24
      split
      · rename_i z25 z26 z27
        have w28 : Chip.Holds j z26 := Chip.niIssue_holds (by
            exact h
          ) _ z27
        refine ih ?_
        refine Chip.holds_mk rfl rfl rfl rfl rfl rfl rfl rfl rfl rfl rfl rfl ?_
        exact w28
      · exact h

theorem Chip.tonguePump_holds (h : Chip.Holds j c) : Chip.Holds j (Chip.tonguePump c) := by
  unfold Chip.tonguePump
  refine Chip.tonguePumpN_holds ?_
  exact h

theorem Chip.tongueDone_holds {x0 x1 x2} (h : Chip.Holds j c) : Chip.Holds j (Chip.tongueDone x0 x1 x2 c) := by
  unfold Chip.tongueDone
  refine Chip.tonguePump_holds ?_
  refine Chip.holds_mk rfl rfl rfl rfl rfl rfl rfl rfl rfl rfl rfl rfl ?_
  exact h

theorem Chip.rewritten_holds {x0 x1} (h : Chip.Holds j c) : Chip.Holds j (Chip.rewritten x0 x1 c) := by
  unfold Chip.rewritten
  extract_lets v0 v1
  have w2 : Chip.Holds j v0 := by
    unfold v0
    refine Chip.holds_ite (fun p3 => ?_) (fun p3 => ?_)
    · refine Chip.initFfs_holds ?_
      exact h
    · exact h
  clear_value v0
  have w4 : Chip.Holds j v1 := by
    unfold v1
    refine Chip.holds_ite (fun p5 => ?_) (fun p5 => ?_)
    · exact w2
    · refine Chip.releaseRegion_holds ?_
      exact w2
  clear_value v1
  refine Chip.releaseRegion_holds ?_
  refine Chip.releaseRegion_holds ?_
  exact w4

theorem Chip.pageReply_holds {x0 x1 x2} (h : Chip.Holds j c) : Chip.Holds j (Chip.pageReply x0 x1 x2 c) := by
  unfold Chip.pageReply
  split
  · exact h
  · refine Chip.fail_holds ?_
    exact h
  · refine Chip.holds_ite (fun p10 => ?_) (fun p10 => ?_)
    · refine Chip.fail_holds ?_
      refine Chip.rewritten_holds ?_
      exact h
    · refine Chip.fail_holds ?_
      refine Chip.raise_holds ?_
      refine Chip.emptyStop_holds ?_
      exact h
  · refine Chip.tongueDone_holds ?_
    exact h

theorem Chip.pageAbandon_holds {x0} (h : Chip.Holds j c) : Chip.Holds j (Chip.pageAbandon x0 c) := by
  unfold Chip.pageAbandon
  refine Chip.forAll_holds ?_ ?_
  · intro y0
    intro y1
    intro y2
    refine Chip.emptyStop_holds ?_
    exact y2
  · exact h

theorem Chip.dropPagings_holds (h : Chip.Holds j c) : Chip.Holds j (Chip.dropPagings c) := by
  unfold Chip.dropPagings
  extract_lets v0 v1 v2 v3 v4
  have w5 : Chip.Holds j v3 := by
    unfold v3
    refine Chip.holds_mk rfl rfl rfl rfl rfl rfl rfl rfl rfl rfl rfl rfl ?_
    exact h
  clear_value v3
  have w6 : Chip.Holds j v4 := by
    unfold v4
    refine Chip.forAll_holds ?_ ?_
    · intro y7
      intro y8
      intro y9
      extract_lets v10
      have w11 : Chip.Holds j v10 := by
        unfold v10
        refine Chip.pageAbandon_holds ?_
        exact y9
      clear_value v10
      split
      · exact w11
      · refine Chip.fail_holds ?_
        exact w11
      · refine Chip.fail_holds ?_
        exact w11
      · refine Chip.tongueDone_holds ?_
        exact w11
    · exact w5
  clear_value v4
  refine Chip.forAll_holds ?_ ?_
  · intro y27
    intro y28
    intro y29
    refine Chip.fail_holds ?_
    exact y29
  · exact w6

theorem Chip.xspiRead_holds {x0 x1 x2} (h : Chip.Holds j c) : Chip.Holds j (Chip.xspiRead x0 x1 x2 c) := by
  unfold Chip.xspiRead
  refine Chip.emit_holds ?_
  exact h

theorem Chip.enterConfiguring_holds (h : Chip.Holds j c) : Chip.Holds j (Chip.enterConfiguring c) := by
  unfold Chip.enterConfiguring
  extract_lets v0 v1 v2 v3
  have w4 : Chip.Holds j v0 := by
    unfold v0
    refine Chip.holds_ite (fun p5 => ?_) (fun p5 => ?_)
    · refine Chip.leaveUser_holds ?_
      exact h
    · exact h
  clear_value v0
  have w6 : Chip.Holds j v1 := by
    unfold v1
    refine Chip.dropPagings_holds ?_
    refine Chip.denAllLow_holds ?_
    refine Chip.setState_holds ?_
    exact w4
  clear_value v1
  have w7 : Chip.Holds j v2 := by
    unfold v2
    refine Chip.forAll_holds ?_ ?_
    · intro y8
      intro y9
      intro y10
      refine Chip.holds_ite (fun p11 => ?_) (fun p11 => ?_)
      · exact y10
      · extract_lets v12 v13 v14 v15
        have w16 : Chip.Holds j v12 := by
          unfold v12
          refine Chip.endLeases_holds ?_
          refine Chip.discardRequests_holds ?_
          exact y10
        clear_value v12
        have w17 : Chip.Holds j v13 := by
          unfold v13
          refine Chip.set_holds ?_
          exact w16
        clear_value v13
        have w18 : Chip.Holds j v14 := by
          unfold v14
          refine Chip.set_holds ?_
          exact w17
        clear_value v14
        have w19 : Chip.Holds j v15 := by
          unfold v15
          refine Chip.forAll_holds ?_ ?_
          · intro y20
            intro y21
            intro y22
            refine Chip.emptyStop_holds ?_
            exact y22
          · exact w18
        clear_value v15
        refine Chip.setRg_holds ?_
        exact w19
    · exact w6
  clear_value v2
  refine Chip.auxAll_holds ?_
  refine Chip.holds_mk rfl rfl rfl rfl rfl rfl rfl rfl rfl rfl rfl rfl ?_
  exact w7

theorem Chip.cfgPhase_holds {x0 x1} (h : Chip.Holds j c) : Chip.Holds j (Chip.cfgPhase x0 x1 c) := by
  unfold Chip.cfgPhase
  refine Chip.set_holds ?_
  refine Chip.set_holds ?_
  exact h

theorem Chip.loadReply_holds {x0 x1 x2} (h : Chip.Holds j c) : Chip.Holds j (Chip.loadReply x0 x1 x2 c) := by
  unfold Chip.loadReply
  extract_lets v0
  have w1 : Chip.Holds j v0 := by
    unfold v0
    split
    · refine Chip.fail_holds ?_
      exact h
    · exact h
  clear_value v0
  refine Chip.forAll_holds ?_ ?_
  · intro y7
    intro y8
    intro y9
    refine Chip.fail_holds ?_
    exact y9
  · exact w1

theorem Chip.afterFullFail_holds {x0 x1 x2} (h : Chip.Holds j c) : Chip.Holds j (Chip.afterFullFail x0 x1 x2 c) := by
  unfold Chip.afterFullFail
  split
  · extract_lets v3 v4 v5
    have w6 : Chip.Holds j v3 := by
      unfold v3
      refine Chip.holds_ite (fun p7 => ?_) (fun p7 => ?_)
      · exact h
      · refine Chip.enterConfiguring_holds ?_
        exact h
    clear_value v3
    have w8 : Chip.Holds j v4 := by
      unfold v4
      refine Chip.set_holds ?_
      refine Chip.set_holds ?_
      exact w6
    clear_value v4
    refine Chip.xspiRead_holds ?_
    refine Chip.cfgPhase_holds ?_
    refine Chip.holds_mk rfl rfl rfl rfl rfl rfl rfl rfl rfl rfl rfl rfl ?_
    exact w8
  · refine Chip.raise_holds ?_
    refine Chip.setState_holds ?_
    exact h

theorem Chip.loadFailAt_holds {x0 x1 x2} (h : Chip.Holds j c) : Chip.Holds j (Chip.loadFailAt x0 x1 x2 c) := by
  unfold Chip.loadFailAt
  split
  · exact h
  · extract_lets v5 v6 v7 v8 v9 v10 v11 v12 v13 v14 v15
    have w16 : Chip.Holds j v6 := by
      unfold v6
      refine Chip.set_holds ?_
      refine Chip.set_holds ?_
      refine Chip.set_holds ?_
      exact h
    clear_value v6
    have w17 : Chip.Holds j v8 := by
      unfold v8
      refine Chip.forAll_holds ?_ ?_
      · intro y18
        intro y19
        intro y20
        refine Chip.emptyStop_holds ?_
        exact y20
      · exact w16
    clear_value v8
    have w21 : Chip.Holds j v9 := by
      unfold v9
      refine Chip.forAll_holds ?_ ?_
      · intro y22
        intro y23
        intro y24
        refine Chip.setSlotState_holds ?_
        exact y24
      · exact w17
    clear_value v9
    have w25 : Chip.Holds j v13 := by
      unfold v13
      refine Chip.cfgPhase_holds ?_
      refine Chip.holds_mk rfl rfl rfl rfl rfl rfl rfl rfl rfl rfl rfl rfl ?_
      exact w21
    clear_value v13
    have w26 : Chip.Holds j v14 := by
      unfold v14
      refine Chip.raise_holds ?_
      exact w25
    clear_value v14
    have w27 : Chip.Holds j v15 := by
      unfold v15
      refine Chip.loadReply_holds ?_
      exact w26
    clear_value v15
    refine Chip.holds_ite (fun p28 => ?_) (fun p28 => ?_)
    · refine Chip.afterFullFail_holds ?_
      exact w27
    · refine Chip.holds_ite (fun p29 => ?_) (fun p29 => ?_)
      · refine Chip.raise_holds ?_
        refine Chip.emptyStop_holds ?_
        refine Chip.probeAll_holds ?_
        exact w27
      · refine Chip.probeAll_holds ?_
        exact w27

theorem Chip.loadFail_holds {x0 x1} (h : Chip.Holds j c) : Chip.Holds j (Chip.loadFail x0 x1 c) := by
  unfold Chip.loadFail
  refine Chip.loadFailAt_holds ?_
  exact h

theorem Chip.loadFailPage_holds {x0 x1} (h : Chip.Holds j c) : Chip.Holds j (Chip.loadFailPage x0 x1 c) := by
  unfold Chip.loadFailPage
  refine Chip.loadFailAt_holds ?_
  exact h

theorem Chip.markHeld_holds {x1 x2} (h : Chip.Holds j c) : Chip.Holds j (Chip.markHeld c x1 x2).2 := by
  induction x2 generalizing c x1
  · unfold Chip.markHeld
    refine Chip.holds_pair ?_
    exact h
  · rename_i hd' tl' ih
    unfold Chip.markHeld
    refine Chip.holds_ite_snd (fun p5 => ?_) (fun p5 => ?_)
    · refine ih ?_
      exact h
    · refine Chip.holds_ite_snd (fun p6 => ?_) (fun p6 => ?_)
      · refine Chip.holds_pair ?_
        exact h
      · refine Chip.holds_ite_snd (fun p7 => ?_) (fun p7 => ?_)
        · refine Chip.holds_pair ?_
          exact h
        · refine ih ?_
          refine Chip.markOne_holds ?_
          exact h

theorem Chip.pageOver_holds (h : Chip.Holds j c) : Chip.Holds j (Chip.pageOver c) := by
  unfold Chip.pageOver
  extract_lets v0 v1
  have w2 : Chip.Holds j v1 := by
    unfold v1
    refine Chip.holds_mk rfl rfl rfl rfl rfl rfl rfl rfl rfl rfl rfl rfl ?_
    exact h
  clear_value v1
  refine Chip.probeAll_holds ?_
  split
  · refine Chip.set_holds ?_
    exact w2
  · exact w2

theorem Chip.markFail_holds {x0 x1} (h : Chip.Holds j c) : Chip.Holds j (Chip.markFail x0 x1 c) := by
  unfold Chip.markFail
  split
  · exact h
  · extract_lets v5
    have w6 : Chip.Holds j v5 := by
      unfold v5
      refine Chip.pageOver_holds ?_
      refine Chip.unmark_holds ?_
      exact h
    clear_value v5
    refine Chip.holds_ite (fun p7 => ?_) (fun p7 => ?_)
    · refine Chip.loadFailPage_holds ?_
      exact w6
    · refine Chip.pageReply_holds ?_
      exact w6

theorem Chip.pageMarks_holds {x0} (h : Chip.Holds j c) : Chip.Holds j (Chip.pageMarks x0 c) := by
  unfold Chip.pageMarks
  split
  · rename_i z0 z1 z2
    have w3 : Chip.Holds j z1 := Chip.holds_of_pair z2 (by
        refine Chip.markHeld_holds ?_
        exact h
      )
    exact w3
  · rename_i z4 z5 z6 z7
    have w8 : Chip.Holds j z6 := Chip.holds_of_pair z7 (by
        refine Chip.markHeld_holds ?_
        exact h
      )
    refine Chip.markFail_holds ?_
    exact w8

theorem Chip.pageBegin_holds {x0} (h : Chip.Holds j c) : Chip.Holds j (Chip.pageBegin x0 c) := by
  unfold Chip.pageBegin
  extract_lets v0 v1
  have w2 : Chip.Holds j v1 := by
    unfold v1
    refine Chip.probeAll_holds ?_
    refine Chip.holds_mk rfl rfl rfl rfl rfl rfl rfl rfl rfl rfl rfl rfl ?_
    exact h
  clear_value v1
  refine Chip.pageMarks_holds ?_
  refine Chip.holds_ite (fun p3 => ?_) (fun p3 => ?_)
  · exact w2
  · refine Chip.set_holds ?_
    exact w2

theorem Chip.pageAsk_holds {x0} (h : Chip.Holds j c) : Chip.Holds j (Chip.pageAsk x0 c) := by
  unfold Chip.pageAsk
  refine Chip.holds_ite (fun p0 => ?_) (fun p0 => ?_)
  · refine Chip.pageBegin_holds ?_
    exact h
  · refine Chip.holds_mk rfl rfl rfl rfl rfl rfl rfl rfl rfl rfl rfl rfl ?_
    exact h

theorem Chip.pageNextN_holds {x0} (h : Chip.Holds j c) : Chip.Holds j (Chip.pageNextN x0 c) := by
  induction x0 generalizing c
  · unfold Chip.pageNextN
    exact h
  · rename_i nn ih
    unfold Chip.pageNextN
    refine Chip.holds_ite (fun p10 => ?_) (fun p10 => ?_)
    · split
      · refine ih ?_
        refine Chip.pageBegin_holds ?_
        refine Chip.holds_mk rfl rfl rfl rfl rfl rfl rfl rfl rfl rfl rfl rfl ?_
        exact h
      · exact h
    · exact h

theorem Chip.pageNext_holds (h : Chip.Holds j c) : Chip.Holds j (Chip.pageNext c) := by
  unfold Chip.pageNext
  refine Chip.pageNextN_holds ?_
  exact h

theorem Chip.loadEndChecks_holds {x0} (h : Chip.Holds j c) : Chip.Holds j (Chip.loadEndChecks x0 c) := by
  unfold Chip.loadEndChecks
  extract_lets v0 v1 v2 v3
  refine Chip.holds_ite (fun p4 => ?_) (fun p4 => ?_)
  · refine Chip.loadFail_holds ?_
    exact h
  · refine Chip.holds_ite (fun p5 => ?_) (fun p5 => ?_)
    · refine Chip.loadFail_holds ?_
      exact h
    · refine Chip.holds_ite (fun p6 => ?_) (fun p6 => ?_)
      · refine Chip.loadFail_holds ?_
        exact h
      · refine Chip.cfgPhase_holds ?_
        refine Chip.holds_mk rfl rfl rfl rfl rfl rfl rfl rfl rfl rfl rfl rfl ?_
        exact h

theorem Chip.consumed_holds {x0} (h : Chip.Holds j c) : Chip.Holds j (Chip.consumed x0 c).2 := by
  unfold Chip.consumed
  refine Chip.holds_ite_snd (fun p0 => ?_) (fun p0 => ?_)
  · refine Chip.holds_pair ?_
    refine Chip.loadFail_holds ?_
    exact h
  · refine Chip.holds_ite_snd (fun p1 => ?_) (fun p1 => ?_)
    · refine Chip.holds_pair ?_
      refine Chip.holds_ite (fun p2 => ?_) (fun p2 => ?_)
      · refine Chip.loadFail_holds ?_
        exact h
      · exact h
    · extract_lets v3 v4
      have w5 : Chip.Holds j v3 := by
        unfold v3
        split
        · refine Chip.ok_holds ?_
          exact h
        · exact h
      clear_value v3
      split
      · refine Chip.holds_pair ?_
        refine Chip.holds_mk rfl rfl rfl rfl rfl rfl rfl rfl rfl rfl rfl rfl ?_
        exact w5
      · refine Chip.holds_pair ?_
        refine Chip.holds_mk rfl rfl rfl rfl rfl rfl rfl rfl rfl rfl rfl rfl ?_
        exact w5
      · extract_lets v22
        refine Chip.holds_pair ?_
        refine Chip.loadEndChecks_holds ?_
        refine Chip.holds_mk rfl rfl rfl rfl rfl rfl rfl rfl rfl rfl rfl rfl ?_
        exact w5

theorem Chip.loadPump_holds {x0} (h : Chip.Holds j c) : Chip.Holds j (Chip.loadPump x0 c) := by
  induction x0 generalizing c
  · unfold Chip.loadPump
    exact h
  · rename_i nn ih
    unfold Chip.loadPump
    split
    · exact h
    · extract_lets v43 v44 v45 v46 v47 v48 v49 v50 v51 v52 v53 v54 v55 v56 v57 v58
      have w59 : Chip.Holds j v50 := by
        unfold v50
        refine Chip.holds_ite (fun p60 => ?_) (fun p60 => ?_)
        · refine Chip.setSlotState_holds ?_
          exact h
        · exact h
      clear_value v50
      have w61 : Chip.Holds j v53 := by
        unfold v53
        refine Chip.holds_mk rfl rfl rfl rfl rfl rfl rfl rfl rfl rfl rfl rfl ?_
        exact w59
      clear_value v53
      have w62 : Chip.Holds j v54.2 := by
        unfold v54
        refine Chip.consumed_holds ?_
        exact w61
      clear_value v54
      refine Chip.holds_ite (fun p63 => ?_) (fun p63 => ?_)
      · exact h
      · refine Chip.holds_ite (fun p64 => ?_) (fun p64 => ?_)
        · refine Chip.holds_ite (fun p65 => ?_) (fun p65 => ?_)
          · split
            · refine Chip.loadFail_holds ?_
              exact h
            · refine ih ?_
              refine Chip.cfgPhase_holds ?_
              refine Chip.holds_mk rfl rfl rfl rfl rfl rfl rfl rfl rfl rfl rfl rfl ?_
              exact h
          · unfold v43
            extract_lets v71
            have w72 : Chip.Holds j v71.2 := by
              unfold v71
              refine Chip.consumed_holds ?_
              exact h
            clear_value v71
            refine Chip.holds_ite (fun p73 => ?_) (fun p73 => ?_)
            · refine ih ?_
              exact w72
            · exact w72
        · refine Chip.holds_ite (fun p74 => ?_) (fun p74 => ?_)
          · refine Chip.holds_ite (fun p75 => ?_) (fun p75 => ?_)
            · unfold v43
              extract_lets v76
              have w77 : Chip.Holds j v76.2 := by
                unfold v76
                refine Chip.consumed_holds ?_
                exact h
              clear_value v76
              refine Chip.holds_ite (fun p78 => ?_) (fun p78 => ?_)
              · refine ih ?_
                exact w77
              · exact w77
            · refine ih ?_
              refine Chip.holds_mk rfl rfl rfl rfl rfl rfl rfl rfl rfl rfl rfl rfl ?_
              exact h
          · refine Chip.holds_ite (fun p79 => ?_) (fun p79 => ?_)
            · refine Chip.holds_ite (fun p80 => ?_) (fun p80 => ?_)
              · refine Chip.loadFail_holds ?_
                exact h
              · refine Chip.holds_ite (fun p81 => ?_) (fun p81 => ?_)
                · refine Chip.loadEndChecks_holds ?_
                  exact h
                · unfold v43
                  extract_lets v82
                  have w83 : Chip.Holds j v82.2 := by
                    unfold v82
                    refine Chip.consumed_holds ?_
                    exact h
                  clear_value v82
                  refine Chip.holds_ite (fun p84 => ?_) (fun p84 => ?_)
                  · refine ih ?_
                    exact w83
                  · exact w83
            · refine Chip.holds_ite (fun p85 => ?_) (fun p85 => ?_)
              · unfold v43
                extract_lets v86
                have w87 : Chip.Holds j v86.2 := by
                  unfold v86
                  refine Chip.consumed_holds ?_
                  exact h
                clear_value v86
                refine Chip.holds_ite (fun p88 => ?_) (fun p88 => ?_)
                · refine ih ?_
                  exact w87
                · exact w87
              · split
                · refine Chip.loadFail_holds ?_
                  exact h
                · refine Chip.holds_ite (fun p94 => ?_) (fun p94 => ?_)
                  · refine Chip.holds_ite (fun p95 => ?_) (fun p95 => ?_)
                    · refine ih ?_
                      exact w62
                    · exact w62
                  · split
                    · refine Chip.loadFail_holds ?_
                      exact w61
                    · refine ih ?_
                      refine Chip.holds_mk rfl rfl rfl rfl rfl rfl rfl rfl rfl rfl rfl rfl ?_
                      exact w61
                    · extract_lets v110 v111 v112
                      have w113 : Chip.Holds j v110 := by
                        unfold v110
                        refine Chip.setSlotState_holds ?_
                        refine Chip.fillSlot_holds ?_
                        exact w61
                      clear_value v110
                      have w114 : Chip.Holds j v112 := by
                        unfold v112
                        refine Chip.holds_mk rfl rfl rfl rfl rfl rfl rfl rfl rfl rfl rfl rfl ?_
                        exact w113
                      clear_value v112
                      refine Chip.holds_ite (fun p115 => ?_) (fun p115 => ?_)
                      · refine ih ?_
                        exact w114
                      · refine ih ?_
                        refine Chip.pageAsk_holds ?_
                        exact w114

theorem Chip.loadRun_holds (h : Chip.Holds j c) : Chip.Holds j (Chip.loadRun c) := by
  unfold Chip.loadRun
  extract_lets v0
  refine Chip.pageNext_holds ?_
  refine Chip.loadPump_holds ?_
  exact h

theorem Chip.pageSettle_holds (h : Chip.Holds j c) : Chip.Holds j (Chip.pageSettle c) := by
  unfold Chip.pageSettle
  refine Chip.loadRun_holds ?_
  refine Chip.pageNext_holds ?_
  exact h

theorem Chip.loadFeed_holds {x0 x1} (h : Chip.Holds j c) : Chip.Holds j (Chip.loadFeed x0 x1 c) := by
  unfold Chip.loadFeed
  split
  · exact h
  · refine Chip.loadRun_holds ?_
    refine Chip.holds_mk rfl rfl rfl rfl rfl rfl rfl rfl rfl rfl rfl rfl ?_
    exact h

theorem Chip.stopMark_holds {x0} (h : Chip.Holds j c) : Chip.Holds j (Chip.stopMark x0 c) := by
  unfold Chip.stopMark
  split
  · exact h
  · refine Chip.holds_ite (fun p6 => ?_) (fun p6 => ?_)
    · exact h
    · refine Chip.holds_ite (fun p7 => ?_) (fun p7 => ?_)
      · refine Chip.pageSettle_holds ?_
        refine Chip.markFail_holds ?_
        exact h
      · refine Chip.holds_ite (fun p8 => ?_) (fun p8 => ?_)
        · refine Chip.pageSettle_holds ?_
          refine Chip.markFail_holds ?_
          exact h
        · refine Chip.markOne_holds ?_
          exact h

theorem Chip.slotRead_eq {x0} : Chip.slotRead x0 c =
    (fun p : Rsp × Chip => (if p.1 = rspOk then none else some p.1.status, p.2)) (c.rowReads (c.slotAddr x0) 0x81000) := by
  delta Chip.slotRead
  rfl

theorem Chip.slotShape (p : Rsp × Chip) :
    ((fun p : Rsp × Chip => ((if p.1 = rspOk then none else some p.1.status : Option (Nat × Nat)), p.2)) p).2 = p.2 := rfl

theorem Chip.rowReads_at {x0 n} (h : Chip.Holds j c) : Chip.Holds j (c.rowReads x0 n).2 := Chip.rowReads_holds h

theorem Chip.slotRead_holds {x0} (h : Chip.Holds j c) : Chip.Holds j (Chip.slotRead x0 c).2 := by
  rw [Chip.slotRead_eq, Chip.slotShape]
  exact Chip.rowReads_at h

theorem Chip.pageEnd_holds {x0 x1 x2} (h : Chip.Holds j c) : Chip.Holds j (Chip.pageEnd x0 x1 x2 c) := by
  unfold Chip.pageEnd
  extract_lets v0 v1 v2
  have w3 : Chip.Holds j v0 := by
    unfold v0
    refine Chip.pageOver_holds ?_
    exact h
  clear_value v0
  have w4 : Chip.Holds j v2 := by
    unfold v2
    split
    · refine Chip.holds_mk rfl rfl rfl rfl rfl rfl rfl rfl rfl rfl rfl rfl ?_
      exact w3
    · exact w3
  clear_value v2
  split
  · refine Chip.pageSettle_holds ?_
    refine Chip.holds_ite (fun p12 => ?_) (fun p12 => ?_)
    · exact w4
    · refine Chip.loadFailPage_holds ?_
      exact w4
  · refine Chip.pageSettle_holds ?_
    refine Chip.pageReply_holds ?_
    refine Chip.forAll_holds ?_ ?_
    · intro y15
      intro y16
      intro y17
      refine Chip.emptyStop_holds ?_
      exact y17
    · exact w3

theorem Chip.pagingDone_holds {x0 x1} (h : Chip.Holds j c) : Chip.Holds j (Chip.pagingDone x0 x1 c) := by
  unfold Chip.pagingDone
  split
  · exact h
  · refine Chip.holds_ite (fun p5 => ?_) (fun p5 => ?_)
    · exact h
    · split
      · rename_i z6 z7 z8 z9
        have w10 : Chip.Holds j z8 := Chip.holds_of_pair z9 (by
            refine Chip.slotRead_holds ?_
            exact h
          )
        refine Chip.pageEnd_holds ?_
        exact w10
      · rename_i z11 z12 z13
        have w14 : Chip.Holds j z12 := Chip.holds_of_pair z13 (by
            refine Chip.slotRead_holds ?_
            exact h
          )
        extract_lets v15 v16 v17 v18 v19
        have w20 : Chip.Holds j v16 := by
          unfold v16
          refine Chip.forAll_holds ?_ ?_
          · intro y21
            intro y22
            intro y23
            refine Chip.writeStop_holds ?_
            exact y23
          · exact w14
        clear_value v16
        have w24 : Chip.Holds j v17 := by
          unfold v17
          refine Chip.holds_ite (fun p25 => ?_) (fun p25 => ?_)
          · exact w20
          · refine Chip.forAll_holds ?_ ?_
            · intro y26
              intro y27
              intro y28
              refine Chip.readyStop_holds ?_
              exact y28
            · exact w20
        clear_value v17
        refine Chip.holds_ite (fun p29 => ?_) (fun p29 => ?_)
        · refine Chip.pageEnd_holds ?_
          exact w24
        · refine Chip.holds_ite (fun p30 => ?_) (fun p30 => ?_)
          · refine Chip.pageEnd_holds ?_
            exact w24
          · refine Chip.holds_mk rfl rfl rfl rfl rfl rfl rfl rfl rfl rfl rfl rfl ?_
            exact w24

theorem Chip.rewriteHold_holds {x0} (h : Chip.Holds j c) : Chip.Holds j (Chip.rewriteHold x0 c) := by
  unfold Chip.rewriteHold
  refine Chip.holds_ite (fun p0 => ?_) (fun p0 => ?_)
  · exact h
  · extract_lets v1 v2 v3 v4 v5 v6 v7
    have w8 : Chip.Holds j v4 := by
      unfold v4
      refine Chip.holds_mk rfl rfl rfl rfl rfl rfl rfl rfl rfl rfl rfl rfl ?_
      exact h
    clear_value v4
    have w9 : Chip.Holds j v5 := by
      unfold v5
      unfold v1
      extract_lets v10 v11
      have w12 : Chip.Holds j v10 := by
        unfold v10
        refine Chip.set_holds ?_
        refine Chip.holdRegion_holds ?_
        exact w8
      clear_value v10
      refine Chip.holds_mk rfl rfl rfl rfl rfl rfl rfl rfl rfl rfl rfl rfl ?_
      exact w12
    clear_value v5
    have w13 : Chip.Holds j v6 := by
      unfold v6
      unfold v1
      extract_lets v14 v15
      have w16 : Chip.Holds j v14 := by
        unfold v14
        refine Chip.set_holds ?_
        refine Chip.holdRegion_holds ?_
        exact h
      clear_value v14
      refine Chip.holds_mk rfl rfl rfl rfl rfl rfl rfl rfl rfl rfl rfl rfl ?_
      exact w16
    clear_value v6
    split
    · refine Chip.holds_ite (fun p23 => ?_) (fun p23 => ?_)
      · exact h
      · refine Chip.holds_ite (fun p24 => ?_) (fun p24 => ?_)
        · refine Chip.fail_holds ?_
          exact w8
        · refine Chip.pageAsk_holds ?_
          exact w9
    · split
      · refine Chip.holds_ite (fun p30 => ?_) (fun p30 => ?_)
        · refine Chip.holds_ite (fun p31 => ?_) (fun p31 => ?_)
          · refine Chip.pageSettle_holds ?_
            refine Chip.loadFail_holds ?_
            exact h
          · refine Chip.loadRun_holds ?_
            refine Chip.holds_mk rfl rfl rfl rfl rfl rfl rfl rfl rfl rfl rfl rfl ?_
            exact w13
        · exact h
      · exact h

theorem Chip.releaseFull_holds {x0} (h : Chip.Holds j c) : Chip.Holds j (Chip.releaseFull x0 c) := by
  unfold Chip.releaseFull
  extract_lets v0 v1 v2 v3 v4 v5 v6 v7 v8
  have w9 : Chip.Holds j v0 := by
    unfold v0
    refine Chip.forAll_holds ?_ ?_
    · intro y10
      intro y11
      intro y12
      refine Chip.holds_ite (fun p13 => ?_) (fun p13 => ?_)
      · refine Chip.spRegionOff_holds ?_
        refine Chip.regionOff_holds ?_
        exact y12
      · refine Chip.spRegionOn_holds ?_
        refine Chip.regionRun_holds ?_
        exact y12
    · exact h
  clear_value v0
  have w14 : Chip.Holds j v1 := by
    unfold v1
    refine Chip.forAll_holds ?_ ?_
    · intro y15
      intro y16
      intro y17
      split
      · refine Chip.ok_holds ?_
        exact y17
      · refine Chip.set_holds ?_
        exact y17
    · exact w9
  clear_value v1
  have w23 : Chip.Holds j v3 := by
    unfold v3
    refine Chip.holds_mk rfl rfl rfl rfl rfl rfl rfl rfl rfl rfl rfl rfl ?_
    exact w14
  clear_value v3
  have w24 : Chip.Holds j v4 := by
    unfold v4
    refine Chip.forAll_holds ?_ ?_
    · intro y25
      intro y26
      intro y27
      refine Chip.holds_ite (fun p28 => ?_) (fun p28 => ?_)
      · exact y27
      · refine Chip.set_holds ?_
        exact y27
    · exact w23
  clear_value v4
  have w29 : Chip.Holds j v7 := by
    unfold v7
    refine Chip.holds_mk rfl rfl rfl rfl rfl rfl rfl rfl rfl rfl rfl rfl ?_
    exact w24
  clear_value v7
  have w30 : Chip.Holds j v8 := by
    unfold v8
    refine Chip.set_holds ?_
    refine Chip.setState_holds ?_
    exact w29
  clear_value v8
  refine Chip.auxAll_holds ?_
  refine Chip.set_holds ?_
  exact w30

theorem Chip.measure_holds {x0} (h : Chip.Holds j c) : Chip.Holds j (Chip.measure x0 c) := by
  unfold Chip.measure
  extract_lets v0 v1 v2 v3
  refine Chip.holds_mk rfl rfl rfl rfl rfl rfl rfl rfl rfl rfl rfl rfl ?_
  exact h

theorem Chip.signatureDone_holds (h : Chip.Holds j c) : Chip.Holds j (Chip.signatureDone c) := by
  unfold Chip.signatureDone
  split
  · exact h
  · refine Chip.holds_ite (fun p5 => ?_) (fun p5 => ?_)
    · exact h
    · refine Chip.holds_ite (fun p6 => ?_) (fun p6 => ?_)
      · refine Chip.loadFail_holds ?_
        exact h
      · extract_lets v7 v8 v9 v10 v11 v12 v13 v14
        have w15 : Chip.Holds j v8 := by
          unfold v8
          refine Chip.forAll_holds ?_ ?_
          · intro y16
            intro y17
            intro y18
            split
            · refine Chip.holds_mk rfl rfl rfl rfl rfl rfl rfl rfl rfl rfl rfl rfl ?_
              exact y18
            · exact y18
          · exact h
        clear_value v8
        have w24 : Chip.Holds j v9 := by
          unfold v9
          refine Chip.forAll_holds ?_ ?_
          · intro y25
            intro y26
            intro y27
            refine Chip.readyStop_holds ?_
            exact y27
          · exact w15
        clear_value v9
        have w28 : Chip.Holds j v11 := by
          unfold v11
          refine Chip.measure_holds ?_
          refine Chip.holds_mk rfl rfl rfl rfl rfl rfl rfl rfl rfl rfl rfl rfl ?_
          exact w24
        clear_value v11
        have w29 : Chip.Holds j v12 := by
          unfold v12
          refine Chip.holds_ite (fun p30 => ?_) (fun p30 => ?_)
          · refine Chip.releaseFull_holds ?_
            exact w28
          · refine Chip.holds_ite (fun p31 => ?_) (fun p31 => ?_)
            · refine Chip.rewritten_holds ?_
              exact w28
            · exact w28
        clear_value v12
        have w32 : Chip.Holds j v13 := by
          unfold v13
          refine Chip.raise_holds ?_
          refine Chip.cfgPhase_holds ?_
          exact w29
        clear_value v13
        have w33 : Chip.Holds j v14 := by
          unfold v14
          refine Chip.raiseIf_holds ?_
          exact w32
        clear_value v14
        refine Chip.loadRun_holds ?_
        refine Chip.pageNext_holds ?_
        refine Chip.loadReply_holds ?_
        refine Chip.probeAll_holds ?_
        exact w33

theorem Chip.loadStall_holds (h : Chip.Holds j c) : Chip.Holds j (Chip.loadStall c) := by
  unfold Chip.loadStall
  split
  · refine Chip.holds_ite (fun p3 => ?_) (fun p3 => ?_)
    · refine Chip.pageSettle_holds ?_
      refine Chip.loadFail_holds ?_
      exact h
    · exact h
  · exact h

theorem Chip.flashLoad_holds (h : Chip.Holds j c) : Chip.Holds j (Chip.flashLoad c) := by
  unfold Chip.flashLoad
  extract_lets v0 v1
  have w2 : Chip.Holds j v0 := by
    unfold v0
    refine Chip.set_holds ?_
    refine Chip.enterConfiguring_holds ?_
    exact h
  clear_value v0
  refine Chip.xspiRead_holds ?_
  refine Chip.cfgPhase_holds ?_
  refine Chip.holds_mk rfl rfl rfl rfl rfl rfl rfl rfl rfl rfl rfl rfl ?_
  exact w2

theorem Chip.flashRead_holds {x0} (h : Chip.Holds j c) : Chip.Holds j (Chip.flashRead x0 c) := by
  unfold Chip.flashRead
  split
  · exact h
  · refine Chip.holds_ite (fun p5 => ?_) (fun p5 => ?_)
    · exact h
    · split
      · refine Chip.holds_ite (fun p8 => ?_) (fun p8 => ?_)
        · exact h
        · refine Chip.holds_ite (fun p9 => ?_) (fun p9 => ?_)
          · extract_lets v10 v11 v12
            have w13 : Chip.Holds j v11 := by
              unfold v11
              refine Chip.set_holds ?_
              exact h
            clear_value v11
            refine Chip.xspiRead_holds ?_
            refine Chip.holds_mk rfl rfl rfl rfl rfl rfl rfl rfl rfl rfl rfl rfl ?_
            exact w13
          · refine Chip.holds_ite (fun p14 => ?_) (fun p14 => ?_)
            · refine Chip.xspiRead_holds ?_
              refine Chip.holds_mk rfl rfl rfl rfl rfl rfl rfl rfl rfl rfl rfl rfl ?_
              exact h
            · refine Chip.loadFail_holds ?_
              refine Chip.holds_mk rfl rfl rfl rfl rfl rfl rfl rfl rfl rfl rfl rfl ?_
              exact h
      · refine Chip.holds_ite (fun p17 => ?_) (fun p17 => ?_)
        · exact h
        · refine Chip.loadFeed_holds ?_
          exact h

theorem Chip.tongueReq_holds {x0 x1 x2} (h : Chip.Holds j c) : Chip.Holds j (Chip.tongueReq x0 x1 x2 c).2 := by
  unfold Chip.tongueReq
  refine Chip.holds_ite_snd (fun p0 => ?_) (fun p0 => ?_)
  · refine Chip.holds_pair ?_
    exact h
  · refine Chip.holds_ite_snd (fun p1 => ?_) (fun p1 => ?_)
    · refine Chip.holds_pair ?_
      exact h
    · extract_lets v2 v3 v4 v5 v6 v7 v8 v9 v10 v11 v12
      refine Chip.holds_ite_snd (fun p13 => ?_) (fun p13 => ?_)
      · refine Chip.holds_pair ?_
        refine Chip.raise_holds ?_
        exact h
      · refine Chip.holds_ite_snd (fun p14 => ?_) (fun p14 => ?_)
        · refine Chip.holds_pair ?_
          refine Chip.raise_holds ?_
          exact h
        · refine Chip.holds_ite_snd (fun p15 => ?_) (fun p15 => ?_)
          · refine Chip.holds_pair ?_
            refine Chip.tongueDone_holds ?_
            exact h
          · refine Chip.holds_pair ?_
            refine Chip.pageAsk_holds ?_
            exact h

theorem Chip.libWrite_holds {x0 x1} (h : Chip.Holds j c) : Chip.Holds j (Chip.libWrite x0 x1 c).2 := by
  unfold Chip.libWrite
  refine Chip.holds_ite_snd (fun p0 => ?_) (fun p0 => ?_)
  · refine Chip.holds_pair ?_
    exact h
  · refine Chip.holds_ite_snd (fun p1 => ?_) (fun p1 => ?_)
    · refine Chip.holds_pair ?_
      exact h
    · refine Chip.holds_pair ?_
      refine Chip.set_holds ?_
      refine Chip.set_holds ?_
      exact h

theorem cmdCfgStatus_holds {x0 x1} (h : Chip.Holds j c) : Chip.Holds j (Cmd.run cmdCfgStatus x0 x1 c) := by
  dsimp -zeta only [cmdCfgStatus, Cmd.plain]
  dsimp only []
  refine Chip.ok_holds ?_
  exact h

theorem Chip.headerFail_holds {x0 x1 x2} (h : Chip.Holds j c) : Chip.Holds j (Chip.headerFail x0 x1 x2 c) := by
  unfold Chip.headerFail
  extract_lets v0
  have w1 : Chip.Holds j v0 := by
    unfold v0
    refine Chip.set_holds ?_
    refine Chip.set_holds ?_
    refine Chip.set_holds ?_
    exact h
  clear_value v0
  refine Chip.fail_holds ?_
  refine Chip.raise_holds ?_
  exact w1

theorem Chip.loadOpen_holds {x0 x1 x2 x3 x4 x5} (h : Chip.Holds j c) : Chip.Holds j (Chip.loadOpen x0 x1 x2 x3 x4 x5 c).2 := by
  unfold Chip.loadOpen
  split
  · extract_lets v3
    have w4 : Chip.Holds j v3 := by
      unfold v3
      refine Chip.set_holds ?_
      refine Chip.set_holds ?_
      refine Chip.set_holds ?_
      exact h
    clear_value v3
    refine Chip.holds_pair ?_
    refine Chip.raise_holds ?_
    exact w4
  · extract_lets v7 v8 v9 v10
    have w11 : Chip.Holds j v7 := by
      unfold v7
      refine Chip.holds_ite (fun p12 => ?_) (fun p12 => ?_)
      · refine Chip.set_holds ?_
        refine Chip.enterConfiguring_holds ?_
        exact h
      · exact h
    clear_value v7
    refine Chip.holds_pair ?_
    refine Chip.cfgPhase_holds ?_
    refine Chip.holds_mk rfl rfl rfl rfl rfl rfl rfl rfl rfl rfl rfl rfl ?_
    exact w11

theorem cmdCfgLoadBegin_holds {x0 x1} (h : Chip.Holds j c) : Chip.Holds j (Cmd.run cmdCfgLoadBegin x0 x1 c) := by
  dsimp -zeta only [cmdCfgLoadBegin, Cmd.plain]
  split
  · refine Chip.fail_holds ?_
    exact h
  · split
    · rename_i z5 z6 z7 z8
      have w9 : Chip.Holds j z7 := Chip.holds_of_pair z8 (by
          refine Chip.loadOpen_holds ?_
          exact h
        )
      refine Chip.fail_holds ?_
      exact w9
    · rename_i z10 z11 z12
      have w13 : Chip.Holds j z11 := Chip.holds_of_pair z12 (by
          refine Chip.loadOpen_holds ?_
          exact h
        )
      refine Chip.ok_holds ?_
      exact w13

theorem cmdCfgLoadData_holds {x0 x1} (h : Chip.Holds j c) : Chip.Holds j (Cmd.run cmdCfgLoadData x0 x1 c) := by
  dsimp -zeta only [cmdCfgLoadData, Cmd.plain]
  split
  · refine Chip.fail_holds ?_
    exact h
  · refine Chip.holds_ite (fun p5 => ?_) (fun p5 => ?_)
    · refine Chip.fail_holds ?_
      exact h
    · refine Chip.holds_ite (fun p6 => ?_) (fun p6 => ?_)
      · refine Chip.fail_holds ?_
        exact h
      · refine Chip.holds_ite (fun p7 => ?_) (fun p7 => ?_)
        · refine Chip.loadFeed_holds ?_
          exact h
        · refine Chip.holds_mk rfl rfl rfl rfl rfl rfl rfl rfl rfl rfl rfl rfl ?_
          exact h

theorem cmdCfgLoadEnd_holds {x0 x1} (h : Chip.Holds j c) : Chip.Holds j (Cmd.run cmdCfgLoadEnd x0 x1 c) := by
  dsimp -zeta only [cmdCfgLoadEnd, Cmd.plain]
  split
  · refine Chip.fail_holds ?_
    exact h
  · refine Chip.holds_ite (fun p5 => ?_) (fun p5 => ?_)
    · refine Chip.fail_holds ?_
      exact h
    · extract_lets v6 v7 v8
      have w9 : Chip.Holds j v6 := by
        unfold v6
        refine Chip.interim_holds ?_
        exact h
      clear_value v6
      refine Chip.holds_ite (fun p10 => ?_) (fun p10 => ?_)
      · refine Chip.pageSettle_holds ?_
        refine Chip.loadEndChecks_holds ?_
        refine Chip.holds_mk rfl rfl rfl rfl rfl rfl rfl rfl rfl rfl rfl rfl ?_
        exact w9
      · refine Chip.holds_mk rfl rfl rfl rfl rfl rfl rfl rfl rfl rfl rfl rfl ?_
        exact w9

theorem cmdCfgLoadDram_holds {x0 x1} (h : Chip.Holds j c) : Chip.Holds j (Cmd.run cmdCfgLoadDram x0 x1 c) := by
  dsimp -zeta only [cmdCfgLoadDram, Cmd.plain]
  extract_lets v0 v1
  split
  · refine Chip.fail_holds ?_
    exact h
  · refine Chip.holds_ite (fun p7 => ?_) (fun p7 => ?_)
    · refine Chip.fail_holds ?_
      exact h
    · refine Chip.holds_ite (fun p8 => ?_) (fun p8 => ?_)
      · refine Chip.fail_holds ?_
        refine Chip.rowReads_holds ?_
        exact h
      · refine Chip.holds_ite (fun p9 => ?_) (fun p9 => ?_)
        · refine Chip.headerFail_holds ?_
          refine Chip.rowReads_holds ?_
          exact h
        · split
          · rename_i z10 z11 z12 z13
            have w14 : Chip.Holds j z12 := Chip.holds_of_pair z13 (by
                refine Chip.loadOpen_holds ?_
                refine Chip.rowReads_holds ?_
                exact h
              )
            refine Chip.fail_holds ?_
            exact w14
          · rename_i z15 z16 z17
            have w18 : Chip.Holds j z16 := Chip.holds_of_pair z17 (by
                refine Chip.loadOpen_holds ?_
                refine Chip.rowReads_holds ?_
                exact h
              )
            refine Chip.loadFeed_holds ?_
            refine Chip.interim_holds ?_
            exact w18

theorem cmdCfgPage_holds {x0 x1} (h : Chip.Holds j c) : Chip.Holds j (Cmd.run cmdCfgPage x0 x1 c) := by
  dsimp -zeta only [cmdCfgPage, Cmd.plain]
  extract_lets v0 v1
  refine Chip.holds_ite (fun p2 => ?_) (fun p2 => ?_)
  · refine Chip.fail_holds ?_
    exact h
  · refine Chip.holds_ite (fun p3 => ?_) (fun p3 => ?_)
    · refine Chip.fail_holds ?_
      exact h
    · refine Chip.holds_ite (fun p4 => ?_) (fun p4 => ?_)
      · refine Chip.fail_holds ?_
        exact h
      · refine Chip.pageAsk_holds ?_
        refine Chip.interim_holds ?_
        exact h

theorem cmdCfgDraw_holds {x0 x1} (h : Chip.Holds j c) : Chip.Holds j (Cmd.run cmdCfgDraw x0 x1 c) := by
  dsimp -zeta only [cmdCfgDraw, Cmd.plain]
  extract_lets v0
  refine Chip.holds_ite (fun p1 => ?_) (fun p1 => ?_)
  · refine Chip.fail_holds ?_
    exact h
  · refine Chip.sendBcast_holds ?_
    exact h

theorem cmdCfgRewriteSlot_holds {x0 x1} (h : Chip.Holds j c) : Chip.Holds j (Cmd.run cmdCfgRewriteSlot x0 x1 c) := by
  dsimp -zeta only [cmdCfgRewriteSlot, Cmd.plain]
  extract_lets v0 v1 v2 v3
  have w4 : Chip.Holds j v2 := by
    unfold v2
    refine Chip.interim_holds ?_
    exact h
  clear_value v2
  split
  · refine Chip.fail_holds ?_
    exact h
  · refine Chip.holds_ite (fun p10 => ?_) (fun p10 => ?_)
    · refine Chip.fail_holds ?_
      exact h
    · refine Chip.holds_ite (fun p11 => ?_) (fun p11 => ?_)
      · refine Chip.fail_holds ?_
        exact h
      · refine Chip.holds_mk rfl rfl rfl rfl rfl rfl rfl rfl rfl rfl rfl rfl ?_
        exact w4

theorem cmdCfgLibStatus_holds {x0 x1} (h : Chip.Holds j c) : Chip.Holds j (Cmd.run cmdCfgLibStatus x0 x1 c) := by
  dsimp -zeta only [cmdCfgLibStatus, Cmd.plain]
  refine Chip.ok_holds ?_
  exact h

theorem cmdCfgLibFree_holds {x0 x1} (h : Chip.Holds j c) : Chip.Holds j (Cmd.run cmdCfgLibFree x0 x1 c) := by
  dsimp -zeta only [cmdCfgLibFree, Cmd.plain]
  extract_lets v0
  refine Chip.holds_ite (fun p1 => ?_) (fun p1 => ?_)
  · refine Chip.fail_holds ?_
    exact h
  · refine Chip.ok_holds ?_
    refine Chip.forAll_holds ?_ ?_
    · intro y2
      intro y3
      intro y4
      refine Chip.setSlotState_holds ?_
      exact y4
    · exact h

theorem cmdCfgXspi_holds {x0 x1} (h : Chip.Holds j c) : Chip.Holds j (Cmd.run cmdCfgXspi x0 x1 c) := by
  dsimp -zeta only [cmdCfgXspi, Cmd.plain]
  refine Chip.holds_ite (fun p0 => ?_) (fun p0 => ?_)
  · refine Chip.fail_holds ?_
    exact h
  · extract_lets v1 v2
    have w3 : Chip.Holds j v2 := by
      unfold v2
      refine Chip.emit_holds ?_
      exact h
    clear_value v2
    refine Chip.ok_holds ?_
    refine Chip.holds_mk rfl rfl rfl rfl rfl rfl rfl rfl rfl rfl rfl rfl ?_
    exact w3

end Sys2Proof.Machine
end

