-- ==== Sys2Proof/Laws/KeepSecurity.lean ====
section
/-! SUPPORT. Each operation of Machine/Security.lean keeps the device sound and leaves its test access port. -/

namespace Sys2Proof.Machine

variable {j : Jtag} {c : Chip}

theorem Chip.checkRequest_holds {x0 x1 x2} (h : Chip.Holds j c) : Chip.Holds j (Chip.checkRequest x0 x1 x2 c).2 := by
  unfold Chip.checkRequest
  split
  · refine Chip.holds_pair ?_
    exact h
  · extract_lets v5 v6 v7
    have w8 : Chip.Holds j v7 := by
      unfold v7
      refine Chip.holds_mk rfl rfl rfl rfl rfl rfl rfl rfl rfl rfl rfl rfl ?_
      exact h
    clear_value v7
    generalize v5 = u9
    split
    · refine Chip.holds_pair ?_
      refine Chip.raise_holds ?_
      exact w8
    · refine Chip.holds_pair ?_
      exact w8

theorem Chip.burn_holds {x0 x1 x2 x3} (h : Chip.Holds j c) : Chip.Holds j (Chip.burn x0 x1 x2 x3 c) := by
  unfold Chip.burn
  extract_lets v0 v1
  have w2 : Chip.Holds j v0 := by
    unfold v0
    refine Chip.setSlot_holds ?_
    refine Chip.interim_holds ?_
    exact h
  clear_value v0
  refine Chip.holds_mk rfl rfl rfl rfl rfl rfl rfl rfl rfl rfl rfl rfl ?_
  exact w2

theorem Chip.nvsZero_holds {x0 x1} (h : Chip.Holds j c) : Chip.Holds j (Chip.nvsZero x0 x1 c) := by
  unfold Chip.nvsZero
  extract_lets v0 v1
  refine Chip.holds_mk rfl rfl rfl rfl rfl rfl rfl rfl rfl rfl rfl rfl ?_
  exact h

theorem Chip.rmaZeroise_holds (h : Chip.Holds j c) : Chip.Holds j (Chip.rmaZeroise c) := by
  unfold Chip.rmaZeroise
  extract_lets v0 v1 v2 v3
  have w4 : Chip.Holds j v1 := by
    unfold v1
    refine Chip.set_holds ?_
    refine Chip.holds_mk rfl rfl rfl rfl rfl rfl rfl rfl rfl rfl rfl rfl ?_
    exact h
  clear_value v1
  have w5 : Chip.Holds j v2 := by
    unfold v2
    refine Chip.set_holds ?_
    exact w4
  clear_value v2
  have w6 : Chip.Holds j v3 := by
    unfold v3
    refine Chip.nvsZero_holds ?_
    refine Chip.nvsZero_holds ?_
    refine Chip.nvsZero_holds ?_
    exact w5
  clear_value v3
  refine Chip.set_holds ?_
  exact w6

theorem Chip.burnDone_holds {x0} (h : Chip.Holds j c) : Chip.Holds j (Chip.burnDone x0 c) := by
  unfold Chip.burnDone
  split
  · refine Chip.ok_holds ?_
    refine Chip.raise_holds ?_
    refine Chip.set_holds ?_
    exact h
  · extract_lets v4 v5 v6
    have w7 : Chip.Holds j v4 := by
      unfold v4
      refine Chip.set_holds ?_
      exact h
    clear_value v4
    have w8 : Chip.Holds j v6 := by
      unfold v6
      refine Chip.holds_mk rfl rfl rfl rfl rfl rfl rfl rfl rfl rfl rfl rfl ?_
      exact w7
    clear_value v6
    refine Chip.ok_holds ?_
    refine Chip.raise_holds ?_
    exact w8
  · refine Chip.ok_holds ?_
    refine Chip.raise_holds ?_
    refine Chip.set_holds ?_
    exact h
  · refine Chip.ok_holds ?_
    refine Chip.set_holds ?_
    exact h
  · refine Chip.ok_holds ?_
    refine Chip.raise_holds ?_
    refine Chip.rmaZeroise_holds ?_
    exact h
  · refine Chip.ok_holds ?_
    refine Chip.set_holds ?_
    refine Chip.holds_mk rfl rfl rfl rfl rfl rfl rfl rfl rfl rfl rfl rfl ?_
    exact h
  · exact h

theorem cmdSecStatus_holds {x0 x1} (h : Chip.Holds j c) : Chip.Holds j (Cmd.run cmdSecStatus x0 x1 c) := by
  dsimp -zeta only [cmdSecStatus, Cmd.plain]
  refine Chip.ok_holds ?_
  exact h

theorem cmdSecLcAdvance_holds {x0 x1} (h : Chip.Holds j c) : Chip.Holds j (Cmd.run cmdSecLcAdvance x0 x1 c) := by
  dsimp -zeta only [cmdSecLcAdvance, Cmd.plain]
  extract_lets v0
  refine Chip.holds_ite (fun p1 => ?_) (fun p1 => ?_)
  · refine Chip.fail_holds ?_
    exact h
  · refine Chip.holds_ite (fun p2 => ?_) (fun p2 => ?_)
    · refine Chip.fail_holds ?_
      exact h
    · refine Chip.burn_holds ?_
      exact h

theorem cmdSecNonce_holds {x0 x1} (h : Chip.Holds j c) : Chip.Holds j (Cmd.run cmdSecNonce x0 x1 c) := by
  dsimp -zeta only [cmdSecNonce, Cmd.plain]
  extract_lets v0 v1
  refine Chip.ok_holds ?_
  refine Chip.holds_mk rfl rfl rfl rfl rfl rfl rfl rfl rfl rfl rfl rfl ?_
  exact h

theorem cmdSecReqData_holds {x0 x1} (h : Chip.Holds j c) : Chip.Holds j (Cmd.run cmdSecReqData x0 x1 c) := by
  dsimp -zeta only [cmdSecReqData, Cmd.plain]
  extract_lets v0 v1 v2 v3
  refine Chip.ok_holds ?_
  refine Chip.holds_mk rfl rfl rfl rfl rfl rfl rfl rfl rfl rfl rfl rfl ?_
  exact h

theorem Chip.keyProg_holds {x0 x1 x2} (h : Chip.Holds j c) : Chip.Holds j (Chip.keyProg x0 x1 x2 c) := by
  unfold Chip.keyProg
  refine Chip.holds_ite (fun p0 => ?_) (fun p0 => ?_)
  · refine Chip.fail_holds ?_
    exact h
  · refine Chip.burn_holds ?_
    exact h

theorem cmdSecKeyProg_holds {x0 x1} (h : Chip.Holds j c) : Chip.Holds j (Cmd.run cmdSecKeyProg x0 x1 c) := by
  dsimp -zeta only [cmdSecKeyProg, Cmd.plain]
  refine Chip.holds_ite (fun p0 => ?_) (fun p0 => ?_)
  · split
    · rename_i z1 z2 z3 z4
      have w5 : Chip.Holds j z3 := Chip.holds_of_pair z4 (by
          refine Chip.checkRequest_holds ?_
          exact h
        )
      refine Chip.fail_holds ?_
      exact w5
    · rename_i z6 z7 z8
      have w9 : Chip.Holds j z7 := Chip.holds_of_pair z8 (by
          refine Chip.checkRequest_holds ?_
          exact h
        )
      refine Chip.keyProg_holds ?_
      exact w9
  · refine Chip.keyProg_holds ?_
    exact h

theorem cmdSecKeyRevoke_holds {x0 x1} (h : Chip.Holds j c) : Chip.Holds j (Cmd.run cmdSecKeyRevoke x0 x1 c) := by
  dsimp -zeta only [cmdSecKeyRevoke, Cmd.plain]
  split
  · rename_i z0 z1 z2 z3
    have w4 : Chip.Holds j z2 := Chip.holds_of_pair z3 (by
        refine Chip.checkRequest_holds ?_
        exact h
      )
    refine Chip.fail_holds ?_
    exact w4
  · rename_i z5 z6 z7
    have w8 : Chip.Holds j z6 := Chip.holds_of_pair z7 (by
        refine Chip.checkRequest_holds ?_
        exact h
      )
    extract_lets v9 v10
    refine Chip.holds_ite (fun p11 => ?_) (fun p11 => ?_)
    · refine Chip.fail_holds ?_
      exact w8
    · refine Chip.holds_ite (fun p12 => ?_) (fun p12 => ?_)
      · refine Chip.fail_holds ?_
        exact w8
      · refine Chip.holds_ite (fun p13 => ?_) (fun p13 => ?_)
        · refine Chip.fail_holds ?_
          refine Chip.raise_holds ?_
          exact w8
        · refine Chip.burn_holds ?_
          exact w8

theorem cmdSecSvnRaise_holds {x0 x1} (h : Chip.Holds j c) : Chip.Holds j (Cmd.run cmdSecSvnRaise x0 x1 c) := by
  dsimp -zeta only [cmdSecSvnRaise, Cmd.plain]
  split
  · rename_i z0 z1 z2 z3
    have w4 : Chip.Holds j z2 := Chip.holds_of_pair z3 (by
        refine Chip.checkRequest_holds ?_
        exact h
      )
    refine Chip.fail_holds ?_
    exact w4
  · rename_i z5 z6 z7
    have w8 : Chip.Holds j z6 := Chip.holds_of_pair z7 (by
        refine Chip.checkRequest_holds ?_
        exact h
      )
    refine Chip.holds_ite (fun p9 => ?_) (fun p9 => ?_)
    · refine Chip.fail_holds ?_
      exact w8
    · refine Chip.burn_holds ?_
      exact w8

theorem cmdSecRma_holds {x0 x1} (h : Chip.Holds j c) : Chip.Holds j (Cmd.run cmdSecRma x0 x1 c) := by
  dsimp -zeta only [cmdSecRma, Cmd.plain]
  split
  · rename_i z0 z1 z2 z3
    have w4 : Chip.Holds j z2 := Chip.holds_of_pair z3 (by
        refine Chip.checkRequest_holds ?_
        exact h
      )
    refine Chip.fail_holds ?_
    exact w4
  · rename_i z5 z6 z7
    have w8 : Chip.Holds j z6 := Chip.holds_of_pair z7 (by
        refine Chip.checkRequest_holds ?_
        exact h
      )
    refine Chip.burn_holds ?_
    refine Chip.holds_mk rfl rfl rfl rfl rfl rfl rfl rfl rfl rfl rfl rfl ?_
    exact w8

theorem cmdSecRootkeyProg_holds {x0 x1} (h : Chip.Holds j c) : Chip.Holds j (Cmd.run cmdSecRootkeyProg x0 x1 c) := by
  dsimp -zeta only [cmdSecRootkeyProg, Cmd.plain]
  refine Chip.holds_ite (fun p0 => ?_) (fun p0 => ?_)
  · refine Chip.fail_holds ?_
    exact h
  · refine Chip.burn_holds ?_
    exact h

theorem cmdSecAttest_holds {x0 x1} (h : Chip.Holds j c) : Chip.Holds j (Cmd.run cmdSecAttest x0 x1 c) := by
  dsimp -zeta only [cmdSecAttest, Cmd.plain]
  refine Chip.interim_holds ?_
  exact h

theorem cmdSecBlobRead_holds {x0 x1} (h : Chip.Holds j c) : Chip.Holds j (Cmd.run cmdSecBlobRead x0 x1 c) := by
  dsimp -zeta only [cmdSecBlobRead, Cmd.plain]
  refine Chip.ok_holds ?_
  exact h

theorem Chip.attestSigned_holds (h : Chip.Holds j c) : Chip.Holds j (Chip.attestSigned c) := by
  unfold Chip.attestSigned
  split
  · exact h
  · extract_lets v5 v6
    refine Chip.ok_holds ?_
    refine Chip.holds_mk rfl rfl rfl rfl rfl rfl rfl rfl rfl rfl rfl rfl ?_
    exact h

end Sys2Proof.Machine
end

