-- ==== Sys2Proof/Laws/KeepDram.lean ====
section
/-! SUPPORT. Each operation of Machine/Dram.lean keeps the device sound and leaves its test access port. -/

namespace Sys2Proof.Machine

variable {j : Jtag} {c : Chip}

theorem Chip.drActivate_holds {x0 x1} (h : Chip.Holds j c) : Chip.Holds j (Chip.drActivate x0 x1 c) := by
  unfold Chip.drActivate
  refine Chip.drCmd_holds ?_
  exact h

theorem Chip.drTransfer_holds {x0 x1 x2} (h : Chip.Holds j c) : Chip.Holds j (Chip.drTransfer x0 x1 x2 c) := by
  unfold Chip.drTransfer
  refine Chip.drCmd_holds ?_
  exact h

theorem Chip.drPrecharge_holds {x0 x1} (h : Chip.Holds j c) : Chip.Holds j (Chip.drPrecharge x0 x1 c) := by
  unfold Chip.drPrecharge
  refine Chip.drCmd_holds ?_
  exact h

theorem Chip.drTake_holds {x0 x1} (h : Chip.Holds j c) : Chip.HoldsO j (Chip.drTake x0 x1 c) := by
  unfold Chip.drTake
  extract_lets v0 v1 v2
  refine Chip.holdsO_ite (fun p3 => ?_) (fun p3 => ?_)
  · unfold v1
    refine Chip.holdsO_some ?_
    refine Chip.respond_holds ?_
    refine Chip.unflight_holds ?_
    exact h
  · split
    · unfold v1
      refine Chip.holdsO_some ?_
      refine Chip.respond_holds ?_
      refine Chip.unflight_holds ?_
      exact h
    · refine Chip.holdsO_ite (fun p9 => ?_) (fun p9 => ?_)
      · refine Chip.holdsO_ite (fun p10 => ?_) (fun p10 => ?_)
        · exact Chip.holdsO_none
        · refine Chip.holdsO_some ?_
          refine Chip.drWakeRank_holds ?_
          refine Chip.drAsk_holds ?_
          refine Chip.unflight_holds ?_
          exact h
      · refine Chip.holdsO_ite (fun p11 => ?_) (fun p11 => ?_)
        · exact Chip.holdsO_none
        · refine Chip.holdsO_some ?_
          refine Chip.drWakeRank_holds ?_
          refine Chip.respond_holds ?_
          refine Chip.drPush_holds ?_
          refine Chip.unflight_holds ?_
          exact h

theorem Chip.drAccept_holds {x0} (h : Chip.Holds j c) : Chip.Holds j (Chip.drAccept x0 c) := by
  unfold Chip.drAccept
  split
  · split
    · refine Chip.holds_ite (fun p6 => ?_) (fun p6 => ?_)
      · refine Chip.holds_getD ?_ ?_
        · refine Chip.drTake_holds ?_
          exact h
        · exact h
      · exact h
    · exact h
  · extract_lets v12
    refine Chip.holds_ite (fun p13 => ?_) (fun p13 => ?_)
    · exact h
    · refine Chip.drWakeRank_holds ?_
      refine Chip.drAsk_holds ?_
      exact h
  · refine Chip.bmQueue_holds ?_
    exact h

theorem Chip.drCorrect_holds {x0 x1} (h : Chip.Holds j c) : Chip.Holds j (Chip.drCorrect x0 x1 c) := by
  unfold Chip.drCorrect
  refine Chip.holds_ite (fun p0 => ?_) (fun p0 => ?_)
  · exact h
  · refine Chip.tqPush_holds ?_
    refine Chip.flagEvent_holds ?_
    refine Chip.addSat_holds ?_
    exact h

theorem Chip.drSelfEntry_holds (h : Chip.Holds j c) : Chip.Holds j (Chip.drSelfEntry c) := by
  unfold Chip.drSelfEntry
  split
  · refine Chip.holds_ite (fun p4 => ?_) (fun p4 => ?_)
    · refine Chip.drCmd_holds ?_
      refine Chip.set_holds ?_
      exact h
    · exact h
  · exact h

theorem Chip.drServe_holds {x0 x1} (h : Chip.Holds j c) : Chip.Holds j (Chip.drServe x0 x1 c) := by
  unfold Chip.drServe
  split
  · extract_lets v2 v3 v4
    have w5 : Chip.Holds j v2 := by
      unfold v2
      refine Chip.drTransfer_holds ?_
      exact h
    clear_value v2
    have w6 : Chip.Holds j v4 := by
      unfold v4
      refine Chip.drLevels_holds ?_
      refine Chip.holds_mk rfl rfl rfl rfl rfl rfl rfl rfl rfl rfl rfl rfl ?_
      exact w5
    clear_value v4
    split
    · extract_lets v10
      have w11 : Chip.Holds j v10 := by
        unfold v10
        refine Chip.drFreeze_holds ?_
        refine Chip.holds_mk rfl rfl rfl rfl rfl rfl rfl rfl rfl rfl rfl rfl ?_
        exact w5
      clear_value v10
      refine Chip.holds_ite (fun p12 => ?_) (fun p12 => ?_)
      · refine Chip.bmFail_holds ?_
        exact w11
      · exact w11
    · refine Chip.holds_ite (fun p15 => ?_) (fun p15 => ?_)
      · refine Chip.bmPerformed_holds ?_
        exact w6
      · exact w6
  · extract_lets v18 v19 v20 v21
    have w22 : Chip.Holds j v18 := by
      unfold v18
      refine Chip.drTransfer_holds ?_
      exact h
    clear_value v18
    have w23 : Chip.Holds j v20 := by
      unfold v20
      refine Chip.drLevels_holds ?_
      refine Chip.holds_mk rfl rfl rfl rfl rfl rfl rfl rfl rfl rfl rfl rfl ?_
      exact w22
    clear_value v20
    split
    · refine Chip.drFreeze_holds ?_
      unfold v21
      split
      · refine Chip.respond_holds ?_
        exact w23
      · exact w23
    · unfold v21
      split
      · refine Chip.respond_holds ?_
        exact w23
      · exact w23

theorem Chip.drServeAll_holds {x0 x1} (h : Chip.Holds j c) : Chip.Holds j (Chip.drServeAll x0 x1 c).2 := by
  induction x1 generalizing c x0
  · unfold Chip.drServeAll
    refine Chip.holds_pair ?_
    exact h
  · rename_i hd' tl' ih
    unfold Chip.drServeAll
    refine Chip.holds_ite_snd (fun p18 => ?_) (fun p18 => ?_)
    · refine Chip.holds_pair ?_
      exact h
    · extract_lets v19
      have w20 : Chip.Holds j v19.2 := by
        unfold v19
        refine ih ?_
        refine Chip.drServe_holds ?_
        exact h
      clear_value v19
      refine Chip.holds_pair ?_
      exact w20

theorem Chip.drRowServe_holds {x0 x1 x2 x3} (h : Chip.Holds j c) : Chip.Holds j (Chip.drRowServe x0 x1 x2 x3 c) := by
  unfold Chip.drRowServe
  extract_lets v0 v1 v2 v3 v4 v5 v6
  have w7 : Chip.Holds j v3 := by
    unfold v3
    refine Chip.holds_mk rfl rfl rfl rfl rfl rfl rfl rfl rfl rfl rfl rfl ?_
    exact h
  clear_value v3
  have w8 : Chip.Holds j v4 := by
    unfold v4
    refine Chip.drActivate_holds ?_
    exact w7
  clear_value v4
  have w9 : Chip.Holds j v5.2 := by
    unfold v5
    refine Chip.drServeAll_holds ?_
    exact w8
  clear_value v5
  refine Chip.holds_ite (fun p10 => ?_) (fun p10 => ?_)
  · refine Chip.drFreeze_holds ?_
    exact w8
  · refine Chip.holds_ite (fun p11 => ?_) (fun p11 => ?_)
    · refine Chip.drFreeze_holds ?_
      refine Chip.drTransfer_holds ?_
      exact w8
    · refine Chip.drParity_holds ?_
      refine Chip.drPrecharge_holds ?_
      refine Chip.drCorrect_holds ?_
      exact w9

theorem Chip.drRowNext_holds {x0 x1 x2} (h : Chip.Holds j c) : Chip.Holds j (Chip.drRowNext x0 x1 x2 c) := by
  unfold Chip.drRowNext
  split
  · exact h
  · refine Chip.drSelfEntry_holds ?_
    refine Chip.drRowServe_holds ?_
    exact h

theorem Chip.drDue_holds (h : Chip.Holds j c) : Chip.Holds j (Chip.drDue c) := by
  unfold Chip.drDue
  refine Chip.set_holds ?_
  exact h

theorem Chip.drRefreshed_holds {x0} (h : Chip.Holds j c) : Chip.Holds j (Chip.drRefreshed x0 c) := by
  unfold Chip.drRefreshed
  refine Chip.holds_ite (fun p0 => ?_) (fun p0 => ?_)
  · exact h
  · extract_lets v1
    have w2 : Chip.Holds j v1 := by
      unfold v1
      refine Chip.drCmd_holds ?_
      refine Chip.set_holds ?_
      refine Chip.set_holds ?_
      exact h
    clear_value v1
    refine Chip.drParity_holds ?_
    refine Chip.holds_ite (fun p3 => ?_) (fun p3 => ?_)
    · refine Chip.set_holds ?_
      exact w2
    · exact w2

theorem Chip.drHotEntry_holds {x0} (h : Chip.Holds j c) : Chip.Holds j (Chip.drHotEntry x0 c) := by
  unfold Chip.drHotEntry
  refine Chip.holds_ite (fun p0 => ?_) (fun p0 => ?_)
  · exact h
  · extract_lets v1 v2
    have w3 : Chip.Holds j v2 := by
      unfold v2
      refine Chip.raise_holds ?_
      refine Chip.set_holds ?_
      exact h
    clear_value v2
    refine Chip.holds_ite (fun p4 => ?_) (fun p4 => ?_)
    · exact w3
    · refine Chip.inc_holds ?_
      refine Chip.set_holds ?_
      exact w3

theorem Chip.drNormal_holds (h : Chip.Holds j c) : Chip.Holds j (Chip.drNormal c) := by
  unfold Chip.drNormal
  refine Chip.holds_ite (fun p0 => ?_) (fun p0 => ?_)
  · refine Chip.raise_holds ?_
    refine Chip.set_holds ?_
    exact h
  · exact h

theorem Chip.drPowerDown_holds {x0 x1} (h : Chip.Holds j c) : Chip.Holds j (Chip.drPowerDown x0 x1 c) := by
  unfold Chip.drPowerDown
  extract_lets v0
  refine Chip.holds_ite (fun p1 => ?_) (fun p1 => ?_)
  · exact h
  · refine Chip.drParity_holds ?_
    refine Chip.drCmd_holds ?_
    refine Chip.set_holds ?_
    exact h

theorem Chip.drTrain_holds {x0 x1} (h : Chip.Holds j c) : Chip.Holds j (Chip.drTrain x0 x1 c) := by
  unfold Chip.drTrain
  extract_lets v0 v1
  have w2 : Chip.Holds j v0 := by
    unfold v0
    refine Chip.set_holds ?_
    exact h
  clear_value v0
  refine Chip.holds_mk rfl rfl rfl rfl rfl rfl rfl rfl rfl rfl rfl rfl ?_
  exact w2

theorem Chip.drMoved_holds {x0} (h : Chip.Holds j c) : Chip.Holds j (Chip.drMoved x0 c) := by
  unfold Chip.drMoved
  refine Chip.holds_ite (fun p0 => ?_) (fun p0 => ?_)
  · refine Chip.holds_ite (fun p1 => ?_) (fun p1 => ?_)
    · refine Chip.drTrain_holds ?_
      exact h
    · exact h
  · refine Chip.holds_ite (fun p2 => ?_) (fun p2 => ?_)
    · exact h
    · refine Chip.raise_holds ?_
      refine Chip.set_holds ?_
      exact h

theorem Chip.drTrained_holds {x0 x1} (h : Chip.Holds j c) : Chip.Holds j (Chip.drTrained x0 x1 c) := by
  unfold Chip.drTrained
  split
  · exact h
  · refine Chip.holds_ite (fun p6 => ?_) (fun p6 => ?_)
    · exact h
    · refine Chip.holds_ite (fun p7 => ?_) (fun p7 => ?_)
      · refine Chip.drFreeze_holds ?_
        exact h
      · extract_lets v8 v9 v10 v11 v12 v13 v14
        have w15 : Chip.Holds j v9 := by
          unfold v9
          refine Chip.holds_mk rfl rfl rfl rfl rfl rfl rfl rfl rfl rfl rfl rfl ?_
          exact h
        clear_value v9
        have w16 : Chip.Holds j v10 := by
          unfold v10
          refine Chip.inc_holds ?_
          exact w15
        clear_value v10
        have w17 : Chip.Holds j v12 := by
          unfold v12
          refine Chip.set_holds ?_
          refine Chip.holds_mk rfl rfl rfl rfl rfl rfl rfl rfl rfl rfl rfl rfl ?_
          exact w16
        clear_value v12
        have w18 : Chip.Holds j v13 := by
          unfold v13
          refine Chip.set_holds ?_
          exact w17
        clear_value v13
        split
        · refine Chip.endAll_holds ?_
          refine Chip.drSelfEntry_holds ?_
          refine Chip.holds_mk rfl rfl rfl rfl rfl rfl rfl rfl rfl rfl rfl rfl ?_
          exact w18
        · refine Chip.endAll_holds ?_
          refine Chip.raise_holds ?_
          refine Chip.set_holds ?_
          refine Chip.holds_mk rfl rfl rfl rfl rfl rfl rfl rfl rfl rfl rfl rfl ?_
          exact w18
        · refine Chip.endAll_holds ?_
          refine Chip.raise_holds ?_
          exact w18

theorem Chip.drRelocked_holds {x0} (h : Chip.Holds j c) : Chip.Holds j (Chip.drRelocked x0 c) := by
  unfold Chip.drRelocked
  split
  · refine Chip.holds_ite (fun p4 => ?_) (fun p4 => ?_)
    · refine Chip.drParity_holds ?_
      refine Chip.drTrain_holds ?_
      refine Chip.drCmd_holds ?_
      refine Chip.set_holds ?_
      exact h
    · exact h
  · exact h

theorem Chip.drRow_holds {x0 x1 x2} (h : Chip.Holds j c) : Chip.Holds j (Chip.drRow x0 x1 x2 c) := by
  unfold Chip.drRow
  split
  · exact Chip.drRefreshed_holds h
  · exact Chip.drPowerDown_holds h
  · exact Chip.drRelocked_holds h
  · exact Chip.drRowNext_holds h

theorem Chip.granZero_holds {x0} (h : Chip.Holds j c) : Chip.Holds j (Chip.granZero x0 c) := by
  unfold Chip.granZero
  extract_lets v0 v1 v2
  have w3 : Chip.Holds j v1 := by
    unfold v1
    refine Chip.forAll_holds ?_ ?_
    · intro y4
      intro y5
      intro y6
      extract_lets v7 v8
      refine Chip.holds_mk_mem rfl rfl rfl rfl rfl rfl rfl rfl rfl rfl rfl ?_ (fun hm => ?_)
      · exact y6
      · repeat first | with_reducible exact hm | with_reducible refine wf_memWrite _ _ ?_ | with_reducible refine wf_memZero _ _ ?_ | with_reducible refine wf_memWriteMask _ _ ?_ | with_reducible refine wf_filter _ ?_ | with_reducible refine wf_memPut _ _ ?_ | with_reducible refine wf_foldl _ (fun m a hm => ?_) ?_ | split | exact hm
    · exact h
  clear_value v1
  refine Chip.holds_mk rfl rfl rfl rfl rfl rfl rfl rfl rfl rfl rfl rfl ?_
  exact w3

theorem Chip.drHeld_holds {x0} (h : Chip.Holds j c) : Chip.Holds j (Chip.drHeld x0 c) := by
  unfold Chip.drHeld
  refine Chip.forAll_holds ?_ ?_
  · intro y0
    intro y1
    intro y2
    refine Chip.holds_ite (fun p3 => ?_) (fun p3 => ?_)
    · exact y2
    · extract_lets v4
      refine Chip.drRowServe_holds ?_
      exact y2
  · exact h

theorem Chip.thawDone_holds (h : Chip.Holds j c) : Chip.Holds j (Chip.thawDone c) := by
  unfold Chip.thawDone
  split
  · exact h
  · extract_lets v8 v9 v10 v11 v12 v13
    have w14 : Chip.Holds j v9 := by
      unfold v9
      refine Chip.drHeld_holds ?_
      exact h
    clear_value v9
    have w15 : Chip.Holds j v10 := by
      unfold v10
      refine Chip.forAll_holds ?_ ?_
      · intro y16
        intro y17
        intro y18
        split
        · refine Chip.respond_holds ?_
          exact y18
        · exact y18
      · exact w14
    clear_value v10
    have w24 : Chip.Holds j v12 := by
      unfold v12
      refine Chip.holds_ite (fun p25 => ?_) (fun p25 => ?_)
      · exact w14
      · refine Chip.drLevels_holds ?_
        refine Chip.holds_mk rfl rfl rfl rfl rfl rfl rfl rfl rfl rfl rfl rfl ?_
        exact w15
    clear_value v12
    refine Chip.holds_ite (fun p26 => ?_) (fun p26 => ?_)
    · exact w14
    · refine Chip.ok_holds ?_
      refine Chip.holds_mk rfl rfl rfl rfl rfl rfl rfl rfl rfl rfl rfl rfl ?_
      exact w24

theorem Chip.drDiscard_holds (h : Chip.Holds j c) : Chip.Holds j (Chip.drDiscard c) := by
  unfold Chip.drDiscard
  extract_lets v0 v1
  refine Chip.holds_mk_mem rfl rfl rfl rfl rfl rfl rfl rfl rfl rfl rfl ?_ (fun hm => ?_)
  · exact h
  · unfold v0
    repeat first | with_reducible exact hm | with_reducible refine wf_memWrite _ _ ?_ | with_reducible refine wf_memZero _ _ ?_ | with_reducible refine wf_memWriteMask _ _ ?_ | with_reducible refine wf_filter _ ?_ | with_reducible refine wf_memPut _ _ ?_ | with_reducible refine wf_foldl _ (fun m a hm => ?_) ?_ | split | exact hm

theorem Chip.drQueueReset_holds (h : Chip.Holds j c) : Chip.Holds j (Chip.drQueueReset c) := by
  unfold Chip.drQueueReset
  extract_lets v0 v1 v2 v3
  have w4 : Chip.Holds j v2 := by
    unfold v2
    refine Chip.holds_ite (fun p5 => ?_) (fun p5 => ?_)
    · refine Chip.drDiscard_holds ?_
      exact h
    · refine Chip.holds_mk rfl rfl rfl rfl rfl rfl rfl rfl rfl rfl rfl rfl ?_
      exact h
  clear_value v2
  refine Chip.forAll_holds ?_ ?_
  · intro y6
    intro y7
    intro y8
    refine Chip.bmPerformed_holds ?_
    exact y8
  · refine Chip.drLevels_holds ?_
    refine Chip.holds_mk rfl rfl rfl rfl rfl rfl rfl rfl rfl rfl rfl rfl ?_
    exact w4

theorem Chip.drZero_holds (h : Chip.Holds j c) : Chip.Holds j (Chip.drZero c) := by
  unfold Chip.drZero
  refine Chip.holds_mk_mem rfl rfl rfl rfl rfl rfl rfl rfl rfl rfl rfl ?_ (fun hm => ?_)
  · exact h
  · repeat first | with_reducible exact hm | with_reducible refine wf_memWrite _ _ ?_ | with_reducible refine wf_memZero _ _ ?_ | with_reducible refine wf_memWriteMask _ _ ?_ | with_reducible refine wf_filter _ ?_ | with_reducible refine wf_memPut _ _ ?_ | with_reducible refine wf_foldl _ (fun m a hm => ?_) ?_ | split | exact hm

theorem Chip.drCntClr_holds {x0} (h : Chip.Holds j c) : Chip.Holds j (Chip.drCntClr x0 c) := by
  unfold Chip.drCntClr
  extract_lets v0
  have w1 : Chip.Holds j v0 := by
    unfold v0
    refine Chip.holds_ite (fun p2 => ?_) (fun p2 => ?_)
    · refine Chip.clear_holds ?_
      exact h
    · exact h
  clear_value v0
  refine Chip.holds_ite (fun p3 => ?_) (fun p3 => ?_)
  · refine Chip.clear_holds ?_
    exact w1
  · exact w1

theorem cmdDrStatus_holds {x0 x1} (h : Chip.Holds j c) : Chip.Holds j (Cmd.run cmdDrStatus x0 x1 c) := by
  dsimp -zeta only [cmdDrStatus, Cmd.plain]
  refine Chip.ok_holds ?_
  exact h

theorem cmdDrFreq_holds {x0 x1} (h : Chip.Holds j c) : Chip.Holds j (Cmd.run cmdDrFreq x0 x1 c) := by
  dsimp -zeta only [cmdDrFreq, Cmd.plain]
  extract_lets v0 v1 v2 v3 v4
  have w5 : Chip.Holds j v2 := by
    unfold v2
    refine Chip.holds_ite (fun p6 => ?_) (fun p6 => ?_)
    · refine Chip.interim_holds ?_
      exact h
    · refine Chip.interim_holds ?_
      exact h
  clear_value v2
  have w7 : Chip.Holds j v3 := by
    unfold v3
    refine Chip.set_holds ?_
    exact w5
  clear_value v3
  refine Chip.holds_ite (fun p8 => ?_) (fun p8 => ?_)
  · refine Chip.fail_holds ?_
    exact h
  · refine Chip.holds_ite (fun p9 => ?_) (fun p9 => ?_)
    · refine Chip.fail_holds ?_
      exact h
    · refine Chip.holds_ite (fun p10 => ?_) (fun p10 => ?_)
      · refine Chip.ok_holds ?_
        exact h
      · refine Chip.drSelfEntry_holds ?_
        refine Chip.holds_mk rfl rfl rfl rfl rfl rfl rfl rfl rfl rfl rfl rfl ?_
        exact w7

theorem cmdDrTrain_holds {x0 x1} (h : Chip.Holds j c) : Chip.Holds j (Cmd.run cmdDrTrain x0 x1 c) := by
  dsimp -zeta only [cmdDrTrain, Cmd.plain]
  refine Chip.holds_ite (fun p0 => ?_) (fun p0 => ?_)
  · refine Chip.fail_holds ?_
    exact h
  · refine Chip.holds_ite (fun p1 => ?_) (fun p1 => ?_)
    · refine Chip.fail_holds ?_
      exact h
    · refine Chip.holds_ite (fun p2 => ?_) (fun p2 => ?_)
      · refine Chip.fail_holds ?_
        exact h
      · refine Chip.drTrain_holds ?_
        refine Chip.interim_holds ?_
        exact h

theorem cmdDrSnapshot_holds {x0 x1} (h : Chip.Holds j c) : Chip.Holds j (Cmd.run cmdDrSnapshot x0 x1 c) := by
  dsimp -zeta only [cmdDrSnapshot, Cmd.plain]
  refine Chip.ok_holds ?_
  exact h

theorem cmdDrThaw_holds {x0 x1} (h : Chip.Holds j c) : Chip.Holds j (Cmd.run cmdDrThaw x0 x1 c) := by
  dsimp -zeta only [cmdDrThaw, Cmd.plain]
  refine Chip.holds_ite (fun p0 => ?_) (fun p0 => ?_)
  · refine Chip.fail_holds ?_
    exact h
  · extract_lets v1 v2 v3 v4 v5 v6 v7 v8 v9
    have w10 : Chip.Holds j v1 := by
      unfold v1
      refine Chip.setSlot_holds ?_
      refine Chip.interim_holds ?_
      exact h
    clear_value v1
    have w11 : Chip.Holds j v5 := by
      unfold v5
      refine Chip.set_holds ?_
      refine Chip.forAll_holds ?_ ?_
      · intro y12
        intro y13
        intro y14
        refine Chip.granZero_holds ?_
        exact y14
      · exact w10
    clear_value v5
    have w15 : Chip.Holds j v6 := by
      unfold v6
      refine Chip.set_holds ?_
      refine Chip.set_holds ?_
      exact w11
    clear_value v6
    have w16 : Chip.Holds j v7 := by
      unfold v7
      refine Chip.raise_holds ?_
      exact w15
    clear_value v7
    have w17 : Chip.Holds j v9 := by
      unfold v9
      refine Chip.holds_mk rfl rfl rfl rfl rfl rfl rfl rfl rfl rfl rfl rfl ?_
      exact w16
    clear_value v9
    refine Chip.holds_ite (fun p18 => ?_) (fun p18 => ?_)
    · refine Chip.tqPush_holds ?_
      exact w17
    · exact w17

end Sys2Proof.Machine
end

