-- ==== Sys2Proof/Laws/KeepRae.lean ====
section
/-! SUPPORT. Each operation of Machine/Rae.lean keeps the device sound and leaves its test access port. -/

namespace Sys2Proof.Machine

variable {j : Jtag} {c : Chip}

theorem Chip.zeroPart_holds (h : Chip.Holds j c) : Chip.Holds j (Chip.zeroPart c) := by
  unfold Chip.zeroPart
  extract_lets b
  exact Chip.holds_mk_mem (c := c) rfl rfl rfl rfl rfl rfl rfl rfl rfl rfl rfl h (wf_memZero _ _)

theorem Chip.raeReply_holds {x0 x1 x2} (h : Chip.Holds j c) : Chip.Holds j (Chip.raeReply x0 x1 x2 c) := by
  unfold Chip.raeReply
  split
  · exact h
  · refine Chip.finish_holds ?_
    refine Chip.holds_mk rfl rfl rfl rfl rfl rfl rfl rfl rfl rfl rfl rfl ?_
    exact h

theorem Chip.raeFault_holds {x0 x1} (h : Chip.Holds j c) : Chip.Holds j (Chip.raeFault x0 x1 c) := by
  unfold Chip.raeFault
  refine Chip.holds_ite (fun p0 => ?_) (fun p0 => ?_)
  · exact h
  · extract_lets v1 v2 v3 v4 v5 v6
    have w7 : Chip.Holds j v2 := by
      unfold v2
      refine Chip.set_holds ?_
      refine Chip.set_holds ?_
      exact h
    clear_value v2
    have w8 : Chip.Holds j v3 := by
      unfold v3
      refine Chip.holds_mk rfl rfl rfl rfl rfl rfl rfl rfl rfl rfl rfl rfl ?_
      exact w7
    clear_value v3
    have w9 : Chip.Holds j v4 := by
      unfold v4
      refine Chip.raise_holds ?_
      exact w8
    clear_value v4
    have w10 : Chip.Holds j v5 := by
      unfold v5
      refine Chip.zeroPart_holds ?_
      exact w9
    clear_value v5
    split
    · refine Chip.fail_holds ?_
      refine Chip.holds_mk rfl rfl rfl rfl rfl rfl rfl rfl rfl rfl rfl rfl ?_
      exact w10
    · refine Chip.raeReply_holds ?_
      exact w9

theorem Chip.raeAnswer_holds {x0} (h : Chip.Holds j c) : Chip.Holds j (Chip.raeAnswer x0 c) := by
  unfold Chip.raeAnswer
  refine Chip.holds_ite (fun p0 => ?_) (fun p0 => ?_)
  · exact h
  · refine Chip.raeFault_holds ?_
    exact h

theorem Chip.raeMemory_holds {x0 x1} (h : Chip.Holds j c) : Chip.Holds j (Chip.raeMemory x0 x1 c) := by
  unfold Chip.raeMemory
  refine Chip.holds_ite (fun p0 => ?_) (fun p0 => ?_)
  · refine Chip.raeFault_holds ?_
    exact h
  · refine Chip.holds_ite (fun p1 => ?_) (fun p1 => ?_)
    · exact h
    · refine Chip.raeFault_holds ?_
      exact h

theorem Chip.raeRead_holds {x0 x1} (h : Chip.Holds j c) : Chip.Holds j (Chip.raeRead x0 x1 c).2 := by
  unfold Chip.raeRead
  split
  · refine Chip.holds_pair ?_
    refine Chip.raeAnswer_holds ?_
    exact h
  · refine Chip.holds_pair ?_
    refine Chip.raeAnswer_holds ?_
    refine Chip.rowReads_holds ?_
    exact h

theorem Chip.raeStore_holds {x0 x1} (h : Chip.Holds j c) : Chip.Holds j (Chip.raeStore x0 x1 c).2 := by
  unfold Chip.raeStore
  split
  · refine Chip.holds_pair ?_
    refine Chip.raeAnswer_holds ?_
    exact h
  · extract_lets v5 v6
    have w7 : Chip.Holds j v5.2 := by
      unfold v5
      refine Chip.rowWrites_holds ?_
      exact h
    clear_value v5
    refine Chip.holds_pair ?_
    refine Chip.raeAnswer_holds ?_
    exact w7

theorem Chip.ctxCache_holds {x0 x1 x2} (h : Chip.Holds j c) : Chip.Holds j (Chip.ctxCache x0 x1 x2 c).2 := by
  unfold Chip.ctxCache
  extract_lets v0 v1 v2
  generalize v0 = u3
  split
  · refine Chip.holds_ite_snd (fun p9 => ?_) (fun p9 => ?_)
    · refine Chip.holds_ite_snd (fun p10 => ?_) (fun p10 => ?_)
      · refine Chip.raeStore_holds ?_
        unfold v2
        refine Chip.set_holds ?_
        refine Chip.holds_mk rfl rfl rfl rfl rfl rfl rfl rfl rfl rfl rfl rfl ?_
        exact h
      · refine Chip.holds_pair ?_
        unfold v2
        refine Chip.set_holds ?_
        refine Chip.holds_mk rfl rfl rfl rfl rfl rfl rfl rfl rfl rfl rfl rfl ?_
        exact h
    · refine Chip.holds_pair ?_
      unfold v2
      refine Chip.set_holds ?_
      refine Chip.holds_mk rfl rfl rfl rfl rfl rfl rfl rfl rfl rfl rfl rfl ?_
      exact h
  · refine Chip.holds_pair ?_
    exact h

theorem Chip.ctxFetch_holds {x0} (h : Chip.Holds j c) : Chip.Holds j (Chip.ctxFetch x0 c).2 := by
  unfold Chip.ctxFetch
  split
  · refine Chip.ctxCache_holds ?_
    exact h
  · extract_lets v5
    have w6 : Chip.Holds j v5.2 := by
      unfold v5
      refine Chip.raeRead_holds ?_
      exact h
    clear_value v5
    refine Chip.holds_ite_snd (fun p7 => ?_) (fun p7 => ?_)
    · refine Chip.ctxCache_holds ?_
      exact w6
    · exact w6

theorem Chip.ctxTouch_holds {x0} (h : Chip.Holds j c) : Chip.Holds j (Chip.ctxTouch x0 c) := by
  unfold Chip.ctxTouch
  refine Chip.holds_ite (fun p0 => ?_) (fun p0 => ?_)
  · exact h
  · refine Chip.ctxFetch_holds ?_
    exact h

theorem Chip.ctxPut_holds {x0 x1} (h : Chip.Holds j c) : Chip.Holds j (Chip.ctxPut x0 x1 c) := by
  unfold Chip.ctxPut
  refine Chip.holds_ite (fun p0 => ?_) (fun p0 => ?_)
  · exact h
  · refine Chip.ctxCache_holds ?_
    exact h

theorem Chip.ctxUpd_holds {x0 x1} (h : Chip.Holds j c) : Chip.Holds j (Chip.ctxUpd x0 x1 c) := by
  unfold Chip.ctxUpd
  extract_lets v0
  have w1 : Chip.Holds j v0 := by
    unfold v0
    refine Chip.ctxTouch_holds ?_
    exact h
  clear_value v0
  refine Chip.ctxPut_holds ?_
  exact w1

theorem Chip.ctxFlush_holds (h : Chip.Holds j c) : Chip.Holds j (Chip.ctxFlush c) := by
  unfold Chip.ctxFlush
  extract_lets v0 v1
  have w2 : Chip.Holds j v0 := by
    unfold v0
    refine Chip.forAll_holds ?_ ?_
    · intro y3
      intro y4
      intro y5
      refine Chip.holds_ite (fun p6 => ?_) (fun p6 => ?_)
      · exact y5
      · refine Chip.raeStore_holds ?_
        exact y5
    · exact h
  clear_value v0
  refine Chip.holds_ite (fun p7 => ?_) (fun p7 => ?_)
  · exact w2
  · refine Chip.holds_mk rfl rfl rfl rfl rfl rfl rfl rfl rfl rfl rfl rfl ?_
    exact w2

theorem Chip.listTouch_holds {x0} (h : Chip.Holds j c) : Chip.Holds j (Chip.listTouch x0 c) := by
  unfold Chip.listTouch
  extract_lets v0
  have w1 : Chip.Holds j v0 := by
    unfold v0
    refine Chip.ctxTouch_holds ?_
    exact h
  clear_value v0
  refine Chip.forAll_holds ?_ ?_
  · intro y2
    intro y3
    intro y4
    refine Chip.holds_ite (fun p5 => ?_) (fun p5 => ?_)
    · exact y4
    · refine Chip.raeRead_holds ?_
      exact y4
  · exact w1

theorem Chip.raeOverflow_holds {x0 x1} (h : Chip.Holds j c) : Chip.Holds j (Chip.raeOverflow x0 x1 c) := by
  unfold Chip.raeOverflow
  refine Chip.ctxUpd_holds ?_
  exact h

theorem Chip.blkStore_holds {x0 x1} (h : Chip.Holds j c) : Chip.Holds j (Chip.blkStore x0 x1 c) := by
  unfold Chip.blkStore
  refine Chip.holds_ite (fun p0 => ?_) (fun p0 => ?_)
  · exact h
  · refine Chip.raeStore_holds ?_
    exact h

theorem Chip.itemPut_holds {x0 x1 x2} (h : Chip.Holds j c) : Chip.Holds j (Chip.itemPut x0 x1 x2 c).2 := by
  unfold Chip.itemPut
  extract_lets v0 v1 v2 v3 v4 v5 v6 v7 v8 v9 v10 v11
  have w12 : Chip.Holds j v0 := by
    unfold v0
    refine Chip.ctxTouch_holds ?_
    exact h
  clear_value v0
  have w13 : Chip.Holds j v3 := by
    unfold v3
    refine Chip.blkStore_holds ?_
    exact w12
  clear_value v3
  have w14 : Chip.Holds j v4 := by
    unfold v4
    refine Chip.holds_ite (fun p15 => ?_) (fun p15 => ?_)
    · exact w13
    · refine Chip.blkStore_holds ?_
      exact w13
  clear_value v4
  have w16 : Chip.Holds j v5 := by
    unfold v5
    refine Chip.ctxPut_holds ?_
    exact w14
  clear_value v5
  have w17 : Chip.Holds j v6 := by
    unfold v6
    refine Chip.set_holds ?_
    exact w16
  clear_value v6
  have w18 : Chip.Holds j v10 := by
    unfold v10
    refine Chip.blkStore_holds ?_
    refine Chip.blkStore_holds ?_
    exact w12
  clear_value v10
  have w19 : Chip.Holds j v11 := by
    unfold v11
    refine Chip.ctxPut_holds ?_
    exact w18
  clear_value v11
  refine Chip.holds_ite_snd (fun p20 => ?_) (fun p20 => ?_)
  · refine Chip.holds_pair ?_
    exact w12
  · refine Chip.holds_ite_snd (fun p21 => ?_) (fun p21 => ?_)
    · refine Chip.holds_pair ?_
      refine Chip.raeOverflow_holds ?_
      exact w12
    · refine Chip.holds_ite_snd (fun p22 => ?_) (fun p22 => ?_)
      · refine Chip.holds_ite_snd (fun p23 => ?_) (fun p23 => ?_)
        · refine Chip.holds_pair ?_
          refine Chip.raeOverflow_holds ?_
          exact w12
        · refine Chip.holds_ite_snd (fun p24 => ?_) (fun p24 => ?_)
          · refine Chip.holds_pair ?_
            exact w16
          · refine Chip.holds_ite_snd (fun p25 => ?_) (fun p25 => ?_)
            · refine Chip.holds_pair ?_
              refine Chip.raise_holds ?_
              refine Chip.holds_mk rfl rfl rfl rfl rfl rfl rfl rfl rfl rfl rfl rfl ?_
              exact w17
            · refine Chip.holds_pair ?_
              exact w17
      · refine Chip.holds_pair ?_
        exact w19

theorem Chip.raeMark_holds {x0 x1 x2 x3} (h : Chip.Holds j c) : Chip.Holds j (Chip.raeMark x0 x1 x2 x3 c) := by
  unfold Chip.raeMark
  extract_lets v0 v1 v2
  have w3 : Chip.Holds j v2.2 := by
    unfold v2
    refine Chip.itemPut_holds ?_
    exact h
  clear_value v2
  refine Chip.holds_ite (fun p4 => ?_) (fun p4 => ?_)
  · refine Chip.ctxUpd_holds ?_
    exact w3
  · exact w3

theorem Chip.raeClose_holds {x0 x1 x2} (h : Chip.Holds j c) : Chip.Holds j (Chip.raeClose x0 x1 x2 c) := by
  induction x2 generalizing c x0 x1
  · unfold Chip.raeClose
    exact h
  · rename_i nn ih
    unfold Chip.raeClose
    extract_lets v26
    refine Chip.holds_ite (fun p27 => ?_) (fun p27 => ?_)
    · exact h
    · split
      · exact h
      · refine ih ?_
        refine Chip.raeMark_holds ?_
        exact h

theorem Chip.raeCell_holds {x0 x1 x2} (h : Chip.Holds j c) : Chip.Holds j (Chip.raeCell x0 x1 x2 c) := by
  unfold Chip.raeCell
  extract_lets v0 v1 v2 v3
  have w4 : Chip.Holds j v0 := by
    unfold v0
    refine Chip.listTouch_holds ?_
    exact h
  clear_value v0
  have w5 : Chip.Holds j v3.2 := by
    unfold v3
    refine Chip.itemPut_holds ?_
    exact w4
  clear_value v3
  refine Chip.holds_ite (fun p6 => ?_) (fun p6 => ?_)
  · exact w4
  · refine Chip.holds_ite (fun p7 => ?_) (fun p7 => ?_)
    · refine Chip.raeClose_holds ?_
      refine Chip.ctxUpd_holds ?_
      exact w5
    · exact w5

theorem Chip.raeProcess_holds {x0} (h : Chip.Holds j c) : Chip.Holds j (Chip.raeProcess x0 c) := by
  unfold Chip.raeProcess
  extract_lets v0 v1 v2 v3 v4 v5 v6 v7
  have w8 : Chip.Holds j v3 := by
    unfold v3
    refine Chip.inc_holds ?_
    exact h
  clear_value v3
  have w9 : Chip.Holds j v5 := by
    unfold v5
    refine Chip.ctxTouch_holds ?_
    exact h
  clear_value v5
  have w10 : Chip.Holds j v7 := by
    unfold v7
    refine Chip.ctxPut_holds ?_
    exact w9
  clear_value v7
  split
  · refine Chip.raiseIf_holds ?_
    refine Chip.holds_mk rfl rfl rfl rfl rfl rfl rfl rfl rfl rfl rfl rfl ?_
    exact w8
  · refine Chip.holds_ite (fun p16 => ?_) (fun p16 => ?_)
    · exact w10
    · refine Chip.holds_ite (fun p17 => ?_) (fun p17 => ?_)
      · refine Chip.inc_holds ?_
        exact w10
      · refine Chip.forAll_holds ?_ ?_
        · intro y18
          intro y19
          intro y20
          refine Chip.raeCell_holds ?_
          exact y20
        · exact w10

theorem Chip.raeAborted_holds (h : Chip.Holds j c) : Chip.Holds j (Chip.raeAborted c) := by
  unfold Chip.raeAborted
  extract_lets v0
  have w1 : Chip.Holds j v0 := by
    unfold v0
    refine Chip.ctxFlush_holds ?_
    exact h
  clear_value v0
  refine Chip.holds_ite (fun p2 => ?_) (fun p2 => ?_)
  · exact w1
  · refine Chip.raeReply_holds ?_
    refine Chip.set_holds ?_
    exact w1

theorem Chip.ringPump_holds (h : Chip.Holds j c) : Chip.Holds j (Chip.ringPump c) := by
  unfold Chip.ringPump
  split
  · refine Chip.holds_ite (fun p2 => ?_) (fun p2 => ?_)
    · refine Chip.raeAborted_holds ?_
      exact h
    · exact h
  · refine Chip.holds_ite (fun p7 => ?_) (fun p7 => ?_)
    · exact h
    · refine Chip.holds_ite (fun p8 => ?_) (fun p8 => ?_)
      · refine Chip.set_holds ?_
        exact h
      · refine Chip.set_holds ?_
        refine Chip.holds_mk rfl rfl rfl rfl rfl rfl rfl rfl rfl rfl rfl rfl ?_
        exact h

theorem Chip.raeIssue_holds (h : Chip.Holds j c) : Chip.HoldsO j (Chip.raeIssue c) := by
  unfold Chip.raeIssue
  extract_lets v0 v1 a
  have hv : ∀ a dev v record d, v1 a dev v record = some d → Chip.Holds j d := fun _ _ _ _ d e => Chip.niIssue_holds h d e
  clear_value v1
  split
  · exact Chip.holdsO_ite (fun _ => Chip.holdsO_none)
      (fun _ => Chip.holdsO_map (fun d e => Chip.holds_mk rfl rfl rfl rfl rfl rfl rfl rfl rfl rfl rfl rfl (hv _ _ _ _ d e)))
  · refine Chip.holdsO_ite (fun _ => Chip.holdsO_map (fun d e => Chip.ringPump_holds ?_)) (fun _ => Chip.holdsO_map (fun d e => ?_))
    · exact Chip.holds_mk rfl rfl rfl rfl rfl rfl rfl rfl rfl rfl rfl rfl (hv _ _ _ _ d e)
    · exact Chip.holds_mk rfl rfl rfl rfl rfl rfl rfl rfl rfl rfl rfl rfl (hv _ _ _ _ d e)
  · exact Chip.holdsO_none

theorem Chip.raeRecord_holds {x0 x1} (h : Chip.Holds j c) : Chip.Holds j (Chip.raeRecord x0 x1 c) := by
  unfold Chip.raeRecord
  refine Chip.holds_ite (fun p0 => ?_) (fun p0 => ?_)
  · exact h
  · refine Chip.holds_ite (fun p1 => ?_) (fun p1 => ?_)
    · refine Chip.raeAnswer_holds ?_
      exact h
    · refine Chip.ringPump_holds ?_
      refine Chip.set_holds ?_
      refine Chip.holds_mk rfl rfl rfl rfl rfl rfl rfl rfl rfl rfl rfl rfl ?_
      exact h

theorem Chip.raeImported_holds {x0 x1} (h : Chip.Holds j c) : Chip.Holds j (Chip.raeImported x0 x1 c) := by
  unfold Chip.raeImported
  refine Chip.holds_ite (fun p0 => ?_) (fun p0 => ?_)
  · exact h
  · refine Chip.holds_ite (fun p1 => ?_) (fun p1 => ?_)
    · refine Chip.holds_mk rfl rfl rfl rfl rfl rfl rfl rfl rfl rfl rfl rfl ?_
      exact h
    · refine Chip.raeFault_holds ?_
      exact h

theorem Chip.ringLong_holds (h : Chip.Holds j c) : Chip.Holds j (Chip.ringLong c) := by
  unfold Chip.ringLong
  refine Chip.holds_ite (fun p0 => ?_) (fun p0 => ?_)
  · refine Chip.raise_holds ?_
    refine Chip.holds_mk rfl rfl rfl rfl rfl rfl rfl rfl rfl rfl rfl rfl ?_
    exact h
  · exact h

theorem Chip.raePass_holds {x0 x1 x2 x3 x4} {a : Found × Chip} (h : Chip.Holds j a.2) :
    Chip.Holds j (Chip.raePass x0 x1 x2 x3 x4 a).2 := by
  unfold Chip.raePass
  extract_lets d x r x'
  have hd : Chip.Holds j d := Chip.listTouch_holds h
  clear_value d
  exact Chip.holds_ite_snd (fun _ => Chip.ctxPut_holds hd) (fun _ => Chip.ctxPut_holds hd)

theorem Chip.raeEasy_holds {x0} (h : Chip.Holds j c) : Chip.Holds j (Chip.raeEasy x0 c) := by
  unfold Chip.raeEasy
  refine Chip.ctxUpd_holds ?_
  exact h

theorem Chip.raeRound2_holds {x0 x1 x2} {a : Found × Chip} (h : Chip.Holds j a.2) : Chip.Holds j (Chip.raeRound2 x0 x1 x2 a).2 := by
  unfold Chip.raeRound2
  extract_lets d x l a' d' fs r k d''
  have h0 : Chip.Holds j d := Chip.ctxTouch_holds (Chip.ctxTouch_holds h)
  clear_value d
  have h1 : Chip.Holds j a'.2 := Chip.raePass_holds h0
  clear_value a'
  have h2 : Chip.Holds j d' := h1
  have h3 : Chip.Holds j d'' := Chip.ctxUpd_holds h2
  clear_value d''
  refine Chip.holds_ite_snd (fun _ => h0) (fun _ => ?_)
  refine Chip.holds_ite_snd (fun _ => h0) (fun _ => ?_)
  refine Chip.holds_ite_snd (fun _ => Chip.ctxPut_holds h0) (fun _ => ?_)
  exact Chip.holds_ite_snd (fun _ => Chip.holds_pair (Chip.ctxUpd_holds h3)) (fun _ => h1)

theorem Chip.queueLines_holds {x0 x1 x2 x3} (h : Chip.Holds j c) : Chip.Holds j (Chip.queueLines x0 x1 x2 x3 c) := by
  induction x3 generalizing c x0 x1 x2
  · unfold Chip.queueLines
    exact h
  · rename_i hd' tl' ih
    unfold Chip.queueLines
    refine ih ?_
    refine Chip.holds_mk rfl rfl rfl rfl rfl rfl rfl rfl rfl rfl rfl rfl ?_
    exact h

theorem Chip.raeRecords_holds {x0 x1 x2} {a : (Nat × Nat) × Chip} (h : Chip.Holds j a.2) : Chip.Holds j (Chip.raeRecords x0 x1 x2 a).2 := by
  unfold Chip.raeRecords
  extract_lets d x x' is f rows cols d1 d2 d3 d4 d5 v s e s' x''
  have hd : Chip.Holds j d := Chip.listTouch_holds h
  clear_value d
  have he : Chip.Holds j e := Chip.ctxPut_holds hd
  clear_value e
  have h5 : Chip.Holds j d5 := Chip.queueLines_holds (Chip.queueLines_holds (Chip.queueLines_holds (Chip.queueLines_holds (Chip.ctxPut_holds hd))))
  clear_value d5
  refine Chip.holds_ite_snd (fun _ => hd) (fun _ => ?_)
  refine Chip.holds_ite_snd (fun _ => ?_) (fun _ => ?_)
  · refine Chip.holds_ite_snd (fun _ => Chip.holds_pair ?_) (fun _ => Chip.holds_pair ?_)
    · exact Chip.holds_mk (c := d5) rfl rfl rfl rfl rfl rfl rfl rfl rfl rfl rfl rfl h5
    · exact Chip.holds_mk (c := e) rfl rfl rfl rfl rfl rfl rfl rfl rfl rfl rfl rfl he
  · exact Chip.holds_ite_snd (fun _ => Chip.holds_pair (Chip.holds_mk (c := d) rfl rfl rfl rfl rfl rfl rfl rfl rfl rfl rfl rfl hd)) (fun _ => hd)

theorem Chip.raeDecideUnit_holds {x0 x1} (h : Chip.Holds j c) : Chip.Holds j (Chip.raeDecideUnit x0 x1 c) := by
  unfold Chip.raeDecideUnit
  extract_lets ms d0 act d1 d2 open1 d3 a
  have h0 : Chip.Holds j d0 := Chip.forAll_holds (fun _ _ h => Chip.ctxTouch_holds h) h
  clear_value d0
  have h2 : Chip.Holds j d2 := Chip.forAll_holds (fun _ _ h => Chip.raeEasy_holds h) (Chip.set_holds h0)
  clear_value d2
  split
  rename_i fs d e
  have hd : Chip.Holds j d := by
    refine Chip.holds_of_pair e (Chip.holds_ite_snd (fun _ => ?_) (fun _ => ?_))
    · refine Chip.holds_foldl_snd _ (fun x a hx => ?_) h2
      exact Chip.holds_ite_snd (fun _ => Chip.raePass_holds hx) (fun _ => hx)
    · have h3 : Chip.Holds j d3 := Chip.holds_ite (fun _ => h2) (fun _ => Chip.ctxUpd_holds h2)
      clear_value d3
      refine Chip.holds_foldl_snd _ (fun x a hx => Chip.raeRound2_holds hx) ?_
      refine Chip.holds_foldl_snd _ (fun x a hx => ?_) h3
      exact Chip.holds_ite_snd (fun _ => Chip.raePass_holds hx) (fun _ => hx)
  extract_lets d4
  have h4 : Chip.Holds j d4 := Chip.holds_foldl_snd _ (fun x a hx => Chip.raeRecords_holds hx) hd
  clear_value d4
  exact Chip.holds_ite (fun _ => Chip.holds_mk rfl rfl rfl rfl rfl rfl rfl rfl rfl rfl rfl rfl h4)
    (fun _ => Chip.holds_mk rfl rfl rfl rfl rfl rfl rfl rfl rfl rfl rfl rfl h4)

theorem Chip.raeNextUnit_holds {x0 x1 x2} (h : Chip.Holds j c) : Chip.Holds j (Chip.raeNextUnit x0 x1 x2 c).2 := by
  induction x1 generalizing c x0 x2
  · unfold Chip.raeNextUnit
    refine Chip.holds_pair ?_
    exact h
  · rename_i nn ih
    unfold Chip.raeNextUnit
    refine Chip.holds_ite_snd (fun p38 => ?_) (fun p38 => ?_)
    · refine Chip.holds_pair ?_
      exact h
    · split
      · extract_lets v42 v43
        have w44 : Chip.Holds j v43 := by
          unfold v43
          refine Chip.forAll_holds ?_ ?_
          · intro y45
            intro y46
            intro y47
            refine Chip.ctxTouch_holds ?_
            exact y47
          · exact h
        clear_value v43
        refine Chip.holds_ite_snd (fun p48 => ?_) (fun p48 => ?_)
        · refine Chip.holds_pair ?_
          exact w44
        · refine Chip.holds_ite_snd (fun p49 => ?_) (fun p49 => ?_)
          · refine Chip.holds_pair ?_
            exact w44
          · refine ih ?_
            exact w44
      · split
        · refine Chip.holds_pair ?_
          exact h
        · refine ih ?_
          exact h

theorem Chip.raeLose_holds {x0} (h : Chip.Holds j c) : Chip.Holds j (Chip.raeLose x0 c) := by
  unfold Chip.raeLose
  refine Chip.ctxUpd_holds ?_
  refine Chip.ctxUpd_holds ?_
  exact h

theorem Chip.raeStep4_holds (h : Chip.Holds j c) : Chip.Holds j (Chip.raeStep4 c) := by
  unfold Chip.raeStep4
  refine Chip.holds_ite (fun p0 => ?_) (fun p0 => ?_)
  · exact h
  · extract_lets v1 v2 v3
    have w4 : Chip.Holds j v2 := by
      unfold v2
      refine Chip.forAll_holds ?_ ?_
      · intro y5
        intro y6
        intro y7
        refine Chip.raeLose_holds ?_
        exact y7
      · exact h
    clear_value v2
    refine Chip.holds_mk rfl rfl rfl rfl rfl rfl rfl rfl rfl rfl rfl rfl ?_
    exact w4

theorem Chip.raeDecide_holds (h : Chip.Holds j c) : Chip.Holds j (Chip.raeDecide c) := by
  unfold Chip.raeDecide
  refine Chip.holds_ite (fun p0 => ?_) (fun p0 => ?_)
  · extract_lets v1
    have w2 : Chip.Holds j v1 := by
      unfold v1
      refine Chip.raeStep4_holds ?_
      exact h
    clear_value v1
    split
    · rename_i z3 z4 z5
      have w6 : Chip.Holds j z4 := Chip.holds_of_pair z5 (by
          refine Chip.raeNextUnit_holds ?_
          exact w2
        )
      refine Chip.holds_mk rfl rfl rfl rfl rfl rfl rfl rfl rfl rfl rfl rfl ?_
      exact w6
    · rename_i z7 z8 z9 z10 z11
      have w12 : Chip.Holds j z10 := Chip.holds_of_pair z11 (by
          refine Chip.raeNextUnit_holds ?_
          exact w2
        )
      refine Chip.ringPump_holds ?_
      refine Chip.raeDecideUnit_holds ?_
      exact w12
  · exact h

theorem Chip.raeSend_holds {x0} (h : Chip.Holds j c) : Chip.Holds j (Chip.raeSend x0 c) := by
  unfold Chip.raeSend
  refine Chip.holds_mk rfl rfl rfl rfl rfl rfl rfl rfl rfl rfl rfl rfl ?_
  exact h

theorem Chip.raeDrained_holds (h : Chip.Holds j c) : Chip.Holds j (Chip.raeDrained c) := by
  unfold Chip.raeDrained
  refine Chip.holds_ite (fun p0 => ?_) (fun p0 => ?_)
  · extract_lets v1 v2 v3 v4
    have w5 : Chip.Holds j v2 := by
      unfold v2
      refine Chip.holds_mk rfl rfl rfl rfl rfl rfl rfl rfl rfl rfl rfl rfl ?_
      exact h
    clear_value v2
    have w6 : Chip.Holds j v3 := by
      unfold v3
      refine Chip.forAll_holds ?_ ?_
      · intro y7
        intro y8
        intro y9
        refine Chip.raeSend_holds ?_
        exact y9
      · exact w5
    clear_value v3
    refine Chip.holds_ite (fun p10 => ?_) (fun p10 => ?_)
    · refine Chip.raeSend_holds ?_
      refine Chip.holds_mk rfl rfl rfl rfl rfl rfl rfl rfl rfl rfl rfl rfl ?_
      exact w6
    · exact w5
  · exact h

theorem Chip.raeTake_holds (h : Chip.Holds j c) : Chip.Holds j (Chip.raeTake c) := by
  unfold Chip.raeTake
  extract_lets v0
  refine Chip.holds_ite (fun p1 => ?_) (fun p1 => ?_)
  · split
    · refine Chip.raeDrained_holds ?_
      exact h
    · extract_lets v7 v8 v9 v10
      have w11 : Chip.Holds j v8 := by
        unfold v8
        refine Chip.inc_holds ?_
        refine Chip.fatTake_holds ?_
        exact h
      clear_value v8
      have w12 : Chip.Holds j v10 := by
        unfold v10
        refine Chip.holds_mk rfl rfl rfl rfl rfl rfl rfl rfl rfl rfl rfl rfl ?_
        exact w11
      clear_value v10
      refine Chip.raeDrained_holds ?_
      refine Chip.holds_ite (fun p13 => ?_) (fun p13 => ?_)
      · refine Chip.raeSend_holds ?_
        exact w12
      · refine Chip.raeProcess_holds ?_
        exact w12
  · exact h

theorem Chip.raeImportWord_holds {x0 x1} (h : Chip.Holds j c) : Chip.Holds j (Chip.raeImportWord x0 x1 c).2 := by
  unfold Chip.raeImportWord
  extract_lets v0 v1
  refine Chip.holds_ite_snd (fun p2 => ?_) (fun p2 => ?_)
  · refine Chip.holds_pair ?_
    refine Chip.raeProcess_holds ?_
    exact h
  · refine Chip.holds_ite_snd (fun p3 => ?_) (fun p3 => ?_)
    · refine Chip.holds_pair ?_
      refine Chip.holds_mk rfl rfl rfl rfl rfl rfl rfl rfl rfl rfl rfl rfl ?_
      exact h
    · refine Chip.holds_ite_snd (fun p4 => ?_) (fun p4 => ?_)
      · refine Chip.holds_pair ?_
        refine Chip.set_holds ?_
        exact h
      · refine Chip.holds_pair ?_
        exact h

theorem Chip.raeImport_holds {x0 x1 x2} (h : Chip.Holds j c) : Chip.Holds j (Chip.raeImport x0 x1 x2 c).2 := by
  unfold Chip.raeImport
  refine Chip.holds_ite_snd (fun p0 => ?_) (fun p0 => ?_)
  · refine Chip.holds_pair ?_
    exact h
  · refine Chip.holds_ite_snd (fun p1 => ?_) (fun p1 => ?_)
    · refine Chip.holds_pair ?_
      refine Chip.holds_mk rfl rfl rfl rfl rfl rfl rfl rfl rfl rfl rfl rfl ?_
      exact h
    · refine Chip.raeImportWord_holds ?_
      refine Chip.inc_holds ?_
      exact h

theorem Chip.raeSrcTimeout_holds {x0} (h : Chip.Holds j c) : Chip.Holds j (Chip.raeSrcTimeout x0 c) := by
  unfold Chip.raeSrcTimeout
  refine Chip.holds_ite (fun p0 => ?_) (fun p0 => ?_)
  · extract_lets v1 v2 v3
    have w4 : Chip.Holds j v2 := by
      unfold v2
      refine Chip.forAll_holds ?_ ?_
      · intro y5
        intro y6
        intro y7
        refine Chip.holds_ite (fun p8 => ?_) (fun p8 => ?_)
        · exact y7
        · refine Chip.raeLose_holds ?_
          exact y7
      · exact h
    clear_value v2
    refine Chip.raise_holds ?_
    refine Chip.holds_mk rfl rfl rfl rfl rfl rfl rfl rfl rfl rfl rfl rfl ?_
    exact w4
  · exact h

theorem Chip.raeOpen_holds {x0 x1} (h : Chip.Holds j c) : Chip.Holds j (Chip.raeOpen x0 x1 c) := by
  unfold Chip.raeOpen
  extract_lets v0 v1 v2 v3 v4 v5
  have w6 : Chip.Holds j v3 := by
    unfold v3
    refine Chip.holds_mk rfl rfl rfl rfl rfl rfl rfl rfl rfl rfl rfl rfl ?_
    exact h
  clear_value v3
  have w7 : Chip.Holds j v4 := by
    unfold v4
    refine Chip.set_holds ?_
    refine Chip.set_holds ?_
    refine Chip.set_holds ?_
    refine Chip.set_holds ?_
    refine Chip.set_holds ?_
    exact w6
  clear_value v4
  have w8 : Chip.Holds j v5 := by
    unfold v5
    refine Chip.set_holds ?_
    refine Chip.set_holds ?_
    refine Chip.set_holds ?_
    exact w7
  clear_value v5
  refine Chip.forAll_holds ?_ ?_
  · intro y9
    intro y10
    intro y11
    extract_lets v12
    refine Chip.set_holds ?_
    refine Chip.set_holds ?_
    refine Chip.set_holds ?_
    exact y11
  · exact w8

theorem Chip.raeZeroed_holds (h : Chip.Holds j c) : Chip.Holds j (Chip.raeZeroed c) := by
  unfold Chip.raeZeroed
  split
  · exact h
  · split
    · refine Chip.raeAnswer_holds ?_
      exact h
    · extract_lets v10 v11 v12 v13
      refine Chip.ok_holds ?_
      refine Chip.raeOpen_holds ?_
      refine Chip.holds_mk_mem rfl rfl rfl rfl rfl rfl rfl rfl rfl rfl rfl ?_ (fun hm => ?_)
      · exact h
      · repeat first | with_reducible exact hm | with_reducible refine wf_memWrite _ _ ?_ | with_reducible refine wf_memZero _ _ ?_ | with_reducible refine wf_memWriteMask _ _ ?_ | with_reducible refine wf_filter _ ?_ | with_reducible refine wf_memPut _ _ ?_ | with_reducible refine wf_foldl _ (fun m a hm => ?_) ?_ | split | exact hm

theorem Chip.raeFinalDone_holds (h : Chip.Holds j c) : Chip.Holds j (Chip.raeFinalDone c) := by
  unfold Chip.raeFinalDone
  refine Chip.holds_ite (fun p0 => ?_) (fun p0 => ?_)
  · exact h
  · refine Chip.holds_ite (fun p1 => ?_) (fun p1 => ?_)
    · refine Chip.holds_ite (fun p2 => ?_) (fun p2 => ?_)
      · refine Chip.raeReply_holds ?_
        refine Chip.raise_holds ?_
        refine Chip.set_holds ?_
        exact h
      · exact h
    · extract_lets v3
      have w4 : Chip.Holds j v3 := by
        unfold v3
        refine Chip.raeStep4_holds ?_
        exact h
      clear_value v3
      split
      · rename_i z5 z6 z7 z8
        have w9 : Chip.Holds j z7 := Chip.holds_of_pair z8 (by
            refine Chip.raeNextUnit_holds ?_
            exact w4
          )
        exact w9
      · rename_i z10 z11 z12
        have w13 : Chip.Holds j z11 := Chip.holds_of_pair z12 (by
            refine Chip.raeNextUnit_holds ?_
            exact w4
          )
        extract_lets v14 v15 v16 v17
        have w18 : Chip.Holds j v14 := by
          unfold v14
          refine Chip.holds_ite (fun p19 => ?_) (fun p19 => ?_)
          · exact w13
          · refine Chip.ctxFlush_holds ?_
            exact w13
        clear_value v14
        have w20 : Chip.Holds j v15 := by
          unfold v15
          refine Chip.set_holds ?_
          exact w18
        clear_value v15
        have w21 : Chip.Holds j v17 := by
          unfold v17
          refine Chip.raise_holds ?_
          exact w20
        clear_value v17
        refine Chip.holds_ite (fun p22 => ?_) (fun p22 => ?_)
        · exact w18
        · refine Chip.raeReply_holds ?_
          exact w21

theorem Chip.raeAbort_holds (h : Chip.Holds j c) : Chip.Holds j (Chip.raeAbort c) := by
  unfold Chip.raeAbort
  refine Chip.holds_ite (fun p0 => ?_) (fun p0 => ?_)
  · refine Chip.ringPump_holds ?_
    refine Chip.holds_mk rfl rfl rfl rfl rfl rfl rfl rfl rfl rfl rfl rfl ?_
    exact h
  · exact h

theorem Chip.raeWrite_holds {x0 x1} (h : Chip.Holds j c) : Chip.Holds j (Chip.raeWrite x0 x1 c).2 := by
  unfold Chip.raeWrite
  refine Chip.holds_ite_snd (fun p0 => ?_) (fun p0 => ?_)
  · refine Chip.holds_pair ?_
    exact h
  · refine Chip.holds_ite_snd (fun p1 => ?_) (fun p1 => ?_)
    · refine Chip.holds_pair ?_
      refine Chip.set_holds ?_
      exact h
    · refine Chip.holds_ite_snd (fun p2 => ?_) (fun p2 => ?_)
      · refine Chip.holds_pair ?_
        refine Chip.set_holds ?_
        exact h
      · refine Chip.holds_ite_snd (fun p3 => ?_) (fun p3 => ?_)
        · refine Chip.holds_pair ?_
          refine Chip.set_holds ?_
          exact h
        · refine Chip.holds_ite_snd (fun p4 => ?_) (fun p4 => ?_)
          · refine Chip.holds_pair ?_
            refine Chip.set_holds ?_
            refine Chip.set_holds ?_
            refine Chip.set_holds ?_
            exact h
          · refine Chip.holds_ite_snd (fun p5 => ?_) (fun p5 => ?_)
            · refine Chip.holds_pair ?_
              exact h
            · refine Chip.holds_pair ?_
              refine Chip.set_holds ?_
              exact h

theorem cmdRaStatus_holds {x0 x1} (h : Chip.Holds j c) : Chip.Holds j (Cmd.run cmdRaStatus x0 x1 c) := by
  dsimp -zeta only [cmdRaStatus, Cmd.plain]
  refine Chip.ok_holds ?_
  exact h

theorem cmdRaRecipeLoad_holds {x0 x1} (h : Chip.Holds j c) : Chip.Holds j (Cmd.run cmdRaRecipeLoad x0 x1 c) := by
  dsimp -zeta only [cmdRaRecipeLoad, Cmd.plain]
  refine Chip.holds_ite (fun p0 => ?_) (fun p0 => ?_)
  · refine Chip.fail_holds ?_
    exact h
  · extract_lets v1
    have w2 : Chip.Holds j v1 := by
      unfold v1
      refine Chip.forAll_holds ?_ ?_
      · intro y3
        intro y4
        intro y5
        refine Chip.set_holds ?_
        exact y5
      · exact h
    clear_value v1
    refine Chip.ok_holds ?_
    refine Chip.set_holds ?_
    exact w2

theorem cmdRaRecipeCommit_holds {x0 x1} (h : Chip.Holds j c) : Chip.Holds j (Cmd.run cmdRaRecipeCommit x0 x1 c) := by
  dsimp -zeta only [cmdRaRecipeCommit, Cmd.plain]
  refine Chip.holds_ite (fun p0 => ?_) (fun p0 => ?_)
  · refine Chip.fail_holds ?_
    exact h
  · split
    · refine Chip.finish_holds ?_
      exact h
    · refine Chip.ok_holds ?_
      refine Chip.set_holds ?_
      refine Chip.holds_mk rfl rfl rfl rfl rfl rfl rfl rfl rfl rfl rfl rfl ?_
      exact h

theorem cmdRaBegin_holds {x0 x1} (h : Chip.Holds j c) : Chip.Holds j (Cmd.run cmdRaBegin x0 x1 c) := by
  dsimp -zeta only [cmdRaBegin, Cmd.plain]
  extract_lets v0 v1 v2
  refine Chip.holds_ite (fun p3 => ?_) (fun p3 => ?_)
  · refine Chip.fail_holds ?_
    exact h
  · refine Chip.holds_ite (fun p4 => ?_) (fun p4 => ?_)
    · refine Chip.fail_holds ?_
      exact h
    · refine Chip.holds_ite (fun p5 => ?_) (fun p5 => ?_)
      · refine Chip.fail_holds ?_
        exact h
      · refine Chip.holds_ite (fun p6 => ?_) (fun p6 => ?_)
        · refine Chip.interim_holds ?_
          refine Chip.holds_mk rfl rfl rfl rfl rfl rfl rfl rfl rfl rfl rfl rfl ?_
          exact h
        · refine Chip.ok_holds ?_
          refine Chip.raeOpen_holds ?_
          exact h

theorem cmdRaFinal_holds {x0 x1} (h : Chip.Holds j c) : Chip.Holds j (Cmd.run cmdRaFinal x0 x1 c) := by
  dsimp -zeta only [cmdRaFinal, Cmd.plain]
  refine Chip.holds_ite (fun p0 => ?_) (fun p0 => ?_)
  · refine Chip.fail_holds ?_
    exact h
  · refine Chip.holds_ite (fun p1 => ?_) (fun p1 => ?_)
    · refine Chip.fail_holds ?_
      exact h
    · extract_lets v2 v3
      have w4 : Chip.Holds j v2 := by
        unfold v2
        refine Chip.interim_holds ?_
        exact h
      clear_value v2
      refine Chip.raeDrained_holds ?_
      refine Chip.set_holds ?_
      refine Chip.holds_mk rfl rfl rfl rfl rfl rfl rfl rfl rfl rfl rfl rfl ?_
      exact w4

theorem cmdRaEnd_holds {x0 x1} (h : Chip.Holds j c) : Chip.Holds j (Cmd.run cmdRaEnd x0 x1 c) := by
  dsimp -zeta only [cmdRaEnd, Cmd.plain]
  extract_lets v0 v1
  have w2 : Chip.Holds j v0 := by
    unfold v0
    refine Chip.raeReply_holds ?_
    exact h
  clear_value v0
  have w3 : Chip.Holds j v1 := by
    unfold v1
    refine Chip.holds_mk rfl rfl rfl rfl rfl rfl rfl rfl rfl rfl rfl rfl ?_
    exact w2
  clear_value v1
  refine Chip.ok_holds ?_
  refine Chip.set_holds ?_
  refine Chip.set_holds ?_
  refine Chip.set_holds ?_
  exact w3

theorem Chip.ctxReads_holds {x0 x1 x2} (h : Chip.Holds j c) : Chip.Holds j (Chip.ctxReads x0 x1 x2 c).2 := by
  induction x0 generalizing c x1 x2
  · unfold Chip.ctxReads
    refine Chip.holds_pair ?_
    exact h
  · rename_i nn ih
    unfold Chip.ctxReads
    extract_lets v12
    have w13 : Chip.Holds j v12.2 := by
      unfold v12
      refine Chip.ctxFetch_holds ?_
      exact h
    clear_value v12
    refine Chip.holds_ite_snd (fun p14 => ?_) (fun p14 => ?_)
    · refine ih ?_
      exact w13
    · refine Chip.holds_pair ?_
      exact w13

theorem cmdRaCtxRead_holds {x0 x1} (h : Chip.Holds j c) : Chip.Holds j (Cmd.run cmdRaCtxRead x0 x1 c) := by
  dsimp -zeta only [cmdRaCtxRead, Cmd.plain]
  extract_lets v0
  have w1 : Chip.Holds j v0.2 := by
    unfold v0
    refine Chip.ctxReads_holds ?_
    exact h
  clear_value v0
  refine Chip.holds_ite (fun p2 => ?_) (fun p2 => ?_)
  · refine Chip.ok_holds ?_
    exact w1
  · refine Chip.fail_holds ?_
    exact w1

theorem Chip.recordRead_holds {x0} (h : Chip.Holds j c) : Chip.Holds j (Chip.recordRead x0 c).2 := by
  unfold Chip.recordRead
  refine Chip.holds_ite_snd (fun p0 => ?_) (fun p0 => ?_)
  · split
    · refine Chip.holds_pair ?_
      exact h
    · refine Chip.holds_pair ?_
      refine Chip.rowReads_holds ?_
      exact h
  · refine Chip.holds_ite_snd (fun p6 => ?_) (fun p6 => ?_)
    · extract_lets v7 v8
      split
      · rename_i z9 z10 z11
        have w12 : Chip.Holds j z10 := Chip.holds_of_pair z11 (by
            refine Chip.portB_holds ?_
            exact h
          )
        refine Chip.holds_pair ?_
        exact w12
      · rename_i z13 z14 z15 z16 z17
        have w18 : Chip.Holds j z16 := Chip.holds_of_pair z17 (by
            refine Chip.portB_holds ?_
            exact h
          )
        refine Chip.holds_pair ?_
        exact w18
    · refine Chip.holds_pair ?_
      exact h

theorem Chip.recordReads_holds {x0 x1} (h : Chip.Holds j c) : Chip.Holds j (Chip.recordReads x0 x1 c).2 := by
  induction x0 generalizing c x1
  · unfold Chip.recordReads
    refine Chip.holds_pair ?_
    exact h
  · rename_i hd' tl' ih
    unfold Chip.recordReads
    extract_lets v11
    have w12 : Chip.Holds j v11.2 := by
      unfold v11
      refine Chip.recordRead_holds ?_
      exact h
    clear_value v11
    refine Chip.holds_ite_snd (fun p13 => ?_) (fun p13 => ?_)
    · refine ih ?_
      exact w12
    · refine Chip.holds_pair ?_
      exact w12

theorem cmdRaRingRead_holds {x0 x1} (h : Chip.Holds j c) : Chip.Holds j (Cmd.run cmdRaRingRead x0 x1 c) := by
  dsimp -zeta only [cmdRaRingRead, Cmd.plain]
  refine Chip.holds_ite (fun p0 => ?_) (fun p0 => ?_)
  · refine Chip.fail_holds ?_
    exact h
  · extract_lets v1
    have w2 : Chip.Holds j v1.2 := by
      unfold v1
      refine Chip.recordReads_holds ?_
      exact h
    clear_value v1
    refine Chip.holds_ite (fun p3 => ?_) (fun p3 => ?_)
    · refine Chip.ok_holds ?_
      exact w2
    · refine Chip.fail_holds ?_
      exact w2

end Sys2Proof.Machine
end

