-- ==== Sys2Proof/Laws/KeepWindway.lean ====
section
/-! SUPPORT. Each operation of Machine/Windway.lean keeps the device sound and leaves its test access port. -/

namespace Sys2Proof.Machine

variable {j : Jtag} {c : Chip}

theorem Chip.wpResend_holds {x0} (h : Chip.Holds j c) : Chip.Holds j (Chip.wpResend x0 c) := by
  unfold Chip.wpResend
  extract_lets v0 v1
  have w2 : Chip.Holds j v1 := by
    unfold v1
    refine Chip.addSat_holds ?_
    exact h
  clear_value v1
  refine Chip.holds_ite (fun p3 => ?_) (fun p3 => ?_)
  · exact h
  · refine Chip.emit_holds ?_
    refine Chip.setWp_holds ?_
    exact w2

theorem Chip.widthShow_holds {x0} (h : Chip.Holds j c) : Chip.Holds j (Chip.widthShow x0 c) := by
  unfold Chip.widthShow
  refine Chip.wpFill_holds ?_
  refine Chip.set_holds ?_
  exact h

theorem Chip.laneOut_holds {x0 x1 x2} (h : Chip.Holds j c) : Chip.Holds j (Chip.laneOut x0 x1 x2 c) := by
  unfold Chip.laneOut
  extract_lets v0
  have w1 : Chip.Holds j v0 := by
    unfold v0
    refine Chip.widthShow_holds ?_
    refine Chip.set_holds ?_
    exact h
  clear_value v0
  refine Chip.tqPush_holds ?_
  exact w1

theorem Chip.laneSuspect_holds {x0 x1} (h : Chip.Holds j c) : Chip.Holds j (Chip.laneSuspect x0 x1 c) := by
  unfold Chip.laneSuspect
  split
  · exact h
  · extract_lets v5
    have w6 : Chip.Holds j v5 := by
      unfold v5
      refine Chip.setWp_holds ?_
      exact h
    clear_value v5
    refine Chip.laneOut_holds ?_
    refine Chip.raise_holds ?_
    exact w6

theorem Chip.wpReplay_holds {x0} (h : Chip.Holds j c) : Chip.Holds j (Chip.wpReplay x0 c) := by
  unfold Chip.wpReplay
  extract_lets v0
  have w1 : Chip.Holds j v0 := by
    unfold v0
    refine Chip.holds_ite (fun p2 => ?_) (fun p2 => ?_)
    · refine Chip.laneSuspect_holds ?_
      exact h
    · exact h
  clear_value v0
  refine Chip.wpResend_holds ?_
  exact w1

theorem Chip.wpNak_holds {x0} (h : Chip.Holds j c) : Chip.Holds j (Chip.wpNak x0 c) := by
  unfold Chip.wpNak
  refine Chip.holds_ite (fun p0 => ?_) (fun p0 => ?_)
  · exact h
  · refine Chip.emit_holds ?_
    refine Chip.setWp_holds ?_
    exact h

theorem Chip.wpFrame_holds {x0 x1 x2} (h : Chip.Holds j c) : Chip.Holds j (Chip.wpFrame x0 x1 x2 c) := by
  unfold Chip.wpFrame
  refine Chip.holds_ite (fun p0 => ?_) (fun p0 => ?_)
  · exact h
  · refine Chip.holds_ite (fun p1 => ?_) (fun p1 => ?_)
    · extract_lets v2
      have w3 : Chip.Holds j v2 := by
        unfold v2
        refine Chip.setWp_holds ?_
        refine Chip.inc_holds ?_
        exact h
      clear_value v2
      refine Chip.wpNak_holds ?_
      exact w3
    · extract_lets v4 v5 v6 v7 v8
      have w9 : Chip.Holds j v4 := by
        unfold v4
        refine Chip.holds_ite (fun p10 => ?_) (fun p10 => ?_)
        · refine Chip.wpFill_holds ?_
          refine Chip.setWp_holds ?_
          exact h
        · exact h
      clear_value v4
      have w11 : Chip.Holds j v5 := by
        unfold v5
        refine Chip.holds_ite (fun p12 => ?_) (fun p12 => ?_)
        · refine Chip.wpReplay_holds ?_
          exact w9
        · exact w9
      clear_value v5
      have w13 : Chip.Holds j v7 := by
        unfold v7
        refine Chip.setWp_holds ?_
        exact w11
      clear_value v7
      have w14 : Chip.Holds j v8 := by
        unfold v8
        refine Chip.emit_holds ?_
        exact w13
      clear_value v8
      refine Chip.holds_ite (fun p15 => ?_) (fun p15 => ?_)
      · exact w11
      · refine Chip.holds_ite (fun p16 => ?_) (fun p16 => ?_)
        · refine Chip.holds_ite (fun p17 => ?_) (fun p17 => ?_)
          · refine Chip.emit_holds ?_
            exact w14
          · exact w14
        · refine Chip.holds_ite (fun p18 => ?_) (fun p18 => ?_)
          · refine Chip.wpNak_holds ?_
            exact w11
          · exact w11

theorem Chip.wpWindow_holds {x0} (h : Chip.Holds j c) : Chip.Holds j (Chip.wpWindow x0 c) := by
  unfold Chip.wpWindow
  extract_lets v0 v1
  have w2 : Chip.Holds j v1 := by
    unfold v1
    refine Chip.holds_ite (fun p3 => ?_) (fun p3 => ?_)
    · refine Chip.laneSuspect_holds ?_
      exact h
    · exact h
  clear_value v1
  refine Chip.setWp_holds ?_
  exact w2

theorem Chip.setRoute_holds {x0 x1 x2} (h : Chip.Holds j c) : Chip.Holds j (Chip.setRoute x0 x1 x2 c) := by
  unfold Chip.setRoute
  refine Chip.set_holds ?_
  exact h

theorem Chip.epochSwitch_holds (h : Chip.Holds j c) : Chip.Holds j (Chip.epochSwitch c) := by
  unfold Chip.epochSwitch
  extract_lets v0 v1
  have w2 : Chip.Holds j v1 := by
    unfold v1
    refine Chip.set_holds ?_
    refine Chip.set_holds ?_
    refine Chip.set_holds ?_
    exact h
  clear_value v1
  split
  · refine Chip.set_holds ?_
    exact w2
  · exact w2

theorem Chip.fwdEnd_holds {x0 x1 x2} (h : Chip.Holds j c) : Chip.Holds j (Chip.fwdEnd x0 x1 x2 c) := by
  unfold Chip.fwdEnd
  extract_lets es v d
  refine Chip.forAll_holds (fun _ _ h => Chip.sendReply_holds h) ?_
  exact Chip.holds_gen h rfl id id id id (Nat.le_trans (List.length_filter_le _ _)) id id id id id id

theorem Chip.declareGone_holds {x0} (h : Chip.Holds j c) : Chip.Holds j (Chip.declareGone x0 c) := by
  unfold Chip.declareGone
  refine Chip.fwdEnd_holds ?_
  refine Chip.raise_holds ?_
  exact h

theorem Chip.wwByPath_holds {x0 x1 x2 x3} (h : Chip.Holds j c) : Chip.Holds j (Chip.wwByPath x0 x1 x2 x3 c) := by
  unfold Chip.wwByPath
  refine Chip.wwAlong_holds ?_
  exact h

theorem Chip.discStart_holds {x0} (h : Chip.Holds j c) : Chip.Holds j (Chip.discStart x0 c) := by
  unfold Chip.discStart
  extract_lets v0 v1 v2 v3
  have w4 : Chip.Holds j v2 := by
    unfold v2
    refine Chip.holds_mk rfl rfl rfl rfl rfl rfl rfl rfl rfl rfl rfl rfl ?_
    exact h
  clear_value v2
  have w5 : Chip.Holds j v3 := by
    unfold v3
    refine Chip.set_holds ?_
    exact w4
  clear_value v3
  refine Chip.forAll_holds ?_ ?_
  · intro y6
    intro y7
    intro y8
    refine Chip.wwPort_holds ?_
    exact y8
  · exact w5

theorem Chip.routeStart_holds {x0 x1} (h : Chip.Holds j c) : Chip.Holds j (Chip.routeStart x0 x1 c) := by
  unfold Chip.routeStart
  extract_lets v0 v1
  have w2 : Chip.Holds j v1 := by
    unfold v1
    refine Chip.holds_mk rfl rfl rfl rfl rfl rfl rfl rfl rfl rfl rfl rfl ?_
    exact h
  clear_value v1
  refine Chip.set_holds ?_
  exact w2

theorem Chip.changeDone_holds {x0} (h : Chip.Holds j c) : Chip.Holds j (Chip.changeDone x0 c) := by
  unfold Chip.changeDone
  extract_lets v0 v1 v2 v3 v4 v5 v6 v7 v8
  have w9 : Chip.Holds j v0 := by
    unfold v0
    refine Chip.raise_holds ?_
    refine Chip.set_holds ?_
    exact h
  clear_value v0
  have w10 : Chip.Holds j v2 := by
    unfold v2
    refine Chip.holds_mk rfl rfl rfl rfl rfl rfl rfl rfl rfl rfl rfl rfl ?_
    exact w9
  clear_value v2
  have w11 : Chip.Holds j v4 := by
    unfold v4
    refine Chip.raiseIf_holds ?_
    exact w10
  clear_value v4
  have w12 : Chip.Holds j v5 := by
    unfold v5
    refine Chip.forAll_holds ?_ ?_
    · intro y13
      intro y14
      intro y15
      refine Chip.ok_holds ?_
      exact y15
    · exact w11
  clear_value v5
  have w16 : Chip.Holds j v8 := by
    unfold v8
    refine Chip.holds_mk rfl rfl rfl rfl rfl rfl rfl rfl rfl rfl rfl rfl ?_
    exact w12
  clear_value v8
  refine Chip.holds_ite (fun p17 => ?_) (fun p17 => ?_)
  · refine Chip.discStart_holds ?_
    exact w16
  · refine Chip.holds_ite (fun p18 => ?_) (fun p18 => ?_)
    · refine Chip.routeStart_holds ?_
      exact w16
    · exact w16

theorem Chip.changeSwitch_holds {x0} (h : Chip.Holds j c) : Chip.Holds j (Chip.changeSwitch x0 c) := by
  unfold Chip.changeSwitch
  extract_lets v0 v1 v2 v3 v4
  have w5 : Chip.Holds j v1 := by
    unfold v1
    refine Chip.forAll_holds ?_ ?_
    · intro y6
      intro y7
      intro y8
      refine Chip.wwByPath_holds ?_
      exact y8
    · exact h
  clear_value v1
  have w9 : Chip.Holds j v4 := by
    unfold v4
    refine Chip.epochSwitch_holds ?_
    refine Chip.holds_mk rfl rfl rfl rfl rfl rfl rfl rfl rfl rfl rfl rfl ?_
    exact w5
  clear_value v4
  refine Chip.holds_ite (fun p10 => ?_) (fun p10 => ?_)
  · refine Chip.changeDone_holds ?_
    exact w9
  · exact w9

theorem Chip.changeWrite_holds {x0} (h : Chip.Holds j c) : Chip.Holds j (Chip.changeWrite x0 c) := by
  unfold Chip.changeWrite
  refine Chip.holds_ite (fun p0 => ?_) (fun p0 => ?_)
  · refine Chip.changeSwitch_holds ?_
    exact h
  · extract_lets v1 v2 v3 v4 v5 v6 v7 v8 v9 v10 v11 v12 v13 v14 v15 v16 v17
    have w18 : Chip.Holds j v4 := by
      unfold v4
      refine Chip.holds_mk rfl rfl rfl rfl rfl rfl rfl rfl rfl rfl rfl rfl ?_
      exact h
    clear_value v4
    have w19 : Chip.Holds j v5 := by
      unfold v5
      refine Chip.forAll_holds ?_ ?_
      · intro y20
        intro y21
        intro y22
        refine Chip.declareGone_holds ?_
        exact y22
      · exact w18
    clear_value v5
    have w23 : Chip.Holds j v7 := by
      unfold v7
      refine Chip.forAll_holds ?_ ?_
      · intro y24
        intro y25
        intro y26
        refine Chip.setRoute_holds ?_
        exact y26
      · exact w19
    clear_value v7
    have w27 : Chip.Holds j v9 := by
      unfold v9
      refine Chip.forAll_holds ?_ ?_
      · intro y28
        intro y29
        intro y30
        refine Chip.set_holds ?_
        exact y30
      · exact w23
    clear_value v9
    have w31 : Chip.Holds j v10 := by
      unfold v10
      refine Chip.holds_ite (fun p32 => ?_) (fun p32 => ?_)
      · refine Chip.set_holds ?_
        refine Chip.set_holds ?_
        exact w27
      · exact w23
    clear_value v10
    have w33 : Chip.Holds j v13 := by
      unfold v13
      refine Chip.forAll_holds ?_ ?_
      · intro y34
        intro y35
        intro y36
        extract_lets v37 v38
        have w39 : Chip.Holds j v38 := by
          unfold v38
          refine Chip.holds_ite (fun p40 => ?_) (fun p40 => ?_)
          · refine Chip.wwByPath_holds ?_
            exact y36
          · exact y36
        clear_value v38
        refine Chip.forAll_holds ?_ ?_
        · intro y41
          intro y42
          intro y43
          refine Chip.wwByPath_holds ?_
          exact y43
        · exact w39
      · exact w31
    clear_value v13
    have w44 : Chip.Holds j v17 := by
      unfold v17
      refine Chip.holds_mk rfl rfl rfl rfl rfl rfl rfl rfl rfl rfl rfl rfl ?_
      exact w33
    clear_value v17
    refine Chip.holds_ite (fun p45 => ?_) (fun p45 => ?_)
    · refine Chip.changeSwitch_holds ?_
      exact w44
    · exact w44

theorem Chip.discExpire_holds (h : Chip.Holds j c) : Chip.Holds j (Chip.discExpire c) := by
  unfold Chip.discExpire
  split
  · exact h
  · refine Chip.holds_ite (fun p5 => ?_) (fun p5 => ?_)
    · exact h
    · extract_lets v6 v7 v8 v9 v10 v11 v12
      have w13 : Chip.Holds j v8 := by
        unfold v8
        refine Chip.holds_mk rfl rfl rfl rfl rfl rfl rfl rfl rfl rfl rfl rfl ?_
        exact h
      clear_value v8
      have w14 : Chip.Holds j v10 := by
        unfold v10
        refine Chip.forAll_holds ?_ ?_
        · intro y15
          intro y16
          intro y17
          refine Chip.raise_holds ?_
          exact y17
        · exact w13
      clear_value v10
      have w18 : Chip.Holds j v11 := by
        unfold v11
        refine Chip.set_holds ?_
        exact w14
      clear_value v11
      refine Chip.holds_ite (fun p19 => ?_) (fun p19 => ?_)
      · refine Chip.changeWrite_holds ?_
        exact w18
      · refine Chip.holds_mk rfl rfl rfl rfl rfl rfl rfl rfl rfl rfl rfl rfl ?_
        exact w18

theorem Chip.oldDrained_holds (h : Chip.Holds j c) : Chip.Holds j (Chip.oldDrained c) := by
  unfold Chip.oldDrained
  split
  · exact h
  · refine Chip.holds_ite (fun p5 => ?_) (fun p5 => ?_)
    · refine Chip.changeWrite_holds ?_
      exact h
    · exact h

theorem Chip.pathAck_holds (h : Chip.Holds j c) : Chip.Holds j (Chip.pathAck c) := by
  unfold Chip.pathAck
  split
  · exact h
  · refine Chip.holds_ite (fun p5 => ?_) (fun p5 => ?_)
    · exact h
    · extract_lets v6 v7 v8
      have w9 : Chip.Holds j v8 := by
        unfold v8
        refine Chip.holds_mk rfl rfl rfl rfl rfl rfl rfl rfl rfl rfl rfl rfl ?_
        exact h
      clear_value v8
      refine Chip.holds_ite (fun p10 => ?_) (fun p10 => ?_)
      · exact w9
      · refine Chip.holds_ite (fun p11 => ?_) (fun p11 => ?_)
        · refine Chip.changeSwitch_holds ?_
          exact w9
        · refine Chip.changeDone_holds ?_
          exact w9

theorem Chip.rootReact_holds {x0 x1 x2} (h : Chip.Holds j c) : Chip.Holds j (Chip.rootReact x0 x1 x2 c) := by
  unfold Chip.rootReact
  extract_lets v0 v1 v2 v3
  have w4 : Chip.Holds j v1 := by
    unfold v1
    refine Chip.holds_mk rfl rfl rfl rfl rfl rfl rfl rfl rfl rfl rfl rfl ?_
    exact h
  clear_value v1
  refine Chip.holds_ite (fun p5 => ?_) (fun p5 => ?_)
  · exact w4
  · refine Chip.holds_ite (fun p6 => ?_) (fun p6 => ?_)
    · refine Chip.holds_mk rfl rfl rfl rfl rfl rfl rfl rfl rfl rfl rfl rfl ?_
      exact w4
    · refine Chip.holds_ite (fun p7 => ?_) (fun p7 => ?_)
      · refine Chip.discStart_holds ?_
        exact w4
      · refine Chip.routeStart_holds ?_
        exact w4

theorem Chip.linkChanged_holds {x0 x1} (h : Chip.Holds j c) : Chip.Holds j (Chip.linkChanged x0 x1 c) := by
  unfold Chip.linkChanged
  refine Chip.holds_ite (fun p0 => ?_) (fun p0 => ?_)
  · refine Chip.rootReact_holds ?_
    exact h
  · refine Chip.wwTo_holds ?_
    exact h

theorem Chip.portUp_holds {x0 x1 x2 x3} (h : Chip.Holds j c) : Chip.Holds j (Chip.portUp x0 x1 x2 x3 c) := by
  unfold Chip.portUp
  refine Chip.holds_ite (fun p0 => ?_) (fun p0 => ?_)
  · exact h
  · extract_lets v1 v2 v3 v4 v5
    have w6 : Chip.Holds j v1 := by
      unfold v1
      refine Chip.set_holds ?_
      refine Chip.set_holds ?_
      refine Chip.set_holds ?_
      exact h
    clear_value v1
    have w7 : Chip.Holds j v2 := by
      unfold v2
      refine Chip.set_holds ?_
      refine Chip.set_holds ?_
      exact w6
    clear_value v2
    have w8 : Chip.Holds j v3 := by
      unfold v3
      refine Chip.widthShow_holds ?_
      refine Chip.setWp_holds ?_
      exact w7
    clear_value v3
    have w9 : Chip.Holds j v4 := by
      unfold v4
      refine Chip.holds_ite (fun p10 => ?_) (fun p10 => ?_)
      · refine Chip.set_holds ?_
        refine Chip.set_holds ?_
        exact w8
      · exact w8
    clear_value v4
    have w11 : Chip.Holds j v5 := by
      unfold v5
      refine Chip.holds_ite (fun p12 => ?_) (fun p12 => ?_)
      · exact w9
      · refine Chip.domOpen_holds ?_
        exact w9
    clear_value v5
    refine Chip.linkChanged_holds ?_
    refine Chip.raise_holds ?_
    exact w11

theorem Chip.portLeave_holds {x0 x1} (h : Chip.Holds j c) : Chip.Holds j (Chip.portLeave x0 x1 c) := by
  unfold Chip.portLeave
  extract_lets v0 v1
  have w2 : Chip.Holds j v0 := by
    unfold v0
    refine Chip.set_holds ?_
    refine Chip.set_holds ?_
    refine Chip.set_holds ?_
    exact h
  clear_value v0
  refine Chip.holds_mk rfl rfl rfl rfl rfl rfl rfl rfl rfl rfl rfl rfl ?_
  exact w2

theorem Chip.portDown_holds {x0} (h : Chip.Holds j c) : Chip.Holds j (Chip.portDown x0 c) := by
  unfold Chip.portDown
  refine Chip.holds_ite (fun p0 => ?_) (fun p0 => ?_)
  · refine Chip.linkChanged_holds ?_
    refine Chip.raise_holds ?_
    refine Chip.portLeave_holds ?_
    exact h
  · refine Chip.holds_ite (fun p1 => ?_) (fun p1 => ?_)
    · refine Chip.set_holds ?_
      refine Chip.set_holds ?_
      exact h
    · exact h

theorem Chip.portEnable_holds {x0 x1} (h : Chip.Holds j c) : Chip.Holds j (Chip.portEnable x0 x1 c) := by
  unfold Chip.portEnable
  extract_lets v0 v1
  have w2 : Chip.Holds j v1 := by
    unfold v1
    refine Chip.set_holds ?_
    exact h
  clear_value v1
  refine Chip.holds_ite (fun p3 => ?_) (fun p3 => ?_)
  · exact w2
  · refine Chip.holds_ite (fun p4 => ?_) (fun p4 => ?_)
    · refine Chip.holds_ite (fun p5 => ?_) (fun p5 => ?_)
      · refine Chip.set_holds ?_
        exact w2
      · exact w2
    · refine Chip.portDown_holds ?_
      exact w2

theorem Chip.portRetrain_holds {x0} (h : Chip.Holds j c) : Chip.Holds j (Chip.portRetrain x0 c) := by
  unfold Chip.portRetrain
  refine Chip.holds_ite (fun p0 => ?_) (fun p0 => ?_)
  · exact h
  · refine Chip.set_holds ?_
    refine Chip.set_holds ?_
    refine Chip.set_holds ?_
    exact h

theorem Chip.portReset_holds {x0} (h : Chip.Holds j c) : Chip.Holds j (Chip.portReset x0 c) := by
  unfold Chip.portReset
  refine Chip.holds_ite (fun p0 => ?_) (fun p0 => ?_)
  · exact h
  · refine Chip.portLeave_holds ?_
    refine Chip.domClose_holds ?_
    exact h

theorem Chip.portsStart_holds (h : Chip.Holds j c) : Chip.Holds j (Chip.portsStart c) := by
  unfold Chip.portsStart
  extract_lets v0
  have w1 : Chip.Holds j v0 := by
    unfold v0
    refine Chip.holds_ite (fun p2 => ?_) (fun p2 => ?_)
    · refine Chip.set_holds ?_
      exact h
    · exact h
  clear_value v0
  refine Chip.forAll_holds ?_ ?_
  · intro y3
    intro y4
    intro y5
    refine Chip.holds_ite (fun p6 => ?_) (fun p6 => ?_)
    · refine Chip.set_holds ?_
      exact y5
    · refine Chip.holds_ite (fun p7 => ?_) (fun p7 => ?_)
      · refine Chip.set_holds ?_
        exact y5
      · exact y5
  · exact w1

theorem Chip.laneRestore_holds {x0 x1} (h : Chip.Holds j c) : Chip.Holds j (Chip.laneRestore x0 x1 c) := by
  unfold Chip.laneRestore
  refine Chip.raise_holds ?_
  refine Chip.widthShow_holds ?_
  refine Chip.set_holds ?_
  exact h

theorem Chip.laneRetire_holds {x0 x1} (h : Chip.Holds j c) : Chip.Holds j (Chip.laneRetire x0 x1 c) := by
  unfold Chip.laneRetire
  extract_lets v0 v1 v2
  have w3 : Chip.Holds j v0 := by
    unfold v0
    refine Chip.set_holds ?_
    exact h
  clear_value v0
  have w4 : Chip.Holds j v1 := by
    unfold v1
    refine Chip.widthShow_holds ?_
    refine Chip.set_holds ?_
    exact w3
  clear_value v1
  have w5 : Chip.Holds j v2 := by
    unfold v2
    refine Chip.raise_holds ?_
    exact w4
  clear_value v2
  refine Chip.holds_ite (fun p6 => ?_) (fun p6 => ?_)
  · refine Chip.linkChanged_holds ?_
    refine Chip.raise_holds ?_
    refine Chip.portLeave_holds ?_
    refine Chip.domClose_holds ?_
    exact w5
  · exact w5

theorem Chip.wwSendErr_holds {x0 x1 x2 x3 x4 x5} (h : Chip.Holds j c) : Chip.Holds j (Chip.wwSendErr x0 x1 x2 x3 x4 x5 c) := by
  unfold Chip.wwSendErr
  extract_lets v0 v1
  refine Chip.wwAlong_holds ?_
  refine Chip.inc_holds ?_
  exact h

theorem undeliverable_holds {x0} (h : Chip.Holds j c) : Chip.Holds j (undeliverable x0 c) := by
  unfold undeliverable
  refine Chip.inc_holds ?_
  exact h

theorem Chip.probe_holds {x0 x1 x2 x3 x4} (h : Chip.Holds j c) : Chip.Holds j (Chip.probe x0 x1 x2 x3 x4 c) := by
  unfold Chip.probe
  refine Chip.holds_ite (fun p0 => ?_) (fun p0 => ?_)
  · exact h
  · extract_lets v1 v2 v3 v4 v5 v6 v7 v8
    have w9 : Chip.Holds j v3 := by
      unfold v3
      refine Chip.holds_ite (fun p10 => ?_) (fun p10 => ?_)
      · refine Chip.holds_ite (fun p11 => ?_) (fun p11 => ?_)
        · refine Chip.raise_holds ?_
          refine Chip.set_holds ?_
          refine Chip.holds_mk rfl rfl rfl rfl rfl rfl rfl rfl rfl rfl rfl rfl ?_
          exact h
        · refine Chip.raise_holds ?_
          exact h
      · exact h
    clear_value v3
    have w12 : Chip.Holds j v5 := by
      unfold v5
      refine Chip.holds_mk rfl rfl rfl rfl rfl rfl rfl rfl rfl rfl rfl rfl ?_
      exact w9
    clear_value v5
    have w13 : Chip.Holds j v8 := by
      unfold v8
      refine Chip.wwByPath_holds ?_
      exact w12
    clear_value v8
    refine Chip.holds_ite (fun p14 => ?_) (fun p14 => ?_)
    · exact w9
    · refine Chip.holds_ite (fun p15 => ?_) (fun p15 => ?_)
      · exact w13
      · refine Chip.forAll_holds ?_ ?_
        · intro y16
          intro y17
          intro y18
          refine Chip.wwPort_holds ?_
          exact y18
        · exact w13

theorem Chip.probeReply_holds {x0 x1 x2 x3} (h : Chip.Holds j c) : Chip.Holds j (Chip.probeReply x0 x1 x2 x3 c) := by
  unfold Chip.probeReply
  split
  · exact h
  · refine Chip.holds_ite (fun p5 => ?_) (fun p5 => ?_)
    · exact h
    · refine Chip.holds_mk rfl rfl rfl rfl rfl rfl rfl rfl rfl rfl rfl rfl ?_
      exact h

theorem Chip.pathWrite_holds {x0 x1 x2} (h : Chip.Holds j c) : Chip.Holds j (Chip.pathWrite x0 x1 x2 c) := by
  unfold Chip.pathWrite
  extract_lets v0
  have w1 : Chip.Holds j v0 := by
    unfold v0
    split
    · extract_lets v6
      have w7 : Chip.Holds j v6 := by
        unfold v6
        refine Chip.set_holds ?_
        refine Chip.set_holds ?_
        exact h
      clear_value v6
      refine Chip.forAll_holds ?_ ?_
      · intro y8
        intro y9
        intro y10
        refine Chip.set_holds ?_
        exact y10
      · exact w7
    · refine Chip.holds_ite (fun p15 => ?_) (fun p15 => ?_)
      · refine Chip.setRoute_holds ?_
        exact h
      · exact h
  clear_value v0
  refine Chip.wwAlong_holds ?_
  exact w1

theorem Chip.wwPump_holds (h : Chip.Holds j c) : Chip.Holds j (Chip.wwPump c) := by
  unfold Chip.wwPump
  refine Chip.forAll_holds ?_ ?_
  · intro y0
    intro y1
    intro y2
    refine Chip.holds_ite (fun p3 => ?_) (fun p3 => ?_)
    · exact y2
    · extract_lets v4
      split
      · exact y2
      · rename_i z7 z8 z9
        have w10 : Chip.Holds j z8 := Chip.niIssue_holds (by
            exact y2
          ) _ z9
        refine Chip.holds_mk rfl rfl rfl rfl rfl rfl rfl rfl rfl rfl rfl rfl ?_
        exact w10
  · exact h

theorem Chip.proxy_holds {x0 x1 x2 x3} (h : Chip.Holds j c) : Chip.Holds j (Chip.proxy x0 x1 x2 x3 c) := by
  unfold Chip.proxy
  extract_lets v0 v1
  refine Chip.wwPump_holds ?_
  refine Chip.holds_mk rfl rfl rfl rfl rfl rfl rfl rfl rfl rfl rfl rfl ?_
  exact h

theorem Chip.proxyAnswer_holds {x0 x1 x2 x3 x4 x5 x6 x7 x8 x9 x10} (h : Chip.Holds j c) : Chip.Holds j (Chip.proxyAnswer x0 x1 x2 x3 x4 x5 x6 x7 x8 x9 x10 c) := by
  unfold Chip.proxyAnswer
  refine Chip.holds_ite (fun p0 => ?_) (fun p0 => ?_)
  · refine Chip.wwAlong_holds ?_
    exact h
  · refine Chip.inc_holds ?_
    exact h

theorem Chip.tick_holds (h : Chip.Holds j c) : Chip.Holds j (Chip.tick c) := by
  unfold Chip.tick
  refine Chip.holds_ite (fun p0 => ?_) (fun p0 => ?_)
  · refine Chip.set_holds ?_
    exact h
  · exact h

theorem Chip.tbFollow_holds {x0 x1} (h : Chip.Holds j c) : Chip.Holds j (Chip.tbFollow x0 x1 c) := by
  unfold Chip.tbFollow
  refine Chip.holds_ite (fun p0 => ?_) (fun p0 => ?_)
  · refine Chip.set_holds ?_
    exact h
  · extract_lets v1 v2
    have w3 : Chip.Holds j v1 := by
      unfold v1
      refine Chip.holds_ite (fun p4 => ?_) (fun p4 => ?_)
      · refine Chip.raise_holds ?_
        refine Chip.set_holds ?_
        exact h
      · exact h
    clear_value v1
    have w5 : Chip.Holds j v2 := by
      unfold v2
      refine Chip.set_holds ?_
      refine Chip.set_holds ?_
      exact w3
    clear_value v2
    refine Chip.set_holds ?_
    exact w5

theorem Chip.timeCode_holds {x0 x1 x2 x3} (h : Chip.Holds j c) : Chip.Holds j (Chip.timeCode x0 x1 x2 x3 c) := by
  unfold Chip.timeCode
  refine Chip.holds_ite (fun p0 => ?_) (fun p0 => ?_)
  · exact h
  · extract_lets v1 v2 v3
    have w4 : Chip.Holds j v2 := by
      unfold v2
      refine Chip.setWp_holds ?_
      exact h
    clear_value v2
    refine Chip.holds_ite (fun p5 => ?_) (fun p5 => ?_)
    · exact w4
    · refine Chip.holds_ite (fun p6 => ?_) (fun p6 => ?_)
      · exact w4
      · refine Chip.tbFollow_holds ?_
        exact w4

theorem Chip.syncIn_holds {x0} (h : Chip.Holds j c) : Chip.Holds j (Chip.syncIn x0 c) := by
  unfold Chip.syncIn
  refine Chip.holds_ite (fun p0 => ?_) (fun p0 => ?_)
  · exact h
  · extract_lets v1 v2 v3 v4
    refine Chip.tbFollow_holds ?_
    exact h

theorem Chip.tbLock_holds (h : Chip.Holds j c) : Chip.Holds j (Chip.tbLock c) := by
  unfold Chip.tbLock
  extract_lets v0
  refine Chip.holds_ite (fun p1 => ?_) (fun p1 => ?_)
  · exact h
  · refine Chip.raise_holds ?_
    refine Chip.set_holds ?_
    exact h

theorem Chip.tbLost_holds (h : Chip.Holds j c) : Chip.Holds j (Chip.tbLost c) := by
  unfold Chip.tbLost
  refine Chip.holds_ite (fun p0 => ?_) (fun p0 => ?_)
  · exact h
  · refine Chip.raise_holds ?_
    refine Chip.set_holds ?_
    exact h

theorem Chip.timeCodes_holds (h : Chip.Holds j c) : Chip.Holds j (Chip.timeCodes c) := by
  unfold Chip.timeCodes
  refine Chip.forAll_holds ?_ ?_
  · intro y0
    intro y1
    intro y2
    refine Chip.emit_holds ?_
    exact y2
  · exact h

theorem Chip.syncOut_holds (h : Chip.Holds j c) : Chip.Holds j (Chip.syncOut c) := by
  unfold Chip.syncOut
  extract_lets v0
  refine Chip.holds_ite (fun p1 => ?_) (fun p1 => ?_)
  · refine Chip.emit_holds ?_
    exact h
  · exact h

theorem Chip.holdAnn_holds {x0 x1 x2} (h : Chip.Holds j c) : Chip.Holds j (Chip.holdAnn x0 x1 x2 c) := by
  unfold Chip.holdAnn
  split
  · exact h
  · refine Chip.holds_ite (fun p5 => ?_) (fun p5 => ?_)
    · refine Chip.xgSendFault_holds ?_
      refine Chip.raise_holds ?_
      refine Chip.gangFault_holds ?_
      exact h
    · refine Chip.holds_mk rfl rfl rfl rfl rfl rfl rfl rfl rfl rfl rfl rfl ?_
      exact h

theorem Chip.xgFault_holds (h : Chip.Holds j c) : Chip.Holds j (Chip.xgFault c) := by
  unfold Chip.xgFault
  split
  · exact h
  · refine Chip.gangFault_holds ?_
    exact h

theorem Chip.routeWrite_holds {x0 x1 x2} (h : Chip.Holds j c) : Chip.Holds j (Chip.routeWrite x0 x1 x2 c).2 := by
  unfold Chip.routeWrite
  refine Chip.holds_ite_snd (fun p0 => ?_) (fun p0 => ?_)
  · refine Chip.holds_pair ?_
    exact h
  · refine Chip.holds_pair ?_
    refine Chip.setRoute_holds ?_
    exact h

theorem Chip.tbCtlWrite_holds {x0} (h : Chip.Holds j c) : Chip.Holds j (Chip.tbCtlWrite x0 c).2 := by
  unfold Chip.tbCtlWrite
  refine Chip.holds_ite_snd (fun p0 => ?_) (fun p0 => ?_)
  · refine Chip.holds_pair ?_
    exact h
  · refine Chip.holds_pair ?_
    refine Chip.set_holds ?_
    refine Chip.set_holds ?_
    refine Chip.set_holds ?_
    refine Chip.set_holds ?_
    exact h

theorem Chip.wpCtlWrite_holds {x0 x1} (h : Chip.Holds j c) : Chip.Holds j (Chip.wpCtlWrite x0 x1 c) := by
  unfold Chip.wpCtlWrite
  extract_lets v0
  have w1 : Chip.Holds j v0 := by
    unfold v0
    refine Chip.portEnable_holds ?_
    exact h
  clear_value v0
  refine Chip.holds_ite (fun p2 => ?_) (fun p2 => ?_)
  · refine Chip.portRetrain_holds ?_
    exact w1
  · exact w1

theorem Chip.wwCntClr_holds {x0} (h : Chip.Holds j c) : Chip.Holds j (Chip.wwCntClr x0 c) := by
  unfold Chip.wwCntClr
  refine Chip.holds_ite (fun p0 => ?_) (fun p0 => ?_)
  · refine Chip.clear_holds ?_
    exact h
  · exact h

theorem Chip.wpCntClr_holds {x0 x1} (h : Chip.Holds j c) : Chip.Holds j (Chip.wpCntClr x0 x1 c) := by
  unfold Chip.wpCntClr
  refine Chip.holds_ite (fun p0 => ?_) (fun p0 => ?_)
  · refine Chip.clear_holds ?_
    exact h
  · exact h

theorem cmdWwStatus_holds {x0 x1} (h : Chip.Holds j c) : Chip.Holds j (Cmd.run cmdWwStatus x0 x1 c) := by
  dsimp -zeta only [cmdWwStatus, Cmd.plain]
  refine Chip.ok_holds ?_
  exact h

theorem cmdWwDiscover_holds {x0 x1} (h : Chip.Holds j c) : Chip.Holds j (Cmd.run cmdWwDiscover x0 x1 c) := by
  dsimp -zeta only [cmdWwDiscover, Cmd.plain]
  dsimp only []
  refine Chip.holds_ite (fun p0 => ?_) (fun p0 => ?_)
  · refine Chip.fail_holds ?_
    exact h
  · refine Chip.discStart_holds ?_
    refine Chip.interim_holds ?_
    exact h

theorem cmdWwTopoRead_holds {x0 x1} (h : Chip.Holds j c) : Chip.Holds j (Cmd.run cmdWwTopoRead x0 x1 c) := by
  dsimp -zeta only [cmdWwTopoRead, Cmd.plain]
  dsimp only []
  refine Chip.ok_holds ?_
  exact h

theorem cmdWwRoute_holds {x0 x1} (h : Chip.Holds j c) : Chip.Holds j (Cmd.run cmdWwRoute x0 x1 c) := by
  dsimp -zeta only [cmdWwRoute, Cmd.plain]
  dsimp only []
  refine Chip.holds_ite (fun p0 => ?_) (fun p0 => ?_)
  · refine Chip.fail_holds ?_
    exact h
  · refine Chip.routeStart_holds ?_
    refine Chip.holds_ite (fun p1 => ?_) (fun p1 => ?_)
    · refine Chip.interim_holds ?_
      exact h
    · refine Chip.interim_holds ?_
      exact h

theorem cmdWwPort_holds {x0 x1} (h : Chip.Holds j c) : Chip.Holds j (Cmd.run cmdWwPort x0 x1 c) := by
  dsimp -zeta only [cmdWwPort, Cmd.plain]
  extract_lets v0
  refine Chip.holds_ite (fun p1 => ?_) (fun p1 => ?_)
  · refine Chip.fail_holds ?_
    exact h
  · refine Chip.holds_ite (fun p2 => ?_) (fun p2 => ?_)
    · refine Chip.ok_holds ?_
      refine Chip.portRetrain_holds ?_
      exact h
    · refine Chip.ok_holds ?_
      refine Chip.portEnable_holds ?_
      exact h

theorem cmdWwLaneTest_holds {x0 x1} (h : Chip.Holds j c) : Chip.Holds j (Cmd.run cmdWwLaneTest x0 x1 c) := by
  dsimp -zeta only [cmdWwLaneTest, Cmd.plain]
  extract_lets v0 v1
  refine Chip.holds_ite (fun p2 => ?_) (fun p2 => ?_)
  · refine Chip.fail_holds ?_
    exact h
  · refine Chip.holds_ite (fun p3 => ?_) (fun p3 => ?_)
    · refine Chip.fail_holds ?_
      exact h
    · refine Chip.holds_ite (fun p4 => ?_) (fun p4 => ?_)
      · refine Chip.fail_holds ?_
        exact h
      · refine Chip.holds_ite (fun p5 => ?_) (fun p5 => ?_)
        · refine Chip.fail_holds ?_
          exact h
        · refine Chip.laneOut_holds ?_
          refine Chip.interim_holds ?_
          exact h

end Sys2Proof.Machine
end

