-- ==== Sys2Proof/Laws/KeepDma.lean ====
section
/-! SUPPORT. Each operation of Machine/Dma.lean keeps the device sound and leaves its test access port. -/

namespace Sys2Proof.Machine

variable {j : Jtag} {c : Chip}

theorem Chip.setDm_holds {x0 x1} (h : Chip.Holds j c) : Chip.Holds j (Chip.setDm x0 x1 c) := by
  unfold Chip.setDm
  refine Chip.holds_mk rfl rfl rfl rfl rfl rfl rfl rfl rfl rfl rfl rfl ?_
  exact h

theorem Chip.dmaUnload_holds {x0} (h : Chip.Holds j c) : Chip.Holds j (Chip.dmaUnload x0 c) := by
  unfold Chip.dmaUnload
  refine Chip.holds_ite (fun p0 => ?_) (fun p0 => ?_)
  · refine Chip.set_holds ?_
    refine Chip.holds_mk rfl rfl rfl rfl rfl rfl rfl rfl rfl rfl rfl rfl ?_
    exact h
  · exact h

theorem Chip.dmaUnqueue_holds {x0} (h : Chip.Holds j c) : Chip.Holds j (Chip.dmaUnqueue x0 c) := by
  unfold Chip.dmaUnqueue
  refine Chip.holds_mk rfl rfl rfl rfl rfl rfl rfl rfl rfl rfl rfl rfl ?_
  exact h

theorem Chip.dmaWait_holds {x0 x1} (h : Chip.Holds j c) : Chip.Holds j (Chip.dmaWait x0 x1 c) := by
  unfold Chip.dmaWait
  extract_lets v0 v1
  have w2 : Chip.Holds j v0 := by
    unfold v0
    refine Chip.dmaUnqueue_holds ?_
    refine Chip.dmaUnload_holds ?_
    exact h
  clear_value v0
  refine Chip.set_holds ?_
  refine Chip.holds_mk rfl rfl rfl rfl rfl rfl rfl rfl rfl rfl rfl rfl ?_
  exact w2

theorem Chip.dmaReply_holds {x0 x1 x2 x3} (h : Chip.Holds j c) : Chip.Holds j (Chip.dmaReply x0 x1 x2 x3 c) := by
  unfold Chip.dmaReply
  refine Chip.forAll_holds ?_ ?_
  · intro y0
    intro y1
    intro y2
    refine Chip.fail_holds ?_
    exact y2
  · exact h

theorem Chip.dmaPausedNow_holds {x0} (h : Chip.Holds j c) : Chip.Holds j (Chip.dmaPausedNow x0 c) := by
  unfold Chip.dmaPausedNow
  extract_lets v0 v1 v2
  have w3 : Chip.Holds j v0 := by
    unfold v0
    refine Chip.raise_holds ?_
    refine Chip.set_holds ?_
    refine Chip.dmaUnqueue_holds ?_
    refine Chip.dmaUnload_holds ?_
    exact h
  clear_value v0
  have w4 : Chip.Holds j v1 := by
    unfold v1
    refine Chip.dmaReply_holds ?_
    refine Chip.dmaReply_holds ?_
    exact w3
  clear_value v1
  have w5 : Chip.Holds j v2 := by
    unfold v2
    refine Chip.setDm_holds ?_
    exact w4
  clear_value v2
  refine Chip.holds_ite (fun p6 => ?_) (fun p6 => ?_)
  · exact w5
  · refine Chip.dmaWait_holds ?_
    exact w5

theorem Chip.dmaQueue_holds {x0} (h : Chip.Holds j c) : Chip.Holds j (Chip.dmaQueue x0 c) := by
  unfold Chip.dmaQueue
  refine Chip.holds_ite (fun p0 => ?_) (fun p0 => ?_)
  · refine Chip.dmaPausedNow_holds ?_
    exact h
  · refine Chip.dmaWait_holds ?_
    exact h

theorem Chip.dmaIdleNow_holds {x0} (h : Chip.Holds j c) : Chip.Holds j (Chip.dmaIdleNow x0 c) := by
  unfold Chip.dmaIdleNow
  extract_lets v0 v1 v2 v3
  have w4 : Chip.Holds j v0 := by
    unfold v0
    refine Chip.set_holds ?_
    refine Chip.set_holds ?_
    refine Chip.dmaUnqueue_holds ?_
    refine Chip.dmaUnload_holds ?_
    exact h
  clear_value v0
  have w5 : Chip.Holds j v1 := by
    unfold v1
    refine Chip.set_holds ?_
    exact w4
  clear_value v1
  have w6 : Chip.Holds j v2 := by
    unfold v2
    refine Chip.dmaReply_holds ?_
    refine Chip.dmaReply_holds ?_
    exact w5
  clear_value v2
  have w7 : Chip.Holds j v3 := by
    unfold v3
    refine Chip.dmaReply_holds ?_
    exact w6
  clear_value v3
  refine Chip.setDm_holds ?_
  exact w7

theorem Chip.dmaDoneNow_holds {x0 x1} (h : Chip.Holds j c) : Chip.Holds j (Chip.dmaDoneNow x0 x1 c) := by
  unfold Chip.dmaDoneNow
  refine Chip.holds_ite (fun p0 => ?_) (fun p0 => ?_)
  · refine Chip.dmaIdleNow_holds ?_
    exact h
  · extract_lets v1 v2
    have w3 : Chip.Holds j v1 := by
      unfold v1
      refine Chip.set_holds ?_
      refine Chip.set_holds ?_
      refine Chip.dmaUnload_holds ?_
      exact h
    clear_value v1
    have w4 : Chip.Holds j v2 := by
      unfold v2
      refine Chip.dmaReply_holds ?_
      refine Chip.dmaReply_holds ?_
      exact w3
    clear_value v2
    refine Chip.setDm_holds ?_
    exact w4

theorem Chip.dmaErrorNow_holds {x0} (h : Chip.Holds j c) : Chip.Holds j (Chip.dmaErrorNow x0 c) := by
  unfold Chip.dmaErrorNow
  refine Chip.holds_ite (fun p0 => ?_) (fun p0 => ?_)
  · refine Chip.dmaIdleNow_holds ?_
    exact h
  · extract_lets v1 v2 v3 v4
    have w5 : Chip.Holds j v2 := by
      unfold v2
      refine Chip.set_holds ?_
      refine Chip.dmaUnload_holds ?_
      exact h
    clear_value v2
    have w6 : Chip.Holds j v3 := by
      unfold v3
      refine Chip.raise_holds ?_
      exact w5
    clear_value v3
    have w7 : Chip.Holds j v4 := by
      unfold v4
      refine Chip.dmaReply_holds ?_
      refine Chip.dmaReply_holds ?_
      exact w6
    clear_value v4
    refine Chip.setDm_holds ?_
    exact w7

theorem Chip.dmaBegin_holds {x0} (h : Chip.Holds j c) : Chip.Holds j (Chip.dmaBegin x0 c) := by
  unfold Chip.dmaBegin
  refine Chip.setDm_holds ?_
  exact h

theorem Chip.dmaPromote_holds {x0} (h : Chip.Holds j c) : Chip.Holds j (Chip.dmaPromote x0 c) := by
  unfold Chip.dmaPromote
  extract_lets v0 v1 v2 v3
  have w4 : Chip.Holds j v0 := by
    unfold v0
    refine Chip.set_holds ?_
    refine Chip.set_holds ?_
    exact h
  clear_value v0
  have w5 : Chip.Holds j v1 := by
    unfold v1
    refine Chip.set_holds ?_
    refine Chip.set_holds ?_
    exact w4
  clear_value v1
  have w6 : Chip.Holds j v2 := by
    unfold v2
    refine Chip.set_holds ?_
    refine Chip.set_holds ?_
    exact w5
  clear_value v2
  have w7 : Chip.Holds j v3 := by
    unfold v3
    refine Chip.set_holds ?_
    refine Chip.set_holds ?_
    refine Chip.set_holds ?_
    exact w6
  clear_value v3
  refine Chip.dmaQueue_holds ?_
  refine Chip.setDm_holds ?_
  exact w7

theorem Chip.dmaMoved_holds {x0 x1} (h : Chip.Holds j c) : Chip.Holds j (Chip.dmaMoved x0 x1 c) := by
  unfold Chip.dmaMoved
  extract_lets v0 v1 v2 v3 v4
  have w5 : Chip.Holds j v2 := by
    unfold v2
    refine Chip.set_holds ?_
    refine Chip.set_holds ?_
    exact h
  clear_value v2
  have w6 : Chip.Holds j v3 := by
    unfold v3
    refine Chip.set_holds ?_
    exact w5
  clear_value v3
  have w7 : Chip.Holds j v4 := by
    unfold v4
    refine Chip.holds_ite (fun p8 => ?_) (fun p8 => ?_)
    · refine Chip.set_holds ?_
      exact w6
    · exact w6
  clear_value v4
  refine Chip.setDm_holds ?_
  exact w7

theorem Chip.dmaAdvance_holds {x0} (h : Chip.Holds j c) : Chip.Holds j (Chip.dmaAdvance x0 c) := by
  unfold Chip.dmaAdvance
  extract_lets v0 v1
  refine Chip.holds_ite (fun p2 => ?_) (fun p2 => ?_)
  · exact h
  · refine Chip.setDm_holds ?_
    refine Chip.dmaMoved_holds ?_
    exact h

theorem Chip.dmaFail_holds {x0 x1 x2 x3} (h : Chip.Holds j c) : Chip.Holds j (Chip.dmaFail x0 x1 x2 x3 c) := by
  unfold Chip.dmaFail
  refine Chip.holds_ite (fun p0 => ?_) (fun p0 => ?_)
  · exact h
  · extract_lets v1 v2
    have w3 : Chip.Holds j v1 := by
      unfold v1
      refine Chip.set_holds ?_
      refine Chip.set_holds ?_
      exact h
    clear_value v1
    have w4 : Chip.Holds j v2 := by
      unfold v2
      refine Chip.set_holds ?_
      refine Chip.set_holds ?_
      exact w3
    clear_value v2
    refine Chip.setDm_holds ?_
    exact w4

theorem Chip.dmaErrFinish_holds {x0} (h : Chip.Holds j c) : Chip.Holds j (Chip.dmaErrFinish x0 c) := by
  unfold Chip.dmaErrFinish
  extract_lets v0
  refine Chip.holds_ite (fun p1 => ?_) (fun p1 => ?_)
  · refine Chip.setDm_holds ?_
    exact h
  · refine Chip.dmaErrorNow_holds ?_
    exact h

theorem Chip.dmaAbortFinish_holds {x0} (h : Chip.Holds j c) : Chip.Holds j (Chip.dmaAbortFinish x0 c) := by
  unfold Chip.dmaAbortFinish
  refine Chip.holds_ite (fun p0 => ?_) (fun p0 => ?_)
  · refine Chip.setDm_holds ?_
    exact h
  · refine Chip.dmaIdleNow_holds ?_
    exact h

theorem Chip.dmaFence_holds {x0} (h : Chip.Holds j c) : Chip.Holds j (Chip.dmaFence x0 c) := by
  unfold Chip.dmaFence
  extract_lets v0 v1 v2
  refine Chip.setDm_holds ?_
  exact h

theorem Chip.dmaStep_holds {x0} (h : Chip.Holds j c) : Chip.Holds j (Chip.dmaStep x0 c) := by
  unfold Chip.dmaStep
  extract_lets v0 v1 v2 v3
  have w4 : Chip.Holds j v3 := by
    unfold v3
    refine Chip.set_holds ?_
    refine Chip.dmaUnload_holds ?_
    exact h
  clear_value v3
  refine Chip.holds_ite (fun p5 => ?_) (fun p5 => ?_)
  · exact h
  · refine Chip.holds_ite (fun p6 => ?_) (fun p6 => ?_)
    · refine Chip.holds_ite (fun p7 => ?_) (fun p7 => ?_)
      · refine Chip.holds_ite (fun p8 => ?_) (fun p8 => ?_)
        · refine Chip.dmaErrFinish_holds ?_
          exact h
        · exact h
      · refine Chip.holds_ite (fun p9 => ?_) (fun p9 => ?_)
        · refine Chip.holds_ite (fun p10 => ?_) (fun p10 => ?_)
          · refine Chip.holds_ite (fun p11 => ?_) (fun p11 => ?_)
            · refine Chip.dmaAbortFinish_holds ?_
              exact h
            · refine Chip.holds_ite (fun p12 => ?_) (fun p12 => ?_)
              · refine Chip.dmaPausedNow_holds ?_
                exact h
              · refine Chip.holds_ite (fun p13 => ?_) (fun p13 => ?_)
                · refine Chip.holds_ite (fun p14 => ?_) (fun p14 => ?_)
                  · refine Chip.dmaQueue_holds ?_
                    exact w4
                  · exact w4
                · refine Chip.dmaQueue_holds ?_
                  exact h
          · exact h
        · refine Chip.holds_ite (fun p15 => ?_) (fun p15 => ?_)
          · refine Chip.holds_ite (fun p16 => ?_) (fun p16 => ?_)
            · refine Chip.dmaFence_holds ?_
              exact h
            · exact h
          · refine Chip.holds_ite (fun p17 => ?_) (fun p17 => ?_)
            · refine Chip.setDm_holds ?_
              exact h
            · exact h
    · refine Chip.holds_ite (fun p18 => ?_) (fun p18 => ?_)
      · exact h
      · refine Chip.holds_ite (fun p19 => ?_) (fun p19 => ?_)
        · refine Chip.dmaErrFinish_holds ?_
          exact h
        · refine Chip.holds_ite (fun p20 => ?_) (fun p20 => ?_)
          · refine Chip.holds_ite (fun p21 => ?_) (fun p21 => ?_)
            · refine Chip.dmaAbortFinish_holds ?_
              exact h
            · exact h
          · refine Chip.holds_ite (fun p22 => ?_) (fun p22 => ?_)
            · exact h
            · refine Chip.holds_ite (fun p23 => ?_) (fun p23 => ?_)
              · refine Chip.dmaIdleNow_holds ?_
                exact h
              · refine Chip.holds_ite (fun p24 => ?_) (fun p24 => ?_)
                · refine Chip.dmaPausedNow_holds ?_
                  exact h
                · refine Chip.holds_ite (fun p25 => ?_) (fun p25 => ?_)
                  · refine Chip.dmaPromote_holds ?_
                    exact h
                  · exact h

theorem Chip.dmaYield_holds {x0} (h : Chip.Holds j c) : Chip.Holds j (Chip.dmaYield x0 c) := by
  unfold Chip.dmaYield
  extract_lets v0 v1
  refine Chip.holds_ite (fun p2 => ?_) (fun p2 => ?_)
  · refine Chip.setDm_holds ?_
    exact h
  · exact h

theorem Chip.dmaLoad_holds {x0} (h : Chip.Holds j c) : Chip.Holds j (Chip.dmaLoad x0 c) := by
  unfold Chip.dmaLoad
  refine Chip.holds_ite (fun p0 => ?_) (fun p0 => ?_)
  · exact h
  · extract_lets v1 v2 v3 v4
    generalize v4 = u5
    split
    · exact h
    · extract_lets v9 v10 v11 v12 v13 v14 v15 v16
      have w17 : Chip.Holds j v9 := by
        unfold v9
        refine Chip.dmaUnqueue_holds ?_
        exact h
      have w18 : Chip.Holds j v11 := by
        unfold v11
        refine Chip.holds_mk rfl rfl rfl rfl rfl rfl rfl rfl rfl rfl rfl rfl ?_
        exact w17
      have w19 : Chip.Holds j v12 := by
        unfold v12
        refine Chip.set_holds ?_
        refine Chip.set_holds ?_
        exact w18
      have w20 : Chip.Holds j v13 := by
        unfold v13
        refine Chip.holds_ite (fun p21 => ?_) (fun p21 => ?_)
        · exact w19
        · refine Chip.set_holds ?_
          exact w19
      have w22 : Chip.Holds j v14 := by
        unfold v14
        refine Chip.setDm_holds ?_
        exact w20
      have w23 : Chip.Holds j v15 := by
        unfold v15
        refine Chip.holds_ite (fun p24 => ?_) (fun p24 => ?_)
        · refine Chip.dmaBegin_holds ?_
          exact w22
        · exact w22
      refine Chip.holds_ite (fun p25 => ?_) (fun p25 => ?_)
      · refine Chip.set_holds ?_
        refine Chip.dmaUnload_holds ?_
        exact w23
      · refine Chip.dmaStep_holds ?_
        exact w23

theorem Chip.dmaIssue_holds {x0 x1 x2 x3 x4 x5 x6 x7 x8 x9} (h : Chip.Holds j c) : Chip.Holds j (Chip.dmaIssue x0 x1 x2 x3 x4 x5 x6 x7 x8 x9 c) := by
  unfold Chip.dmaIssue
  extract_lets v0
  split
  · exact h
  · rename_i z3 z4 z5
    have w6 : Chip.Holds j z4 := Chip.niIssue_holds (by
        exact h
      ) _ z5
    refine Chip.setDm_holds ?_
    exact w6

theorem Chip.dmaRead_holds {x0 x1} (h : Chip.Holds j c) : Chip.Holds j (Chip.dmaRead x0 x1 c) := by
  unfold Chip.dmaRead
  extract_lets v0 v1 v2 v3 v4 v5
  refine Chip.holds_ite (fun p6 => ?_) (fun p6 => ?_)
  · exact h
  · refine Chip.holds_ite (fun p7 => ?_) (fun p7 => ?_)
    · exact h
    · refine Chip.holds_ite (fun p8 => ?_) (fun p8 => ?_)
      · refine Chip.dmaStep_holds ?_
        refine Chip.setDm_holds ?_
        exact h
      · refine Chip.dmaIssue_holds ?_
        exact h

theorem Chip.dmaWrite_holds {x0 x1} (h : Chip.Holds j c) : Chip.Holds j (Chip.dmaWrite x0 x1 c) := by
  unfold Chip.dmaWrite
  extract_lets v0
  split
  · exact h
  · refine Chip.holds_ite (fun p6 => ?_) (fun p6 => ?_)
    · exact h
    · refine Chip.dmaStep_holds ?_
      refine Chip.dmaIssue_holds ?_
      exact h

theorem Chip.dmaAsk_holds {x0 x1} (h : Chip.Holds j c) : Chip.Holds j (Chip.dmaAsk x0 x1 c) := by
  unfold Chip.dmaAsk
  split
  · exact h
  · extract_lets v5 v6 v7
    split
    · refine Chip.holds_ite (fun p10 => ?_) (fun p10 => ?_)
      · refine Chip.dmaWrite_holds ?_
        exact h
      · refine Chip.dmaRead_holds ?_
        exact h
    · refine Chip.holds_ite (fun p13 => ?_) (fun p13 => ?_)
      · exact h
      · refine Chip.dmaIssue_holds ?_
        exact h
    · refine Chip.holds_ite (fun p16 => ?_) (fun p16 => ?_)
      · exact h
      · refine Chip.dmaIssue_holds ?_
        exact h
    · refine Chip.holds_ite (fun p19 => ?_) (fun p19 => ?_)
      · exact h
      · refine Chip.dmaIssue_holds ?_
        exact h
    · refine Chip.holds_ite (fun p22 => ?_) (fun p22 => ?_)
      · exact h
      · refine Chip.dmaIssue_holds ?_
        exact h
    · exact h

theorem Chip.dmaAllMoved_holds {x0} (h : Chip.Holds j c) : Chip.Holds j (Chip.dmaAllMoved x0 c) := by
  unfold Chip.dmaAllMoved
  extract_lets v0
  refine Chip.setDm_holds ?_
  refine Chip.holds_ite (fun p1 => ?_) (fun p1 => ?_)
  · exact h
  · refine Chip.dmaMoved_holds ?_
    exact h

theorem Chip.dmaFollow_holds {x0} (h : Chip.Holds j c) : Chip.Holds j (Chip.dmaFollow x0 c) := by
  unfold Chip.dmaFollow
  refine Chip.dmaStep_holds ?_
  refine Chip.setDm_holds ?_
  exact h

theorem Chip.dmaComplete_holds {x0} (h : Chip.Holds j c) : Chip.Holds j (Chip.dmaComplete x0 c) := by
  unfold Chip.dmaComplete
  extract_lets v0 v1 v2
  have w3 : Chip.Holds j v1 := by
    unfold v1
    refine Chip.dmaAllMoved_holds ?_
    exact h
  clear_value v1
  have w4 : Chip.Holds j v2 := by
    unfold v2
    refine Chip.raiseIf_holds ?_
    exact w3
  clear_value v2
  refine Chip.holds_ite (fun p5 => ?_) (fun p5 => ?_)
  · exact h
  · refine Chip.holds_ite (fun p6 => ?_) (fun p6 => ?_)
    · refine Chip.setDm_holds ?_
      exact w3
    · refine Chip.holds_ite (fun p7 => ?_) (fun p7 => ?_)
      · refine Chip.dmaFollow_holds ?_
        exact w4
      · refine Chip.holds_ite (fun p8 => ?_) (fun p8 => ?_)
        · refine Chip.dmaStep_holds ?_
          refine Chip.setDm_holds ?_
          exact w4
        · refine Chip.dmaDoneNow_holds ?_
          exact w4

theorem Chip.dmaStatusDone_holds {x0 x1 x2} (h : Chip.Holds j c) : Chip.Holds j (Chip.dmaStatusDone x0 x1 x2 c) := by
  unfold Chip.dmaStatusDone
  extract_lets v0 v1
  have w2 : Chip.Holds j v1 := by
    unfold v1
    refine Chip.raiseIf_holds ?_
    exact h
  clear_value v1
  refine Chip.holds_ite (fun p3 => ?_) (fun p3 => ?_)
  · refine Chip.dmaErrorNow_holds ?_
    exact h
  · refine Chip.holds_ite (fun p4 => ?_) (fun p4 => ?_)
    · refine Chip.dmaIdleNow_holds ?_
      exact h
    · refine Chip.holds_ite (fun p5 => ?_) (fun p5 => ?_)
      · refine Chip.dmaStep_holds ?_
        refine Chip.dmaFail_holds ?_
        exact h
      · refine Chip.holds_ite (fun p6 => ?_) (fun p6 => ?_)
        · refine Chip.dmaFollow_holds ?_
          exact w2
        · refine Chip.dmaStep_holds ?_
          refine Chip.setDm_holds ?_
          exact w2

theorem Chip.dmaFetched_holds {x0 x1 x2} (h : Chip.Holds j c) : Chip.Holds j (Chip.dmaFetched x0 x1 x2 c) := by
  unfold Chip.dmaFetched
  extract_lets v0 v1 v2 v3 v4 v5 v6 v7 v8
  have w9 : Chip.Holds j v6 := by
    unfold v6
    refine Chip.set_holds ?_
    refine Chip.set_holds ?_
    refine Chip.set_holds ?_
    exact h
  clear_value v6
  have w10 : Chip.Holds j v7 := by
    unfold v7
    refine Chip.set_holds ?_
    refine Chip.set_holds ?_
    refine Chip.set_holds ?_
    exact w9
  clear_value v7
  have w11 : Chip.Holds j v8 := by
    unfold v8
    refine Chip.set_holds ?_
    refine Chip.set_holds ?_
    exact w10
  clear_value v8
  refine Chip.holds_ite (fun p12 => ?_) (fun p12 => ?_)
  · refine Chip.dmaStep_holds ?_
    refine Chip.dmaBegin_holds ?_
    refine Chip.setDm_holds ?_
    exact w11
  · refine Chip.dmaStep_holds ?_
    refine Chip.dmaFail_holds ?_
    exact h

theorem Chip.dmaReread_holds {x0 x1} (h : Chip.Holds j c) : Chip.Holds j (Chip.dmaReread x0 x1 c) := by
  unfold Chip.dmaReread
  extract_lets v0 v1
  have w2 : Chip.Holds j v1 := by
    unfold v1
    refine Chip.set_holds ?_
    refine Chip.set_holds ?_
    exact h
  clear_value v1
  refine Chip.holds_ite (fun p3 => ?_) (fun p3 => ?_)
  · refine Chip.dmaFollow_holds ?_
    exact w2
  · refine Chip.dmaDoneNow_holds ?_
    exact h

theorem Chip.dmaStatReply_holds {x0} (h : Chip.Holds j c) : Chip.Holds j (Chip.dmaStatReply x0 c) := by
  unfold Chip.dmaStatReply
  refine Chip.holds_ite (fun p0 => ?_) (fun p0 => ?_)
  · exact h
  · extract_lets v1 v2
    have w3 : Chip.Holds j v1 := by
      unfold v1
      refine Chip.forAll_holds ?_ ?_
      · intro y4
        intro y5
        intro y6
        refine Chip.ok_holds ?_
        exact y6
      · exact h
    clear_value v1
    have w7 : Chip.Holds j v2 := by
      unfold v2
      refine Chip.forAll_holds ?_ ?_
      · intro y8
        intro y9
        intro y10
        refine Chip.answer_holds ?_
        exact y10
      · exact w3
    clear_value v2
    refine Chip.setDm_holds ?_
    exact w7

theorem Chip.dmaDropRetry_holds {x0} (h : Chip.Holds j c) : Chip.Holds j (Chip.dmaDropRetry x0 c) := by
  unfold Chip.dmaDropRetry
  extract_lets v0 v1 v2
  have w3 : Chip.Holds j v2 := by
    unfold v2
    refine Chip.forAll_holds ?_ ?_
    · intro y4
      intro y5
      intro y6
      split
      · refine Chip.setDm_holds ?_
        exact y6
      · exact y6
    · exact h
  clear_value v2
  refine Chip.setDm_holds ?_
  exact w3

theorem Chip.dmaResp_holds {x0 x1 x2 x3 x4 x5 x6} (h : Chip.Holds j c) : Chip.Holds j (Chip.dmaResp x0 x1 x2 x3 x4 x5 x6 c) := by
  unfold Chip.dmaResp
  extract_lets v0 v1 v2 v3 v4 v5 v6 v7
  have w8 : Chip.Holds j v4 := by
    unfold v4
    refine Chip.set_holds ?_
    refine Chip.inc_holds ?_
    exact h
  clear_value v4
  have w9 : Chip.Holds j v5 := by
    unfold v5
    refine Chip.setDm_holds ?_
    exact w8
  clear_value v5
  have w10 : Chip.Holds j v6 := by
    unfold v6
    refine Chip.setDm_holds ?_
    exact h
  clear_value v6
  have w11 : Chip.Holds j v7 := by
    unfold v7
    refine Chip.holds_ite (fun p12 => ?_) (fun p12 => ?_)
    · refine Chip.holds_ite (fun p13 => ?_) (fun p13 => ?_)
      · refine Chip.dmaDropRetry_holds ?_
        exact w9
      · exact w9
    · refine Chip.holds_ite (fun p14 => ?_) (fun p14 => ?_)
      · refine Chip.holds_ite (fun p15 => ?_) (fun p15 => ?_)
        · refine Chip.raise_holds ?_
          refine Chip.set_holds ?_
          exact h
        · exact h
      · generalize v2 = u16
        split
        · refine Chip.holds_ite (fun p18 => ?_) (fun p18 => ?_)
          · refine Chip.dmaFail_holds ?_
            refine Chip.setDm_holds ?_
            exact h
          · refine Chip.holds_ite (fun p19 => ?_) (fun p19 => ?_)
            · refine Chip.setDm_holds ?_
              exact h
            · refine Chip.setDm_holds ?_
              exact h
        · refine Chip.holds_ite (fun p21 => ?_) (fun p21 => ?_)
          · refine Chip.dmaFail_holds ?_
            refine Chip.setDm_holds ?_
            exact h
          · refine Chip.dmaYield_holds ?_
            refine Chip.dmaAdvance_holds ?_
            refine Chip.setDm_holds ?_
            exact h
        · refine Chip.holds_ite (fun p23 => ?_) (fun p23 => ?_)
          · refine Chip.dmaFail_holds ?_
            exact w10
          · refine Chip.dmaFetched_holds ?_
            exact w10
        · refine Chip.dmaStatusDone_holds ?_
          refine Chip.setDm_holds ?_
          exact h
        · refine Chip.holds_ite (fun p26 => ?_) (fun p26 => ?_)
          · refine Chip.dmaFail_holds ?_
            exact w10
          · refine Chip.setDm_holds ?_
            exact w10
        · refine Chip.holds_ite (fun p33 => ?_) (fun p33 => ?_)
          · refine Chip.dmaFail_holds ?_
            exact w10
          · refine Chip.dmaReread_holds ?_
            exact w10
  clear_value v7
  refine Chip.dmaStatReply_holds ?_
  refine Chip.dmaStep_holds ?_
  exact w11

theorem Chip.dmaRetry_holds {x0} (h : Chip.Holds j c) : Chip.Holds j (Chip.dmaRetry x0 c) := by
  unfold Chip.dmaRetry
  refine Chip.forAll_holds ?_ ?_
  · intro y0
    intro y1
    intro y2
    extract_lets v3
    split
    · exact y2
    · rename_i z6 z7 z8
      have w9 : Chip.Holds j z7 := Chip.niIssue_holds (by
          exact y2
        ) _ z8
      refine Chip.setDm_holds ?_
      exact w9
  · exact h

theorem Chip.dmaGo_holds {x0} (h : Chip.Holds j c) : Chip.Holds j (Chip.dmaGo x0 c) := by
  unfold Chip.dmaGo
  refine Chip.holds_ite (fun p0 => ?_) (fun p0 => ?_)
  · extract_lets v1
    have w2 : Chip.Holds j v1 := by
      unfold v1
      refine Chip.set_holds ?_
      refine Chip.set_holds ?_
      exact h
    clear_value v1
    refine Chip.dmaQueue_holds ?_
    refine Chip.setDm_holds ?_
    exact w2
  · refine Chip.holds_ite (fun p3 => ?_) (fun p3 => ?_)
    · refine Chip.dmaQueue_holds ?_
      refine Chip.setDm_holds ?_
      refine Chip.set_holds ?_
      exact h
    · refine Chip.holds_ite (fun p4 => ?_) (fun p4 => ?_)
      · refine Chip.dmaQueue_holds ?_
        refine Chip.setDm_holds ?_
        exact h
      · exact h

theorem Chip.dmaArm_holds {x0} (h : Chip.Holds j c) : Chip.Holds j (Chip.dmaArm x0 c) := by
  unfold Chip.dmaArm
  extract_lets v0
  have w1 : Chip.Holds j v0 := by
    unfold v0
    refine Chip.set_holds ?_
    exact h
  clear_value v0
  refine Chip.holds_ite (fun p2 => ?_) (fun p2 => ?_)
  · refine Chip.dmaPromote_holds ?_
    exact w1
  · exact w1

theorem Chip.dmaClose_holds {x0} (h : Chip.Holds j c) : Chip.Holds j (Chip.dmaClose x0 c) := by
  unfold Chip.dmaClose
  refine Chip.holds_ite (fun p0 => ?_) (fun p0 => ?_)
  · extract_lets v1
    have w2 : Chip.Holds j v1 := by
      unfold v1
      refine Chip.set_holds ?_
      exact h
    clear_value v1
    refine Chip.holds_ite (fun p3 => ?_) (fun p3 => ?_)
    · refine Chip.dmaPromote_holds ?_
      exact w2
    · exact w2
  · exact h

theorem Chip.dmaPause_holds {x0} (h : Chip.Holds j c) : Chip.Holds j (Chip.dmaPause x0 c) := by
  unfold Chip.dmaPause
  extract_lets v0 v1
  have w2 : Chip.Holds j v0 := by
    unfold v0
    refine Chip.set_holds ?_
    exact h
  clear_value v0
  refine Chip.holds_ite (fun p3 => ?_) (fun p3 => ?_)
  · refine Chip.dmaPausedNow_holds ?_
    exact w2
  · refine Chip.holds_ite (fun p4 => ?_) (fun p4 => ?_)
    · refine Chip.dmaStatReply_holds ?_
      refine Chip.dmaStep_holds ?_
      refine Chip.dmaDropRetry_holds ?_
      refine Chip.set_holds ?_
      exact w2
    · exact w2

theorem Chip.dmaResume_holds {x0} (h : Chip.Holds j c) : Chip.Holds j (Chip.dmaResume x0 c) := by
  unfold Chip.dmaResume
  extract_lets v0
  have w1 : Chip.Holds j v0 := by
    unfold v0
    refine Chip.set_holds ?_
    exact h
  clear_value v0
  refine Chip.holds_ite (fun p2 => ?_) (fun p2 => ?_)
  · refine Chip.dmaWait_holds ?_
    exact w1
  · exact w1

theorem Chip.dmaAbort_holds {x0} (h : Chip.Holds j c) : Chip.Holds j (Chip.dmaAbort x0 c) := by
  unfold Chip.dmaAbort
  extract_lets v0 v1
  refine Chip.holds_ite (fun p2 => ?_) (fun p2 => ?_)
  · refine Chip.dmaStatReply_holds ?_
    refine Chip.dmaStep_holds ?_
    refine Chip.dmaDropRetry_holds ?_
    refine Chip.set_holds ?_
    exact h
  · refine Chip.holds_ite (fun p3 => ?_) (fun p3 => ?_)
    · exact h
    · refine Chip.holds_ite (fun p4 => ?_) (fun p4 => ?_)
      · refine Chip.dmaWait_holds ?_
        refine Chip.setDm_holds ?_
        exact h
      · refine Chip.dmaIdleNow_holds ?_
        exact h

theorem Chip.dmaCmdWrite_holds {x0 x1} (h : Chip.Holds j c) : Chip.Holds j (Chip.dmaCmdWrite x0 x1 c).2 := by
  unfold Chip.dmaCmdWrite
  extract_lets v0 v1 v2 v3 v4
  have w5 : Chip.Holds j v1 := by
    unfold v1
    refine Chip.holds_ite (fun p6 => ?_) (fun p6 => ?_)
    · refine Chip.holds_ite (fun p7 => ?_) (fun p7 => ?_)
      · exact h
      · refine Chip.dmaPause_holds ?_
        exact h
    · refine Chip.holds_ite (fun p8 => ?_) (fun p8 => ?_)
      · refine Chip.dmaResume_holds ?_
        exact h
      · exact h
  clear_value v1
  have w9 : Chip.Holds j v2 := by
    unfold v2
    refine Chip.holds_ite (fun p10 => ?_) (fun p10 => ?_)
    · refine Chip.dmaClose_holds ?_
      exact w5
    · exact w5
  clear_value v2
  have w11 : Chip.Holds j v3 := by
    unfold v3
    refine Chip.holds_ite (fun p12 => ?_) (fun p12 => ?_)
    · refine Chip.dmaGo_holds ?_
      exact w9
    · exact w9
  clear_value v3
  have w13 : Chip.Holds j v4 := by
    unfold v4
    refine Chip.holds_ite (fun p14 => ?_) (fun p14 => ?_)
    · refine Chip.dmaArm_holds ?_
      exact w11
    · exact w11
  clear_value v4
  refine Chip.holds_ite_snd (fun p15 => ?_) (fun p15 => ?_)
  · refine Chip.holds_pair ?_
    exact h
  · refine Chip.holds_pair ?_
    refine Chip.holds_ite (fun p16 => ?_) (fun p16 => ?_)
    · refine Chip.set_holds ?_
      exact w13
    · exact w13

theorem Chip.dmaRegWrite_holds {x0 x1 x2} (h : Chip.Holds j c) : Chip.Holds j (Chip.dmaRegWrite x0 x1 x2 c).2 := by
  unfold Chip.dmaRegWrite
  extract_lets v0 v1 v2 v3
  split
  · unfold v2
    refine Chip.holds_ite_snd (fun p5 => ?_) (fun p5 => ?_)
    · refine Chip.holds_pair ?_
      refine Chip.set_holds ?_
      exact h
    · refine Chip.holds_pair ?_
      exact h
  · unfold v2
    refine Chip.holds_ite_snd (fun p7 => ?_) (fun p7 => ?_)
    · refine Chip.holds_pair ?_
      refine Chip.set_holds ?_
      exact h
    · refine Chip.holds_pair ?_
      exact h
  · unfold v2
    refine Chip.holds_ite_snd (fun p9 => ?_) (fun p9 => ?_)
    · refine Chip.holds_pair ?_
      refine Chip.set_holds ?_
      exact h
    · refine Chip.holds_pair ?_
      exact h
  · unfold v2
    refine Chip.holds_ite_snd (fun p11 => ?_) (fun p11 => ?_)
    · refine Chip.holds_pair ?_
      refine Chip.set_holds ?_
      exact h
    · refine Chip.holds_pair ?_
      exact h
  · unfold v2
    refine Chip.holds_ite_snd (fun p13 => ?_) (fun p13 => ?_)
    · refine Chip.holds_pair ?_
      refine Chip.set_holds ?_
      exact h
    · refine Chip.holds_pair ?_
      exact h
  · unfold v2
    refine Chip.holds_ite_snd (fun p15 => ?_) (fun p15 => ?_)
    · refine Chip.holds_pair ?_
      refine Chip.set_holds ?_
      exact h
    · refine Chip.holds_pair ?_
      exact h
  · refine Chip.dmaCmdWrite_holds ?_
    exact h
  · refine Chip.holds_pair ?_
    refine Chip.writeFlds_holds ?_
    exact h
  · unfold v3
    refine Chip.holds_ite_snd (fun p19 => ?_) (fun p19 => ?_)
    · refine Chip.holds_pair ?_
      exact h
    · refine Chip.holds_pair ?_
      refine Chip.set_holds ?_
      exact h
  · unfold v3
    refine Chip.holds_ite_snd (fun p21 => ?_) (fun p21 => ?_)
    · refine Chip.holds_pair ?_
      exact h
    · refine Chip.holds_pair ?_
      refine Chip.set_holds ?_
      exact h
  · unfold v3
    refine Chip.holds_ite_snd (fun p23 => ?_) (fun p23 => ?_)
    · refine Chip.holds_pair ?_
      exact h
    · refine Chip.holds_pair ?_
      refine Chip.set_holds ?_
      exact h
  · unfold v3
    refine Chip.holds_ite_snd (fun p25 => ?_) (fun p25 => ?_)
    · refine Chip.holds_pair ?_
      exact h
    · refine Chip.holds_pair ?_
      refine Chip.set_holds ?_
      exact h
  · unfold v3
    refine Chip.holds_ite_snd (fun p27 => ?_) (fun p27 => ?_)
    · refine Chip.holds_pair ?_
      exact h
    · refine Chip.holds_pair ?_
      refine Chip.set_holds ?_
      exact h
  · refine Chip.holds_ite_snd (fun p29 => ?_) (fun p29 => ?_)
    · refine Chip.holds_pair ?_
      exact h
    · refine Chip.holds_pair ?_
      refine Chip.set_holds ?_
      refine Chip.set_holds ?_
      refine Chip.set_holds ?_
      exact h
  · refine Chip.holds_pair ?_
    exact h

theorem Chip.dmaRise_holds {x0} (h : Chip.Holds j c) : Chip.Holds j (Chip.dmaRise x0 c) := by
  unfold Chip.dmaRise
  refine Chip.holds_ite (fun p0 => ?_) (fun p0 => ?_)
  · refine Chip.dmaQueue_holds ?_
    exact h
  · exact h

theorem Chip.dmaDreq_holds {x0 x1} (h : Chip.Holds j c) : Chip.Holds j (Chip.dmaDreq x0 x1 c) := by
  unfold Chip.dmaDreq
  refine Chip.dmaRise_holds ?_
  refine Chip.set_holds ?_
  exact h

theorem Chip.dmaLong_holds {x0} (h : Chip.Holds j c) : Chip.Holds j (Chip.dmaLong x0 c) := by
  unfold Chip.dmaLong
  refine Chip.holds_ite (fun p0 => ?_) (fun p0 => ?_)
  · refine Chip.setDm_holds ?_
    refine Chip.set_holds ?_
    exact h
  · exact h

theorem Chip.dmaReset_holds {x0} (h : Chip.Holds j c) : Chip.Holds j (Chip.dmaReset x0 c) := by
  unfold Chip.dmaReset
  extract_lets v0 v1 v2 v3 v4 v5 v6
  have w7 : Chip.Holds j v1 := by
    unfold v1
    refine Chip.forAll_holds ?_ ?_
    · intro y8
      intro y9
      intro y10
      refine Chip.outCancel_holds ?_
      exact y10
    · exact h
  clear_value v1
  have w11 : Chip.Holds j v2 := by
    unfold v2
    refine Chip.forAll_holds ?_ ?_
    · intro y12
      intro y13
      intro y14
      refine Chip.dmaReply_holds ?_
      exact y14
    · exact w7
  clear_value v2
  have w15 : Chip.Holds j v3 := by
    unfold v3
    refine Chip.forAll_holds ?_ ?_
    · intro y16
      intro y17
      intro y18
      refine Chip.answer_holds ?_
      exact y18
    · exact w11
  clear_value v3
  have w19 : Chip.Holds j v4 := by
    unfold v4
    refine Chip.dmaUnqueue_holds ?_
    refine Chip.dmaUnload_holds ?_
    exact w15
  clear_value v4
  have w20 : Chip.Holds j v5 := by
    unfold v5
    refine Chip.resetRange_holds ?_
    exact w19
  clear_value v5
  refine Chip.dmaDreq_holds ?_
  refine Chip.holds_mk rfl rfl rfl rfl rfl rfl rfl rfl rfl rfl rfl rfl ?_
  exact w20

theorem cmdDmaStatus_holds {x0 x1} (h : Chip.Holds j c) : Chip.Holds j (Cmd.run cmdDmaStatus x0 x1 c) := by
  dsimp -zeta only [cmdDmaStatus, Cmd.plain]
  extract_lets v0
  refine Chip.holds_ite (fun p1 => ?_) (fun p1 => ?_)
  · refine Chip.setDm_holds ?_
    exact h
  · refine Chip.ok_holds ?_
    exact h

theorem cmdDmaStart_holds {x0 x1} (h : Chip.Holds j c) : Chip.Holds j (Cmd.run cmdDmaStart x0 x1 c) := by
  dsimp -zeta only [cmdDmaStart, Cmd.plain]
  extract_lets v0 v1 v2
  have w3 : Chip.Holds j v1 := by
    unfold v1
    refine Chip.set_holds ?_
    refine Chip.set_holds ?_
    refine Chip.set_holds ?_
    exact h
  clear_value v1
  have w4 : Chip.Holds j v2 := by
    unfold v2
    refine Chip.set_holds ?_
    refine Chip.set_holds ?_
    exact w3
  clear_value v2
  refine Chip.holds_ite (fun p5 => ?_) (fun p5 => ?_)
  · refine Chip.fail_holds ?_
    exact h
  · refine Chip.holds_ite (fun p6 => ?_) (fun p6 => ?_)
    · refine Chip.ok_holds ?_
      refine Chip.dmaGo_holds ?_
      exact w4
    · refine Chip.dmaGo_holds ?_
      refine Chip.setDm_holds ?_
      refine Chip.interim_holds ?_
      exact w4

theorem cmdDmaArm_holds {x0 x1} (h : Chip.Holds j c) : Chip.Holds j (Cmd.run cmdDmaArm x0 x1 c) := by
  dsimp -zeta only [cmdDmaArm, Cmd.plain]
  extract_lets v0 v1 v2
  have w3 : Chip.Holds j v1 := by
    unfold v1
    refine Chip.set_holds ?_
    refine Chip.set_holds ?_
    refine Chip.set_holds ?_
    exact h
  clear_value v1
  have w4 : Chip.Holds j v2 := by
    unfold v2
    refine Chip.set_holds ?_
    refine Chip.set_holds ?_
    exact w3
  clear_value v2
  refine Chip.holds_ite (fun p5 => ?_) (fun p5 => ?_)
  · refine Chip.fail_holds ?_
    exact h
  · refine Chip.ok_holds ?_
    refine Chip.dmaArm_holds ?_
    exact w4

theorem cmdDmaPause_holds {x0 x1} (h : Chip.Holds j c) : Chip.Holds j (Cmd.run cmdDmaPause x0 x1 c) := by
  dsimp -zeta only [cmdDmaPause, Cmd.plain]
  extract_lets v0 v1
  refine Chip.holds_ite (fun p2 => ?_) (fun p2 => ?_)
  · refine Chip.ok_holds ?_
    exact h
  · refine Chip.holds_ite (fun p3 => ?_) (fun p3 => ?_)
    · refine Chip.fail_holds ?_
      exact h
    · refine Chip.dmaPause_holds ?_
      refine Chip.setDm_holds ?_
      refine Chip.interim_holds ?_
      exact h

theorem cmdDmaResume_holds {x0 x1} (h : Chip.Holds j c) : Chip.Holds j (Cmd.run cmdDmaResume x0 x1 c) := by
  dsimp -zeta only [cmdDmaResume, Cmd.plain]
  extract_lets v0
  refine Chip.holds_ite (fun p1 => ?_) (fun p1 => ?_)
  · refine Chip.ok_holds ?_
    refine Chip.dmaResume_holds ?_
    exact h
  · refine Chip.fail_holds ?_
    exact h

theorem cmdDmaAbort_holds {x0 x1} (h : Chip.Holds j c) : Chip.Holds j (Cmd.run cmdDmaAbort x0 x1 c) := by
  dsimp -zeta only [cmdDmaAbort, Cmd.plain]
  extract_lets v0
  refine Chip.holds_ite (fun p1 => ?_) (fun p1 => ?_)
  · refine Chip.ok_holds ?_
    exact h
  · refine Chip.dmaAbort_holds ?_
    refine Chip.setDm_holds ?_
    refine Chip.interim_holds ?_
    exact h

end Sys2Proof.Machine
end

