-- ==== Sys2Proof/Laws/KeepThermal.lean ====
section
/-! SUPPORT. Each operation of Machine/Thermal.lean keeps the device sound and leaves its test access port. -/

namespace Sys2Proof.Machine

variable {j : Jtag} {c : Chip}

theorem Chip.setSensor_holds {x0 x1} (h : Chip.Holds j c) : Chip.Holds j (Chip.setSensor x0 x1 c) := by
  unfold Chip.setSensor
  refine Chip.holds_mk rfl rfl rfl rfl rfl rfl rfl rfl rfl rfl rfl rfl ?_
  exact h

theorem Chip.thShow_holds {x0} (h : Chip.Holds j c) : Chip.Holds j (Chip.thShow x0 c) := by
  unfold Chip.thShow
  extract_lets v0 v1 v2
  have w3 : Chip.Holds j v0 := by
    unfold v0
    refine Chip.forAll_holds ?_ ?_
    · intro y4
      intro y5
      intro y6
      refine Chip.set_holds ?_
      exact y6
    · exact h
  clear_value v0
  have w7 : Chip.Holds j v1 := by
    unfold v1
    refine Chip.forAll_holds ?_ ?_
    · intro y8
      intro y9
      intro y10
      extract_lets v11
      have w12 : Chip.Holds j v11 := by
        unfold v11
        refine Chip.set_holds ?_
        exact y10
      clear_value v11
      refine Chip.set_holds ?_
      exact w12
    · exact w3
  clear_value v1
  have w13 : Chip.Holds j v2 := by
    unfold v2
    refine Chip.forAll_holds ?_ ?_
    · intro y14
      intro y15
      intro y16
      refine Chip.set_holds ?_
      exact y16
    · exact w7
  clear_value v2
  refine Chip.set_holds ?_
  exact w13

theorem Chip.thWarn_holds {x0} (h : Chip.Holds j c) : Chip.Holds j (Chip.thWarn x0 c) := by
  unfold Chip.thWarn
  extract_lets v0
  refine Chip.holds_ite (fun p1 => ?_) (fun p1 => ?_)
  · refine Chip.holds_ite (fun p2 => ?_) (fun p2 => ?_)
    · refine Chip.raise_holds ?_
      refine Chip.set_holds ?_
      exact h
    · exact h
  · refine Chip.holds_ite (fun p3 => ?_) (fun p3 => ?_)
    · refine Chip.set_holds ?_
      exact h
    · exact h

theorem Chip.thDram_holds (h : Chip.Holds j c) : Chip.Holds j (Chip.thDram c) := by
  unfold Chip.thDram
  extract_lets v0 v1 v2 v3
  have w4 : Chip.Holds j v2 := by
    unfold v2
    refine Chip.holds_mk rfl rfl rfl rfl rfl rfl rfl rfl rfl rfl rfl rfl ?_
    exact h
  have w5 : Chip.Holds j v3 := by
    unfold v3
    refine Chip.holds_ite (fun p6 => ?_) (fun p6 => ?_)
    · refine Chip.drHotEntry_holds ?_
      exact w4
    · refine Chip.holds_ite (fun p7 => ?_) (fun p7 => ?_)
      · refine Chip.drNormal_holds ?_
        exact w4
      · exact w4
  clear_value v3
  refine Chip.forAll_holds ?_ ?_
  · intro y8
    intro y9
    intro y10
    split
    · refine Chip.holds_ite (fun p14 => ?_) (fun p14 => ?_)
      · refine Chip.drMoved_holds ?_
        exact y10
      · exact y10
    · exact y10
  · exact w5

theorem Chip.thRate_holds {x0} (h : Chip.Holds j c) : Chip.Holds j (Chip.thRate x0 c) := by
  unfold Chip.thRate
  extract_lets v0 v1 v2 v3 v4 v5 v6
  have w7 : Chip.Holds j v3 := by
    unfold v3
    refine Chip.set_holds ?_
    exact h
  clear_value v3
  have w8 : Chip.Holds j v6 := by
    unfold v6
    refine Chip.setSensor_holds ?_
    exact w7
  clear_value v6
  refine Chip.holds_ite (fun p9 => ?_) (fun p9 => ?_)
  · refine Chip.flagEvent_holds ?_
    exact w8
  · exact w8

theorem Chip.thCheck_holds {x0 x1 x2 x3} (h : Chip.Holds j c) : Chip.Holds j (Chip.thCheck x0 x1 x2 x3 c) := by
  unfold Chip.thCheck
  extract_lets v0 v1 v2 v3
  have w4 : Chip.Holds j v0 := by
    unfold v0
    refine Chip.setSensor_holds ?_
    exact h
  clear_value v0
  have w5 : Chip.Holds j v3 := by
    unfold v3
    refine Chip.set_holds ?_
    refine Chip.set_holds ?_
    refine Chip.set_holds ?_
    exact w4
  clear_value v3
  refine Chip.holds_ite (fun p6 => ?_) (fun p6 => ?_)
  · exact w4
  · refine Chip.raise_holds ?_
    refine Chip.setSensor_holds ?_
    exact w5

theorem Chip.thConvert_holds {x0 x1 x2 x3} (h : Chip.Holds j c) : Chip.Holds j (Chip.thConvert x0 x1 x2 x3 c) := by
  unfold Chip.thConvert
  extract_lets v0 v1 v2 v3 v4
  have w5 : Chip.Holds j v0 := by
    unfold v0
    refine Chip.thCheck_holds ?_
    exact h
  clear_value v0
  have w6 : Chip.Holds j v1 := by
    unfold v1
    refine Chip.set_holds ?_
    exact w5
  clear_value v1
  have w7 : Chip.Holds j v2 := by
    unfold v2
    refine Chip.thShow_holds ?_
    exact w6
  clear_value v2
  have w8 : Chip.Holds j v3 := by
    unfold v3
    refine Chip.holds_ite (fun p9 => ?_) (fun p9 => ?_)
    · refine Chip.setSensor_holds ?_
      refine Chip.set_holds ?_
      exact w7
    · refine Chip.thRate_holds ?_
      exact w7
  clear_value v3
  have w10 : Chip.Holds j v4 := by
    unfold v4
    refine Chip.thWarn_holds ?_
    exact w8
  clear_value v4
  refine Chip.holds_ite (fun p11 => ?_) (fun p11 => ?_)
  · refine Chip.thDram_holds ?_
    exact w10
  · exact w10

theorem Chip.regionClock_holds {x0} (h : Chip.Holds j c) : Chip.Holds j (Chip.regionClock x0 c) := by
  unfold Chip.regionClock
  refine Chip.holds_ite (fun p0 => ?_) (fun p0 => ?_)
  · refine Chip.set_holds ?_
    exact h
  · exact h

theorem Chip.throttle_holds (h : Chip.Holds j c) : Chip.Holds j (Chip.throttle c) := by
  unfold Chip.throttle
  extract_lets v0 v1 v2 v3 v4 v5 v6
  have w7 : Chip.Holds j v1 := by
    unfold v1
    refine Chip.forAll_holds ?_ ?_
    · intro y8
      intro y9
      intro y10
      extract_lets v11 v12
      have w13 : Chip.Holds j v12 := by
        unfold v12
        refine Chip.set_holds ?_
        refine Chip.set_holds ?_
        exact y10
      clear_value v12
      refine Chip.set_holds ?_
      exact w13
    · exact h
  clear_value v1
  have w14 : Chip.Holds j v2 := by
    unfold v2
    refine Chip.forAll_holds ?_ ?_
    · intro y15
      intro y16
      intro y17
      refine Chip.regionClock_holds ?_
      exact y17
    · exact w7
  clear_value v2
  have w18 : Chip.Holds j v3 := by
    unfold v3
    refine Chip.set_holds ?_
    exact w14
  clear_value v3
  have w19 : Chip.Holds j v4 := by
    unfold v4
    refine Chip.set_holds ?_
    exact w18
  clear_value v4
  have w20 : Chip.Holds j v6 := by
    unfold v6
    refine Chip.set_holds ?_
    exact w19
  clear_value v6
  generalize v5 = u21
  split
  · refine Chip.raiseIf_holds ?_
    exact w20
  · refine Chip.raiseIf_holds ?_
    exact w20

theorem Chip.layerSuspect_holds {x0 x1} (h : Chip.Holds j c) : Chip.Holds j (Chip.layerSuspect x0 x1 c) := by
  unfold Chip.layerSuspect
  extract_lets v0 v1
  have w2 : Chip.Holds j v1 := by
    unfold v1
    refine Chip.forAll_holds ?_ ?_
    · intro y3
      intro y4
      intro y5
      refine Chip.setSensor_holds ?_
      refine Chip.set_holds ?_
      exact y5
    · exact h
  clear_value v1
  refine Chip.raise_holds ?_
  refine Chip.thShow_holds ?_
  refine Chip.set_holds ?_
  refine Chip.set_holds ?_
  exact w2

theorem Chip.layerEstimate_holds {x0 x1 x2 x3} (h : Chip.Holds j c) : Chip.Holds j (Chip.layerEstimate x0 x1 x2 x3 c) := by
  unfold Chip.layerEstimate
  extract_lets v0 v1 v2 v3 v4 v5 v6 v7 v8 v9 v10 v11 v12 v13
  have w14 : Chip.Holds j v0 := by
    unfold v0
    refine Chip.set_holds ?_
    refine Chip.set_holds ?_
    exact h
  clear_value v0
  have w15 : Chip.Holds j v6 := by
    unfold v6
    refine Chip.holds_mk rfl rfl rfl rfl rfl rfl rfl rfl rfl rfl rfl rfl ?_
    exact w14
  clear_value v6
  have w16 : Chip.Holds j v7 := by
    unfold v7
    refine Chip.holds_ite (fun p17 => ?_) (fun p17 => ?_)
    · refine Chip.set_holds ?_
      exact w15
    · exact w15
  clear_value v7
  have w18 : Chip.Holds j v8 := by
    unfold v8
    refine Chip.holds_ite (fun p19 => ?_) (fun p19 => ?_)
    · refine Chip.set_holds ?_
      exact w16
    · exact w16
  clear_value v8
  have w20 : Chip.Holds j v9 := by
    unfold v9
    refine Chip.raiseIf_holds ?_
    exact w18
  clear_value v9
  have w21 : Chip.Holds j v13 := by
    unfold v13
    refine Chip.forAll_holds ?_ ?_
    · intro y22
      intro y23
      intro y24
      extract_lets v25 v26 v27 v28 v29 v30 v31
      have w32 : Chip.Holds j v27 := by
        unfold v27
        refine Chip.set_holds ?_
        refine Chip.set_holds ?_
        exact y24
      clear_value v27
      have w33 : Chip.Holds j v28 := by
        unfold v28
        refine Chip.set_holds ?_
        exact w32
      clear_value v28
      have w34 : Chip.Holds j v31 := by
        unfold v31
        refine Chip.holds_mk rfl rfl rfl rfl rfl rfl rfl rfl rfl rfl rfl rfl ?_
        exact w33
      clear_value v31
      refine Chip.holds_ite (fun p35 => ?_) (fun p35 => ?_)
      · refine Chip.layerSuspect_holds ?_
        exact w34
      · exact w34
    · exact w20
  clear_value v13
  refine Chip.thDram_holds ?_
  refine Chip.thShow_holds ?_
  exact w21

theorem Chip.thCfgWrite_holds {x0} (h : Chip.Holds j c) : Chip.Holds j (Chip.thCfgWrite x0 c).2 := by
  unfold Chip.thCfgWrite
  refine Chip.holds_ite_snd (fun p0 => ?_) (fun p0 => ?_)
  · refine Chip.holds_pair ?_
    refine Chip.thShow_holds ?_
    refine Chip.writeFlds_holds ?_
    exact h
  · refine Chip.holds_pair ?_
    exact h

theorem Chip.thHostWrite_holds {x0} (h : Chip.Holds j c) : Chip.Holds j (Chip.thHostWrite x0 c).2 := by
  unfold Chip.thHostWrite
  refine Chip.holds_ite_snd (fun p0 => ?_) (fun p0 => ?_)
  · refine Chip.holds_pair ?_
    refine Chip.set_holds ?_
    exact h
  · refine Chip.holds_pair ?_
    exact h

theorem Chip.coolantFall_holds (h : Chip.Holds j c) : Chip.Holds j (Chip.coolantFall c) := by
  unfold Chip.coolantFall
  refine Chip.holds_ite (fun p0 => ?_) (fun p0 => ?_)
  · exact h
  · extract_lets v1 v2 v3 v4
    have w5 : Chip.Holds j v1 := by
      unfold v1
      refine Chip.set_holds ?_
      exact h
    clear_value v1
    have w6 : Chip.Holds j v3 := by
      unfold v3
      refine Chip.set_holds ?_
      refine Chip.holds_mk rfl rfl rfl rfl rfl rfl rfl rfl rfl rfl rfl rfl ?_
      exact w5
    clear_value v3
    refine Chip.holds_ite (fun p7 => ?_) (fun p7 => ?_)
    · exact w5
    · refine Chip.holds_ite (fun p8 => ?_) (fun p8 => ?_)
      · refine Chip.set_holds ?_
        exact w5
      · refine Chip.holds_ite (fun p9 => ?_) (fun p9 => ?_)
        · refine Chip.holds_mk rfl rfl rfl rfl rfl rfl rfl rfl rfl rfl rfl rfl ?_
          exact w6
        · refine Chip.holds_ite (fun p10 => ?_) (fun p10 => ?_)
          · refine Chip.throttle_holds ?_
            refine Chip.raise_holds ?_
            exact w6
          · exact w6

theorem Chip.coolantEnd_holds (h : Chip.Holds j c) : Chip.Holds j (Chip.coolantEnd c) := by
  unfold Chip.coolantEnd
  refine Chip.holds_ite (fun p0 => ?_) (fun p0 => ?_)
  · extract_lets v1 v2
    have w3 : Chip.Holds j v2 := by
      unfold v2
      refine Chip.set_holds ?_
      refine Chip.holds_mk rfl rfl rfl rfl rfl rfl rfl rfl rfl rfl rfl rfl ?_
      exact h
    clear_value v2
    refine Chip.holds_ite (fun p4 => ?_) (fun p4 => ?_)
    · refine Chip.raise_holds ?_
      exact w3
    · exact w3
  · exact h

theorem cmdThStatus_holds {x0 x1} (h : Chip.Holds j c) : Chip.Holds j (Cmd.run cmdThStatus x0 x1 c) := by
  dsimp -zeta only [cmdThStatus, Cmd.plain]
  dsimp only []
  refine Chip.ok_holds ?_
  exact h

theorem cmdThSensors_holds {x0 x1} (h : Chip.Holds j c) : Chip.Holds j (Cmd.run cmdThSensors x0 x1 c) := by
  dsimp -zeta only [cmdThSensors, Cmd.plain]
  refine Chip.ok_holds ?_
  exact h

theorem cmdThSubst_holds {x0 x1} (h : Chip.Holds j c) : Chip.Holds j (Cmd.run cmdThSubst x0 x1 c) := by
  dsimp -zeta only [cmdThSubst, Cmd.plain]
  extract_lets v0 v1
  have w2 : Chip.Holds j v1 := by
    unfold v1
    refine Chip.thShow_holds ?_
    refine Chip.set_holds ?_
    exact h
  clear_value v1
  refine Chip.holds_ite (fun p3 => ?_) (fun p3 => ?_)
  · refine Chip.fail_holds ?_
    exact h
  · refine Chip.holds_ite (fun p4 => ?_) (fun p4 => ?_)
    · refine Chip.fail_holds ?_
      exact h
    · refine Chip.ok_holds ?_
      exact w2

theorem cmdThThresh_holds {x0 x1} (h : Chip.Holds j c) : Chip.Holds j (Cmd.run cmdThThresh x0 x1 c) := by
  dsimp -zeta only [cmdThThresh, Cmd.plain]
  dsimp only []
  refine Chip.holds_ite (fun p0 => ?_) (fun p0 => ?_)
  · refine Chip.ok_holds ?_
    refine Chip.thCfgWrite_holds ?_
    exact h
  · refine Chip.fail_holds ?_
    exact h

theorem cmdThLimit_holds {x0 x1} (h : Chip.Holds j c) : Chip.Holds j (Cmd.run cmdThLimit x0 x1 c) := by
  dsimp -zeta only [cmdThLimit, Cmd.plain]
  dsimp only []
  refine Chip.ok_holds ?_
  refine Chip.set_holds ?_
  exact h

theorem Chip.trainEnd_holds {x0} (h : Chip.Holds j c) : Chip.Holds j (Chip.trainEnd x0 c) := by
  unfold Chip.trainEnd
  extract_lets v0
  refine Chip.drTrained_holds ?_
  refine Chip.holds_ite (fun p1 => ?_) (fun p1 => ?_)
  · refine Chip.drTrain_holds ?_
    exact h
  · exact h

end Sys2Proof.Machine
end

