-- ==== Sys2Proof/Laws/KeepSelfTest.lean ====
section
/-! SUPPORT. Each operation of Machine/SelfTest.lean keeps the device sound and leaves its test access port. -/

namespace Sys2Proof.Machine

variable {j : Jtag} {c : Chip}

theorem Chip.powerRetired_holds (h : Chip.Holds j c) : Chip.Holds j (Chip.powerRetired c) := by
  unfold Chip.powerRetired
  extract_lets v0 v1 v2
  refine Chip.endAll_holds ?_
  refine Chip.holds_mk rfl rfl rfl rfl rfl rfl rfl rfl rfl rfl rfl rfl ?_
  exact h

theorem Chip.cfgDrop_holds {x0} (h : Chip.Holds j c) : Chip.Holds j (Chip.cfgDrop x0 c) := by
  unfold Chip.cfgDrop
  extract_lets v0 v1 v2 v3 v4 v5 v6 v7 v8
  have w9 : Chip.Holds j v4 := by
    unfold v4
    refine Chip.holds_mk rfl rfl rfl rfl rfl rfl rfl rfl rfl rfl rfl rfl ?_
    exact h
  clear_value v4
  have w10 : Chip.Holds j v5 := by
    unfold v5
    refine Chip.forAll_holds ?_ ?_
    · intro y11
      intro y12
      intro y13
      refine Chip.pageReply_holds ?_
      exact y13
    · exact w9
  clear_value v5
  have w14 : Chip.Holds j v7 := by
    unfold v7
    split
    · refine Chip.holds_ite (fun p21 => ?_) (fun p21 => ?_)
      · refine Chip.fail_holds ?_
        refine Chip.holds_mk rfl rfl rfl rfl rfl rfl rfl rfl rfl rfl rfl rfl ?_
        exact w10
      · exact w10
    · exact w10
  clear_value v7
  have w24 : Chip.Holds j v8 := by
    unfold v8
    split
    · refine Chip.holds_ite (fun p28 => ?_) (fun p28 => ?_)
      · refine Chip.loadFail_holds ?_
        exact w14
      · exact w14
    · exact w14
  clear_value v8
  refine Chip.holds_ite (fun p31 => ?_) (fun p31 => ?_)
  · refine Chip.pageSettle_holds ?_
    refine Chip.pageOver_holds ?_
    exact w24
  · exact w24

theorem Chip.lgRestart_holds (h : Chip.Holds j c) : Chip.Holds j (Chip.lgRestart c) := by
  unfold Chip.lgRestart
  extract_lets v0
  have w1 : Chip.Holds j v0 := by
    unfold v0
    refine Chip.set_holds ?_
    refine Chip.set_holds ?_
    refine Chip.set_holds ?_
    refine Chip.inc_holds ?_
    exact h
  clear_value v0
  refine Chip.raise_holds ?_
  exact w1

theorem Chip.reloadOver_holds (h : Chip.Holds j c) : Chip.Holds j (Chip.reloadOver c) := by
  unfold Chip.reloadOver
  extract_lets v0 v1 v2
  have w3 : Chip.Holds j v1 := by
    unfold v1
    refine Chip.set_holds ?_
    refine Chip.holds_mk rfl rfl rfl rfl rfl rfl rfl rfl rfl rfl rfl rfl ?_
    exact h
  clear_value v1
  have w4 : Chip.Holds j v2 := by
    unfold v2
    refine Chip.holds_ite (fun p5 => ?_) (fun p5 => ?_)
    · refine Chip.lgRestart_holds ?_
      exact w3
    · exact w3
  clear_value v2
  split
  · refine Chip.pageSettle_holds ?_
    refine Chip.pageMarks_holds ?_
    exact w4
  · exact w4

theorem Chip.retireRegion_holds {x0} (h : Chip.Holds j c) : Chip.Holds j (Chip.retireRegion x0 c) := by
  unfold Chip.retireRegion
  refine Chip.holds_ite (fun p0 => ?_) (fun p0 => ?_)
  · exact h
  · extract_lets v1 v2 v3 v4 v5 v6 v7 v8 v9 v10 v11 v12
    have w13 : Chip.Holds j v1 := by
      unfold v1
      refine Chip.domClose_holds ?_
      exact h
    clear_value v1
    have w14 : Chip.Holds j v3 := by
      unfold v3
      refine Chip.set_holds ?_
      refine Chip.set_holds ?_
      refine Chip.set_holds ?_
      exact w13
    clear_value v3
    have w15 : Chip.Holds j v4 := by
      unfold v4
      refine Chip.setRg_holds ?_
      refine Chip.set_holds ?_
      exact w14
    clear_value v4
    have w16 : Chip.Holds j v5 := by
      unfold v5
      refine Chip.holds_ite (fun p17 => ?_) (fun p17 => ?_)
      · refine Chip.bcastSeen_holds ?_
        exact w15
      · exact w15
    clear_value v5
    have w18 : Chip.Holds j v6 := by
      unfold v6
      refine Chip.set_holds ?_
      refine Chip.set_holds ?_
      exact w16
    clear_value v6
    have w19 : Chip.Holds j v7 := by
      unfold v7
      refine Chip.powerRetired_holds ?_
      refine Chip.spRegionRetire_holds ?_
      exact w18
    clear_value v7
    have w20 : Chip.Holds j v8 := by
      unfold v8
      refine Chip.forAll_holds ?_ ?_
      · intro y21
        intro y22
        intro y23
        refine Chip.emptyStop_holds ?_
        exact y23
      · exact w19
    clear_value v8
    have w24 : Chip.Holds j v9 := by
      unfold v9
      refine Chip.auxOfRegion_holds ?_
      exact w20
    clear_value v9
    have w25 : Chip.Holds j v10 := by
      unfold v10
      refine Chip.holds_ite (fun p26 => ?_) (fun p26 => ?_)
      · refine Chip.spOwners_holds ?_
        refine Chip.setSport_holds ?_
        refine Chip.set_holds ?_
        exact w24
      · exact w24
    clear_value v10
    have w27 : Chip.Holds j v11 := by
      unfold v11
      refine Chip.endCmd_holds ?_
      refine Chip.endCmd_holds ?_
      exact w25
    clear_value v11
    have w28 : Chip.Holds j v12 := by
      unfold v12
      refine Chip.cfgDrop_holds ?_
      exact w27
    clear_value v12
    refine Chip.holds_ite (fun p29 => ?_) (fun p29 => ?_)
    · refine Chip.reloadOver_holds ?_
      exact w28
    · exact w28

theorem Chip.drRetireBank_holds {x0} (h : Chip.Holds j c) : Chip.Holds j (Chip.drRetireBank x0 c) := by
  unfold Chip.drRetireBank
  extract_lets v0 v1 v2 v3 v4 v5
  have w6 : Chip.Holds j v0 := by
    unfold v0
    refine Chip.set_holds ?_
    exact h
  clear_value v0
  have w7 : Chip.Holds j v2 := by
    unfold v2
    refine Chip.forAll_holds ?_ ?_
    · intro y8
      intro y9
      intro y10
      split
      · refine Chip.respond_holds ?_
        exact y10
      · exact y10
    · exact w6
  clear_value v2
  have w16 : Chip.Holds j v5 := by
    unfold v5
    refine Chip.drLevels_holds ?_
    refine Chip.holds_mk rfl rfl rfl rfl rfl rfl rfl rfl rfl rfl rfl rfl ?_
    exact w7
  clear_value v5
  refine Chip.holds_ite (fun p17 => ?_) (fun p17 => ?_)
  · refine Chip.bmFail_holds ?_
    exact w16
  · exact w16

theorem Chip.retireBore_holds {x0 x1 x2} (h : Chip.Holds j c) : Chip.Holds j (Chip.retireBore x0 x1 x2 c) := by
  unfold Chip.retireBore
  extract_lets v0 v1 v2
  have w3 : Chip.Holds j v1 := by
    unfold v1
    refine Chip.set_holds ?_
    exact h
  clear_value v1
  refine Chip.forAll_holds ?_ ?_
  · intro y4
    intro y5
    intro y6
    refine Chip.holds_ite (fun p7 => ?_) (fun p7 => ?_)
    · exact y6
    · extract_lets v8 v9 v10 v11 v12 v13
      have w14 : Chip.Holds j v11 := by
        unfold v11
        refine Chip.holds_ite (fun p15 => ?_) (fun p15 => ?_)
        · refine Chip.holdRegion_holds ?_
          exact y6
        · exact y6
      clear_value v11
      have w16 : Chip.Holds j v12 := by
        unfold v12
        refine Chip.forAll_holds ?_ ?_
        · intro y17
          intro y18
          intro y19
          refine Chip.emptyStop_holds ?_
          exact y19
        · exact w14
      clear_value v12
      have w20 : Chip.Holds j v13 := by
        unfold v13
        refine Chip.raiseIf_holds ?_
        exact w16
      clear_value v13
      refine Chip.set_holds ?_
      exact w20
  · exact w3

theorem Chip.retireRiser_holds {x0 x1} (h : Chip.Holds j c) : Chip.Holds j (Chip.retireRiser x0 x1 c) := by
  unfold Chip.retireRiser
  extract_lets v0
  have w1 : Chip.Holds j v0 := by
    unfold v0
    refine Chip.holds_ite (fun p2 => ?_) (fun p2 => ?_)
    · refine Chip.retireRegion_holds ?_
      refine Chip.set_holds ?_
      exact h
    · exact h
  clear_value v0
  refine Chip.retireRegion_holds ?_
  exact w1

theorem Chip.breakSensors_holds {x0 x1} (h : Chip.Holds j c) : Chip.Holds j (Chip.breakSensors x0 x1 c) := by
  unfold Chip.breakSensors
  refine Chip.forAll_holds ?_ ?_
  · intro y0
    intro y1
    intro y2
    refine Chip.holds_ite (fun p3 => ?_) (fun p3 => ?_)
    · exact y2
    · extract_lets v4
      have w5 : Chip.Holds j v4 := by
        unfold v4
        refine Chip.set_holds ?_
        refine Chip.set_holds ?_
        exact y2
      clear_value v4
      refine Chip.raiseIf_holds ?_
      refine Chip.thShow_holds ?_
      refine Chip.setSensor_holds ?_
      exact w5
  · exact h

theorem Chip.retireBoreAt_holds {x0 x1} (h : Chip.Holds j c) : Chip.Holds j (Chip.retireBoreAt x0 x1 c) := by
  unfold Chip.retireBoreAt
  split
  · refine Chip.retireBore_holds ?_
    exact h
  · refine Chip.retireRegion_holds ?_
    exact h
  · refine Chip.retireRegion_holds ?_
    exact h
  · refine Chip.retireRiser_holds ?_
    exact h
  · refine Chip.retireRiser_holds ?_
    exact h
  · refine Chip.retireRiser_holds ?_
    exact h
  · refine Chip.retireRiser_holds ?_
    exact h
  · refine Chip.retireRiser_holds ?_
    exact h
  · refine Chip.forAll_holds ?_ ?_
    · intro y36
      intro y37
      intro y38
      refine Chip.drRetireBank_holds ?_
      exact y38
    · exact h
  · refine Chip.forAll_holds ?_ ?_
    · intro y43
      intro y44
      intro y45
      refine Chip.drRetireBank_holds ?_
      exact y45
    · exact h
  · refine Chip.breakSensors_holds ?_
    exact h

theorem Chip.halfApply_holds {x0 x1 x2} (h : Chip.Holds j c) : Chip.Holds j (Chip.halfApply x0 x1 x2 c) := by
  unfold Chip.halfApply
  extract_lets v0 v1 v2 v3
  have w4 : Chip.Holds j v2 := by
    unfold v2
    refine Chip.holds_mk rfl rfl rfl rfl rfl rfl rfl rfl rfl rfl rfl rfl ?_
    exact h
  clear_value v2
  refine Chip.set_holds ?_
  exact w4

theorem Chip.laneQuiet_holds {x0 x1} (h : Chip.Holds j c) : Chip.Holds j (Chip.laneQuiet x0 x1 c) := by
  unfold Chip.laneQuiet
  extract_lets v0
  have w1 : Chip.Holds j v0 := by
    unfold v0
    refine Chip.widthShow_holds ?_
    refine Chip.set_holds ?_
    exact h
  clear_value v0
  refine Chip.holds_ite (fun p2 => ?_) (fun p2 => ?_)
  · refine Chip.portLeave_holds ?_
    refine Chip.domClose_holds ?_
    exact w1
  · exact w1

theorem Chip.retireElem_holds {x0 x1 x2} (h : Chip.Holds j c) : Chip.Holds j (Chip.retireElem x0 x1 x2 c) := by
  unfold Chip.retireElem
  split
  · refine Chip.raiseIf_holds ?_
    refine Chip.powerRetired_holds ?_
    refine Chip.bankRetire_holds ?_
    exact h
  · refine Chip.raiseIf_holds ?_
    refine Chip.drRetireBank_holds ?_
    exact h
  · refine Chip.retireChannel_holds ?_
    exact h
  · refine Chip.raiseIf_holds ?_
    refine Chip.retireBoreAt_holds ?_
    exact h
  · refine Chip.holds_ite (fun p5 => ?_) (fun p5 => ?_)
    · refine Chip.laneRetire_holds ?_
      exact h
    · refine Chip.laneQuiet_holds ?_
      exact h
  · refine Chip.holds_ite (fun p7 => ?_) (fun p7 => ?_)
    · refine Chip.raise_holds ?_
      refine Chip.set_holds ?_
      refine Chip.holds_mk rfl rfl rfl rfl rfl rfl rfl rfl rfl rfl rfl rfl ?_
      exact h
    · refine Chip.halfApply_holds ?_
      exact h
  · refine Chip.raiseIf_holds ?_
    refine Chip.retireRegion_holds ?_
    exact h
  · exact h

theorem Chip.mapSpare_holds {x0 x1 x2} (h : Chip.Holds j c) : Chip.Holds j (Chip.mapSpare x0 x1 x2 c) := by
  unfold Chip.mapSpare
  split
  · extract_lets v1 v2 v3 v4 v5
    refine Chip.holds_mk rfl rfl rfl rfl rfl rfl rfl rfl rfl rfl rfl rfl ?_
    exact h
  · extract_lets v7
    refine Chip.setUnit_holds ?_
    refine Chip.set_holds ?_
    exact h
  · exact h

theorem Chip.applyEntry_holds {x0 x1} (h : Chip.Holds j c) : Chip.Holds j (Chip.applyEntry x0 x1 c) := by
  unfold Chip.applyEntry
  extract_lets v0 v1 v2 v3 v4 v5 v6 v7 v8 v9
  have w10 : Chip.Holds j v4 := by
    unfold v4
    refine Chip.holds_mk rfl rfl rfl rfl rfl rfl rfl rfl rfl rfl rfl rfl ?_
    exact h
  clear_value v4
  have w11 : Chip.Holds j v6 := by
    unfold v6
    refine Chip.mapSpare_holds ?_
    exact w10
  clear_value v6
  refine Chip.holds_ite (fun p12 => ?_) (fun p12 => ?_)
  · refine Chip.retireElem_holds ?_
    exact w10
  · refine Chip.holds_ite (fun p13 => ?_) (fun p13 => ?_)
    · refine Chip.holds_mk rfl rfl rfl rfl rfl rfl rfl rfl rfl rfl rfl rfl ?_
      exact w11
    · exact w11

theorem Chip.cfgCancel_holds (h : Chip.Holds j c) : Chip.Holds j (Chip.cfgCancel c) := by
  unfold Chip.cfgCancel
  refine Chip.dropPagings_holds ?_
  refine Chip.loadFail_holds ?_
  exact h

theorem Chip.holdAll_holds (h : Chip.Holds j c) : Chip.Holds j (Chip.holdAll c) := by
  unfold Chip.holdAll
  refine Chip.forAll_holds ?_ ?_
  · intro y0
    intro y1
    intro y2
    refine Chip.holdRegion_holds ?_
    exact y2
  · exact h

theorem Chip.enterSafe_holds (h : Chip.Holds j c) : Chip.Holds j (Chip.enterSafe c) := by
  unfold Chip.enterSafe
  extract_lets v0 v1 v2 v3 v4 v5 v6 v7 v8
  have w9 : Chip.Holds j v0 := by
    unfold v0
    refine Chip.cfgCancel_holds ?_
    refine Chip.leaveUser_holds ?_
    refine Chip.holds_mk rfl rfl rfl rfl rfl rfl rfl rfl rfl rfl rfl rfl ?_
    exact h
  clear_value v0
  have w10 : Chip.Holds j v1 := by
    unfold v1
    refine Chip.checksEnd_holds ?_
    refine Chip.denAllLow_holds ?_
    refine Chip.set_holds ?_
    refine Chip.setState_holds ?_
    exact w9
  clear_value v1
  have w11 : Chip.Holds j v2 := by
    unfold v2
    refine Chip.auxAll_holds ?_
    refine Chip.holdAll_holds ?_
    exact w10
  clear_value v2
  have w12 : Chip.Holds j v3 := by
    unfold v3
    split
    · refine Chip.set_holds ?_
      refine Chip.set_holds ?_
      refine Chip.inc_holds ?_
      exact w11
    · exact w11
  clear_value v3
  have w18 : Chip.Holds j v7 := by
    unfold v7
    refine Chip.holds_mk rfl rfl rfl rfl rfl rfl rfl rfl rfl rfl rfl rfl ?_
    exact w12
  clear_value v7
  have w19 : Chip.Holds j v8 := by
    unfold v8
    refine Chip.endAll_holds ?_
    refine Chip.set_holds ?_
    exact w18
  clear_value v8
  generalize v5 = u20
  split
  · refine Chip.endAll_holds ?_
    refine Chip.fail_holds ?_
    exact w19
  · exact w19

theorem Chip.permanent_holds {x0 x1 x2} (h : Chip.Holds j c) : Chip.Holds j (Chip.permanent x0 x1 x2 c).2 := by
  unfold Chip.permanent
  extract_lets v0 v1 v2 v3
  have w4 : Chip.Holds j v0 := by
    unfold v0
    refine Chip.inc_holds ?_
    exact h
  clear_value v0
  refine Chip.holds_ite_snd (fun p5 => ?_) (fun p5 => ?_)
  · refine Chip.holds_pair ?_
    refine Chip.enterSafe_holds ?_
    refine Chip.raise_holds ?_
    refine Chip.logRepair_holds ?_
    exact w4
  · split
    · extract_lets v9 v10
      have w11 : Chip.Holds j v9 := by
        unfold v9
        refine Chip.mapSpare_holds ?_
        exact w4
      clear_value v9
      have w12 : Chip.Holds j v10 := by
        unfold v10
        refine Chip.holds_ite (fun p13 => ?_) (fun p13 => ?_)
        · refine Chip.remapStart_holds ?_
          exact w11
        · exact w11
      clear_value v10
      refine Chip.holds_pair ?_
      refine Chip.raise_holds ?_
      refine Chip.logRepair_holds ?_
      exact w12
    · refine Chip.holds_ite_snd (fun p16 => ?_) (fun p16 => ?_)
      · refine Chip.holds_pair ?_
        refine Chip.logRepair_holds ?_
        refine Chip.raise_holds ?_
        exact w4
      · refine Chip.holds_pair ?_
        refine Chip.logRepair_holds ?_
        refine Chip.retireElem_holds ?_
        exact w4

theorem Chip.transient_holds {x0 x1} (h : Chip.Holds j c) : Chip.Holds j (Chip.transient x0 x1 c) := by
  unfold Chip.transient
  refine Chip.raise_holds ?_
  refine Chip.inc_holds ?_
  exact h

theorem Chip.runDone_holds {x0 x1} (h : Chip.Holds j c) : Chip.Holds j (Chip.runDone x0 x1 c) := by
  unfold Chip.runDone
  refine Chip.forAll_holds ?_ ?_
  · intro y0
    intro y1
    intro y2
    refine Chip.ok_holds ?_
    exact y2
  · exact h

theorem Chip.reloadDone_holds (h : Chip.Holds j c) : Chip.Holds j (Chip.reloadDone c) := by
  unfold Chip.reloadDone
  split
  · exact h
  · extract_lets v5 v6
    have w7 : Chip.Holds j v6 := by
      unfold v6
      refine Chip.raise_holds ?_
      refine Chip.inc_holds ?_
      exact h
    clear_value v6
    refine Chip.reloadOver_holds ?_
    refine Chip.releaseRegion_holds ?_
    exact w7

theorem Chip.testStart_holds (h : Chip.Holds j c) : Chip.Holds j (Chip.testStart c) := by
  unfold Chip.testStart
  extract_lets v0 v1 v2 v3 v4
  have w5 : Chip.Holds j v2 := by
    unfold v2
    refine Chip.holds_mk rfl rfl rfl rfl rfl rfl rfl rfl rfl rfl rfl rfl ?_
    exact h
  clear_value v2
  have w6 : Chip.Holds j v3 := by
    unfold v3
    refine Chip.forAll_holds ?_ ?_
    · intro y7
      intro y8
      intro y9
      refine Chip.runDone_holds ?_
      exact y9
    · exact w5
  clear_value v3
  refine Chip.holds_ite (fun p10 => ?_) (fun p10 => ?_)
  · exact w6
  · split
    · exact w6
    · extract_lets v16 v17
      have w18 : Chip.Holds j v16 := by
        unfold v16
        refine Chip.holds_mk rfl rfl rfl rfl rfl rfl rfl rfl rfl rfl rfl rfl ?_
        exact w6
      clear_value v16
      have w19 : Chip.Holds j v17 := by
        unfold v17
        refine Chip.set_holds ?_
        exact w18
      clear_value v17
      refine Chip.holds_ite (fun p20 => ?_) (fun p20 => ?_)
      · refine Chip.set_holds ?_
        exact w19
      · exact w19

theorem Chip.testPass_holds {x0} (h : Chip.Holds j c) : Chip.Holds j (Chip.testPass x0 c) := by
  unfold Chip.testPass
  extract_lets v0 v1 v2 v3 v4
  have w5 : Chip.Holds j v3 := by
    unfold v3
    refine Chip.holds_ite (fun p6 => ?_) (fun p6 => ?_)
    · exact h
    · refine Chip.transient_holds ?_
      exact h
  clear_value v3
  have w7 : Chip.Holds j v4 := by
    unfold v4
    refine Chip.holds_ite (fun p8 => ?_) (fun p8 => ?_)
    · refine Chip.setUnit_holds ?_
      exact w5
    · refine Chip.holds_ite (fun p9 => ?_) (fun p9 => ?_)
      · refine Chip.reloadDone_holds ?_
        exact w5
      · refine Chip.holds_ite (fun p10 => ?_) (fun p10 => ?_)
        · refine Chip.laneRestore_holds ?_
          exact w5
        · exact w5
  clear_value v4
  refine Chip.runDone_holds ?_
  exact w7

theorem Chip.testFail_holds {x0 x1} (h : Chip.Holds j c) : Chip.Holds j (Chip.testFail x0 x1 c) := by
  unfold Chip.testFail
  extract_lets v0 v1 v2
  have w3 : Chip.Holds j v0.2 := by
    unfold v0
    refine Chip.permanent_holds ?_
    exact h
  clear_value v0
  have w4 : Chip.Holds j v1 := by
    unfold v1
    exact w3
  clear_value v1
  refine Chip.holds_ite (fun p5 => ?_) (fun p5 => ?_)
  · refine Chip.holds_ite (fun p6 => ?_) (fun p6 => ?_)
    · refine Chip.tqPush_holds ?_
      refine Chip.setUnit_holds ?_
      exact w4
    · refine Chip.runDone_holds ?_
      exact w4
  · refine Chip.runDone_holds ?_
    exact w4

theorem Chip.testOver_holds {x0 x1} (h : Chip.Holds j c) : Chip.Holds j (Chip.testOver x0 x1 c) := by
  unfold Chip.testOver
  split
  · exact h
  · extract_lets v5 v6 v7 v8
    have w9 : Chip.Holds j v6 := by
      unfold v6
      refine Chip.set_holds ?_
      refine Chip.holds_mk rfl rfl rfl rfl rfl rfl rfl rfl rfl rfl rfl rfl ?_
      exact h
    clear_value v6
    have w10 : Chip.Holds j v7 := by
      unfold v7
      refine Chip.holds_ite (fun p11 => ?_) (fun p11 => ?_)
      · refine Chip.set_holds ?_
        exact w9
      · exact w9
    clear_value v7
    split
    · refine Chip.testPass_holds ?_
      exact w10
    · refine Chip.testFail_holds ?_
      exact w10
    · refine Chip.holds_mk rfl rfl rfl rfl rfl rfl rfl rfl rfl rfl rfl rfl ?_
      exact w10

theorem Chip.testEnd_holds {x0 x1} (h : Chip.Holds j c) : Chip.Holds j (Chip.testEnd x0 x1 c) := by
  unfold Chip.testEnd
  split
  · exact h
  · refine Chip.holds_ite (fun p5 => ?_) (fun p5 => ?_)
    · exact h
    · refine Chip.testOver_holds ?_
      refine Chip.set_holds ?_
      exact h

theorem Chip.laneTested_holds {x0 x1 x2} (h : Chip.Holds j c) : Chip.Holds j (Chip.laneTested x0 x1 x2 c) := by
  unfold Chip.laneTested
  split
  · exact h
  · refine Chip.holds_ite (fun p5 => ?_) (fun p5 => ?_)
    · refine Chip.testOver_holds ?_
      exact h
    · exact h

theorem Chip.sliceStart_holds {x0 x1} (h : Chip.Holds j c) : Chip.Holds j (Chip.sliceStart x0 x1 c) := by
  unfold Chip.sliceStart
  refine Chip.holds_ite (fun _ => h) (fun _ => ?_)
  split
  · exact h
  · extract_lets first v d ok w s n i s' d1 d2
    have hd : Chip.Holds j d := Chip.set_holds (Chip.holds_mk rfl rfl rfl rfl rfl rfl rfl rfl rfl rfl rfl rfl h)
    clear_value d
    have hw : Chip.Holds j w := Chip.holds_ite (fun _ => Chip.drWakeRank_holds hd) (fun _ => hd)
    clear_value w
    refine Chip.holds_ite (fun _ => Chip.set_holds (Chip.holds_mk rfl rfl rfl rfl rfl rfl rfl rfl rfl rfl rfl rfl hw)) (fun _ => ?_)
    have h1 : Chip.Holds j d1 := Chip.holds_mk (c := d.inc F.ST_CNT_B_SKIPPED) rfl rfl rfl rfl rfl rfl rfl rfl rfl rfl rfl rfl (Chip.inc_holds hd)
    clear_value d1
    exact Chip.raiseIf_holds (Chip.set_holds (Chip.set_holds (Chip.set_holds (Chip.set_holds (Chip.set_holds h1)))))

theorem Chip.reedSliced_holds {x0 x1} (h : Chip.Holds j c) : Chip.Holds j (Chip.reedSliced x0 x1 c) := by
  unfold Chip.reedSliced
  refine Chip.forAll_holds ?_ ?_
  · intro y0
    intro y1
    intro y2
    extract_lets v3
    refine Chip.holds_ite (fun p4 => ?_) (fun p4 => ?_)
    · exact y2
    · refine Chip.setStarved_holds ?_
      refine Chip.setStarved_holds ?_
      exact y2
  · exact h

theorem Chip.sliceEnd_holds {x0 x1 x2} (h : Chip.Holds j c) : Chip.Holds j (Chip.sliceEnd x0 x1 x2 c) := by
  unfold Chip.sliceEnd
  split
  · exact h
  · extract_lets v7 v8 v9 v10 v11 v12 v13
    have w14 : Chip.Holds j v10 := by
      unfold v10
      refine Chip.holds_mk rfl rfl rfl rfl rfl rfl rfl rfl rfl rfl rfl rfl ?_
      exact h
    clear_value v10
    have w15 : Chip.Holds j v11 := by
      unfold v11
      refine Chip.set_holds ?_
      refine Chip.set_holds ?_
      refine Chip.set_holds ?_
      refine Chip.set_holds ?_
      exact w14
    clear_value v11
    have w16 : Chip.Holds j v12 := by
      unfold v12
      refine Chip.set_holds ?_
      refine Chip.set_holds ?_
      refine Chip.set_holds ?_
      refine Chip.set_holds ?_
      exact w15
    clear_value v12
    have w17 : Chip.Holds j v13 := by
      unfold v13
      refine Chip.holds_ite (fun p18 => ?_) (fun p18 => ?_)
      · refine Chip.reedSliced_holds ?_
        exact w16
      · exact w16
    clear_value v13
    refine Chip.holds_ite (fun p19 => ?_) (fun p19 => ?_)
    · refine Chip.inc_holds ?_
      exact w17
    · refine Chip.holds_ite (fun p20 => ?_) (fun p20 => ?_)
      · refine Chip.inc_holds ?_
        exact w17
      · refine Chip.forAll_holds ?_ ?_
        · intro y21
          intro y22
          intro y23
          refine Chip.tqPush_holds ?_
          exact y23
        · refine Chip.raise_holds ?_
          refine Chip.inc_holds ?_
          exact w17

theorem Chip.fullFaults_holds {x0 x1 x2} (h : Chip.Holds j c) : Chip.Holds j (Chip.fullFaults x0 x1 x2 c).2.2 := by
  induction x0 generalizing c x1 x2 with
  | nil => exact h
  | cons f fs ih =>
    unfold Chip.fullFaults
    split
    · exact h
    · split
      · exact ih h
      · exact ih (Chip.permanent_holds h)

theorem Chip.fullWipe_holds (h : Chip.Holds j c) : Chip.Holds j (Chip.fullWipe c) := by
  unfold Chip.fullWipe
  extract_lets v1 v2 d1 d2 v3 d3
  have h1 : Chip.Holds j d1 := Chip.holds_mk_mem rfl rfl rfl rfl rfl rfl rfl rfl rfl rfl rfl h (fun _ => rfl)
  clear_value d1
  have h2 : Chip.Holds j d2 :=
    Chip.forAll_holds (fun _ _ h => Chip.setRg_holds (Chip.forAll_holds (fun _ _ h => Chip.emptyStop_holds h) h)) h1
  clear_value d2
  have h3 : Chip.Holds j d3 := Chip.leaveUser_holds (Chip.holds_mk rfl rfl rfl rfl rfl rfl rfl rfl rfl rfl rfl rfl h2)
  clear_value d3
  exact Chip.calLoad_holds (Chip.auxAll_holds (Chip.denAllLow_holds (Chip.setState_holds h3)))

theorem Chip.fullDone_holds {x0 x1 x2} (h : Chip.Holds j c) : Chip.Holds j (Chip.fullDone x0 x1 x2 c) := by
  unfold Chip.fullDone
  split
  · exact h
  · extract_lets v5 v6 v7 v8 v9 v10
    have w11 : Chip.Holds j v6 := by
      unfold v6
      refine Chip.forAll_holds ?_ ?_
      · intro y12
        intro y13
        intro y14
        refine Chip.transient_holds ?_
        exact y14
      · exact h
    clear_value v6
    have w15 : Chip.Holds j v8 := by
      unfold v8
      unfold v7
      refine Chip.fullFaults_holds ?_
      exact w11
    clear_value v8
    have w16 : Chip.Holds j v10 := by
      unfold v10
      refine Chip.set_holds ?_
      refine Chip.fullWipe_holds ?_
      refine Chip.holds_mk rfl rfl rfl rfl rfl rfl rfl rfl rfl rfl rfl rfl ?_
      exact w15
    clear_value v10
    split
    · exact w15
    · refine Chip.holds_ite (fun p22 => ?_) (fun p22 => ?_)
      · refine Chip.ok_holds ?_
        exact w16
      · refine Chip.endAll_holds ?_
        refine Chip.fail_holds ?_
        exact w16

theorem Chip.lgMove_holds {x0} (h : Chip.Holds j c) : Chip.Holds j (Chip.lgMove x0 c) := by
  unfold Chip.lgMove
  extract_lets v0 v1 v2
  have w3 : Chip.Holds j v1 := by
    unfold v1
    refine Chip.holds_ite (fun p4 => ?_) (fun p4 => ?_)
    · refine Chip.inc_holds ?_
      exact h
    · exact h
  clear_value v1
  refine Chip.set_holds ?_
  refine Chip.set_holds ?_
  refine Chip.set_holds ?_
  exact w3

theorem Chip.lgNext_holds (h : Chip.Holds j c) : Chip.Holds j (Chip.lgNext c) := by
  unfold Chip.lgNext
  extract_lets v0
  refine Chip.holds_ite (fun p1 => ?_) (fun p1 => ?_)
  · refine Chip.set_holds ?_
    exact h
  · refine Chip.lgMove_holds ?_
    exact h

theorem Chip.lgBad_holds {x0 x1 x2 x3 x4} (h : Chip.Holds j c) : Chip.Holds j (Chip.lgBad x0 x1 x2 x3 x4 c) := by
  unfold Chip.lgBad
  extract_lets v0 v1 v2 v3
  have w4 : Chip.Holds j v0 := by
    unfold v0
    refine Chip.set_holds ?_
    refine Chip.set_holds ?_
    refine Chip.set_holds ?_
    refine Chip.set_holds ?_
    refine Chip.inc_holds ?_
    exact h
  clear_value v0
  have w5 : Chip.Holds j v1 := by
    unfold v1
    refine Chip.set_holds ?_
    refine Chip.set_holds ?_
    exact w4
  clear_value v1
  have w6 : Chip.Holds j v3 := by
    unfold v3
    refine Chip.holds_mk rfl rfl rfl rfl rfl rfl rfl rfl rfl rfl rfl rfl ?_
    exact w5
  clear_value v3
  refine Chip.holds_ite (fun p7 => ?_) (fun p7 => ?_)
  · refine Chip.holdRegion_holds ?_
    exact w6
  · exact w6

theorem Chip.lgCheck_holds {x0 x1 x2} (h : Chip.Holds j c) : Chip.Holds j (Chip.lgCheck x0 x1 x2 c) := by
  unfold Chip.lgCheck
  refine Chip.holds_ite (fun p0 => ?_) (fun p0 => ?_)
  · exact h
  · refine Chip.holds_ite (fun p1 => ?_) (fun p1 => ?_)
    · refine Chip.holds_ite (fun p2 => ?_) (fun p2 => ?_)
      · refine Chip.holds_mk rfl rfl rfl rfl rfl rfl rfl rfl rfl rfl rfl rfl ?_
        exact h
      · refine Chip.holds_ite (fun p3 => ?_) (fun p3 => ?_)
        · refine Chip.inc_holds ?_
          exact h
        · exact h
    · refine Chip.holds_ite (fun p4 => ?_) (fun p4 => ?_)
      · refine Chip.lgRestart_holds ?_
        exact h
      · extract_lets v5 v6 v7 v8 v9 v10 v11 v12 v13 v14 v15
        have w16 : Chip.Holds j v5 := by
          unfold v5
          refine Chip.holds_ite (fun p17 => ?_) (fun p17 => ?_)
          · refine Chip.inc_holds ?_
            exact h
          · exact h
        clear_value v5
        have w18 : Chip.Holds j v7 := by
          unfold v7
          refine Chip.holds_ite (fun p19 => ?_) (fun p19 => ?_)
          · exact w16
          · refine Chip.lgMove_holds ?_
            exact w16
        clear_value v7
        have w20 : Chip.Holds j v14 := by
          unfold v14
          refine Chip.raiseIf_holds ?_
          refine Chip.addSat_holds ?_
          exact w18
        clear_value v14
        have w21 : Chip.Holds j v15 := by
          unfold v15
          refine Chip.lgNext_holds ?_
          exact w20
        clear_value v15
        refine Chip.holds_ite (fun p22 => ?_) (fun p22 => ?_)
        · exact w18
        · split
          · refine Chip.lgBad_holds ?_
            exact w21
          · refine Chip.lgBad_holds ?_
            exact w21
          · refine Chip.holds_ite (fun p28 => ?_) (fun p28 => ?_)
            · exact w21
            · refine Chip.lgBad_holds ?_
              exact w21

theorem Chip.lgReload_holds {x0 x1} (h : Chip.Holds j c) : Chip.Holds j (Chip.lgReload x0 x1 c) := by
  unfold Chip.lgReload
  split
  · exact h
  · extract_lets v8 v9 v10 v11 v12 v13 v14 v15 v16 v17 v18 v19 v20
    have w21 : Chip.Holds j v11 := by
      unfold v11
      refine Chip.freeNext_holds ?_
      exact h
    clear_value v11
    have w22 : Chip.Holds j v13 := by
      unfold v13
      refine Chip.holds_ite (fun p23 => ?_) (fun p23 => ?_)
      · refine Chip.holds_mk rfl rfl rfl rfl rfl rfl rfl rfl rfl rfl rfl rfl ?_
        exact w21
      · exact h
    clear_value v13
    have w24 : Chip.Holds j v14.2 := by
      unfold v14
      refine Chip.rowReads_holds ?_
      exact w22
    clear_value v14
    have w25 : Chip.Holds j v15 := by
      unfold v15
      exact w24
    clear_value v15
    have w26 : Chip.Holds j v17 := by
      unfold v17
      refine Chip.raise_holds ?_
      refine Chip.inc_holds ?_
      refine Chip.emptyStop_holds ?_
      exact w25
    clear_value v17
    have w27 : Chip.Holds j v19 := by
      unfold v19
      refine Chip.holds_mk rfl rfl rfl rfl rfl rfl rfl rfl rfl rfl rfl rfl ?_
      exact w25
    clear_value v19
    refine Chip.holds_ite (fun p28 => ?_) (fun p28 => ?_)
    · exact h
    · refine Chip.holds_ite (fun p29 => ?_) (fun p29 => ?_)
      · refine Chip.reloadOver_holds ?_
        exact w26
      · refine Chip.holds_ite (fun p30 => ?_) (fun p30 => ?_)
        · refine Chip.tqPush_holds ?_
          refine Chip.holds_mk rfl rfl rfl rfl rfl rfl rfl rfl rfl rfl rfl rfl ?_
          exact w27
        · refine Chip.reloadDone_holds ?_
          exact w27

theorem Chip.clrCounters_holds {x0 x1} (h : Chip.Holds j c) : Chip.Holds j (Chip.clrCounters x0 x1 c) := by
  unfold Chip.clrCounters
  refine Chip.forAll_holds ?_ ?_
  · intro y0
    intro y1
    intro y2
    refine Chip.clear_holds ?_
    exact y2
  · exact h

theorem Chip.stCntClr_holds {x0} (h : Chip.Holds j c) : Chip.Holds j (Chip.stCntClr x0 c) := by
  unfold Chip.stCntClr
  refine Chip.clrCounters_holds ?_
  exact h

theorem Chip.lgCntClr_holds {x0} (h : Chip.Holds j c) : Chip.Holds j (Chip.lgCntClr x0 c) := by
  unfold Chip.lgCntClr
  refine Chip.clrCounters_holds ?_
  exact h

theorem Chip.stCtlWrite_holds {x0} (h : Chip.Holds j c) : Chip.Holds j (Chip.stCtlWrite x0 c).2 := by
  unfold Chip.stCtlWrite
  extract_lets v0 v1
  have w2 : Chip.Holds j v1 := by
    unfold v1
    refine Chip.set_holds ?_
    exact h
  clear_value v1
  refine Chip.holds_ite_snd (fun p3 => ?_) (fun p3 => ?_)
  · refine Chip.holds_pair ?_
    exact h
  · refine Chip.holds_pair ?_
    refine Chip.holds_ite (fun p4 => ?_) (fun p4 => ?_)
    · refine Chip.set_holds ?_
      refine Chip.set_holds ?_
      exact w2
    · exact w2

theorem Chip.lgCtlWrite_holds {x0} (h : Chip.Holds j c) : Chip.Holds j (Chip.lgCtlWrite x0 c).2 := by
  unfold Chip.lgCtlWrite
  refine Chip.holds_pair ?_
  refine Chip.holds_ite (fun p0 => ?_) (fun p0 => ?_)
  · refine Chip.set_holds ?_
    exact h
  · exact h

theorem cmdStStatus_holds {x0 x1} (h : Chip.Holds j c) : Chip.Holds j (Cmd.run cmdStStatus x0 x1 c) := by
  dsimp -zeta only [cmdStStatus, Cmd.plain]
  refine Chip.ok_holds ?_
  exact h

theorem cmdStRun_holds {x0 x1} (h : Chip.Holds j c) : Chip.Holds j (Cmd.run cmdStRun x0 x1 c) := by
  dsimp -zeta only [cmdStRun, stCmd, Cmd.plain]
  dsimp only []
  refine Chip.holds_ite (fun p0 => ?_) (fun p0 => ?_)
  · refine Chip.fail_holds ?_
    exact h
  · refine Chip.holds_ite (fun p1 => ?_) (fun p1 => ?_)
    · refine Chip.fail_holds ?_
      exact h
    · refine Chip.holds_ite (fun p2 => ?_) (fun p2 => ?_)
      · refine Chip.fail_holds ?_
        exact h
      · refine Chip.holds_ite (fun p3 => ?_) (fun p3 => ?_)
        · refine Chip.laneOut_holds ?_
          refine Chip.interim_holds ?_
          exact h
        · refine Chip.tqPush_holds ?_
          refine Chip.interim_holds ?_
          exact h

theorem cmdStFull_holds {x0 x1} (h : Chip.Holds j c) : Chip.Holds j (Cmd.run cmdStFull x0 x1 c) := by
  dsimp -zeta only [cmdStFull, stCmd, Cmd.plain]
  dsimp only []
  split
  · refine Chip.fail_holds ?_
    refine Chip.holds_ite_snd (fun p3 => ?_) (fun p3 => ?_)
    · refine Chip.checkRequest_holds ?_
      exact h
    · refine Chip.holds_pair ?_
      exact h
  · refine Chip.set_holds ?_
    refine Chip.holds_mk rfl rfl rfl rfl rfl rfl rfl rfl rfl rfl rfl rfl ?_
    refine Chip.auxAll_holds ?_
    refine Chip.denAllLow_holds ?_
    refine Chip.holdAll_holds ?_
    refine Chip.setState_holds ?_
    refine Chip.holds_ite (fun p6 => ?_) (fun p6 => ?_)
    · refine Chip.cfgCancel_holds ?_
      refine Chip.leaveUser_holds ?_
      refine Chip.interim_holds ?_
      refine Chip.holds_ite_snd (fun p7 => ?_) (fun p7 => ?_)
      · refine Chip.checkRequest_holds ?_
        exact h
      · refine Chip.holds_pair ?_
        exact h
    · refine Chip.interim_holds ?_
      refine Chip.holds_ite_snd (fun p8 => ?_) (fun p8 => ?_)
      · refine Chip.checkRequest_holds ?_
        exact h
      · refine Chip.holds_pair ?_
        exact h

theorem cmdStLogRead_holds {x0 x1} (h : Chip.Holds j c) : Chip.Holds j (Cmd.run cmdStLogRead x0 x1 c) := by
  dsimp -zeta only [cmdStLogRead, stCmd, Cmd.plain]
  dsimp only []
  refine Chip.ok_holds ?_
  exact h

theorem cmdStFuseRepair_holds {x0 x1} (h : Chip.Holds j c) : Chip.Holds j (Cmd.run cmdStFuseRepair x0 x1 c) := by
  dsimp -zeta only [cmdStFuseRepair, stCmd, Cmd.plain]
  dsimp only []
  refine Chip.burn_holds ?_
  exact h

theorem cmdStLogClear_holds {x0 x1} (h : Chip.Holds j c) : Chip.Holds j (Cmd.run cmdStLogClear x0 x1 c) := by
  dsimp -zeta only [cmdStLogClear, stCmd, Cmd.plain]
  dsimp only []
  refine Chip.recWrite_holds ?_
  refine Chip.rlogShow_holds ?_
  refine Chip.set_holds ?_
  refine Chip.setSlot_holds ?_
  refine Chip.holds_mk rfl rfl rfl rfl rfl rfl rfl rfl rfl rfl rfl rfl ?_
  exact h

theorem cmdLgStatus_holds {x0 x1} (h : Chip.Holds j c) : Chip.Holds j (Cmd.run cmdLgStatus x0 x1 c) := by
  dsimp -zeta only [cmdLgStatus, stCmd, Cmd.plain]
  dsimp only []
  refine Chip.ok_holds ?_
  exact h

theorem Chip.fuseRepaired_holds {x0} (h : Chip.Holds j c) : Chip.Holds j (Chip.fuseRepaired x0 c) := by
  unfold Chip.fuseRepaired
  extract_lets es all v d
  refine Chip.recWrite_holds (Chip.rlogShow_holds (Chip.set_holds ?_))
  refine Chip.holds_gen h rfl id id id id id id id id id (fun hu => ?_) id
  rw [List.length_append]
  have h1 : es.length ≤ 256 - c.st.fused.length := List.length_take_le ..
  omega

theorem Chip.fuseDone_holds (h : Chip.Holds j c) : Chip.Holds j (Chip.fuseDone c) := by
  unfold Chip.fuseDone
  split
  · exact h
  · extract_lets v6 v7
    have w8 : Chip.Holds j v7 := by
      unfold v7
      refine Chip.holds_mk rfl rfl rfl rfl rfl rfl rfl rfl rfl rfl rfl rfl ?_
      exact h
    clear_value v7
    refine Chip.holds_ite (fun p9 => ?_) (fun p9 => ?_)
    · refine Chip.fuseRepaired_holds ?_
      exact w8
    · refine Chip.burnDone_holds ?_
      exact w8

end Sys2Proof.Machine
end

