-- ==== Sys2Proof/Laws/KeepPower.lean ====
section
/-! SUPPORT. Each operation of Machine/Power.lean keeps the device sound and leaves its test access port. -/

namespace Sys2Proof.Machine

variable {j : Jtag} {c : Chip}

theorem Chip.setFset_holds {x0 x1} (h : Chip.Holds j c) : Chip.Holds j (Chip.setFset x0 x1 c) := by
  unfold Chip.setFset
  extract_lets v0
  have w1 : Chip.Holds j v0 := by
    unfold v0
    refine Chip.set_holds ?_
    exact h
  clear_value v0
  refine Chip.holds_ite (fun p2 => ?_) (fun p2 => ?_)
  · exact w1
  · refine Chip.holds_ite (fun p3 => ?_) (fun p3 => ?_)
    · exact w1
    · refine Chip.set_holds ?_
      exact w1

theorem Chip.clkWrite_holds {x0 x1} (h : Chip.Holds j c) : Chip.Holds j (Chip.clkWrite x0 x1 c).2 := by
  unfold Chip.clkWrite
  refine Chip.holds_ite_snd (fun p0 => ?_) (fun p0 => ?_)
  · refine Chip.holds_pair ?_
    refine Chip.setFset_holds ?_
    exact h
  · refine Chip.holds_pair ?_
    exact h

theorem Chip.slewDone_holds {x0} (h : Chip.Holds j c) : Chip.Holds j (Chip.slewDone x0 c) := by
  unfold Chip.slewDone
  refine Chip.holds_ite (fun p0 => ?_) (fun p0 => ?_)
  · exact h
  · extract_lets v1 v2
    have w3 : Chip.Holds j v1 := by
      unfold v1
      refine Chip.regionClock_holds ?_
      refine Chip.set_holds ?_
      exact h
    clear_value v1
    refine Chip.endAll_holds ?_
    exact w3

theorem cmdClkRegion_holds {x0 x1} (h : Chip.Holds j c) : Chip.Holds j (Cmd.run cmdClkRegion x0 x1 c) := by
  dsimp -zeta only [cmdClkRegion, Cmd.plain]
  extract_lets v0 v1
  have w2 : Chip.Holds j v1 := by
    unfold v1
    refine Chip.setFset_holds ?_
    exact h
  clear_value v1
  refine Chip.holds_ite (fun p3 => ?_) (fun p3 => ?_)
  · refine Chip.fail_holds ?_
    exact h
  · refine Chip.holds_ite (fun p4 => ?_) (fun p4 => ?_)
    · exact w2
    · refine Chip.ok_holds ?_
      exact w2

theorem cmdPwrRegion_holds {x0 x1} (h : Chip.Holds j c) : Chip.Holds j (Cmd.run cmdPwrRegion x0 x1 c) := by
  dsimp -zeta only [cmdPwrRegion, Cmd.plain]
  dsimp only []
  refine Chip.holds_ite (fun p0 => ?_) (fun p0 => ?_)
  · refine Chip.fail_holds ?_
    exact h
  · refine Chip.holds_ite (fun p1 => ?_) (fun p1 => ?_)
    · refine Chip.fail_holds ?_
      exact h
    · refine Chip.holds_ite (fun p2 => ?_) (fun p2 => ?_)
      · refine Chip.fail_holds ?_
        exact h
      · refine Chip.holds_ite (fun p3 => ?_) (fun p3 => ?_)
        · refine Chip.ok_holds ?_
          exact h
        · refine Chip.holds_ite (fun p4 => ?_) (fun p4 => ?_)
          · refine Chip.fail_holds ?_
            exact h
          · refine Chip.holds_ite (fun p5 => ?_) (fun p5 => ?_)
            · refine Chip.interim_holds ?_
              exact h
            · refine Chip.domClose_holds ?_
              refine Chip.interim_holds ?_
              exact h

theorem Chip.regionCmdsEnd_holds {x0 x1 x2} (h : Chip.Holds j c) : Chip.Holds j (Chip.regionCmdsEnd x0 x1 x2 c) := by
  unfold Chip.regionCmdsEnd
  extract_lets v0 v1
  refine Chip.endAll_holds ?_
  refine Chip.holds_mk rfl rfl rfl rfl rfl rfl rfl rfl rfl rfl rfl rfl ?_
  exact h

theorem Chip.powerRegionDone_holds {x0} (h : Chip.Holds j c) : Chip.Holds j (Chip.powerRegionDone x0 c) := by
  unfold Chip.powerRegionDone
  split
  · exact h
  · refine Chip.holds_ite (fun p5 => ?_) (fun p5 => ?_)
    · refine Chip.fail_holds ?_
      refine Chip.holds_ite (fun p6 => ?_) (fun p6 => ?_)
      · refine Chip.domOpen_holds ?_
        exact h
      · exact h
    · refine Chip.holds_ite (fun p7 => ?_) (fun p7 => ?_)
      · refine Chip.ok_holds ?_
        refine Chip.regionCmdsEnd_holds ?_
        refine Chip.spRegionOff_holds ?_
        refine Chip.regionOff_holds ?_
        refine Chip.domClosed_holds ?_
        exact h
      · refine Chip.ok_holds ?_
        refine Chip.domOpen_holds ?_
        refine Chip.spRegionOn_holds ?_
        refine Chip.regionRun_holds ?_
        exact h

theorem Chip.nvsUnc_holds {x0} (h : Chip.Holds j c) : Chip.Holds j (Chip.nvsUnc x0 c) := by
  unfold Chip.nvsUnc
  refine Chip.flagEvent_holds ?_
  refine Chip.set_holds ?_
  refine Chip.inc_holds ?_
  exact h

theorem Chip.userRead_holds {x0 x1 x2} (h : Chip.Holds j c) : Chip.Holds j (Chip.userRead x0 x1 x2 c) := by
  unfold Chip.userRead
  extract_lets v0
  split
  · refine Chip.fail_holds ?_
    refine Chip.nvsUnc_holds ?_
    exact h
  · refine Chip.ok_holds ?_
    exact h

theorem Chip.wordRead_holds {x0} (h : Chip.Holds j c) : Chip.Holds j (Chip.wordRead x0 c).2 := by
  unfold Chip.wordRead
  split
  · refine Chip.holds_pair ?_
    exact h
  · refine Chip.holds_pair ?_
    refine Chip.nvsUnc_holds ?_
    exact h

theorem Chip.nvsFollow_holds {x0} (h : Chip.Holds j c) : Chip.Holds j (Chip.nvsFollow x0 c) := by
  unfold Chip.nvsFollow
  split
  · exact h
  · refine Chip.finish_holds ?_
    exact h
  · refine Chip.respond_holds ?_
    exact h
  · refine Chip.answer_holds ?_
    exact h
  · refine Chip.finish_holds ?_
    refine Chip.holds_ite (fun p14 => ?_) (fun p14 => ?_)
    · exact h
    · refine Chip.holds_mk rfl rfl rfl rfl rfl rfl rfl rfl rfl rfl rfl rfl ?_
      exact h
  · refine Chip.userRead_holds ?_
    exact h
  · extract_lets v21
    have w22 : Chip.Holds j v21.2 := by
      unfold v21
      refine Chip.wordRead_holds ?_
      exact h
    clear_value v21
    refine Chip.answer_holds ?_
    exact w22
  · refine Chip.holds_mk rfl rfl rfl rfl rfl rfl rfl rfl rfl rfl rfl rfl ?_
    exact h

theorem Chip.nvsReads_holds (h : Chip.Holds j c) : Chip.Holds j (Chip.nvsReads c) := by
  unfold Chip.nvsReads
  refine Chip.forAll_holds ?_ ?_
  · intro y0
    intro y1
    intro y2
    refine Chip.nvsFollow_holds ?_
    refine Chip.holds_mk rfl rfl rfl rfl rfl rfl rfl rfl rfl rfl rfl rfl ?_
    exact y2
  · exact h

theorem Chip.nvsWordDone_holds {x0} (h : Chip.Holds j c) : Chip.Holds j (Chip.nvsWordDone x0 c) := by
  unfold Chip.nvsWordDone
  extract_lets p
  have hp : Chip.Holds j p.1 := Chip.nvsStep_holds h
  clear_value p
  refine Chip.nvsReads_holds ?_
  split
  · exact Chip.nvsFollow_holds hp
  · exact hp

theorem Chip.aperture_holds {x0 x1 x2 x3 x4 x5} (h : Chip.Holds j c) : Chip.Holds j (Chip.aperture x0 x1 x2 x3 x4 x5 c).2 := by
  unfold Chip.aperture
  refine Chip.holds_ite_snd (fun p0 => ?_) (fun p0 => ?_)
  · refine Chip.holds_pair ?_
    exact h
  · refine Chip.holds_ite_snd (fun p1 => ?_) (fun p1 => ?_)
    · refine Chip.holds_pair ?_
      exact h
    · extract_lets v2 v3
      have w4 : Chip.Holds j v3.2 := by
        unfold v3
        refine Chip.wordRead_holds ?_
        exact h
      clear_value v3
      refine Chip.holds_ite_snd (fun p5 => ?_) (fun p5 => ?_)
      · refine Chip.holds_pair ?_
        refine Chip.nvsWrite_holds ?_
        exact h
      · refine Chip.holds_ite_snd (fun p6 => ?_) (fun p6 => ?_)
        · refine Chip.holds_pair ?_
          exact h
        · refine Chip.holds_pair ?_
          exact w4

theorem Chip.apertureAccess_holds {x0 x1 x2 x3 x4} (h : Chip.Holds j c) : Chip.Holds j (Chip.apertureAccess x0 x1 x2 x3 x4 c) := by
  unfold Chip.apertureAccess
  split
  · rename_i z0 z1 z2 z3
    have w4 : Chip.Holds j z2 := Chip.holds_of_pair z3 (by
        refine Chip.aperture_holds ?_
        exact h
      )
    refine Chip.answer_holds ?_
    exact w4
  · rename_i z5 z6 z7
    have w8 : Chip.Holds j z6 := Chip.holds_of_pair z7 (by
        refine Chip.aperture_holds ?_
        exact h
      )
    refine Chip.holds_ite (fun p9 => ?_) (fun p9 => ?_)
    · exact w8
    · refine Chip.nvsJob_holds ?_
      exact w8

theorem Chip.upageSelf_holds {x0 x1 x2} (h : Chip.Holds j c) : Chip.Holds j (Chip.upageSelf x0 x1 x2 c).2 := by
  unfold Chip.upageSelf
  refine Chip.holds_ite_snd (fun p0 => ?_) (fun p0 => ?_)
  · refine Chip.holds_pair ?_
    exact h
  · refine Chip.holds_ite_snd (fun p1 => ?_) (fun p1 => ?_)
    · refine Chip.holds_pair ?_
      refine Chip.set_holds ?_
      exact h
    · refine Chip.holds_pair ?_
      exact h

theorem Chip.nvsCntClr_holds {x0} (h : Chip.Holds j c) : Chip.Holds j (Chip.nvsCntClr x0 c) := by
  unfold Chip.nvsCntClr
  refine Chip.holds_ite (fun p0 => ?_) (fun p0 => ?_)
  · refine Chip.clear_holds ?_
    exact h
  · exact h

theorem cmdPwrStatus_holds {x0 x1} (h : Chip.Holds j c) : Chip.Holds j (Cmd.run cmdPwrStatus x0 x1 c) := by
  dsimp -zeta only [cmdPwrStatus, Cmd.plain]
  refine Chip.ok_holds ?_
  refine Chip.holds_mk rfl rfl rfl rfl rfl rfl rfl rfl rfl rfl rfl rfl ?_
  exact h

theorem cmdNvsRecInfo_holds {x0 x1} (h : Chip.Holds j c) : Chip.Holds j (Cmd.run cmdNvsRecInfo x0 x1 c) := by
  dsimp -zeta only [cmdNvsRecInfo, Cmd.plain]
  extract_lets v0
  refine Chip.ok_holds ?_
  exact h

theorem cmdNvsRecRead_holds {x0 x1} (h : Chip.Holds j c) : Chip.Holds j (Cmd.run cmdNvsRecRead x0 x1 c) := by
  dsimp -zeta only [cmdNvsRecRead, Cmd.plain]
  split
  · refine Chip.fail_holds ?_
    exact h
  · refine Chip.ok_holds ?_
    exact h

theorem cmdNvsEvlogRead_holds {x0 x1} (h : Chip.Holds j c) : Chip.Holds j (Cmd.run cmdNvsEvlogRead x0 x1 c) := by
  dsimp -zeta only [cmdNvsEvlogRead, Cmd.plain]
  extract_lets v0
  refine Chip.ok_holds ?_
  exact h

theorem cmdNvsUser_holds {x0 x1} (h : Chip.Holds j c) : Chip.Holds j (Cmd.run cmdNvsUser x0 x1 c) := by
  dsimp -zeta only [cmdNvsUser, Cmd.plain]
  extract_lets v0 v1
  refine Chip.holds_ite (fun p2 => ?_) (fun p2 => ?_)
  · refine Chip.nvsWrite_holds ?_
    exact h
  · refine Chip.holds_ite (fun p3 => ?_) (fun p3 => ?_)
    · refine Chip.userRead_holds ?_
      exact h
    · refine Chip.nvsJob_holds ?_
      exact h

theorem cmdRdCalSave_holds {x0 x1} (h : Chip.Holds j c) : Chip.Holds j (Cmd.run cmdRdCalSave x0 x1 c) := by
  dsimp -zeta only [cmdRdCalSave, Cmd.plain]
  refine Chip.recWrite_holds ?_
  refine Chip.setSlot_holds ?_
  refine Chip.interim_holds ?_
  exact h

end Sys2Proof.Machine
end

