-- ==== Sys2Proof/Laws/KeepTarget.lean ====
section
/-! SUPPORT. Each operation of Machine/Target.lean keeps the device sound and leaves its test access port. -/

namespace Sys2Proof.Machine

variable {j : Jtag} {c : Chip}

theorem Chip.evqMask_holds {x0} (h : Chip.Holds j c) : Chip.Holds j (Chip.evqMask x0 c) := by
  unfold Chip.evqMask
  extract_lets v0
  refine Chip.ibiIfRisen_holds ?_
  refine Chip.set_holds ?_
  exact h

theorem Chip.evqClrLost_holds (h : Chip.Holds j c) : Chip.Holds j (Chip.evqClrLost c) := by
  unfold Chip.evqClrLost
  refine Chip.clear_holds ?_
  exact h

theorem Chip.evqFlush_holds (h : Chip.Holds j c) : Chip.Holds j (Chip.evqFlush c) :=
  Chip.evqOverflow_holds (Chip.holds_gen h rfl id id id (fun _ => Nat.zero_le _) id id id id id id id)

theorem Chip.evqCtl_holds {x0} (h : Chip.Holds j c) : Chip.Holds j (Chip.evqCtl x0 c) := by
  unfold Chip.evqCtl
  extract_lets v0
  have w1 : Chip.Holds j v0 := by
    unfold v0
    refine Chip.holds_ite (fun p2 => ?_) (fun p2 => ?_)
    · refine Chip.evqClrLost_holds ?_
      exact h
    · exact h
  clear_value v0
  refine Chip.holds_ite (fun p3 => ?_) (fun p3 => ?_)
  · refine Chip.evqFlush_holds ?_
    exact w1
  · exact w1

theorem Chip.chCntClr_holds {x0} (h : Chip.Holds j c) : Chip.Holds j (Chip.chCntClr x0 c) := by
  unfold Chip.chCntClr
  extract_lets v0
  have w1 : Chip.Holds j v0 := by
    unfold v0
    refine Chip.holds_ite (fun p2 => ?_) (fun p2 => ?_)
    · refine Chip.clear_holds ?_
      exact h
    · exact h
  clear_value v0
  refine Chip.holds_ite (fun p3 => ?_) (fun p3 => ?_)
  · refine Chip.clear_holds ?_
    exact w1
  · exact w1

theorem Chip.wrrWrite_holds {x0} (h : Chip.Holds j c) : Chip.Holds j (Chip.wrrWrite x0 c).2 := by
  unfold Chip.wrrWrite
  refine Chip.holds_ite_snd (fun p0 => ?_) (fun p0 => ?_)
  · refine Chip.holds_pair ?_
    exact h
  · extract_lets v1 v2 v3
    have w4 : Chip.Holds j v1 := by
      unfold v1
      refine Chip.set_holds ?_
      refine Chip.set_holds ?_
      refine Chip.set_holds ?_
      refine Chip.set_holds ?_
      exact h
    clear_value v1
    have w5 : Chip.Holds j v3 := by
      unfold v3
      refine Chip.holds_mk rfl rfl rfl rfl rfl rfl rfl rfl rfl rfl rfl rfl ?_
      exact w4
    clear_value v3
    refine Chip.holds_ite_snd (fun p6 => ?_) (fun p6 => ?_)
    · refine Chip.holds_pair ?_
      exact w4
    · refine Chip.holds_pair ?_
      refine Chip.set_holds ?_
      refine Chip.set_holds ?_
      exact w5

theorem Chip.niCntClr_holds {x0 x1} (h : Chip.Holds j c) : Chip.Holds j (Chip.niCntClr x0 x1 c) := by
  unfold Chip.niCntClr
  extract_lets v0 v1
  have w2 : Chip.Holds j v0 := by
    unfold v0
    refine Chip.holds_ite (fun p3 => ?_) (fun p3 => ?_)
    · refine Chip.clear_holds ?_
      exact h
    · exact h
  clear_value v0
  have w4 : Chip.Holds j v1 := by
    unfold v1
    refine Chip.holds_ite (fun p5 => ?_) (fun p5 => ?_)
    · refine Chip.clear_holds ?_
      exact w2
    · exact w2
  clear_value v1
  refine Chip.holds_ite (fun p6 => ?_) (fun p6 => ?_)
  · refine Chip.clear_holds ?_
    exact w4
  · exact w4

theorem Chip.niCtlWrite_holds {x0 x1} (h : Chip.Holds j c) : Chip.Holds j (Chip.niCtlWrite x0 x1 c).2 := by
  unfold Chip.niCtlWrite
  refine Chip.holds_ite_snd (fun p0 => ?_) (fun p0 => ?_)
  · refine Chip.holds_pair ?_
    exact h
  · refine Chip.holds_pair ?_
    refine Chip.set_holds ?_
    refine Chip.set_holds ?_
    refine Chip.set_holds ?_
    exact h

theorem Chip.readHalf_holds {x0 x1} (h : Chip.Holds j c) : Chip.Holds j (Chip.readHalf x0 x1 c).2 := by
  unfold Chip.readHalf
  split
  · refine Chip.holds_pair ?_
    exact h
  · refine Chip.holds_ite_snd (fun p5 => ?_) (fun p5 => ?_)
    · refine Chip.upageSelf_holds ?_
      exact h
    · refine Chip.holds_ite_snd (fun p6 => ?_) (fun p6 => ?_)
      · refine Chip.holds_pair ?_
        exact h
      · refine Chip.holds_ite_snd (fun p7 => ?_) (fun p7 => ?_)
        · extract_lets v8
          refine Chip.holds_pair ?_
          unfold v8
          refine Chip.spPop_holds ?_
          exact h
        · refine Chip.holds_ite_snd (fun p9 => ?_) (fun p9 => ?_)
          · refine Chip.holds_pair ?_
            refine Chip.freeNext_holds ?_
            exact h
          · refine Chip.holds_pair ?_
            exact h

theorem Chip.readWide_holds {x0 x1} (h : Chip.Holds j c) : Chip.Holds j (Chip.readWide x0 x1 c).2 := by
  unfold Chip.readWide
  extract_lets v0
  refine Chip.holds_ite_snd (fun p1 => ?_) (fun p1 => ?_)
  · unfold v0
    refine Chip.holds_pair ?_
    refine Chip.tsPortRead_holds ?_
    exact h
  · refine Chip.holds_ite_snd (fun p2 => ?_) (fun p2 => ?_)
    · unfold v0
      refine Chip.holds_pair ?_
      refine Chip.tsPop_holds ?_
      exact h
    · refine Chip.holds_ite_snd (fun p3 => ?_) (fun p3 => ?_)
      · unfold v0
        refine Chip.holds_pair ?_
        refine Chip.fatPortLo_holds ?_
        exact h
      · refine Chip.holds_ite_snd (fun p4 => ?_) (fun p4 => ?_)
        · unfold v0
          refine Chip.holds_pair ?_
          refine Chip.fatPortHi_holds ?_
          exact h
        · unfold v0
          refine Chip.holds_pair ?_
          refine Chip.holds_pair ?_
          exact h

theorem Chip.ctlRead_holds {x0 x1 x2} (h : Chip.Holds j c) : Chip.Holds j (Chip.ctlRead x0 x1 x2 c).2 := by
  unfold Chip.ctlRead
  refine Chip.holds_ite_snd (fun p0 => ?_) (fun p0 => ?_)
  · split
    · rename_i z1 z2 z3 z4 z5
      have w6 : Chip.Holds j z4 := Chip.holds_of_pair z5 (by
          refine Chip.aperture_holds ?_
          exact h
        )
      refine Chip.holds_pair ?_
      exact w6
    · rename_i z7 z8 z9
      have w10 : Chip.Holds j z8 := Chip.holds_of_pair z9 (by
          refine Chip.aperture_holds ?_
          exact h
        )
      refine Chip.holds_pair ?_
      exact w10
  · extract_lets v11 v12 v13
    have w14 : Chip.Holds j v12.2 := by
      unfold v12
      refine Chip.readHalf_holds ?_
      exact h
    clear_value v12
    have w15 : Chip.Holds j v13.2 := by
      unfold v13
      refine Chip.readHalf_holds ?_
      exact w14
    clear_value v13
    refine Chip.holds_ite_snd (fun p16 => ?_) (fun p16 => ?_)
    · refine Chip.holds_pair ?_
      exact h
    · refine Chip.holds_ite_snd (fun p17 => ?_) (fun p17 => ?_)
      · split
        · extract_lets v21
          have w22 : Chip.Holds j v21.2 := by
            unfold v21
            refine Chip.readWide_holds ?_
            exact h
          clear_value v21
          refine Chip.holds_pair ?_
          exact w22
        · refine Chip.holds_ite_snd (fun p25 => ?_) (fun p25 => ?_)
          · refine Chip.holds_pair ?_
            exact h
          · refine Chip.holds_ite_snd (fun p26 => ?_) (fun p26 => ?_)
            · refine Chip.holds_pair ?_
              exact h
            · refine Chip.holds_pair ?_
              exact w15
      · refine Chip.holds_pair ?_
        exact w14

theorem Chip.peWrite_holds {x0 x1 x2 x3} (h : Chip.Holds j c) : Chip.Holds j (Chip.peWrite x0 x1 x2 x3 c).2 := by
  unfold Chip.peWrite
  refine Chip.holds_ite_snd (fun p0 => ?_) (fun p0 => ?_)
  · refine Chip.peCtlWrite_holds ?_
    exact h
  · refine Chip.holds_ite_snd (fun p1 => ?_) (fun p1 => ?_)
    · refine Chip.stopBind_holds ?_
      exact h
    · refine Chip.holds_ite_snd (fun p2 => ?_) (fun p2 => ?_)
      · refine Chip.holds_pair ?_
        refine Chip.set_holds ?_
        exact h
      · refine Chip.holds_ite_snd (fun p3 => ?_) (fun p3 => ?_)
        · refine Chip.holds_pair ?_
          refine Chip.set_holds ?_
          exact h
        · refine Chip.holds_ite_snd (fun p4 => ?_) (fun p4 => ?_)
          · refine Chip.holds_ite_snd (fun p5 => ?_) (fun p5 => ?_)
            · refine Chip.holds_pair ?_
              exact h
            · refine Chip.holds_pair ?_
              refine Chip.setTimed_holds ?_
              exact h
          · refine Chip.holds_pair ?_
            refine Chip.writeFlds_holds ?_
            exact h

theorem Chip.rdWrite_holds {x0 x1 x2 x3} (h : Chip.Holds j c) : Chip.Holds j (Chip.rdWrite x0 x1 x2 x3 c).2 := by
  unfold Chip.rdWrite
  refine Chip.holds_ite_snd (fun p0 => ?_) (fun p0 => ?_)
  · refine Chip.holds_pair ?_
    exact h
  · refine Chip.holds_ite_snd (fun p1 => ?_) (fun p1 => ?_)
    · refine Chip.holds_pair ?_
      refine Chip.clearBits_holds ?_
      exact h
    · refine Chip.holds_pair ?_
      refine Chip.writeFlds_holds ?_
      exact h

theorem Chip.capWrite_holds {x0 x1 x2} (h : Chip.Holds j c) : Chip.Holds j (Chip.capWrite x0 x1 x2 c).2 := by
  unfold Chip.capWrite
  refine Chip.holds_ite_snd (fun p0 => ?_) (fun p0 => ?_)
  · refine Chip.holds_pair ?_
    exact h
  · refine Chip.holds_ite_snd (fun p1 => ?_) (fun p1 => ?_)
    · refine Chip.holds_pair ?_
      exact h
    · refine Chip.holds_ite_snd (fun p2 => ?_) (fun p2 => ?_)
      · refine Chip.holds_pair ?_
        refine Chip.capCntClr_holds ?_
        exact h
      · refine Chip.holds_pair ?_
        refine Chip.writeFlds_holds ?_
        exact h

theorem Chip.raeRegWrite_holds {x0 x1 x2} (h : Chip.Holds j c) : Chip.Holds j (Chip.raeRegWrite x0 x1 x2 c).2 := by
  unfold Chip.raeRegWrite
  refine Chip.holds_ite_snd (fun p0 => ?_) (fun p0 => ?_)
  · refine Chip.raeWrite_holds ?_
    exact h
  · refine Chip.holds_ite_snd (fun p1 => ?_) (fun p1 => ?_)
    · refine Chip.holds_pair ?_
      refine Chip.ringPump_holds ?_
      refine Chip.set_holds ?_
      exact h
    · refine Chip.holds_ite_snd (fun p2 => ?_) (fun p2 => ?_)
      · refine Chip.holds_pair ?_
        refine Chip.clearBits_holds ?_
        exact h
      · refine Chip.holds_pair ?_
        refine Chip.writeFlds_holds ?_
        exact h

theorem Chip.wwWrite_holds {x0 x1 x2} (h : Chip.Holds j c) : Chip.Holds j (Chip.wwWrite x0 x1 x2 c).2 := by
  unfold Chip.wwWrite
  refine Chip.holds_ite_snd (fun p0 => ?_) (fun p0 => ?_)
  · refine Chip.holds_pair ?_
    refine Chip.wwCntClr_holds ?_
    exact h
  · refine Chip.holds_ite_snd (fun p1 => ?_) (fun p1 => ?_)
    · refine Chip.tbCtlWrite_holds ?_
      exact h
    · refine Chip.holds_ite_snd (fun p2 => ?_) (fun p2 => ?_)
      · refine Chip.holds_ite_snd (fun p3 => ?_) (fun p3 => ?_)
        · refine Chip.holds_pair ?_
          exact h
        · refine Chip.holds_pair ?_
          refine Chip.writeFlds_holds ?_
          exact h
      · refine Chip.holds_ite_snd (fun p4 => ?_) (fun p4 => ?_)
        · refine Chip.holds_pair ?_
          refine Chip.wpCtlWrite_holds ?_
          exact h
        · refine Chip.holds_ite_snd (fun p5 => ?_) (fun p5 => ?_)
          · refine Chip.holds_pair ?_
            refine Chip.wpCntClr_holds ?_
            exact h
          · refine Chip.holds_ite_snd (fun p6 => ?_) (fun p6 => ?_)
            · refine Chip.routeWrite_holds ?_
              exact h
            · refine Chip.holds_pair ?_
              refine Chip.writeFlds_holds ?_
              exact h

theorem Chip.fabWrite_holds {x0 x1 x2} (h : Chip.Holds j c) : Chip.Holds j (Chip.fabWrite x0 x1 x2 c).2 := by
  unfold Chip.fabWrite
  extract_lets v0 v1 v2
  refine Chip.holds_ite_snd (fun p3 => ?_) (fun p3 => ?_)
  · refine Chip.fabBcast_holds ?_
    exact h
  · refine Chip.holds_ite_snd (fun p4 => ?_) (fun p4 => ?_)
    · refine Chip.holds_ite_snd (fun p5 => ?_) (fun p5 => ?_)
      · refine Chip.holds_pair ?_
        exact h
      · refine Chip.holds_pair ?_
        refine Chip.probeSettle_holds ?_
        refine Chip.writeFlds_holds ?_
        exact h
    · refine Chip.holds_ite_snd (fun p6 => ?_) (fun p6 => ?_)
      · refine Chip.holds_ite_snd (fun p7 => ?_) (fun p7 => ?_)
        · refine Chip.rgCtlWrite_holds ?_
          exact h
        · refine Chip.holds_ite_snd (fun p8 => ?_) (fun p8 => ?_)
          · refine Chip.capCtlWrite_holds ?_
            exact h
          · refine Chip.holds_ite_snd (fun p9 => ?_) (fun p9 => ?_)
            · refine Chip.trigWrite_holds ?_
              exact h
            · refine Chip.holds_ite_snd (fun p10 => ?_) (fun p10 => ?_)
              · refine Chip.trigWrite_holds ?_
                exact h
              · refine Chip.holds_pair ?_
                refine Chip.writeFlds_holds ?_
                exact h
      · refine Chip.holds_ite_snd (fun p11 => ?_) (fun p11 => ?_)
        · refine Chip.holds_ite_snd (fun p12 => ?_) (fun p12 => ?_)
          · refine Chip.spCtl_holds ?_
            exact h
          · refine Chip.holds_ite_snd (fun p13 => ?_) (fun p13 => ?_)
            · refine Chip.spPush_holds ?_
              exact h
            · refine Chip.holds_ite_snd (fun p14 => ?_) (fun p14 => ?_)
              · refine Chip.holds_pair ?_
                exact h
              · refine Chip.holds_pair ?_
                refine Chip.writeFlds_holds ?_
                exact h
        · refine Chip.holds_ite_snd (fun p15 => ?_) (fun p15 => ?_)
          · refine Chip.holds_ite_snd (fun p16 => ?_) (fun p16 => ?_)
            · refine Chip.pwrWrite_holds ?_
              exact h
            · refine Chip.holds_ite_snd (fun p17 => ?_) (fun p17 => ?_)
              · refine Chip.holds_pair ?_
                refine Chip.spCntClr_holds ?_
                exact h
              · refine Chip.holds_pair ?_
                refine Chip.writeFlds_holds ?_
                exact h
          · refine Chip.holds_pair ?_
            refine Chip.writeFlds_holds ?_
            exact h

theorem Chip.writeHalf_holds {x0 x1 x2} (h : Chip.Holds j c) : Chip.Holds j (Chip.writeHalf x0 x1 x2 c).2 := by
  unfold Chip.writeHalf
  split
  · refine Chip.holds_pair ?_
    exact h
  · extract_lets v5 v6 v7
    have w8 : Chip.Holds j v6.2 := by
      unfold v6
      refine Chip.holds_pair ?_
      refine Chip.writeFlds_holds ?_
      exact h
    clear_value v6
    have w9 : Chip.Holds j v7.2 := by
      unfold v7
      refine Chip.upageSelf_holds ?_
      exact h
    clear_value v7
    split
    · refine Chip.holds_ite_snd (fun p12 => ?_) (fun p12 => ?_)
      · refine Chip.holds_pair ?_
        refine Chip.chCntClr_holds ?_
        exact h
      · refine Chip.holds_ite_snd (fun p13 => ?_) (fun p13 => ?_)
        · refine Chip.holds_pair ?_
          refine Chip.evqMask_holds ?_
          exact h
        · refine Chip.holds_ite_snd (fun p14 => ?_) (fun p14 => ?_)
          · refine Chip.holds_pair ?_
            refine Chip.evqCtl_holds ?_
            exact h
          · exact w8
    · refine Chip.holds_ite_snd (fun p17 => ?_) (fun p17 => ?_)
      · refine Chip.libWrite_holds ?_
        exact h
      · refine Chip.holds_ite_snd (fun p18 => ?_) (fun p18 => ?_)
        · refine Chip.libWrite_holds ?_
          exact h
        · exact w8
    · refine Chip.peWrite_holds ?_
      exact h
    · refine Chip.rdWrite_holds ?_
      exact h
    · refine Chip.capWrite_holds ?_
      exact h
    · refine Chip.raeRegWrite_holds ?_
      exact h
    · refine Chip.holds_ite_snd (fun p29 => ?_) (fun p29 => ?_)
      · refine Chip.holds_pair ?_
        refine Chip.dmaDreq_holds ?_
        exact h
      · refine Chip.holds_ite_snd (fun p30 => ?_) (fun p30 => ?_)
        · refine Chip.holds_pair ?_
          refine Chip.dmaDreq_holds ?_
          exact h
        · refine Chip.holds_ite_snd (fun p31 => ?_) (fun p31 => ?_)
          · refine Chip.dmaRegWrite_holds ?_
            exact h
          · exact w8
    · refine Chip.holds_ite_snd (fun p34 => ?_) (fun p34 => ?_)
      · refine Chip.wrrWrite_holds ?_
        exact h
      · refine Chip.holds_ite_snd (fun p35 => ?_) (fun p35 => ?_)
        · refine Chip.niCtlWrite_holds ?_
          exact h
        · refine Chip.holds_ite_snd (fun p36 => ?_) (fun p36 => ?_)
          · refine Chip.holds_pair ?_
            refine Chip.niCntClr_holds ?_
            exact h
          · exact w8
    · refine Chip.holds_ite_snd (fun p39 => ?_) (fun p39 => ?_)
      · refine Chip.holds_pair ?_
        refine Chip.drCntClr_holds ?_
        exact h
      · exact w8
    · refine Chip.wwWrite_holds ?_
      exact h
    · refine Chip.holds_ite_snd (fun p44 => ?_) (fun p44 => ?_)
      · refine Chip.thCfgWrite_holds ?_
        exact h
      · refine Chip.holds_ite_snd (fun p45 => ?_) (fun p45 => ?_)
        · refine Chip.thHostWrite_holds ?_
          exact h
        · refine Chip.holds_ite_snd (fun p46 => ?_) (fun p46 => ?_)
          · refine Chip.clkWrite_holds ?_
            exact h
          · exact w8
    · refine Chip.holds_ite_snd (fun p49 => ?_) (fun p49 => ?_)
      · refine Chip.stCtlWrite_holds ?_
        exact h
      · refine Chip.holds_ite_snd (fun p50 => ?_) (fun p50 => ?_)
        · refine Chip.holds_pair ?_
          refine Chip.stCntClr_holds ?_
          exact h
        · exact w8
    · refine Chip.holds_ite_snd (fun p53 => ?_) (fun p53 => ?_)
      · refine Chip.lgCtlWrite_holds ?_
        exact h
      · refine Chip.holds_ite_snd (fun p54 => ?_) (fun p54 => ?_)
        · refine Chip.holds_pair ?_
          refine Chip.lgCntClr_holds ?_
          exact h
        · exact w8
    · refine Chip.holds_ite_snd (fun p57 => ?_) (fun p57 => ?_)
      · refine Chip.holds_pair ?_
        exact w9
      · refine Chip.holds_ite_snd (fun p58 => ?_) (fun p58 => ?_)
        · refine Chip.holds_pair ?_
          refine Chip.nvsCntClr_holds ?_
          exact h
        · exact w8
    · refine Chip.fabWrite_holds ?_
      exact h
    · exact w8

theorem Chip.writeWide_holds {x0 x1 x2 x3} (h : Chip.Holds j c) : Chip.Holds j (Chip.writeWide x0 x1 x2 x3 c).2 := by
  unfold Chip.writeWide
  split
  · refine Chip.tongueReq_holds ?_
    exact h
  · extract_lets v4 v5
    refine Chip.holds_ite_snd (fun p6 => ?_) (fun p6 => ?_)
    · refine Chip.imDataLo_holds ?_
      exact h
    · refine Chip.holds_ite_snd (fun p7 => ?_) (fun p7 => ?_)
      · refine Chip.imDataHi_holds ?_
        exact h
      · refine Chip.holds_pair ?_
        refine Chip.setTimed_holds ?_
        exact h
  · refine Chip.holds_ite_snd (fun p10 => ?_) (fun p10 => ?_)
    · refine Chip.tsPortWrite_holds ?_
      exact h
    · refine Chip.holds_pair ?_
      exact h
  · refine Chip.raeImport_holds ?_
    exact h
  · refine Chip.holds_pair ?_
    exact h

theorem Chip.writePair_holds {x0 x1 x2} (h : Chip.Holds j c) : Chip.Holds j (Chip.writePair x0 x1 x2 c).2 := by
  unfold Chip.writePair
  extract_lets v0 v1
  have w2 : Chip.Holds j v0.2 := by
    unfold v0
    refine Chip.writeHalf_holds ?_
    exact h
  clear_value v0
  have w3 : Chip.Holds j v1.2 := by
    unfold v1
    refine Chip.writeHalf_holds ?_
    exact w2
  clear_value v1
  refine Chip.holds_ite_snd (fun p4 => ?_) (fun p4 => ?_)
  · refine Chip.holds_pair ?_
    exact h
  · refine Chip.holds_ite_snd (fun p5 => ?_) (fun p5 => ?_)
    · refine Chip.holds_pair ?_
      exact h
    · refine Chip.holds_pair ?_
      exact w3

theorem Chip.ctlWrite_holds {x0 x1 x2 x3 x4} (h : Chip.Holds j c) : Chip.Holds j (Chip.ctlWrite x0 x1 x2 x3 x4 c).2 := by
  unfold Chip.ctlWrite
  refine Chip.holds_ite_snd (fun p0 => ?_) (fun p0 => ?_)
  · split
    · rename_i z1 z2 z3 z4 z5
      have w6 : Chip.Holds j z4 := Chip.holds_of_pair z5 (by
          refine Chip.aperture_holds ?_
          exact h
        )
      refine Chip.holds_pair ?_
      exact w6
    · rename_i z7 z8 z9
      have w10 : Chip.Holds j z8 := Chip.holds_of_pair z9 (by
          refine Chip.aperture_holds ?_
          exact h
        )
      refine Chip.holds_pair ?_
      exact w10
  · extract_lets v11
    have w12 : Chip.Holds j v11.2 := by
      unfold v11
      refine Chip.holds_ite_snd (fun p13 => ?_) (fun p13 => ?_)
      · refine Chip.writeHalf_holds ?_
        exact h
      · split
        · refine Chip.writeWide_holds ?_
          exact h
        · refine Chip.holds_ite_snd (fun p19 => ?_) (fun p19 => ?_)
          · refine Chip.holds_pair ?_
            refine Chip.ucalWrite_holds ?_
            exact h
          · refine Chip.holds_ite_snd (fun p20 => ?_) (fun p20 => ?_)
            · refine Chip.writeBm_holds ?_
              exact h
            · refine Chip.writePair_holds ?_
              exact h
    clear_value v11
    refine Chip.holds_pair ?_
    exact w12

theorem Chip.registerWrite_holds {x0 x1} (h : Chip.Holds j c) : Chip.Holds j (Chip.registerWrite x0 x1 c) := by
  unfold Chip.registerWrite
  split
  · refine Chip.holds_ite (fun p3 => ?_) (fun p3 => ?_)
    · refine Chip.answer_holds ?_
      exact h
    · split
      · rename_i z4 z5 z6 z7 z8
        have w9 : Chip.Holds j z7 := Chip.holds_of_pair z8 (by
            refine Chip.ctlWrite_holds ?_
            exact h
          )
        refine Chip.answer_holds ?_
        exact w9
      · rename_i z10 z11 z12 z13 z14
        have w15 : Chip.Holds j z12 := Chip.holds_of_pair z14 (by
            refine Chip.ctlWrite_holds ?_
            exact h
          )
        exact w15
  · refine Chip.holds_ite (fun p18 => ?_) (fun p18 => ?_)
    · refine Chip.answer_holds ?_
      exact h
    · refine Chip.answer_holds ?_
      exact h

end Sys2Proof.Machine
end

