-- ==== Sys2Proof/Laws/KeepNet.lean ====
section
/-! SUPPORT. Each operation of Machine/Net.lean keeps the device sound and leaves its test access port. -/

namespace Sys2Proof.Machine

variable {j : Jtag} {c : Chip}

theorem Chip.spadWord_holds {x0 x1 x2 x3 x4 x5} (h : Chip.Holds j c) : Chip.Holds j (Chip.spadWord x0 x1 x2 x3 x4 x5 c).2 := by
  unfold Chip.spadWord
  refine Chip.portB_holds ?_
  exact h

theorem Chip.spadWords_holds {x0 x1 x2 x3 x4 x5 x6 x7} (h : Chip.Holds j c) : Chip.Holds j (Chip.spadWords x0 x1 x2 x3 x4 x5 x6 x7 c).2 := by
  induction x5 generalizing c x0 x1 x2 x3 x4 x6 x7
  · unfold Chip.spadWords
    refine Chip.holds_pair ?_
    exact h
  · rename_i nn ih
    unfold Chip.spadWords
    split
    · rename_i z100 z101 z102
      have w103 : Chip.Holds j z101 := Chip.holds_of_pair z102 (by
          refine Chip.spadWord_holds ?_
          exact h
        )
      refine Chip.holds_pair ?_
      exact w103
    · rename_i z104 z105 z106 z107 z108
      have w109 : Chip.Holds j z107 := Chip.holds_of_pair z108 (by
          refine Chip.spadWord_holds ?_
          exact h
        )
      refine Chip.holds_ite_snd (fun p110 => ?_) (fun p110 => ?_)
      · refine ih ?_
        exact w109
      · refine Chip.holds_pair ?_
        exact w109

theorem Chip.netSpad_holds {x0 x1 x2 x3 x4} (h : Chip.Holds j c) : Chip.Holds j (Chip.netSpad x0 x1 x2 x3 x4 c) := by
  unfold Chip.netSpad
  refine Chip.holds_ite (fun p0 => ?_) (fun p0 => ?_)
  · refine Chip.gateEnter_holds ?_
    exact h
  · extract_lets v1 v2
    have w3 : Chip.Holds j v1.2 := by
      unfold v1
      refine Chip.spadWords_holds ?_
      exact h
    clear_value v1
    split
    · refine Chip.respond_holds ?_
      refine Chip.unflight_holds ?_
      exact w3
    · refine Chip.respond_holds ?_
      refine Chip.unflight_holds ?_
      exact w3

theorem Chip.netCtl_holds {x0 x1} (h : Chip.Holds j c) : Chip.HoldsO j (Chip.netCtl x0 x1 c) := by
  unfold Chip.netCtl
  extract_lets v0 v1 v2 v3 v4 v5 v6
  have w7 : Chip.Holds j v6.2 := by
    unfold v6
    refine Chip.holds_ite_snd (fun p8 => ?_) (fun p8 => ?_)
    · refine Chip.ctlRead_holds ?_
      exact h
    · refine Chip.ctlWrite_holds ?_
      exact h
  clear_value v6
  split
  · exact Chip.holdsO_none
  · refine Chip.holdsO_some ?_
    refine Chip.unflight_holds ?_
    exact w7
  · refine Chip.holdsO_some ?_
    unfold v4
    refine Chip.respond_holds ?_
    refine Chip.unflight_holds ?_
    exact w7

theorem Chip.perform_holds {x0 x1 x2} (h : Chip.Holds j c) : Chip.HoldsO j (Chip.perform x0 x1 x2 c) := by
  unfold Chip.perform
  extract_lets v0 v1
  refine Chip.holdsO_ite (fun p2 => ?_) (fun p2 => ?_)
  · refine Chip.holdsO_some ?_
    refine Chip.respond_holds ?_
    refine Chip.unflight_holds ?_
    exact h
  · split
    · refine Chip.holdsO_some ?_
      refine Chip.inc_holds ?_
      unfold v1
      refine Chip.respond_holds ?_
      refine Chip.unflight_holds ?_
      exact h
    · split
      · refine Chip.holdsO_ite (fun p10 => ?_) (fun p10 => ?_)
        · refine Chip.holdsO_some ?_
          unfold v1
          refine Chip.respond_holds ?_
          refine Chip.unflight_holds ?_
          exact h
        · refine Chip.drTake_holds ?_
          exact h
      · refine Chip.holdsO_some ?_
        refine Chip.netSpad_holds ?_
        exact h
      · refine Chip.holdsO_ite (fun p18 => ?_) (fun p18 => ?_)
        · refine Chip.holdsO_some ?_
          unfold v1
          refine Chip.respond_holds ?_
          refine Chip.unflight_holds ?_
          exact h
        · refine Chip.netCtl_holds ?_
          exact h
      · exact Chip.holdsO_none

theorem Chip.latency_holds {x0 x1 x2} (h : Chip.Holds j c) : Chip.Holds j (Chip.latency x0 x1 x2 c) := by
  unfold Chip.latency
  extract_lets v0
  have w1 : Chip.Holds j v0 := by
    unfold v0
    refine Chip.addSat_holds ?_
    refine Chip.inc_holds ?_
    exact h
  clear_value v0
  refine Chip.set_holds ?_
  exact w1

theorem Chip.setAccess_holds {x0 x1} (h : Chip.Holds j c) : Chip.Holds j (Chip.setAccess x0 x1 c) := by
  unfold Chip.setAccess
  refine Chip.holds_mk rfl rfl rfl rfl rfl rfl rfl rfl rfl rfl rfl rfl ?_
  exact h

theorem Chip.accessEnd_holds {x0 x1 x2} (h : Chip.Holds j c) : Chip.Holds j (Chip.accessEnd x0 x1 x2 c) := by
  unfold Chip.accessEnd
  extract_lets v0 v1
  have w2 : Chip.Holds j v1 := by
    unfold v1
    refine Chip.holds_mk rfl rfl rfl rfl rfl rfl rfl rfl rfl rfl rfl rfl ?_
    exact h
  clear_value v1
  refine Chip.finish_holds ?_
  exact w2

theorem Chip.accessAnswer_holds {x0 x1 x2} (h : Chip.Holds j c) : Chip.Holds j (Chip.accessAnswer x0 x1 x2 c) := by
  unfold Chip.accessAnswer
  split
  · exact h
  · refine Chip.holds_ite (fun p5 => ?_) (fun p5 => ?_)
    · refine Chip.accessEnd_holds ?_
      exact h
    · extract_lets v6 v7 v8
      refine Chip.holds_ite (fun p9 => ?_) (fun p9 => ?_)
      · refine Chip.accessEnd_holds ?_
        exact h
      · refine Chip.setAccess_holds ?_
        exact h

theorem Chip.agentAnswer_holds {x0 x1 x2 x3} (h : Chip.Holds j c) : Chip.Holds j (Chip.agentAnswer x0 x1 x2 x3 c) := by
  unfold Chip.agentAnswer
  split
  · refine Chip.emit_holds ?_
    exact h
  · refine Chip.dmaResp_holds ?_
    exact h
  · refine Chip.wwPump_holds ?_
    refine Chip.proxyAnswer_holds ?_
    exact h
  · refine Chip.accessAnswer_holds ?_
    exact h
  · refine Chip.holds_ite (fun p24 => ?_) (fun p24 => ?_)
    · refine Chip.raeRecord_holds ?_
      exact h
    · refine Chip.raeImported_holds ?_
      exact h
  · refine Chip.tonguePump_holds ?_
    exact h

theorem Chip.deliver_holds {x0 x1 x2} (h : Chip.Holds j c) : Chip.Holds j (Chip.deliver x0 x1 x2 c) := by
  unfold Chip.deliver
  extract_lets v0 v1 v2
  have w3 : Chip.Holds j v1 := by
    unfold v1
    refine Chip.holds_mk rfl rfl rfl rfl rfl rfl rfl rfl rfl rfl rfl rfl ?_
    exact h
  clear_value v1
  have w4 : Chip.Holds j v2 := by
    unfold v2
    refine Chip.netPump_holds ?_
    refine Chip.latency_holds ?_
    refine Chip.outShow_holds ?_
    refine Chip.wwLanded_holds ?_
    exact w3
  clear_value v2
  refine Chip.agentAnswer_holds ?_
  exact w4

theorem Chip.rspArrive_holds {x0 x1} (h : Chip.Holds j c) : Chip.Holds j (Chip.rspArrive x0 x1 c) := by
  unfold Chip.rspArrive
  extract_lets v0 v1
  have w2 : Chip.Holds j v1 := by
    unfold v1
    refine Chip.holds_mk rfl rfl rfl rfl rfl rfl rfl rfl rfl rfl rfl rfl ?_
    exact h
  clear_value v1
  refine Chip.holds_ite (fun p3 => ?_) (fun p3 => ?_)
  · exact w2
  · split
    · refine Chip.deliver_holds ?_
      exact w2
    · refine Chip.bufLate_holds ?_
      exact w2

theorem Chip.accessIssue_holds {x0} (h : Chip.Holds j c) : Chip.HoldsO j (Chip.accessIssue x0 c) := by
  unfold Chip.accessIssue
  extract_lets be n v
  exact Chip.holdsO_map (fun d e => Chip.setAccess_holds (Chip.niIssue_holds h d e))

theorem Chip.holdsO_findSome {α : Type} {l : List α} {f : α → Option Chip} (hf : ∀ a, Chip.HoldsO j (f a)) :
    Chip.HoldsO j (l.findSome? f) := by
  intro d e
  obtain ⟨a, _, ha⟩ := List.exists_of_findSome?_eq_some e
  exact hf a d ha

theorem Chip.accessStep_holds (h : Chip.Holds j c) : Chip.HoldsO j (Chip.accessStep c) := by
  unfold Chip.accessStep
  split
  · rename_i e
    refine Chip.holdsO_some (Chip.holdsO_findSome (fun a => ?_) _ e)
    exact Chip.holdsO_ite (fun _ => Chip.holdsO_none) (fun _ => Chip.accessIssue_holds h)
  · split
    · rename_i e
      refine Chip.holdsO_some (Chip.holdsO_findSome (fun a => ?_) _ e)
      exact Chip.holdsO_ite (fun _ => Chip.perform_holds h) (fun _ => Chip.holdsO_none)
    · exact Chip.holdsO_map (fun _ _ => Chip.rspArrive_holds (Chip.freeNext_holds h))

theorem Chip.accessRun_holds {x0} (h : Chip.Holds j c) : Chip.Holds j (Chip.accessRun x0 c) := by
  induction x0 generalizing c
  · unfold Chip.accessRun
    exact h
  · rename_i nn ih
    unfold Chip.accessRun
    split
    · rename_i z9 z10 z11
      have w12 : Chip.Holds j z10 := Chip.accessStep_holds (by
          exact h
        ) _ z11
      refine ih ?_
      exact w12
    · exact h

theorem Chip.accessPump_holds (h : Chip.Holds j c) : Chip.Holds j (Chip.accessPump c) := by
  unfold Chip.accessPump
  refine Chip.accessRun_holds ?_
  exact h

theorem Chip.riserTake_holds {x0} (h : Chip.Holds j c) : Chip.HoldsO j (Chip.riserTake x0 c) := by
  unfold Chip.riserTake
  exact Chip.holdsO_map (fun d e => Chip.holds_mk rfl rfl rfl rfl rfl rfl rfl rfl rfl rfl rfl rfl (Chip.niIssue_holds h d e))

theorem Chip.riserPump_holds (h : Chip.Holds j c) : Chip.Holds j (Chip.riserPump c) := by
  unfold Chip.riserPump
  refine Chip.forAll_holds ?_ ?_
  · intro y0
    intro y1
    intro y2
    refine Chip.holds_ite (fun p3 => ?_) (fun p3 => ?_)
    · refine Chip.holds_getD ?_ ?_
      · refine Chip.riserTake_holds ?_
        exact y2
      · exact y2
    · exact y2
  · exact h

theorem Chip.netServe_holds (h : Chip.Holds j c) : Chip.Holds j (Chip.netServe c) := by
  unfold Chip.netServe
  refine Chip.accessPump_holds ?_
  refine Chip.riserPump_holds ?_
  exact h

theorem Chip.riserEnter_holds {x0} (h : Chip.Holds j c) : Chip.Holds j (Chip.riserEnter x0 c) := by
  unfold Chip.riserEnter
  refine Chip.holds_ite (fun p0 => ?_) (fun p0 => ?_)
  · exact h
  · refine Chip.holds_mk rfl rfl rfl rfl rfl rfl rfl rfl rfl rfl rfl rfl ?_
    exact h

theorem Chip.netRow_holds {x0 x1 x2 x3 x4} (h : Chip.Holds j c) : Chip.Holds j (Chip.netRow x0 x1 x2 x3 x4 c) := by
  unfold Chip.netRow
  split
  · refine Chip.holds_ite (fun p3 => ?_) (fun p3 => ?_)
    · refine Chip.netServe_holds ?_
      refine Chip.holds_getD ?_ ?_
      · refine Chip.perform_holds ?_
        exact h
      · exact h
    · exact h
  · exact h

theorem Chip.niAccept_holds {x0 x1} (h : Chip.Holds j c) : Chip.Holds j (Chip.niAccept x0 x1 c) := by
  unfold Chip.niAccept
  split
  · refine Chip.holds_ite (fun p8 => ?_) (fun p8 => ?_)
    · extract_lets v9
      refine Chip.riserPump_holds ?_
      refine Chip.riserEnter_holds ?_
      exact h
    · exact h
  · refine Chip.holds_ite (fun p12 => ?_) (fun p12 => ?_)
    · refine Chip.dmaAsk_holds ?_
      exact h
    · exact h
  · refine Chip.holds_ite (fun p14 => ?_) (fun p14 => ?_)
    · refine Chip.accessPump_holds ?_
      exact h
    · exact h
  · refine Chip.holds_ite (fun p16 => ?_) (fun p16 => ?_)
    · refine Chip.holds_getD ?_ ?_
      · refine Chip.raeIssue_holds ?_
        exact h
      · exact h
    · exact h
  · refine Chip.holds_ite (fun p18 => ?_) (fun p18 => ?_)
    · refine Chip.tonguePump_holds ?_
      exact h
    · exact h

theorem Chip.netUport_holds {x0 x1 x2} (h : Chip.Holds j c) : Chip.Holds j (Chip.netUport x0 x1 x2 c) := by
  unfold Chip.netUport
  extract_lets v0 v1 v2
  refine Chip.holds_ite (fun p3 => ?_) (fun p3 => ?_)
  · exact h
  · refine Chip.holds_ite (fun p4 => ?_) (fun p4 => ?_)
    · unfold v2
      refine Chip.inc_holds ?_
      refine Chip.holds_mk rfl rfl rfl rfl rfl rfl rfl rfl rfl rfl rfl rfl ?_
      exact h
    · refine Chip.holds_ite (fun p5 => ?_) (fun p5 => ?_)
      · exact h
      · refine Chip.holds_ite (fun p6 => ?_) (fun p6 => ?_)
        · unfold v2
          refine Chip.inc_holds ?_
          refine Chip.holds_mk rfl rfl rfl rfl rfl rfl rfl rfl rfl rfl rfl rfl ?_
          exact h
        · split
          · refine Chip.forAll_holds ?_ ?_
            · intro y12
              intro y13
              intro y14
              refine Chip.uportVector_holds ?_
              exact y14
            · exact h
          · refine Chip.uportFlags_holds ?_
            exact h

theorem Chip.netResponse_holds {x0 x1 x2 x3} (h : Chip.Holds j c) : Chip.Holds j (Chip.netResponse x0 x1 x2 x3 c) := by
  unfold Chip.netResponse
  split
  · refine Chip.netServe_holds ?_
    refine Chip.rspArrive_holds ?_
    exact h
  · exact h

theorem Chip.raeRecordRsp_holds {x0 x1 x2} (h : Chip.Holds j c) : Chip.Holds j (Chip.raeRecordRsp x0 x1 x2 c) := by
  unfold Chip.raeRecordRsp
  split
  · refine Chip.netResponse_holds ?_
    exact h
  · exact h

theorem Chip.niTimeout_holds {x0 x1} (h : Chip.Holds j c) : Chip.Holds j (Chip.niTimeout x0 x1 c) := by
  unfold Chip.niTimeout
  split
  · exact h
  · extract_lets v5 v6 v7
    have w8 : Chip.Holds j v6 := by
      unfold v6
      refine Chip.holds_mk rfl rfl rfl rfl rfl rfl rfl rfl rfl rfl rfl rfl ?_
      exact h
    clear_value v6
    have w9 : Chip.Holds j v7 := by
      unfold v7
      refine Chip.set_holds ?_
      refine Chip.inc_holds ?_
      refine Chip.outCancel_holds ?_
      exact w8
    clear_value v7
    refine Chip.netServe_holds ?_
    refine Chip.agentAnswer_holds ?_
    refine Chip.latency_holds ?_
    exact w9

theorem Chip.busyExpiry_holds {x0 x1} (h : Chip.Holds j c) : Chip.Holds j (Chip.busyExpiry x0 x1 c) := by
  unfold Chip.busyExpiry
  split
  · exact h
  · refine Chip.holds_ite (fun p5 => ?_) (fun p5 => ?_)
    · exact h
    · refine Chip.set_holds ?_
      refine Chip.inc_holds ?_
      refine Chip.respond_holds ?_
      refine Chip.unflight_holds ?_
      exact h

theorem Chip.domReopen_holds {x0} (h : Chip.Holds j c) : Chip.Holds j (Chip.domReopen x0 c) := by
  unfold Chip.domReopen
  refine Chip.holds_ite (fun p0 => ?_) (fun p0 => ?_)
  · refine Chip.domOpen_holds ?_
    exact h
  · exact h

theorem Chip.quiesced_holds {x0} (h : Chip.Holds j c) : Chip.Holds j (Chip.quiesced x0 c) := by
  unfold Chip.quiesced
  refine Chip.holds_ite (fun p0 => ?_) (fun p0 => ?_)
  · exact h
  · extract_lets v1 v2 v3 v4 v5
    have w6 : Chip.Holds j v3 := by
      unfold v3
      refine Chip.holds_mk rfl rfl rfl rfl rfl rfl rfl rfl rfl rfl rfl rfl ?_
      exact h
    clear_value v3
    have w7 : Chip.Holds j v4 := by
      unfold v4
      refine Chip.set_holds ?_
      refine Chip.forAll_holds ?_ ?_
      · intro y8
        intro y9
        intro y10
        refine Chip.halfApply_holds ?_
        exact y10
      · exact w6
    clear_value v4
    split
    · exact w7
    · refine Chip.holds_ite (fun p17 => ?_) (fun p17 => ?_)
      · exact w7
      · extract_lets v18
        have w19 : Chip.Holds j v18 := by
          unfold v18
          refine Chip.holds_mk rfl rfl rfl rfl rfl rfl rfl rfl rfl rfl rfl rfl ?_
          exact w7
        clear_value v18
        split
        · refine Chip.set_holds ?_
          exact w19
        · refine Chip.set_holds ?_
          exact w19

theorem Chip.quiesceRetry_holds {x0} (h : Chip.Holds j c) : Chip.Holds j (Chip.quiesceRetry x0 c) := by
  unfold Chip.quiesceRetry
  refine Chip.holds_ite (fun p0 => ?_) (fun p0 => ?_)
  · exact h
  · refine Chip.holds_ite (fun p1 => ?_) (fun p1 => ?_)
    · refine Chip.set_holds ?_
      refine Chip.holds_mk rfl rfl rfl rfl rfl rfl rfl rfl rfl rfl rfl rfl ?_
      exact h
    · extract_lets v2 v3
      refine Chip.set_holds ?_
      refine Chip.set_holds ?_
      refine Chip.holds_mk rfl rfl rfl rfl rfl rfl rfl rfl rfl rfl rfl rfl ?_
      exact h

end Sys2Proof.Machine
end

