-- ==== Sys2Proof/Laws/KeepDevice.lean ====
section
/-! SUPPORT. Each operation of Machine/Device.lean keeps the device sound and leaves its test access port. -/

namespace Sys2Proof.Machine

variable {j : Jtag} {c : Chip}

theorem Chip.burnsEnd_holds (h : Chip.Holds j c) : Chip.Holds j (Chip.burnsEnd c) := by
  unfold Chip.burnsEnd
  refine Chip.forAll_holds ?_ ?_
  · intro y0
    intro y1
    intro y2
    extract_lets v3 v4 v5
    have w6 : Chip.Holds j v4 := by
      unfold v4
      refine Chip.freeNext_holds ?_
      exact y2
    clear_value v4
    refine Chip.holds_ite (fun p7 => ?_) (fun p7 => ?_)
    · refine Chip.fuseDone_holds ?_
      exact w6
    · refine Chip.holds_mk rfl rfl rfl rfl rfl rfl rfl rfl rfl rfl rfl rfl ?_
      exact w6
  · exact h

theorem Chip.spReset_holds {x0} (h : Chip.Holds j c) : Chip.Holds j (Chip.spReset x0 c) := by
  unfold Chip.spReset
  refine Chip.holds_ite (fun p0 => ?_) (fun p0 => ?_)
  · refine Chip.forAll_holds ?_ ?_
    · intro y1
      intro y2
      intro y3
      refine Chip.forAll_holds ?_ ?_
      · intro y4
        intro y5
        intro y6
        refine Chip.holds_ite (fun p7 => ?_) (fun p7 => ?_)
        · refine Chip.bankZero_holds ?_
          exact y6
        · exact y6
      · exact y3
    · exact h
  · refine Chip.holds_mk_mem rfl rfl rfl rfl rfl rfl rfl rfl rfl rfl rfl ?_ (fun hm => ?_)
    · exact h
    · repeat first | with_reducible exact hm | with_reducible refine wf_memWrite _ _ ?_ | with_reducible refine wf_memZero _ _ ?_ | with_reducible refine wf_memWriteMask _ _ ?_ | with_reducible refine wf_filter _ ?_ | with_reducible refine wf_memPut _ _ ?_ | with_reducible refine wf_foldl _ (fun m a hm => ?_) ?_ | split | exact hm

theorem Chip.islandReset_holds {x0} (h : Chip.Holds j c) : Chip.Holds j (Chip.islandReset x0 c) := by
  unfold Chip.islandReset
  extract_lets d
  have hd : Chip.Holds j d := Chip.drQueueReset_holds (Chip.spReset_holds (Chip.burnsEnd_holds h))
  clear_value d
  exact Chip.holds_gen hd rfl id (fun _ => Nat.zero_le _) (fun _ => Nat.zero_le _) (fun _ => Nat.zero_le _) (fun _ => Nat.zero_le _) id
    (fun _ _ he => by cases he) (fun _ _ he => by cases he) (fun _ _ he => by cases he) id id

theorem Chip.owe_holds {x0 x1} (h : Chip.Holds j c) : Chip.Holds j (Chip.owe x0 x1 c) := by
  unfold Chip.owe
  refine Chip.holds_mk rfl rfl rfl rfl rfl rfl rfl rfl rfl rfl rfl rfl ?_
  exact h

theorem Chip.oweOnce_holds {x0 x1} (h : Chip.Holds j c) : Chip.Holds j (Chip.oweOnce x0 x1 c) := by
  unfold Chip.oweOnce
  refine Chip.owe_holds ?_
  refine Chip.holds_mk rfl rfl rfl rfl rfl rfl rfl rfl rfl rfl rfl rfl ?_
  exact h

theorem Chip.enterBoot_holds {x0} (h : Chip.Holds j c) : Chip.Holds j (Chip.enterBoot x0 c) := by
  unfold Chip.enterBoot
  extract_lets l d1 d2 d3 v d4 d5 v'
  have h3 : Chip.Holds j d3 := Chip.inc_holds (Chip.set_holds (Chip.arrive_holds (Chip.set_holds (Chip.set_holds h))))
  clear_value d3
  have h4 : Chip.Holds j d4 := Chip.holds_gen h3 rfl id id id (fun _ => Nat.zero_le _) id id id id id id id
  clear_value d4
  have h5 : Chip.Holds j d5 := Chip.drTrain_holds (by
    split
    · exact Chip.drZero_holds h4
    · exact h4)
  clear_value d5
  exact Chip.emit_holds (Chip.holds_mk rfl rfl rfl rfl rfl rfl rfl rfl rfl rfl rfl rfl h5)

theorem Chip.warmClear_holds (h : Chip.Holds j c) : Chip.Holds j (Chip.warmClear c) := by
  unfold Chip.warmClear
  extract_lets ws d1 d2 d3 v
  have h1 : Chip.Holds j d1 := Chip.set_holds (Chip.arrive_holds h)
  clear_value d1
  have h2 : Chip.Holds j d2 := Chip.holds_mk rfl rfl rfl rfl rfl rfl rfl rfl rfl rfl rfl rfl h1
  clear_value d2
  have h3 : Chip.Holds j d3 := Chip.islandReset_holds (Chip.denAllLow_holds (Chip.nvsStop_holds h2))
  clear_value d3
  exact Chip.holds_gen h3 rfl id id id id id id id id id id (fun _ _ e => by cases e)

theorem Chip.warmReset_holds {x0} (h : Chip.Holds j c) : Chip.Holds j (Chip.warmReset x0 c) := by
  unfold Chip.warmReset
  refine Chip.holds_ite (fun p0 => ?_) (fun p0 => ?_)
  · refine Chip.holds_mk rfl rfl rfl rfl rfl rfl rfl rfl rfl rfl rfl rfl ?_
    exact h
  · refine Chip.holds_ite (fun p1 => ?_) (fun p1 => ?_)
    · exact h
    · refine Chip.enterBoot_holds ?_
      refine Chip.warmClear_holds ?_
      exact h

theorem Chip.holdReset_holds (h : Chip.Holds j c) : Chip.Holds j (Chip.holdReset c) := by
  unfold Chip.holdReset
  refine Chip.holds_ite (fun p0 => ?_) (fun p0 => ?_)
  · refine Chip.holds_mk rfl rfl rfl rfl rfl rfl rfl rfl rfl rfl rfl rfl ?_
    exact h
  · refine Chip.holds_ite (fun p1 => ?_) (fun p1 => ?_)
    · exact h
    · extract_lets v2 v3
      have w4 : Chip.Holds j v2 := by
        unfold v2
        refine Chip.warmClear_holds ?_
        exact h
      clear_value v2
      refine Chip.holds_mk rfl rfl rfl rfl rfl rfl rfl rfl rfl rfl rfl rfl ?_
      exact w4

theorem Chip.strap_holds {x0 x1} (h : Chip.Holds j c) : Chip.Holds j (Chip.strap x0 x1 c) := by
  unfold Chip.strap
  refine Chip.set_holds ?_
  refine Chip.holds_mk rfl rfl rfl rfl rfl rfl rfl rfl rfl rfl rfl rfl ?_
  exact h

theorem Chip.logicPower_holds (h : Chip.Holds j c) : Chip.Holds j (Chip.logicPower c) := by
  unfold Chip.logicPower
  refine Chip.holds_ite (fun p0 => ?_) (fun p0 => ?_)
  · refine Chip.set_holds ?_
    exact h
  · exact h

theorem Chip.porCheck_holds {x0} (h : Chip.Holds j c) : Chip.Holds j (Chip.porCheck x0 c) := by
  unfold Chip.porCheck
  refine Chip.holds_ite (fun _ => ?_) (fun _ => h)
  extract_lets v1 v2 v3 v4
  have w2 : Chip.Holds j v2 := Chip.holds_mk rfl rfl rfl rfl rfl rfl rfl rfl rfl rfl rfl rfl h
  have w4 : Chip.Holds j v4 := Chip.holds_ite (fun _ => Chip.freeNext_holds w2) (fun _ => w2)
  clear_value v4
  exact Chip.enterBoot_holds (Chip.set_holds (Chip.strap_holds w4))

theorem Chip.holdEnd_holds {x0} (h : Chip.Holds j c) : Chip.Holds j (Chip.holdEnd x0 c) := by
  unfold Chip.holdEnd
  refine Chip.holds_ite (fun p0 => ?_) (fun p0 => ?_)
  · extract_lets v1 v2 v3
    have w4 : Chip.Holds j v3 := by
      unfold v3
      refine Chip.holds_mk rfl rfl rfl rfl rfl rfl rfl rfl rfl rfl rfl rfl ?_
      exact h
    clear_value v3
    generalize v1 = u5
    split
    · refine Chip.enterBoot_holds ?_
      exact w4
    · exact w4
  · refine Chip.porCheck_holds ?_
    exact h

theorem Chip.seqViol_holds (h : Chip.Holds j c) : Chip.Holds j (Chip.seqViol c) := by
  unfold Chip.seqViol
  extract_lets v0
  have w1 : Chip.Holds j v0 := by
    unfold v0
    refine Chip.set_holds ?_
    exact h
  clear_value v0
  refine Chip.holds_ite (fun p2 => ?_) (fun p2 => ?_)
  · exact w1
  · refine Chip.owe_holds ?_
    exact w1

theorem Chip.nvsPowerLoss_holds (h : Chip.Holds j c) : Chip.Holds j (Chip.nvsPowerLoss c) := by
  unfold Chip.nvsPowerLoss
  extract_lets v0 v1 v2 v3 v4
  have w5 : Chip.Holds j v1 := by
    unfold v1
    refine Chip.freeNext_holds ?_
    exact h
  clear_value v1
  have w6 : Chip.Holds j v3 := by
    unfold v3
    refine Chip.freeNext_holds ?_
    exact w5
  clear_value v3
  have w7 : Chip.Holds j v4 := by
    unfold v4
    refine Chip.forAll_holds ?_ ?_
    · intro y8
      intro y9
      intro y10
      refine Chip.holds_ite (fun p11 => ?_) (fun p11 => ?_)
      · split
        · refine Chip.nvsPut_holds ?_
          exact y10
        · exact y10
      · exact y10
    · exact w6
  clear_value v4
  refine Chip.nvsTear_holds ?_
  exact w7

theorem Chip.aonValid_holds (h : Chip.Holds j c) : Chip.Holds j (Chip.aonValid c) := by
  unfold Chip.aonValid
  refine Chip.holds_ite (fun p0 => ?_) (fun p0 => ?_)
  · exact h
  · extract_lets v1 v2 v3
    have w4 : Chip.Holds j v1 := by
      unfold v1
      refine Chip.set_holds ?_
      exact h
    clear_value v1
    have w5 : Chip.Holds j v2 := by
      unfold v2
      refine Chip.set_holds ?_
      refine Chip.setState_holds ?_
      exact w4
    clear_value v2
    have w6 : Chip.Holds j v3 := by
      unfold v3
      refine Chip.holds_ite (fun p7 => ?_) (fun p7 => ?_)
      · refine Chip.seqViol_holds ?_
        exact w5
      · exact w5
    clear_value v3
    refine Chip.porCheck_holds ?_
    refine Chip.logicPower_holds ?_
    exact w6

theorem Chip.aonLost_holds (h : Chip.Holds j c) : Chip.Holds j (Chip.aonLost c) := by
  unfold Chip.aonLost
  refine Chip.holds_ite (fun _ => h) (fun _ => ?_)
  extract_lets d1 d2 v keep d3 d4
  have h2 : Chip.Holds j d2 := Chip.drZero_holds (Chip.islandReset_holds (Chip.denAllLow_holds (Chip.nvsPowerLoss_holds h)))
  clear_value d2
  have h3 : Chip.Holds j d3 := Chip.holds_gen h2 rfl id id id id id id id id id id (fun _ _ e => by cases e)
  clear_value d3
  exact Chip.arrive_holds (Chip.set_holds h3)

theorem Chip.railUp_holds {x0 x1} (h : Chip.Holds j c) : Chip.Holds j (Chip.railUp x0 x1 c) := by
  unfold Chip.railUp
  extract_lets v0 v1 v2 v3 v4 v5 v6
  have w7 : Chip.Holds j v2 := by
    unfold v2
    refine Chip.holds_ite (fun p8 => ?_) (fun p8 => ?_)
    · refine Chip.holds_mk rfl rfl rfl rfl rfl rfl rfl rfl rfl rfl rfl rfl ?_
      exact h
    · exact h
  clear_value v2
  have w9 : Chip.Holds j v4 := by
    unfold v4
    refine Chip.set_holds ?_
    exact w7
  clear_value v4
  have w10 : Chip.Holds j v5 := by
    unfold v5
    refine Chip.holds_ite (fun p11 => ?_) (fun p11 => ?_)
    · refine Chip.seqViol_holds ?_
      exact w9
    · exact w9
  clear_value v5
  have w12 : Chip.Holds j v6 := by
    unfold v6
    refine Chip.holds_ite (fun p13 => ?_) (fun p13 => ?_)
    · refine Chip.auxAll_holds ?_
      exact w10
    · exact w10
  clear_value v6
  refine Chip.holds_ite (fun p14 => ?_) (fun p14 => ?_)
  · exact h
  · refine Chip.holds_ite (fun p15 => ?_) (fun p15 => ?_)
    · exact w9
    · refine Chip.porCheck_holds ?_
      refine Chip.logicPower_holds ?_
      exact w12

theorem Chip.railDown_holds {x0} (h : Chip.Holds j c) : Chip.Holds j (Chip.railDown x0 c) := by
  unfold Chip.railDown
  refine Chip.holds_ite (fun p0 => ?_) (fun p0 => ?_)
  · exact h
  · extract_lets v1 v2 v3 v4 v5 v6
    have w7 : Chip.Holds j v1 := by
      unfold v1
      refine Chip.set_holds ?_
      exact h
    clear_value v1
    have w8 : Chip.Holds j v2 := by
      unfold v2
      refine Chip.owe_holds ?_
      refine Chip.set_holds ?_
      exact w7
    clear_value v2
    have w9 : Chip.Holds j v3 := by
      unfold v3
      refine Chip.holds_ite (fun p10 => ?_) (fun p10 => ?_)
      · refine Chip.spReset_holds ?_
        refine Chip.set_holds ?_
        exact w8
      · exact w8
    clear_value v3
    have w11 : Chip.Holds j v4 := by
      unfold v4
      refine Chip.holds_ite (fun p12 => ?_) (fun p12 => ?_)
      · refine Chip.nvsPowerLoss_holds ?_
        exact w9
      · exact w9
    clear_value v4
    have w13 : Chip.Holds j v6 := by
      unfold v6
      refine Chip.holds_mk rfl rfl rfl rfl rfl rfl rfl rfl rfl rfl rfl rfl ?_
      exact w11
    clear_value v6
    refine Chip.holds_ite (fun p14 => ?_) (fun p14 => ?_)
    · exact w7
    · refine Chip.holdReset_holds ?_
      refine Chip.tie_holds ?_
      exact w13

theorem Chip.auxDown_holds (h : Chip.Holds j c) : Chip.Holds j (Chip.auxDown c) := by
  unfold Chip.auxDown
  refine Chip.holds_ite (fun p0 => ?_) (fun p0 => ?_)
  · exact h
  · extract_lets v1 v2
    have w3 : Chip.Holds j v1 := by
      unfold v1
      refine Chip.set_holds ?_
      exact h
    clear_value v1
    have w4 : Chip.Holds j v2 := by
      unfold v2
      refine Chip.auxAll_holds ?_
      exact w3
    clear_value v2
    refine Chip.raiseIf_holds ?_
    exact w4

theorem Chip.railsBack_holds (h : Chip.Holds j c) : Chip.Holds j (Chip.railsBack c) := by
  unfold Chip.railsBack
  refine Chip.holds_ite (fun p0 => ?_) (fun p0 => ?_)
  · refine Chip.holdEnd_holds ?_
    refine Chip.holds_mk rfl rfl rfl rfl rfl rfl rfl rfl rfl rfl rfl rfl ?_
    exact h
  · exact h

theorem Chip.resetLow_holds (h : Chip.Holds j c) : Chip.Holds j (Chip.resetLow c) := by
  unfold Chip.resetLow
  extract_lets v0 v1
  have w2 : Chip.Holds j v0 := by
    unfold v0
    refine Chip.tie_holds ?_
    exact h
  clear_value v0
  refine Chip.holdReset_holds ?_
  refine Chip.holds_mk rfl rfl rfl rfl rfl rfl rfl rfl rfl rfl rfl rfl ?_
  exact w2

theorem Chip.resetHigh_holds {x0 x1} (h : Chip.Holds j c) : Chip.Holds j (Chip.resetHigh x0 x1 c) := by
  unfold Chip.resetHigh
  refine Chip.holds_ite (fun p0 => ?_) (fun p0 => ?_)
  · exact h
  · extract_lets v1 v2 v3
    have w4 : Chip.Holds j v2 := by
      unfold v2
      refine Chip.holds_mk rfl rfl rfl rfl rfl rfl rfl rfl rfl rfl rfl rfl ?_
      exact h
    clear_value v2
    refine Chip.holds_ite (fun p5 => ?_) (fun p5 => ?_)
    · refine Chip.holds_mk rfl rfl rfl rfl rfl rfl rfl rfl rfl rfl rfl rfl ?_
      exact w4
    · refine Chip.holdEnd_holds ?_
      refine Chip.strap_holds ?_
      exact w4

theorem Chip.refclkLost_holds {x0} (h : Chip.Holds j c) : Chip.Holds j (Chip.refclkLost x0 c) := by
  unfold Chip.refclkLost
  refine Chip.holds_ite (fun p0 => ?_) (fun p0 => ?_)
  · exact h
  · extract_lets v1 v2 v3
    have w4 : Chip.Holds j v1 := by
      unfold v1
      refine Chip.set_holds ?_
      exact h
    clear_value v1
    have w5 : Chip.Holds j v2 := by
      unfold v2
      refine Chip.tie_holds ?_
      refine Chip.oweOnce_holds ?_
      refine Chip.set_holds ?_
      exact w4
    clear_value v2
    refine Chip.holds_ite (fun p6 => ?_) (fun p6 => ?_)
    · exact w4
    · refine Chip.holdReset_holds ?_
      refine Chip.holds_mk rfl rfl rfl rfl rfl rfl rfl rfl rfl rfl rfl rfl ?_
      exact w5

theorem Chip.refclkBack_holds (h : Chip.Holds j c) : Chip.Holds j (Chip.refclkBack c) := by
  unfold Chip.refclkBack
  refine Chip.holds_ite (fun p0 => ?_) (fun p0 => ?_)
  · exact h
  · extract_lets v1 v2
    have w3 : Chip.Holds j v1 := by
      unfold v1
      refine Chip.set_holds ?_
      exact h
    clear_value v1
    refine Chip.holds_ite (fun p4 => ?_) (fun p4 => ?_)
    · exact w3
    · refine Chip.holdEnd_holds ?_
      refine Chip.holds_mk rfl rfl rfl rfl rfl rfl rfl rfl rfl rfl rfl rfl ?_
      exact w3

theorem Chip.coolantRise_holds {x0} (h : Chip.Holds j c) : Chip.Holds j (Chip.coolantRise x0 c) := by
  unfold Chip.coolantRise
  refine Chip.holds_ite (fun p0 => ?_) (fun p0 => ?_)
  · exact h
  · extract_lets v1 v2 v3
    have w4 : Chip.Holds j v1 := by
      unfold v1
      refine Chip.set_holds ?_
      exact h
    clear_value v1
    have w5 : Chip.Holds j v3 := by
      unfold v3
      refine Chip.holds_mk rfl rfl rfl rfl rfl rfl rfl rfl rfl rfl rfl rfl ?_
      exact w4
    clear_value v3
    refine Chip.holds_ite (fun p6 => ?_) (fun p6 => ?_)
    · exact w5
    · refine Chip.porCheck_holds ?_
      refine Chip.logicPower_holds ?_
      exact w5

theorem Chip.shutdown_holds {x0 x1 x2} (h : Chip.Holds j c) : Chip.Holds j (Chip.shutdown x0 x1 x2 c) := by
  unfold Chip.shutdown
  extract_lets back boots s0 d0 d1 d2 d3 d4 d5 d6 v d7
  have h0 : Chip.Holds j d0 := Chip.holds_mk rfl rfl rfl rfl rfl rfl rfl rfl rfl rfl rfl rfl h
  clear_value d0
  have h1 : Chip.Holds j d1 := Chip.islandReset_holds (Chip.denAllLow_holds (Chip.nvsTear_holds h0))
  clear_value d1
  have h3 : Chip.Holds j d3 := Chip.set_holds (Chip.arrive_holds (Chip.set_holds (Chip.set_holds h1)))
  clear_value d3
  have h6 : Chip.Holds j d6 := Chip.set_holds (Chip.set_holds (Chip.inc_holds (Chip.set_holds (Chip.set_holds (Chip.set_holds h3)))))
  clear_value d6
  exact Chip.oweOnce_holds (Chip.holds_gen h6 rfl id id id id id id id id id id (fun _ _ e => by cases e))

theorem Chip.sensorConvert_holds {x0 x1 x2 x3} (h : Chip.Holds j c) : Chip.Holds j (Chip.sensorConvert x0 x1 x2 x3 c) := by
  unfold Chip.sensorConvert
  extract_lets v0 v1
  have w2 : Chip.Holds j v0 := by
    unfold v0
    refine Chip.tie_holds ?_
    exact h
  clear_value v0
  have w3 : Chip.Holds j v1 := by
    unfold v1
    refine Chip.thConvert_holds ?_
    exact w2
  clear_value v1
  refine Chip.holds_ite (fun p4 => ?_) (fun p4 => ?_)
  · exact w2
  · refine Chip.holds_ite (fun p5 => ?_) (fun p5 => ?_)
    · split
      · refine Chip.shutdown_holds ?_
        exact w3
      · exact w3
    · refine Chip.holds_ite (fun p11 => ?_) (fun p11 => ?_)
      · refine Chip.shutdown_holds ?_
        exact w2
      · exact w2

theorem Chip.coolantLow5_holds (h : Chip.Holds j c) : Chip.Holds j (Chip.coolantLow5 c) := by
  unfold Chip.coolantLow5
  refine Chip.holds_ite (fun p0 => ?_) (fun p0 => ?_)
  · exact h
  · exact Chip.shutdown_holds (Chip.freeNext_holds (Chip.tie_holds h))

theorem Chip.shutdownRead_holds {x0 x1} (h : Chip.Holds j c) : Chip.Holds j (Chip.shutdownRead x0 x1 c) := by
  unfold Chip.shutdownRead
  refine Chip.holds_ite (fun p0 => ?_) (fun p0 => ?_)
  · exact h
  · refine Chip.holds_mk rfl rfl rfl rfl rfl rfl rfl rfl rfl rfl rfl rfl ?_
    exact h

theorem Chip.shutdownLeave_holds (h : Chip.Holds j c) : Chip.Holds j (Chip.shutdownLeave c) := by
  unfold Chip.shutdownLeave
  refine Chip.holds_ite (fun p0 => ?_) (fun p0 => ?_)
  · extract_lets v1 v2 v3
    have w4 : Chip.Holds j v1 := by
      unfold v1
      refine Chip.enterBoot_holds ?_
      exact h
    clear_value v1
    have w5 : Chip.Holds j v3 := by
      unfold v3
      refine Chip.holds_mk rfl rfl rfl rfl rfl rfl rfl rfl rfl rfl rfl rfl ?_
      exact w4
    clear_value v3
    refine Chip.logicPower_holds ?_
    exact w5
  · exact h

theorem Chip.bootEntry_holds {x0} (h : Chip.Holds j c) : Chip.Holds j (Chip.bootEntry x0 c) := by
  unfold Chip.bootEntry
  extract_lets v0 v1 v2
  have w3 : Chip.Holds j v1 := by
    unfold v1
    refine Chip.holds_ite (fun p4 => ?_) (fun p4 => ?_)
    · refine Chip.applyEntry_holds ?_
      exact h
    · exact h
  clear_value v1
  refine Chip.holds_mk rfl rfl rfl rfl rfl rfl rfl rfl rfl rfl rfl rfl ?_
  exact w3

theorem Chip.applyRepairs_holds (h : Chip.Holds j c) : Chip.Holds j (Chip.applyRepairs c) := by
  unfold Chip.applyRepairs
  extract_lets v0 v1 v2 v3 v4 v5
  have w6 : Chip.Holds j v3 := by
    unfold v3
    refine Chip.holds_mk rfl rfl rfl rfl rfl rfl rfl rfl rfl rfl rfl rfl ?_
    exact h
  clear_value v3
  have w7 : Chip.Holds j v4 := by
    unfold v4
    refine Chip.forAll_holds ?_ ?_
    · intro y8
      intro y9
      intro y10
      refine Chip.applyEntry_holds ?_
      exact y10
    · exact w6
  clear_value v4
  have w11 : Chip.Holds j v5 := by
    unfold v5
    refine Chip.forAll_holds ?_ ?_
    · intro y12
      intro y13
      intro y14
      refine Chip.bootEntry_holds ?_
      exact y14
    · exact w7
  clear_value v5
  refine Chip.rlogShow_holds ?_
  exact w11

theorem Chip.tellDecisions_holds (h : Chip.Holds j c) : Chip.Holds j (Chip.tellDecisions c) := by
  unfold Chip.tellDecisions
  refine Chip.holds_ite (fun p0 => ?_) (fun p0 => ?_)
  · exact h
  · extract_lets v1 v2 v3 v4
    have w5 : Chip.Holds j v4 := by
      unfold v4
      refine Chip.holds_mk rfl rfl rfl rfl rfl rfl rfl rfl rfl rfl rfl rfl ?_
      exact h
    clear_value v4
    refine Chip.recWrite_holds ?_
    refine Chip.rlogShow_holds ?_
    refine Chip.forAll_holds ?_ ?_
    · intro y6
      intro y7
      intro y8
      refine Chip.raise_holds ?_
      exact y8
    · exact w5

theorem Chip.bootTrain_holds (h : Chip.Holds j c) : Chip.Holds j (Chip.bootTrain c) := by
  unfold Chip.bootTrain
  refine Chip.holds_ite (fun p0 => ?_) (fun p0 => ?_)
  · refine Chip.drTrained_holds ?_
    refine Chip.holds_ite (fun p1 => ?_) (fun p1 => ?_)
    · refine Chip.drTrain_holds ?_
      exact h
    · exact h
  · exact h

theorem Chip.bootLoad_holds (h : Chip.Holds j c) : Chip.Holds j (Chip.bootLoad c) := by
  unfold Chip.bootLoad
  refine Chip.holds_ite (fun p0 => ?_) (fun p0 => ?_)
  · refine Chip.flashLoad_holds ?_
    exact h
  · exact h

theorem Chip.enterFw_holds {x0 x1} (h : Chip.Holds j c) : Chip.Holds j (Chip.enterFw x0 x1 c) := by
  unfold Chip.enterFw
  extract_lets v0 v1 v2 v3 v4 v5 v6 v7 v8 v9 v10 v11 v12
  have w13 : Chip.Holds j v2 := by
    unfold v2
    refine Chip.holds_mk rfl rfl rfl rfl rfl rfl rfl rfl rfl rfl rfl rfl ?_
    exact h
  clear_value v2
  have w14 : Chip.Holds j v3 := by
    unfold v3
    refine Chip.setState_holds ?_
    exact w13
  clear_value v3
  have w15 : Chip.Holds j v5 := by
    unfold v5
    refine Chip.raiseAt_holds ?_
    exact w14
  clear_value v5
  have w16 : Chip.Holds j v6 := by
    unfold v6
    refine Chip.tellDecisions_holds ?_
    exact w15
  clear_value v6
  have w17 : Chip.Holds j v9 := by
    unfold v9
    refine Chip.holds_mk rfl rfl rfl rfl rfl rfl rfl rfl rfl rfl rfl rfl ?_
    exact w16
  clear_value v9
  have w18 : Chip.Holds j v10 := by
    unfold v10
    refine Chip.forAll_holds ?_ ?_
    · intro y19
      intro y20
      intro y21
      refine Chip.raiseAt_holds ?_
      exact y21
    · exact w17
  clear_value v10
  have w22 : Chip.Holds j v11 := by
    unfold v11
    refine Chip.forAll_holds ?_ ?_
    · intro y23
      intro y24
      intro y25
      refine Chip.raise_holds ?_
      exact y25
    · exact w18
  clear_value v11
  have w26 : Chip.Holds j v12 := by
    unfold v12
    refine Chip.calLoad_holds ?_
    exact w22
  clear_value v12
  refine Chip.bootLoad_holds ?_
  refine Chip.notice_holds ?_
  refine Chip.portsStart_holds ?_
  exact w26

theorem Chip.bootPrep_holds (h : Chip.Holds j c) : Chip.Holds j (Chip.bootPrep c) := by
  unfold Chip.bootPrep
  extract_lets v0 v1
  have w2 : Chip.Holds j v0 := by
    unfold v0
    refine Chip.applyRepairs_holds ?_
    exact h
  clear_value v0
  have w3 : Chip.Holds j v1 := by
    unfold v1
    refine Chip.holds_ite (fun p4 => ?_) (fun p4 => ?_)
    · refine Chip.owe_holds ?_
      refine Chip.rmaZeroise_holds ?_
      exact w2
    · exact w2
  clear_value v1
  refine Chip.evlogResume_holds ?_
  refine Chip.set_holds ?_
  refine Chip.bootTrain_holds ?_
  exact w3

theorem Chip.bootDone_holds (h : Chip.Holds j c) : Chip.Holds j (Chip.bootDone c) := by
  unfold Chip.bootDone
  refine Chip.holds_ite (fun p0 => ?_) (fun p0 => ?_)
  · exact h
  · extract_lets v1 v2
    have w3 : Chip.Holds j v1 := by
      unfold v1
      refine Chip.bootPrep_holds ?_
      exact h
    clear_value v1
    split
    · refine Chip.enterFw_holds ?_
      exact w3
    · refine Chip.setState_holds ?_
      refine Chip.holds_mk rfl rfl rfl rfl rfl rfl rfl rfl rfl rfl rfl rfl ?_
      exact w3

theorem Chip.regionReset_holds {x0} (h : Chip.Holds j c) : Chip.Holds j (Chip.regionReset x0 c) := by
  unfold Chip.regionReset
  extract_lets v0 v1 v2 v3 v4 v5
  have w6 : Chip.Holds j v0 := by
    unfold v0
    refine Chip.endLeases_holds ?_
    refine Chip.discardRequests_holds ?_
    refine Chip.dropGates_holds ?_
    refine Chip.initFfs_holds ?_
    exact h
  clear_value v0
  have w7 : Chip.Holds j v3 := by
    unfold v3
    refine Chip.forAll_holds ?_ ?_
    · intro y8
      intro y9
      intro y10
      refine Chip.setRg_holds ?_
      exact y10
    · exact w6
  clear_value v3
  have w11 : Chip.Holds j v4 := by
    unfold v4
    refine Chip.setRg_holds ?_
    exact w7
  clear_value v4
  have w12 : Chip.Holds j v5 := by
    unfold v5
    refine Chip.set_holds ?_
    refine Chip.set_holds ?_
    exact w11
  clear_value v5
  refine Chip.clear_holds ?_
  exact w12

theorem Chip.peReset_holds {x0} (h : Chip.Holds j c) : Chip.Holds j (Chip.peReset x0 c) := by
  unfold Chip.peReset
  extract_lets v0 v1
  refine Chip.engineReset_holds ?_
  refine Chip.holds_mk rfl rfl rfl rfl rfl rfl rfl rfl rfl rfl rfl rfl ?_
  exact h

theorem Chip.groupReset_holds {x0} (h : Chip.Holds j c) : Chip.Holds j (Chip.groupReset x0 c) := by
  unfold Chip.groupReset
  extract_lets d0 d1 v d2
  have h1 : Chip.Holds j d1 := Chip.set_holds (Chip.set_holds (Chip.set_holds (Chip.clear_holds h)))
  clear_value d1
  refine Chip.forAll_holds (fun _ _ h => ?_) (Chip.holds_gen h1 rfl id id id id id id bound_tdel id id id id)
  extract_lets n
  exact Chip.holds_ite (fun _ => h) (fun _ => Chip.setUnit_holds (Chip.setStarved_holds (Chip.setStarved_holds h)))

theorem Chip.dramReset_holds (h : Chip.Holds j c) : Chip.Holds j (Chip.dramReset c) := by
  unfold Chip.dramReset
  extract_lets v0 v1 v2 v3 v4
  have w5 : Chip.Holds j v0 := by
    unfold v0
    refine Chip.drQueueReset_holds ?_
    exact h
  clear_value v0
  have w6 : Chip.Holds j v1 := by
    unfold v1
    refine Chip.resetRange_holds ?_
    exact w5
  clear_value v1
  have w7 : Chip.Holds j v4 := by
    unfold v4
    refine Chip.holds_mk rfl rfl rfl rfl rfl rfl rfl rfl rfl rfl rfl rfl ?_
    exact w6
  clear_value v4
  refine Chip.drTrain_holds ?_
  refine Chip.freeNext_holds ?_
  exact w7

theorem Chip.targetReset_holds {x0 x1} (h : Chip.Holds j c) : Chip.Holds j (Chip.targetReset x0 x1 c) := by
  unfold Chip.targetReset
  split
  · refine Chip.regionReset_holds ?_
    refine Chip.holds_ite (fun p1 => ?_) (fun p1 => ?_)
    · refine Chip.domClose_holds ?_
      exact h
    · exact h
  · refine Chip.peReset_holds ?_
    refine Chip.domClose_holds ?_
    exact h
  · refine Chip.groupReset_holds ?_
    refine Chip.domClose_holds ?_
    exact h
  · refine Chip.dmaReset_holds ?_
    exact h
  · refine Chip.portReset_holds ?_
    exact h
  · refine Chip.dramReset_holds ?_
    refine Chip.domClose_holds ?_
    exact h
  · exact h

theorem Chip.targetOpen_holds {x0 x1} (h : Chip.Holds j c) : Chip.Holds j (Chip.targetOpen x0 x1 c) := by
  unfold Chip.targetOpen
  split
  · refine Chip.holds_ite (fun p1 => ?_) (fun p1 => ?_)
    · exact h
    · refine Chip.domOpen_holds ?_
      refine Chip.regionReset_holds ?_
      exact h
  · refine Chip.domOpen_holds ?_
    exact h
  · refine Chip.domOpen_holds ?_
    exact h
  · refine Chip.holds_ite (fun p5 => ?_) (fun p5 => ?_)
    · exact h
    · refine Chip.domOpen_holds ?_
      exact h
  · refine Chip.domOpen_holds ?_
    exact h
  · exact h

theorem Chip.targetedDone_holds {x0 x1} (h : Chip.Holds j c) : Chip.Holds j (Chip.targetedDone x0 x1 c) := by
  unfold Chip.targetedDone
  split
  · exact h
  · refine Chip.holds_ite (fun p5 => ?_) (fun p5 => ?_)
    · exact h
    · refine Chip.ok_holds ?_
      refine Chip.targetOpen_holds ?_
      exact h

end Sys2Proof.Machine
end

