-- ==== Sys2Proof/Laws/KeepChanterSys.lean ====
section
/-! SUPPORT. Each operation of Machine/ChanterSys.lean keeps the device sound and leaves its test access port. -/

namespace Sys2Proof.Machine

variable {j : Jtag} {c : Chip}

theorem cmdSysNop_holds {x0 x1} (h : Chip.Holds j c) : Chip.Holds j (Cmd.run cmdSysNop x0 x1 c) := by
  dsimp -zeta only [cmdSysNop, Cmd.plain]
  dsimp only []
  refine Chip.ok_holds ?_
  exact h

theorem cmdSysIdentify_holds {x0 x1} (h : Chip.Holds j c) : Chip.Holds j (Cmd.run cmdSysIdentify x0 x1 c) := by
  dsimp -zeta only [cmdSysIdentify, Cmd.plain]
  dsimp only []
  refine Chip.ok_holds ?_
  exact h

theorem cmdSysStatus_holds {x0 x1} (h : Chip.Holds j c) : Chip.Holds j (Cmd.run cmdSysStatus x0 x1 c) := by
  dsimp -zeta only [cmdSysStatus, Cmd.plain]
  dsimp only []
  refine Chip.ok_holds ?_
  exact h

theorem Chip.accessBegin_holds {x0 x1 x2} (h : Chip.Holds j c) : Chip.Holds j (Chip.accessBegin x0 x1 x2 c) := by
  unfold Chip.accessBegin
  extract_lets v0 v1 v2
  refine Chip.accessPump_holds ?_
  refine Chip.holds_mk rfl rfl rfl rfl rfl rfl rfl rfl rfl rfl rfl rfl ?_
  exact h

theorem cmdSysPeek_holds {x0 x1} (h : Chip.Holds j c) : Chip.Holds j (Cmd.run cmdSysPeek x0 x1 c) := by
  dsimp -zeta only [cmdSysPeek, Cmd.plain]
  refine Chip.accessBegin_holds ?_
  exact h

theorem cmdSysPoke_holds {x0 x1} (h : Chip.Holds j c) : Chip.Holds j (Cmd.run cmdSysPoke x0 x1 c) := by
  dsimp -zeta only [cmdSysPoke, Cmd.plain]
  dsimp only []
  refine Chip.accessBegin_holds ?_
  exact h

theorem Chip.restart_holds (h : Chip.Holds j c) : Chip.Holds j (Chip.restart c) := by
  unfold Chip.restart
  refine Chip.holds_mk rfl rfl rfl rfl rfl rfl rfl rfl rfl rfl rfl rfl ?_
  exact h

theorem Chip.restartEnd_holds {x0} (h : Chip.Holds j c) : Chip.Holds j (Chip.restartEnd x0 c) := by
  unfold Chip.restartEnd
  extract_lets v0
  refine Chip.finish1_holds ?_
  exact h

theorem Chip.restartDone_holds (h : Chip.Holds j c) : Chip.Holds j (Chip.restartDone c) := by
  unfold Chip.restartDone
  refine Chip.holds_ite (fun p0 => ?_) (fun p0 => ?_)
  · exact h
  · extract_lets v1 v2 v3 v4
    have w5 : Chip.Holds j v4 := by
      unfold v4
      refine Chip.holds_mk rfl rfl rfl rfl rfl rfl rfl rfl rfl rfl rfl rfl ?_
      exact h
    clear_value v4
    refine Chip.raiseIf_holds ?_
    refine Chip.forAll_holds ?_ ?_
    · intro y6
      intro y7
      intro y8
      refine Chip.restartEnd_holds ?_
      exact y8
    · exact w5

theorem Chip.watchdogBite_holds (h : Chip.Holds j c) : Chip.Holds j (Chip.watchdogBite c) := by
  unfold Chip.watchdogBite
  refine Chip.holds_ite (fun p0 => ?_) (fun p0 => ?_)
  · refine Chip.restart_holds ?_
    refine Chip.holds_mk rfl rfl rfl rfl rfl rfl rfl rfl rfl rfl rfl rfl ?_
    exact h
  · exact h

theorem Chip.resetStart_holds {x0 x1} (h : Chip.Holds j c) : Chip.Holds j (Chip.resetStart x0 x1 c) := by
  unfold Chip.resetStart
  extract_lets v0 v1 v2 v3
  refine Chip.holds_ite (fun p4 => ?_) (fun p4 => ?_)
  · refine Chip.ok_holds ?_
    refine Chip.holds_mk rfl rfl rfl rfl rfl rfl rfl rfl rfl rfl rfl rfl ?_
    exact h
  · refine Chip.holds_ite (fun p5 => ?_) (fun p5 => ?_)
    · refine Chip.restart_holds ?_
      refine Chip.setSlot_holds ?_
      exact h
    · refine Chip.holds_ite (fun p6 => ?_) (fun p6 => ?_)
      · refine Chip.fail_holds ?_
        exact h
      · refine Chip.targetReset_holds ?_
        refine Chip.endAll_holds ?_
        refine Chip.interim_holds ?_
        exact h

theorem cmdSysReset_holds {x0 x1} (h : Chip.Holds j c) : Chip.Holds j (Cmd.run cmdSysReset x0 x1 c) := by
  dsimp -zeta only [cmdSysReset, Cmd.plain]
  dsimp only []
  refine Chip.resetStart_holds ?_
  exact h

theorem Chip.resetEffect_holds (h : Chip.Holds j c) : Chip.Holds j (Chip.resetEffect c) := by
  unfold Chip.resetEffect
  refine Chip.holds_ite (fun p0 => ?_) (fun p0 => ?_)
  · refine Chip.warmReset_holds ?_
    refine Chip.tie_holds ?_
    exact h
  · exact h

theorem Chip.stopCfg_holds {x0} (h : Chip.Holds j c) : Chip.Holds j (Chip.stopCfg x0 c) := by
  unfold Chip.stopCfg
  extract_lets v0 v1 v2 v3 v4 v5 v6 v7
  have w8 : Chip.Holds j v4 := by
    unfold v4
    refine Chip.holds_mk rfl rfl rfl rfl rfl rfl rfl rfl rfl rfl rfl rfl ?_
    exact h
  have w9 : Chip.Holds j v5 := by
    unfold v5
    refine Chip.forAll_holds ?_ ?_
    · intro y10
      intro y11
      intro y12
      refine Chip.pageReply_holds ?_
      exact y12
    · exact w8
  have w13 : Chip.Holds j v6 := by
    unfold v6
    split
    · refine Chip.holds_ite (fun p17 => ?_) (fun p17 => ?_)
      · refine Chip.pageReply_holds ?_
        refine Chip.pageOver_holds ?_
        refine Chip.pageAbandon_holds ?_
        exact w9
      · exact w9
    · exact w9
  have w20 : Chip.Holds j v7 := by
    unfold v7
    refine Chip.holds_ite (fun p21 => ?_) (fun p21 => ?_)
    · refine Chip.loadFail_holds ?_
      exact w13
    · exact w13
  clear_value v7
  refine Chip.pageSettle_holds ?_
  exact w20

theorem Chip.stopMem_holds {x0} (h : Chip.Holds j c) : Chip.Holds j (Chip.stopMem x0 c) := by
  unfold Chip.stopMem
  extract_lets v0 v1 v2 v3
  have w4 : Chip.Holds j v1 := by
    unfold v1
    refine Chip.holds_mk rfl rfl rfl rfl rfl rfl rfl rfl rfl rfl rfl rfl ?_
    exact h
  clear_value v1
  refine Chip.holds_ite (fun p5 => ?_) (fun p5 => ?_)
  · refine Chip.set_holds ?_
    refine Chip.holds_mk rfl rfl rfl rfl rfl rfl rfl rfl rfl rfl rfl rfl ?_
    exact w4
  · exact w4

theorem Chip.stopPe_holds {x0} (h : Chip.Holds j c) : Chip.Holds j (Chip.stopPe x0 c) := by
  unfold Chip.stopPe
  extract_lets v0
  have w1 : Chip.Holds j v0 := by
    unfold v0
    refine Chip.forAll_holds ?_ ?_
    · intro y2
      intro y3
      intro y4
      refine Chip.holds_ite (fun p5 => ?_) (fun p5 => ?_)
      · refine Chip.withdrawStart_holds ?_
        exact y4
      · exact y4
    · exact h
  clear_value v0
  refine Chip.forAll_holds ?_ ?_
  · intro y6
    intro y7
    intro y8
    refine Chip.holds_ite (fun p9 => ?_) (fun p9 => ?_)
    · refine Chip.setEng_holds ?_
      exact y8
    · exact y8
  · exact w1

theorem Chip.stopRd_holds {x0} (h : Chip.Holds j c) : Chip.Holds j (Chip.stopRd x0 c) := by
  unfold Chip.stopRd
  refine Chip.forAll_holds ?_ ?_
  · intro y0
    intro y1
    intro y2
    refine Chip.holds_ite (fun p3 => ?_) (fun p3 => ?_)
    · refine Chip.setUnit_holds ?_
      exact y2
    · exact y2
  · exact h

theorem Chip.stopCap_holds {x0} (h : Chip.Holds j c) : Chip.Holds j (Chip.stopCap x0 c) := by
  unfold Chip.stopCap
  extract_lets v0 v1 v2
  have w3 : Chip.Holds j v2 := by
    unfold v2
    refine Chip.holds_mk rfl rfl rfl rfl rfl rfl rfl rfl rfl rfl rfl rfl ?_
    exact h
  refine Chip.holds_ite (fun p4 => ?_) (fun p4 => ?_)
  · refine Chip.raeAbort_holds ?_
    exact w3
  · exact w3

theorem Chip.stopDma_holds {x0} (h : Chip.Holds j c) : Chip.Holds j (Chip.stopDma x0 c) := by
  unfold Chip.stopDma
  split
  · refine Chip.dmaAbort_holds ?_
    exact h
  · refine Chip.holds_mk rfl rfl rfl rfl rfl rfl rfl rfl rfl rfl rfl rfl ?_
    exact h

theorem Chip.stopWw_holds {x0} (h : Chip.Holds j c) : Chip.Holds j (Chip.stopWw x0 c) := by
  unfold Chip.stopWw
  refine Chip.holds_mk rfl rfl rfl rfl rfl rfl rfl rfl rfl rfl rfl rfl ?_
  exact h

theorem Chip.stopTest_holds {x0 x1} (h : Chip.Holds j c) : Chip.Holds j (Chip.stopTest x0 x1 c) := by
  unfold Chip.stopTest
  extract_lets v0 v1
  refine Chip.holds_mk rfl rfl rfl rfl rfl rfl rfl rfl rfl rfl rfl rfl ?_
  exact h

theorem Chip.stopPwr_holds {x0} (h : Chip.Holds j c) : Chip.Holds j (Chip.stopPwr x0 c) := by
  unfold Chip.stopPwr
  extract_lets v0 v1 v2 v3
  have w4 : Chip.Holds j v1 := by
    unfold v1
    refine Chip.holds_mk rfl rfl rfl rfl rfl rfl rfl rfl rfl rfl rfl rfl ?_
    exact h
  clear_value v1
  have w5 : Chip.Holds j v2 := by
    unfold v2
    refine Chip.nvsReads_holds ?_
    exact w4
  clear_value v2
  refine Chip.holds_ite (fun p6 => ?_) (fun p6 => ?_)
  · refine Chip.domOpen_holds ?_
    exact w5
  · exact w5

theorem Chip.stopSys_holds {x0} (h : Chip.Holds j c) : Chip.Holds j (Chip.stopSys x0 c) := by
  unfold Chip.stopSys
  extract_lets v0 v1
  have w2 : Chip.Holds j v1 := by
    unfold v1
    refine Chip.holds_mk rfl rfl rfl rfl rfl rfl rfl rfl rfl rfl rfl rfl ?_
    exact h
  clear_value v1
  refine Chip.holds_ite (fun p3 => ?_) (fun p3 => ?_)
  · refine Chip.stopPwr_holds ?_
    exact w2
  · exact w2

theorem Chip.stopCmd_holds {x0 x1} (h : Chip.Holds j c) : Chip.Holds j (Chip.stopCmd x0 x1 c) := by
  unfold Chip.stopCmd
  split
  · refine Chip.stopSys_holds ?_
    exact h
  · refine Chip.stopCfg_holds ?_
    exact h
  · refine Chip.stopMem_holds ?_
    exact h
  · refine Chip.stopPe_holds ?_
    exact h
  · refine Chip.stopRd_holds ?_
    exact h
  · refine Chip.stopCap_holds ?_
    exact h
  · refine Chip.stopDma_holds ?_
    exact h
  · refine Chip.stopTest_holds ?_
    refine Chip.stopWw_holds ?_
    exact h
  · refine Chip.stopPwr_holds ?_
    exact h
  · refine Chip.stopTest_holds ?_
    exact h
  · exact h

theorem Chip.abortOf_holds {x0 x1} (h : Chip.Holds j c) : Chip.Holds j (Chip.abortOf x0 x1 c) := by
  unfold Chip.abortOf
  refine Chip.holds_ite (fun p0 => ?_) (fun p0 => ?_)
  · refine Chip.fail_holds ?_
    exact h
  · refine Chip.holds_ite (fun p1 => ?_) (fun p1 => ?_)
    · refine Chip.fail_holds ?_
      exact h
    · extract_lets v2 v3
      have w4 : Chip.Holds j v2 := by
        unfold v2
        refine Chip.setSlot_holds ?_
        exact h
      clear_value v2
      have w5 : Chip.Holds j v3 := by
        unfold v3
        refine Chip.stopCmd_holds ?_
        exact w4
      clear_value v3
      refine Chip.holds_ite (fun p6 => ?_) (fun p6 => ?_)
      · exact w4
      · refine Chip.holds_ite (fun p7 => ?_) (fun p7 => ?_)
        · refine Chip.fail_holds ?_
          exact w4
        · refine Chip.holds_ite (fun p8 => ?_) (fun p8 => ?_)
          · exact w5
          · refine Chip.fail_holds ?_
            exact w5

theorem Chip.abortStart_holds {x0 x1} (h : Chip.Holds j c) : Chip.Holds j (Chip.abortStart x0 x1 c) := by
  unfold Chip.abortStart
  extract_lets v0 v1
  generalize v1 = u2
  split
  · refine Chip.fail_holds ?_
    exact h
  · refine Chip.abortOf_holds ?_
    exact h

theorem cmdSysAbort_holds {x0 x1} (h : Chip.Holds j c) : Chip.Holds j (Cmd.run cmdSysAbort x0 x1 c) := by
  dsimp -zeta only [cmdSysAbort, Cmd.plain]
  dsimp only []
  refine Chip.abortStart_holds ?_
  exact h

theorem Chip.eventRead_holds {x0 x1} (h : Chip.Holds j c) : Chip.Holds j (Chip.eventRead x0 x1 c) := by
  unfold Chip.eventRead
  extract_lets n es v d
  refine Chip.finish_holds (Chip.holds_ite (fun _ => h) (fun _ => Chip.evqOverflow_holds ?_))
  refine Chip.holds_gen h rfl id id id (fun he => ?_) id id id id id id id
  rw [List.length_drop]
  exact Nat.le_trans (Nat.sub_le _ _) he

theorem cmdSysEventRead_holds {x0 x1} (h : Chip.Holds j c) : Chip.Holds j (Cmd.run cmdSysEventRead x0 x1 c) := by
  dsimp -zeta only [cmdSysEventRead, Cmd.plain]
  dsimp only []
  refine Chip.eventRead_holds ?_
  exact h

theorem cmdSysEventMask_holds {x0 x1} (h : Chip.Holds j c) : Chip.Holds j (Cmd.run cmdSysEventMask x0 x1 c) := by
  dsimp -zeta only [cmdSysEventMask, Cmd.plain]
  extract_lets v0
  have w1 : Chip.Holds j v0 := by
    unfold v0
    refine Chip.evqMask_holds ?_
    exact h
  clear_value v0
  refine Chip.ok_holds ?_
  exact w1

theorem cmdSysNotice_holds {x0 x1} (h : Chip.Holds j c) : Chip.Holds j (Cmd.run cmdSysNotice x0 x1 c) := by
  dsimp -zeta only [cmdSysNotice, Cmd.plain]
  refine Chip.ok_holds ?_
  refine Chip.holds_mk rfl rfl rfl rfl rfl rfl rfl rfl rfl rfl rfl rfl ?_
  exact h

theorem cmdSysFwInfo_holds {x0 x1} (h : Chip.Holds j c) : Chip.Holds j (Cmd.run cmdSysFwInfo x0 x1 c) := by
  dsimp -zeta only [cmdSysFwInfo, Cmd.plain]
  dsimp only []
  refine Chip.ok_holds ?_
  exact h

theorem Chip.fwBegin_holds {x0 x1} (h : Chip.Holds j c) : Chip.Holds j (Chip.fwBegin x0 x1 c) := by
  unfold Chip.fwBegin
  extract_lets v0 v1 v2
  refine Chip.nvsWrite_holds ?_
  refine Chip.holds_mk rfl rfl rfl rfl rfl rfl rfl rfl rfl rfl rfl rfl ?_
  exact h

theorem cmdSysFwBegin_holds {x0 x1} (h : Chip.Holds j c) : Chip.Holds j (Cmd.run cmdSysFwBegin x0 x1 c) := by
  dsimp -zeta only [cmdSysFwBegin, Cmd.plain]
  dsimp only []
  refine Chip.fwBegin_holds ?_
  exact h

theorem Chip.fwData_holds {x0 x1} (h : Chip.Holds j c) : Chip.Holds j (Chip.fwData x0 x1 c) := by
  unfold Chip.fwData
  split
  · refine Chip.fail_holds ?_
    exact h
  · refine Chip.holds_ite (fun p5 => ?_) (fun p5 => ?_)
    · refine Chip.fail_holds ?_
      exact h
    · refine Chip.ok_holds ?_
      refine Chip.holds_mk rfl rfl rfl rfl rfl rfl rfl rfl rfl rfl rfl rfl ?_
      exact h

theorem cmdSysFwData_holds {x0 x1} (h : Chip.Holds j c) : Chip.Holds j (Cmd.run cmdSysFwData x0 x1 c) := by
  dsimp -zeta only [cmdSysFwData, Cmd.plain]
  dsimp only []
  refine Chip.fwData_holds ?_
  exact h

theorem Chip.fwCommit_holds {x0} (h : Chip.Holds j c) : Chip.Holds j (Chip.fwCommit x0 c) := by
  unfold Chip.fwCommit
  split
  · refine Chip.fail_holds ?_
    exact h
  · extract_lets v5 v6 v7
    have w8 : Chip.Holds j v7 := by
      unfold v7
      refine Chip.interim_holds ?_
      refine Chip.holds_mk rfl rfl rfl rfl rfl rfl rfl rfl rfl rfl rfl rfl ?_
      exact h
    clear_value v7
    split
    · refine Chip.fail_holds ?_
      exact w8
    · refine Chip.recWrite_holds ?_
      refine Chip.setSlot_holds ?_
      exact w8

theorem cmdSysFwCommit_holds {x0 x1} (h : Chip.Holds j c) : Chip.Holds j (Cmd.run cmdSysFwCommit x0 x1 c) := by
  dsimp -zeta only [cmdSysFwCommit, Cmd.plain]
  dsimp only []
  refine Chip.fwCommit_holds ?_
  exact h

theorem Chip.commitDone_holds (h : Chip.Holds j c) : Chip.Holds j (Chip.commitDone c) := by
  unfold Chip.commitDone
  split
  · exact h
  · extract_lets v7 v8 v9 v10 v11 v12 v13
    have w14 : Chip.Holds j v8 := by
      unfold v8
      refine Chip.holds_mk rfl rfl rfl rfl rfl rfl rfl rfl rfl rfl rfl rfl ?_
      exact h
    clear_value v8
    have w15 : Chip.Holds j v11 := by
      unfold v11
      refine Chip.raise_holds ?_
      exact w14
    clear_value v11
    have w16 : Chip.Holds j v12 := by
      unfold v12
      refine Chip.ok_holds ?_
      exact w15
    clear_value v12
    refine Chip.holds_ite (fun p17 => ?_) (fun p17 => ?_)
    · refine Chip.enterBoot_holds ?_
      exact w16
    · refine Chip.holds_ite (fun p18 => ?_) (fun p18 => ?_)
      · refine Chip.restart_holds ?_
        refine Chip.holds_mk rfl rfl rfl rfl rfl rfl rfl rfl rfl rfl rfl rfl ?_
        exact w16
      · exact w16

end Sys2Proof.Machine
end

