-- ==== Sys2Proof/Laws/KeepChanterBus.lean ====
section
/-! SUPPORT. Each operation of Machine/ChanterBus.lean keeps the device sound and leaves its test access port. -/

namespace Sys2Proof.Machine

variable {j : Jtag} {c : Chip}

theorem commands_hold : ∀ k ∈ commands, ∀ id pl c, Chip.Holds j c → Chip.Holds j (Cmd.run k id pl c) := by
  unfold commands
  simp only [List.forall_mem_cons]
  refine ⟨fun _ _ _ h => cmdSysNop_holds h, fun _ _ _ h => cmdSysIdentify_holds h, fun _ _ _ h => cmdSysStatus_holds h, fun _ _ _ h => cmdSysPeek_holds h, fun _ _ _ h => cmdSysPoke_holds h, fun _ _ _ h => cmdSysReset_holds h, fun _ _ _ h => cmdSysAbort_holds h, fun _ _ _ h => cmdSysEventRead_holds h, fun _ _ _ h => cmdSysEventMask_holds h, fun _ _ _ h => cmdSysNotice_holds h, fun _ _ _ h => cmdSysFwInfo_holds h, fun _ _ _ h => cmdSysFwBegin_holds h, fun _ _ _ h => cmdSysFwData_holds h, fun _ _ _ h => cmdSysFwCommit_holds h, fun _ _ _ h => cmdCfgStatus_holds h, fun _ _ _ h => cmdCfgLoadBegin_holds h, fun _ _ _ h => cmdCfgLoadData_holds h, fun _ _ _ h => cmdCfgLoadEnd_holds h, fun _ _ _ h => cmdCfgLoadDram_holds h, fun _ _ _ h => cmdCfgPage_holds h, fun _ _ _ h => cmdCfgDraw_holds h, fun _ _ _ h => cmdCfgRewriteSlot_holds h, fun _ _ _ h => cmdCfgLibStatus_holds h, fun _ _ _ h => cmdCfgLibFree_holds h, fun _ _ _ h => cmdCfgXspi_holds h, fun _ _ _ h => cmdSpStatus_holds h, fun _ _ _ h => cmdSpPower_holds h, fun _ _ _ h => cmdSpColmapRead_holds h, fun _ _ _ h => cmdDrStatus_holds h, fun _ _ _ h => cmdDrFreq_holds h, fun _ _ _ h => cmdDrTrain_holds h, fun _ _ _ h => cmdDrSnapshot_holds h, fun _ _ _ h => cmdDrThaw_holds h, fun _ _ _ h => cmdPeStatus_holds h, fun _ _ _ h => cmdPeLoad_holds h, fun _ _ _ h => cmdPeStart_holds h, fun _ _ _ h => cmdPePause_holds h, fun _ _ _ h => cmdPeResume_holds h, fun _ _ _ h => cmdPeStop_holds h, fun _ _ _ h => cmdPeAbort_holds h, fun _ _ _ h => cmdPeGang_holds h, fun _ _ _ h => cmdPeClock_holds h, fun _ _ _ h => cmdRdCalSave_holds h, fun _ _ _ h => cmdRdStatus_holds h, fun _ _ _ h => cmdRdTsWrite_holds h, fun _ _ _ h => cmdRdTsRead_holds h, fun _ _ _ h => cmdRdCalWrite_holds h, fun _ _ _ h => cmdRdCalRead_holds h, fun _ _ _ h => cmdRdCheck_holds h, fun _ _ _ h => cmdCapStatus_holds h, fun _ _ _ h => cmdCapConfig_holds h, fun _ _ _ h => cmdCapClear_holds h, fun _ _ _ h => cmdCapBmFlush_holds h, fun _ _ _ h => cmdCapBmZero_holds h, fun _ _ _ h => cmdCapFflRead_holds h, fun _ _ _ h => cmdCapFatRead_holds h, fun _ _ _ h => cmdCapLostRead_holds h, fun _ _ _ h => cmdRaStatus_holds h, fun _ _ _ h => cmdRaRecipeLoad_holds h, fun _ _ _ h => cmdRaRecipeCommit_holds h, fun _ _ _ h => cmdRaBegin_holds h, fun _ _ _ h => cmdRaFinal_holds h, fun _ _ _ h => cmdRaEnd_holds h, fun _ _ _ h => cmdRaCtxRead_holds h, fun _ _ _ h => cmdRaRingRead_holds h, fun _ _ _ h => cmdDmaStatus_holds h, fun _ _ _ h => cmdDmaStart_holds h, fun _ _ _ h => cmdDmaArm_holds h, fun _ _ _ h => cmdDmaPause_holds h, fun _ _ _ h => cmdDmaResume_holds h, fun _ _ _ h => cmdDmaAbort_holds h, fun _ _ _ h => cmdWwStatus_holds h, fun _ _ _ h => cmdWwDiscover_holds h, fun _ _ _ h => cmdWwTopoRead_holds h, fun _ _ _ h => cmdWwRoute_holds h, fun _ _ _ h => cmdWwPort_holds h, fun _ _ _ h => cmdWwLaneTest_holds h, fun _ _ _ h => cmdThStatus_holds h, fun _ _ _ h => cmdThSensors_holds h, fun _ _ _ h => cmdThSubst_holds h, fun _ _ _ h => cmdThThresh_holds h, fun _ _ _ h => cmdThLimit_holds h, fun _ _ _ h => cmdPwrRegion_holds h, fun _ _ _ h => cmdPwrStatus_holds h, fun _ _ _ h => cmdClkRegion_holds h, fun _ _ _ h => cmdNvsRecInfo_holds h, fun _ _ _ h => cmdNvsRecRead_holds h, fun _ _ _ h => cmdNvsEvlogRead_holds h, fun _ _ _ h => cmdNvsUser_holds h, fun _ _ _ h => cmdStStatus_holds h, fun _ _ _ h => cmdStRun_holds h, fun _ _ _ h => cmdStFull_holds h, fun _ _ _ h => cmdStLogRead_holds h, fun _ _ _ h => cmdStFuseRepair_holds h, fun _ _ _ h => cmdStLogClear_holds h, fun _ _ _ h => cmdLgStatus_holds h, fun _ _ _ h => cmdSecStatus_holds h, fun _ _ _ h => cmdSecLcAdvance_holds h, fun _ _ _ h => cmdSecNonce_holds h, fun _ _ _ h => cmdSecReqData_holds h, fun _ _ _ h => cmdSecKeyProg_holds h, fun _ _ _ h => cmdSecKeyRevoke_holds h, fun _ _ _ h => cmdSecSvnRaise_holds h, fun _ _ _ h => cmdSecRma_holds h, fun _ _ _ h => cmdSecRootkeyProg_holds h, fun _ _ _ h => cmdSecAttest_holds h, fun _ _ _ h => cmdSecBlobRead_holds h, fun _ _ _ h => cmdFabStatus_holds h, fun _ _ _ h => cmdFabProbe_holds h, fun _ _ _ h => cmdFabCapArm_holds h, fun _ _ _ h => cmdFabCapStop_holds h, fun _ _ _ h => cmdFabCapRead_holds h, fun _ h => by cases h⟩

theorem Chip.rawPacket_holds {x0 x1 x2} (hr : c.takesPackets = true) (h : Chip.Holds j c) : Chip.Holds j (Chip.rawPacket x0 x1 x2 c) := by
  unfold Chip.rawPacket
  split
  · extract_lets d
    have hd : Chip.Holds j d :=
      Chip.holds_ite (fun _ => Chip.inc_holds h) (fun _ => Chip.holds_ite (fun _ => Chip.inc_holds h) (fun _ => h))
    refine Chip.refuse_holds ?_ hd
    unfold d
    split
    · exact (Chip.inc_takes (by decide)).trans hr
    · split
      · exact (Chip.inc_takes (by decide)).trans hr
      · exact hr
  · refine Chip.takePacket_holds hr (fun k e => ?_) h
    exact commands_hold k (List.mem_of_find?_eq_some e)

theorem Chip.startSlot_holds {x0} (h : Chip.Holds j c) : Chip.Holds j (Chip.startSlot x0 c) := by
  unfold Chip.startSlot
  extract_lets d
  have hd : Chip.Holds j d := Chip.setSlot_holds h
  clear_value d
  split
  · exact hd
  · rename_i k e
    split
    · exact Chip.fail_holds hd
    · exact commands_hold k (List.mem_of_find?_eq_some e) _ _ _ hd

theorem Chip.startNext_holds (h : Chip.Holds j c) : Chip.Holds j (Chip.startNext c) := by
  unfold Chip.startNext
  refine Chip.holds_ite (fun p0 => ?_) (fun p0 => ?_)
  · exact h
  · split
    · refine Chip.holds_mk rfl rfl rfl rfl rfl rfl rfl rfl rfl rfl rfl rfl ?_
      exact h
    · extract_lets v7 v8 v9 v10
      have w11 : Chip.Holds j v10 := by
        unfold v10
        refine Chip.freeNext_holds ?_
        refine Chip.holds_mk rfl rfl rfl rfl rfl rfl rfl rfl rfl rfl rfl rfl ?_
        exact h
      clear_value v10
      refine Chip.holds_ite (fun p12 => ?_) (fun p12 => ?_)
      · exact w11
      · refine Chip.startSlot_holds ?_
        exact w11

theorem Chip.tickAll_holds (h : Chip.Holds j c) : Chip.Holds j (Chip.tickAll c) := by
  unfold Chip.tickAll
  refine Chip.tick_holds ?_
  refine Chip.startNext_holds ?_
  exact h

theorem Chip.wwPacket_holds {x0 x1 x2} (h : Chip.Holds j c) : Chip.Holds j (Chip.wwPacket x0 x1 x2 c) := by
  unfold Chip.wwPacket
  refine Chip.holds_ite (fun _ => ?_) (fun _ => ?_)
  · refine Chip.holds_ite (fun hr => ?_) (fun _ => h)
    simp only [Bool.and_eq_true] at hr
    exact Chip.rawPacket_holds hr.1.1 h
  · refine Chip.holds_ite (fun _ => ?_) (fun _ => ?_)
    · exact Chip.holds_ite (fun _ => Chip.raise_holds (Chip.inc_holds h)) (fun _ => h)
    · refine Chip.holds_ite (fun hr => ?_) (fun _ => h)
      exact Chip.takePacket_holds hr (fun k e => commands_hold k (List.mem_of_find?_eq_some e)) h

theorem Chip.rootNotice_holds {x0 x1} (h : Chip.Holds j c) : Chip.Holds j (Chip.rootNotice x0 x1 c) := by
  unfold Chip.rootNotice
  extract_lets v0
  have w1 : Chip.Holds j v0 := by
    unfold v0
    refine Chip.holds_ite (fun p2 => ?_) (fun p2 => ?_)
    · exact h
    · refine Chip.emit_holds ?_
      exact h
  clear_value v0
  refine Chip.holds_ite (fun p3 => ?_) (fun p3 => ?_)
  · refine Chip.fwdEnd_holds ?_
    exact w1
  · exact w1

theorem Chip.fwdReply_holds {x0 x1} (h : Chip.Holds j c) : Chip.Holds j (Chip.fwdReply x0 x1 c) := by
  unfold Chip.fwdReply
  refine Chip.holds_ite (fun _ => h) (fun _ => ?_)
  refine Chip.holds_ite (fun _ => Chip.rootNotice_holds h) (fun _ => ?_)
  split
  · exact Chip.raise_holds (Chip.inc_holds h)
  · extract_lets final fwd v
    refine Chip.sendReply_holds (Chip.holds_gen h rfl id id id id (fun hf => ?_) id id id id id id)
    show fwd.length ≤ 256
    unfold fwd
    split
    · exact Nat.le_trans (List.length_erase_le ..) hf
    · rw [List.length_map]
      exact hf

theorem Chip.fwdLapse_holds {x0 x1} (h : Chip.Holds j c) : Chip.Holds j (Chip.fwdLapse x0 x1 c) := by
  unfold Chip.fwdLapse
  split
  · exact h
  · refine Chip.fwdEnd_holds ?_
    exact h

end Sys2Proof.Machine
end

