-- ==== Sys2Proof/Laws/KeepI3c.lean ====
section
/-! SUPPORT. Each operation of Machine/I3c.lean keeps the device sound and leaves its test access port. -/

namespace Sys2Proof.Machine

variable {j : Jtag} {c : Chip}

theorem Chip.ack_holds (h : Chip.Holds j c) : Chip.Holds j (Chip.ack c) := by
  unfold Chip.ack
  refine Chip.emit_holds ?_
  exact h

theorem Chip.nack_holds (h : Chip.Holds j c) : Chip.Holds j (Chip.nack c) := by
  unfold Chip.nack
  refine Chip.emit_holds ?_
  exact h

theorem Chip.i3cDirect_holds {x0} {f : Chip → Chip} (hf : ∀ c, Chip.Holds j c → Chip.Holds j (f c)) (h : Chip.Holds j c) :
    Chip.Holds j (Chip.i3cDirect x0 f c) :=
  Chip.holds_ite (fun _ => hf c h) (fun _ => Chip.nack_holds h)

theorem Chip.i3cFault_holds (h : Chip.Holds j c) : Chip.Holds j (Chip.i3cFault c) :=
  Chip.holds_ite (fun _ => Chip.holds_mk rfl rfl rfl rfl rfl rfl rfl rfl rfl rfl rfl rfl h) (fun _ => h)

theorem Chip.i3cTo_holds {x0} {f : Nat → Chip → Chip} (hf : ∀ a, Chip.Holds j c → Chip.Holds j (f a c)) (h : Chip.Holds j c) :
    Chip.Holds j (Chip.i3cTo x0 f c) := by
  unfold Chip.i3cTo
  split
  · exact hf _ h
  · exact Chip.i3cFault_holds h

theorem Chip.i3cCcc_holds {x0} {f : Chip → Chip} (hf : ∀ c, Chip.Holds j c → Chip.Holds j (f c)) (h : Chip.Holds j c) :
    Chip.Holds j (Chip.i3cCcc x0 f c) := by
  unfold Chip.i3cCcc
  split
  · exact Chip.holds_ite (fun _ => hf c h) (fun _ => h)
  · exact Chip.i3cDirect_holds (fun c h => hf _ (Chip.ack_holds h)) h
  · exact Chip.i3cFault_holds h

theorem Chip.i3cGet_holds {x0 x1} (h : Chip.Holds j c) : Chip.Holds j (Chip.i3cGet x0 x1 c) := by
  unfold Chip.i3cGet
  refine Chip.i3cDirect_holds ?_ ?_
  · intro y0
    intro y1
    refine Chip.emit_holds ?_
    exact y1
  · exact h

theorem Chip.privateWrite_holds {x0 x1 x2 x3} (h : Chip.Holds j c) : Chip.Holds j (Chip.privateWrite x0 x1 x2 x3 c) := by
  unfold Chip.privateWrite
  refine Chip.holds_ite (fun _ => Chip.nack_holds h) (fun hr => ?_)
  extract_lets d v
  have hd : Chip.Holds j d := Chip.ack_holds h
  refine Chip.holds_ite (fun _ => Chip.holds_mk rfl rfl rfl rfl rfl rfl rfl rfl rfl rfl rfl rfl hd) (fun _ => ?_)
  refine Chip.rawPacket_holds ?_ hd
  have ht : d.takesPackets = c.takesPackets := rfl
  rw [ht]
  simp only [Bool.or_eq_true, not_or] at hr
  simpa using hr.2

theorem Chip.replyRead_holds {x0} (h : Chip.Holds j c) : Chip.Holds j (Chip.replyRead x0 c) := by
  unfold Chip.replyRead
  extract_lets v d
  have hd : Chip.Holds j d := by
    refine Chip.holds_gen h rfl id id (fun hr => ?_) id id id id id id id id
    exact Nat.le_trans ((List.tail_sublist c.ch.replies).filter _).length_le hr
  clear_value d
  split
  · exact Chip.freeSlot_holds hd
  · exact hd

theorem Chip.privateRead_holds {x0 x1} (h : Chip.Holds j c) : Chip.Holds j (Chip.privateRead x0 x1 c) := by
  unfold Chip.privateRead
  refine Chip.holds_ite (fun _ => Chip.nack_holds h) (fun _ => ?_)
  split
  · exact Chip.nack_holds h
  · rename_i r rest e
    extract_lets part sent d v
    have hd : Chip.Holds j d := Chip.emit_holds h
    refine Chip.holds_ite (fun _ => Chip.replyRead_holds hd) (fun _ => ?_)
    refine Chip.holds_gen hd rfl id id (fun hr => ?_) id id id id id id id id
    have hr : (c.ch.replies.filter Reply.refusal).length ≤ 8 := hr
    rw [e] at hr
    simp only [List.filter_cons] at hr ⊢
    have e : ({ r with sent := sent } : Reply).refusal = r.refusal := rfl
    rw [e]
    by_cases hq : r.refusal = true
    · rw [if_pos hq] at hr ⊢
      exact hr
    · rw [if_neg hq] at hr ⊢
      exact hr

theorem Chip.ibiTurn_holds {x0 x1} (h : Chip.Holds j c) : Chip.Holds j (Chip.ibiTurn x0 x1 c) := by
  unfold Chip.ibiTurn
  refine Chip.holds_ite (fun p0 => ?_) (fun p0 => ?_)
  · refine Chip.set_holds ?_
    exact h
  · exact h

theorem Chip.dynAssign_holds {x0} (h : Chip.Holds j c) : Chip.Holds j (Chip.dynAssign x0 c) := by
  unfold Chip.dynAssign
  refine Chip.set_holds ?_
  refine Chip.set_holds ?_
  refine Chip.set_holds ?_
  exact h

theorem Chip.dynClear_holds (h : Chip.Holds j c) : Chip.Holds j (Chip.dynClear c) := by
  unfold Chip.dynClear
  extract_lets v0
  have w1 : Chip.Holds j v0 := by
    unfold v0
    refine Chip.set_holds ?_
    refine Chip.set_holds ?_
    refine Chip.set_holds ?_
    exact h
  clear_value v0
  refine Chip.set_holds ?_
  refine Chip.set_holds ?_
  exact w1

theorem Chip.entDaa_holds {x0} (h : Chip.Holds j c) : Chip.Holds j (Chip.entDaa x0 c) := by
  unfold Chip.entDaa
  refine Chip.holds_ite (fun p0 => ?_) (fun p0 => ?_)
  · refine Chip.ack_holds ?_
    refine Chip.dynAssign_holds ?_
    exact h
  · exact h

theorem Chip.setDasa_holds {x0 x1} (h : Chip.Holds j c) : Chip.Holds j (Chip.setDasa x0 x1 c) := by
  unfold Chip.setDasa
  refine Chip.holds_ite (fun p0 => ?_) (fun p0 => ?_)
  · refine Chip.nack_holds ?_
    exact h
  · refine Chip.i3cDirect_holds ?_ ?_
    · intro y1
      intro y2
      refine Chip.ack_holds ?_
      refine Chip.dynAssign_holds ?_
      exact y2
    · exact h

theorem Chip.setNewDa_holds {x0 x1} (h : Chip.Holds j c) : Chip.Holds j (Chip.setNewDa x0 x1 c) := by
  unfold Chip.setNewDa
  refine Chip.holds_ite (fun p0 => ?_) (fun p0 => ?_)
  · refine Chip.i3cDirect_holds ?_ ?_
    · intro y1
      intro y2
      refine Chip.ack_holds ?_
      refine Chip.set_holds ?_
      exact y2
    · exact h
  · refine Chip.nack_holds ?_
    exact h

theorem Chip.setLimit_holds {x0 x1} (h : Chip.Holds j c) : Chip.Holds j (Chip.setLimit x0 x1 c) := by
  unfold Chip.setLimit
  refine Chip.holds_ite (fun p0 => ?_) (fun p0 => ?_)
  · refine Chip.set_holds ?_
    exact h
  · exact h

theorem Chip.getStatus_holds {x0} (h : Chip.Holds j c) : Chip.Holds j (Chip.getStatus x0 c) := by
  unfold Chip.getStatus
  refine Chip.i3cDirect_holds ?_ ?_
  · intro y0
    intro y1
    refine Chip.emit_holds ?_
    refine Chip.holds_mk rfl rfl rfl rfl rfl rfl rfl rfl rfl rfl rfl rfl ?_
    exact y1
  · exact h

theorem Chip.rstAct_holds {x0 x1} (h : Chip.Holds j c) : Chip.Holds j (Chip.rstAct x0 x1 c) := by
  unfold Chip.rstAct
  extract_lets arm
  refine Chip.holds_ite (fun hn => Chip.i3cCcc_holds (fun c h => ?_) h) (fun _ => ?_)
  · refine Chip.holds_gen h rfl id id id id id id id id id id (fun _ a e => ?_)
    cases e
    exact hn
  · split
    · exact h
    · exact Chip.nack_holds h
    · exact Chip.i3cFault_holds h

theorem Chip.resetPattern_holds (h : Chip.Holds j c) : Chip.Holds j (Chip.resetPattern c) := by
  unfold Chip.resetPattern
  extract_lets a v d
  have hd : Chip.Holds j d := Chip.holds_gen h rfl id id id id id id id id id id (fun _ _ e => by cases e)
  clear_value d a
  split
  · exact Chip.holds_ite (fun _ => Chip.restart_holds hd) (fun _ => hd)
  · exact Chip.warmReset_holds (Chip.tie_holds hd)
  · exact hd

theorem Chip.ibiRepeat_holds (h : Chip.Holds j c) : Chip.Holds j (Chip.ibiRepeat c) := by
  unfold Chip.ibiRepeat
  refine Chip.holds_ite (fun p0 => ?_) (fun p0 => ?_)
  · exact h
  · refine Chip.requestEventIbi_holds ?_
    exact h

theorem Chip.cccOther_holds {x0} (h : Chip.Holds j c) : Chip.Holds j (Chip.cccOther x0 c) := by
  unfold Chip.cccOther
  split
  · exact h
  · exact Chip.nack_holds h
  · exact Chip.i3cFault_holds h

end Sys2Proof.Machine
end

