-- ==== Sys2Proof/Laws/Rows.lean ====
section
/-! SUPPORT. Each arm of `exec`, unfolded once: the command runs its meaning in the always-on island or in another one. -/

namespace Sys2Proof.Machine

theorem exec_vddAonValid (s : State) : exec .vddAonValid s = runAon Chip.aonValid s := rfl
theorem exec_vddAonLost (s : State) : exec .vddAonLost s = runAon Chip.aonLost s := rfl
theorem exec_railValid (rail : Fin 11) (aux18 : Bool) (s : State) : exec (.railValid rail aux18) s = runAon (Chip.railUp rail aux18) s := rfl
theorem exec_railLost (rail : Fin 11) (s : State) : exec (.railLost rail) s = runAon (Chip.railDown rail) s := rfl
theorem exec_vddAuxLost (s : State) : exec .vddAuxLost s = runAon Chip.auxDown s := rfl
theorem exec_resetNLow (s : State) : exec .resetNLow s = runAon Chip.resetLow s := rfl
theorem exec_resetNRelease (addrSel bootSrc : BitVec 2) (s : State) : exec (.resetNRelease addrSel bootSrc) s = runAon (Chip.resetHigh addrSel.toNat bootSrc.toNat) s := rfl
theorem exec_refclkLoss (noEdge : Bool) (s : State) : exec (.refclkLoss noEdge) s = runAon (Chip.refclkLost noEdge) s := rfl
theorem exec_refclkReturn (s : State) : exec .refclkReturn s = runAon Chip.refclkBack s := rfl
theorem exec_coolantOkFall (s : State) : exec .coolantOkFall s = runAon Chip.coolantFall s := rfl
theorem exec_coolantOkRise (lowUs : Nat) (s : State) : exec (.coolantOkRise lowUs) s = runAon (Chip.coolantRise lowUs) s := rfl
theorem exec_coolantLow5ms (s : State) : exec .coolantLow5ms s = runAon Chip.coolantLow5 s := rfl
theorem exec_coolantForcedEnd (s : State) : exec .coolantForcedEnd s = runAon Chip.coolantEnd s := rfl
theorem exec_bootDone (s : State) : exec .bootDone s = runAon Chip.bootDone s := rfl
theorem exec_shutdownSensorRead (readings : List (Option Int)) (outlet : Int) (s : State) : exec (.shutdownSensorRead readings outlet) s = runAon (Chip.shutdownRead readings outlet) s := rfl
theorem exec_shutdownRestart (s : State) : exec .shutdownRestart s = runAon Chip.shutdownLeave s := rfl
theorem exec_i3cPrivateWrite (addr : BitVec 7) (mode : I3cMode) (busErr : Bool) (bytes : List Byte) (s : State) : exec (.i3cPrivateWrite addr mode busErr bytes) s = runAon (Chip.privateWrite addr.toNat mode busErr bytes) s := rfl
theorem exec_i3cPrivateRead (addr : I3cTo) (mode : I3cMode) (s : State) : exec (.i3cPrivateRead addr mode) s = runAon (Chip.i3cTo addr (fun a => Chip.privateRead a mode)) s := rfl
theorem exec_hdrOtherMode (s : State) : exec .hdrOtherMode s = runAon (fun c => c) s := rfl
theorem exec_unsupportedCcc (dst : CccDst) (s : State) : exec (.unsupportedCcc dst) s = runAon (Chip.cccOther dst) s := rfl
theorem exec_enec (dst : CccDst) (intr hotJoin : Bool) (s : State) : exec (.enec dst intr hotJoin) s = runAon (Chip.i3cCcc dst (Chip.ibiTurn true intr)) s := rfl
theorem exec_disec (dst : CccDst) (intr hotJoin : Bool) (s : State) : exec (.disec dst intr hotJoin) s = runAon (Chip.i3cCcc dst (Chip.ibiTurn false intr)) s := rfl
theorem exec_rstdaa (s : State) : exec .rstdaa s = runAon (Chip.i3cCcc .broadcast Chip.dynClear) s := rfl
theorem exec_entdaa (dyn : I3cTo) (s : State) : exec (.entdaa dyn) s = runAon (Chip.i3cTo dyn Chip.entDaa) s := rfl
theorem exec_setdasa (addr : I3cTo) (dyn : BitVec 7) (s : State) : exec (.setdasa addr dyn) s = runAon (Chip.i3cTo addr (fun a => Chip.setDasa a dyn.toNat)) s := rfl
theorem exec_setnewda (addr : I3cTo) (dyn : BitVec 7) (s : State) : exec (.setnewda addr dyn) s = runAon (Chip.i3cTo addr (fun a => Chip.setNewDa a dyn.toNat)) s := rfl
theorem exec_setmwl (dst : CccDst) (len : BitVec 16) (s : State) : exec (.setmwl dst len) s = runAon (Chip.i3cCcc dst (Chip.setLimit F.I3C_STAT_MWL len.toNat)) s := rfl
theorem exec_setmrl (dst : CccDst) (len : BitVec 16) (s : State) : exec (.setmrl dst len) s = runAon (Chip.i3cCcc dst (Chip.setLimit F.I3C_STAT_MRL len.toNat)) s := rfl
theorem exec_getmwl (addr : I3cTo) (s : State) : exec (.getmwl addr) s = runAon (Chip.i3cTo addr (fun a c => c.i3cGet a (msbFirst 2 (c.get F.I3C_STAT_MWL)))) s := rfl
theorem exec_getmrl (addr : I3cTo) (s : State) : exec (.getmrl addr) s = runAon (Chip.i3cTo addr (fun a c => c.i3cGet a (msbFirst 2 (c.get F.I3C_STAT_MRL) ++ [1#8]))) s := rfl
theorem exec_getpid (addr : I3cTo) (s : State) : exec (.getpid addr) s = runAon (Chip.i3cTo addr (fun a c => c.i3cGet a (msbFirst 6 c.pid))) s := rfl
theorem exec_getbcr (addr : I3cTo) (s : State) : exec (.getbcr addr) s = runAon (Chip.i3cTo addr (fun a => Chip.i3cGet a [0x06#8])) s := rfl
theorem exec_getdcr (addr : I3cTo) (s : State) : exec (.getdcr addr) s = runAon (Chip.i3cTo addr (fun a => Chip.i3cGet a [0x00#8])) s := rfl
theorem exec_getstatus (addr : I3cTo) (s : State) : exec (.getstatus addr) s = runAon (Chip.i3cTo addr Chip.getStatus) s := rfl
theorem exec_getmxds (addr : I3cTo) (s : State) : exec (.getmxds addr) s = runAon (Chip.i3cTo addr (fun a => Chip.i3cGet a [0x00#8, 0x00#8])) s := rfl
theorem exec_rstact (dst : CccDst) (action : Byte) (s : State) : exec (.rstact dst action) s = runAon (Chip.rstAct dst action.toNat) s := rfl
theorem exec_targetResetPattern (s : State) : exec .targetResetPattern s = runAon Chip.resetPattern s := rfl
theorem exec_eventIbiRepeat (s : State) : exec .eventIbiRepeat s = runChip Chip.ibiRepeat s := rfl
theorem exec_fwWatchdog (s : State) : exec .fwWatchdog s = runChip Chip.watchdogBite s := rfl
theorem exec_chanterRestartDone (s : State) : exec .chanterRestartDone s = runChip Chip.restartDone s := rfl
theorem exec_chSysNop (p : Pkt) (s : State) : exec (.chSysNop p) s = runAon (Chip.command cmdSysNop p) s := rfl
theorem exec_chSysIdentify (p : Pkt) (s : State) : exec (.chSysIdentify p) s = runAon (Chip.command cmdSysIdentify p) s := rfl
theorem exec_chSysStatus (p : Pkt) (s : State) : exec (.chSysStatus p) s = runAon (Chip.command cmdSysStatus p) s := rfl
theorem exec_chSysPeek (p : Pkt) (s : State) : exec (.chSysPeek p) s = runAon (Chip.command cmdSysPeek p) s := rfl
theorem exec_chSysPoke (p : Pkt) (s : State) : exec (.chSysPoke p) s = runAon (Chip.command cmdSysPoke p) s := rfl
theorem exec_chSysReset (p : Pkt) (s : State) : exec (.chSysReset p) s = runAon (Chip.command cmdSysReset p) s := rfl
theorem exec_sysResetTakesEffect (s : State) : exec .sysResetTakesEffect s = runChip Chip.resetEffect s := rfl
theorem exec_targetedResetDone (kind : Fin 8) (index : BitVec 16) (s : State) : exec (.targetedResetDone kind index) s = runChip (Chip.targetedDone kind index.toNat) s := rfl
theorem exec_chSysAbort (p : Pkt) (s : State) : exec (.chSysAbort p) s = runAon (Chip.command cmdSysAbort p) s := rfl
theorem exec_chSysEventRead (p : Pkt) (s : State) : exec (.chSysEventRead p) s = runAon (Chip.command cmdSysEventRead p) s := rfl
theorem exec_chSysEventMask (p : Pkt) (s : State) : exec (.chSysEventMask p) s = runAon (Chip.command cmdSysEventMask p) s := rfl
theorem exec_chSysNotice (p : Pkt) (s : State) : exec (.chSysNotice p) s = runAon (Chip.command cmdSysNotice p) s := rfl
theorem exec_chSysFwInfo (p : Pkt) (s : State) : exec (.chSysFwInfo p) s = runAon (Chip.command cmdSysFwInfo p) s := rfl
theorem exec_chSysFwBegin (p : Pkt) (s : State) : exec (.chSysFwBegin p) s = runAon (Chip.command cmdSysFwBegin p) s := rfl
theorem exec_chSysFwData (p : Pkt) (s : State) : exec (.chSysFwData p) s = runAon (Chip.command cmdSysFwData p) s := rfl
theorem exec_chSysFwCommit (p : Pkt) (s : State) : exec (.chSysFwCommit p) s = runAon (Chip.command cmdSysFwCommit p) s := rfl
theorem exec_fwCommitDone (s : State) : exec .fwCommitDone s = runChip Chip.commitDone s := rfl
theorem exec_wwChanterPacket (src : BitVec 12) (bridge : Bool) (bytes : List Byte) (s : State) : exec (.wwChanterPacket src bridge bytes) s = runChip (Chip.wwPacket src.toNat bridge bytes) s := rfl
theorem exec_fwdReplyArrival (src : BitVec 12) (bytes : List Byte) (s : State) : exec (.fwdReplyArrival src bytes) s = runChip (Chip.fwdReply src.toNat bytes) s := rfl
theorem exec_fwdTimeout (dest : BitVec 12) (tag : BitVec 16) (s : State) : exec (.fwdTimeout dest tag) s = runChip (Chip.fwdLapse dest.toNat tag.toNat) s := rfl
theorem exec_chCntClr (data : Word) (s : State) : exec (.chCntClr data) s = runChip (fun c => (c.chCntClr data.toNat).answer rspOk 0) s := rfl
theorem exec_evqMaskWrite (data : Word) (s : State) : exec (.evqMaskWrite data) s = runChip (fun c => (c.evqMask data.toNat).answer rspOk 0) s := rfl
theorem exec_evqClrLost (s : State) : exec .evqClrLost s = runChip (fun c => c.evqClrLost.answer rspOk 0) s := rfl
theorem exec_evqFlush (s : State) : exec .evqFlush s = runChip (fun c => c.evqFlush.answer rspOk 0) s := rfl
theorem exec_registerWrite (addr : BitVec 48) (data : Word) (s : State) : exec (.registerWrite addr data) s = runChip (Chip.registerWrite addr.toNat data.toNat) s := rfl
theorem exec_engineCycle (pe : Fin 16) (s : State) : exec (.engineCycle pe) s = runChip (Chip.engineCycle pe none) s := rfl
theorem exec_seqNext (pe : Fin 16) (word : BitVec 256) (s : State) : exec (.seqNext pe word) s = runChip (Chip.engineCycle pe (some (withSeq seqNEXT word.toNat))) s := rfl
theorem exec_seqJmp (pe : Fin 16) (word : BitVec 256) (s : State) : exec (.seqJmp pe word) s = runChip (Chip.engineCycle pe (some (withSeq seqJMP word.toNat))) s := rfl
theorem exec_seqJc (pe : Fin 16) (word : BitVec 256) (s : State) : exec (.seqJc pe word) s = runChip (Chip.engineCycle pe (some (withSeq seqJC word.toNat))) s := rfl
theorem exec_seqCall (pe : Fin 16) (word : BitVec 256) (s : State) : exec (.seqCall pe word) s = runChip (Chip.engineCycle pe (some (withSeq seqCALL word.toNat))) s := rfl
theorem exec_seqRet (pe : Fin 16) (word : BitVec 256) (s : State) : exec (.seqRet pe word) s = runChip (Chip.engineCycle pe (some (withSeq seqRET word.toNat))) s := rfl
theorem exec_seqLoop (pe : Fin 16) (word : BitVec 256) (s : State) : exec (.seqLoop pe word) s = runChip (Chip.engineCycle pe (some (withSeq seqLOOP word.toNat))) s := rfl
theorem exec_seqLdlc (pe : Fin 16) (word : BitVec 256) (s : State) : exec (.seqLdlc pe word) s = runChip (Chip.engineCycle pe (some (withSeq seqLDLC word.toNat))) s := rfl
theorem exec_seqRepeat (pe : Fin 16) (word : BitVec 256) (s : State) : exec (.seqRepeat pe word) s = runChip (Chip.engineCycle pe (some (withSeq seqREPEAT word.toNat))) s := rfl
theorem exec_seqWaitf (pe : Fin 16) (word : BitVec 256) (s : State) : exec (.seqWaitf pe word) s = runChip (Chip.engineCycle pe (some (withSeq seqWAITF word.toNat))) s := rfl
theorem exec_waitfTimeout (pe : Fin 16) (s : State) : exec (.waitfTimeout pe) s = runChip (fun c => c.waitfExpire (c.gangLeader pe)) s := rfl
theorem exec_seqSync (pe : Fin 16) (word : BitVec 256) (s : State) : exec (.seqSync pe word) s = runChip (Chip.engineCycle pe (some (withSeq seqSYNC word.toNat))) s := rfl
theorem exec_syncTick (pe : Fin 16) (tick : Nat) (s : State) : exec (.syncTick pe tick) s = runChip (Chip.syncTick pe tick) s := rfl
theorem exec_seqPause (pe : Fin 16) (word : BitVec 256) (s : State) : exec (.seqPause pe word) s = runChip (Chip.engineCycle pe (some (withSeq seqPAUSE word.toNat))) s := rfl
theorem exec_seqHalt (pe : Fin 16) (word : BitVec 256) (s : State) : exec (.seqHalt pe word) s = runChip (Chip.engineCycle pe (some (withSeq seqHALT word.toNat))) s := rfl
theorem exec_holdCycle (pe : Fin 16) (s : State) : exec (.holdCycle pe) s = runChip (Chip.holdCycle pe) s := rfl
theorem exec_holdLong (pe : Fin 16) (s : State) : exec (.holdLong pe) s = runChip (Chip.holdLong pe) s := rfl
theorem exec_peStartTick (pe : Fin 16) (tick : Nat) (s : State) : exec (.peStartTick pe tick) s = runChip (Chip.startTick pe tick) s := rfl
theorem exec_streamPrefillDone (pe : Fin 16) (s : State) : exec (.streamPrefillDone pe) s = runChip (Chip.prefillDone pe) s := rfl
theorem exec_streamReadResponse (pe : Fin 16) (rsp : Fin 6) (count : Nat) (s : State) : exec (.streamReadResponse pe rsp count) s = runChip (Chip.streamRead pe (rsp = 0) count) s := rfl
theorem exec_uportVectorArrival (pe : Fin 16) (vec : BitVec 256) (s : State) : exec (.uportVectorArrival pe vec) s = runChip (Chip.uportVector pe vec.toNat) s := rfl
theorem exec_uportFlagUpdate (pe : Fin 16) (flags : Byte) (s : State) : exec (.uportFlagUpdate pe flags) s = runChip (Chip.uportFlags pe flags.toNat) s := rfl
theorem exec_peImDataWrite (pe : Fin 16) (hi : BitVec 128) (s : State) : exec (.peImDataWrite pe hi) s = runChip (fun c => answerWrite (c.imDataHi pe hi.toNat)) s := rfl
theorem exec_peStopbindWrite (pe : Fin 16) (k : Fin 3) (mask : Word) (s : State) : exec (.peStopbindWrite pe k mask) s = runChip (fun c => answerWrite (c.stopBind pe k mask.toNat)) s := rfl
theorem exec_chPeStatus (p : Pkt) (s : State) : exec (.chPeStatus p) s = runAon (Chip.command cmdPeStatus p) s := rfl
theorem exec_chPeLoad (p : Pkt) (s : State) : exec (.chPeLoad p) s = runAon (Chip.command cmdPeLoad p) s := rfl
theorem exec_chPeStart (p : Pkt) (s : State) : exec (.chPeStart p) s = runAon (Chip.command cmdPeStart p) s := rfl
theorem exec_chPePause (p : Pkt) (s : State) : exec (.chPePause p) s = runAon (Chip.command cmdPePause p) s := rfl
theorem exec_chPeResume (p : Pkt) (s : State) : exec (.chPeResume p) s = runAon (Chip.command cmdPeResume p) s := rfl
theorem exec_chPeStop (p : Pkt) (s : State) : exec (.chPeStop p) s = runAon (Chip.command cmdPeStop p) s := rfl
theorem exec_chPeAbort (p : Pkt) (s : State) : exec (.chPeAbort p) s = runAon (Chip.command cmdPeAbort p) s := rfl
theorem exec_chPeGang (p : Pkt) (s : State) : exec (.chPeGang p) s = runAon (Chip.command cmdPeGang p) s := rfl
theorem exec_chPeClock (p : Pkt) (s : State) : exec (.chPeClock p) s = runAon (Chip.command cmdPeClock p) s := rfl
theorem exec_peClockLocked (pe : Fin 16) (s : State) : exec (.peClockLocked pe) s = runChip (Chip.clockLocked pe) s := rfl
theorem exec_compareResult (pe : Fin 16) (obs : List (List PinObs)) (s : State) : exec (.compareResult pe obs) s = runChip (Chip.compareResult pe obs) s := rfl
theorem exec_driftMeasurement (ch : Fin 256) (capture : Bool) (err : Int) (s : State) : exec (.driftMeasurement ch capture err) s = runChip (Chip.driftMeasure ch capture err) s := rfl
theorem exec_driftStarved (ch : Fin 256) (capture : Bool) (s : State) : exec (.driftStarved ch capture) s = runChip (Chip.driftStarve ch capture) s := rfl
theorem exec_reedReacquireDone (ch : Fin 256) (deltaL deltaC : Int) (s : State) : exec (.reedReacquireDone ch deltaL deltaC) s = runChip (Chip.reacquired ch deltaL deltaC) s := rfl
theorem exec_rdTsPortDataWrite (g : Fin 32) (data : Wide) (s : State) : exec (.rdTsPortDataWrite g data) s = runChip (fun c => answerWrite (c.tsPortWrite g data.toNat)) s := rfl
theorem exec_rdTsPortDataRead (g : Fin 32) (s : State) : exec (.rdTsPortDataRead g) s = runChip (fun c => (c.tsPortRead g).2.answer rspOk (c.tsPortRead g).1) s := rfl
theorem exec_rdTsPopRead (g : Fin 32) (s : State) : exec (.rdTsPopRead g) s = runChip (fun c => (c.tsPop g).2.answer rspOk (c.tsPop g).1) s := rfl
theorem exec_rdUcalWrite (ch : Fin 256) (data : Wide) (s : State) : exec (.rdUcalWrite ch data) s = runChip (fun c => (c.ucalWrite ch ((List.range 6).map (fun i => bits data.toNat (16 * i + 15) (16 * i)))).answer rspOk 0) s := rfl
theorem exec_rdCntClr (g : Fin 32) (data : Word) (s : State) : exec (.rdCntClr g data) s = runChip (fun c => (c.clearBits (rdCounters g) data.toNat).answer rspOk 0) s := rfl
theorem exec_chRdStatus (p : Pkt) (s : State) : exec (.chRdStatus p) s = runAon (Chip.command cmdRdStatus p) s := rfl
theorem exec_chRdTsWrite (p : Pkt) (s : State) : exec (.chRdTsWrite p) s = runAon (Chip.command cmdRdTsWrite p) s := rfl
theorem exec_chRdTsRead (p : Pkt) (s : State) : exec (.chRdTsRead p) s = runAon (Chip.command cmdRdTsRead p) s := rfl
theorem exec_chRdCalWrite (p : Pkt) (s : State) : exec (.chRdCalWrite p) s = runAon (Chip.command cmdRdCalWrite p) s := rfl
theorem exec_chRdCalRead (p : Pkt) (s : State) : exec (.chRdCalRead p) s = runAon (Chip.command cmdRdCalRead p) s := rfl
theorem exec_chRdCalSave (p : Pkt) (s : State) : exec (.chRdCalSave p) s = runAon (Chip.command cmdRdCalSave p) s := rfl
theorem exec_chRdCheck (p : Pkt) (s : State) : exec (.chRdCheck p) s = runAon (Chip.command cmdRdCheck p) s := rfl
theorem exec_failDispatch (s : State) : exec .failDispatch s = runChip Chip.failDispatch s := rfl
theorem exec_fatWaitExpiry (pe : Fin 16) (s : State) : exec (.fatWaitExpiry pe) s = runChip (Chip.fatExpire pe) s := rfl
theorem exec_bmWritebackResponse (addr : BitVec 48) (rsp : Fin 6) (detail : Byte) (perr : Bool) (s : State) : exec (.bmWritebackResponse addr rsp detail perr) s = runChip (Chip.bmQueue addr.toNat ⟨rsp, detail.toNat⟩ perr) s := rfl
theorem exec_fatPortReadLo (s : State) : exec .fatPortReadLo s = runChip (fun c => (c.fatPortLo.2).answer rspOk c.fatPortLo.1) s := rfl
theorem exec_fatPortReadHi (s : State) : exec .fatPortReadHi s = runChip (fun c => (c.fatPortHi.2).answer rspOk c.fatPortHi.1) s := rfl
theorem exec_capPeCntClr (pe : Fin 16) (data : Word) (s : State) : exec (.capPeCntClr pe data) s = runChip (fun c => (c.capCntClr pe data.toNat).answer rspOk 0) s := rfl
theorem exec_chCapStatus (p : Pkt) (s : State) : exec (.chCapStatus p) s = runAon (Chip.command cmdCapStatus p) s := rfl
theorem exec_chCapConfig (p : Pkt) (s : State) : exec (.chCapConfig p) s = runAon (Chip.command cmdCapConfig p) s := rfl
theorem exec_chCapClear (p : Pkt) (s : State) : exec (.chCapClear p) s = runAon (Chip.command cmdCapClear p) s := rfl
theorem exec_chCapBmFlush (p : Pkt) (s : State) : exec (.chCapBmFlush p) s = runAon (Chip.command cmdCapBmFlush p) s := rfl
theorem exec_chCapBmZero (p : Pkt) (s : State) : exec (.chCapBmZero p) s = runAon (Chip.command cmdCapBmZero p) s := rfl
theorem exec_bmZeroRowDone (rsp : Fin 6) (detail : Byte) (s : State) : exec (.bmZeroRowDone rsp detail) s = runChip (Chip.bmZeroRow ⟨rsp, detail.toNat⟩) s := rfl
theorem exec_chCapFflRead (p : Pkt) (s : State) : exec (.chCapFflRead p) s = runAon (Chip.command cmdCapFflRead p) s := rfl
theorem exec_chCapFatRead (p : Pkt) (s : State) : exec (.chCapFatRead p) s = runAon (Chip.command cmdCapFatRead p) s := rfl
theorem exec_chCapLostRead (p : Pkt) (s : State) : exec (.chCapLostRead p) s = runAon (Chip.command cmdCapLostRead p) s := rfl
theorem exec_raeTake (s : State) : exec .raeTake s = runChip Chip.raeTake s := rfl
theorem exec_raeImportWrite (slot : Fin 16) (upper : Bool) (data : Wide) (s : State) : exec (.raeImportWrite slot upper data) s = runChip (fun c => answerWrite (c.raeImport slot upper data.toNat)) s := rfl
theorem exec_raeSrcTimeout (slot : Fin 16) (s : State) : exec (.raeSrcTimeout slot) s = runChip (Chip.raeSrcTimeout slot) s := rfl
theorem exec_raeDecideDomain (s : State) : exec .raeDecideDomain s = runChip Chip.raeDecide s := rfl
theorem exec_raeRecordResponse (idx : Fin 512) (ep : Fin 4) (ns : Nat) (s : State) : exec (.raeRecordResponse idx ep ns) s = runChip (Chip.raeRecordRsp idx ep ns) s := rfl
theorem exec_raeRingWaitLong (s : State) : exec .raeRingWaitLong s = runChip Chip.ringLong s := rfl
theorem exec_raeMemoryResponse (rsp : Fin 6) (detail : Byte) (uncorr : Bool) (s : State) : exec (.raeMemoryResponse rsp detail uncorr) s = runChip (Chip.raeMemory ⟨rsp, detail.toNat⟩ uncorr) s := rfl
theorem exec_raeZeroingDone (s : State) : exec .raeZeroingDone s = runChip Chip.raeZeroed s := rfl
theorem exec_raeFinalDone (s : State) : exec .raeFinalDone s = runChip Chip.raeFinalDone s := rfl
theorem exec_raeCntClr (data : Word) (s : State) : exec (.raeCntClr data) s = runChip (fun c => (c.clearBits [F.RAE_CNT_TAKES_COUNT, F.RAE_CNT_UNASSIGNED_COUNT, F.RAE_CNT_DISCARDED_COUNT] data.toNat).answer rspOk 0) s := rfl
theorem exec_chRaStatus (p : Pkt) (s : State) : exec (.chRaStatus p) s = runAon (Chip.command cmdRaStatus p) s := rfl
theorem exec_chRaRecipeLoad (p : Pkt) (s : State) : exec (.chRaRecipeLoad p) s = runAon (Chip.command cmdRaRecipeLoad p) s := rfl
theorem exec_chRaRecipeCommit (p : Pkt) (s : State) : exec (.chRaRecipeCommit p) s = runAon (Chip.command cmdRaRecipeCommit p) s := rfl
theorem exec_chRaBegin (p : Pkt) (s : State) : exec (.chRaBegin p) s = runAon (Chip.command cmdRaBegin p) s := rfl
theorem exec_chRaFinal (p : Pkt) (s : State) : exec (.chRaFinal p) s = runAon (Chip.command cmdRaFinal p) s := rfl
theorem exec_chRaEnd (p : Pkt) (s : State) : exec (.chRaEnd p) s = runAon (Chip.command cmdRaEnd p) s := rfl
theorem exec_chRaCtxRead (p : Pkt) (s : State) : exec (.chRaCtxRead p) s = runAon (Chip.command cmdRaCtxRead p) s := rfl
theorem exec_chRaRingRead (p : Pkt) (s : State) : exec (.chRaRingRead p) s = runAon (Chip.command cmdRaRingRead p) s := rfl
theorem exec_stopRequestArrival (r : Fin 192) (src : Fin 3) (s : State) : exec (.stopRequestArrival r src) s = runChip (Chip.stopArrive r src) s := rfl
theorem exec_stopSwitchDecision (r : Fin 192) (s : State) : exec (.stopSwitchDecision r) s = runChip (Chip.stopDecide r) s := rfl
theorem exec_stopMark (r : Fin 192) (s : State) : exec (.stopMark r) s = runChip (Chip.stopMark r) s := rfl
theorem exec_gateWordArrival (src dst : Fin 192) (bore : Fin 800) (upper : Bool) (s : State) : exec (.gateWordArrival src dst bore upper) s = runChip (Chip.gateWord src dst (2 * bore + b2n upper)) s := rfl
theorem exec_partyLineRise (r : Fin 192) (lines : BitVec 4) (s : State) : exec (.partyLineRise r lines) s = runChip (Chip.partyRise r lines.toNat) s := rfl
theorem exec_roMeasure (r : Fin 192) (mhz : BitVec 16) (s : State) : exec (.roMeasure r mhz) s = runChip (Chip.roMeasure r mhz.toNat) s := rfl
theorem exec_fabBcastGo (data : Word) (s : State) : exec (.fabBcastGo data) s = runChip (fun c => answerWrite (c.fabBcast data.toNat)) s := rfl
theorem exec_fabRgClrCnt (r : Fin 192) (data : Word) (s : State) : exec (.fabRgClrCnt r data) s = runChip (fun c => answerWrite (c.rgCtlWrite r data.toNat)) s := rfl
theorem exec_fabRgCapctlArm (r : Fin 192) (data : Word) (s : State) : exec (.fabRgCapctlArm r data) s = runChip (fun c => answerWrite (c.capCtlWrite r data.toNat)) s := rfl
theorem exec_fabRgCapctlStop (r : Fin 192) (data : Word) (s : State) : exec (.fabRgCapctlStop r data) s = runChip (fun c => answerWrite (c.capCtlWrite r data.toNat)) s := rfl
theorem exec_captureTrigger (r : Fin 192) (s : State) : exec (.captureTrigger r) s = runChip (Chip.capTrigger r) s := rfl
theorem exec_captureDone (r : Fin 192) (s : State) : exec (.captureDone r) s = runChip (Chip.capDone r) s := rfl
theorem exec_spCtlWrite (j : Fin 32) (data : Word) (s : State) : exec (.spCtlWrite j data) s = runChip (fun c => answerWrite (c.spCtl j data.toNat)) s := rfl
theorem exec_spTxWrite (j : Fin 32) (data : Word) (s : State) : exec (.spTxWrite j data) s = runChip (fun c => answerWrite (c.spPush j data.toNat)) s := rfl
theorem exec_spRxRead (j : Fin 32) (s : State) : exec (.spRxRead j) s = runChip (fun c => (c.spPop j).2.2.answer (c.spPop j).1 (c.spPop j).2.1) s := rfl
theorem exec_serialByteReceived (j : Fin 32) (byte : Byte) (bad : Bool) (nack : Bool) (s : State) : exec (.serialByteReceived j byte bad nack) s = runChip (Chip.spReceive j byte.toNat bad nack) s := rfl
theorem exec_serialByteSent (j : Fin 32) (s : State) : exec (.serialByteSent j) s = runChip (Chip.spSent j) s := rfl
theorem exec_chFabStatus (p : Pkt) (s : State) : exec (.chFabStatus p) s = runAon (Chip.command cmdFabStatus p) s := rfl
theorem exec_chFabProbe (p : Pkt) (s : State) : exec (.chFabProbe p) s = runAon (Chip.command cmdFabProbe p) s := rfl
theorem exec_chFabCapArm (p : Pkt) (s : State) : exec (.chFabCapArm p) s = runAon (Chip.command cmdFabCapArm p) s := rfl
theorem exec_chFabCapStop (p : Pkt) (s : State) : exec (.chFabCapStop p) s = runAon (Chip.command cmdFabCapStop p) s := rfl
theorem exec_chFabCapRead (p : Pkt) (s : State) : exec (.chFabCapRead p) s = runAon (Chip.command cmdFabCapRead p) s := rfl
theorem exec_chCfgStatus (p : Pkt) (s : State) : exec (.chCfgStatus p) s = runAon (Chip.command cmdCfgStatus p) s := rfl
theorem exec_chCfgLoadBegin (p : Pkt) (s : State) : exec (.chCfgLoadBegin p) s = runAon (Chip.command cmdCfgLoadBegin p) s := rfl
theorem exec_chCfgLoadData (p : Pkt) (s : State) : exec (.chCfgLoadData p) s = runAon (Chip.command cmdCfgLoadData p) s := rfl
theorem exec_chCfgLoadEnd (p : Pkt) (s : State) : exec (.chCfgLoadEnd p) s = runAon (Chip.command cmdCfgLoadEnd p) s := rfl
theorem exec_chCfgLoadDram (p : Pkt) (s : State) : exec (.chCfgLoadDram p) s = runAon (Chip.command cmdCfgLoadDram p) s := rfl
theorem exec_chCfgPage (p : Pkt) (s : State) : exec (.chCfgPage p) s = runAon (Chip.command cmdCfgPage p) s := rfl
theorem exec_chCfgDraw (p : Pkt) (s : State) : exec (.chCfgDraw p) s = runAon (Chip.command cmdCfgDraw p) s := rfl
theorem exec_chCfgRewriteSlot (p : Pkt) (s : State) : exec (.chCfgRewriteSlot p) s = runAon (Chip.command cmdCfgRewriteSlot p) s := rfl
theorem exec_chCfgLibStatus (p : Pkt) (s : State) : exec (.chCfgLibStatus p) s = runAon (Chip.command cmdCfgLibStatus p) s := rfl
theorem exec_chCfgLibFree (p : Pkt) (s : State) : exec (.chCfgLibFree p) s = runAon (Chip.command cmdCfgLibFree p) s := rfl
theorem exec_chCfgXspi (p : Pkt) (s : State) : exec (.chCfgXspi p) s = runAon (Chip.command cmdCfgXspi p) s := rfl
theorem exec_flashSegmentRead (part : FlashPart) (s : State) : exec (.flashSegmentRead part) s = runChip (Chip.flashRead part) s := rfl
theorem exec_loadStallTimeout (s : State) : exec .loadStallTimeout s = runChip Chip.loadStall s := rfl
theorem exec_pagingDone (verified failed : BitVec 192) (s : State) : exec (.pagingDone verified failed) s = runChip (Chip.pagingDone verified.toNat failed.toNat) s := rfl
theorem exec_signatureVerified (s : State) : exec .signatureVerified s = runChip Chip.signatureDone s := rfl
theorem exec_rewriteHold (r : Fin 192) (s : State) : exec (.rewriteHold r) s = runChip (Chip.rewriteHold r) s := rfl
theorem exec_tongueReqWrite (ni : Fin 288) (wide : Bool) (data : Wide) (s : State) : exec (.tongueReqWrite ni wide data) s = runChip (fun c => answerWrite (c.tongueReq ni wide data.toNat)) s := rfl
theorem exec_chSecStatus (p : Pkt) (s : State) : exec (.chSecStatus p) s = runAon (Chip.command cmdSecStatus p) s := rfl
theorem exec_chSecLcAdvance (p : Pkt) (s : State) : exec (.chSecLcAdvance p) s = runAon (Chip.command cmdSecLcAdvance p) s := rfl
theorem exec_chSecNonce (p : Pkt) (s : State) : exec (.chSecNonce p) s = runAon (Chip.command cmdSecNonce p) s := rfl
theorem exec_chSecReqData (p : Pkt) (s : State) : exec (.chSecReqData p) s = runAon (Chip.command cmdSecReqData p) s := rfl
theorem exec_chSecKeyProg (p : Pkt) (s : State) : exec (.chSecKeyProg p) s = runAon (Chip.command cmdSecKeyProg p) s := rfl
theorem exec_chSecKeyRevoke (p : Pkt) (s : State) : exec (.chSecKeyRevoke p) s = runAon (Chip.command cmdSecKeyRevoke p) s := rfl
theorem exec_chSecSvnRaise (p : Pkt) (s : State) : exec (.chSecSvnRaise p) s = runAon (Chip.command cmdSecSvnRaise p) s := rfl
theorem exec_chSecRma (p : Pkt) (s : State) : exec (.chSecRma p) s = runAon (Chip.command cmdSecRma p) s := rfl
theorem exec_chSecRootkeyProg (p : Pkt) (s : State) : exec (.chSecRootkeyProg p) s = runAon (Chip.command cmdSecRootkeyProg p) s := rfl
theorem exec_chSecAttest (p : Pkt) (s : State) : exec (.chSecAttest p) s = runAon (Chip.command cmdSecAttest p) s := rfl
theorem exec_chSecBlobRead (p : Pkt) (s : State) : exec (.chSecBlobRead p) s = runAon (Chip.command cmdSecBlobRead p) s := rfl
theorem exec_fuseBurnDone (s : State) : exec .fuseBurnDone s = runChip Chip.fuseDone s := rfl
theorem exec_attestSigned (s : State) : exec .attestSigned s = runChip Chip.attestSigned s := rfl
theorem exec_spARead (r : Fin 192) (bank : Fin 16) (k : BitVec 12) (flaw : Fin 3) (s : State) : exec (.spARead r bank k flaw) s = runChip (Chip.portA r bank k.toNat .read 0 0 flaw) s := rfl
theorem exec_spAWrite (r : Fin 192) (bank : Fin 16) (k : BitVec 12) (data : Wide) (be : BitVec 16) (flaw : Fin 3) (s : State) : exec (.spAWrite r bank k data be flaw) s = runChip (Chip.portA r bank k.toNat .write data.toNat be.toNat flaw) s := rfl
theorem exec_spAAdd64 (r : Fin 192) (bank : Fin 16) (k : BitVec 12) (data : Wide) (flaw : Fin 3) (s : State) : exec (.spAAdd64 r bank k data flaw) s = runChip (Chip.portA r bank k.toNat .add64 data.toNat 0 flaw) s := rfl
theorem exec_spAAdd128 (r : Fin 192) (bank : Fin 16) (k : BitVec 12) (data : Wide) (flaw : Fin 3) (s : State) : exec (.spAAdd128 r bank k data flaw) s = runChip (Chip.portA r bank k.toNat .add128 data.toNat 0 flaw) s := rfl
theorem exec_spASwap (r : Fin 192) (bank : Fin 16) (k : BitVec 12) (data : Wide) (flaw : Fin 3) (s : State) : exec (.spASwap r bank k data flaw) s = runChip (Chip.portA r bank k.toNat .swap data.toNat 0 flaw) s := rfl
theorem exec_spAReservedOp (r : Fin 192) (bank : Fin 16) (s : State) : exec (.spAReservedOp r bank) s = runChip (Chip.portABad r bank) s := rfl
theorem exec_spPwrCtlWrite (r : Fin 192) (data : Word) (s : State) : exec (.spPwrCtlWrite r data) s = runChip (fun c => answerWrite (c.pwrWrite r data.toNat)) s := rfl
theorem exec_bankTransitionDone (r : Fin 192) (bank : Fin 16) (s : State) : exec (.bankTransitionDone r bank) s = runChip (Chip.bankDone r bank) s := rfl
theorem exec_spCntClr (r : Fin 192) (data : Word) (s : State) : exec (.spCntClr r data) s = runChip (fun c => (c.spCntClr r data.toNat).answer rspOk 0) s := rfl
theorem exec_leaseStart (r : Fin 192) (bank : Fin 16) (s : State) : exec (.leaseStart r bank) s = runChip (Chip.leaseStart r bank) s := rfl
theorem exec_leaseEnd (r : Fin 192) (bank : Fin 16) (s : State) : exec (.leaseEnd r bank) s = runChip (Chip.leaseEnd r bank) s := rfl
theorem exec_chSpStatus (p : Pkt) (s : State) : exec (.chSpStatus p) s = runAon (Chip.command cmdSpStatus p) s := rfl
theorem exec_chSpPower (p : Pkt) (s : State) : exec (.chSpPower p) s = runAon (Chip.command cmdSpPower p) s := rfl
theorem exec_chSpColmapRead (p : Pkt) (s : State) : exec (.chSpColmapRead p) s = runAon (Chip.command cmdSpColmapRead p) s := rfl
theorem exec_dramRowAccessDone (busy : List (BitVec 8)) (parity : Option DrParity) (found : GranFlaws) (s : State) : exec (.dramRowAccessDone busy parity found) s = runChip (Chip.drRow busy parity found) s := rfl
theorem exec_dramRequestAccept (src : DrSrc) (s : State) : exec (.dramRequestAccept src) s = runChip (Chip.drAccept src) s := rfl
theorem exec_refreshDue (s : State) : exec .refreshDue s = runChip Chip.drDue s := rfl
theorem exec_refreshDone (s : State) : exec .refreshDone s = runChip (Chip.drRefreshed false) s := rfl
theorem exec_rankPowerDown (rank : Fin 4) (s : State) : exec (.rankPowerDown rank) s = runChip (Chip.drPowerDown rank false) s := rfl
theorem exec_trainingDone (ok : Bool) (s : State) : exec (.trainingDone ok) s = runChip (fun c => c.trainEnd ok) s := rfl
theorem exec_freqRelocked (s : State) : exec .freqRelocked s = runChip (Chip.drRelocked false) s := rfl
theorem exec_thawDone (s : State) : exec .thawDone s = runChip Chip.thawDone s := rfl
theorem exec_drCntClr (data : Word) (s : State) : exec (.drCntClr data) s = runChip (fun c => (c.drCntClr data.toNat).answer rspOk 0) s := rfl
theorem exec_chDrStatus (p : Pkt) (s : State) : exec (.chDrStatus p) s = runAon (Chip.command cmdDrStatus p) s := rfl
theorem exec_chDrFreq (p : Pkt) (s : State) : exec (.chDrFreq p) s = runAon (Chip.command cmdDrFreq p) s := rfl
theorem exec_chDrTrain (p : Pkt) (s : State) : exec (.chDrTrain p) s = runAon (Chip.command cmdDrTrain p) s := rfl
theorem exec_chDrSnapshot (p : Pkt) (s : State) : exec (.chDrSnapshot p) s = runAon (Chip.command cmdDrSnapshot p) s := rfl
theorem exec_chDrThaw (p : Pkt) (s : State) : exec (.chDrThaw p) s = runAon (Chip.command cmdDrThaw p) s := rfl
theorem exec_niRequestAccept (ni : Fin 288) (ask : NiAsk) (s : State) : exec (.niRequestAccept ni ask) s = runChip (Chip.niAccept ni ask) s := rfl
theorem exec_netRead (ni : Fin 288) (idx : Fin 512) (flaws : List (Fin 3)) (s : State) : exec (.netRead ni idx flaws) s = runChip (Chip.netRow 0 ni idx (flawList flaws) 0) s := rfl
theorem exec_netWrite (ni : Fin 288) (idx : Fin 512) (flaws : List (Fin 3)) (coll : BitVec 16) (s : State) : exec (.netWrite ni idx flaws coll) s = runChip (Chip.netRow 1 ni idx (flawList flaws) coll.toNat) s := rfl
theorem exec_netAdd64 (ni : Fin 288) (idx : Fin 512) (flaws : List (Fin 3)) (coll : BitVec 16) (s : State) : exec (.netAdd64 ni idx flaws coll) s = runChip (Chip.netRow 2 ni idx (flawList flaws) coll.toNat) s := rfl
theorem exec_netAdd128 (ni : Fin 288) (idx : Fin 512) (flaws : List (Fin 3)) (coll : BitVec 16) (s : State) : exec (.netAdd128 ni idx flaws coll) s = runChip (Chip.netRow 3 ni idx (flawList flaws) coll.toNat) s := rfl
theorem exec_netSwap (ni : Fin 288) (idx : Fin 512) (flaws : List (Fin 3)) (coll : BitVec 16) (s : State) : exec (.netSwap ni idx flaws coll) s = runChip (Chip.netRow 4 ni idx (flawList flaws) coll.toNat) s := rfl
theorem exec_netUport (r : Fin 192) (pe : Fin 16) (what : UportLoad) (s : State) : exec (.netUport r pe what) s = runChip (Chip.netUport r pe what) s := rfl
theorem exec_netResponseArrival (ni : Fin 288) (idx : Fin 512) (ep : Fin 4) (ns : Nat) (s : State) : exec (.netResponseArrival ni idx ep ns) s = runChip (Chip.netResponse ni idx ep ns) s := rfl
theorem exec_niTimeout (ni : Fin 288) (idx : Fin 512) (s : State) : exec (.niTimeout ni idx) s = runChip (Chip.niTimeout ni idx) s := rfl
theorem exec_niBusyWaitExpiry (ni : Fin 288) (bulk : Bool) (s : State) : exec (.niBusyWaitExpiry ni bulk) s = runChip (Chip.busyExpiry ni (if bulk then 2 else 1)) s := rfl
theorem exec_domainReopen (d : NetDomain) (s : State) : exec (.domainReopen d) s = runChip (Chip.domReopen d) s := rfl
theorem exec_netWrrWrite (data : Word) (s : State) : exec (.netWrrWrite data) s = runChip (fun c => answerWrite (c.wrrWrite data.toNat)) s := rfl
theorem exec_routerQuiesceDone (n : Fin 96) (s : State) : exec (.routerQuiesceDone n) s = runChip (Chip.quiesced n) s := rfl
theorem exec_routerQuiesceRetry (n : Fin 96) (s : State) : exec (.routerQuiesceRetry n) s = runChip (Chip.quiesceRetry n) s := rfl
theorem exec_niCntClr (ni : Fin 288) (data : Word) (s : State) : exec (.niCntClr ni data) s = runChip (fun c => (c.niCntClr ni data.toNat).answer rspOk 0) s := rfl
theorem exec_dmaGo (ch : Fin 4096) (s : State) : exec (.dmaGo ch) s = runChip (fun c => if c.dmaGoBad ch then c.answer rspReservedCode 0 else (c.dmaGo ch).answer rspOk 0) s := rfl
theorem exec_dmaPauseSet (ch : Fin 4096) (s : State) : exec (.dmaPauseSet ch) s = runChip (fun c => (c.dmaPause ch).answer rspOk 0) s := rfl
theorem exec_dmaPauseClear (ch : Fin 4096) (s : State) : exec (.dmaPauseClear ch) s = runChip (fun c => (c.dmaResume ch).answer rspOk 0) s := rfl
theorem exec_dmaArm (ch : Fin 4096) (s : State) : exec (.dmaArm ch) s = runChip (fun c => if c.is (F.DMA_CH_CMD_ARM ch) then c.answer rspOk 0 else if !c.dmaShadowOk ch then c.answer rspReservedCode 0 else (c.dmaArm ch).answer rspOk 0) s := rfl
theorem exec_dmaClose (ch : Fin 4096) (s : State) : exec (.dmaClose ch) s = runChip (fun c => (c.dmaClose ch).answer rspOk 0) s := rfl
theorem exec_dmaClrCnt (ch : Fin 4096) (s : State) : exec (.dmaClrCnt ch) s = runChip (fun c => (c.set (F.DMA_CH_STAT_DEFER_CNT ch) 0).answer rspOk 0) s := rfl
theorem exec_dmaDreqSet (data : Word) (s : State) : exec (.dmaDreqSet data) s = runChip (fun c => (c.dmaDreq (data.toNat % 4096) true).answer rspOk 0) s := rfl
theorem exec_dmaDreqClr (data : Word) (s : State) : exec (.dmaDreqClr data) s = runChip (fun c => (c.dmaDreq (data.toNat % 4096) false).answer rspOk 0) s := rfl
theorem exec_dreqRise (ch : Fin 4096) (s : State) : exec (.dreqRise ch) s = runChip (Chip.dmaRise ch) s := rfl
theorem exec_dmaEngineLoad (engine : Fin 64) (s : State) : exec (.dmaEngineLoad engine) s = runChip (Chip.dmaLoad engine) s := rfl
theorem exec_dmaQueueWaitLong (ch : Fin 4096) (s : State) : exec (.dmaQueueWaitLong ch) s = runChip (Chip.dmaLong ch) s := rfl
theorem exec_dmaBusyRetry (ch : Fin 4096) (s : State) : exec (.dmaBusyRetry ch) s = runChip (Chip.dmaRetry ch) s := rfl
theorem exec_dmaTransferComplete (ch : Fin 4096) (s : State) : exec (.dmaTransferComplete ch) s = runChip (Chip.dmaComplete ch) s := rfl
theorem exec_dmaChStatRead (ch : Fin 4096) (s : State) : exec (.dmaChStatRead ch) s = runChip (fun c => if c.dmaHeld ch then c.setDm ch (fun d => { d with statR := d.statR + 1 }) else c.answer rspOk (c.dmaChStat ch)) s := rfl
theorem exec_chDmaStatus (p : Pkt) (s : State) : exec (.chDmaStatus p) s = runAon (Chip.command cmdDmaStatus p) s := rfl
theorem exec_chDmaStart (p : Pkt) (s : State) : exec (.chDmaStart p) s = runAon (Chip.command cmdDmaStart p) s := rfl
theorem exec_chDmaArm (p : Pkt) (s : State) : exec (.chDmaArm p) s = runAon (Chip.command cmdDmaArm p) s := rfl
theorem exec_chDmaPause (p : Pkt) (s : State) : exec (.chDmaPause p) s = runAon (Chip.command cmdDmaPause p) s := rfl
theorem exec_chDmaResume (p : Pkt) (s : State) : exec (.chDmaResume p) s = runAon (Chip.command cmdDmaResume p) s := rfl
theorem exec_chDmaAbort (p : Pkt) (s : State) : exec (.chDmaAbort p) s = runAon (Chip.command cmdDmaAbort p) s := rfl
theorem exec_wwFrameReceive (port : Fin 8) (frame : BitVec 200) (laneBad : BitVec 4) (s : State) : exec (.wwFrameReceive port frame laneBad) s = runChip (Chip.wpFrame port frame.toNat laneBad.toNat) s := rfl
theorem exec_wwReplayTimeout (port : Fin 8) (s : State) : exec (.wwReplayTimeout port) s = runChip (Chip.wpReplay port) s := rfl
theorem exec_wwErrWindow (port : Fin 8) (s : State) : exec (.wwErrWindow port) s = runChip (Chip.wpWindow port) s := rfl
theorem exec_laneTestDone (port : Fin 8) (lane : Fin 4) (pass : Bool) (s : State) : exec (.laneTestDone port lane pass) s = runChip (Chip.laneTested port lane pass) s := rfl
theorem exec_portTrained (port : Fin 8) (bridge : Bool) (uid : BitVec 128) (partner : Fin 8) (s : State) : exec (.portTrained port bridge uid partner) s = runChip (Chip.portUp port bridge uid.toNat partner) s := rfl
theorem exec_linkDown (port : Fin 8) (s : State) : exec (.linkDown port) s = runChip (Chip.portDown port) s := rfl
theorem exec_wwProbe (port : Fin 8) (serial : Nat) (root : BitVec 128) (path rev : List (Fin 8)) (s : State) : exec (.wwProbe port serial root path rev) s = runChip (Chip.probe port serial root.toNat (path.map Fin.val) (rev.map Fin.val)) s := rfl
theorem exec_wwProbeReply (port : Fin 8) (h : WwHdr) (serial : Nat) (uid : BitVec 128) (ports : List (Fin 4 × BitVec 128 × Fin 8)) (s : State) : exec (.wwProbeReply port h serial uid ports) s = runChip (Chip.wwArrive port wtProbeReply 1 h ([serial, uid.toNat] ++ (probePorts ports).flatMap (fun q => [q.1, q.2.1, q.2.2])) false undeliverable (fun rr => Chip.probeReply serial uid.toNat (routePorts rr h.hops.toNat) (probePorts ports))) s := rfl
theorem exec_discWaitExpiry (s : State) : exec .discWaitExpiry s = runChip Chip.discExpire s := rfl
theorem exec_wwPathWrite (port : Fin 8) (h : WwHdr) (what : WwPathWrite) (s : State) : exec (.wwPathWrite port h what) s = runChip (Chip.wwArrive port wtPathWrite 1 h (pathWriteFields what) false undeliverable (fun rr => Chip.pathWrite h rr what)) s := rfl
theorem exec_wwPathReply (port : Fin 8) (h : WwHdr) (s : State) : exec (.wwPathReply port h) s = runChip (Chip.wwArrive port wtPathReply 1 h [] false undeliverable (fun _ => Chip.pathAck)) s := rfl
theorem exec_epochSwitch (port : Fin 8) (h : WwHdr) (s : State) : exec (.epochSwitch port h) s = runChip (Chip.wwArrive port wtPathWrite 1 h [2] false undeliverable (fun rr c => c.epochSwitch.wwAlong wtPathReply 3 0xFFF rr h.hops.toNat 1 [])) s := rfl
theorem exec_routeOldDrained (s : State) : exec .routeOldDrained s = runChip Chip.oldDrained s := rfl
theorem exec_wwReq (port : Fin 8) (h : WwHdr) (q : WwRequest) (s : State) : exec (.wwReq port h q) s = runChip (Chip.wwArrive port wtReq (1 + q.data.length) h (requestFields q) true (fun dt => Chip.wwSendErr port h q.ni q.idx q.ep dt) (fun rr => Chip.proxy port h rr q)) s := rfl
theorem exec_wwRsp (port : Fin 8) (h : WwHdr) (r : WwResponse) (s : State) : exec (.wwRsp port h r) s = runChip (Chip.wwArrive port wtRsp (1 + r.data.length) h (responseFields r) true undeliverable (fun _ => Chip.respond r.ni r.idx r.ep ⟨r.code.toNat, r.detail.toNat⟩ r.word (r.data.map BitVec.toNat) 24)) s := rfl
theorem exec_wwErr (port : Fin 8) (h : WwHdr) (ni : Fin 288) (idx : Fin 512) (ep : Fin 4) (detail : Byte) (s : State) : exec (.wwErr port h ni idx ep detail) s = runChip (Chip.wwArrive port wtErr 1 h [ni, idx, ep, detail.toNat] true undeliverable (fun _ => Chip.respond ni idx ep ⟨1, detail.toNat⟩ 0 [] 24)) s := rfl
theorem exec_linkChange (port : Fin 8) (h : WwHdr) (changed : Fin 8) (state : Fin 4) (s : State) : exec (.linkChange port h changed state) s = runChip (Chip.wwArrive port wtLinkChange 1 h [changed, state] true undeliverable (fun _ c => if c.is F.WW_ID_ROOT then match c.ww.ids.find? (fun e => e.2 = h.src.toNat) with | some e => c.rootReact e.1 changed state | none => c else c)) s := rfl
theorem exec_holdAnn (port : Fin 8) (h : WwHdr) (tick : Word) (hold : Bool) (why : Byte) (s : State) : exec (.holdAnn port h tick hold why) s = runChip (Chip.wwArrive port wtHoldAnn 1 h [tick.toNat, b2n hold, why.toNat] true undeliverable (fun _ => Chip.holdAnn h.src.toNat tick.toNat hold)) s := rfl
theorem exec_xgFault (port : Fin 8) (h : WwHdr) (dev : BitVec 12) (s : State) : exec (.xgFault port h dev) s = runChip (Chip.wwArrive port wtXgFault 1 h [dev.toNat] true undeliverable (fun _ => Chip.xgFault)) s := rfl
theorem exec_timeCode (port : Fin 8) (time : Nat) (echo : Option (Nat × Nat)) (at' : Fin 32000) (s : State) : exec (.timeCode port time echo at') s = runChip (Chip.timeCode port time echo at') s := rfl
theorem exec_timeCodeSend (s : State) : exec .timeCodeSend s = runChip Chip.timeCodes s := rfl
theorem exec_syncInEdge (at' : Fin 32000) (s : State) : exec (.syncInEdge at') s = runChip (Chip.syncIn at') s := rfl
theorem exec_tbLock (s : State) : exec .tbLock s = runChip Chip.tbLock s := rfl
theorem exec_tbSourceLost (s : State) : exec .tbSourceLost s = runChip Chip.tbLost s := rfl
theorem exec_wwCntClr (data : Word) (s : State) : exec (.wwCntClr data) s = runChip (fun c => (c.wwCntClr data.toNat).answer rspOk 0) s := rfl
theorem exec_wwPRetrain (port : Fin 8) (s : State) : exec (.wwPRetrain port) s = runChip (fun c => (c.portRetrain port).answer rspOk 0) s := rfl
theorem exec_wwPCntClr (port : Fin 8) (data : Word) (s : State) : exec (.wwPCntClr port data) s = runChip (fun c => (c.wpCntClr port data.toNat).answer rspOk 0) s := rfl
theorem exec_wwRouteEntryWrite (bank : Fin 2) (d : BitVec 12) (data : Word) (s : State) : exec (.wwRouteEntryWrite bank d data) s = runChip (fun c => answerWrite (c.routeWrite bank d.toNat data.toNat)) s := rfl
theorem exec_chWwStatus (p : Pkt) (s : State) : exec (.chWwStatus p) s = runAon (Chip.command cmdWwStatus p) s := rfl
theorem exec_chWwDiscover (p : Pkt) (s : State) : exec (.chWwDiscover p) s = runAon (Chip.command cmdWwDiscover p) s := rfl
theorem exec_chWwTopoRead (p : Pkt) (s : State) : exec (.chWwTopoRead p) s = runAon (Chip.command cmdWwTopoRead p) s := rfl
theorem exec_chWwRoute (p : Pkt) (s : State) : exec (.chWwRoute p) s = runAon (Chip.command cmdWwRoute p) s := rfl
theorem exec_chWwPort (p : Pkt) (s : State) : exec (.chWwPort p) s = runAon (Chip.command cmdWwPort p) s := rfl
theorem exec_chWwLaneTest (p : Pkt) (s : State) : exec (.chWwLaneTest p) s = runAon (Chip.command cmdWwLaneTest p) s := rfl
theorem exec_sensorConversion (i : Fin 136) (raw : Int) (ratioOk moved : Bool) (s : State) : exec (.sensorConversion i raw ratioOk moved) s = runAon (Chip.sensorConvert i raw ratioOk moved) s := rfl
theorem exec_throttleUpdate (s : State) : exec .throttleUpdate s = runChip (fun c => if decide (stBoot ≤ c.dstate) && decide (c.dstate ≤ stSafe) then c.throttle else c) s := rfl
theorem exec_layerEstimate (inlet outlet : Int) (lidOk : Bool) (est : List Int) (s : State) : exec (.layerEstimate inlet outlet lidOk est) s = runChip (fun c => if decide (stBoot ≤ c.dstate) && decide (c.dstate ≤ stSafe) then c.layerEstimate inlet outlet lidOk est else c) s := rfl
theorem exec_chThStatus (p : Pkt) (s : State) : exec (.chThStatus p) s = runAon (Chip.command cmdThStatus p) s := rfl
theorem exec_chThSensors (p : Pkt) (s : State) : exec (.chThSensors p) s = runAon (Chip.command cmdThSensors p) s := rfl
theorem exec_chThSubst (p : Pkt) (s : State) : exec (.chThSubst p) s = runAon (Chip.command cmdThSubst p) s := rfl
theorem exec_chThThresh (p : Pkt) (s : State) : exec (.chThThresh p) s = runAon (Chip.command cmdThThresh p) s := rfl
theorem exec_chThLimit (p : Pkt) (s : State) : exec (.chThLimit p) s = runAon (Chip.command cmdThLimit p) s := rfl
theorem exec_sliceStart (condOk : Bool) (exp : BitVec 16) (s : State) : exec (.sliceStart condOk exp) s = runChip (Chip.sliceStart condOk exp.toNat) s := rfl
theorem exec_sliceEnd (y : TestYield) (n : Nat) (found : List (BitVec 32)) (s : State) : exec (.sliceEnd y n found) s = runChip (Chip.sliceEnd y n (found.map BitVec.toNat)) s := rfl
theorem exec_targetedTestStart (s : State) : exec .targetedTestStart s = runChip Chip.testStart s := rfl
theorem exec_targetedTestEnd (y : TestYield) (sub : BitVec 16) (s : State) : exec (.targetedTestEnd y sub) s = runChip (Chip.testEnd y sub.toNat) s := rfl
theorem exec_fullTestDone (tested : BitVec 32) (passed : List (Fin 17 × BitVec 32)) (failed : List (Fin 17 × BitVec 32 × BitVec 16)) (s : State) : exec (.fullTestDone tested passed failed) s = runChip (Chip.fullDone tested.toNat (passed.map elemPair) (failed.map elemTriple)) s := rfl
theorem exec_stCntClr (data : Word) (s : State) : exec (.stCntClr data) s = runChip (fun c => (c.stCntClr data.toNat).answer rspOk 0) s := rfl
theorem exec_chStStatus (p : Pkt) (s : State) : exec (.chStStatus p) s = runAon (Chip.command cmdStStatus p) s := rfl
theorem exec_chStRun (p : Pkt) (s : State) : exec (.chStRun p) s = runAon (Chip.command cmdStRun p) s := rfl
theorem exec_chStFull (p : Pkt) (s : State) : exec (.chStFull p) s = runAon (Chip.command cmdStFull p) s := rfl
theorem exec_chStLogRead (p : Pkt) (s : State) : exec (.chStLogRead p) s = runAon (Chip.command cmdStLogRead p) s := rfl
theorem exec_chStFuseRepair (p : Pkt) (s : State) : exec (.chStFuseRepair p) s = runAon (Chip.command cmdStFuseRepair p) s := rfl
theorem exec_chStLogClear (p : Pkt) (s : State) : exec (.chStLogClear p) s = runAon (Chip.command cmdStLogClear p) s := rfl
theorem exec_chLgStatus (p : Pkt) (s : State) : exec (.chLgStatus p) s = runAon (Chip.command cmdLgStatus p) s := rfl
theorem exec_ligatureFrameCheck (corr : Fin 21) (find : LgFind) (vote : Fin 3) (s : State) : exec (.ligatureFrameCheck corr find vote) s = runChip (Chip.lgCheck corr find vote) s := rfl
theorem exec_ligatureReloadDone (dataBad again : Bool) (s : State) : exec (.ligatureReloadDone dataBad again) s = runChip (Chip.lgReload dataBad again) s := rfl
theorem exec_lgCntClr (data : Word) (s : State) : exec (.lgCntClr data) s = runChip (fun c => (c.lgCntClr data.toNat).answer rspOk 0) s := rfl
theorem exec_clkRgWrite (r : Fin 192) (data : Word) (s : State) : exec (.clkRgWrite r data) s = runChip (fun c => answerWrite (c.clkWrite r data.toNat)) s := rfl
theorem exec_clockSlewDone (r : Fin 192) (s : State) : exec (.clockSlewDone r) s = runChip (Chip.slewDone r) s := rfl
theorem exec_chPwrStatus (p : Pkt) (s : State) : exec (.chPwrStatus p) s = runAon (Chip.command cmdPwrStatus p) s := rfl
theorem exec_chClkRegion (p : Pkt) (s : State) : exec (.chClkRegion p) s = runAon (Chip.command cmdClkRegion p) s := rfl
theorem exec_chNvsRecInfo (p : Pkt) (s : State) : exec (.chNvsRecInfo p) s = runAon (Chip.command cmdNvsRecInfo p) s := rfl
theorem exec_chNvsRecRead (p : Pkt) (s : State) : exec (.chNvsRecRead p) s = runAon (Chip.command cmdNvsRecRead p) s := rfl
theorem exec_chNvsEvlogRead (p : Pkt) (s : State) : exec (.chNvsEvlogRead p) s = runAon (Chip.command cmdNvsEvlogRead p) s := rfl
theorem exec_chNvsUser (p : Pkt) (s : State) : exec (.chNvsUser p) s = runAon (Chip.command cmdNvsUser p) s := rfl
theorem exec_chPwrRegion (p : Pkt) (s : State) : exec (.chPwrRegion p) s = runAon (Chip.command cmdPwrRegion p) s := rfl
theorem exec_regionPowerDone (r : Fin 192) (s : State) : exec (.regionPowerDone r) s = runChip (Chip.powerRegionDone r) s := rfl
theorem exec_nvsWordWriteDone (macroNo : Fin 8) (s : State) : exec (.nvsWordWriteDone macroNo) s = runChip (Chip.nvsWordDone macroNo) s := rfl
theorem exec_nvsApertureAccess (ni : Fin 288) (off : BitVec 19) (write wide : Bool) (data : Word) (s : State) : exec (.nvsApertureAccess ni off write wide data) s = runChip (Chip.apertureAccess ni off.toNat write wide data.toNat) s := rfl
theorem exec_nvsUpageSelfAccess (ni : Fin 288) (write : Bool) (data : Word) (s : State) : exec (.nvsUpageSelfAccess ni write data) s = runChip (fun c => (c.upageSelf ni write data.toNat).2.answer (c.upageSelf ni write data.toNat).1.1 (c.upageSelf ni write data.toNat).1.2) s := rfl
theorem exec_nvsCntClr (data : Word) (s : State) : exec (.nvsCntClr data) s = runChip (fun c => (c.nvsCntClr data.toNat).answer rspOk 0) s := rfl
theorem exec_evlogEntryWritten (s : State) : exec .evlogEntryWritten s = runChip Chip.evlogWritten s := rfl
theorem exec_tapReset (s : State) : exec .tapReset s = runAon (Chip.tapLoad 0x01) s := rfl
theorem exec_extest (s : State) : exec .extest s = runAon (Chip.tapTest 0x00) s := rfl
theorem exec_jtagIdcode (s : State) : exec .jtagIdcode s = runAon Chip.tapId s := rfl
theorem exec_samplePreload (pins preload : BitVec 2028) (s : State) : exec (.samplePreload pins preload) s = runAon (Chip.tapSample pins.toNat preload.toNat) s := rfl
theorem exec_jtagClamp (s : State) : exec .jtagClamp s = runAon (Chip.tapBypass 0x04) s := rfl
theorem exec_jtagHighz (s : State) : exec .jtagHighz s = runAon (Chip.tapBypass 0x05) s := rfl
theorem exec_extestPulse (s : State) : exec .extestPulse s = runAon (Chip.tapTest 0x06) s := rfl
theorem exec_extestTrain (s : State) : exec .extestTrain s = runAon (Chip.tapTest 0x07) s := rfl
theorem exec_jtagBypass (opcode : Byte) (s : State) : exec (.jtagBypass opcode) s = runAon (fun c => if listedOps.contains opcode.toNat then c else c.tapBypass opcode.toNat) s := rfl
theorem exec_regionClockEdge (r : Fin 192) (auxIn : Bool) (riser ports : List Nat) (s : State) : exec (.regionClockEdge r auxIn riser ports) s = runChip (Chip.clockEdge r auxIn riser ports) s := rfl
theorem exec_prefillLate (pe : Fin 16) (s : State) : exec (.prefillLate pe) s = runChip (Chip.prefillLate pe) s := rfl
theorem exec_syncOutPulse (s : State) : exec .syncOutPulse s = runChip Chip.syncOut s := rfl
theorem exec_raeOutRdWrite (data : Word) (s : State) : exec (.raeOutRdWrite data) s = runChip (fun c => (c.set F.RAE_OUT_RD_COUNT data.toNat).ringPump.answer rspOk 0) s := rfl
theorem exec_railRestoredBoot (s : State) : exec .railRestoredBoot s = runAon Chip.railsBack s := rfl

end Sys2Proof.Machine
end

