-- ==== Sys2Proof/Tests/Slice0.lean ====
section
/-! SUPPORT. Tests: ill-formed commands, the spec's worked examples, and for every obligation with hypotheses states and operands
that meet them, clause by clause. A clause whose hypotheses are among those of another clause has no line of its own. -/

namespace Sys2Proof.Tests

set_option Elab.async false

open Sys2Proof.Machine

/-- The device in USER at reset's other values, in lifecycle PROVISIONED. -/
def up : Chip := (State.reset.chip.set F.SYS_STATE_STATE stUser).set F.SEC_STAT_LC lcProvisioned

/-- A state of that device with a change. -/
def dev (f : Chip → Chip) : State := { chip := f up, pending := [] }

/-- The device with dynamic address 0x5A on the bus. -/
def onBus (c : Chip) : Chip :=
  { (c.set F.I3C_STAT_DYN_VALID 1).set F.I3C_STAT_DYN_ADDR 0x5A with aon := { c.aon with i3cOpen := true } }

/-- `n` zero bytes. -/
def z (n : Nat) : List Byte := List.replicate n 0

/-- A packet on the I3C route to this device. -/
def pk (pl : List Byte) : Pkt := { route := .i3c, tag := 1, dest := 0xFFF, flags := 0, payload := pl }

/-- A command in flight. -/
def slot : Slot :=
  { id := 0, route := .i3c, tag := 1, dest := 0xFFF, cls := 0, op := 0, flags := 0, payload := [], started := true, ended := false,
    reserved := false, noStop := false, recorded := none, aborts := [] }

/-- A cycle that waits for its comparison, and an instruction that waits. -/
def cyc : Cycle :=
  { num := 0, m := 0, unit := 0, lanes := [], data := 0, expect := 0, cmask := 0, drive := 0, tset := 0, fle := false, x := 0, y := 0, dom := 0, held := false }
def pause : Pause := { word := 0, cyc := cyc, held := 0, met := false, began := 0, long := false }

/-- A recipe of one geometry, with one spare row, for domain 0. -/
def recipe (c : Chip) : Chip :=
  let ws := [0x0800000, 0x1000001, 0xC000000, 0xC800000, 0x10000000, 0x10800000, 0xF800000]
  let c := (List.range 7).foldl (fun (c : Chip) w => c.set (F.RAE_RECIPE_W (w / 2) (w % 2)) (ws.getD w 0)) c
  { c.set F.RAE_STAT_RECIPE_VALID 1 with rae := { c.rae with words := 7 } }

/-- A region that runs, a stop of it that is ready, a port that is up. -/
def running (r : Nat) (c : Chip) : Chip := c.set (F.FAB_RG_STAT_RSTATE r) rgRun
def ready (r s : Nat) (c : Chip) : Chip := (running r c).set (F.FAB_RG_STAT_STOPST r s) ssReady
def linked (p : Nat) (c : Chip) : Chip := c.set (F.WW_P_STAT_LSTATE p) wpUp

/-- A load in progress, a paging, a network request of NI 0, a Windway header of a path of two hops. -/
def load : Load :=
  { kind := 1, flash := false, golden := false, dram := false, slot := none, region := 0, reinit := false, header := [],
    next := 0, buf := [], sig := [], seg := 1, key := [], chain := [], targets := [], filled := [], decl := [],
    limit := none, table := 0, more := [], held := false, final := false }
def paging : Paging := { why := .command 0, slot := 0, targets := [(0, 5)], toMark := [(0, 5)], marked := [], left := [] }
def req : NReq :=
  { ni := 0, idx := 0, ep := 0, kind := 0, cls := 1, addr := 0x10000000000, dev := none, n := 1, rbe := 0xFFFF, bes := [],
    data := [] }
def sent (q : NReq) : NOut := { req := q, who := .design 0, sent := true, tmo := 0, wwEp := none }
def hdr : WwHdr :=
  { cls := 0, epoch := false, src := 0, dst := 0, route := 0, hops := 2, hopix := 1, rroute := 0 }

/-- A library of one slot, valid. -/
def library (c : Chip) : Chip :=
  { c.set F.CFG_LIB_SLOTS_SLOTS 1 with cfg := { c.cfg with slots := [(0, { st := slValid, vmap := 0, digest := [] })] } }

/-- A response for NI 0, a queued write and a queued read of a network request, and the repair-analysis engine in its FINAL scan. -/
def rsp : NRsp := { ni := 0, idx := 0, ep := 0, code := 0, detail := 0, word := 0, data := [], from' := 0 }
def wr : DrWrite := { addr := 0, old := [], data := [], rowOr := false }
def rd : DrRead := { net := some (0, 0, 0), rt := false, addr := 0, n := 16, since := 0, data := [], zeros := [], fwd := 0 }
def deciding (c : Chip) : Chip :=
  let d := recipe c
  { d.set F.RAE_STAT_STATE 2 with rae := { d.rae with lostIn := true, drained := true, clean := true } }

/-- A pair by its first part. -/
theorem fst_eq {α β : Type} {x : α × β} {a : α} (h : x.1 = a) : x = (a, x.2) := by rw [← h]

/-! ## Ill-formed commands are refused -/

theorem test_wf_refuses :
    (Instr.shutdownSensorRead [] 0).wf = false ∧
    (Instr.compareResult 0 (List.replicate 17 [])).wf = false ∧
    (Instr.compareResult 0 [List.replicate 129 { cmph := false, cmpl := false, trans := [] }]).wf = false ∧
    (Instr.dramRowAccessDone (List.replicate 257 0) none { corr := [], bad := [], synd := 0 }).wf = false ∧
    (Instr.dramRowAccessDone [] none { corr := List.replicate 129 0, bad := [], synd := 0 }).wf = false ∧
    (Instr.dramRowAccessDone [] none { corr := [], bad := List.replicate 129 0, synd := 0 }).wf = false ∧
    (Instr.niRequestAccept 96 (.design 0 none 0 0 0xFFFF [] [0])).wf = false ∧
    (Instr.niRequestAccept 96 (.design 0 none 0 0 0xFFFF [0] [])).wf = false ∧
    (Instr.niRequestAccept 96 (.design 1 none 0 0 0 [0xFFFF] [])).wf = false ∧
    (Instr.niRequestAccept 96 (.design 1 none 0 0 0 [0, 0] [0])).wf = false ∧
    (Instr.netRead 0 0 (List.replicate 17 0)).wf = false ∧
    (Instr.netWrite 0 0 (List.replicate 17 0) 0).wf = false ∧
    (Instr.netAdd64 0 0 (List.replicate 17 0) 0).wf = false ∧
    (Instr.netAdd128 0 0 (List.replicate 17 0) 0).wf = false ∧
    (Instr.netSwap 0 0 (List.replicate 17 0) 0).wf = false ∧
    (Instr.netUport 0 0 (.vectors [])).wf = false ∧
    (Instr.wwProbe 0 0 0 (List.replicate 13 0) []).wf = false ∧
    (Instr.wwProbe 0 0 0 [] (List.replicate 13 0)).wf = false ∧
    (Instr.wwProbeReply 0 hdr 0 0 []).wf = false ∧
    (Instr.wwReq 0 hdr { ni := 0, idx := 0, ep := 0, kind := 0, addr := 0, len := 0, rbe := 0, bes := [], data := [0] }).wf = false ∧
    (Instr.wwReq 0 hdr { ni := 0, idx := 0, ep := 0, kind := 1, addr := 0, len := 1, rbe := 0, bes := [], data := [0] }).wf = false ∧
    (Instr.wwRsp 0 hdr { ni := 0, idx := 0, ep := 0, code := 0, detail := 0, word := 0, data := List.replicate 17 0 }).wf = false ∧
    (Instr.layerEstimate 0 0 true []).wf = false ∧
    (Instr.regionClockEdge 0 false [512] []).wf = false ∧
    (Instr.regionClockEdge 0 false [] [4096]).wf = false := by
  decide +kernel

theorem test_wf_refuses_long_packet (n : Nat) (h : 65536 ≤ n) : (Instr.chSysNop (pk (z n))).wf = false := by
  have e : (Instr.chSysNop (pk (z n))).wf = (pk (z n)).wf := rfl
  have l : (pk (z n)).payload.length = n := List.length_replicate
  rw [e, Pkt.wf, l]
  exact decide_eq_false (Nat.not_lt.mpr h)

/-! ## The spec's worked examples -/

/-- The check value of CRC-32C, of the ASCII digits 1 to 9 (the parameters are those of R46). -/
theorem test_crc : crc32c [0x31, 0x32, 0x33, 0x34, 0x35, 0x36, 0x37, 0x38, 0x39] = 0xE3069283 := by decide +kernel

/-- Chapter 2: the header of the peek of `SYS_STATE` of device 0x005 with TAG 0x0102, and the packet's 36 bytes. -/
theorem test_packet_header :
    (packetBytes 0x00 0x03 0x0102 4 0x005 [0, 0, 0, 0, 0, 2, 0, 0, 1, 0, 0, 0, 0, 0, 0, 0]).take 12 =
        [0x00, 0x03, 0x02, 0x01, 0x10, 0x00, 0x04, 0x00, 0x05, 0x00, 0x00, 0x00] ∧
      (packetBytes 0x00 0x03 0x0102 4 0x005 [0, 0, 0, 0, 0, 2, 0, 0, 1, 0, 0, 0, 0, 0, 0, 0]).length = 36 := by decide +kernel

/-- Chapter 2: the value of `SYS_STATE` that the peek brings. -/
theorem test_sys_state :
    ((((((up.set F.SYS_STATE_PREV_STATE stUser).set F.SYS_STATE_CAUSE 1).set F.SYS_STATE_COOLANT_OK 1).set
      F.SYS_STATE_LOGIC_PG 1).set F.SYS_STATE_BOOT_COUNT 2).regWord 0) = 0x0000000206010505 := by decide +kernel

/-- Chapter 3: the DRV levels of a UI of the SBC stimulus on channel 37, with their offsets. -/
theorem test_sbc_plan :
    drvPlan 0x1B000000000000000000780030 true = [(0, false), (48, true), (120, false)] ∧
      drvPlan 0x1B000000000000000000780030 false = [(0, true), (48, false), (120, true)] := by decide +kernel

/-- Chapter 3: the placed edges of UIs 0, 1 and 3 of that stimulus at 24 Gbit/s, in units of 1/15,360 ps, after L_out. -/
theorem test_sbc_edges :
    let cal : Cal := { k := [47, 50], dL := 0, dC := 0 }
    let l := Config.launchLatency 3840
    [edgeAt 3840 0 cal 1 0, edgeAt 3840 0 cal 0 48, edgeAt 3840 0 cal 1 120, edgeAt 3840 1 cal 0 0, edgeAt 3840 1 cal 1 48,
      edgeAt 3840 3 cal 1 120] = [192000 + l, 364800 + l, 652800 + l, 820480 + l, 1016320 + l, 2572800 + l] := rfl

/-- Chapter 6: the recipe of the worked domain is accepted, with its range of domains. -/
theorem test_recipe :
    (match recipeRead { geoms := [], cur := none, held := [], lo := none } 0
        [0x00800001, 0x01000203, 0x03000800, 0x03800100, 0x08800000, 0x0980003F, 0x0C000000, 0x08000000, 0x0980003F,
          0x0C800000, 0x10000100, 0x10800103, 0x0F800000] with
      | .ok gs => gs.map (fun g => (g.num, g.ownR, g.ownC, g.ranges))
      | .error _ => []) = [(1, 3, 2, [(0x100, 0x103)])] := by decide +kernel

/-- Chapters 1, 9 and 10: the scratchpad of region 125, its word 291, and a DRAM address. -/
theorem test_addresses :
    spAddr 125 0 = 0x010007D00000 ∧ placeOf 0x010007D01230 = .spad 125 291 ∧ placeOf 0x000123456780 = .dram ∧
      drBank 0x000123456780 = 89 ∧ drRow 0x000123456780 = 18641 := by decide +kernel

/-- Chapter 13: the hops of route 0x6B are ports 3, 5 and 1. -/
theorem test_route : [hopOf 0x6B 0, hopOf 0x6B 1, hopOf 0x6B 2] = [3, 5, 1] := by decide

/-- Chapter 14: region 125 at 101.5 °C has S = 217, and at most 128 while the rate is active; its clock is then 600 MHz. -/
theorem test_throttle :
    let c := up.set (F.TH_SENSOR_USED 113) 812
    c.zoneFactor 125 = 217 ∧ (c.setSensor 113 (fun x => { x with rateOn := true })).zoneFactor 125 = 128 ∧
      throttled 192 128 = 96 ∧ throttled 192 204 = 153 := by decide +kernel

/-- Chapter 16: SEQ 0xFFFF_FFFF is newer than 0xFFFF_FFFE, and 0 than 0xFFFF_FFFF. -/
theorem test_seq_wraps : seqNewer 0xFFFFFFFE 0xFFFFFFFF = true ∧ seqNewer 0xFFFFFFFF 0 = true := by decide

/-- Chapter 17: the IDCODE. -/
theorem test_idcode :
    (match exec .jtagIdcode (dev id) with
      | .next s => s.chip.out
      | _ => []) = [.tdo 0x4A970A2B 32] := by decide +kernel

/-! ## Hypotheses that are met -/

/-- `Obligations.SupplyRows`. -/
theorem meets_SupplyRows :
    (∃ (s : State), s.chip.dstate = stOff ∧ s.chip.get F.PWR_STAT_VALID = 0) ∧
    (∃ (s : State) (rail : Fin 11), rail.val ≠ 0 ∧ rail.val ≠ 10 ∧
      (s.chip.get F.PWR_STAT_VALID).testBit rail = false ∧ s.chip.dstate = stPor ∧
      railEarly (setBit (s.chip.get F.PWR_STAT_VALID) rail) rail = false ∧
      setBit (s.chip.get F.PWR_STAT_VALID) rail % 2 ^ 11 ≠ 0x7FF) ∧
    (∃ (s : State) (rail : Fin 11), rail.val ≠ 0 ∧ rail.val ≠ 10 ∧
      (s.chip.get F.PWR_STAT_VALID).testBit rail = true ∧ s.chip.dstate ≠ stOff) ∧
    (∃ (s : State), (s.chip.get F.PWR_STAT_VALID).testBit 10 = true ∧ s.chip.awake = true) ∧
    (∃ (s : State) (cause : _), s.chip.aon.railHold = true ∧ s.chip.get F.PWR_STAT_VALID % 2 ^ 10 = 0x3FF ∧
      s.chip.aon.resetLow = false ∧ s.chip.aon.held = true ∧ s.chip.aon.refHold = false ∧
      s.chip.aon.bootCause = some cause) :=
  ⟨⟨(dev fun c => (c.set F.SYS_STATE_STATE stOff).set F.PWR_STAT_VALID 0), by decide +kernel⟩,
   ⟨(dev fun c => (c.set F.SYS_STATE_STATE stPor).set F.PWR_STAT_VALID 0x1FF), 9, by decide +kernel⟩,
   ⟨(dev id), 9, by decide +kernel⟩,
   ⟨(dev fun c => c.set F.PWR_STAT_VALID 0x7FF), by decide +kernel⟩,
   ⟨(dev fun c => { c.set F.PWR_STAT_VALID 0x3FF with aon := { c.aon with railHold := true, held := true, bootCause := some 1 } }),
     1, by decide +kernel⟩⟩

/-- `Obligations.ResetPinRows`. -/
theorem meets_ResetPinRows :
    (∃ (s : State) (cause : Nat), s.chip.aon.resetLow = true ∧ s.chip.aon.held = true ∧
      s.chip.aon.railHold = false ∧ s.chip.aon.refHold = false ∧ s.chip.dstate ≠ stOff ∧
      s.chip.aon.bootCause = some cause) ∧
    (∃ (s : State), s.chip.is F.PWR_STAT_REFCLK_OK = true ∧ s.chip.awake = true) ∧
    (∃ (s : State) (cause : Nat), s.chip.is F.PWR_STAT_REFCLK_OK = false ∧ s.chip.dstate ≠ stOff ∧
      s.chip.aon.held = true ∧ s.chip.aon.resetLow = false ∧ s.chip.aon.railHold = false ∧
      s.chip.aon.bootCause = some cause) ∧
    (∃ (s : State), s.chip.is F.SYS_STATE_COOLANT_OK = false ∧ s.chip.awake = true) ∧
    (∃ (s : State), s.chip.aon.coolForced = true ∧ s.chip.is F.SYS_STATE_COOLANT_OK = true ∧
      s.chip.awake = true) :=
  ⟨⟨(dev fun c => { c with aon := { c.aon with resetLow := true, held := true, bootCause := some 1 } }), 1,
     by decide +kernel⟩,
   ⟨(dev id), by decide +kernel⟩,
   ⟨(dev fun c => { c.set F.PWR_STAT_REFCLK_OK 0 with aon := { c.aon with held := true, bootCause := some 1 } }),
     1, by decide +kernel⟩,
   ⟨(dev fun c => c.set F.SYS_STATE_COOLANT_OK 0), by decide +kernel⟩,
   ⟨(dev fun c => { c.set F.SYS_STATE_COOLANT_OK 1 with aon := { c.aon with coolForced := true } }),
     by decide +kernel⟩⟩

/-- `Obligations.StateMachineRows`. -/
theorem meets_StateMachineRows :
    (∃ (s : State) (raw : Int), s.chip.dstate = stPor ∧ 8 * (s.chip.get F.TH_CFG_TRIP : Int) ≤ raw) ∧
    (∃ (s : State), s.chip.dstate = stShutdown ∧ 1000 ≤ s.chip.aon.restartMs ∧
      s.chip.is F.SYS_STATE_COOLANT_OK = true) ∧
    (∃ (s : State), s.chip.dstate = stBoot ∧ s.chip.aon.held = false ∧ s.chip.quiet.bootPrep.fwPick = none) ∧
    (∃ (s : State) (kind : Fin 8) (index : BitVec 16) (slot : Slot), s.chip.awake = true ∧
      s.chip.resetCmd kind index.toNat = some slot ∧ 2 ≤ kind.val ∧
      (kind.val = 7 → s.chip.drState ≠ drTraining ∧ s.chip.drState ≠ drInit)) :=
  ⟨⟨(dev fun c => c.set F.SYS_STATE_STATE stPor), 100000, by decide +kernel⟩,
   ⟨(dev fun c => { (c.set F.SYS_STATE_STATE stShutdown).set F.SYS_STATE_COOLANT_OK 1 with aon := { c.aon with restartMs := 1000 } }),
     by decide +kernel⟩,
   ⟨(dev fun c => c.set F.SYS_STATE_STATE stBoot), by decide +kernel⟩,
   ⟨(dev fun c => { c with ch := { c.ch with slots := [{ slot with cls := 0, op := 5, payload := 2 :: 0 :: 191 :: z 5 }] } }),
     2, 191, ({ slot with cls := 0, op := 5, payload := 2 :: 0 :: 191 :: z 5 }), by decide +kernel⟩⟩

/-- `Obligations.I3cTransferRows`. -/
theorem meets_I3cTransferRows :
    (∃ (s : State) (addr : BitVec 7) (mode : I3cMode) (bytes : List Byte), s.chip.i3cMine addr.toNat = true ∧
      modeOk 0x01#8 mode = true ∧ s.chip.takesPackets = true ∧ bytes.length ≤ s.chip.get F.I3C_STAT_MWL) ∧
    (∃ (s : State) (addr : BitVec 7) (mode : I3cMode) (r : Reply) (rest : List Reply), s.chip.i3cMine addr.toNat = true ∧
      modeOk 0x81#8 mode = true ∧ s.chip.ch.replies = r :: rest ∧
      r.sent + s.chip.get F.I3C_STAT_MRL < r.bytes.length) ∧
    (∃ (s : State) (addr : BitVec 7) (mode : I3cMode) (r : Reply) (rest : List Reply), s.chip.i3cMine addr.toNat = true ∧
      modeOk 0x81#8 mode = true ∧ s.chip.ch.replies = r :: rest ∧ r.sent ≤ r.bytes.length ∧
      r.bytes.length ≤ r.sent + s.chip.get F.I3C_STAT_MRL) ∧
    (∃ (s : State) (mode : I3cMode) (i : Instr), s.chip.i3cLive = true ∧
      i ∈ [.i3cPrivateRead .bad mode, .unsupportedCcc .bad, .getmwl .bad, .getmrl .bad, .getpid .bad, .getbcr .bad, .getdcr .bad, .getmxds .bad, .getstatus .bad]) ∧
    (∃ (s : State), s.chip.awake = true ∧ s.chip.openEvents ≠ []) :=
  ⟨⟨(dev fun c => onBus c), 0x5A, (.ddr 0x01), (z 4116), by decide +kernel⟩,
   ⟨(dev fun c => { (onBus c).set F.I3C_STAT_MRL 64 with ch := { c.ch with replies := [{ slot := none, refusal := true, bytes := z 65, sent := 0 }] } }),
     0x5A, .sdr, ({ slot := none, refusal := true, bytes := z 65, sent := 0 }), ([]), by decide +kernel⟩,
   ⟨(dev fun c => { (onBus c).set F.I3C_STAT_MRL 64 with ch := { c.ch with replies := [{ slot := none, refusal := true, bytes := z 64, sent := 0 }] } }),
     0x5A, .sdr, ({ slot := none, refusal := true, bytes := z 64, sent := 0 }), ([]), by decide +kernel⟩,
   ⟨(dev fun c => { c with aon := { c.aon with i3cOpen := true } }), .sdr, (.unsupportedCcc .bad),
     ⟨by decide +kernel, by simp⟩⟩,
   ⟨(dev fun c => { c with ch := { c.ch with events := [{ code := 1, sev := 3, masked := false, arg := 0, time := 0 }] } }),
     by decide +kernel⟩⟩

/-- `Obligations.I3cSettingRows`. -/
theorem meets_I3cSettingRows :
    (∃ (s : State) (a : BitVec 7), s.chip.i3cMine a.toNat = true ∧ s.chip.is F.I3C_STAT_DYN_VALID = true) ∧
    (∃ (s : State), s.chip.i3cLive = true ∧ s.chip.is F.I3C_STAT_DYN_VALID = false) ∧
    (∃ (s : State) (addr : BitVec 7), s.chip.i3cMine addr.toNat = true ∧
      s.chip.is F.I3C_STAT_DYN_VALID = false) ∧
    (∃ (s : State) (addr : BitVec 7), s.chip.i3cMine addr.toNat = true ∧
      s.chip.is F.I3C_STAT_DYN_VALID = true) ∧
    (∃ (s : State) (a : BitVec 7) (len : BitVec 16), s.chip.i3cMine a.toNat = true ∧ 64 ≤ len.toNat ∧
      len.toNat ≤ 4116) ∧
    (∃ (s : State) (a : BitVec 7) (len : BitVec 16), s.chip.i3cMine a.toNat = true ∧
      (len.toNat < 64 ∨ 4116 < len.toNat)) ∧
    (∃ (s : State) (a : BitVec 7) (action : Byte), s.chip.i3cMine a.toNat = true ∧ action.toNat ≤ 2) ∧
    (∃ (action : Byte), 2 < action.toNat) ∧
    (∃ (s : State) (b : BitVec 7) (intr : Bool) (hotJoin : Bool) (len : BitVec 16) (action : Byte) (i : Instr), s.chip.i3cLive = true ∧
      i ∈ [.enec .bad intr hotJoin, .disec .bad intr hotJoin, .entdaa .bad, .setdasa .bad b, .setnewda .bad b, .setmwl .bad len, .setmrl .bad len, .rstact .bad action]) ∧
    (∃ (s : State), s.chip.aon.rstArm = some 1 ∧ s.chip.chanterUp = true) ∧
    (∃ (s : State), s.chip.aon.rstArm = some 2 ∧ s.chip.awake = true) ∧
    (∃ (s : State), (s.chip.aon.rstArm = none ∨ s.chip.aon.rstArm = some 0)) :=
  ⟨⟨(dev fun c => onBus c), 0x5A, by decide +kernel⟩,
   ⟨(dev fun c => { c with aon := { c.aon with i3cOpen := true } }), by decide +kernel⟩,
   ⟨(dev fun c => { c with aon := { c.aon with i3cOpen := true } }), 0x30, by decide +kernel⟩,
   ⟨(dev fun c => onBus c), 0x5A, by decide +kernel⟩,
   ⟨(dev fun c => onBus c), 0x5A, 4116, by decide +kernel⟩,
   ⟨(dev fun c => onBus c), 0x5A, 63, by decide +kernel⟩,
   ⟨(dev fun c => onBus c), 0x5A, 2, by decide +kernel⟩,
   ⟨3, by decide +kernel⟩,
   ⟨(dev fun c => { c with aon := { c.aon with i3cOpen := true } }), 0, false, false, 0, 0, (.entdaa .bad),
     ⟨by decide +kernel, by simp⟩⟩,
   ⟨(dev fun c => { c with aon := { c.aon with rstArm := some 1 } }), by decide +kernel⟩,
   ⟨(dev fun c => { c with aon := { c.aon with rstArm := some 2 } }), by decide +kernel⟩,
   ⟨(dev id), by decide +kernel⟩⟩

/-- `Obligations.TapRows`. -/
theorem meets_TapRows :
    (∃ (s : State), s.chip.aon.resetLow = true ∧ (s.chip.get F.PWR_STAT_VALID).testBit 9 = true) ∧
    (∃ (s : State), (s.chip.aon.resetLow = false ∨ (s.chip.get F.PWR_STAT_VALID).testBit 9 = false)) ∧
    (∃ (opcode : Byte), opcode.toNat ∉ listedOps) :=
  ⟨⟨(dev fun c => { c.set F.PWR_STAT_VALID 0x7FF with aon := { c.aon with resetLow := true } }),
     by decide +kernel⟩,
   ⟨(dev id), by decide +kernel⟩,
   ⟨0x55, by decide +kernel⟩⟩

/-- `Obligations.SystemCommandRows`. -/
theorem meets_SystemCommandRows :
    (∃ (s : State) (p : Pkt), s.chip.quiet.accepts cmdSysNop p) ∧
    (∃ (s : State) (p : Pkt), s.chip.quiet.accepts cmdSysIdentify p) ∧
    (∃ (s : State) (p : Pkt), s.chip.quiet.accepts cmdSysStatus p) ∧
    (∃ (s : State) (p : Pkt), s.chip.quiet.accepts cmdSysPeek p) ∧
    (∃ (s : State) (p : Pkt), s.chip.quiet.accepts cmdSysPoke p) ∧
    (∃ (s : State) (p : Pkt), s.chip.quiet.accepts cmdSysReset p ∧ pb p.payload 0 = 0) ∧
    (∃ (s : State) (p : Pkt), s.chip.quiet.accepts cmdSysReset p ∧ pb p.payload 0 = 1) ∧
    (∃ (s : State) (p : Pkt), s.chip.quiet.accepts cmdSysReset p ∧ 2 ≤ pb p.payload 0 ∧
      s.chip.resetRetired (pb p.payload 0) (pf p.payload 2 2) = false) ∧
    (∃ (s : State) (p : Pkt) (t : Slot), s.chip.quiet.accepts cmdSysAbort p ∧
      s.chip.slot? s.chip.ch.nextId = none ∧ s.chip.isOwn (bits (pf p.payload 0 4) 27 16) = true ∧
      s.chip.ch.slots.find? (fun t => t.route = p.route && t.tag = pf p.payload 0 2) = some t) ∧
    (∃ (s : State) (p : Pkt), s.chip.quiet.accepts cmdSysEventRead p ∧ (pf p.payload 0 4).testBit 16 = true) ∧
    (∃ (s : State) (p : Pkt), s.chip.quiet.accepts cmdSysEventRead p ∧ (pf p.payload 0 4).testBit 16 = false) ∧
    (∃ (s : State) (p : Pkt), s.chip.quiet.accepts cmdSysEventMask p) ∧
    (∃ (s : State) (p : Pkt), s.chip.quiet.accepts cmdSysNotice p) ∧
    (∃ (s : State) (p : Pkt), s.chip.quiet.accepts cmdSysFwInfo p) ∧
    (∃ (s : State) (p : Pkt), s.chip.quiet.accepts cmdSysFwBegin p) ∧
    (∃ (s : State) (p : Pkt) (f : FwSession), s.chip.quiet.accepts cmdSysFwData p ∧ s.chip.ch.fw = some f ∧
      pf p.payload 0 4 + (p.payload.length - 8) ≤ f.len) ∧
    (∃ (s : State) (p : Pkt), s.chip.quiet.accepts cmdSysFwData p ∧ s.chip.ch.fw = none) ∧
    (∃ (s : State) (p : Pkt), s.chip.quiet.accepts cmdSysFwCommit p ∧ s.chip.ch.fw = none) ∧
    (∃ (s : State) (p : Pkt) (f : FwSession), s.chip.quiet.accepts cmdSysFwCommit p ∧ s.chip.ch.fw = some f) :=
  ⟨⟨(dev id), (pk []), by unfold Chip.accepts; decide +kernel⟩,
   ⟨(dev id), (pk []), by unfold Chip.accepts; decide +kernel⟩,
   ⟨(dev id), (pk []), by unfold Chip.accepts; decide +kernel⟩,
   ⟨(dev id), (pk (z 8 ++ [1] ++ z 7)), by unfold Chip.accepts; decide +kernel⟩,
   ⟨(dev id), (pk (z 5 ++ [1] ++ z 2 ++ [1] ++ z 15)), by unfold Chip.accepts; decide +kernel⟩,
   ⟨(dev id), (pk (z 8)), by unfold Chip.accepts; decide +kernel⟩,
   ⟨(dev id), (pk (1 :: z 7)), by unfold Chip.accepts; decide +kernel⟩,
   ⟨(dev id), (pk (2 :: 0 :: 191 :: z 5)), by unfold Chip.accepts; decide +kernel⟩,
   ⟨(dev fun c => { c with ch := { c.ch with slots := [{ slot with tag := 7 }], nextId := 1 } }),
     (pk [7, 0, 0xFF, 0x0F]), ({ slot with tag := 7 }), by unfold Chip.accepts; decide +kernel⟩,
   ⟨(dev id), (pk [1, 0, 1, 0]), by unfold Chip.accepts; decide +kernel⟩,
   ⟨(dev id), (pk [0, 1, 0, 0]), by unfold Chip.accepts; decide +kernel⟩,
   ⟨(dev id), (pk (z 8)), by unfold Chip.accepts; decide +kernel⟩,
   ⟨(dev id), (pk (z 4)), by unfold Chip.accepts; decide +kernel⟩,
   ⟨(dev id), (pk []), by unfold Chip.accepts; decide +kernel⟩,
   ⟨(dev id), (pk (z 8)), by unfold Chip.accepts; decide +kernel⟩,
   ⟨(dev fun c => { c with ch := { c.ch with fw := some { copy := 0, len := 8, data := [], done := [] } } }),
     (pk (z 16)), ({ copy := 0, len := 8, data := [], done := [] }), by unfold Chip.accepts; decide +kernel⟩,
   ⟨(dev id), (pk (z 16)), by unfold Chip.accepts; decide +kernel⟩,
   ⟨(dev id), (pk (z 4)), by unfold Chip.accepts; decide +kernel⟩,
   ⟨(dev fun c => { c with ch := { c.ch with fw := some { copy := 0, len := 8, data := [], done := [] } } }),
     (pk (z 4)), ({ copy := 0, len := 8, data := [], done := [] }), by unfold Chip.accepts; decide +kernel⟩⟩

/-- `Obligations.ChanterEventRows`. -/
theorem meets_ChanterEventRows :
    (∃ (s : State), s.chip.chanterUp = true) ∧
    (∃ (s : State), s.chip.awake = true ∧ s.chip.ch.restarting = true ∧
      s.chip.ch.slots.any (fun t => t.running && t.noStop && t.recorded.isNone) = false) ∧
    (∃ (s : State), s.chip.awake = true ∧ s.chip.ch.resetDue = true) ∧
    (∃ (s : State) (id : Nat) (copy : Nat) (due : List (Nat × Nat)), s.chip.awake = true ∧
      s.chip.ch.commitDue = (id, copy) :: due) ∧
    (∃ (s : State), s.chip.takesPackets = true ∧ s.chip.is F.WW_ID_ROOT = true ∧ s.chip.ww.gaveUp = false) ∧
    (∃ (s : State) (src : BitVec 12), s.chip.takesPackets = true ∧ src ≠ 0) ∧
    (∃ (s : State), s.chip.takesPackets = true ∧ s.chip.is F.WW_ID_ROOT = false) ∧
    (∃ (s : State) (src : BitVec 12) (bytes : List Byte) (e : Fwd), s.chip.awake = true ∧
      s.chip.is F.WW_ID_ROOT = true ∧ pf bytes 2 2 ≠ 0xFFFF ∧
      s.chip.ch.fwd.find? (fun e => e.dest = src.toNat && e.tag = pf bytes 2 2) = some e ∧
      pb bytes 6 ≠ ST_ACCEPTED ∧ pb bytes 6 ≠ ST_DEFERRED) ∧
    (∃ (s : State) (src : BitVec 12) (bytes : List Byte), s.chip.awake = true ∧
      s.chip.is F.WW_ID_ROOT = true ∧ pf bytes 2 2 ≠ 0xFFFF ∧
      s.chip.ch.fwd.find? (fun e => e.dest = src.toNat && e.tag = pf bytes 2 2) = none) ∧
    (∃ (s : State) (dest : BitVec 12) (tag : BitVec 16) (e : Fwd), s.chip.awake = true ∧
      s.chip.ch.fwd.find? (fun e => e.dest = dest.toNat && e.tag = tag.toNat && !e.replied) = some e) :=
  ⟨⟨(dev id), by decide +kernel⟩,
   ⟨(dev fun c => { c with ch := { c.ch with restarting := true } }), by decide +kernel⟩,
   ⟨(dev fun c => { c with ch := { c.ch with resetDue := true } }), by decide +kernel⟩,
   ⟨(dev fun c => { c with ch := { c.ch with commitDue := [(0, 0)] } }), 0, 0, ([]), by decide +kernel⟩,
   ⟨(dev fun c => c.set F.WW_ID_ROOT 1), by decide +kernel⟩,
   ⟨(dev id), 0xFFF, by decide +kernel⟩,
   ⟨(dev id), by decide +kernel⟩,
   ⟨(dev fun c => { c.set F.WW_ID_ROOT 1 with ch := { c.ch with fwd := [{ route := .i3c, dest := 9, tag := 0, cls := 0, op := 0, replied := false }] } }),
     9, (z 16), ({ route := .i3c, dest := 9, tag := 0, cls := 0, op := 0, replied := false }),
     by decide +kernel⟩,
   ⟨(dev fun c => c.set F.WW_ID_ROOT 1), 0, (z 16), by decide +kernel⟩,
   ⟨(dev fun c => { c with ch := { c.ch with fwd := [{ route := .i3c, dest := 9, tag := 3, cls := 0, op := 0, replied := false }] } }),
     9, 3, ({ route := .i3c, dest := 9, tag := 3, cls := 0, op := 0, replied := false }), by decide +kernel⟩⟩

/-- `Obligations.RegisterRows`. -/
theorem meets_RegisterRows :
    (∃ (s : State) (addr : BitVec 48), s.chip.awake = true ∧ addr.toNat % 8 ≠ 0) ∧
    (∃ (s : State) (addr : BitVec 48), s.chip.awake = true ∧ addr.toNat % 8 = 0 ∧
      (∀ off, placeOf addr.toNat ≠ .ctl off)) ∧
    (∃ (s : State) (addr : BitVec 48) (off : Nat) (r : Rsp), s.chip.awake = true ∧ addr.toNat % 8 = 0 ∧
      placeOf addr.toNat = .ctl off ∧ ¬(0xD00000 ≤ off ∧ off < 0xD80000) ∧ halfRefusal off = some r) ∧
    (∃ (s : State) (addr : BitVec 48) (off : Nat) (fs : List Fld), s.chip.awake = true ∧ addr.toNat % 8 = 0 ∧
      placeOf addr.toNat = .ctl off ∧ regAt off = some (false, fs) ∧ off < 0x100000 ∧ off ≠ 0x38 ∧
      off ≠ 0x58 ∧ off ≠ 0x60) ∧
    (∃ (s : State) (addr : BitVec 48) (off : Nat), s.chip.awake = true ∧ addr.toNat % 8 = 0 ∧
      placeOf addr.toNat = .ctl off ∧ 0xD00000 ≤ off ∧ off < 0xD80000) ∧
    (∃ (s : State) (data : Word), s.chip.awake = true ∧
      (bits data.toNat 7 0 = 0 ∨ bits data.toNat 31 24 = 0)) ∧
    (∃ (s : State) (data : Word), s.chip.awake = true ∧ bits data.toNat 7 0 ≠ 0 ∧ bits data.toNat 31 24 ≠ 0) :=
  ⟨⟨(dev id), 0x20000000001, by decide +kernel⟩,
   ⟨(dev id), 8,
     ⟨by decide +kernel, by decide +kernel, fun off h => Place.noConfusion ((show placeOf (8 : BitVec 48).toNat = .dram by decide +kernel).symm.trans h)⟩⟩,
   ⟨(dev id), 0x20000EFFFF8, 0xEFFFF8, rspNoReg, by decide +kernel⟩,
   ⟨(dev id), 0x20000000008, 8, (((regAt 8).getD (false, [])).2), by decide +kernel⟩,
   ⟨(dev id), 0x20000D00000, 0xD00000, by decide +kernel⟩,
   ⟨(dev id), 0, by decide +kernel⟩,
   ⟨(dev id), 0x0000000001000001, by decide +kernel⟩⟩

/-- `Obligations.SequencerRows`. -/
theorem meets_SequencerRows :
    (∃ (s : State) (k : Fin 16) (word : BitVec 256) (row : Instr × Nat), let idle := fun c : Chip => c.setEng k (fun e => { e with pause := none }); s.chip.awake = true ∧
      s.chip.is (F.PE_CTL_GANG_EN k) = false ∧ s.chip.peState k = peRunning ∧ (s.chip.eng k).pause = none ∧
      row ∈  [(Instr.seqNext k word, seqNEXT), (Instr.seqJmp k word, seqJMP), (Instr.seqJc k word, seqJC), (Instr.seqCall k word, seqCALL), (Instr.seqRet k word, seqRET), (Instr.seqLoop k word, seqLOOP), (Instr.seqLdlc k word, seqLDLC), (Instr.seqRepeat k word, seqREPEAT), (Instr.seqWaitf k word, seqWAITF), (Instr.seqSync k word, seqSYNC), (Instr.seqPause k word, seqPAUSE), (Instr.seqHalt k word, seqHALT)] ∧
      (idle s.chip.quiet).issueFault k (withSeq row.2 word.toNat) = none) ∧
    (∃ (s : State) (k : Fin 16), let idle := fun c : Chip => c.setEng k (fun e => { e with pause := none }); s.chip.awake = true ∧
      s.chip.is (F.PE_CTL_GANG_EN k) = false ∧ s.chip.peState k = peRunning ∧ (s.chip.eng k).pause = none ∧
      (idle s.chip.quiet).issueFault k (tget 0 ((idle s.chip.quiet).eng k).npc ((idle s.chip.quiet).eng k).im) = none) ∧
    (∃ (s : State) (k : Fin 16) (ms : List Nat) (l : Nat), let idle := fun c : Chip => c.forAll ms (fun j => Chip.setEng j (fun e => { e with pause := none })); let ws := ms.map (fun j => (j, tget 0 ((idle s.chip.quiet).eng j).npc ((idle s.chip.quiet).eng j).im)); s.chip.awake = true ∧
      s.chip.gang k = ms ∧ ms.head? = some l ∧ s.chip.xsys l = false ∧ s.chip.peState l = peRunning ∧
      (s.chip.eng l).pause = none ∧ (∀ p ∈ ws, (idle s.chip.quiet).issueFault p.1 p.2 = none)) :=
  ⟨⟨(dev fun c => c.set (F.PE_STAT_STATE 15) peRunning), 15, 0, ((Instr.seqHalt 15 0, seqHALT)),
     by dsimp only; decide +kernel⟩,
   ⟨(dev fun c => c.set (F.PE_STAT_STATE 15) peRunning), 15, by dsimp only; decide +kernel⟩,
   ⟨(dev fun c => c.set (F.PE_STAT_STATE 0) peRunning), 0, ([0]), 0, by dsimp only; decide +kernel⟩⟩

/-- `Obligations.EngineWaitRows`. -/
theorem meets_EngineWaitRows :
    (∃ (s : State) (k : Fin 16) (q : Pause), s.chip.awake = true ∧ s.chip.is (F.PE_CTL_GANG_EN k) = false ∧
      (s.chip.eng k).pause = some q ∧ s.chip.quiet.waitExpired k q = true) ∧
    (∃ (s : State) (k : Fin 16) (q : Pause), s.chip.awake = true ∧ s.chip.is (F.PE_CTL_GANG_EN k) = false ∧
      (s.chip.eng k).pause = some q ∧ s.chip.quiet.holding k = true ∧ q.long = false) ∧
    (∃ (s : State) (k : Fin 16) (q : Pause) (tick : Nat), s.chip.awake = true ∧
      s.chip.is (F.PE_CTL_GANG_EN k) = false ∧ (s.chip.eng k).pause = some q ∧ iSeq q.word = seqSYNC ∧
      tick % s.chip.syncPeriod k = 0 ∧ q.began < tick) ∧
    (∃ (s : State) (k : Fin 16), s.chip.awake = true ∧ s.chip.is (F.PE_CTL_GANG_EN k) = false ∧
      s.chip.peState k = peArmed ∧ ((s.chip.eng k).streamOn = false ∨ (s.chip.eng k).prefilled = true)) ∧
    (∃ (s : State) (k : Fin 16), s.chip.awake = true ∧ s.chip.is (F.PE_CTL_GANG_EN k) = false ∧
      s.chip.peState k = peArmed ∧ (s.chip.eng k).startTick.isSome = true ∧ (s.chip.eng k).streamOn = true ∧
      (s.chip.eng k).prefilled = false) ∧
    (∃ (s : State) (k : Fin 16), s.chip.awake = true ∧ s.chip.is (F.PE_CTL_GANG_EN k) = false ∧
      s.chip.peState k = peArmed ∧ (s.chip.eng k).streamOn = true ∧
      min 16384 (s.chip.get (F.PE_STREAM_LEN_LEN k)) ≤ (s.chip.eng k).stream.length) :=
  ⟨⟨(dev fun c => (c.set (F.PE_STAT_STATE 0) peRunning).setEng 0 fun e => { e with pause := some { pause with word := 0x140000008, held := 1 } }),
     0, ({ pause with word := 0x140000008, held := 1 }), by decide +kernel⟩,
   ⟨(dev fun c => (c.set (F.PE_STAT_STATE 0) peRunning).setEng 0 fun e => { e with pause := some { pause with word := 0x40000008 } }),
     0, ({ pause with word := 0x40000008 }), by decide +kernel⟩,
   ⟨(dev fun c => (c.set (F.PE_STAT_STATE 0) peRunning).setEng 0 fun e => { e with pause := some { pause with word := 9 } }),
     0, ({ pause with word := 9 }), 375, by decide +kernel⟩,
   ⟨(dev fun c => c.set (F.PE_STAT_STATE 0) peArmed), 0, by decide +kernel⟩,
   ⟨(dev fun c => (c.set (F.PE_STAT_STATE 0) peArmed).setEng 0 fun e => { e with startTick := some 375, streamOn := true, prefilled := false }),
     0, by decide +kernel⟩,
   ⟨(dev fun c => (c.set (F.PE_STAT_STATE 0) peArmed).setEng 0 fun e => { e with streamOn := true }), 0,
     by decide +kernel⟩⟩

/-- `Obligations.EngineInputRows`. -/
theorem meets_EngineInputRows :
    (∃ (s : State) (k : Fin 16) (rsp : Fin 6), s.chip.awake = true ∧ s.chip.peActive k = true ∧
      (s.chip.eng k).streamOn = true ∧ rsp ≠ 0) ∧
    (∃ (s : State) (k : Fin 16) (rsp : Fin 6) (count : Nat), let n := min count (min (16384 - (s.chip.eng k).stream.length) (s.chip.get (F.PE_STREAM_LEN_LEN k) - (s.chip.eng k).streamReq)); let at' := fun i => s.chip.get (F.PE_STREAM_BASE_ADDR k) + 64 * ((s.chip.eng k).streamReq + i); s.chip.awake = true ∧
      s.chip.peActive k = true ∧ (s.chip.eng k).streamOn = true ∧ rsp = 0 ∧
      (∀ i < n, s.chip.quiet.rowBad (at' i) 64 = false ∧ s.chip.quiet.rowRefusal (at' i) 64 = none)) ∧
    (∃ (s : State) (k : Fin 16), s.chip.awake = true ∧ s.chip.is (F.PE_CTL_UPORT_EN k) = true ∧
      (s.chip.eng k).uport.length < 64) ∧
    (∃ (s : State) (k : Fin 16), s.chip.awake = true ∧ (s.chip.eng k).uport.length = 64) ∧
    (∃ (s : State) (k : Fin 16), s.chip.awake = true ∧ s.chip.peActive k = false ∧
      s.chip.is (F.PE_IM_ADDR_AUTOINC k) = true) ∧
    (∃ (s : State) (k : Fin 16) (j : Fin 3) (mask : Word), s.chip.awake = true ∧ s.chip.peActive k = false ∧
      (∀ i : Nat, i < 16 → i ≠ k.val → s.chip.get (F.PE_STOPBIND_MASK i j) &&& mask.toNat = 0)) ∧
    (∃ (s : State) (k : Fin 16) (j : Fin 3) (mask : Word) (i : Nat), s.chip.awake = true ∧
      s.chip.peActive k = false ∧ i < 16 ∧ i ≠ k.val ∧
      s.chip.get (F.PE_STOPBIND_MASK i j) &&& mask.toNat ≠ 0) ∧
    (∃ (s : State) (k : Fin 16) (slot : Slot), s.chip.awake = true ∧
      s.chip.runningCmd 0x03 0x08 (fun pl => pb pl 0 = k.val) = some slot) :=
  ⟨⟨(dev fun c => (c.set (F.PE_STAT_STATE 0) peRunning).setEng 0 fun e => { e with streamOn := true }), 0, 1,
     by decide +kernel⟩,
   ⟨(dev fun c => ((c.set (F.PE_STAT_STATE 0) peRunning).set (F.PE_STREAM_LEN_LEN 0) 1).setEng 0 fun e => { e with streamOn := true }),
     0, 0, 1, by dsimp only; decide +kernel⟩,
   ⟨(dev fun c => (c.set (F.PE_CTL_UPORT_EN 0) 1).setEng 0 fun e => { e with uport := List.replicate 63 0 }),
     0, by decide +kernel⟩,
   ⟨(dev fun c => c.setEng 0 fun e => { e with uport := List.replicate 64 0 }), 0, by decide +kernel⟩,
   ⟨(dev fun c => c.set (F.PE_IM_ADDR_AUTOINC 0) 1), 0, by decide +kernel⟩,
   ⟨(dev id), 0, 0, 1, by decide +kernel⟩,
   ⟨(dev fun c => c.set (F.PE_STOPBIND_MASK 15 0) 1), 0, 0, 1, 15, by decide +kernel⟩,
   ⟨(dev fun c => { c with ch := { c.ch with slots := [{ slot with cls := 3, op := 8, payload := 15 :: z 7 }] } }),
     15, ({ slot with cls := 3, op := 8, payload := 15 :: z 7 }), by decide +kernel⟩⟩

/-- `Obligations.EngineCommandRows`. -/
theorem meets_EngineCommandRows :
    (∃ (s : State) (p : Pkt) (k : Nat), k < 16 ∧ s.chip.is (F.PE_CTL_GANG_EN k) = false ∧
      s.chip.quiet.accepts cmdPeStatus p ∧ pf p.payload 0 4 = k) ∧
    (∃ (s : State) (p : Pkt) (k : Nat), k < 16 ∧ s.chip.is (F.PE_CTL_GANG_EN k) = false ∧
      s.chip.quiet.accepts cmdPeLoad p ∧ pb p.payload 0 = k ∧ s.chip.peActive k = false) ∧
    (∃ (s : State) (p : Pkt) (k : Nat), k < 16 ∧ s.chip.is (F.PE_CTL_GANG_EN k) = false ∧
      s.chip.quiet.accepts cmdPeStart p ∧ pb p.payload 0 = k ∧ pb p.payload 1 = 0 ∧
      s.chip.peActive k = false) ∧
    (∃ (s : State) (p : Pkt) (k : Nat), k < 16 ∧ s.chip.is (F.PE_CTL_GANG_EN k) = false ∧
      s.chip.quiet.accepts cmdPeStart p ∧ pb p.payload 0 = k ∧ pb p.payload 1 = 1 ∧
      s.chip.peActive k = false ∧ s.chip.get F.WW_TB_TIME + 375 ≤ pf p.payload 8 8 ∧
      pf p.payload 8 8 ≤ s.chip.get F.WW_TB_TIME + 2 ^ 32) ∧
    (∃ (s : State) (p : Pkt) (k : Nat), k < 16 ∧ s.chip.is (F.PE_CTL_GANG_EN k) = false ∧
      s.chip.quiet.accepts cmdPePause p ∧ pf p.payload 0 4 = k ∧ s.chip.peActive k = true ∧
      s.chip.peState k ≠ pePaused) ∧
    (∃ (s : State) (p : Pkt) (k : Nat), k < 16 ∧ s.chip.is (F.PE_CTL_GANG_EN k) = false ∧
      s.chip.quiet.accepts cmdPeResume p ∧ pf p.payload 0 4 = k ∧ s.chip.peState k = pePaused) ∧
    (∃ (s : State) (p : Pkt) (k : Nat), k < 16 ∧ s.chip.is (F.PE_CTL_GANG_EN k) = false ∧
      s.chip.quiet.accepts cmdPeStop p ∧ pf p.payload 0 4 = k ∧ s.chip.peActive k = true) ∧
    (∃ (s : State) (p : Pkt) (k : Nat), k < 16 ∧ s.chip.is (F.PE_CTL_GANG_EN k) = false ∧
      s.chip.quiet.accepts cmdPeAbort p ∧ pf p.payload 0 4 = k ∧ s.chip.peActive k = true) ∧
    (∃ (s : State) (p : Pkt) (k : Nat), k < 16 ∧ s.chip.is (F.PE_CTL_GANG_EN k) = false ∧
      s.chip.quiet.accepts cmdPeGang p ∧ (pb p.payload 2).testBit 1 = false ∧
      (∀ i < 16, ∀ j < 16, (pf p.payload 0 2).testBit i = true → (pf p.payload 0 2).testBit j = true → s.chip.peActive j = false ∧ s.chip.get (F.PE_CTL_FSTEP i) = s.chip.get (F.PE_CTL_FSTEP j) ∧ s.chip.get (F.PE_CTL_MCODE i) = s.chip.get (F.PE_CTL_MCODE j))) ∧
    (∃ (s : State) (p : Pkt) (k : Nat), k < 16 ∧ s.chip.is (F.PE_CTL_GANG_EN k) = false ∧
      s.chip.quiet.accepts cmdPeClock p ∧ pb p.payload 0 = k ∧ s.chip.peActive k = false) :=
  ⟨⟨(dev id), (pk (15 :: z 3)), 15, by unfold Chip.accepts; decide +kernel⟩,
   ⟨(dev id), (pk ([15, 0, 0, 0, 1, 0, 0, 0] ++ z 32)), 15, by unfold Chip.accepts; decide +kernel⟩,
   ⟨(dev id), (pk (15 :: z 15)), 15, by unfold Chip.accepts; decide +kernel⟩,
   ⟨(dev id), (pk ([15, 1] ++ z 6 ++ [0x77, 1] ++ z 6)), 15, by unfold Chip.accepts; decide +kernel⟩,
   ⟨(dev fun c => c.set (F.PE_STAT_STATE 15) peRunning), (pk (15 :: z 3)), 15,
     by unfold Chip.accepts; decide +kernel⟩,
   ⟨(dev fun c => c.set (F.PE_STAT_STATE 15) pePaused), (pk (15 :: z 3)), 15,
     by unfold Chip.accepts; decide +kernel⟩,
   ⟨(dev fun c => c.set (F.PE_STAT_STATE 15) pePaused), (pk (15 :: z 3)), 15,
     by unfold Chip.accepts; decide +kernel⟩,
   ⟨(dev fun c => c.set (F.PE_STAT_STATE 15) peArmed), (pk (15 :: z 3)), 15,
     by unfold Chip.accepts; decide +kernel⟩,
   ⟨(dev id), (pk [1, 0x80, 0, 0]), 0,
     ⟨by decide, by decide +kernel, by unfold Chip.accepts; decide +kernel, by decide, by decide +kernel⟩⟩,
   ⟨(dev id), (pk [15, 0, 0xE0, 1, 3, 0, 0, 0]), 15, by unfold Chip.accepts; decide +kernel⟩⟩

/-- `Obligations.ReedRows`. -/
theorem meets_ReedRows :
    (∃ (s : State) (k : Fin 16) (cy : Cycle) (q : List Cycle), s.chip.awake = true ∧
      (s.chip.eng k).cmpQ = cy :: q ∧ cy.held = true) ∧
    (∃ (s : State) (k : Fin 16) (obs : List (List PinObs)) (cy : Cycle) (q : List Cycle), let taken := fun c : Chip => c.setEng k (fun e => { e with cmpQ := q }); s.chip.awake = true ∧
      (s.chip.eng k).cmpQ = cy :: q ∧ cy.held = false ∧ ((taken s.chip.quiet).compareCycle k cy obs).1 = 0) ∧
    (∃ (s : State) (k : Fin 16) (obs : List (List PinObs)) (cy : Cycle) (q : List Cycle), let taken := fun c : Chip => c.setEng k (fun e => { e with cmpQ := q }); s.chip.awake = true ∧
      (s.chip.eng k).cmpQ = cy :: q ∧ cy.held = false ∧ ((taken s.chip.quiet).compareCycle k cy obs).1 ≠ 0 ∧
      cy.fle = false) ∧
    (∃ (s : State) (ch : Fin 256) (cap : Bool) (err : Int), s.chip.awake = true ∧
      s.chip.is (F.RD_GRP_CTL_DRIFT_EN (ch / 8)) = true ∧ s.chip.chState ch = chActive ∧
      (s.chip.engineRun (ch / 8) = false ∨ (s.chip.unit ch).idle.testBit (b2n cap) = true) ∧
      (err - sext 16 (s.chip.get (driftFld ch cap))).natAbs ≤ 24 ∧
      (sext 16 (s.chip.get (driftFld ch cap)) + driftStep err (sext 16 (s.chip.get (driftFld ch cap)))).natAbs ≤ 1000) ∧
    (∃ (s : State) (ch : Fin 256) (cap : Bool), s.chip.awake = true ∧ s.chip.engineRun (ch / 8) = true ∧
      (s.chip.unit ch).idle.testBit (b2n cap) = false) ∧
    (∃ (s : State) (ch : Fin 256), s.chip.awake = true ∧ s.chip.chState ch ≠ chRetired ∧
      (s.chip.unit ch).reacq = 2) ∧
    (∃ (s : State) (data : Wide), s.chip.awake = true ∧ tsReserved data.toNat = false) ∧
    (∃ (s : State) (data : Wide), s.chip.awake = true ∧ tsReserved data.toNat = true) ∧
    (∃ (s : State) (g : Fin 32) (r : Nat) (q : List Nat), s.chip.awake = true ∧ s.chip.tsBuf g = r :: q) ∧
    (∃ (s : State) (g : Fin 32), s.chip.awake = true ∧ s.chip.tsBuf g = []) :=
  ⟨⟨(dev fun c => c.setEng 0 fun e => { e with cmpQ := [{ cyc with held := true }] }), 0,
     ({ cyc with held := true }), ([]), by decide +kernel⟩,
   ⟨(dev fun c => c.setEng 0 fun e => { e with cmpQ := [{ cyc with cmask := 2 ^ 128 - 1 }] }), 0, ([]),
     ({ cyc with cmask := 2 ^ 128 - 1 }), ([]), by dsimp only; decide +kernel⟩,
   ⟨(dev fun c => c.setEng 0 fun e => { e with cmpQ := [{ cyc with m := 1, expect := 1 }] }), 0, ([]),
     ({ cyc with m := 1, expect := 1 }), ([]), by dsimp only; decide +kernel⟩,
   ⟨(dev fun c => (c.set (F.RD_GRP_CTL_DRIFT_EN 31) 1).set (F.RD_CH_STAT_STATE 31 7) chActive), 255, false,
     24, by decide +kernel⟩,
   ⟨(dev fun c => c.set (F.PE_STAT_STATE 0) peRunning), 0, false, by decide +kernel⟩,
   ⟨(dev fun c => c.setUnit 255 fun u => { u with reacq := 2 }), 255, by decide +kernel⟩,
   ⟨(dev id), 0, by decide +kernel⟩,
   ⟨(dev id), 0x80000000000000000000000000000000, by decide +kernel⟩,
   ⟨(dev fun c => { c with rd := { c.rd with buf := [(0, [5])] } }), 0, 5, ([]), by decide +kernel⟩,
   ⟨(dev id), 0, by decide +kernel⟩⟩

/-- `Obligations.ReedCommandRows`. -/
theorem meets_ReedCommandRows :
    (∃ (s : State) (p : Pkt), s.chip.quiet.accepts cmdRdStatus p) ∧
    (∃ (s : State) (p : Pkt), s.chip.quiet.accepts cmdRdTsWrite p) ∧
    (∃ (s : State) (p : Pkt), s.chip.quiet.accepts cmdRdTsRead p) ∧
    (∃ (s : State) (p : Pkt), s.chip.quiet.accepts cmdRdCalWrite p) ∧
    (∃ (s : State) (p : Pkt), s.chip.quiet.accepts cmdRdCalRead p) ∧
    (∃ (s : State) (p : Pkt), s.chip.quiet.accepts cmdRdCalSave p) ∧
    (∃ (s : State) (p : Pkt) (n : Nat), s.chip.quiet.accepts cmdRdCheck p ∧
      n = 8 * pb p.payload 0 + pb p.payload 1 ∧ s.chip.engineRun (pb p.payload 0) = false ∧
      s.chip.chState n ≠ chRetired ∧ s.chip.dstate ≠ stSafe ∧
      (s.chip.quiet.slotFor cmdRdCheck p).tqFull 5 (n + (s.chip.unit n).line * 256) = false) :=
  ⟨⟨(dev id), (pk (z 4)), by unfold Chip.accepts; decide +kernel⟩,
   ⟨(dev id), (pk ([31, 0, 1, 0] ++ z 16)), by unfold Chip.accepts; decide +kernel⟩,
   ⟨(dev id), (pk [31, 0, 0, 1]), by unfold Chip.accepts; decide +kernel⟩,
   ⟨(dev id), (pk (31 :: z 99)), by unfold Chip.accepts; decide +kernel⟩,
   ⟨(dev id), (pk (31 :: z 3)), by unfold Chip.accepts; decide +kernel⟩,
   ⟨(dev id), (pk []), by unfold Chip.accepts; decide +kernel⟩,
   ⟨(dev id), (pk [15, 7]), 127, by unfold Chip.accepts; decide +kernel⟩⟩

/-- `Obligations.CaptureRows`. -/
theorem meets_CaptureRows :
    (∃ (s : State) (k : Nat), s.chip.awake = true ∧
      (rotFrom s.chip.cap.rr).find? (fun k => s.chip.fifo k ≠ []) = some k) ∧
    (∃ (s : State) (k : Fin 16) (e : Nat) (q : List Nat), s.chip.awake = true ∧
      s.chip.cap.fatWait.testBit k = true ∧ s.chip.fifo k = e :: q) ∧
    (∃ (s : State) (a : BitVec 48) (rsp : Fin 6) (l : BmLine), s.chip.awake = true ∧
      s.chip.cap.lines.find? (fun l => l.addr = a.toNat && (l.wb = 1 || l.wb = 2)) = some l ∧ rsp ≠ 0) ∧
    (∃ (s : State) (a : BitVec 48) (rsp : Fin 6) (l : BmLine) (r : Rsp), s.chip.awake = true ∧
      s.chip.cap.lines.find? (fun l => l.addr = a.toNat && (l.wb = 1 || l.wb = 2)) = some l ∧ rsp = 0 ∧
      s.chip.quiet.rowRefusal a.toNat 1024 = some r) ∧
    (∃ (s : State) (a : BitVec 48) (rsp : Fin 6) (l : BmLine), s.chip.awake = true ∧
      s.chip.cap.lines.find? (fun l => l.addr = a.toNat && (l.wb = 1 || l.wb = 2)) = some l ∧ rsp = 0 ∧
      s.chip.quiet.rowRefusal a.toNat 1024 = none ∧ s.chip.dr.wq.length < 256) ∧
    (∃ (s : State) (z : BmZero) (zs : List BmZero), let stop := min z.stop (rowBase z.next + 1024); s.chip.awake = true ∧
      s.chip.cap.zero = z :: zs ∧ s.chip.dr.wq.length < 256 ∧
      s.chip.quiet.rowRefusal z.next (stop - z.next) = none ∧ stop = z.stop) ∧
    (∃ (s : State) (z : BmZero) (zs : List BmZero), let stop := min z.stop (rowBase z.next + 1024); s.chip.awake = true ∧
      s.chip.cap.zero = z :: zs ∧ s.chip.dr.wq.length < 256 ∧
      s.chip.quiet.rowRefusal z.next (stop - z.next) = none ∧ stop ≠ z.stop) ∧
    (∃ (s : State), s.chip.awake = true ∧ s.chip.is F.FAT_PORT_ADDR_AUTOINC = false) ∧
    (∃ (s : State), s.chip.awake = true ∧ s.chip.is F.FAT_PORT_ADDR_AUTOINC = true) :=
  ⟨⟨(dev fun c => { c with cap := { c.cap with fifo := [(15, [1])] } }), 15, by decide +kernel⟩,
   ⟨(dev fun c => { c with cap := { c.cap with fifo := [(15, [1])], fatWait := 0x8000 } }), 15, 1, ([]),
     by decide +kernel⟩,
   ⟨(dev fun c => { c with cap := { c.cap with lines := [{ addr := 0, bits := 0, dirty := false, wb := 1, again := false }] } }),
     0, 1, ({ addr := 0, bits := 0, dirty := false, wb := 1, again := false }), by decide +kernel⟩,
   ⟨(dev fun c => { c.set F.DR_STAT_STATE drFrozen with cap := { c.cap with lines := [{ addr := 0, bits := 0, dirty := false, wb := 1, again := false }] } }),
     0, 0, ({ addr := 0, bits := 0, dirty := false, wb := 1, again := false }), rspFrozen, by decide +kernel⟩,
   ⟨(dev fun c => { c with cap := { c.cap with lines := [{ addr := 0, bits := 0, dirty := false, wb := 1, again := false }] } }),
     0, 0, ({ addr := 0, bits := 0, dirty := false, wb := 1, again := false }), by decide +kernel⟩,
   ⟨(dev fun c => { c with cap := { c.cap with zero := [{ slot := 0, next := 0, stop := 1024 }] } }),
     ({ slot := 0, next := 0, stop := 1024 }), ([]), by dsimp only; decide +kernel⟩,
   ⟨(dev fun c => { c with cap := { c.cap with zero := [{ slot := 0, next := 0, stop := 1025 }] } }),
     ({ slot := 0, next := 0, stop := 1025 }), ([]), by dsimp only; decide +kernel⟩,
   ⟨(dev fun c => c.set F.FAT_PORT_ADDR_AUTOINC 0), by decide +kernel⟩,
   ⟨(dev id), by decide +kernel⟩⟩

/-- `Obligations.CaptureCommandRows`. -/
theorem meets_CaptureCommandRows :
    (∃ (s : State) (p : Pkt), s.chip.quiet.accepts cmdCapStatus p) ∧
    (∃ (s : State) (p : Pkt) (k : Nat) (v : Nat) (g : Nat), s.chip.quiet.accepts cmdCapConfig p ∧
      k = pb p.payload 0 ∧ v = pf p.payload 4 4 ∧ g = pf p.payload 16 8 ∧ s.chip.drained k = true ∧
      bmGeomBad (bits (pf p.payload 8 8) 47 10 * 1024) (bits g 4 0) (bits g 9 5) (bits g 11 10) = false) ∧
    (∃ (s : State) (p : Pkt), s.chip.quiet.accepts cmdCapClear p ∧ (pb p.payload 2).testBit 2 = false ∧
      (pb p.payload 2).testBit 3 = false) ∧
    (∃ (s : State) (p : Pkt), s.chip.quiet.accepts cmdCapBmFlush p) ∧
    (∃ (s : State) (p : Pkt) (k : Nat), s.chip.quiet.accepts cmdCapBmZero p ∧ k = pf p.payload 0 4 ∧
      s.chip.is F.CAP_STAT_BM_FAULT = false ∧ s.chip.drained k = true ∧
      (∀ j : Nat, j < 16 → s.chip.is (F.CAP_PE_CTL_BM_EN j) = true → overlaps (s.chip.bmRange k) (s.chip.bmRange j) = true → s.chip.drained j = true)) ∧
    (∃ (s : State) (p : Pkt), s.chip.quiet.accepts cmdCapFflRead p) ∧
    (∃ (s : State) (p : Pkt), s.chip.quiet.accepts cmdCapFatRead p ∧ pb p.payload 6 = 0) ∧
    (∃ (s : State) (p : Pkt), s.chip.quiet.accepts cmdCapLostRead p) :=
  ⟨⟨(dev id), (pk (15 :: z 3)), by unfold Chip.accepts; decide +kernel⟩,
   ⟨(dev id), (pk (15 :: z 23)), 15, 0, 0, by unfold Chip.accepts; decide +kernel⟩,
   ⟨(dev id), (pk (z 8)), by unfold Chip.accepts; decide +kernel⟩,
   ⟨(dev id), (pk []), by unfold Chip.accepts; decide +kernel⟩,
   ⟨(dev id), (pk (15 :: z 3)), 15, by unfold Chip.accepts; decide +kernel⟩,
   ⟨(dev id), (pk [15, 0, 0, 0, 127, 0, 0, 0]), by unfold Chip.accepts; decide +kernel⟩,
   ⟨(dev id), (pk [0, 0, 0, 0, 127, 0, 0, 0]), by unfold Chip.accepts; decide +kernel⟩,
   ⟨(dev id), (pk [0, 0, 0, 0, 0, 0x10, 0, 0]), by unfold Chip.accepts; decide +kernel⟩⟩

/-- `Obligations.RepairAnalysisRows`. -/
theorem meets_RepairAnalysisRows :
    (∃ (s : State) (j : Nat) (e : Nat), s.chip.awake = true ∧ s.chip.get F.RAE_STAT_STATE = 1 ∧
      s.chip.raeScan = some j ∧ s.chip.fatAt j = e ∧ s.chip.is F.RAE_STAT_SOURCE = false) ∧
    (∃ (s : State) (j : Nat) (e : Nat), s.chip.awake = true ∧ s.chip.get F.RAE_STAT_STATE = 1 ∧
      s.chip.raeScan = some j ∧ s.chip.fatAt j = e ∧ s.chip.is F.RAE_STAT_SOURCE = true) ∧
    (∃ (s : State) (k : Fin 16) (v : Wide), s.chip.awake = true ∧ s.chip.raeActive = true ∧
      s.chip.is (F.RAE_SRC_LISTED k) = true ∧
      bits (tget 0 k s.chip.rae.impLo + v.toNat * 2 ^ 128) 215 213 = 2) ∧
    (∃ (s : State) (k : Fin 16), s.chip.awake = true ∧
      (s.chip.raeActive = false ∨ s.chip.is (F.RAE_SRC_LISTED k) = false)) ∧
    (∃ (s : State) (k : Fin 16), s.chip.awake = true ∧ s.chip.get F.RAE_STAT_STATE = 2 ∧
      s.chip.rae.drained = true ∧ s.chip.rae.abort = false ∧ s.chip.is (F.RAE_SRC_LISTED k) = true ∧
      s.chip.is (F.RAE_SRC_END_SEEN k) = false ∧ s.chip.rae.gone.testBit k = false ∧ s.chip.geoms = []) ∧
    (∃ (s : State) (g : Geom) (d : Nat) (t : Chip), s.chip.awake = true ∧ s.chip.raeDeciding = true ∧
      s.chip.is F.RAE_STAT_SOURCE = false ∧ s.chip.rae.queue = [] ∧ s.chip.rae.lostIn = true ∧
      s.chip.quiet.raeNextUnit s.chip.geoms 1048577 s.chip.rae.cursor = (some (g, d), t)) ∧
    (∃ (s : State) (idx : Fin 512) (ep : Fin 4) (o : NOut) (r : NRsp), s.chip.awake = true ∧
      s.chip.net.outs.find? (fun o => o.isRaeRecord && o.req.idx = idx.val && o.req.ep = ep.val) = some o ∧
      s.chip.net.rsps.find? (fun r => r.ni = o.req.ni && r.idx = idx.val && r.ep = ep.val) = some r) ∧
    (∃ (s : State) (ep : Nat), s.chip.awake = true ∧ s.chip.rae.writing = true ∧
      ep = s.chip.get F.RAE_STAT_EPOCH) ∧
    (∃ (s : State), s.chip.awake = true ∧ s.chip.is F.RAE_STAT_RING_WAIT = true ∧ s.chip.rae.waited = false) ∧
    (∃ (s : State), s.chip.awake = true ∧ s.chip.get F.RAE_STAT_STATE ≠ 5 ∧ s.chip.rae.zeroing = none ∧
      s.chip.rae.final = none) ∧
    (∃ (s : State) (id : Nat) (k : Slot), s.chip.awake = true ∧ s.chip.rae.zeroing = some id ∧
      s.chip.slot? id = some k ∧ s.chip.quiet.zeroRefusal = none) ∧
    (∃ (s : State) (id : Nat) (r : Rsp), s.chip.awake = true ∧ s.chip.rae.zeroing = some id ∧
      s.chip.quiet.zeroRefusal = some r) ∧
    (∃ (s : State), s.chip.awake = true ∧ s.chip.raeDeciding = true ∧ s.chip.rae.queue = [] ∧
      s.chip.is F.RAE_STAT_SOURCE = true ∧ s.chip.rae.ended = true ∧ s.chip.rae.imports = 0) :=
  ⟨⟨(dev fun c => { c.set F.RAE_STAT_STATE 1 with cap := { c.cap with fat := [(0, 2 ^ 255)] } }), 0,
     (2 ^ 255), by decide +kernel⟩,
   ⟨(dev fun c => { (c.set F.RAE_STAT_STATE 1).set F.RAE_STAT_SOURCE 1 with cap := { c.cap with fat := [(0, 2 ^ 255)] } }),
     0, (2 ^ 255), by decide +kernel⟩,
   ⟨(dev fun c => (c.set F.RAE_STAT_STATE 1).set (F.RAE_SRC_LISTED 15) 1), 15, (2 ^ 86), by decide +kernel⟩,
   ⟨(dev id), 0, by decide +kernel⟩,
   ⟨(dev fun c => { (c.set F.RAE_STAT_STATE 2).set (F.RAE_SRC_LISTED 15) 1 with rae := { c.rae with drained := true } }),
     15, by decide +kernel⟩,
   ⟨(dev fun c => deciding c), ((geomOf (recipe up).geoms 0).getD (.init 0)), 0,
     (((dev deciding).chip.quiet.raeNextUnit (dev deciding).chip.geoms 1048577 (dev deciding).chip.rae.cursor).2),
     ⟨by decide +kernel, by decide +kernel, by decide +kernel, by decide +kernel, by decide +kernel, Prod.ext (by decide +kernel) rfl⟩⟩,
   ⟨(dev fun c => { c with net := { c.net with outs := [{ req := req, who := .rae true 0, sent := true, tmo := 0, wwEp := none }], rsps := [rsp] } }),
     0, 0, ({ req := req, who := .rae true 0, sent := true, tmo := 0, wwEp := none }), rsp,
     by decide +kernel⟩,
   ⟨(dev fun c => { c with rae := { c.rae with queue := [5], writing := true } }), 0, by decide +kernel⟩,
   ⟨(dev fun c => c.set F.RAE_STAT_RING_WAIT 1), by decide +kernel⟩,
   ⟨(dev fun c => c.set F.RAE_STAT_STATE 1), by decide +kernel⟩,
   ⟨(dev fun c => { c with rae := { c.rae with zeroing := some 0 }, ch := { c.ch with slots := [slot] } }),
     0, slot, by decide +kernel⟩,
   ⟨(dev fun c => { c.set F.DR_STAT_STATE drFrozen with rae := { c.rae with zeroing := some 0 } }), 0,
     rspFrozen, by decide +kernel⟩,
   ⟨(dev fun c => { (c.set F.RAE_STAT_STATE 2).set F.RAE_STAT_SOURCE 1 with rae := { c.rae with ended := true, drained := true } }),
     by decide +kernel⟩⟩

/-- `Obligations.RepairAnalysisCommandRows`. -/
theorem meets_RepairAnalysisCommandRows :
    (∃ (s : State) (p : Pkt), s.chip.quiet.accepts cmdRaStatus p) ∧
    (∃ (s : State) (p : Pkt), s.chip.quiet.accepts cmdRaRecipeLoad p ∧ s.chip.raeActive = false) ∧
    (∃ (s : State) (p : Pkt) (gs : List Geom), s.chip.quiet.accepts cmdRaRecipeCommit p ∧
      s.chip.raeActive = false ∧ s.chip.recipeTry (pf p.payload 0 4) = .ok gs) ∧
    (∃ (s : State) (p : Pkt) (i : Nat), s.chip.quiet.accepts cmdRaRecipeCommit p ∧ s.chip.raeActive = false ∧
      s.chip.recipeTry (pf p.payload 0 4) = .error i) ∧
    (∃ (s : State) (p : Pkt), s.chip.quiet.accepts cmdRaBegin p ∧ s.chip.raeActive = false ∧
      s.chip.get F.RAE_STAT_STATE ≠ 5 ∧ s.chip.rae.zeroing = none ∧
      (pb p.payload 0 = 0 → s.chip.is F.RAE_STAT_RECIPE_VALID = true) ∧ s.chip.raeAreaBad = false ∧
      s.chip.rae.zeroed = true ∧ s.chip.get F.RAE_STAT_EPOCH < 255) ∧
    (∃ (s : State) (p : Pkt), s.chip.quiet.accepts cmdRaBegin p ∧ s.chip.raeActive = false ∧
      s.chip.get F.RAE_STAT_STATE ≠ 5 ∧ s.chip.rae.zeroing = none ∧
      (pb p.payload 0 = 0 → s.chip.is F.RAE_STAT_RECIPE_VALID = true) ∧ s.chip.raeAreaBad = false ∧
      s.chip.rae.zeroed = false) ∧
    (∃ (s : State) (p : Pkt), s.chip.quiet.accepts cmdRaFinal p ∧ s.chip.get F.RAE_STAT_STATE = 1 ∧
      (∀ k ∈ engines, s.chip.is (F.CAP_PE_CTL_FAT_EN k) = true → s.chip.drained k = true)) ∧
    (∃ (s : State) (p : Pkt), s.chip.quiet.accepts cmdRaEnd p ∧ s.chip.rae.final = none) ∧
    (∃ (s : State) (p : Pkt) (bs : List Byte) (t : Chip), s.chip.quiet.accepts cmdRaCtxRead p ∧
      (s.chip.quiet.slotFor cmdRaCtxRead p).ctxReads (pf p.payload 4 2) (pf p.payload 0 4) [] = ((rspOk, bs), t)) ∧
    (∃ (s : State) (p : Pkt) (bs : List Byte) (t : Chip), s.chip.quiet.accepts cmdRaRingRead p ∧
      s.chip.is F.RAE_OUT_BASE_REMOTE = false ∧
      (s.chip.quiet.slotFor cmdRaRingRead p).recordReads ((List.range (pf p.payload 4 2)).map (fun i => s.chip.ringAddr (pf p.payload 0 4 + i))) [] = ((rspOk, bs), t)) :=
  ⟨⟨(dev id), (pk []), by unfold Chip.accepts; decide +kernel⟩,
   ⟨(dev id), (pk ([0, 0, 1, 0] ++ z 8)), by unfold Chip.accepts; decide +kernel⟩,
   ⟨(dev fun c => recipe c), (pk [7, 0, 0, 0]), ((recipe up).geoms),
     ⟨by unfold Chip.accepts; decide +kernel, by decide +kernel, by rfl⟩⟩,
   ⟨(dev id), (pk [1, 0, 0, 0]), 0, ⟨by unfold Chip.accepts; decide +kernel, by decide +kernel, by rfl⟩⟩,
   ⟨(dev fun c => { c.set F.RAE_OUT_BASE_ADDR 0x10000000 with rae := { c.rae with zeroed := true } }),
     (pk (1 :: z 7)), by unfold Chip.accepts; decide +kernel⟩,
   ⟨(dev fun c => c.set F.RAE_OUT_BASE_ADDR 0x10000000), (pk (1 :: z 7)),
     by unfold Chip.accepts; decide +kernel⟩,
   ⟨(dev fun c => c.set F.RAE_STAT_STATE 1), (pk (z 4)), by unfold Chip.accepts; decide +kernel⟩,
   ⟨(dev id), (pk []), by unfold Chip.accepts; decide +kernel⟩,
   ⟨(dev id), (pk [0, 0, 0, 0, 1, 0, 0, 0]),
     ((((dev id).chip.quiet.slotFor cmdRaCtxRead (pk [0, 0, 0, 0, 1, 0, 0, 0])).ctxReads 1 0 []).1.2),
     ((((dev id).chip.quiet.slotFor cmdRaCtxRead (pk [0, 0, 0, 0, 1, 0, 0, 0])).ctxReads 1 0 []).2),
     ⟨by unfold Chip.accepts; decide +kernel, Prod.ext (Prod.ext (by decide +kernel) rfl) rfl⟩⟩,
   ⟨(dev id), (pk [0, 0, 0, 0, 1, 0, 0, 0]),
     ((((dev id).chip.quiet.slotFor cmdRaRingRead (pk [0, 0, 0, 0, 1, 0, 0, 0])).recordReads [(dev id).chip.ringAddr 0] []).1.2),
     ((((dev id).chip.quiet.slotFor cmdRaRingRead (pk [0, 0, 0, 0, 1, 0, 0, 0])).recordReads [(dev id).chip.ringAddr 0] []).2),
     ⟨by unfold Chip.accepts; decide +kernel, by decide +kernel, Prod.ext (Prod.ext (by decide +kernel) rfl) rfl⟩⟩⟩

/-- `Obligations.FabricRows`. -/
theorem meets_FabricRows :
    (∃ (s : State) (r : Fin 192) (stop : Nat), s.chip.awake = true ∧
      s.chip.stops.find? (fun q => q.1 = r.val ∧ q.2.1 = 2) = some (r.val, 2, stop) ∧
      s.chip.rgState r = rgRun) ∧
    (∃ (s : State) (r : Fin 192) (stop : Nat), s.chip.awake = true ∧ s.chip.rgState r = rgRun ∧
      s.chip.candidates r = [(2, stop)] ∧ s.chip.stopState r stop = ssReady ∧ stop ≠ s.chip.gov r ∧
      s.chip.lg.reload = none) ∧
    (∃ (s : State) (r : Fin 192) (stop : Nat), s.chip.awake = true ∧ s.chip.rgState r = rgRun ∧
      s.chip.candidates r = [(2, stop)] ∧ s.chip.stopState r stop ≠ ssReady) ∧
    (∃ (s : State) (a : Fin 192) (b : Fin 192) (bore : Fin 800) (upper : Bool) (gate : Nat) (k : Nat) (own : Nat) (w : Nat), s.chip.awake = true ∧
      gate = 2 * bore.val + b2n upper ∧ gateKey a b gate = some k ∧ gateKey b a gate = some own ∧
      tfind own (s.chip.rg a).sent = some w ∧ (k < 8 ∨ s.chip.boreMasked (min a b) ((k - 8) / 2) = false) ∧
      s.chip.rgState b = rgRun ∧ tget 0 b s.chip.net.doms % 4 = 0 ∧
      (tget [] k (s.chip.rg b).gates).length < 16) ∧
    (∃ (s : State) (a : Fin 192) (b : Fin 192) (bore : Fin 800) (upper : Bool) (gate : Nat) (k : Nat) (own : Nat) (w : Nat), s.chip.awake = true ∧
      gate = 2 * bore.val + b2n upper ∧ gateKey a b gate = some k ∧ gateKey b a gate = some own ∧
      tfind own (s.chip.rg a).sent = some w ∧ (k < 8 ∨ s.chip.boreMasked (min a b) ((k - 8) / 2) = false) ∧
      (s.chip.rgState b = rgOff ∨ s.chip.rgState b = rgRetired ∨ tget 0 b s.chip.net.doms % 4 ≠ 0)) ∧
    (∃ (s : State) (a : Fin 192) (b : Fin 192) (bore : Fin 800) (upper : Bool) (gate : Nat) (k : Nat) (own : Nat) (w : Nat), s.chip.awake = true ∧
      gate = 2 * bore.val + b2n upper ∧ gateKey a b gate = some k ∧ gateKey b a gate = some own ∧
      tfind own (s.chip.rg a).sent = some w ∧ (k < 8 ∨ s.chip.boreMasked (min a b) ((k - 8) / 2) = false) ∧
      tget 0 b s.chip.net.doms % 4 = 0 ∧
      (s.chip.rgState b = rgHeld ∨ s.chip.rgState b = rgRun ∧ 16 ≤ (tget [] k (s.chip.rg b).gates).length)) ∧
    (∃ (s : State) (r : Fin 192) (lines : BitVec 4), s.chip.awake = true ∧
      (s.chip.rg r).rose &&& lines.toNat = 5 ∧ s.chip.get (F.FAB_RG_CTL_PARTY_EV r) = 15 ∧
      (s.chip.rg r).partyAt = []) ∧
    (∃ (s : State) (v : Word), s.chip.awake = true ∧
      (v.toNat.testBit 3 = false ∨ s.chip.is F.FAB_BCAST_GO = true)) ∧
    (∃ (s : State) (v : Word), s.chip.awake = true ∧ v.toNat.testBit 3 = true ∧
      s.chip.is F.FAB_BCAST_GO = false ∧ s.chip.bcastBad (bits v.toNat 2 0) s.chip.bcastMask = false) ∧
    (∃ (s : State) (r : Fin 192) (v : Word), s.chip.awake = true ∧ bits v.toNat 1 0 ≠ 3 ∧
      1 ≤ bits v.toNat 10 4 ∧ bits v.toNat 10 4 ≤ 80 ∧
      (s.chip.rgState r = rgHeld ∨ s.chip.rgState r = rgOff) ∧ bits v.toNat 1 0 = 1 ∧
      v.toNat.testBit 63 = true) ∧
    (∃ (s : State) (r : Fin 192) (v : Word), s.chip.awake = true ∧ bits v.toNat 3 2 ≠ 3 ∧
      s.chip.is (F.FAB_RG_CAPCTL_ARM r) = false ∧ s.chip.bankState r 15 < 2 ∧ v.toNat.testBit 0 = true ∧
      v.toNat.testBit 1 = false) ∧
    (∃ (s : State) (r : Fin 192) (v : Word), s.chip.awake = true ∧ bits v.toNat 3 2 ≠ 3 ∧
      s.chip.is (F.FAB_RG_CAPCTL_ARM r) = false ∧ v.toNat.testBit 0 = false ∧ v.toNat.testBit 1 = true) ∧
    (∃ (s : State) (r : Fin 192), s.chip.awake = true ∧ s.chip.get (F.FAB_RG_CAPSTAT_CSTATE r) = csArmed ∧
      (s.chip.rg r).capHit = true) ∧
    (∃ (s : State) (r : Fin 192), s.chip.awake = true ∧
      s.chip.get (F.FAB_RG_CAPSTAT_CSTATE r) = csTriggered ∧ (s.chip.rg r).capLeft = 0 ∧
      1024 ≤ (s.chip.rg r).capSeen) ∧
    (∃ (s : State) (v : Word), s.chip.awake = true ∧ bits v.toNat 2 0 = 0 ∧
      (spPins v.toNat).all (fun p => decide (p ≤ 95)) = true ∧
      (∀ i < 32, s.chip.get (F.SPORT_CTL_MODE i) = 0)) ∧
    (∃ (s : State) (j : Fin 32), s.chip.awake = true ∧ s.chip.is (F.SPORT_CTL_HOST j) = true ∧
      (s.chip.sport j).tx.length < 64) ∧
    (∃ (s : State) (j : Fin 32) (b : Nat) (q : List Nat), s.chip.awake = true ∧
      s.chip.is (F.SPORT_CTL_HOST j) = true ∧ (s.chip.sport j).rx = b :: q) ∧
    (∃ (s : State) (j : Fin 32), s.chip.awake = true ∧ s.chip.get (F.SPORT_CTL_MODE j) ≠ 0 ∧
      (s.chip.sport j).rx.length < 64) ∧
    (∃ (s : State) (j : Fin 32), s.chip.awake = true ∧ s.chip.get (F.SPORT_CTL_MODE j) ≠ 0 ∧
      64 ≤ (s.chip.sport j).rx.length) ∧
    (∃ (s : State) (j : Fin 32) (w : Nat) (q : List Nat), s.chip.awake = true ∧
      (s.chip.sport j).tx = w :: q ∧ s.chip.get (F.SPORT_CTL_MODE j) ≠ 0) :=
  ⟨⟨(dev fun c => { running 0 c with stops := [(0, 2, 3)] }), 0, 3, by decide +kernel⟩,
   ⟨(dev fun c => (ready 0 3 c).setRg 0 fun g => { g with pendC := some 3 }), 0, 3, by decide +kernel⟩,
   ⟨(dev fun c => (running 0 c).setRg 0 fun g => { g with pendC := some 3 }), 0, 3, by decide +kernel⟩,
   ⟨(dev fun c => (running 1 c).setRg 0 fun g => { g with sent := [(2, 5)] }), 0, 1, 0, false, 0, 1, 2, 5,
     by decide +kernel⟩,
   ⟨(dev fun c => (c.set (F.FAB_RG_STAT_RSTATE 1) rgOff).setRg 0 fun g => { g with sent := [(2, 5)] }), 0, 1,
     0, false, 0, 1, 2, 5, by decide +kernel⟩,
   ⟨(dev fun c => (c.set (F.FAB_RG_STAT_RSTATE 1) rgHeld).setRg 0 fun g => { g with sent := [(2, 5)] }), 0,
     1, 0, false, 0, 1, 2, 5, by decide +kernel⟩,
   ⟨(dev fun c => ((running 0 c).set (F.FAB_RG_CTL_PARTY_EV 0) 15).setRg 0 fun g => { g with rose := 5 }), 0,
     7, by decide +kernel⟩,
   ⟨(dev id), 0, by decide +kernel⟩,
   ⟨(dev fun c => (ready 0 0 c).set (F.FAB_BCAST_MASK_MASK 0) 1), 8, by decide +kernel⟩,
   ⟨(dev id), 0, 0x8000000000000501, by decide +kernel⟩,
   ⟨(dev id), 0, 1, by decide +kernel⟩,
   ⟨(dev id), 0, 2, by decide +kernel⟩,
   ⟨(dev fun c => (c.set (F.FAB_RG_CAPSTAT_CSTATE 0) csArmed).setRg 0 fun g => { g with capHit := true }), 0,
     by decide +kernel⟩,
   ⟨(dev fun c => (c.set (F.FAB_RG_CAPSTAT_CSTATE 0) csTriggered).setRg 0 fun g => { g with capSeen := 1024 }),
     0, by decide +kernel⟩,
   ⟨(dev id), 0, by decide +kernel⟩,
   ⟨(dev fun c => (c.set (F.SPORT_CTL_HOST 31) 1).setSport 31 fun p => { p with tx := List.replicate 63 0 }),
     31, by decide +kernel⟩,
   ⟨(dev fun c => (c.set (F.SPORT_CTL_HOST 31) 1).setSport 31 fun p => { p with rx := [7] }), 31, 7, ([]),
     by decide +kernel⟩,
   ⟨(dev fun c => (c.set (F.SPORT_CTL_MODE 31) 1).setSport 31 fun p => { p with rx := List.replicate 63 0 }),
     31, by decide +kernel⟩,
   ⟨(dev fun c => (c.set (F.SPORT_CTL_MODE 31) 1).setSport 31 fun p => { p with rx := List.replicate 64 0 }),
     31, by decide +kernel⟩,
   ⟨(dev fun c => (c.set (F.SPORT_CTL_MODE 31) 1).setSport 31 fun p => { p with tx := [0xFF] }), 31, 0xFF,
     ([]), by decide +kernel⟩⟩

/-- `Obligations.FabricCommandRows`. -/
theorem meets_FabricCommandRows :
    (∃ (s : State) (p : Pkt) (r : Nat), s.chip.quiet.accepts cmdFabStatus p ∧ r = pf p.payload 0 4 ∧
      s.chip.rgState r ≠ rgRetired) ∧
    (∃ (s : State) (p : Pkt) (j : Nat), s.chip.quiet.accepts cmdFabProbe p ∧ j = pb p.payload 0 ∧
      s.chip.rgState (pb p.payload 1) ≠ rgRetired) ∧
    (∃ (s : State) (p : Pkt) (r : Nat), s.chip.quiet.accepts cmdFabCapArm p ∧ r = pb p.payload 0 ∧
      s.chip.rgState r = rgRun ∧ s.chip.capBusy r = false ∧ s.chip.bankState r 15 < 2) ∧
    (∃ (s : State) (p : Pkt) (r : Nat), s.chip.quiet.accepts cmdFabCapStop p ∧ r = pf p.payload 0 4 ∧
      s.chip.rgState r ≠ rgRetired) ∧
    (∃ (s : State) (p : Pkt) (r : Nat), s.chip.quiet.accepts cmdFabCapRead p ∧ r = pb p.payload 0 ∧
      s.chip.rgState r ≠ rgRetired ∧ s.chip.get (F.FAB_RG_CAPSTAT_CSTATE r) = csDone) :=
  ⟨⟨(dev id), (pk (191 :: z 3)), 191, by unfold Chip.accepts; decide +kernel⟩,
   ⟨(dev id), (pk (z 4)), 0, by unfold Chip.accepts; decide +kernel⟩,
   ⟨(dev fun c => running 191 c), (pk (191 :: z 23)), 191, by unfold Chip.accepts; decide +kernel⟩,
   ⟨(dev id), (pk (191 :: z 3)), 191, by unfold Chip.accepts; decide +kernel⟩,
   ⟨(dev fun c => c.set (F.FAB_RG_CAPSTAT_CSTATE 0) csDone), (pk [0, 0, 0, 0, 0xFF, 1, 0, 0]), 0,
     by unfold Chip.accepts; decide +kernel⟩⟩

/-- `Obligations.ConfigurationRows`. -/
theorem meets_ConfigurationRows :
    (∃ (s : State) (r : Fin 192) (p : Paging) (t : Nat × Nat), s.chip.awake = true ∧
      s.chip.cfg.page = some p ∧ s.chip.rgState r = rgRun ∧ p.toMark.find? (fun t => t.1 = r.val) = some t ∧
      (s.chip.rg r).pendC ≠ some t.2 ∧ s.chip.lg.reload = none ∧ s.chip.governs r t.2 = false) ∧
    (∃ (s : State) (p : Paging) (id : Nat) (v : BitVec 192) (f : BitVec 192) (t : Chip), s.chip.awake = true ∧
      s.chip.cfg.page = some p ∧ p.toMark = [] ∧ p.why = .command id ∧
      s.chip.quiet.slotRead p.slot = (none, t) ∧
      (∀ x ∈ p.left, v.toNat.testBit x.1 = true ∧ f.toNat.testBit x.1 = false)) ∧
    (∃ (s : State) (p : Paging) (st : Nat) (dt : Nat) (t : Chip), s.chip.awake = true ∧
      s.chip.cfg.page = some p ∧ p.toMark = [] ∧ s.chip.quiet.slotRead p.slot = (some (st, dt), t)) ∧
    (∃ (s : State) (l : Load), s.chip.awake = true ∧ s.chip.cfg.load = some l ∧ l.final = true ∧ l.kind = 1 ∧
      l.golden = false ∧ l.filled = [] ∧ l.targets = [] ∧ l.slot = none ∧ l.more = []) ∧
    (∃ (s : State) (r : Fin 192) (id : Nat) (k : Nat) (re : Bool), s.chip.awake = true ∧
      s.chip.cfg.rewrite = some (id, k, r.val, re) ∧ s.chip.lg.reload = none ∧ s.chip.rgState r ≠ rgRetired) ∧
    (∃ (s : State) (r : Fin 192) (id : Nat) (k : Nat) (re : Bool), s.chip.awake = true ∧
      s.chip.cfg.rewrite = some (id, k, r.val, re) ∧ s.chip.lg.reload = none ∧ s.chip.rgState r = rgRetired) ∧
    (∃ (s : State) (l : Load), s.chip.awake = true ∧ s.chip.cfg.load = some l ∧ l.flash = false ∧
      l.dram = false ∧ l.final = false ∧ l.slot = none ∧ l.complete = false) ∧
    (∃ (s : State) (l : Load), s.chip.awake = true ∧ s.chip.cfg.load = some l ∧ l.flash = false ∧
      l.dram = false ∧ l.final = false ∧ l.slot = none ∧ l.complete = true) ∧
    (∃ (s : State) (l : Load) (t : List Byte), s.chip.awake = true ∧ s.chip.cfg.load = some l ∧
      l.flash = true ∧ l.table ≠ 0 ∧ tableOk t = true) ∧
    (∃ (s : State) (l : Load) (t : List Byte), s.chip.awake = true ∧ s.chip.cfg.load = some l ∧
      l.flash = true ∧ l.table ≠ 0 ∧ tableOk t = false ∧ l.table = 1) ∧
    (∃ (s : State) (l : Load) (t : List Byte), s.chip.awake = true ∧ s.chip.cfg.load = some l ∧
      l.flash = true ∧ l.table ≠ 0 ∧ tableOk t = false ∧ l.table ≠ 1) ∧
    (∃ (s : State) (l : Load), s.chip.awake = true ∧ s.chip.cfg.load = some l ∧ l.flash = true ∧
      l.table = 0 ∧ l.final = false ∧ l.limit = none) ∧
    (∃ (s : State) (l : Load) (n : Nat), s.chip.awake = true ∧ s.chip.cfg.load = some l ∧ l.flash = true ∧
      l.table = 0 ∧ l.final = false ∧ l.limit = some n) ∧
    (∃ (s : State) (ni : Fin 288) (v : Wide) (q : Nat) (t : Nat) (k : Nat) (a : Nat), s.chip.awake = true ∧
      96 ≤ ni.val ∧ q = ni.val - 96 ∧ t = bits v.toNat 7 0 ∧ k = bits v.toNat 23 12 ∧
      a = bits v.toNat 111 64 ∧ s.chip.cfg.page = none ∧ s.chip.cfg.waiting = [] ∧
      s.chip.cfg.grants.any (fun g => g.req = q && decide (g.first ≤ t) && decide (t ≤ g.last) && g.stops.testBit (bits v.toNat 10 8) && decide (g.slotLo ≤ k) && decide (k ≤ g.slotHi)) = true ∧
      t < 192 ∧ s.chip.slotState k = slValid ∧ a % 8 = 0 ∧ 0x10000000000 + q * 0x100000 ≤ a ∧
      a + 8 ≤ 0x10000000000 + q * 0x100000 + 0x100000 ∧
      (s.chip.rgState t = rgRun ∨ s.chip.rgState t = rgHeld) ∧
      s.chip.vmapMeets t (s.chip.slotVmap k) = false) ∧
    (∃ (s : State) (ni : Fin 288) (v : Wide) (q : Nat) (t : Nat) (k : Nat) (a : Nat), s.chip.awake = true ∧
      96 ≤ ni.val ∧ q = ni.val - 96 ∧ t = bits v.toNat 7 0 ∧ k = bits v.toNat 23 12 ∧
      a = bits v.toNat 111 64 ∧ s.chip.cfg.page = none ∧ s.chip.cfg.waiting = [] ∧
      s.chip.cfg.grants.any (fun g => g.req = q && decide (g.first ≤ t) && decide (t ≤ g.last) && g.stops.testBit (bits v.toNat 10 8) && decide (g.slotLo ≤ k) && decide (k ≤ g.slotHi)) = true ∧
      t < 192 ∧ s.chip.slotState k = slValid ∧ a % 8 = 0 ∧ 0x10000000000 + q * 0x100000 ≤ a ∧
      a + 8 ≤ 0x10000000000 + q * 0x100000 + 0x100000 ∧
      (s.chip.rgState t = rgRun ∨ s.chip.rgState t = rgHeld) ∧ s.chip.vmapMeets t (s.chip.slotVmap k) = true) ∧
    (∃ (s : State) (ni : Fin 288), s.chip.awake = true ∧ ni.val < 96) :=
  ⟨⟨(dev fun c => { running 0 c with cfg := { c.cfg with page := some paging } }), 0, paging, ((0, 5)),
     by decide +kernel⟩,
   ⟨(dev fun c => { c with cfg := { c.cfg with page := some { paging with toMark := [], left := [(0, 5)] } } }),
     ({ paging with toMark := [], left := [(0, 5)] }), 0, 1, 0,
     (((dev fun c => { c with cfg := { c.cfg with page := some { paging with toMark := [], left := [(0, 5)] } } }).chip.quiet.slotRead ({ paging with toMark := [], left := [(0, 5)] } : Paging).slot).2),
     ⟨by decide +kernel, by decide +kernel, by decide +kernel, by decide +kernel, fst_eq (by decide +kernel), by decide +kernel⟩⟩,
   ⟨(dev fun c => { c.set F.DR_STAT_STATE drFrozen with cfg := { c.cfg with page := some { paging with toMark := [] } } }),
     ({ paging with toMark := [] }), rspFrozen.status.1, rspFrozen.status.2,
     (((dev fun c => { c.set F.DR_STAT_STATE drFrozen with cfg := { c.cfg with page := some { paging with toMark := [] } } }).chip.quiet.slotRead ({ paging with toMark := [] } : Paging).slot).2),
     ⟨by decide +kernel, by decide +kernel, by decide +kernel, fst_eq (by decide +kernel)⟩⟩,
   ⟨(dev fun c => { c with cfg := { c.cfg with load := some { load with final := true } } }),
     ({ load with final := true }), by decide +kernel⟩,
   ⟨(dev fun c => { c with cfg := { c.cfg with rewrite := some (0, 0, 0, false) } }), 0, 0, 0, false,
     by decide +kernel⟩,
   ⟨(dev fun c => { c.set (F.FAB_RG_STAT_RSTATE 0) rgRetired with cfg := { c.cfg with rewrite := some (0, 0, 0, false) } }),
     0, 0, 0, false, by decide +kernel⟩,
   ⟨(dev fun c => { c with cfg := { c.cfg with load := some load } }), load, by decide +kernel⟩,
   ⟨(dev fun c => { c with cfg := { c.cfg with load := some { load with header := z 256 } } }),
     ({ load with header := z 256 }), by decide +kernel⟩,
   ⟨(dev fun c => { c with cfg := { c.cfg with load := some { load with flash := true, table := 1 } } }),
     ({ load with flash := true, table := 1 }),
     ([0x54, 0x53, 0x4C, 0x54, 1, 0, 8] ++ z 53 ++ natLe 4 (crc32c ([0x54, 0x53, 0x4C, 0x54, 1, 0, 8] ++ z 53))),
     by decide +kernel⟩,
   ⟨(dev fun c => { c with cfg := { c.cfg with load := some { load with flash := true, table := 1 } } }),
     ({ load with flash := true, table := 1 }), ([]), by decide +kernel⟩,
   ⟨(dev fun c => { c with cfg := { c.cfg with load := some { load with flash := true, table := 2 } } }),
     ({ load with flash := true, table := 2 }), ([]), by decide +kernel⟩,
   ⟨(dev fun c => { c with cfg := { c.cfg with load := some { load with flash := true } } }),
     ({ load with flash := true }), by decide +kernel⟩,
   ⟨(dev fun c => { c with cfg := { c.cfg with load := some { load with flash := true, limit := some 300 } } }),
     ({ load with flash := true, limit := some 300 }), 300, by decide +kernel⟩,
   ⟨(dev fun c => let d := library (running 0 c); { d with cfg := { d.cfg with grants := [{ req := 0, first := 0, last := 0, stops := 1, slotLo := 0, slotHi := 0 }] } }),
     96, (2 ^ 104), 0, 0, 0, (2 ^ 40), by decide +kernel⟩,
   ⟨(dev fun c => let d := (running 0 c).set (F.FAB_VMASK_MASK 0 0) 1; { d.set F.CFG_LIB_SLOTS_SLOTS 1 with cfg := { d.cfg with slots := [(0, { st := slValid, vmap := 1, digest := [] })], grants := [{ req := 0, first := 0, last := 0, stops := 1, slotLo := 0, slotHi := 0 }] } }),
     96, (2 ^ 104), 0, 0, 0, (2 ^ 40), by decide +kernel⟩,
   ⟨(dev id), 0, by decide +kernel⟩⟩

/-- `Obligations.ConfigurationCommandRows`. -/
theorem meets_ConfigurationCommandRows :
    (∃ (s : State) (p : Pkt), s.chip.quiet.accepts cmdCfgStatus p) ∧
    (∃ (s : State) (p : Pkt), s.chip.quiet.accepts cmdCfgLoadBegin p ∧
      s.chip.loadState (pb p.payload 0) (pb p.payload 1) = none) ∧
    (∃ (s : State) (p : Pkt) (l : Load), s.chip.quiet.accepts cmdCfgLoadData p ∧ s.chip.cfg.load = some l ∧
      l.flash = false ∧ l.dram = false ∧ l.final = false ∧ l.ending = false ∧ pf p.payload 0 4 = l.next ∧
      l.slot = none) ∧
    (∃ (s : State) (p : Pkt) (l : Load) (i : Nat), s.chip.quiet.accepts cmdCfgLoadData p ∧
      s.chip.cfg.load = some l ∧ l.flash = false ∧ l.dram = false ∧ l.final = false ∧ l.ending = false ∧
      pf p.payload 0 4 = l.next ∧ l.slot = some i) ∧
    (∃ (s : State) (p : Pkt) (l : Load), s.chip.quiet.accepts cmdCfgLoadEnd p ∧ s.chip.cfg.load = some l ∧
      l.flash = false ∧ l.dram = false ∧ l.final = false ∧ l.ending = false ∧ l.slot = none ∧ l.kind ≠ 0 ∧
      pf l.header 18 2 < l.seg ∧ l.buf = [] ∧ l.next = pf l.header 20 4) ∧
    (∃ (s : State) (p : Pkt) (a : Nat) (n : Nat) (t : Chip), s.chip.quiet.accepts cmdCfgLoadDram p ∧
      a = pf p.payload 0 8 ∧ n = pf p.payload 8 4 ∧
      s.chip.loadState (pb p.payload 12) (pb p.payload 13) = none ∧
      overlaps (a, a + n) s.chip.libRange = false ∧ 256 ≤ n ∧
      (s.chip.quiet.slotFor cmdCfgLoadDram p).rowReads a n = (rspOk, t)) ∧
    (∃ (s : State) (p : Pkt) (k : Nat), s.chip.quiet.accepts cmdCfgPage p ∧ k = pf p.payload 2 2 ∧
      s.chip.dstate = stUser ∧ k < s.chip.get F.CFG_LIB_SLOTS_SLOTS ∧ s.chip.slotState k = slValid ∧
      (∀ r ∈ maskRegions (pf p.payload 8 24), s.chip.vmapMeets r (s.chip.slotVmap k) = false)) ∧
    (∃ (s : State) (p : Pkt), s.chip.quiet.accepts cmdCfgDraw p ∧
      s.chip.bcastBad (pb p.payload 0) (maskRegions (pf p.payload 8 24)) = false) ∧
    (∃ (s : State) (p : Pkt) (k : Nat) (r : Nat), s.chip.quiet.accepts cmdCfgRewriteSlot p ∧
      r = pb p.payload 0 ∧ k = pf p.payload 2 2 ∧ s.chip.loadState 2 r = none ∧
      k < s.chip.get F.CFG_LIB_SLOTS_SLOTS ∧ s.chip.slotState k = slValid ∧
      s.chip.vmapMeets r (s.chip.slotVmap k) = false) ∧
    (∃ (s : State) (p : Pkt), s.chip.quiet.accepts cmdCfgLibStatus p) ∧
    (∃ (s : State) (p : Pkt), s.chip.quiet.accepts cmdCfgLibFree p ∧
      (∀ i < pf p.payload 2 2, s.chip.slotReferenced (pf p.payload 0 2 + i) = false ∧ s.chip.slotState (pf p.payload 0 2 + i) ≠ slFilling ∧ s.chip.slotState (pf p.payload 0 2 + i) ≠ slPending)) ∧
    (∃ (s : State) (p : Pkt), s.chip.quiet.accepts cmdCfgXspi p ∧
      (∀ l : Load, s.chip.cfg.load = some l → l.flash = false)) :=
  ⟨⟨(dev id), (pk []), by unfold Chip.accepts; decide +kernel⟩,
   ⟨(dev id), (pk (z 264)), by unfold Chip.accepts; decide +kernel⟩,
   ⟨(dev fun c => { c with cfg := { c.cfg with load := some load } }), (pk (z 9)), load,
     by unfold Chip.accepts; decide +kernel⟩,
   ⟨(dev fun c => { c with cfg := { c.cfg with load := some { load with slot := some 0 } } }), (pk (z 9)),
     ({ load with slot := some 0 }), 0, by unfold Chip.accepts; decide +kernel⟩,
   ⟨(dev fun c => { c with cfg := { c.cfg with load := some load } }), (pk []), load,
     by unfold Chip.accepts; decide +kernel⟩,
   ⟨(dev id), (pk (z 8 ++ [0, 1, 0, 0] ++ z 4)), 0, 256,
     ((((dev id).chip.quiet.slotFor cmdCfgLoadDram (pk (z 8 ++ [0, 1, 0, 0] ++ z 4))).rowReads 0 256).2),
     ⟨by unfold Chip.accepts; decide +kernel, by decide +kernel, by decide +kernel, by decide +kernel, by decide +kernel, by decide +kernel, Prod.ext (by decide +kernel) rfl⟩⟩,
   ⟨(dev fun c => library c), (pk (z 8 ++ [1] ++ z 23)), 0, by unfold Chip.accepts; decide +kernel⟩,
   ⟨(dev fun c => ready 0 0 c), (pk (z 8 ++ [1] ++ z 23)), by unfold Chip.accepts; decide +kernel⟩,
   ⟨(dev fun c => library c), (pk (z 4)), 0, 0, by unfold Chip.accepts; decide +kernel⟩,
   ⟨(dev fun c => library c), (pk [0, 0, 1, 0]), by unfold Chip.accepts; decide +kernel⟩,
   ⟨(dev fun c => library c), (pk [0, 0, 1, 0]), by unfold Chip.accepts; decide +kernel⟩,
   ⟨(dev id), (pk (z 16)), by unfold Chip.accepts; decide +kernel⟩⟩

/-- `Obligations.SecurityRows`. -/
theorem meets_SecurityRows :
    (∃ (s : State) (k : Slot), s.chip.awake = true ∧ s.chip.runningCmd 0x0A 0x09 (fun _ => true) = some k) ∧
    (∃ (s : State) (p : Pkt), s.chip.quiet.accepts cmdSecStatus p) ∧
    (∃ (s : State) (p : Pkt), s.chip.quiet.accepts cmdSecLcAdvance p ∧ s.chip.lc = lcFactory ∧
      pf p.payload 0 4 = lcProvisioned ∧ s.chip.cfg.burns = [] ∧ s.chip.get F.SEC_STAT_ROOTKEY = 1 ∧
      (s.chip.get F.SEC_STAT_SLOT_PROG).testBit 0 = true) ∧
    (∃ (s : State) (p : Pkt), s.chip.quiet.accepts cmdSecNonce p) ∧
    (∃ (s : State) (p : Pkt), s.chip.quiet.accepts cmdSecReqData p) ∧
    (∃ (s : State) (p : Pkt) (k : Nat), s.chip.quiet.accepts cmdSecKeyProg p ∧ s.chip.lc ≠ lcField ∧
      k = pb p.payload 0 ∧ (s.chip.get F.SEC_STAT_SLOT_PROG).testBit k = false ∧
      (s.chip.get F.SEC_STAT_SLOT_REV).testBit k = false ∧ s.chip.cfg.burns = []) ∧
    (∃ (s : State) (p : Pkt), s.chip.quiet.accepts cmdSecKeyRevoke p) ∧
    (∃ (s : State) (p : Pkt), s.chip.quiet.accepts cmdSecSvnRaise p) ∧
    (∃ (s : State) (p : Pkt), s.chip.quiet.accepts cmdSecRma p) ∧
    (∃ (s : State) (p : Pkt), s.chip.quiet.accepts cmdSecRootkeyProg p ∧ s.chip.get F.SEC_STAT_ROOTKEY = 0 ∧
      s.chip.cfg.burns = []) ∧
    (∃ (s : State) (p : Pkt), s.chip.quiet.accepts cmdSecAttest p) ∧
    (∃ (s : State) (p : Pkt), s.chip.quiet.accepts cmdSecBlobRead p) :=
  ⟨⟨(dev fun c => { c with ch := { c.ch with slots := [{ slot with cls := 0x0A, op := 9 }] } }),
     ({ slot with cls := 0x0A, op := 9 }), by decide +kernel⟩,
   ⟨(dev id), (pk []), by unfold Chip.accepts; decide +kernel⟩,
   ⟨(dev fun c => ((c.set F.SEC_STAT_LC lcFactory).set F.SEC_STAT_ROOTKEY 1).set F.SEC_STAT_SLOT_PROG 1),
     (pk [2, 0, 0, 0]), by unfold Chip.accepts; decide +kernel⟩,
   ⟨(dev id), (pk []), by unfold Chip.accepts; decide +kernel⟩,
   ⟨(dev id), (pk (z 9)), by unfold Chip.accepts; decide +kernel⟩,
   ⟨(dev id), (pk (3 :: z 47)), 3, by unfold Chip.accepts; decide +kernel⟩,
   ⟨(dev id), (pk []), by unfold Chip.accepts; decide +kernel⟩,
   ⟨(dev id), (pk []), by unfold Chip.accepts; decide +kernel⟩,
   ⟨(dev fun c => c.set F.SEC_STAT_LC lcField), (pk []), by unfold Chip.accepts; decide +kernel⟩,
   ⟨(dev fun c => c.set F.SEC_STAT_LC lcFactory), (pk (z 32)), by unfold Chip.accepts; decide +kernel⟩,
   ⟨(dev id), (pk (z 32)), by unfold Chip.accepts; decide +kernel⟩,
   ⟨(dev fun c => { c with cfg := { c.cfg with report := z 16 } }), (pk (z 8 ++ [16, 0])),
     by unfold Chip.accepts; decide +kernel⟩⟩

/-- `Obligations.ScratchpadRows`. -/
theorem meets_ScratchpadRows :
    (∃ (s : State) (r : Fin 192) (b : Fin 16) (k : BitVec 12), s.chip.awake = true ∧
      s.chip.rgState r = rgRun ∧ s.chip.is (F.SP_PWR_STAT_LEASE r b) = false ∧
      s.chip.bankState r b = bankOn ∧ s.chip.is (F.SP_PWR_STAT_BUSY r b) = false ∧
      s.chip.capHolds r (16 * k.toNat + b) = false ∧
      s.chip.sp.bad.contains (spAddr r (16 * k.toNat + b)) = false) ∧
    (∃ (s : State) (r : Fin 192) (b : Fin 16), s.chip.awake = true ∧ s.chip.rgState r = rgRun ∧
      s.chip.is (F.SP_PWR_STAT_LEASE r b) = false ∧ s.chip.is (F.SP_PWR_STAT_BUSY r b) = false ∧
      s.chip.bankState r b ≠ bankOn) ∧
    (∃ (s : State) (r : Fin 192) (v : Word), s.chip.awake = true ∧
      (∀ b < 16, bits v.toNat (2 * b + 1) (2 * b) ≠ 3) ∧ s.chip.capKeeps r (bits v.toNat 31 30) = false) ∧
    (∃ (s : State) (r : Fin 192) (b : Fin 16), s.chip.awake = true ∧
      s.chip.is (F.SP_PWR_STAT_BUSY r b) = true ∧ s.chip.bankState r b = bankOn ∧
      tget 0 (16 * r.val + b) s.chip.sp.goal = bankRet) ∧
    (∃ (s : State) (r : Fin 192) (b : Fin 16), s.chip.awake = true ∧
      s.chip.is (F.SP_PWR_STAT_BUSY r b) = true ∧ tget 0 (16 * r.val + b) s.chip.sp.goal = bankOff) ∧
    (∃ (s : State) (r : Fin 192) (b : Fin 16), s.chip.awake = true ∧
      s.chip.is (F.SP_PWR_STAT_LEASE r b) = true ∧ tfind (16 * r.val + b) s.chip.sp.remap = none) ∧
    (∃ (s : State) (r : Fin 192) (b : Fin 16) (p : Nat), s.chip.awake = true ∧
      s.chip.is (F.SP_PWR_STAT_LEASE r b) = true ∧ tfind (16 * r.val + b) s.chip.sp.remap = some p) :=
  ⟨⟨(dev fun c => running 191 c), 191, 15, 0xFFF, by decide +kernel⟩,
   ⟨(dev fun c => (running 191 c).set (F.SP_PWR_STAT_STATE 191 15) bankRet), 191, 15, by decide +kernel⟩,
   ⟨(dev id), 0, 0, by decide +kernel⟩,
   ⟨(dev fun c => { c.set (F.SP_PWR_STAT_BUSY 0 0) 1 with sp := { c.sp with goal := [(0, bankRet)] } }), 0,
     0, by decide +kernel⟩,
   ⟨(dev fun c => { c.set (F.SP_PWR_STAT_BUSY 0 0) 1 with sp := { c.sp with goal := [(0, bankOff)] } }), 0,
     0, by decide +kernel⟩,
   ⟨(dev fun c => c.set (F.SP_PWR_STAT_LEASE 0 0) 1), 0, 0, by decide +kernel⟩,
   ⟨(dev fun c => { c.set (F.SP_PWR_STAT_LEASE 0 0) 1 with sp := { c.sp with remap := [(0, 0)] } }), 0, 0, 0,
     by decide +kernel⟩⟩

/-- `Obligations.ScratchpadCommandRows`. -/
theorem meets_ScratchpadCommandRows :
    (∃ (s : State) (p : Pkt) (r : Nat), s.chip.quiet.accepts cmdSpStatus p ∧ r = pf p.payload 0 4 ∧
      s.chip.rgnRefusal r = none) ∧
    (∃ (s : State) (p : Pkt) (r : Nat), s.chip.quiet.accepts cmdSpPower p ∧ r = pb p.payload 0 ∧
      s.chip.rgnRefusal r = none ∧
      (∀ b ∈ banks, (pf p.payload 2 2).testBit b = true → s.chip.bankState r b ≠ bankGone) ∧
      s.chip.capKeeps r (pb p.payload 1) = false) ∧
    (∃ (s : State) (p : Pkt) (r : Nat), s.chip.quiet.accepts cmdSpColmapRead p ∧ r = pf p.payload 0 4 ∧
      s.chip.rgnRefusal r = none) :=
  ⟨⟨(dev id), (pk (191 :: z 3)), 191, by unfold Chip.accepts; decide +kernel⟩,
   ⟨(dev id), (pk (191 :: z 7)), 191, by unfold Chip.accepts; decide +kernel⟩,
   ⟨(dev id), (pk (191 :: z 3)), 191, by unfold Chip.accepts; decide +kernel⟩⟩

/-- `Obligations.DramRows`. -/
theorem meets_DramRows :
    (∃ (s : State) (busy : List (BitVec 8)) (p : DrPick), s.chip.awake = true ∧
      s.chip.quiet.drChoose busy = some p) ∧
    (∃ (s : State) (busy : List (BitVec 8)), s.chip.awake = true ∧ s.chip.quiet.drChoose busy = none) ∧
    (∃ (s : State) (w : DrWrite), s.chip.awake = true ∧ s.chip.drState = drReady ∧
      s.chip.is F.DR_STAT_CATCHUP = false ∧ s.chip.get F.DR_STAT_OWED < s.chip.drP ∧ s.chip.dr.thaw = none ∧
      s.chip.dr.freq = none ∧ s.chip.dr.rq = [] ∧ s.chip.dr.wq = [w] ∧ w.rowOr = false ∧ s.chip.dr.bad = []) ∧
    (∃ (s : State) (q : DrRead) (ni : Nat) (idx : Nat) (ep : Nat), s.chip.awake = true ∧
      s.chip.drState = drReady ∧ s.chip.is F.DR_STAT_CATCHUP = false ∧
      s.chip.get F.DR_STAT_OWED < s.chip.drP ∧ s.chip.dr.thaw = none ∧ s.chip.dr.freq = none ∧
      s.chip.dr.rq = [q] ∧ s.chip.dr.wq = [] ∧ s.chip.is F.DR_STAT_DRAINING = false ∧
      q.net = some (ni, idx, ep) ∧ s.chip.dr.bad = []) ∧
    (∃ (s : State) (a : BitVec 33), s.chip.awake = true ∧ s.chip.quiet.drRefusal (rowBase a.toNat) = none ∧
      s.chip.dr.rq.length < 256) ∧
    (∃ (s : State), s.chip.awake = true ∧ s.chip.drState = drFrozen) ∧
    (∃ (s : State) (ni : Fin 288) (idx : Fin 512) (perr : Bool) (q : NReq) (d : Chip), s.chip.awake = true ∧
      s.chip.quiet.inFlight ni idx = some q ∧ s.chip.quiet.firstOf q = true ∧ placeOf q.addr = .dram ∧
      q.kind ≤ 1 ∧ s.chip.domState domDram = 0 ∧ s.chip.routeOk q.ni (niOf q.addr) = true ∧
      s.chip.quiet.drTake q perr = some d) ∧
    (∃ (s : State) (busy : List (BitVec 8)) (f : GranFlaws) (i : Instr) (perr : Bool), s.chip.awake = true ∧
      (i, perr) ∈ [(.refreshDone, false), (.dramRowAccessDone busy (some .refresh) f, true)] ∧
      s.chip.get F.DR_STAT_OWED ≠ 0 ∧ s.chip.get F.DR_STAT_OWED ≤ 8 ∧ s.chip.quiet.drMayRefresh = true) ∧
    (∃ (s : State), s.chip.awake = true ∧ s.chip.is F.DR_STAT_CATCHUP = false ∧
      s.chip.get F.DR_STAT_OWED < s.chip.drP ∧ s.chip.drState = drReady ∧
      (s.chip.dr.rq ≠ [] ∨ s.chip.dr.wq ≠ [])) ∧
    (∃ (s : State) (busy : List (BitVec 8)) (f : GranFlaws) (k : Fin 4) (i : Instr) (perr : Bool), s.chip.awake = true ∧
      (i, perr) ∈ [(.rankPowerDown k, false), (.dramRowAccessDone busy (some (.powerDown k)) f, true)] ∧
      s.chip.get F.DR_CTL_PD_TIMER ≠ 0 ∧ s.chip.drState = drReady ∧
      (∀ q ∈ s.chip.dr.rq, drBank q.addr / 64 ≠ k.val) ∧ (∀ w ∈ s.chip.dr.wq, drBank w.addr / 64 ≠ k.val) ∧
      (s.chip.get F.DR_STAT_PD).testBit k = false) ∧
    (∃ (s : State) (busy : List (BitVec 8)) (f : GranFlaws) (i : Instr) (perr : Bool) (id : Nat) (fr : Nat), s.chip.awake = true ∧
      (i, perr) ∈ [(.freqRelocked, false), (.dramRowAccessDone busy (some .selfExit) f, true)] ∧
      s.chip.dr.freq = some (id, fr, false) ∧ s.chip.drState = drSelf) ∧
    (∃ (s : State) (id : Nat) (flush : Bool), s.chip.awake = true ∧ s.chip.dr.thaw = some (id, flush, 0, 0) ∧
      s.chip.drState ≠ drFrozen) :=
  ⟨⟨(dev fun c => { c.set F.DR_STAT_STATE drReady with dr := { c.dr with wq := [wr] } }), ([]), (.write wr),
     by decide +kernel⟩,
   ⟨(dev fun c => c.set F.DR_STAT_OWED 1), ([]), by decide +kernel⟩,
   ⟨(dev fun c => { c.set F.DR_STAT_STATE drReady with dr := { c.dr with wq := [wr] } }), wr,
     by decide +kernel⟩,
   ⟨(dev fun c => { c.set F.DR_STAT_STATE drReady with dr := { c.dr with rq := [rd] } }), rd, 0, 0, 0,
     by decide +kernel⟩,
   ⟨(dev id), 0x1FFFFFFF0, by decide +kernel⟩,
   ⟨(dev fun c => c.set F.DR_STAT_STATE drFrozen), by decide +kernel⟩,
   (by obtain ⟨d, hd⟩ := Option.isSome_iff_exists.mp (show (Chip.drTake { req with addr := 0 } false (dev fun c => { c with net := { c.net with flight := [{ req with addr := 0 }] } }).chip.quiet).isSome = true by decide +kernel); exact ⟨dev fun c => { c with net := { c.net with flight := [{ req with addr := 0 }] } }, 0, 0, false, { req with addr := 0 }, d, by decide +kernel, by decide +kernel, by decide +kernel, by decide +kernel, by decide +kernel, by decide +kernel, by decide +kernel, hd⟩),
   ⟨(dev fun c => c.set F.DR_STAT_OWED 8), ([]), ({ corr := [], bad := [], synd := 0 }),
     (.dramRowAccessDone [] (some .refresh) { corr := [], bad := [], synd := 0 }), true,
     ⟨by decide +kernel, by simp, by decide +kernel, by decide +kernel, by decide +kernel⟩⟩,
   ⟨(dev fun c => { c.set F.DR_STAT_STATE drReady with dr := { c.dr with wq := [wr] } }), by decide +kernel⟩,
   ⟨(dev fun c => (c.set F.DR_STAT_STATE drReady).set F.DR_CTL_PD_TIMER 1), ([]),
     ({ corr := [], bad := [], synd := 0 }), 3,
     (.dramRowAccessDone [] (some (.powerDown 3)) { corr := [], bad := [], synd := 0 }), true,
     ⟨by decide +kernel, by simp, by decide +kernel, by decide +kernel, by decide +kernel, by decide +kernel, by decide +kernel⟩⟩,
   ⟨(dev fun c => { c.set F.DR_STAT_STATE drSelf with dr := { c.dr with freq := some (0, 0, false) } }),
     ([]), ({ corr := [], bad := [], synd := 0 }),
     (.dramRowAccessDone [] (some .selfExit) { corr := [], bad := [], synd := 0 }), true, 0, 0,
     ⟨by decide +kernel, by simp, by decide +kernel, by decide +kernel⟩⟩,
   ⟨(dev fun c => { c with dr := { c.dr with thaw := some (0, false, 0, 0) } }), 0, false, by decide +kernel⟩⟩

/-- `Obligations.DramCommandRows`. -/
theorem meets_DramCommandRows :
    (∃ (s : State) (p : Pkt), s.chip.quiet.accepts cmdDrStatus p) ∧
    (∃ (s : State) (p : Pkt) (fr : Nat), s.chip.quiet.accepts cmdDrFreq p ∧ fr = pf p.payload 0 4 ∧
      s.chip.drState ≠ drFrozen ∧ s.chip.dr.freq = none ∧ fr ≠ s.chip.get F.DR_CTL_FREQ ∧
      s.chip.dr.train = none) ∧
    (∃ (s : State) (p : Pkt), s.chip.quiet.accepts cmdDrFreq p ∧
      pf p.payload 0 4 = s.chip.get F.DR_CTL_FREQ ∧ s.chip.drState ≠ drFrozen ∧ s.chip.dr.freq = none) ∧
    (∃ (s : State) (p : Pkt), s.chip.quiet.accepts cmdDrTrain p ∧ s.chip.drState ≠ drFrozen ∧
      s.chip.dr.freq = none ∧ s.chip.dr.train = none) ∧
    (∃ (s : State) (p : Pkt), s.chip.quiet.accepts cmdDrSnapshot p) ∧
    (∃ (s : State) (p : Pkt), s.chip.quiet.accepts cmdDrThaw p ∧ s.chip.drState = drFrozen ∧
      s.chip.get F.DR_FRZ_STAT_CAUSE ≠ 1) :=
  ⟨⟨(dev id), (pk []), by unfold Chip.accepts; decide +kernel⟩,
   ⟨(dev id), (pk [1, 0, 0, 0]), 1, by unfold Chip.accepts; decide +kernel⟩,
   ⟨(dev id), (pk (z 4)), by unfold Chip.accepts; decide +kernel⟩,
   ⟨(dev id), (pk []), by unfold Chip.accepts; decide +kernel⟩,
   ⟨(dev id), (pk [0, 64, 0, 0]), by unfold Chip.accepts; decide +kernel⟩,
   ⟨(dev fun c => (c.set F.DR_STAT_STATE drFrozen).set F.DR_FRZ_STAT_CAUSE 2), (pk [1, 0, 0, 0]),
     by unfold Chip.accepts; decide +kernel⟩⟩

/-- `Obligations.ThermalRows`. -/
theorem meets_ThermalRows :
    (∃ (s : State) (ids : List Nat), s.chip.awake = true ∧ s.chip.dr.train = some (2, ids) ∧
      s.chip.drState = drTraining ∧ s.chip.dr.freq = none) ∧
    (∃ (s : State) (cause : Nat) (ids : List Nat), s.chip.awake = true ∧
      s.chip.dr.train = some (cause, ids) ∧ s.chip.drState = drTraining) ∧
    (∃ (s : State) (p : Pkt), s.chip.quiet.accepts cmdThStatus p) ∧
    (∃ (s : State) (p : Pkt), s.chip.quiet.accepts cmdThSensors p) ∧
    (∃ (s : State) (p : Pkt) (i : Nat), s.chip.quiet.accepts cmdThSubst p ∧ i = pb p.payload 0 ∧
      s.chip.sensorOut i = true ∧ (pb p.payload 1 = 1 → (s.chip.layerEst (sensorLayer i)).isSome = true)) ∧
    (∃ (s : State) (p : Pkt), s.chip.quiet.accepts cmdThThresh p ∧ thCfgOk (pf p.payload 0 8) = true) ∧
    (∃ (s : State) (p : Pkt), s.chip.quiet.accepts cmdThLimit p) :=
  ⟨⟨(dev fun c => { c.set F.DR_STAT_STATE drTraining with dr := { c.dr with train := some (2, [0]) } }),
     ([0]), by decide +kernel⟩,
   ⟨(dev fun c => { c.set F.DR_STAT_STATE drTraining with dr := { c.dr with train := some (0, []) } }), 0,
     ([]), by decide +kernel⟩,
   ⟨(dev id), (pk []), by unfold Chip.accepts; decide +kernel⟩,
   ⟨(dev id), (pk [135, 1, 0, 0]), by unfold Chip.accepts; decide +kernel⟩,
   ⟨(dev fun c => c.set (F.TH_SENSOR_BROKEN 135) 1), (pk [135, 0, 0, 0]), 135,
     by unfold Chip.accepts; decide +kernel⟩,
   ⟨(dev id), (pk [65, 65, 67, 100, 60, 5, 0, 0]), by unfold Chip.accepts; decide +kernel⟩,
   ⟨(dev id), (pk [64, 0, 0, 0]), by unfold Chip.accepts; decide +kernel⟩⟩

/-- `Obligations.NetworkRows`. -/
theorem meets_NetworkRows :
    (∃ (s : State) (ni : Fin 288) (kind : BitVec 4) (dev : Option (BitVec 12)) (addr : BitVec 48) (len : Fin 16) (rbe : BitVec 16) (bes : List (BitVec 16)) (data : List Wide) (q : NReq) (d : Chip), s.chip.awake = true ∧
      96 ≤ ni.val ∧ kind.toNat ≤ 4 ∧ s.chip.rgState (ni - 96) = rgRun ∧
      s.chip.domState (domRegion (ni - 96)) = 0 ∧ s.chip.net.riser = [] ∧
      q = { ni := ni, idx := 0, ep := 0, kind := kind.toNat, cls := 1, addr := addr.toNat, dev := dev.map BitVec.toNat, n := len.val + 1, rbe := rbe.toNat, bes := bes.map BitVec.toNat, data := data.map BitVec.toNat } ∧
      (s.chip.quiet.riserEnter q).riserTake q = some d) ∧
    (∃ (s : State) (ni : Fin 288) (kind : BitVec 4) (dev : Option (BitVec 12)) (addr : BitVec 48) (len : Fin 16) (rbe : BitVec 16) (bes : List (BitVec 16)) (data : List Wide) (q : NReq), s.chip.awake = true ∧
      96 ≤ ni.val ∧ kind.toNat ≤ 4 ∧ s.chip.rgState (ni - 96) = rgRun ∧
      s.chip.domState (domRegion (ni - 96)) = 0 ∧ s.chip.net.riser = [] ∧
      q = { ni := ni, idx := 0, ep := 0, kind := kind.toNat, cls := 1, addr := addr.toNat, dev := dev.map BitVec.toNat, n := len.val + 1, rbe := rbe.toNat, bes := bes.map BitVec.toNat, data := data.map BitVec.toNat } ∧
      (s.chip.quiet.riserEnter q).riserTake q = none) ∧
    (∃ (s : State) (ni : Fin 288) (idx : Fin 512) (q : NReq) (r : Nat) (w : Nat), s.chip.awake = true ∧
      s.chip.inFlight ni idx = some q ∧ s.chip.firstOf q = true ∧ q.n = 1 ∧ placeOf q.addr = .spad r w ∧
      s.chip.routeOk q.ni (niOf q.addr) = true ∧ s.chip.domState (domRegion r) = 0 ∧
      s.chip.rgState r = rgRun ∧ s.chip.bankState r (w % 16) = bankOn ∧
      s.chip.is (F.SP_PWR_STAT_LEASE r (w % 16)) = false ∧
      s.chip.is (F.SP_PWR_STAT_BUSY r (w % 16)) = false ∧ s.chip.capHolds r w = false ∧
      s.chip.sp.bad.contains (spAddr r w) = false ∧
      (s.chip.gateOf r = [] ∨ (s.chip.gateOf r).head? = some q) ∧ q.kind = 0) ∧
    (∃ (s : State) (ni : Fin 288) (idx : Fin 512) (q : NReq) (r : Nat) (w : Nat), s.chip.awake = true ∧
      s.chip.inFlight ni idx = some q ∧ s.chip.firstOf q = true ∧ q.n = 1 ∧ placeOf q.addr = .spad r w ∧
      s.chip.routeOk q.ni (niOf q.addr) = true ∧ s.chip.domState (domRegion r) = 0 ∧
      s.chip.rgState r = rgRun ∧ s.chip.bankState r (w % 16) = bankOn ∧
      s.chip.is (F.SP_PWR_STAT_LEASE r (w % 16)) = false ∧
      s.chip.is (F.SP_PWR_STAT_BUSY r (w % 16)) = false ∧ s.chip.capHolds r w = false ∧
      s.chip.sp.bad.contains (spAddr r w) = false ∧
      (s.chip.gateOf r = [] ∨ (s.chip.gateOf r).head? = some q) ∧ q.kind = 1) ∧
    (∃ (s : State) (ni : Fin 288) (idx : Fin 512) (q : NReq) (r : Nat) (w : Nat), s.chip.awake = true ∧
      s.chip.inFlight ni idx = some q ∧ s.chip.firstOf q = true ∧ q.n = 1 ∧ placeOf q.addr = .spad r w ∧
      s.chip.routeOk q.ni (niOf q.addr) = true ∧ s.chip.domState (domRegion r) = 0 ∧
      s.chip.rgState r = rgRun ∧ s.chip.bankState r (w % 16) = bankOn ∧
      s.chip.is (F.SP_PWR_STAT_LEASE r (w % 16)) = false ∧
      s.chip.is (F.SP_PWR_STAT_BUSY r (w % 16)) = false ∧ s.chip.capHolds r w = false ∧
      s.chip.sp.bad.contains (spAddr r w) = false ∧
      (s.chip.gateOf r = [] ∨ (s.chip.gateOf r).head? = some q) ∧ q.kind = 2) ∧
    (∃ (s : State) (ni : Fin 288) (idx : Fin 512) (q : NReq) (r : Nat) (w : Nat), s.chip.awake = true ∧
      s.chip.inFlight ni idx = some q ∧ s.chip.firstOf q = true ∧ q.n = 1 ∧ placeOf q.addr = .spad r w ∧
      s.chip.routeOk q.ni (niOf q.addr) = true ∧ s.chip.domState (domRegion r) = 0 ∧
      s.chip.rgState r = rgRun ∧ s.chip.bankState r (w % 16) = bankOn ∧
      s.chip.is (F.SP_PWR_STAT_LEASE r (w % 16)) = false ∧
      s.chip.is (F.SP_PWR_STAT_BUSY r (w % 16)) = false ∧ s.chip.capHolds r w = false ∧
      s.chip.sp.bad.contains (spAddr r w) = false ∧
      (s.chip.gateOf r = [] ∨ (s.chip.gateOf r).head? = some q) ∧ q.kind = 3) ∧
    (∃ (s : State) (ni : Fin 288) (idx : Fin 512) (q : NReq) (r : Nat) (w : Nat), s.chip.awake = true ∧
      s.chip.inFlight ni idx = some q ∧ s.chip.firstOf q = true ∧ q.n = 1 ∧ placeOf q.addr = .spad r w ∧
      s.chip.routeOk q.ni (niOf q.addr) = true ∧ s.chip.domState (domRegion r) = 0 ∧
      s.chip.rgState r = rgRun ∧ s.chip.bankState r (w % 16) = bankOn ∧
      s.chip.is (F.SP_PWR_STAT_LEASE r (w % 16)) = false ∧
      s.chip.is (F.SP_PWR_STAT_BUSY r (w % 16)) = false ∧ s.chip.capHolds r w = false ∧
      s.chip.sp.bad.contains (spAddr r w) = false ∧
      (s.chip.gateOf r = [] ∨ (s.chip.gateOf r).head? = some q) ∧ q.kind = 4) ∧
    (∃ (s : State) (ni : Fin 288) (idx : Fin 512) (q : NReq), s.chip.awake = true ∧
      s.chip.inFlight ni idx = some q ∧ s.chip.firstOf q = true ∧ s.chip.routeOk q.ni (niOf q.addr) = false ∧
      q.kind = 0) ∧
    (∃ (s : State) (r : Fin 192) (k : Fin 16), s.chip.awake = true ∧ s.chip.is (F.PE_CTL_UPORT_EN k) = true ∧
      s.chip.uportRegion k = r.val ∧ (s.chip.eng k).uport.length + tget 0 k s.chip.net.credit ≤ 64 ∧
      s.chip.domState (domRegion r) = 0 ∧ s.chip.domState (domEngine k) = 0 ∧
      s.chip.routeOk (96 + r) (8 + k) = true) ∧
    (∃ (s : State) (ni : Fin 288) (idx : Fin 512) (ep : Fin 4) (r : NRsp) (o : NOut), s.chip.awake = true ∧
      s.chip.net.rsps.find? (fun r => r.ni = ni.val && r.idx = idx.val && r.ep = ep.val) = some r ∧
      s.chip.routeOk r.from' r.ni = true ∧
      s.chip.net.outs.find? (fun o => o.req.ni = r.ni && o.req.idx = r.idx && o.req.ep = r.ep && o.sent) = some o) ∧
    (∃ (s : State) (ni : Fin 288) (idx : Fin 512) (o : NOut), s.chip.awake = true ∧
      s.chip.net.outs.find? (fun o => o.req.ni = ni.val && o.req.idx = idx.val) = some o ∧ o.sent = true) ∧
    (∃ (s : State) (ni : Fin 288) (q : NReq), s.chip.awake = true ∧
      s.chip.net.flight.find? (fun q => niOf q.addr = ni.val && q.cls = 2 && !s.chip.net.gate.contains q) = some q ∧
      ni.val < 96 ∧ s.chip.get (F.NI_CTL_BUSY_WAIT ni) ≠ 0 ∧ s.chip.routeOk q.ni ni = true) ∧
    (∃ (s : State) (d : NetDomain), s.chip.awake = true ∧ s.chip.domState (domNum d) ≠ 0 ∧
      s.chip.domReady d = true) ∧
    (∃ (s : State) (n : Fin 96), s.chip.awake = true ∧ s.chip.is (F.ROUTER_STAT_QUIESCING n) = true ∧
      s.chip.net.linkQ = [] ∧ s.chip.net.wrrTo = [n.val] ∧ s.chip.net.retry = []) ∧
    (∃ (s : State) (n : Fin 96) (ns : List Nat), s.chip.awake = true ∧ s.chip.net.wrrTo = n.val :: ns ∧
      s.chip.net.retry.contains n.val = true) ∧
    (∃ (s : State) (n : Fin 96) (ns : List Nat), s.chip.awake = true ∧ s.chip.net.wrrTo = n.val :: ns ∧
      s.chip.net.retry.contains n.val = false ∧ s.chip.net.linkQ = []) :=
  ⟨(by obtain ⟨d, hd⟩ := Option.isSome_iff_exists.mp (show (((dev (running 0)).chip.quiet.riserEnter { ni := 96, idx := 0, ep := 0, kind := 0, cls := 1, addr := 0, dev := none, n := 16, rbe := 0xFFFF, bes := [], data := [] }).riserTake { ni := 96, idx := 0, ep := 0, kind := 0, cls := 1, addr := 0, dev := none, n := 16, rbe := 0xFFFF, bes := [], data := [] }).isSome = true by decide +kernel); exact ⟨dev (running 0), 96, 0, none, 0, 15, 0xFFFF, [], [], { ni := 96, idx := 0, ep := 0, kind := 0, cls := 1, addr := 0, dev := none, n := 16, rbe := 0xFFFF, bes := [], data := [] }, d, by decide +kernel, by decide +kernel, by decide +kernel, by decide +kernel, by decide +kernel, by decide +kernel, by decide +kernel, hd⟩),
   ⟨(dev fun c => { (running 0 c).set (F.NI_CTL_OUT_MAX 96) 1 with net := { c.net with outs := [sent { req with ni := 96 }] } }),
     96, 0, none, 0, 15, 0xFFFF, ([]), ([]),
     ({ ni := 96, idx := 0, ep := 0, kind := 0, cls := 1, addr := 0, dev := none, n := 16, rbe := 0xFFFF, bes := [], data := [] }),
     ⟨by decide +kernel, by decide +kernel, by decide +kernel, by decide +kernel, by decide +kernel, by decide +kernel, by decide +kernel, Option.isNone_iff_eq_none.mp (by decide +kernel)⟩⟩,
   ⟨(dev fun c => { running 0 c with net := { c.net with flight := [req] } }), 0, 0, req, 0, 0,
     by decide +kernel⟩,
   ⟨(dev fun c => { running 0 c with net := { c.net with flight := [{ req with kind := 1 }] } }), 0, 0,
     ({ req with kind := 1 }), 0, 0, by decide +kernel⟩,
   ⟨(dev fun c => { running 0 c with net := { c.net with flight := [{ req with kind := 2 }] } }), 0, 0,
     ({ req with kind := 2 }), 0, 0, by decide +kernel⟩,
   ⟨(dev fun c => { running 0 c with net := { c.net with flight := [{ req with kind := 3 }] } }), 0, 0,
     ({ req with kind := 3 }), 0, 0, by decide +kernel⟩,
   ⟨(dev fun c => { running 0 c with net := { c.net with flight := [{ req with kind := 4 }] } }), 0, 0,
     ({ req with kind := 4 }), 0, 0, by decide +kernel⟩,
   ⟨(dev fun c => { c.set (F.ROUTER_STAT_ZLINK 0) 1 with net := { c.net with flight := [req] } }), 0, 0, req,
     by decide +kernel⟩,
   ⟨(dev fun c => c.set (F.PE_CTL_UPORT_EN 0) 1), 0, 0, by decide +kernel⟩,
   ⟨(dev fun c => { c with net := { c.net with outs := [sent req], rsps := [{ ni := 0, idx := 0, ep := 0, code := 0, detail := 0, word := 0, data := [], from' := 96 }] } }),
     0, 0, 0, ({ ni := 0, idx := 0, ep := 0, code := 0, detail := 0, word := 0, data := [], from' := 96 }),
     (sent req), by decide +kernel⟩,
   ⟨(dev fun c => { c with net := { c.net with outs := [sent req] } }), 0, 0, (sent req), by decide +kernel⟩,
   ⟨(dev fun c => { c.set (F.NI_CTL_BUSY_WAIT 0) 1 with net := { c.net with flight := [{ req with addr := 0, cls := 2 }] } }),
     0, ({ req with addr := 0, cls := 2 }), by decide +kernel⟩,
   ⟨(dev fun c => { c.set F.DR_STAT_STATE drReady with net := { c.net with doms := [(270, 1)] } }), .dram,
     by decide +kernel⟩,
   ⟨(dev fun c => { c.set (F.ROUTER_STAT_QUIESCING 95) 1 with net := { c.net with wrrTo := [95] } }), 95,
     by decide +kernel⟩,
   ⟨(dev fun c => { c with net := { c.net with wrrTo := [95], retry := [95] } }), 95, ([]),
     by decide +kernel⟩,
   ⟨(dev fun c => { c with net := { c.net with wrrTo := [95] } }), 95, ([]), by decide +kernel⟩⟩

/-- `Obligations.DmaRows`. -/
theorem meets_DmaRows :
    (∃ (s : State) (ch : Fin 4096), s.chip.awake = true ∧ s.chip.dmaFree ch = true ∧
      s.chip.dmaSetOk ch = true ∧ s.chip.is (F.DMA_CH_CMD_PAUSE ch) = false) ∧
    (∃ (s : State) (ch : Fin 4096), s.chip.awake = true ∧ s.chip.dmaFree ch = true ∧
      s.chip.dmaSetOk ch = false) ∧
    (∃ (s : State) (ch : Fin 4096), s.chip.awake = true ∧ s.chip.dmState ch = dmDone ∧
      s.chip.chainIdle ch = true ∧ s.chip.is (F.DMA_CH_CMD_PAUSE ch) = false) ∧
    (∃ (s : State) (ch : Fin 4096), s.chip.awake = true ∧ s.chip.dmState ch = dmPaused) ∧
    (∃ (s : State) (ch : Fin 4096), s.chip.awake = true ∧ s.chip.is (F.DMA_CH_CMD_ARM ch) = false ∧
      s.chip.dmaShadowOk ch = true ∧ s.chip.dmaFree ch = false) ∧
    (∃ (s : State) (ch : Fin 4096), s.chip.awake = true ∧ s.chip.is (F.DMA_CH_CMD_ARM ch) = false ∧
      s.chip.dmaShadowOk ch = true ∧ s.chip.dmState ch = dmIdle) ∧
    (∃ (s : State) (ch : Fin 4096), s.chip.awake = true ∧ s.chip.dmState ch = dmDone ∧
      s.chip.chainIdle ch = true ∧ s.chip.is (F.DMA_CH_CMD_ARM ch) = false) ∧
    (∃ (s : State) (ch : Fin 4096) (v : Word), s.chip.awake = true ∧ v.toNat % 4096 = ch) ∧
    (∃ (s : State) (ch : Fin 4096), s.chip.awake = true ∧ s.chip.dmState ch = dmWaitDreq ∧
      s.chip.dmaReq ch = true ∧ s.chip.is (F.DMA_CH_CMD_PAUSE ch) = false) ∧
    (∃ (s : State) (ch : Fin 4096), s.chip.awake = true ∧ s.chip.dma.engines = [] ∧
      s.chip.dma.queued = [ch.val] ∧ s.chip.dmState ch = dmQueued ∧ s.chip.dm ch = DmaCh.init ∧
      s.chip.dmCtl ch 4 = false) ∧
    (∃ (s : State) (ch : Fin 4096) (q : NReq) (a : Agent) (d : Chip), s.chip.awake = true ∧
      (s.chip.dm ch).retry = [(q, a)] ∧
      s.chip.quiet.niIssue q.ni q.kind q.cls q.addr q.dev q.n q.rbe q.bes q.data a = some d) ∧
    (∃ (s : State) (ch : Fin 4096), s.chip.awake = true ∧ (s.chip.dm ch).phase = 3 ∧
      s.chip.is (F.DMA_CH_STAT_LOADED ch) = true ∧ (s.chip.dm ch).chunks = [] ∧ s.chip.fromDesc ch = true) ∧
    (∃ (s : State) (ch : Fin 4096), s.chip.awake = true ∧ s.chip.dmaHeld ch = false) ∧
    (∃ (s : State) (ch : Fin 4096), s.chip.awake = true ∧ s.chip.dmaHeld ch = true) :=
  ⟨⟨(dev fun c => c.set (F.DMA_LEN_LEN 0) 64), 0, by decide +kernel⟩,
   ⟨(dev fun c => c.set (F.DMA_LEN_LEN 0) 8), 0, by decide +kernel⟩,
   ⟨(dev fun c => (c.set (F.DMA_CH_STAT_STATE 0) dmDone).set (F.DMA_CH_STAT_CHAIN_IDLE 0) 1), 0,
     by decide +kernel⟩,
   ⟨(dev fun c => c.set (F.DMA_CH_STAT_STATE 0) dmPaused), 0, by decide +kernel⟩,
   ⟨(dev fun c => (c.set (F.DMA_CH_STAT_STATE 0) dmActive).set (F.SH_LEN_LEN 0) 64), 0, by decide +kernel⟩,
   ⟨(dev fun c => c.set (F.SH_LEN_LEN 0) 64), 0, by decide +kernel⟩,
   ⟨(dev fun c => (c.set (F.DMA_CH_STAT_STATE 0) dmDone).set (F.DMA_CH_STAT_CHAIN_IDLE 0) 1), 0,
     by decide +kernel⟩,
   ⟨(dev id), 4095, 4095, by decide +kernel⟩,
   ⟨(dev fun c => (c.set (F.DMA_CH_STAT_STATE 0) dmWaitDreq).set (F.DMA_DREQ_REQ 0) 1), 0, by decide +kernel⟩,
   ⟨(dev fun c => { c.set (F.DMA_CH_STAT_STATE 0) dmQueued with dma := { c.dma with queued := [0] } }), 0,
     by decide +kernel⟩,
   (by obtain ⟨d, hd⟩ := Option.isSome_iff_exists.mp (show (Chip.niIssue 0 0 1 0 none 1 0xFFFF [] [] (.dma 0 0 0) (dev fun c => c.setDm 0 fun x => { x with retry := [({ req with addr := 0 }, .dma 0 0 0)] }).chip.quiet).isSome = true by decide +kernel); exact ⟨dev fun c => c.setDm 0 fun x => { x with retry := [({ req with addr := 0 }, .dma 0 0 0)] }, 0, { req with addr := 0 }, .dma 0 0 0, d, by decide +kernel, by decide +kernel, hd⟩),
   ⟨(dev fun c => ((c.set (F.DMA_CH_STAT_LOADED 0) 1).set (F.DMA_CH_STAT_FROM_DESC 0) 1).setDm 0 fun x => { x with phase := 3 }),
     0, by decide +kernel⟩,
   ⟨(dev id), 0, by decide +kernel⟩,
   ⟨(dev fun c => c.setDm 0 fun d => { d with phase := 5, out := true }), 0, by decide +kernel⟩⟩

/-- `Obligations.DmaCommandRows`. -/
theorem meets_DmaCommandRows :
    (∃ (s : State) (p : Pkt) (ch : Nat), s.chip.quiet.accepts cmdDmaStatus p ∧ ch = pf p.payload 0 4 ∧
      s.chip.dmaHeld ch = false) ∧
    (∃ (s : State) (p : Pkt) (ch : Nat), s.chip.quiet.accepts cmdDmaStatus p ∧ ch = pf p.payload 0 4 ∧
      s.chip.dmaHeld ch = true) ∧
    (∃ (s : State) (p : Pkt) (ch : Nat), s.chip.quiet.accepts cmdDmaStart p ∧ ch = pf p.payload 0 2 ∧
      s.chip.dmaFree ch = true) ∧
    (∃ (s : State) (p : Pkt) (ch : Nat), s.chip.quiet.accepts cmdDmaArm p ∧ ch = pf p.payload 0 2 ∧
      s.chip.is (F.DMA_CH_CMD_ARM ch) = false) ∧
    (∃ (s : State) (p : Pkt) (ch : Nat), s.chip.quiet.accepts cmdDmaPause p ∧ ch = pf p.payload 0 4 ∧
      (s.chip.dmState ch = dmQueued ∨ s.chip.dmState ch = dmActive ∨ s.chip.dmState ch = dmWaitDreq ∨ s.chip.dmState ch = dmPausing)) ∧
    (∃ (s : State) (p : Pkt) (ch : Nat), s.chip.quiet.accepts cmdDmaPause p ∧ ch = pf p.payload 0 4 ∧
      (s.chip.dmState ch = dmPaused ∨ s.chip.dmState ch = dmIdle ∨ s.chip.dmState ch = dmDone)) ∧
    (∃ (s : State) (p : Pkt) (ch : Nat), s.chip.quiet.accepts cmdDmaResume p ∧ ch = pf p.payload 0 4 ∧
      s.chip.dmState ch = dmPaused) ∧
    (∃ (s : State) (p : Pkt) (ch : Nat), s.chip.quiet.accepts cmdDmaAbort p ∧ ch = pf p.payload 0 4 ∧
      s.chip.dmState ch ≠ dmIdle) ∧
    (∃ (s : State) (p : Pkt) (ch : Nat), s.chip.quiet.accepts cmdDmaAbort p ∧ ch = pf p.payload 0 4 ∧
      s.chip.dmState ch = dmIdle) :=
  ⟨⟨(dev id), (pk [0xFF, 0x0F, 0, 0]), 4095, by unfold Chip.accepts; decide +kernel⟩,
   ⟨(dev fun c => c.setDm 4095 fun d => { d with phase := 5, out := true }), (pk [0xFF, 0x0F, 0, 0]), 4095,
     by unfold Chip.accepts; decide +kernel⟩,
   ⟨(dev id), (pk (z 24 ++ [1] ++ z 15 ++ [64] ++ z 7)), 0, by unfold Chip.accepts; decide +kernel⟩,
   ⟨(dev id), (pk (z 24 ++ [1] ++ z 15 ++ [64] ++ z 7)), 0, by unfold Chip.accepts; decide +kernel⟩,
   ⟨(dev fun c => c.set (F.DMA_CH_STAT_STATE 0) dmPausing), (pk (z 4)), 0,
     by unfold Chip.accepts; decide +kernel⟩,
   ⟨(dev fun c => c.set (F.DMA_CH_STAT_STATE 0) dmDone), (pk (z 4)), 0,
     by unfold Chip.accepts; decide +kernel⟩,
   ⟨(dev fun c => c.set (F.DMA_CH_STAT_STATE 0) dmPaused), (pk (z 4)), 0,
     by unfold Chip.accepts; decide +kernel⟩,
   ⟨(dev fun c => c.set (F.DMA_CH_STAT_STATE 0) dmQueued), (pk (z 4)), 0,
     by unfold Chip.accepts; decide +kernel⟩,
   ⟨(dev id), (pk (z 4)), 0, by unfold Chip.accepts; decide +kernel⟩⟩

/-- `Obligations.WindwayLinkRows`. -/
theorem meets_WindwayLinkRows :
    (∃ (s : State) (p : Fin 8) (f : BitVec 200), s.chip.awake = true ∧ s.chip.wpState p = wpUp ∧
      frameCrc f.toNat ≠ bits f.toNat 183 152) ∧
    (∃ (s : State) (p : Fin 8) (f : BitVec 200), s.chip.awake = true ∧ s.chip.wpState p = wpUp ∧
      frameCrc f.toNat = bits f.toNat 183 152 ∧ f.toNat.testBit 144 = false ∧ f.toNat.testBit 145 = false ∧
      bits f.toNat 150 149 = 0 ∧ bits f.toNat 135 128 = (s.chip.wp p).rxSeq) ∧
    (∃ (s : State) (p : Fin 8), s.chip.awake = true ∧ (∀ x ∈ (s.chip.wp p).unacked, x.2 < 3)) ∧
    (∃ (s : State) (p : Fin 8), s.chip.awake = true ∧ (s.chip.wp p).errs ≤ s.chip.get F.WW_CTL_ERR_THRESH) ∧
    (∃ (s : State) (p : Fin 8), s.chip.awake = true ∧ s.chip.wwRuns = true ∧
      s.chip.is (F.WW_P_CTL_EN p) = true ∧ s.chip.wpState p = wpTraining ∧ s.chip.domState (domPort p) = 0) ∧
    (∃ (s : State) (g : WwChange), s.chip.awake = true ∧ s.chip.ww.change = some g ∧ g.phase = 0 ∧
      s.chip.get F.WW_INFLIGHT_OLD ≠ 0 ∧ s.chip.ww.topo = [] ∧ s.chip.ww.ids = [(s.chip.ownUid, 0)]) ∧
    (∃ (s : State) (g : WwChange), s.chip.awake = true ∧ s.chip.ww.change = some g ∧ g.phase = 1 ∧
      s.chip.get F.WW_INFLIGHT_OLD = 0) ∧
    (∃ (s : State) (p : Fin 8), s.chip.awake = true ∧ s.chip.wpState p = wpUp ∧
      s.chip.is F.WW_TB_CTL_MASTER = true) ∧
    (∃ (s : State) (p : Nat), s.chip.awake = true ∧ p < 8 ∧ (∀ q < 8, s.chip.wpState q = wpUp ↔ q = p)) ∧
    (∃ (s : State) (at' : Fin 32000), s.chip.awake = true ∧ s.chip.tbRuns = true ∧
      s.chip.is F.WW_TB_CTL_MASTER = false ∧ s.chip.is F.WW_TB_CTL_SRC = true ∧
      s.chip.get F.WW_TB_TIME % 2 ^ s.chip.get F.WW_TB_CTL_SYNC_LOG = 0 ∧
      s.chip.get F.WW_TB_CTL_PIN_OFFSET = 0 ∧ at'.val ≤ 1200) ∧
    (∃ (s : State), s.chip.awake = true ∧ s.chip.tbRuns = true ∧ s.chip.is F.WW_TB_STAT_LOCKED = false ∧
      s.chip.is F.WW_TB_CTL_MASTER = true ∧ s.chip.get F.WW_TB_STAT_PHASE_ERR = 0) ∧
    (∃ (s : State), s.chip.awake = true ∧ s.chip.is F.WW_TB_CTL_MASTER = false ∧
      s.chip.is F.WW_TB_STAT_LOCKED = true) ∧
    (∃ (s : State) (p : Fin 8), s.chip.awake = true ∧ s.chip.wpState p ≠ wpRetired ∧
      s.chip.is (F.WW_P_CTL_EN p) = true ∧ s.chip.wwRuns = true) ∧
    (∃ (s : State) (b : Fin 2), s.chip.awake = true ∧ b.val ≠ s.chip.get F.WW_ID_EPOCH ∧
      s.chip.get F.WW_INFLIGHT_OLD = 0) ∧
    (∃ (s : State) (b : Fin 2), s.chip.awake = true ∧
      (b.val = s.chip.get F.WW_ID_EPOCH ∨ s.chip.get F.WW_INFLIGHT_OLD ≠ 0)) :=
  ⟨⟨(dev fun c => linked 7 c), 7, 0, by decide +kernel⟩,
   ⟨(dev fun c => linked 7 c), 7, (BitVec.ofNat 200 (crc32c (z 19) * 2 ^ 152)), by decide +kernel⟩,
   ⟨(dev fun c => c.setWp 0 fun x => { x with unacked := [(0, 2)] }), 0, by decide +kernel⟩,
   ⟨(dev fun c => (c.set F.WW_CTL_ERR_THRESH 4).setWp 0 fun x => { x with errs := 4 }), 0, by decide +kernel⟩,
   ⟨(dev fun c => (c.set (F.WW_P_CTL_EN 0) 1).set (F.WW_P_STAT_LSTATE 0) wpTraining), 0, by decide +kernel⟩,
   ⟨(dev fun c => { c.set F.WW_INFLIGHT_OLD 1 with ww := { c.ww with change := some { slot := none, disc := true, write := false, phase := 0, acks := 0 }, ids := [(c.ownUid, 0)] } }),
     ({ slot := none, disc := true, write := false, phase := 0, acks := 0 }), by decide +kernel⟩,
   ⟨(dev fun c => { c with ww := { c.ww with change := some { slot := none, disc := true, write := false, phase := 1, acks := 0 } } }),
     ({ slot := none, disc := true, write := false, phase := 1, acks := 0 }), by decide +kernel⟩,
   ⟨(dev fun c => (linked 7 c).set F.WW_TB_CTL_MASTER 1), 7, by decide +kernel⟩,
   ⟨(dev fun c => linked 7 c), 7, by decide +kernel⟩,
   ⟨(dev fun c => c.set F.WW_TB_CTL_SRC 1), 1200, by decide +kernel⟩,
   ⟨(dev fun c => c.set F.WW_TB_CTL_MASTER 1), by decide +kernel⟩,
   ⟨(dev fun c => c.set F.WW_TB_STAT_LOCKED 1), by decide +kernel⟩,
   ⟨(dev fun c => c.set (F.WW_P_CTL_EN 0) 1), 0, by decide +kernel⟩,
   ⟨(dev id), 1, by decide +kernel⟩,
   ⟨(dev id), 0, by decide +kernel⟩⟩

/-- `Obligations.WindwayPacketRows`. -/
theorem meets_WindwayPacketRows :
    (∃ (s : State) (p : Fin 8) (h : WwHdr) (e : Nat × Nat), s.chip.awake = true ∧ s.chip.wpState p = wpUp ∧
      h.hopix.toNat < h.hops.toNat ∧ h.hopix.toNat + 1 = h.hops.toNat ∧
      h.dst.toNat = s.chip.get F.WW_ID_DEVICE_ID ∧ s.chip.is F.WW_ID_ROOT = true ∧
      s.chip.ww.ids.find? (fun e => e.2 = h.src.toNat) = some e) ∧
    (∃ (s : State) (p : Fin 8) (h : WwHdr), s.chip.awake = true ∧ s.chip.wpState p = wpUp ∧
      h.hopix.toNat < h.hops.toNat ∧ h.hopix.toNat + 1 = h.hops.toNat ∧
      h.dst.toNat ≠ s.chip.get F.WW_ID_DEVICE_ID) ∧
    (∃ (s : State) (p : Fin 8) (h : WwHdr), s.chip.awake = true ∧ s.chip.wpState p = wpUp ∧
      h.hopix.toNat < h.hops.toNat ∧ h.hopix.toNat + 1 < h.hops.toNat ∧
      s.chip.wpState (hopOf h.route.toNat (h.hopix.toNat + 1)) = wpUp) ∧
    (∃ (s : State) (p : Fin 8) (h : WwHdr), s.chip.awake = true ∧ s.chip.wpState p = wpUp ∧
      h.hopix.toNat < h.hops.toNat ∧ h.hopix.toNat + 1 < h.hops.toNat ∧
      s.chip.wpState (hopOf h.route.toNat (h.hopix.toNat + 1)) ≠ wpUp) ∧
    (∃ (s : State) (p : Fin 8) (h : WwHdr) (serial : Nat) (root : BitVec 128) (path : List (Fin 8)), s.chip.awake = true ∧
      s.chip.wpState p = wpUp ∧ h.hopix.toNat < h.hops.toNat ∧ s.chip.is F.WW_ID_ROOT = false ∧
      root.toNat ≠ s.chip.ownUid ∧ s.chip.ww.seen.contains (root.toNat, serial) = false ∧ path.length = 12) ∧
    (∃ (s : State) (p : Fin 8) (h : WwHdr) (serial : Nat) (root : BitVec 128), s.chip.awake = true ∧
      s.chip.wpState p = wpUp ∧ h.hopix.toNat < h.hops.toNat ∧ s.chip.is F.WW_ID_ROOT = false ∧
      s.chip.ww.seen.contains (root.toNat, serial) = true) :=
  ⟨⟨(dev fun c => { ((linked 7 c).set F.WW_ID_DEVICE_ID 0).set F.WW_ID_ROOT 1 with ww := { c.ww with ids := [(5, 0)] } }),
     7, hdr, ((5, 0)), by decide +kernel⟩,
   ⟨(dev fun c => linked 7 c), 7, hdr, by decide +kernel⟩,
   ⟨(dev fun c => linked 7 c), 7, ({ hdr with hops := 3, route := 7 * 64 }), by decide +kernel⟩,
   ⟨(dev fun c => linked 7 c), 7, ({ hdr with hops := 3 }), by decide +kernel⟩,
   ⟨(dev fun c => linked 7 c), 7, hdr, 0, (2 ^ 127), (List.replicate 12 0), by decide +kernel⟩,
   ⟨(dev fun c => { linked 7 c with ww := { c.ww with seen := [(5, 0)] } }), 7, hdr, 0, 5, by decide +kernel⟩⟩

/-- `Obligations.WindwayCommandRows`. -/
theorem meets_WindwayCommandRows :
    (∃ (s : State) (p : Pkt), s.chip.quiet.accepts cmdWwStatus p) ∧
    (∃ (s : State) (p : Pkt), s.chip.quiet.accepts cmdWwDiscover p ∧ s.chip.is F.WW_ID_ROOT = true ∧
      s.chip.ww.change = none) ∧
    (∃ (s : State) (p : Pkt), s.chip.quiet.accepts cmdWwTopoRead p ∧ s.chip.is F.WW_ID_ROOT = true) ∧
    (∃ (s : State) (p : Pkt), s.chip.quiet.accepts cmdWwRoute p ∧ s.chip.is F.WW_ID_ROOT = true ∧
      s.chip.ww.change = none ∧ s.chip.get F.WW_INFLIGHT_OLD = 0) ∧
    (∃ (s : State) (p : Pkt), s.chip.quiet.accepts cmdWwPort p ∧ s.chip.wpState (pb p.payload 0) ≠ wpRetired) ∧
    (∃ (s : State) (p : Pkt), s.chip.quiet.accepts cmdWwLaneTest p ∧
      (s.chip.get (F.WW_P_STAT_LANE_RET (pb p.payload 0))).testBit (pb p.payload 1) = false ∧
      s.chip.wpState (pb p.payload 0) = wpUp ∧ s.chip.dstate ≠ stSafe ∧
      s.chip.tqFull 9 (pb p.payload 0 + 8 * pb p.payload 1) = false) :=
  ⟨⟨(dev id), (pk []), by unfold Chip.accepts; decide +kernel⟩,
   ⟨(dev fun c => c.set F.WW_ID_ROOT 1), (pk []), by unfold Chip.accepts; decide +kernel⟩,
   ⟨(dev fun c => c.set F.WW_ID_ROOT 1), (pk [0, 0, 170, 0]), by unfold Chip.accepts; decide +kernel⟩,
   ⟨(dev fun c => c.set F.WW_ID_ROOT 1), (pk (z 4)), by unfold Chip.accepts; decide +kernel⟩,
   ⟨(dev id), (pk [7, 1]), by unfold Chip.accepts; decide +kernel⟩,
   ⟨(dev fun c => linked 7 c), (pk [7, 3]), by unfold Chip.accepts; decide +kernel⟩⟩

/-- `Obligations.PowerRows`. -/
theorem meets_PowerRows :
    (∃ (s : State) (r : Fin 192) (v : Word), s.chip.awake = true ∧ fsetOk (bits v.toNat 8 0) = true ∧
      s.chip.get (F.FAB_RG_CTL_CLKSRC r) = 0 ∧ s.chip.rgState r = rgRun ∧
      s.chip.get (F.CLK_RG_FNOW r) ≠ throttled (bits v.toNat 8 0) (s.chip.get (zoneS r))) ∧
    (∃ (s : State) (v : Word), s.chip.awake = true ∧ fsetOk (bits v.toNat 8 0) = false) ∧
    (∃ (s : State) (r : Fin 192), s.chip.awake = true ∧ s.chip.is (F.CLK_RG_SLEWING r) = true ∧
      s.chip.get (F.FAB_RG_CTL_CLKSRC r) = 0 ∧ s.chip.ch.slots = []) ∧
    (∃ (s : State) (r : Fin 192) (k : Slot), s.chip.awake = true ∧ s.chip.pwrCmd r = some k ∧
      s.chip.dstate = stUser ∧ pb k.payload 1 = 0) ∧
    (∃ (s : State) (r : Fin 192) (k : Slot), s.chip.awake = true ∧ s.chip.pwrCmd r = some k ∧
      s.chip.dstate = stUser ∧ pb k.payload 1 = 1) ∧
    (∃ (s : State) (m : Fin 8) (w : Nat × Nat) (d : NvsDone), s.chip.awake = true ∧ nvsMacro w.1 = m.val ∧
      s.chip.nvs.jobs = [{ words := [w], record := none, payload := none, bank := none, done := d }]) ∧
    (∃ (s : State) (ni : Fin 288) (off : BitVec 19) (w : Nat) (x : Nat), s.chip.awake = true ∧ 96 ≤ ni.val ∧
      off.toNat % 8 = 0 ∧ w = (s.chip.upage ni * 0x80000 + off.toNat) / 8 ∧ s.chip.nvs.jobs = [] ∧
      s.chip.nvsWord w = some x) ∧
    (∃ (s : State) (ni : Fin 288) (off : BitVec 19) (w : Nat), s.chip.awake = true ∧ 96 ≤ ni.val ∧
      off.toNat % 8 = 0 ∧ w = (s.chip.upage ni * 0x80000 + off.toNat) / 8 ∧ s.chip.nvs.jobs = [] ∧
      s.chip.nvsWord w = none) ∧
    (∃ (s : State) (ni : Fin 288) (off : BitVec 19) (w : Nat), s.chip.awake = true ∧ 96 ≤ ni.val ∧
      off.toNat % 8 = 0 ∧ w = (s.chip.upage ni * 0x80000 + off.toNat) / 8 ∧
      s.chip.nvsIdle [nvsMacro w] = false) ∧
    (∃ (s : State) (ni : Fin 288), s.chip.awake = true ∧ ni.val < 96) ∧
    (∃ (s : State) (e : Ev) (boot : Nat) (q : List (Ev × Nat)), s.chip.awake = true ∧
      s.chip.nvs.logBuf = (e, boot) :: q ∧ s.chip.dstate ≠ stBoot) ∧
    (∃ (s : State), s.chip.awake = true ∧ s.chip.dstate = stBoot) :=
  ⟨⟨(dev fun c => running 191 c), 191, 256, by decide +kernel⟩,
   ⟨(dev id), 257, by decide +kernel⟩,
   ⟨(dev fun c => c.set (F.CLK_RG_SLEWING 0) 1), 0, by decide +kernel⟩,
   ⟨(dev fun c => { c with ch := { c.ch with slots := [{ slot with cls := 8, op := 0x16, payload := z 4 }] } }),
     0, ({ slot with cls := 8, op := 0x16, payload := z 4 }), by decide +kernel⟩,
   ⟨(dev fun c => { c with ch := { c.ch with slots := [{ slot with cls := 8, op := 0x16, payload := [0, 1, 0, 0] }] } }),
     0, ({ slot with cls := 8, op := 0x16, payload := [0, 1, 0, 0] }), by decide +kernel⟩,
   ⟨(dev fun c => { c with nvs := { c.nvs with jobs := [{ words := [(0, 0)], record := none, payload := none, bank := none, done := .none }] } }),
     0, ((0, 0)), .none, by decide +kernel⟩,
   ⟨(dev id), 287, 0, 0, 0, by decide +kernel⟩,
   ⟨(dev fun c => { c with nvs := { c.nvs with uncorr := [0] } }), 287, 0, 0, by decide +kernel⟩,
   ⟨(dev fun c => { c with nvs := { c.nvs with jobs := [{ words := [(0, 0)], record := none, payload := none, bank := none, done := .none }] } }),
     96, 0, 0, by decide +kernel⟩,
   ⟨(dev id), 0, by decide +kernel⟩,
   ⟨(dev fun c => { c with nvs := { c.nvs with logBuf := [({ code := 0, sev := 0, masked := false, arg := 0, time := 0 }, 0)] } }),
     ({ code := 0, sev := 0, masked := false, arg := 0, time := 0 }), 0, ([]), by decide +kernel⟩,
   ⟨(dev fun c => c.set F.SYS_STATE_STATE stBoot), by decide +kernel⟩⟩

/-- `Obligations.PowerCommandRows`. -/
theorem meets_PowerCommandRows :
    (∃ (s : State) (p : Pkt), s.chip.quiet.accepts cmdPwrStatus p) ∧
    (∃ (s : State) (p : Pkt), s.chip.quiet.accepts cmdClkRegion p ∧
      s.chip.rgState (pb p.payload 0) ≠ rgRetired) ∧
    (∃ (s : State) (p : Pkt) (r : Nat), s.chip.quiet.accepts cmdPwrRegion p ∧ r = pb p.payload 0 ∧
      s.chip.rgState r = rgRun ∧ s.chip.dstate = stUser ∧
      (s.chip.quiet.slotFor cmdPwrRegion p).regionBusy s.chip.ch.nextId r = false ∧ pb p.payload 1 = 0) ∧
    (∃ (s : State) (p : Pkt) (r : Nat), s.chip.quiet.accepts cmdPwrRegion p ∧ r = pb p.payload 0 ∧
      s.chip.rgState r = rgOff ∧ s.chip.dstate = stUser ∧
      (s.chip.quiet.slotFor cmdPwrRegion p).regionBusy s.chip.ch.nextId r = false ∧ pb p.payload 1 = 1 ∧
      s.chip.stopState r (pb p.payload 2) = ssReady) ∧
    (∃ (s : State) (p : Pkt) (r : Nat), s.chip.quiet.accepts cmdNvsRecInfo p ∧ r = pf p.payload 0 4) ∧
    (∃ (s : State) (p : Pkt) (bs : List Byte), s.chip.quiet.accepts cmdNvsRecRead p ∧
      s.chip.recRead (pb p.payload 0) = some bs) ∧
    (∃ (s : State) (p : Pkt), s.chip.quiet.accepts cmdNvsEvlogRead p) ∧
    (∃ (s : State) (p : Pkt), s.chip.quiet.accepts cmdNvsUser p ∧ pb p.payload 0 = 1) ∧
    (∃ (s : State) (p : Pkt), s.chip.quiet.accepts cmdNvsUser p ∧ pb p.payload 0 = 0 ∧
      s.chip.nvs.uncorr = [] ∧ s.chip.nvs.jobs = []) :=
  ⟨⟨(dev id), (pk []), by unfold Chip.accepts; decide +kernel⟩,
   ⟨(dev id), (pk [191, 0, 0, 1, 0, 0, 0, 0]), by unfold Chip.accepts; decide +kernel⟩,
   ⟨(dev fun c => running 191 c), (pk (191 :: z 3)), 191, by unfold Chip.accepts; decide +kernel⟩,
   ⟨(dev fun c => (ready 191 3 c).set (F.FAB_RG_STAT_RSTATE 191) rgOff), (pk [191, 1, 3, 0]), 191,
     by unfold Chip.accepts; decide +kernel⟩,
   ⟨(dev id), (pk [2, 0, 0, 0]), 2, by unfold Chip.accepts; decide +kernel⟩,
   ⟨(dev fun c => { c with nvs := { c.nvs with words := [(0xA2000, 0x4C523954), (0xA2001, crc32c ([0x54, 0x39, 0x52, 0x4C] ++ z 8) * 2 ^ 32)] } }),
     (pk [2, 0, 0, 0, 0, 0, 0, 0, 1, 0]), ([]), by unfold Chip.accepts; decide +kernel⟩,
   ⟨(dev id), (pk [0, 0, 0, 0, 127, 0]), by unfold Chip.accepts; decide +kernel⟩,
   ⟨(dev id), (pk ([1, 0, 0, 0, 0, 0, 0, 0, 1, 0] ++ z 14)), by unfold Chip.accepts; decide +kernel⟩,
   ⟨(dev id), (pk ([0, 0, 0, 0, 0, 0, 0, 0, 1, 0] ++ z 6)), by unfold Chip.accepts; decide +kernel⟩⟩

/-- `Obligations.SelfTestRows`. -/
theorem meets_SelfTestRows :
    (∃ (s : State) (b : Burn) (q : List Burn), s.chip.awake = true ∧ s.chip.cfg.burns = b :: q ∧ b.what ≠ 6) ∧
    (∃ (s : State) (b : Burn) (q : List Burn), s.chip.awake = true ∧ s.chip.cfg.burns = b :: q ∧ b.what = 6) ∧
    (∃ (s : State) (p : Fin 8) (l : Fin 4) (t : TestItem), s.chip.awake = true ∧ s.chip.st.cur = some t ∧
      t.kind = 9 ∧ t.loc = p + 8 * l) ∧
    (∃ (s : State), s.chip.awake = true ∧ s.chip.stEn ≠ 0 ∧ s.chip.stRuns = true ∧ s.chip.st.slice = none ∧
      s.chip.st.cur = none ∧ s.chip.st.queue = [] ∧ s.chip.st.kind = 1 ∧ s.chip.stKinds.testBit 1 = true ∧
      tget 0 1 s.chip.st.skips = 0) ∧
    (∃ (s : State) (y : TestYield) (k : Nat) (first : Nat), s.chip.awake = true ∧
      s.chip.st.slice = some (k, first, s.chip.dstate) ∧ y.endSt = 0 ∧ y.done = y.exp ∧ y.sigOk = true) ∧
    (∃ (s : State) (t : TestItem), s.chip.awake = true ∧ s.chip.st.queue = [t] ∧
      s.chip.elemRetired t.kind t.loc = false ∧ s.chip.testWaits t = false ∧ s.chip.stRuns = true ∧
      s.chip.st.cur = none ∧ s.chip.st.slice = none ∧ t.kind ≠ 10) ∧
    (∃ (s : State) (y : TestYield) (t : TestItem), s.chip.awake = true ∧ s.chip.st.cur = some t ∧
      t.kind ≠ 9 ∧ t.kind ≠ 10 ∧ y.endSt = 0 ∧ y.done = y.exp ∧ y.sigOk = true) ∧
    (∃ (s : State) (y : TestYield) (t : TestItem), s.chip.awake = true ∧ s.chip.st.cur = some t ∧
      t.kind ≠ 9 ∧ t.kind ≠ 10 ∧ y.endSt ≠ 0) ∧
    (∃ (s : State) (f : FullTest), s.chip.awake = true ∧ s.chip.st.full = some f ∧ f.aborts = []) ∧
    (∃ (s : State) (r : Nat) (t : Nat) (q : Nat), s.chip.awake = true ∧ s.chip.lgEn ≠ 0 ∧
      stFw ≤ s.chip.dstate ∧ s.chip.dstate ≤ stConfigFailed ∧ s.chip.lg.reload = none ∧
      r = s.chip.get F.LG_STAT_REGION ∧ t = s.chip.get F.LG_STAT_STOP ∧ q = s.chip.get F.LG_STAT_FRAME ∧
      t < 8 ∧ s.chip.rgState r ≠ rgRetired ∧ s.chip.stopState r t = ssReady) ∧
    (∃ (s : State), s.chip.awake = true ∧ s.chip.lgEn ≠ 0 ∧ stFw ≤ s.chip.dstate ∧
      s.chip.dstate ≤ stConfigFailed ∧ s.chip.lg.reload ≠ none) ∧
    (∃ (s : State) (r : Nat) (t : Nat) (q : Nat) (w : Nat) (a : Nat), s.chip.awake = true ∧
      s.chip.lg.reload = some (r, t, q, w) ∧ s.chip.lg.testing = false ∧
      a = s.chip.slotAddr (tget 0 (rsKey r t) s.chip.cfg.src) + 0x4000 + 320 * q ∧
      (∀ b ∈ rowsOf a 320, s.chip.drRefusal b = none) ∧ s.chip.dr.bad = []) ∧
    (∃ (s : State) (r : Nat) (t : Nat) (q : Nat) (w : Nat) (a : Nat) (b : Nat), s.chip.awake = true ∧
      s.chip.lg.reload = some (r, t, q, w) ∧ s.chip.lg.testing = false ∧
      a = s.chip.slotAddr (tget 0 (rsKey r t) s.chip.cfg.src) + 0x4000 + 320 * q ∧ b ∈ rowsOf a 320 ∧
      s.chip.drRefusal b ≠ none) :=
  ⟨⟨(dev fun c => { c with cfg := { c.cfg with burns := [{ slot := 0, what := 5, num := 0, data := [] }] } }),
     ({ slot := 0, what := 5, num := 0, data := [] }), ([]), by decide +kernel⟩,
   ⟨(dev fun c => { c with cfg := { c.cfg with burns := [{ slot := 0, what := 6, num := 0, data := [] }] } }),
     ({ slot := 0, what := 6, num := 0, data := [] }), ([]), by decide +kernel⟩,
   ⟨(dev fun c => { c with st := { c.st with cur := some { kind := 9, loc := 31, slots := [] } } }), 7, 3,
     ({ kind := 9, loc := 31, slots := [] }), by decide +kernel⟩,
   ⟨(dev fun c => { c with st := { c.st with kind := 1 } }), by decide +kernel⟩,
   ⟨(dev fun c => { c with st := { c.st with slice := some (0, 0, stUser) } }),
     ({ endSt := 0, done := 4, exp := 4, sig := 0, sigOk := true }), 0, 0, by decide +kernel⟩,
   ⟨(dev fun c => { c with st := { c.st with queue := [{ kind := 9, loc := 31, slots := [] }] } }),
     ({ kind := 9, loc := 31, slots := [] }), by decide +kernel⟩,
   ⟨(dev fun c => { c with st := { c.st with cur := some { kind := 1, loc := 0, slots := [] } } }),
     ({ endSt := 0, done := 4, exp := 4, sig := 0, sigOk := true }), ({ kind := 1, loc := 0, slots := [] }),
     by decide +kernel⟩,
   ⟨(dev fun c => { c with st := { c.st with cur := some { kind := 1, loc := 0, slots := [] } } }),
     ({ endSt := 4, done := 0, exp := 4, sig := 0, sigOk := false }), ({ kind := 1, loc := 0, slots := [] }),
     by decide +kernel⟩,
   ⟨(dev fun c => { c with st := { c.st with full := some { slot := 0, aborts := [] } } }),
     ({ slot := 0, aborts := [] }), by decide +kernel⟩,
   ⟨(dev fun c => ready 0 0 c), 0, 0, 0, by decide +kernel⟩,
   ⟨(dev fun c => { c with lg := { c.lg with reload := some (0, 0, 0, 0) } }), by decide +kernel⟩,
   ⟨(dev fun c => { c with lg := { c.lg with reload := some (0, 0, 0, 0) } }), 0, 0, 0, 0,
     (up.slotAddr 0 + 0x4000), by decide +kernel⟩,
   ⟨(dev fun c => { c.set F.DR_STAT_STATE drFrozen with lg := { c.lg with reload := some (0, 0, 0, 0) } }),
     0, 0, 0, 0, (up.slotAddr 0 + 0x4000), (up.slotAddr 0 + 0x4000), by decide +kernel⟩⟩

/-- `Obligations.SelfTestCommandRows`. -/
theorem meets_SelfTestCommandRows :
    (∃ (s : State) (p : Pkt), s.chip.quiet.accepts cmdStStatus p) ∧
    (∃ (s : State) (p : Pkt) (k : Nat) (l : Nat), s.chip.quiet.accepts cmdStRun p ∧ k = pb p.payload 0 ∧
      l = pf p.payload 4 4 ∧ s.chip.st.full = none ∧ k ≠ 9 ∧ s.chip.elemRetired k l = false ∧
      s.chip.dstate ≠ stSafe ∧ s.chip.tqFull k l = false) ∧
    (∃ (s : State) (p : Pkt), s.chip.quiet.accepts cmdStFull p ∧ s.chip.st.full = none ∧
      lcProvField s.chip.lc = false ∧ s.chip.dstate = stFw) ∧
    (∃ (s : State) (p : Pkt), s.chip.quiet.accepts cmdStFull p ∧ lcProvField s.chip.lc = false ∧
      s.chip.dstate = stUser) ∧
    (∃ (s : State) (p : Pkt), s.chip.quiet.accepts cmdStLogRead p ∧ s.chip.st.full = none) ∧
    (∃ (s : State) (p : Pkt), s.chip.quiet.accepts cmdStFuseRepair p ∧ s.chip.st.full = none) ∧
    (∃ (s : State) (p : Pkt), s.chip.quiet.accepts cmdStLogClear p ∧ s.chip.st.full = none) ∧
    (∃ (s : State) (p : Pkt), s.chip.quiet.accepts cmdLgStatus p ∧ s.chip.st.full = none) :=
  ⟨⟨(dev id), (pk []), by unfold Chip.accepts; decide +kernel⟩,
   ⟨(dev id), (pk [12, 0, 0, 0, 0xFF, 0xFF, 0, 0]), 12, 0xFFFF, by unfold Chip.accepts; decide +kernel⟩,
   ⟨(dev fun c => (c.set F.SYS_STATE_STATE stFw).set F.SEC_STAT_LC lcRma), (pk []),
     by unfold Chip.accepts; decide +kernel⟩,
   ⟨(dev fun c => c.set F.SEC_STAT_LC lcRma), (pk []), by unfold Chip.accepts; decide +kernel⟩,
   ⟨(dev fun c => { c with st := { c.st with log := [1] } }), (pk [0, 0, 1, 0, 0, 0, 0, 0]),
     by unfold Chip.accepts; decide +kernel⟩,
   ⟨(dev id), (pk []), by unfold Chip.accepts; decide +kernel⟩,
   ⟨(dev fun c => c.set F.SEC_STAT_LC lcRma), (pk []), by unfold Chip.accepts; decide +kernel⟩,
   ⟨(dev id), (pk []), by unfold Chip.accepts; decide +kernel⟩⟩

/-- `Obligations.StepRunsTheFrontCommand`. -/
theorem meets_StepRunsTheFrontCommand :
    ∃ (s : State) (c : Instr) (rest : List Instr), s.pending = c :: rest :=
  ⟨{ State.reset with pending := [.tapReset] }, .tapReset, [], rfl⟩

/-- `Obligations.EmptyQueueTicks`. -/
theorem meets_EmptyQueueTicks :
    (∃ (s : State), s.pending = [] ∧ s.chip.awake = true ∧ s.chip.chanterUp = true ∧ s.chip.startable = []) ∧
    (∃ (s : State), s.pending = [] ∧ s.chip.awake = true ∧ s.chip.chanterUp = true ∧ s.chip.startable ≠ [] ∧
      s.chip.ch.busy = false) ∧
    (∃ (s : State), s.pending = [] ∧ s.chip.awake = true ∧ s.chip.chanterUp = true ∧ s.chip.startable ≠ [] ∧
      s.chip.ch.busy = true) ∧
    (∃ (s : State), s.pending = [] ∧ s.chip.awake = true ∧ s.chip.chanterUp = false) ∧
    (∃ (s : State), s.pending = [] ∧ s.chip.awake = false) ∧
    (∃ (c : Chip), c.tbRuns = true) ∧
    (∃ (c : Chip), c.tbRuns = false) ∧
    (∃ (c : Chip) (k : Slot), k ∈ c.startable ∧ k.flags.testBit 0 = false) ∧
    (∃ (c : Chip) (k : Cmd) (p : Pkt), c.takesPackets = true ∧ p.payload.length ≤ 4096 ∧
      (p.route = .i3c → packetLen p.payload.length ≤ c.get F.I3C_STAT_MWL) ∧
      c.wayOf p.route p.tag.toNat p.dest.toNat (p.flags.toNat.testBit 2) = .run ∧
      c.cmdRefusal k p.flags.toNat p.payload = none ∧ c.startsNow k.cls p.flags.toNat = false) :=
  ⟨⟨(dev id), by decide +kernel⟩,
   ⟨(dev fun c => { c with ch := { c.ch with slots := [{ slot with started := false }] } }),
     by decide +kernel⟩,
   ⟨(dev fun c => { c with ch := { c.ch with slots := [{ slot with started := false }], busy := true } }),
     by decide +kernel⟩,
   ⟨(dev fun c => c.set F.SYS_STATE_STATE stBoot), by decide +kernel⟩,
   ⟨(dev fun c => c.set F.SYS_STATE_STATE stOff), by decide +kernel⟩,
   ⟨up, by decide +kernel⟩,
   ⟨(up.set F.SYS_STATE_STATE stBoot), by decide +kernel⟩,
   ⟨{ up with ch := { up.ch with slots := [{ slot with started := false }] } },
     { slot with started := false }, by decide +kernel⟩,
   ⟨({ up with ch := { up.ch with slots := [{ slot with tag := 2, started := false }] } }), cmdSysNop,
     (pk []), by decide +kernel⟩⟩

/-- `Obligations.EveryStepKeepsSound`. -/
theorem meets_EveryStepKeepsSound :
    ∃ (s : State) (s' : State), s.chip.Sound ∧ step s = .next s' :=
  ⟨{ State.reset with pending := [.jtagIdcode] }, _,
    ⟨by decide, by decide, by decide +kernel, by decide, by decide, by decide, by decide, by decide, by decide, by decide, fun _ h => nomatch h⟩,
    rfl⟩

/-- `Obligations.FieldStoreFrame`. -/
theorem meets_FieldStoreFrame :
    (∃ (f : Fld) (g : Fld), g.key ≠ f.key) ∧
    (∃ (c : Chip) (f : Fld), c.get f ≤ 2 ^ f.w - 1) :=
  ⟨⟨F.SYS_STATE_STATE, F.SYS_STATE_CAUSE, by decide +kernel⟩,
   ⟨up, F.SYS_STATE_STATE, by decide +kernel⟩⟩

/-- `Obligations.TapIsolation`. -/
theorem meets_TapIsolation :
    ∃ (i : Instr) (s : State) (t : State), exec i s = .next t ∧ t.chip.jtag ≠ s.chip.jtag :=
  ⟨.extest, dev fun c => { c.set F.PWR_STAT_VALID 0x7FF with aon := { c.aon with resetLow := true } }, _,
    rfl, by decide +kernel⟩

/-- `Obligations.CrcIsCrc32c`. -/
theorem meets_CrcIsCrc32c :
    ∃ (pl : List Byte), pl ≠ [] :=
  ⟨(z 4), by decide +kernel⟩

/-- `Obligations.AddressAlus`. -/
theorem meets_AddressAlus :
    ∃ (c : Chip) (k : Fin 16) (w : Nat), iXop w < 0xC ∧ iYop w < 0xC ∧
      (∀ r < 8, c.get (F.PE_XALU_VAL k r) < 2 ^ 32 ∧ c.get (F.PE_YALU_VAL k r) < 2 ^ 32) :=
  ⟨up, 0, 0, by decide +kernel⟩

/-- `Obligations.CallStackFaults`. -/
theorem meets_CallStackFaults :
    (∃ (s : State) (k : Fin 16) (word : BitVec 256), s.chip.awake = true ∧
      s.chip.is (F.PE_CTL_GANG_EN k) = false ∧ s.chip.peState k = peRunning ∧ (s.chip.eng k).pause = none ∧
      (s.chip.eng k).npc < 65536 ∧ 8 ≤ s.chip.get (F.PE_STAT_STACK_DEPTH k) ∧
      s.chip.illegal k (withSeq seqCALL word.toNat) = false) ∧
    (∃ (s : State) (k : Fin 16) (word : BitVec 256), s.chip.awake = true ∧
      s.chip.is (F.PE_CTL_GANG_EN k) = false ∧ s.chip.peState k = peRunning ∧ (s.chip.eng k).pause = none ∧
      (s.chip.eng k).npc < 65536 ∧ s.chip.get (F.PE_STAT_STACK_DEPTH k) = 0 ∧
      s.chip.illegal k (withSeq seqRET word.toNat) = false) :=
  ⟨⟨(dev fun c => (c.set (F.PE_STAT_STATE 0) peRunning).set (F.PE_STAT_STACK_DEPTH 0) 8), 0, 0,
     by decide +kernel⟩,
   ⟨(dev fun c => c.set (F.PE_STAT_STATE 0) peRunning), 0, 0, by decide +kernel⟩⟩

/-- `Obligations.AtomicsOnOneWord`. -/
theorem meets_AtomicsOnOneWord :
    ∃ (c : Chip) (r : Nat) (w : Nat), c.sp.bad.contains (spAddr r w) = false :=
  ⟨up, 0, 0, by decide +kernel⟩

/-- `Obligations.ReplyLayout`. -/
theorem meets_ReplyLayout :
    (∃ (cls : Nat) (op : Nat) (tag : Nat) (status : Nat) (detail : Nat) (src : Nat) (depth : Nat) (pl : List Byte), cls < 2 ^ 8 ∧
      op < 2 ^ 8 ∧ tag < 2 ^ 16 ∧ status < 2 ^ 8 ∧ detail < 2 ^ 8 ∧ src < 2 ^ 16 ∧ depth < 2 ^ 16 ∧
      pl.length ≤ 4096) ∧
    (∃ (c : Chip) (id : Nat) (k : Slot), c.slot? id = some k ∧ k.ended = false ∧ c.ch.restarting = false ∧
      k.route = .i3c) ∧
    (∃ (c : Chip) (id : Nat) (k : Slot), c.slot? id = some k ∧ k.ended = false ∧ c.ch.restarting = false ∧
      k.route ≠ .i3c) :=
  ⟨⟨0xFF, 0xFF, 0xFFFF, 0xFF, 0xFF, 0xFFFF, 0xFFFF, ([]), by decide +kernel⟩,
   ⟨({ up with ch := { up.ch with slots := [slot] } }), 0, slot, by decide +kernel⟩,
   ⟨({ up with ch := { up.ch with slots := [{ slot with route := .root }] } }), 0,
     ({ slot with route := .root }), by decide +kernel⟩⟩

/-- `Obligations.SysStateLayout`. -/
theorem meets_SysStateLayout :
    (∃ (c : Chip), (∀ f ∈ [F.SYS_STATE_STATE, F.SYS_STATE_FALLBACK, F.SYS_STATE_PREV_STATE, F.SYS_STATE_CAUSE, F.SYS_STATE_STRICT_HALT, F.SYS_STATE_COOLANT_OK, F.SYS_STATE_LOGIC_PG, F.SYS_STATE_BOOT_COUNT], c.get f < 2 ^ f.w)) ∧
    (∃ (s : State), s.chip.dstate ≠ stOff) :=
  ⟨⟨up, by decide +kernel⟩,
   ⟨(dev id), by decide +kernel⟩⟩

/-- `Obligations.ResetActions`. -/
theorem meets_ResetActions :
    (∃ (s : State) (act : Byte), act.toNat ≤ 2 ∧ s.chip.i3cLive = true) ∧
    (∃ (s : State) (act : Byte) (a : BitVec 7), act.toNat ≤ 2 ∧ s.chip.i3cMine a.toNat = true) ∧
    (∃ (act : Byte), 2 < act.toNat) ∧
    (∃ (s : State) (disarmed : Chip → Chip), (disarmed = fun c => { c with aon := { c.aon with rstArm := none } }) ∧
      (s.chip.aon.rstArm = none ∨ s.chip.aon.rstArm = some 0)) ∧
    (∃ (s : State) (disarmed : Chip → Chip), (disarmed = fun c => { c with aon := { c.aon with rstArm := none } }) ∧
      s.chip.aon.rstArm = some 1 ∧ s.chip.chanterUp = true) ∧
    (∃ (s : State) (disarmed : Chip → Chip), (disarmed = fun c => { c with aon := { c.aon with rstArm := none } }) ∧
      s.chip.aon.rstArm = some 2 ∧ s.chip.awake = true) ∧
    (∃ (s : State), s.chip.dstate ≠ stOff) :=
  ⟨⟨(dev fun c => { c with aon := { c.aon with i3cOpen := true } }), 2, by decide +kernel⟩,
   ⟨(dev fun c => onBus c), 2, 0x5A, by decide +kernel⟩,
   ⟨3, by decide +kernel⟩,
   ⟨(dev fun c => { c with aon := { c.aon with rstArm := some 0 } }),
     (fun c => { c with aon := { c.aon with rstArm := none } }), ⟨rfl, by decide +kernel⟩⟩,
   ⟨(dev fun c => { c with aon := { c.aon with rstArm := some 1 } }),
     (fun c => { c with aon := { c.aon with rstArm := none } }), ⟨rfl, by decide +kernel⟩⟩,
   ⟨(dev fun c => { c with aon := { c.aon with rstArm := some 2 } }),
     (fun c => { c with aon := { c.aon with rstArm := none } }), ⟨rfl, by decide +kernel⟩⟩,
   ⟨(dev id), by decide +kernel⟩⟩

/-- `Obligations.IdentificationValues`. -/
theorem meets_IdentificationValues :
    ∃ (s : State) (a : BitVec 7), s.chip.i3cMine a.toNat = true :=
  ⟨(dev fun c => onBus c), 0x5A, by decide +kernel⟩

/-- `Obligations.BusyRefusal`. -/
theorem meets_BusyRefusal :
    (∃ (s : State) (ni : Fin 288) (bulk : Bool) (q : NReq), s.chip.awake = true ∧
      (96 ≤ ni.val → 16 ≤ (s.chip.gateOf (ni - 96)).length) ∧
      s.chip.net.flight.find? (fun q => niOf q.addr = ni.val && q.cls = (if bulk then 2 else 1) && !s.chip.net.gate.contains q) = some q ∧
      s.chip.routeOk q.ni ni = true ∧ s.chip.get (F.NI_CTL_BUSY_WAIT ni) ≠ 0 ∧
      s.chip.get (F.NI_CNT_A_BUSY_CNT ni) < 2 ^ (F.NI_CNT_A_BUSY_CNT ni).w - 1) ∧
    (∃ (s : State) (ni : Fin 288) (bulk : Bool) (q : NReq), s.chip.awake = true ∧
      (96 ≤ ni.val → 16 ≤ (s.chip.gateOf (ni - 96)).length) ∧
      s.chip.net.flight.find? (fun q => niOf q.addr = ni.val && q.cls = (if bulk then 2 else 1) && !s.chip.net.gate.contains q) = some q ∧
      s.chip.routeOk q.ni ni = true ∧ s.chip.get (F.NI_CTL_BUSY_WAIT ni) = 0) :=
  ⟨⟨(dev fun c => { c.set (F.NI_CTL_BUSY_WAIT 0) 1 with net := { c.net with flight := [{ req with addr := 0 }] } }),
     0, false, ({ req with addr := 0 }), by decide +kernel⟩,
   ⟨(dev fun c => { c.set (F.NI_CTL_BUSY_WAIT 0) 0 with net := { c.net with flight := [{ req with addr := 0 }] } }),
     0, false, ({ req with addr := 0 }), by decide +kernel⟩⟩

/-- `Obligations.BitmapRange`. -/
theorem meets_BitmapRange :
    ∃ (c : Chip) (k : Fin 16) (e : Nat), c.is (F.CAP_PE_CTL_BM_EN k) = true ∧
      (2 ^ c.get (F.BM_GEOM_BXW k) ≤ fwX e ∨ 2 ^ c.get (F.BM_GEOM_BYW k) ≤ fwY e) :=
  ⟨(up.set (F.CAP_PE_CTL_BM_EN 15) 1), 15, (2 ^ 159), by decide +kernel⟩

/-- `Obligations.EventQueueLoss`. -/
theorem meets_EventQueueLoss :
    (∃ (c : Chip), c.ch.events.length < 256) ∧
    (∃ (c : Chip) (e : Ev) (m : Nat), c.ch.events.length = 256 ∧ (∀ x ∈ c.ch.events, x.sev ≤ 3) ∧ e.sev ≤ 3 ∧
      (∃ x ∈ c.ch.events, x.sev = m) ∧ (∀ x ∈ c.ch.events, m ≤ x.sev) ∧ m ≤ e.sev) :=
  ⟨⟨({ up with ch := { up.ch with events := List.replicate 255 { code := 0, sev := 0, masked := false, arg := 0, time := 0 } } }),
     by decide +kernel⟩,
   ⟨{ up with ch := { up.ch with events := List.replicate 256 { code := 0, sev := 1, masked := false, arg := 0, time := 0 } } },
     { code := 0, sev := 1, masked := false, arg := 0, time := 0 }, 1, by decide +kernel⟩⟩

/-- `Obligations.ThrottleLaw`. -/
theorem meets_ThrottleLaw :
    ∃ (c : Chip), c.get F.TH_CFG_THROTTLE < c.get F.TH_CFG_LIMIT :=
  ⟨up, by decide +kernel⟩

end Sys2Proof.Tests
end

section
/-! PROOF. Registers in control space (O9, O44): a field after a store or a count, a row that runs in an awake device, the clears, the
event queue's flush, a change of the arbitration weights, and a 64-bit write by address. -/

namespace Sys2Proof.Machine

variable {c : Chip} {s : State}

/-! ## Stores and counts -/

/-- A counter holds its sum, or its maximum where the sum is above it (R34). -/
theorem Chip.get_addSat_same (f : Fld) (n : Nat) (c : Chip) : (c.addSat f n).get f = min (2 ^ f.w - 1) (c.get f + n) := by
  have hfit : min (2 ^ f.w - 1) (c.get f + n) < 2 ^ f.w :=
    Nat.lt_of_le_of_lt (Nat.min_le_left _ _) (Nat.sub_lt (Nat.two_pow_pos f.w) Nat.one_pos)
  rw [Chip.addSat, Chip.get_set_same, Nat.mod_eq_of_lt hfit]

/-- Counting does not take a counter back: at its maximum it stays there. -/
theorem Chip.get_le_get_inc {f : Fld} (h : c.get f ≤ 2 ^ f.w - 1) : c.get f ≤ (c.inc f).get f := by
  rw [Chip.inc, Chip.get_addSat_same]
  exact Nat.le_min.2 ⟨h, Nat.le_succ _⟩

/-- A store changes nothing beside the register file. -/
theorem Chip.set_restore_rf (f : Fld) (v : Nat) (c : Chip) : ({ c.set f v with rf := c.rf } : Chip) = c := rfl

/-- Settles O44: the laws of reads after stores, and a saturated sum is always within the field's width. -/
theorem fieldStoreFrame : Obligations.FieldStoreFrame := fun c f _g v n =>
  ⟨c.get_set_same f v, c.get_set_ne v, c.set_restore_rf f v, c.get_addSat_same f n, Chip.get_le_get_inc⟩

/-! ## Rows of an awake device -/

/-- A command whose meaning is `t` does what `u` says where the two agree on every device. -/
theorem exec_eq_after {i : Instr} {t u : Chip → Chip} (hi : exec i s = runChip t s) (h : s.chip.awake = true)
    (htu : ∀ c, t c = u c) : exec i s = .next (s.after u) := by
  rw [hi, runChip_awake s t h, funext htu]

/-! ## Clears (R34) -/

@[simp] theorem Chip.clear_nil (c : Chip) : c.clear [] = c := rfl
@[simp] theorem Chip.clear_cons (f : Fld) (fs : List Fld) (c : Chip) : c.clear (f :: fs) = (c.set f 0).clear fs := rfl

/-! ## The event queue (R62, R70) -/

/-- In a queue with room, an overflow event that is owed is raised. -/
theorem Chip.evqOverflow_of_room (h : c.ch.events.length < 256) :
    c.evqOverflow = if c.ch.lossRun = 0 then c
      else Chip.raise EV_SYS_EVQ_OVERFLOW c.ch.lossRun { c with ch := { c.ch with lossRun := 0 } } := by
  by_cases hrun : c.ch.lossRun = 0
  · simp [Chip.evqOverflow, hrun]
  · simp [Chip.evqOverflow, hrun, h, Nat.pos_of_ne_zero hrun]

/-- A flush empties the queue, and then there is room for the overflow event. -/
theorem Chip.evqFlush_eq (c : Chip) :
    c.evqFlush = if c.ch.lossRun = 0 then { c with ch := { c.ch with events := [] } }
      else Chip.raise EV_SYS_EVQ_OVERFLOW c.ch.lossRun { c with ch := { c.ch with events := [], lossRun := 0 } } :=
  Chip.evqOverflow_of_room (c := { c with ch := { c.ch with events := [] } }) (Nat.zero_lt_succ 255)

/-! ## The arbitration weights (R302, R312) -/

/-- The weights of a `NET_WRR` value, stored. -/
def Chip.setWeights (v : Nat) (c : Chip) : Chip :=
  (((c.set F.NET_WRR_W_RT (bits v 7 0)).set F.NET_WRR_W_FAB (bits v 15 8)).set F.NET_WRR_W_BULK (bits v 23 16)).set
    F.NET_WRR_W_CTL (bits v 31 24)

/-- Every router is to apply the weights, and the first quiesces. -/
def Chip.startWeights (c : Chip) : Chip :=
  (Chip.set F.NET_STAT_WRR_PENDING 1 { c with net := { c.net with wrrTo := List.range 96, retry := [] } }).set
    (F.ROUTER_STAT_QUIESCING 0) 1

theorem Chip.wrrWrite_of_zero {v : Nat} (h : bits v 7 0 = 0 ∨ bits v 31 24 = 0) : c.wrrWrite v = (rspRange, c) := if_pos h

/-- A value with `W_RT` and `W_CTL` above 0 is stored, and a change begins unless one is pending. -/
theorem Chip.wrrWrite_of_pos {v : Nat} (hrt : bits v 7 0 ≠ 0) (hctl : bits v 31 24 ≠ 0) :
    c.wrrWrite v = (rspOk, if c.net.wrrTo = [] then (c.setWeights v).startWeights else c.setWeights v) := by
  by_cases hto : c.net.wrrTo = []
  · simp [Chip.wrrWrite, hrt, hctl, hto, Chip.setWeights, Chip.startWeights]
  · simp [Chip.wrrWrite, hrt, hctl, hto, Chip.setWeights]

/-! ## A 64-bit write by address (R6) -/

theorem halfRefusal_of_reg {off : Nat} {fs : List Fld} (h : regAt off = some (false, fs)) : halfRefusal off = none := by
  simp [halfRefusal, h]

theorem Chip.writeHalf_of_refusal {ni off v : Nat} {r : Rsp} (h : halfRefusal off = some r) : c.writeHalf ni off v = (r, c) := by
  simp [Chip.writeHalf, h]

/-- A register of the system block other than the three that act when written follows its access codes. -/
theorem Chip.writeHalf_system {ni off v : Nat} {fs : List Fld} (hreg : regAt off = some (false, fs)) (hsys : off < 0x100000)
    (hcnt : off ≠ 0x38) (hmask : off ≠ 0x58) (hctl : off ≠ 0x60) :
    c.writeHalf ni off v = (rspOk, c.writeFlds true v fs) := by
  have hblock : off / 0x100000 = 0 := Nat.div_eq_of_lt hsys
  simp [Chip.writeHalf, halfRefusal_of_reg hreg, hreg, hblock, hcnt, hmask, hctl]

theorem Chip.registerWrite_of_misaligned {addr v : Nat} (h : addr % 8 ≠ 0) : c.registerWrite addr v = c.answer rspAlign 0 := by
  unfold Chip.registerWrite
  split
  · exact if_pos h
  · exact if_pos h

theorem Chip.registerWrite_outside_ctl {addr v : Nat} (h8 : addr % 8 = 0) (h : ∀ off, placeOf addr ≠ .ctl off) :
    c.registerWrite addr v = c.answer rspDecerr 0 := by
  unfold Chip.registerWrite
  split
  case h_1 off hoff => exact absurd hoff (h off)
  case h_2 => exact if_neg fun hne => hne h8

/-- Outside the NVS window a write does what the register's own write does, at the NI of the Chanter controller. -/
theorem Chip.registerWrite_in_ctl {addr v off : Nat} (h8 : addr % 8 = 0) (hoff : placeOf addr = .ctl off)
    (hnvs : ¬(0xD00000 ≤ off ∧ off < 0xD80000)) : c.registerWrite addr v = answerWrite (c.writeHalf 52 off v) := by
  simp [Chip.registerWrite, hoff, h8, Chip.ctlWrite, hnvs, answerWrite]

/-! ## The register rows -/

/-- Settles O9: each row's command runs one function of the device, and that function's equation gives the row. A write in the NVS window
is only run. -/
theorem registerRows : Obligations.RegisterRows := by
  intro s hs
  refine ⟨?misaligned, ?outside, ?refused, ?system, ?other, ?nvs, ?chCntClr, ?evqMask, ?evqClrLost, ?evqFlush, ?wrrZero, ?wrrSet,
    ?niCntClr⟩
  case misaligned =>
    exact fun addr data h => exec_eq_after (exec_registerWrite addr data s) hs fun c => Chip.registerWrite_of_misaligned h
  case outside =>
    exact fun addr data h8 h => exec_eq_after (exec_registerWrite addr data s) hs fun c => Chip.registerWrite_outside_ctl h8 h
  case refused =>
    intro addr data off r h8 hoff hnvs hr
    refine exec_eq_after (exec_registerWrite addr data s) hs fun c => ?_
    rw [Chip.registerWrite_in_ctl h8 hoff hnvs, Chip.writeHalf_of_refusal hr, answerWrite]
  case system =>
    intro addr data off fs h8 hoff hreg hsys hcnt hmask hctl
    have hnvs : ¬(0xD00000 ≤ off ∧ off < 0xD80000) := by omega
    refine exec_eq_after (exec_registerWrite addr data s) hs fun c => ?_
    rw [Chip.registerWrite_in_ctl h8 hoff hnvs, Chip.writeHalf_system hreg hsys hcnt hmask hctl, answerWrite]
  case other =>
    intro addr data off h8 hoff hnvs
    exact exec_eq_after (exec_registerWrite addr data s) hs fun c => Chip.registerWrite_in_ctl h8 hoff hnvs
  case nvs =>
    exact fun addr data off _ _ _ _ => ⟨_, exec_registerWrite addr data s, rfl⟩
  case chCntClr =>
    refine fun data => exec_eq_after (exec_chCntClr data s) hs fun c => ?_
    simp only [Chip.chCntClr, Chip.clear_cons, Chip.clear_nil]
  case evqMask =>
    exact fun data => exec_eq_after (exec_evqMaskWrite data s) hs fun c => rfl
  case evqClrLost =>
    exact exec_eq_after (exec_evqClrLost s) hs fun c => rfl
  case evqFlush =>
    refine exec_eq_after (exec_evqFlush s) hs fun c => ?_
    rw [Chip.evqFlush_eq, apply_ite (Chip.answer rspOk 0)]
  case wrrZero =>
    refine fun data h => exec_eq_after (exec_netWrrWrite data s) hs fun c => ?_
    rw [Chip.wrrWrite_of_zero h, answerWrite]
  case wrrSet =>
    refine fun data hrt hctl => exec_eq_after (exec_netWrrWrite data s) hs fun c => ?_
    rw [Chip.wrrWrite_of_pos hrt hctl, answerWrite, apply_ite (Chip.answer rspOk 0)]
    rfl
  case niCntClr =>
    refine fun ni data => exec_eq_after (exec_niCntClr ni data s) hs fun c => ?_
    simp only [Chip.niCntClr, Chip.clear_cons, Chip.clear_nil]

end Sys2Proof.Machine
end

section
/-! PROOF. What a reset of the islands and a loss of VDD_AON leave of the test access port and of the fused repair records (O1). -/

namespace Sys2Proof.Machine

/-! ## Parts that events, replies, the capture units and the stores leave alone -/

/-- The test access port, the self-test engine and the configuration: events, replies, the capture units, the DRAM queues and the
persistent store touch none of them. -/
def Chip.aside (c : Chip) : Jtag × SelfTest × Cfg := (c.jtag, c.st, c.cfg)

variable (c : Chip)

@[simp] theorem Chip.set_aside (f : Fld) (v : Nat) : (c.set f v).aside = c.aside := rfl

/-- An update of other parts. Its new values stay out of the comparison of the two devices. -/
theorem Chip.mk_aside {rf : Tab Nat} {mem : Memory} {aon : Aon} {ch : Chanter} {th : Thermal} {rd : Reeds} {pe : Tab Pe} {xg : Xg}
    {stops : List (Nat × Nat × Nat)} {cap : Cap} {rae : Rae} {fab : Fabric} {sp : Spads} {net : Net} {ww : Ww} {dma : Dma}
    {dr : Dram} {lg : Ligature} {nvs : Nvs} {freeCtr : Nat} {turn prior : Option Turn} {out : List Out} :
    (Chip.mk rf mem aon ch th rd pe xg stops cap rae fab sp net ww dma dr c.cfg c.st lg nvs c.jtag freeCtr turn prior out).aside =
      c.aside := rfl

theorem Chip.ite_aside {p : Prop} [Decidable p] {a b : Chip} (ha : a.aside = c.aside) (hb : b.aside = c.aside) :
    (if p then a else b).aside = c.aside := by
  split
  · exact ha
  · exact hb

/-- What every step of a fold leaves, the fold leaves. -/
theorem Chip.forAll_frame {α β : Type} (part : Chip → β) (l : List α) {f : α → Chip → Chip} (hf : ∀ a c, part (f a c) = part c)
    (c : Chip) : part (c.forAll l f) = part c := by
  induction l generalizing c with
  | nil => rfl
  | cons a l ih => exact (ih (f a c)).trans (hf a c)

theorem Chip.forAll_aside {α : Type} (l : List α) {f : α → Chip → Chip} (hf : ∀ a c, (f a c).aside = c.aside) :
    (c.forAll l f).aside = c.aside :=
  Chip.forAll_frame Chip.aside l hf c

/-! Events (R43, R61, R62) -/

theorem Chip.evqPut_aside (e : Ev) : (c.evqPut e).aside = c.aside :=
  c.ite_aside rfl (c.ite_aside rfl rfl)

theorem Chip.evLogPut_aside (e : Ev) : (c.evLogPut e).aside = c.aside :=
  c.ite_aside (c.ite_aside rfl rfl) rfl

theorem Chip.notice_aside (kind : Nat) : (c.notice kind).aside = c.aside :=
  c.ite_aside rfl (c.ite_aside rfl rfl)

theorem Chip.requestEventIbi_aside : c.requestEventIbi.aside = c.aside := by
  unfold Chip.requestEventIbi
  extract_lets d
  have hd : d.aside = c.aside := c.ite_aside rfl rfl
  exact c.ite_aside ((d.notice_aside 2).trans hd) hd

theorem Chip.raiseAt_aside (code sev arg : Nat) : (c.raiseAt code sev arg).aside = c.aside := by
  unfold Chip.raiseAt
  extract_lets e n
  have he : ((c.evqPut e).evLogPut e).aside = c.aside := (Chip.evLogPut_aside _ e).trans (c.evqPut_aside e)
  exact c.ite_aside ((Chip.requestEventIbi_aside _).trans he) he

@[simp] theorem Chip.raise_aside (e : Nat × Nat) (arg : Nat) : (c.raise e arg).aside = c.aside := c.raiseAt_aside e.1 e.2 arg

theorem Chip.raiseIf_aside (b : Bool) (e : Nat × Nat) (arg : Nat) : (c.raiseIf b e arg).aside = c.aside :=
  c.ite_aside (c.raise_aside e arg) rfl

theorem Chip.flagEvent_aside (f : Fld) (e : Nat × Nat) (arg : Nat) : (c.flagEvent f e arg).aside = c.aside :=
  c.ite_aside rfl ((Chip.raise_aside _ e arg).trans rfl)

/-! Replies (R48, R49, R57) -/

theorem Chip.sendReply_aside (route : Route) (slot : Option Nat) (refusal : Bool) (bytes : List Byte) :
    (c.sendReply route slot refusal bytes).aside = c.aside := by
  cases route
  case i3c => exact c.ite_aside rfl rfl
  all_goals rfl

theorem Chip.finish1_aside (id status detail : Nat) (payload : List Byte) : (c.finish1 id status detail payload).aside = c.aside := by
  unfold Chip.finish1
  split
  · rfl
  · refine c.ite_aside rfl (c.ite_aside (c.ite_aside rfl rfl) ?_)
    exact (Chip.raiseIf_aside _ _ _ _).trans (c.ite_aside (c.sendReply_aside ..) (c.sendReply_aside ..))

theorem Chip.finish_aside (id status detail : Nat) (payload : List Byte) : (c.finish id status detail payload).aside = c.aside :=
  (Chip.forAll_aside _ _ fun _ d => d.finish1_aside ..).trans (c.finish1_aside ..)

theorem Chip.ok_aside (id : Nat) (payload : List Byte) : (c.ok id payload).aside = c.aside := c.finish_aside ..

/-! The fail-address table and the fail bitmap (R142, R147 to R156) -/

theorem Chip.fatMark_aside : c.fatMark.aside = c.aside := by
  unfold Chip.fatMark
  split
  · simp
  · split <;> simp

theorem Chip.fatInsert_aside {fails x y dom : Nat} {d : Chip} (h : c.fatInsert fails x y dom = some d) : d.aside = c.aside := by
  unfold Chip.fatInsert at h
  extract_lets all at h
  split at h
  · cases h
    exact c.mk_aside
  · split at h
    · cases h
      exact (Chip.fatMark_aside _).trans c.mk_aside
    · cases h

theorem Chip.fatReject_aside (k e : Nat) : (c.fatReject k e).aside = c.aside := by
  unfold Chip.fatReject
  rw [Chip.flagEvent_aside]
  rfl

theorem Chip.flushMark_aside : c.flushMark.aside = c.aside := c.ite_aside rfl rfl

theorem Chip.flushDone_aside : c.flushDone.aside = c.aside :=
  c.ite_aside ((Chip.forAll_aside _ _ fun id d => d.ok_aside id []).trans rfl) rfl

theorem Chip.setFifo_aside (k : Nat) (q : List Nat) : (c.setFifo k q).aside = c.aside := by
  unfold Chip.setFifo
  exact c.ite_aside rfl (c.ite_aside rfl rfl)

theorem Chip.bmOffer_aside (k e : Nat) : (c.bmOffer k e).chip.aside = c.aside := by
  unfold Chip.bmOffer
  extract_lets x y bxw bs base
  split
  · rfl
  split
  · exact (Chip.flagEvent_aside _ _ _ _).trans rfl
  split
  · rfl
  split
  · rfl
  split
  · rfl
  split
  · rfl
  split
  · rfl
  split <;> rfl

theorem Chip.dispatch_aside (k : Nat) : (c.dispatch k).aside = c.aside := by
  unfold Chip.dispatch
  split
  · rfl
  · rename_i e q _
    extract_lets x r x' d1 d2 x''
    have h1 : d1.aside = c.aside := by
      refine c.ite_aside rfl (c.ite_aside rfl ?_)
      split
      · rename_i d hd
        exact d.mk_aside.trans (c.fatInsert_aside hd)
      · exact c.ite_aside (r.mk_aside.trans (c.fatReject_aside k e)) c.mk_aside
    have h2 : d2.aside = c.aside := by
      refine c.ite_aside h1 ?_
      have hoff := (d1.bmOffer_aside k e).trans h1
      split
      · rename_i d hd
        rw [hd] at hoff
        exact (Chip.flushMark_aside _).trans hoff
      · rename_i d hd
        rw [hd] at hoff
        exact hoff
    exact c.ite_aside ((Chip.setFifo_aside _ k q).trans h2) h2

theorem Chip.bmPerformed_aside (a : Nat) : (c.bmPerformed a).aside = c.aside := by
  unfold Chip.bmPerformed
  split
  · rfl
  · extract_lets lines
    exact (Chip.forAll_aside _ _ fun k d => d.dispatch_aside k).trans ((Chip.flushDone_aside _).trans (Chip.flushMark_aside _))

/-! The DRAM queues, the scratchpads and the persistent store (R262, R289, R418) -/

theorem Chip.drLevels_aside : c.drLevels.aside = c.aside := c.ite_aside rfl (c.ite_aside rfl rfl)

theorem Chip.drQueueReset_aside : c.drQueueReset.aside = c.aside := by
  unfold Chip.drQueueReset
  extract_lets rows x d
  have hd : d.aside = c.aside := c.ite_aside rfl rfl
  exact (Chip.forAll_aside _ _ fun (w : DrWrite) e => e.bmPerformed_aside w.addr).trans ((Chip.drLevels_aside _).trans hd)

theorem Chip.nvsPut_aside (w v : Nat) : (c.nvsPut w v).aside = c.aside := c.ite_aside rfl rfl

theorem Chip.evlogWords_aside (n : Nat) : (c.evlogWords n).aside = c.aside := by
  unfold Chip.evlogWords
  split
  · rfl
  · exact Chip.forAll_aside _ _ fun w d => d.nvsPut_aside w.1 w.2

theorem Chip.nvsTear_aside (mask : Nat) : (c.nvsTear mask).aside = c.aside :=
  c.ite_aside (c.evlogWords_aside _) rfl

theorem Chip.nvsPowerLoss_aside : c.nvsPowerLoss.aside = c.aside := by
  refine (Chip.nvsTear_aside _ _).trans (Chip.forAll_aside c.freeNext.freeNext _ fun m d => ?_)
  refine d.ite_aside ?_ rfl
  split
  · exact d.nvsPut_aside ..
  · rfl

theorem Chip.spReset_aside (powered : Bool) : (c.spReset powered).aside = c.aside := by
  unfold Chip.spReset
  refine c.ite_aside (Chip.forAll_aside _ _ fun r d => Chip.forAll_aside _ _ fun b e => ?_) c.mk_aside
  exact e.ite_aside e.mk_aside rfl

/-! ## The parts that outlive a loss of VDD_AON (R404, R407, R440) -/

theorem Chip.jtag_of_aside {c d : Chip} (h : d.aside = c.aside) : d.jtag = c.jtag := congrArg Prod.fst h
theorem Chip.st_of_aside {c d : Chip} (h : d.aside = c.aside) : d.st = c.st := congrArg (fun p => p.2.1) h
theorem Chip.cfg_of_aside {c d : Chip} (h : d.aside = c.aside) : d.cfg = c.cfg := congrArg (fun p => p.2.2) h

theorem Chip.rmaZeroise_jtag : c.rmaZeroise.jtag = c.jtag := rfl

theorem Chip.burnDone_jtag (b : Burn) : (c.burnDone b).jtag = c.jtag := by
  have hraise (e arg id pl) (d : Chip) : ((d.raise e arg).ok id pl).jtag = d.jtag :=
    Chip.jtag_of_aside ((Chip.ok_aside _ _ _).trans (d.raise_aside _ _))
  have hok (id pl) (d : Chip) : (d.ok id pl).jtag = d.jtag := Chip.jtag_of_aside (d.ok_aside _ _)
  unfold Chip.burnDone
  split <;> simp only [hraise, hok, Chip.set_jtag, Chip.rmaZeroise_jtag]

theorem Chip.rlogShow_jtag : c.rlogShow.jtag = c.jtag := rfl

theorem Chip.recWrite_jtag (r : Nat) (p : List Byte) (bank : Option Nat) (done : NvsDone) :
    (c.recWrite r p bank done).jtag = c.jtag := rfl

theorem Chip.fuseRepaired_jtag (b : Burn) : (c.fuseRepaired b).jtag = c.jtag := by
  unfold Chip.fuseRepaired
  simp only [Chip.recWrite_jtag, Chip.rlogShow_jtag, Chip.set_jtag]

theorem Chip.fuseDone_jtag : c.fuseDone.jtag = c.jtag := by
  unfold Chip.fuseDone
  split
  · rfl
  · dsimp only
    split
    · exact Chip.fuseRepaired_jtag _ _
    · exact Chip.burnDone_jtag _ _

theorem Chip.burnsEnd_jtag : c.burnsEnd.jtag = c.jtag := by
  refine Chip.forAll_frame Chip.jtag _ (fun _ d => ?_) c
  dsimp only
  split
  · exact Chip.fuseDone_jtag _
  · rfl

theorem Chip.burnsEnd_of_noBurn (h : c.cfg.burns = []) : c.burnsEnd = c := by
  rw [Chip.burnsEnd, h]
  rfl

theorem Chip.islandReset_jtag (spads : Bool) : (c.islandReset spads).jtag = c.jtag :=
  (Chip.jtag_of_aside ((Chip.drQueueReset_aside _).trans (Chip.spReset_aside _ spads))).trans c.burnsEnd_jtag

/-- An island reset that finds no fuse burn in progress keeps the fused repair records. -/
theorem Chip.islandReset_fused (spads : Bool) (h : c.cfg.burns = []) : (c.islandReset spads).st.fused = c.st.fused := by
  have hst : ((c.burnsEnd.spReset spads).drQueueReset).st = c.burnsEnd.st :=
    Chip.st_of_aside ((Chip.drQueueReset_aside _).trans (Chip.spReset_aside _ spads))
  rw [c.burnsEnd_of_noBurn h] at hst
  have hfused : (c.islandReset spads).st.fused = ((c.burnsEnd.spReset spads).drQueueReset).st.fused := rfl
  rw [hfused, c.burnsEnd_of_noBurn h, hst]

end Sys2Proof.Machine
end

section
/-! PROOF. Transitions of the device state, and the supply rows (O1): what each row does under its premises. -/

namespace Sys2Proof.Machine

variable {c : Chip} {s : State} {i : Instr} {t u : Chip → Chip}

/-! ## Rows by the device that they find -/

/-- A command of the always-on island does what `u` says where the two agree on the device as the command finds it. -/
theorem exec_eq_of_runAon (hi : exec i s = runAon t s) (h : t s.chip.quiet = u s.chip.quiet) : exec i s = .next (s.after u) := by
  rw [hi, runAon_eq, State.after, State.after, h]

/-- The same for a command of another island, in an awake device. -/
theorem exec_eq_of_runChip (hi : exec i s = runChip t s) (hawake : s.chip.awake = true) (h : t s.chip.quiet = u s.chip.quiet) :
    exec i s = .next (s.after u) := by
  rw [hi, runChip_awake s t hawake, State.after, State.after, h]

/-! ## The device state and its history fields (R21, R23) -/

theorem Chip.arrive_dstate {st : Nat} (c : Chip) (level : Nat) (h : st < 16) : (c.arrive level st).dstate = st := by
  have hw : st % 2 ^ F.SYS_STATE_STATE.w = st := Nat.mod_eq_of_lt h
  unfold Chip.arrive Chip.dstate
  extract_lets t d d1 d2
  have h1 : d1.get F.SYS_STATE_STATE = st := by rw [Chip.get_set_same, hw]
  have h2 : d2.get F.SYS_STATE_STATE = st := by
    unfold d2
    split
    · exact h1
    · rwa [Chip.get_set_ne _ _ (by decide)]
  split
  · exact h2
  · rwa [Chip.get_set_ne _ _ (by decide)]

/-- A transition stores nothing but `STATE`, `FALLBACK` and `STRICT_HALT`. -/
theorem Chip.arrive_get {f : Fld} (level st : Nat) (c : Chip) (hs : f.key ≠ F.SYS_STATE_STATE.key)
    (hf : f.key ≠ F.SYS_STATE_FALLBACK.key) (hh : f.key ≠ F.SYS_STATE_STRICT_HALT.key) :
    (c.arrive level st).get f = c.get f := by
  unfold Chip.arrive
  extract_lets t d d1 d2
  have h1 : d1.get f = c.get f := Chip.get_set_ne _ _ hs
  have h2 : d2.get f = c.get f := by
    unfold d2
    split
    · exact h1
    · rwa [Chip.get_set_ne _ _ hf]
  split
  · exact h2
  · rwa [Chip.get_set_ne _ _ hh]

/-- A transition changes nothing beside the register file and the note of the transition (R24). -/
theorem Chip.arrive_eq (level st : Nat) (c : Chip) : ∃ rf turn, c.arrive level st = { c with rf := rf, turn := turn } := by
  unfold Chip.arrive
  dsimp only
  split <;> split <;> exact ⟨_, _, rfl⟩

theorem Chip.arrive_aon (level st : Nat) (c : Chip) : (c.arrive level st).aon = c.aon := by
  obtain ⟨rf, turn, h⟩ := c.arrive_eq level st
  rw [h]

theorem Chip.arrive_mem (level st : Nat) (c : Chip) : (c.arrive level st).mem = c.mem := by
  obtain ⟨rf, turn, h⟩ := c.arrive_eq level st
  rw [h]

/-! ## Power-good and the end of POR (R402) -/

theorem Chip.logicPower_of_logicLost (h : (c.get F.PWR_STAT_VALID).testBit 2 = false) : c.logicPower = c := by
  simp [Chip.logicPower, h]

theorem Chip.logicPower_get {f : Fld} (h : f.key ≠ F.SYS_STATE_LOGIC_PG.key) : c.logicPower.get f = c.get f := by
  unfold Chip.logicPower
  split
  · exact Chip.get_set_ne _ _ h
  · rfl

/-- POR goes on while a rail is not valid. -/
theorem Chip.porCheck_of_railMissing {sel : Option Nat} (h : c.get F.PWR_STAT_VALID ≠ 0x7FF) : c.porCheck sel = c := by
  simp [Chip.porCheck, h]

theorem Chip.aonValid_of_noRail (hs : c.dstate = stOff) (hv : c.get F.PWR_STAT_VALID = 0) :
    c.aonValid = ((c.set F.PWR_STAT_VALID 1).setState stPor).set F.SYS_STATE_LOGIC_PG 0 := by
  have hone : setBit (c.get F.PWR_STAT_VALID) 0 = 1 := by simp [hv, setBit]
  unfold Chip.aonValid
  rw [if_neg (not_not_intro hs), hone]
  extract_lets d0 d1 d2
  have h1 : d1.get F.PWR_STAT_VALID = 1 := by
    unfold d1 Chip.setState
    rw [Chip.get_set_ne _ _ (by decide), Chip.arrive_get _ _ _ (by decide) (by decide) (by decide), Chip.get_set_same]
    rfl
  have h2 : d2 = d1 := if_neg (not_not_intro h1)
  rw [h2, Chip.logicPower_of_logicLost (h1 ▸ rfl), Chip.porCheck_of_railMissing (by simp [h1])]

theorem Chip.railUp_of_orderly {rail : Nat} {aux18 : Bool} (h0 : rail ≠ 0) (h10 : rail ≠ 10)
    (hlow : (c.get F.PWR_STAT_VALID).testBit rail = false) (hpor : c.dstate = stPor)
    (hseq : railEarly (setBit (c.get F.PWR_STAT_VALID) rail) rail = false)
    (hmiss : setBit (c.get F.PWR_STAT_VALID) rail % 2 ^ 11 ≠ 0x7FF) :
    c.railUp rail aux18 = (c.set F.PWR_STAT_VALID (setBit (c.get F.PWR_STAT_VALID) rail)).logicPower := by
  have hst : (c.set F.PWR_STAT_VALID (setBit (c.get F.PWR_STAT_VALID) rail)).dstate = stPor :=
    (Chip.get_set_ne _ _ (by decide)).trans hpor
  have hend : (c.set F.PWR_STAT_VALID (setBit (c.get F.PWR_STAT_VALID) rail)).logicPower.porCheck none =
      (c.set F.PWR_STAT_VALID (setBit (c.get F.PWR_STAT_VALID) rail)).logicPower := by
    refine Chip.porCheck_of_railMissing ?_
    rw [Chip.logicPower_get (by decide), Chip.get_set_same]
    exact hmiss
  simp [Chip.railUp, h0, h10, hlow, hst, hseq, hend, stPor, stOff]

theorem Chip.railDown_of_valid {rail : Nat} (h0 : rail ≠ 0) (h10 : rail ≠ 10)
    (hv : (c.get F.PWR_STAT_VALID).testBit rail = true) (hs : c.dstate ≠ stOff) :
    c.railDown rail =
      let c := (c.set F.PWR_STAT_VALID (clrBit (c.get F.PWR_STAT_VALID) rail)).set F.PWR_STAT_RAIL_LOST rail
      let c := c.owe EV_PWR_RAIL_LOST rail
      let c := if rail = 2 then (c.set F.SYS_STATE_LOGIC_PG 0).spReset false else c
      let c := if rail = 1 then c.nvsPowerLoss else c
      Chip.holdReset (Chip.tie { c with aon := { c.aon with railHold := c.dstate ≠ stPor } }) := by
  have hst : (c.set F.PWR_STAT_VALID (clrBit (c.get F.PWR_STAT_VALID) rail)).dstate ≠ stOff := by
    unfold Chip.dstate
    rwa [Chip.get_set_ne _ _ (by decide)]
  have hgo : ¬(rail = 0 ∨ rail = 10 ∨ (!(c.get F.PWR_STAT_VALID).testBit rail) = true) := by simp [h0, h10, hv]
  rw [Chip.railDown, if_neg hgo]
  exact if_neg hst

theorem Chip.auxDown_of_valid (h : (c.get F.PWR_STAT_VALID).testBit 10 = true) :
    c.auxDown =
        let d := (c.set F.PWR_STAT_VALID (clrBit (c.get F.PWR_STAT_VALID) 10)).auxAll
        d.raiseIf d.awake EV_PWR_AUX_LOST 0 := by
  unfold Chip.auxDown Chip.auxOn
  rw [h]
  rfl

theorem Chip.holdEnd_of_noHold {cause : Nat} {sel : Option Nat} (hheld : c.aon.held = true) (hno : c.noHold = true)
    (hc : c.aon.bootCause = some cause) :
    c.holdEnd sel = Chip.enterBoot cause { c with aon := { c.aon with held := false, bootCause := none } } := by
  simp [Chip.holdEnd, hheld, hno, hc]

theorem Chip.railsBack_of_held {cause : Nat} (hrail : c.aon.railHold = true) (hv : c.get F.PWR_STAT_VALID % 2 ^ 10 = 0x3FF)
    (hlow : c.aon.resetLow = false) (hheld : c.aon.held = true) (href : c.aon.refHold = false) (hc : c.aon.bootCause = some cause) :
    c.railsBack = Chip.enterBoot cause { c with aon := { c.aon with railHold := false, held := false, bootCause := none } } := by
  have hgo : (c.aon.railHold && decide (c.get F.PWR_STAT_VALID % 2 ^ 10 = 0x3FF) && !c.aon.resetLow) = true := by
    rw [hrail, hv, hlow]
    rfl
  rw [Chip.railsBack, if_pos hgo]
  exact Chip.holdEnd_of_noHold hheld (by simp [Chip.noHold, hlow, href]) hc

/-! ## VDD_AON is lost (R404) -/

theorem Chip.aonLost_dstate (h : c.dstate ≠ stOff) : c.aonLost.dstate = stOff := by
  rw [Chip.aonLost, if_neg h]
  extract_lets d1 d2 k keep d3 d4
  exact d4.arrive_dstate 1 (by decide)

theorem clrBit_zero_testBit (v : Nat) : (clrBit v 0).testBit 0 = false := by
  unfold clrBit
  rw [Nat.testBit_zero, Nat.testBit_zero]
  split
  · next h =>
    have hodd : v % 2 = 1 := of_decide_eq_true h
    exact decide_eq_false (by omega)
  · next h => exact Bool.eq_false_iff.2 h

theorem Chip.aonLost_valid (h : c.dstate ≠ stOff) : (c.aonLost.get F.PWR_STAT_VALID).testBit 0 = false := by
  rw [Chip.aonLost, if_neg h]
  extract_lets d1 d2 k keep d3 d4
  rw [Chip.arrive_get _ _ _ (by decide) (by decide) (by decide), Chip.get_set_same, Nat.testBit_mod_two_pow, clrBit_zero_testBit,
    Bool.and_false]

/-- Chanter starts anew; the test access port stays, and so do the fused repair records where no burn is in progress. -/
theorem Chip.aonLost_parts (h : c.dstate ≠ stOff) :
    c.aonLost.ch = Chanter.init ∧ c.aonLost.jtag = c.jtag ∧ (c.cfg.burns = [] → c.aonLost.st.fused = c.st.fused) := by
  have hbefore : c.nvsPowerLoss.denAllLow.aside = c.aside := (Chip.mk_aside _).trans c.nvsPowerLoss_aside
  rw [Chip.aonLost, if_neg h]
  extract_lets d1 d2 k keep d3 d4
  have hjtag : d1.jtag = c.jtag := (Chip.islandReset_jtag c.nvsPowerLoss.denAllLow false).trans (Chip.jtag_of_aside hbefore)
  have hfused (hburns : c.cfg.burns = []) : d1.st.fused = c.st.fused := by
    have hnone : c.nvsPowerLoss.denAllLow.cfg.burns = [] := by rw [Chip.cfg_of_aside hbefore, hburns]
    exact (Chip.islandReset_fused _ false hnone).trans (congrArg SelfTest.fused (Chip.st_of_aside hbefore))
  have hch : d1.ch = Chanter.init := rfl
  clear_value d1
  obtain ⟨rf, turn, hleft⟩ := Chip.arrive_eq 1 stOff d4
  rw [hleft]
  exact ⟨hch, hjtag, hfused⟩

/-! ## The supply rows -/

/-- Settles O1: each row's command is one function of the device, and its equation under the clause's premises gives the row. -/
theorem supplyRows : Obligations.SupplyRows := by
  intro s
  refine ⟨?valid, ?lost, ?railValid, ?railLost, ?auxLost, ?restored⟩
  case valid => exact fun hs hv => exec_eq_of_runAon (exec_vddAonValid s) (Chip.aonValid_of_noRail hs hv)
  case lost =>
    intro hs
    obtain ⟨hch, hjtag, hfused⟩ := Chip.aonLost_parts (c := s.chip.quiet) hs
    exact ⟨_, exec_vddAonLost s, Chip.aonLost_dstate hs, Chip.aonLost_valid hs, hch, rfl, hjtag, hfused⟩
  case railValid =>
    exact fun rail aux18 h0 h10 hlow hpor hseq hmiss =>
      exec_eq_of_runAon (exec_railValid rail aux18 s) (Chip.railUp_of_orderly h0 h10 hlow hpor hseq hmiss)
  case railLost =>
    exact fun rail h0 h10 hv hs => exec_eq_of_runAon (exec_railLost rail s) (Chip.railDown_of_valid h0 h10 hv hs)
  case auxLost => exact fun hv _ => exec_eq_of_runAon (exec_vddAuxLost s) (Chip.auxDown_of_valid hv)
  case restored =>
    exact fun hrail hv hlow hheld href cause hcause =>
      exec_eq_of_runAon (exec_railRestoredBoot s) (Chip.railsBack_of_held hrail hv hlow hheld href hcause)

end Sys2Proof.Machine
end

section
/-! PROOF. The state machine's rows (O3): trips, the restart from SHUTDOWN, the end of BOOT and of a targeted reset. -/

namespace Sys2Proof.Machine

variable {c : Chip}

/-! ## The ranks of R24 within one AON cycle -/

theorem Chip.tie_get (f : Fld) (c : Chip) : c.tie.get f = c.get f := by
  unfold Chip.tie
  split
  · rfl
  · rw [Chip.freeNext_get]
    split <;> rfl

theorem Chip.tie_aon (c : Chip) : c.tie.aon = c.aon := by
  unfold Chip.tie
  split
  · rfl
  · rw [Chip.freeNext_aon]
    split <;> rfl

theorem Chip.tie_dstate (c : Chip) : c.tie.dstate = c.dstate := c.tie_get F.SYS_STATE_STATE

theorem Chip.tie_awake (c : Chip) : c.tie.awake = c.awake := by
  rw [Chip.awake, Chip.tie_aon, Chip.tie_get, Chip.awake]

/-- An awake device is between BOOT and SAFE. -/
theorem Chip.dstate_of_awake (h : c.awake = true) : stBoot ≤ c.dstate ∧ c.dstate ≤ stSafe := by
  simp only [Chip.awake, Bool.and_eq_true, decide_eq_true_eq] at h
  exact ⟨h.1.2, h.2⟩

/-! ## Trips (R371) -/

theorem Chip.sensorConvert_in_por {i : Nat} {raw : Int} {ratioOk moved : Bool} (hpor : c.dstate = stPor)
    (htrip : 8 * (c.get F.TH_CFG_TRIP : Int) ≤ raw) :
    c.sensorConvert i raw ratioOk moved = c.tie.shutdown 1 i (toBits 12 (min 2047 raw)) := by
  have hst : c.tie.dstate = stPor := c.tie_dstate.trans hpor
  have hasleep : ¬c.tie.awake = true := fun h => absurd (Chip.dstate_of_awake h).1 (by rw [hst]; decide)
  have hruns : ¬(c.tie.dstate = stOff ∨ c.tie.dstate = stShutdown) := by
    rw [hst]
    decide
  have hreads : 8 * (c.tie.get F.TH_CFG_TRIP : Int) ≤ raw := by rwa [Chip.tie_get]
  unfold Chip.sensorConvert
  exact (if_neg hruns).trans ((if_neg hasleep).trans (if_pos hreads))

theorem Chip.sensorConvert_of_awake {i : Nat} {raw : Int} {ratioOk moved : Bool} (h : c.awake = true) :
    c.sensorConvert i raw ratioOk moved =
      let d := c.tie.thConvert i raw ratioOk moved
      match d.thTrip i with
      | some kind => d.shutdown kind i (d.get (F.TH_SENSOR_USED i))
      | none => d := by
  have hawake : c.tie.awake = true := c.tie_awake.trans h
  obtain ⟨hlo, hhi⟩ := Chip.dstate_of_awake hawake
  have hruns : ¬(c.tie.dstate = stOff ∨ c.tie.dstate = stShutdown) := by
    unfold stBoot stSafe at *
    unfold stOff stShutdown
    omega
  unfold Chip.sensorConvert
  exact (if_neg hruns).trans (if_pos hawake)

/-! ## SHUTDOWN is left (R372) -/

theorem Chip.shutdownRead_in_shutdown {readings : List (Option Int)} {outlet : Int} (h : c.dstate = stShutdown) :
    c.shutdownRead readings outlet =
      { c with aon := { c.aon with restartMs := if c.coolEnough readings outlet then c.aon.restartMs + 1 else 0 } } :=
  if_neg (not_not_intro h)

/-- What an entry to BOOT stores in fields other than its counter, `STRICT_HALT` and the state of the DRAM controller. -/
theorem Chip.enterBoot_get {f : Fld} (cause : Nat) (c : Chip) (hb : f.key ≠ F.SYS_STATE_BOOT_COUNT.key)
    (hh : f.key ≠ F.SYS_STATE_STRICT_HALT.key) (hd : f.key ≠ F.DR_STAT_STATE.key) :
    (c.enterBoot cause).get f = ((((c.set F.SYS_STATE_PREV_STATE (c.leftBy (bootLevel cause))).set F.SYS_STATE_CAUSE cause).arrive
      (bootLevel cause) stBoot).get f) := by
  unfold Chip.enterBoot
  extract_lets l d1 d2 d3 v d4 d5 v'
  have h3 : d3.get f = d2.get f := Chip.get_set_ne _ _ hb
  have h5 : d5.get f = d4.get f := by
    unfold d5 Chip.drTrain
    refine (Chip.get_set_ne drTraining _ hd).trans ?_
    split <;> rfl
  have h4 : d4.get f = d3.get f := rfl
  have h2 : d2.get f = (d1.arrive l stBoot).get f := Chip.get_set_ne _ _ hh
  exact h5.trans (h4.trans (h3.trans h2))

theorem Chip.enterBoot_dstate (cause : Nat) (c : Chip) : (c.enterBoot cause).dstate = stBoot :=
  (c.enterBoot_get cause (by decide) (by decide) (by decide)).trans (Chip.arrive_dstate _ _ (by decide))

theorem Chip.enterBoot_prevState (cause : Nat) (c : Chip) :
    (c.enterBoot cause).get F.SYS_STATE_PREV_STATE = c.leftBy (bootLevel cause) % 16 := by
  rw [Chip.enterBoot_get _ _ (by decide) (by decide) (by decide), Chip.arrive_get _ _ _ (by decide) (by decide) (by decide),
    Chip.get_set_ne _ _ (by decide), Chip.get_set_same]
  rfl

theorem Chip.enterBoot_cause (cause : Nat) (c : Chip) : (c.enterBoot cause).get F.SYS_STATE_CAUSE = cause % 256 := by
  rw [Chip.enterBoot_get _ _ (by decide) (by decide) (by decide), Chip.arrive_get _ _ _ (by decide) (by decide) (by decide),
    Chip.get_set_same]
  rfl

theorem Chip.enterBoot_events (cause : Nat) (c : Chip) : (c.enterBoot cause).ch.events = [] := by
  unfold Chip.enterBoot
  extract_lets l d1 d2 d3 v d4 d5 v'
  have h4 : d4.ch.events = [] := rfl
  have h5 : d5.ch = d4.ch := by
    clear_value d4
    unfold d5 Chip.drTrain
    split <;> rfl
  exact (congrArg Chanter.events h5).trans h4

theorem Chip.logicPower_aon (c : Chip) : c.logicPower.aon = c.aon := by
  unfold Chip.logicPower
  split <;> rfl

theorem Chip.logicPower_ch (c : Chip) : c.logicPower.ch = c.ch := by
  unfold Chip.logicPower
  split <;> rfl

/-- The cause of a restart from SHUTDOWN (Table 1.9). -/
def Chip.restartCause (c : Chip) : Nat := if c.aon.rstInShut then 0x08 else 0x06

theorem Chip.restartCause_level (c : Chip) : bootLevel c.restartCause = 5 := by
  unfold Chip.restartCause
  split <;> rfl

theorem Chip.restartCause_mod (c : Chip) : c.restartCause % 256 = c.restartCause := by
  unfold Chip.restartCause
  split <;> rfl

/-- A restart ends the count of milliseconds and what SHUTDOWN remembered; BOOT goes on once no reset is held (R24, R372). -/
def Chip.restarted (c : Chip) : Chip :=
  { c with aon := { c.aon with rstInShut := false, restartMs := 0, held := !c.noHold, bootCause := none } }

theorem Chip.restarted_get (f : Fld) (c : Chip) : c.restarted.get f = c.get f := rfl
theorem Chip.restarted_ch (c : Chip) : c.restarted.ch = c.ch := rfl

theorem Chip.shutdownLeave_of_due (hs : c.dstate = stShutdown) (hms : 1000 ≤ c.aon.restartMs)
    (hcool : c.is F.SYS_STATE_COOLANT_OK = true) : c.shutdownLeave = (c.enterBoot c.restartCause).restarted.logicPower :=
  if_pos ⟨hs, hms, hcool⟩

theorem Chip.shutdownLeave_get {f : Fld} (hs : c.dstate = stShutdown) (hms : 1000 ≤ c.aon.restartMs)
    (hcool : c.is F.SYS_STATE_COOLANT_OK = true) (hf : f.key ≠ F.SYS_STATE_LOGIC_PG.key) :
    c.shutdownLeave.get f = (c.enterBoot c.restartCause).get f := by
  rw [Chip.shutdownLeave_of_due hs hms hcool, Chip.logicPower_get hf, Chip.restarted_get]

/-! ## The end of BOOT (R75) -/

/-- The I3C target has reached FW or RECOVERY (R37). -/
def Chip.openI3c (c : Chip) : Chip := { c with aon := { c.aon with i3cOpen := true } }

theorem Chip.bootDone_in_boot (hs : c.dstate = stBoot) (hheld : c.aon.held = false) :
    c.bootDone = match c.bootPrep.fwPick with
      | some (copy, img) => c.bootPrep.enterFw copy img
      | none => c.bootPrep.openI3c.setState stRecovery := by
  have hgo : ¬(c.dstate ≠ stBoot ∨ c.aon.held = true) := by simp [hs, hheld]
  exact if_neg hgo

/-- Without a firmware copy that passes, BOOT ends in RECOVERY. -/
theorem Chip.bootDone_without_firmware (hs : c.dstate = stBoot) (hheld : c.aon.held = false) (hnone : c.bootPrep.fwPick = none) :
    c.bootDone = c.bootPrep.openI3c.setState stRecovery := by
  rw [Chip.bootDone_in_boot hs hheld, hnone]

/-! ## Targeted resets (R408) -/

theorem Chip.targetedDone_of_trained {kind idx : Nat} {slot : Slot} (hcmd : c.resetCmd kind idx = some slot) (hkind : 2 ≤ kind)
    (htrain : kind = 7 → c.drState ≠ drTraining ∧ c.drState ≠ drInit) :
    c.targetedDone kind idx = (c.targetOpen kind idx).ok slot.id [] := by
  have hgo : ¬(kind < 2 ∨ (kind = 7 ∧ (c.drState = drTraining ∨ c.drState = drInit))) := by
    rintro (hlow | ⟨h7, hdr⟩)
    · omega
    · exact hdr.elim (htrain h7).1 (htrain h7).2
  rw [Chip.targetedDone, hcmd]
  exact if_neg hgo

/-! ## The rows -/

/-- Settles O3: each row's command is one function of the device. Of a restart and of a BOOT without firmware, the state left is read
off the entry to BOOT and the transition to RECOVERY. -/
theorem stateMachineRows : Obligations.StateMachineRows := by
  intro s
  refine ⟨?porTrip, ?trip, ?read, ?restart, ?boot, ?targeted⟩
  case porTrip =>
    exact fun i raw ratioOk moved hpor htrip =>
      exec_eq_of_runAon (exec_sensorConversion i raw ratioOk moved s) (Chip.sensorConvert_in_por hpor htrip)
  case trip =>
    exact fun i raw ratioOk moved hawake =>
      exec_eq_of_runAon (exec_sensorConversion i raw ratioOk moved s) (Chip.sensorConvert_of_awake hawake)
  case read =>
    exact fun readings outlet hs =>
      exec_eq_of_runAon (exec_shutdownSensorRead readings outlet s) (Chip.shutdownRead_in_shutdown hs)
  case restart =>
    intro hs hms hcool
    have hleave := Chip.shutdownLeave_of_due (c := s.chip.quiet) hs hms hcool
    have hget {f : Fld} := Chip.shutdownLeave_get (f := f) (c := s.chip.quiet) hs hms hcool
    refine ⟨s.after Chip.shutdownLeave, exec_shutdownRestart s, ?_⟩
    rw [State.after_chip, Chip.dstate, hget (by decide), hget (by decide), hget (by decide), hleave, Chip.logicPower_aon,
      Chip.logicPower_ch, Chip.restarted_ch, Chip.enterBoot_prevState, Chip.enterBoot_cause, Chip.enterBoot_events,
      Chip.restartCause_level, Chip.restartCause_mod]
    exact ⟨Chip.enterBoot_dstate _ _, rfl, rfl, rfl, rfl, rfl, rfl⟩
  case boot =>
    intro hs hheld
    have hboot := Chip.bootDone_in_boot (c := s.chip.quiet) hs hheld
    refine ⟨fun hnone => ?_, exec_eq_of_runAon (exec_bootDone s) hboot⟩
    refine ⟨s.after Chip.bootDone, exec_bootDone s, ?_⟩
    rw [State.after_chip, Chip.bootDone_without_firmware (c := s.chip.quiet) hs hheld hnone]
    refine ⟨Chip.arrive_dstate _ _ (by decide), ?_, ?_, rfl⟩
    · exact congrArg Aon.i3cOpen (Chip.arrive_aon ..)
    · exact Chip.arrive_mem ..
  case targeted =>
    exact fun kind index slot hawake hcmd hkind htrain =>
      exec_eq_of_runChip (exec_targetedResetDone kind index s) hawake (Chip.targetedDone_of_trained hcmd hkind htrain)

end Sys2Proof.Machine
end

section
/-! PROOF. `SYS_STATE` across a warm reset (O54), and the step (O40). -/

namespace Sys2Proof.Machine

/-- A device that has just left SHUTDOWN for BOOT, with VDD_LOGIC lost, as a command of the same AON cycle finds it (R24). -/
def Chip.justRestarted : Chip :=
  let c := (Chip.reset.set F.SYS_STATE_STATE stShutdown).set F.PWR_STAT_VALID 0x7FB
  Chip.quiet (Chip.shutdownLeave { c with aon := { c.aon with restartMs := 1000 } })

/-- Refutes O54: a warm reset keeps `BOOT_COUNT` only where no transition of a lower rank was taken in its AON cycle. Here the restart from
SHUTDOWN has counted an entry to BOOT, and the warm reset that R24 takes in its place undoes the count. -/
theorem not_sysStateLayout : ¬ Obligations.SysStateLayout := by
  rintro ⟨_, _, hkeeps, _⟩
  have hcounted : Chip.justRestarted.get F.SYS_STATE_BOOT_COUNT = 1 := by decide +kernel
  have hundone : Chip.justRestarted.warmClear.get F.SYS_STATE_BOOT_COUNT = 0 := by decide +kernel
  have hkept := hkeeps Chip.justRestarted F.SYS_STATE_BOOT_COUNT (by simp)
  rw [hcounted, hundone] at hkept
  exact Nat.zero_ne_one hkept

/-- Settles O40: the step's own equation for a queue with a command at the front. -/
theorem stepRunsTheFrontCommand : Obligations.StepRunsTheFrontCommand := fun s i rest h => step_cons s i rest h

end Sys2Proof.Machine
end

section
/-! PROOF. A Chanter command whose packet is accepted runs in the slot that it takes (R47, R53, R54). -/

namespace Sys2Proof.Machine

variable {c : Chip} {s : State} {i : Instr} {k : Cmd} {p : Pkt} {u : Chip → Chip}

/-- None of the refusals of checks 5 to 13 applies, so the command starts at once in its new slot. -/
theorem Chip.command_of_accepts (h : c.accepts k p) : Chip.command k p c = k.run c.ch.nextId p.payload (c.slotFor k p) := by
  obtain ⟨htakes, hlen, hmwl, hway, hchecks, hstarts⟩ := h
  have hrange : ¬4096 < p.payload.length := Nat.not_lt.2 hlen
  have hfits : ¬(p.route = .i3c ∧ c.get F.I3C_STAT_MWL < packetLen p.payload.length) := fun ⟨hi3c, hlong⟩ =>
    Nat.not_le.2 hlong (hmwl hi3c)
  have htaken : Chip.command k p c = c.takePacket (some k) p.route k.cls k.op p.tag.toNat p.flags.toNat p.dest.toNat p.payload := by
    rw [Chip.command, htakes, if_neg (by decide), if_neg hrange, if_neg hfits]
  rw [htaken, Chip.takePacket, hway]
  simp only [Chip.runCmd, hchecks, hstarts, if_true, Chip.slotFor]

/-- A `CH_` row whose packet is accepted does what `u` says where the command's start does it in its slot. -/
theorem exec_eq_of_accepts (hi : exec i s = runAon (Chip.command k p) s) (h : s.chip.quiet.accepts k p)
    (hu : k.run s.chip.ch.nextId p.payload (s.chip.quiet.slotFor k p) = u s.chip.quiet) : exec i s = .next (s.after u) :=
  exec_eq_of_runAon hi ((Chip.command_of_accepts h).trans hu)

end Sys2Proof.Machine
end

section
/-! PROOF. The Reed groups: compare results, the drift loop, the register rows (O14), and the commands of class 0x04 (O15). -/

namespace Sys2Proof.Machine

variable {c : Chip} {k n : Nat} {cap : Bool}

/-! ## Compare results (R125, R138, R139) -/

/-- The oldest emitted cycle of an engine leaves its queue. -/
def Chip.dropCycle (k : Nat) (q : List Cycle) (c : Chip) : Chip := c.setEng k (fun e => { e with cmpQ := q })

section
variable {cy : Cycle} {q : List Cycle} {obs : List (List PinObs)}

theorem Chip.compareResult_of_held (hq : (c.eng k).cmpQ = cy :: q) (hheld : cy.held = true) :
    c.compareResult k obs = c.dropCycle k q := by
  simp only [Chip.compareResult, hq, hheld, if_true, Chip.dropCycle]

/-- Where no compare fails, no bit is left for a fail word, whichever channels the capture mask takes out. -/
theorem failBits_of_pass (mask : Nat) :
    (List.range 128).filter (fun i => !mask.testBit (i % 16) && Nat.testBit 0 i) = [] := by
  refine List.filter_eq_nil_iff.2 fun i _ => ?_
  rw [Nat.zero_testBit, Bool.and_false]
  exact Bool.false_ne_true

/-- A cycle in which no compare fails makes no fail word. -/
theorem Chip.compareResult_of_pass (hq : (c.eng k).cmpQ = cy :: q) (hheld : cy.held = false)
    (hpass : ((c.dropCycle k q).compareCycle k cy obs).1 = 0) :
    c.compareResult k obs = ((c.dropCycle k q).compareCycle k cy obs).2 := by
  unfold Chip.dropCycle at hpass ⊢
  simp only [Chip.compareResult, hq, hheld, hpass, failBits_of_pass, List.foldl_nil, Bool.false_eq_true, if_false, if_true, ne_eq,
    not_true_eq_false, decide_false, Bool.and_false]

/-- A cycle with a failing compare but without `FLE` sets the flag and makes no fail word. -/
theorem Chip.compareResult_of_fail_unlogged (hq : (c.eng k).cmpQ = cy :: q) (hheld : cy.held = false)
    (hfail : ((c.dropCycle k q).compareCycle k cy obs).1 ≠ 0) (hfle : cy.fle = false) :
    c.compareResult k obs = ((c.dropCycle k q).compareCycle k cy obs).2.set (F.PE_STAT_FAIL k) 1 := by
  unfold Chip.dropCycle at hfail ⊢
  simp only [Chip.compareResult, hq, hheld, hfail, hfle, Bool.false_eq_true, if_false, Bool.false_and]

end

/-! ## The drift loop (R100, R101) -/

@[simp] theorem Chip.setUnit_get (f : Fld) (g : Reed → Reed) (c : Chip) : (c.setUnit n g).get f = c.get f := rfl

/-- `STARVED` of a line shows in a bit of `RD_CH_STAT` and in the group's mask; the channel's status reads as before beside. -/
theorem Chip.setStarved_get {f : Fld} {v : Bool} (hoff : f.off = (F.RD_CH_STAT_STARVED (n / 8) (n % 8)).off) (hlo : f.lo ≠ 2) :
    (c.setStarved n cap v).get f = c.get f := by
  have hbit : f.key ≠ (F.RD_CH_STAT_STARVED (n / 8) (n % 8)).key := by
    simp only [Fld.key, hoff, F.RD_CH_STAT_STARVED]
    omega
  have hmask : f.key ≠ (F.RD_GRP_STAT_STARVED_MASK (n / 8)).key := by
    simp only [Fld.key, hoff, F.RD_CH_STAT_STARVED, F.RD_GRP_STAT_STARVED_MASK]
    omega
  unfold Chip.setStarved
  extract_lets d any d'
  exact (Chip.get_set_ne _ _ hmask).trans (Chip.get_set_ne _ _ hbit)

theorem Chip.setStarved_chState {v : Bool} : (c.setStarved n cap v).chState n = c.chState n :=
  Chip.setStarved_get rfl (show 0 ≠ 2 by decide)

theorem Chip.setStarved_drift {v : Bool} : (c.setStarved n cap v).get (driftFld n cap) = c.get (driftFld n cap) := by
  cases cap
  case false => exact Chip.setStarved_get rfl (show 8 ≠ 2 by decide)
  case true => exact Chip.setStarved_get rfl (show 24 ≠ 2 by decide)

/-- A measurement ends a line's starvation and uses up its idle slot. -/
def Chip.lineSeen (n : Nat) (cap : Bool) (c : Chip) : Chip :=
  (c.setStarved n cap false).setUnit n (fun u => { u with idle := clrBit u.idle (b2n cap) })

/-- A measurement within 24 units of the drift correction ends the run of outliers of its line. -/
def Chip.clearOutliers (n : Nat) (cap : Bool) (c : Chip) : Chip :=
  c.setUnit n (fun u => if cap then { u with outC := 0 } else { u with outL := 0 })

theorem Chip.lineSeen_chState : (c.lineSeen n cap).chState n = c.chState n := Chip.setStarved_chState
theorem Chip.lineSeen_drift : (c.lineSeen n cap).get (driftFld n cap) = c.get (driftFld n cap) := Chip.setStarved_drift

theorem Chip.driftMay_iff : c.driftMay n cap = true ↔ c.is (F.RD_GRP_CTL_DRIFT_EN (n / 8)) = true ∧ c.chState n ≠ chRetired ∧
    (c.engineRun (n / 8) = false ∨ (c.unit n).idle.testBit (b2n cap) = true) := by
  simp only [Chip.driftMay, Bool.and_eq_true, Bool.or_eq_true, Bool.not_eq_true', decide_eq_true_eq, and_assoc]

theorem Chip.driftMeasure_of_not_may {e : Int} (h : c.driftMay n cap = false) : c.driftMeasure n cap e = c := by
  simp only [Chip.driftMeasure, h, Bool.not_false, if_true]

/-- A plausible measurement of an active channel moves the drift correction by one step. -/
theorem Chip.driftMeasure_of_plausible {e d : Int} (hmay : c.driftMay n cap = true) (hactive : c.chState n = chActive)
    (hd : sext 16 (c.get (driftFld n cap)) = d) (hnear : (e - d).natAbs ≤ 24) (hrange : (d + driftStep e d).natAbs ≤ 1000) :
    c.driftMeasure n cap e = ((c.lineSeen n cap).clearOutliers n cap).setDrift n cap (d + driftStep e d) := by
  have hsuspect : ¬(c.lineSeen n cap).chState n = chSuspect := by
    rw [Chip.lineSeen_chState, hactive]
    decide
  have hseen : sext 16 ((c.lineSeen n cap).get (driftFld n cap)) = d := by rw [Chip.lineSeen_drift, hd]
  unfold Chip.lineSeen at hsuspect hseen ⊢
  simp only [Chip.driftMeasure, hmay, hseen, Chip.clearOutliers, Bool.not_true, Bool.false_eq_true, if_false,
    if_neg hsuspect, if_neg (Nat.not_lt.2 hnear), if_neg (Nat.not_lt.2 hrange)]

theorem Chip.driftStarve_of_used (h : c.chState n ≠ chRetired) :
    c.driftStarve n cap = (c.setStarved n cap true).raise EV_RD_DRIFT_STARVED (n + b2n cap * 256) := if_neg h

/-- After a reset of the group delta alone is acquired anew (Table 16.4). -/
theorem Chip.reacquired_after_reset {dl dc : Int} (hused : c.chState n ≠ chRetired) (hreset : (c.unit n).reacq = 2) :
    c.reacquired n dl dc = (((c.calNote n).set (driftFld n false) (toBits 16 dl)).set (driftFld n true) (toBits 16 dc)).setUnit n
      (fun u => { u with reacq := 0 }) := by
  have hgo : ¬(c.chState n = chRetired ∨ (c.unit n).reacq = 0) := by
    rw [hreset]
    exact fun h => h.elim hused (by decide)
  unfold Chip.reacquired
  exact (if_neg hgo).trans (if_pos hreset)

/-! ## The register rows (Tables 3.10, 3.13, 3.16) -/

theorem Chip.tsPortWrite_of_valid {g v : Nat} (h : tsReserved v = false) :
    c.tsPortWrite g v =
      (rspOk, (c.tsWrite g (c.get (F.RD_TS_PORT_ADDR_TSET g)) (c.get (F.RD_TS_PORT_ADDR_LANE g)) v).tsPortNext g) :=
  if_neg (Bool.eq_false_iff.1 h)

theorem Chip.tsPortWrite_of_reserved {g v : Nat} (h : tsReserved v = true) : c.tsPortWrite g v = (rspReservedCode, c) := if_pos h

theorem Chip.tsPop_of_empty {g : Nat} (h : c.tsBuf g = []) : c.tsPop g = (0, c) := by simp only [Chip.tsPop, h]

theorem Chip.tsPop_of_cons {g r : Nat} {q : List Nat} (h : c.tsBuf g = r :: q) :
    c.tsPop g = (r, { c with rd := { c.rd with buf := tput [] g q c.rd.buf } }) := by simp only [Chip.tsPop, h]

@[simp] theorem Chip.clearBits_nil (v : Nat) (c : Chip) : c.clearBits [] v = c := rfl

/-- Bit `i` of a clear write clears counter `i` of the list: the lowest bit the first, the others the rest. -/
theorem Chip.clearBits_cons (f : Fld) (fs : List Fld) (v : Nat) (c : Chip) :
    c.clearBits (f :: fs) v = (if v.testBit 0 then c.set f 0 else c).clearBits fs (v / 2) := by
  simp only [Chip.clearBits, Chip.forAll, List.length_cons, List.range_succ_eq_map, List.zip_cons_cons, List.foldl_cons,
    List.zip_map_right, List.foldl_map, Prod.map, id, Nat.testBit_succ]

/-- Settles O14: each row's command is one function of the device, and its equation under the clause's premises gives the row. -/
theorem reedRows : Obligations.ReedRows := by
  intro s hs
  refine ⟨?compare, ?drift, ?noDrift, ?starved, ?reacquired, ?tsWrite, ?tsReserved, ?tsRead, ?pop, ?popEmpty, ?ucal, ?cntClr⟩
  case compare =>
    intro k obs cy q hq
    refine ⟨fun hheld => ?_, fun hheld hpass => ?_, fun hheld hfail hfle => ?_⟩
    · exact exec_eq_of_runChip (exec_compareResult k obs s) hs (Chip.compareResult_of_held hq hheld)
    · exact exec_eq_of_runChip (exec_compareResult k obs s) hs (Chip.compareResult_of_pass hq hheld hpass)
    · exact exec_eq_of_runChip (exec_compareResult k obs s) hs (Chip.compareResult_of_fail_unlogged hq hheld hfail hfle)
  case drift =>
    intro ch cap err hon hactive hidle hnear hrange
    have hmay : s.chip.quiet.driftMay ch cap = true :=
      Chip.driftMay_iff.2 ⟨hon, fun hretired => absurd (hactive.symm.trans hretired) (by decide), hidle⟩
    exact exec_eq_of_runChip (exec_driftMeasurement ch cap err s) hs (Chip.driftMeasure_of_plausible hmay hactive rfl hnear hrange)
  case noDrift =>
    intro ch cap err hrun hidle
    have hmay : s.chip.quiet.driftMay ch cap = false := by
      refine Bool.eq_false_iff.2 fun hmay => ?_
      obtain ⟨_, _, hstill | hslot⟩ := Chip.driftMay_iff.1 hmay
      · exact Bool.false_ne_true (hstill.symm.trans hrun)
      · exact Bool.false_ne_true (hidle.symm.trans hslot)
    exact exec_eq_of_runChip (exec_driftMeasurement ch cap err s) hs (Chip.driftMeasure_of_not_may hmay)
  case starved =>
    exact fun ch cap hused => exec_eq_of_runChip (exec_driftStarved ch cap s) hs (Chip.driftStarve_of_used hused)
  case reacquired =>
    exact fun ch dl dc hused hreset =>
      exec_eq_of_runChip (exec_reedReacquireDone ch dl dc s) hs (Chip.reacquired_after_reset hused hreset)
  case tsWrite =>
    intro g data hvalid
    exact exec_eq_after (exec_rdTsPortDataWrite g data s) hs fun c => by rw [Chip.tsPortWrite_of_valid hvalid, answerWrite]
  case tsReserved =>
    intro g data hreserved
    exact exec_eq_after (exec_rdTsPortDataWrite g data s) hs fun c => by rw [Chip.tsPortWrite_of_reserved hreserved, answerWrite]
  case tsRead => exact fun g => exec_eq_after (exec_rdTsPortDataRead g s) hs fun c => rfl
  case pop =>
    intro g r q hbuf
    have hpop := Chip.tsPop_of_cons (c := s.chip.quiet) hbuf
    exact exec_eq_of_runChip (exec_rdTsPopRead g s) hs (by rw [hpop])
  case popEmpty =>
    intro g hbuf
    have hpop := Chip.tsPop_of_empty (c := s.chip.quiet) hbuf
    exact exec_eq_of_runChip (exec_rdTsPopRead g s) hs (by rw [hpop])
  case ucal => exact fun ch data => exec_eq_after (exec_rdUcalWrite ch data s) hs fun c => rfl
  case cntClr =>
    refine fun g => exec_eq_after (exec_rdCntClr g 0xF s) hs fun c => ?_
    simp only [rdCounters, Chip.clearBits_cons, Chip.clearBits_nil] <;> rfl

/-! ## The commands of class 0x04 (Table 3.17) -/

/-- Outside SAFE a check of a lane in use, whose engine does not run, waits for the lane's targeted test. -/
theorem cmdRdCheck_run_of_room {id : Nat} {pl : List Byte} (hn : n = 8 * pb pl 0 + pb pl 1)
    (hstill : c.engineRun (pb pl 0) = false) (hused : c.chState n ≠ chRetired) (hsafe : c.dstate ≠ stSafe)
    (hroom : c.tqFull 5 (n + (c.unit n).line * 256) = false) :
    cmdRdCheck.run id pl c = ((c.interim id ST_ACCEPTED dtNone []).setUnit n (fun u => { u with checks := u.checks ++ [id] })).tqPush 5
      (n + (c.unit n).line * 256) [] := by
  subst hn
  simp only [cmdRdCheck, Cmd.plain, hstill, hused, hsafe, hroom, Bool.false_eq_true, if_false]

/-- Settles O15: the packet is accepted, so the command starts in its slot, and its start is what the row says. -/
theorem reedCommandRows : Obligations.ReedCommandRows := by
  intro s p
  refine ⟨?status, ?tsWrite, ?tsRead, ?calWrite, ?calRead, ?calSave, ?check⟩
  case status => exact fun h => exec_eq_of_accepts (exec_chRdStatus p s) h rfl
  case tsWrite => exact fun h => exec_eq_of_accepts (exec_chRdTsWrite p s) h rfl
  case tsRead => exact fun h => exec_eq_of_accepts (exec_chRdTsRead p s) h rfl
  case calWrite => exact fun h => exec_eq_of_accepts (exec_chRdCalWrite p s) h rfl
  case calRead => exact fun h => exec_eq_of_accepts (exec_chRdCalRead p s) h rfl
  case calSave => exact fun h => exec_eq_of_accepts (exec_chRdCalSave p s) h rfl
  case check =>
    exact fun n h hn hstill hused hsafe hroom =>
      exec_eq_of_accepts (exec_chRdCheck p s) h (cmdRdCheck_run_of_room hn hstill hused hsafe hroom)

end Sys2Proof.Machine
end

section
/-! PROOF. The pattern engines: one engine, its gang and its pause point. The rows of waits, holds and starts (O11). -/

namespace Sys2Proof.Machine

variable {c : Chip} {k : Nat} {ms : List Nat}

/-! ## An engine's record -/

@[simp] theorem Chip.eng_setEng_same (k : Nat) (g : Pe → Pe) (c : Chip) : (c.setEng k g).eng k = g (c.eng k) := tget_tput_same _ _ _ _

@[simp] theorem Chip.setEng_get (k : Nat) (g : Pe → Pe) (f : Fld) (c : Chip) : (c.setEng k g).get f = c.get f := rfl

@[simp] theorem Chip.forAll_nil {α : Type} (f : α → Chip → Chip) (c : Chip) : c.forAll [] f = c := rfl
@[simp] theorem Chip.forAll_cons {α : Type} (a : α) (l : List α) (f : α → Chip → Chip) (c : Chip) :
    c.forAll (a :: l) f = (f a c).forAll l f := rfl

/-! ## An engine in no gang (R133) -/

theorem Chip.gang_of_alone (h : c.is (F.PE_CTL_GANG_EN k) = false) : c.gang k = [k] := by simp [Chip.gang, h]

theorem Chip.gangLeader_of_alone (h : c.is (F.PE_CTL_GANG_EN k) = false) : c.gangLeader k = k := by simp [Chip.gangLeader, h]

theorem Chip.xsys_of_alone (h : c.is (F.PE_CTL_GANG_EN k) = false) : c.xsys k = false := by simp [Chip.xsys, h]

theorem Chip.notLeader_of_alone (h : c.is (F.PE_CTL_GANG_EN k) = false) : c.notLeader k = false := by
  simp [Chip.notLeader, Chip.gangLeader_of_alone h]

/-- A gang on one device announces no hold (R134). -/
theorem Chip.xgAnnounce_of_onDevice (h : c.xsys (ms.headD 0) = false) : c.xgAnnounce ms = c := by
  simp only [Chip.xgAnnounce, h, Bool.not_false, Bool.true_or, if_true]

theorem Chip.xgAnnounce_of_alone (h : c.is (F.PE_CTL_GANG_EN k) = false) : c.xgAnnounce [k] = c :=
  Chip.xgAnnounce_of_onDevice (Chip.xsys_of_alone h)

/-! ## An engine at no pause point (R127) -/

theorem Chip.holding_of_noPause (h : (c.eng k).pause = none) : c.holding k = false := by simp [Chip.holding, Chip.holdWhy, h]

theorem Chip.waitfExpire_of_noPause (h : (c.eng k).pause = none) : c.waitfExpire k = c := by simp [Chip.waitfExpire, h]

/-! ## Waits, holds and starts of an engine in no gang (R112, R127, R130, R134) -/

theorem Chip.waitfExpire_of_expired {q : Pause} (hq : (c.eng k).pause = some q) (h : c.waitExpired k q = true) :
    c.waitfExpire k = c.setEng k (fun e => { e with npc := iTgt q.word, pause := some { q with met := true } }) := by
  simp [Chip.waitfExpire, hq, h]

/-- One hold cycle of engine `k` at the pause point `q` (R127): its cycle again, with every compare masked. -/
def Chip.repeatCycle (k : Nat) (q : Pause) (c : Chip) : Chip :=
  let n := c.get (F.PE_CYCLE_COUNT k)
  let cy := c.laneUses k { q.cyc with num := n, cmask := ones128, held := true, fle := false }
  let met := if iSeq q.word = seqWAITF then c.waitMet k q else q.met
  let d := (c.emitCycle k cy).setEng k (fun e =>
    { e with cmpQ := e.cmpQ ++ [cy], pause := some { q with held := q.held + 1, met := met } })
  (d.set (F.PE_CYCLE_COUNT k) (n + 1)).inc (F.PE_HOLD_COUNT k)

theorem Chip.holdCycle_of_holding {q : Pause} (halone : c.is (F.PE_CTL_GANG_EN k) = false) (hq : (c.eng k).pause = some q)
    (h : c.holding k = true) : c.holdCycle k = c.repeatCycle k q := by
  simp only [Chip.holdCycle, Chip.gang_of_alone halone, Chip.xgAnnounce_of_alone halone, List.headD_cons, h, Chip.forAll_cons,
    Chip.forAll_nil, hq, Bool.not_true, Bool.false_eq_true, if_false, Chip.repeatCycle]

theorem Chip.holdLong_of_holding {q : Pause} (halone : c.is (F.PE_CTL_GANG_EN k) = false) (hq : (c.eng k).pause = some q)
    (h : c.holding k = true) (hfirst : q.long = false) :
    c.holdLong k = (c.setEng k (fun e => { e with pause := some { q with long := true } })).raise EV_PE_HOLD_LONG
      (c.peArg k (c.holdWhy k)) := by
  simp [Chip.holdLong, Chip.gangLeader_of_alone halone, hq, h, hfirst]

theorem Chip.syncTick_of_due {q : Pause} {tick : Nat} (halone : c.is (F.PE_CTL_GANG_EN k) = false) (hq : (c.eng k).pause = some q)
    (hsync : iSeq q.word = seqSYNC) (hperiod : tick % c.syncPeriod k = 0) (hafter : q.began < tick) :
    c.syncTick k tick = c.setEng k (fun e => { e with pause := some { q with met := true } }) := by
  simp [Chip.syncTick, Chip.gang_of_alone halone, Chip.xgAnnounce_of_alone halone, Chip.xsys_of_alone halone, hq, hsync, hperiod,
    hafter]

theorem Chip.gangPrefilled_single : c.gangPrefilled [k] = (!(c.eng k).streamOn || (c.eng k).prefilled) := by
  simp [Chip.gangPrefilled]

theorem Chip.startTick_of_armed {tick : Nat} (halone : c.is (F.PE_CTL_GANG_EN k) = false) (harmed : c.peState k = peArmed)
    (hfilled : (c.eng k).streamOn = false ∨ (c.eng k).prefilled = true) :
    c.startTick k tick =
      let t := match (c.eng k).startTick with
        | some n => n + 64
        | none => tick
      let d := (Chip.beginEngine k t c).setEng k (fun e => { e with startSlot := none })
      d.forAll (c.eng k).startSlot.toList (fun i => Chip.ok i []) := by
  have hgo : (decide (c.peState k = peArmed) && c.gangPrefilled [k]) = true := by
    rw [Chip.gangPrefilled_single, harmed]
    simpa using hfilled
  simp only [Chip.startTick, Chip.gang_of_alone halone, List.headD_cons, hgo, if_true, Chip.forAll_cons, Chip.forAll_nil] <;> rfl

theorem Chip.prefillLate_of_unfilled (halone : c.is (F.PE_CTL_GANG_EN k) = false) (harmed : c.peState k = peArmed)
    (htick : (c.eng k).startTick.isSome = true) (hon : (c.eng k).streamOn = true) (hfill : (c.eng k).prefilled = false) :
    c.prefillLate k = (c.withdrawStart [k]).forAll (c.eng k).startSlot.toList (fun i => Chip.fail i ST_BAD_STATE dtPrefillLate) := by
  simp [Chip.prefillLate, Chip.gang_of_alone halone, Chip.gangPrefilled_single, harmed, htick, hon, hfill]

theorem Chip.prefillDone_of_full (harmed : c.peState k = peArmed) (hon : (c.eng k).streamOn = true)
    (hfull : min 16384 (c.get (F.PE_STREAM_LEN_LEN k)) ≤ (c.eng k).stream.length) :
    c.prefillDone k = c.setEng k (fun e => { e with prefilled := true }) := by
  simp only [Chip.prefillDone, harmed, hon, hfull, decide_true, Bool.and_self, if_true]

/-- Settles O11: each row's command is one function of the device, and its equation for an engine in no gang gives the row. -/
theorem engineWaitRows : Obligations.EngineWaitRows := by
  intro s k hs halone
  refine ⟨?timeout, ?hold, ?long, ?sync, ?start, ?late, ?filled⟩
  case timeout =>
    intro q hq hexp
    have hleader : s.chip.quiet.gangLeader k = k := Chip.gangLeader_of_alone halone
    refine exec_eq_of_runChip (exec_waitfTimeout k s) hs ?_
    rw [hleader]
    exact Chip.waitfExpire_of_expired hq hexp
  case hold =>
    exact fun q hq hhold => exec_eq_of_runChip (exec_holdCycle k s) hs (Chip.holdCycle_of_holding halone hq hhold)
  case long =>
    exact fun q hq hhold hfirst => exec_eq_of_runChip (exec_holdLong k s) hs (Chip.holdLong_of_holding halone hq hhold hfirst)
  case sync =>
    exact fun q tick hq hsync hperiod hafter =>
      exec_eq_of_runChip (exec_syncTick k tick s) hs (Chip.syncTick_of_due halone hq hsync hperiod hafter)
  case start =>
    exact fun tick harmed hfilled => exec_eq_of_runChip (exec_peStartTick k tick s) hs (Chip.startTick_of_armed halone harmed hfilled)
  case late =>
    exact fun harmed htick hon hfill =>
      exec_eq_of_runChip (exec_prefillLate k s) hs (Chip.prefillLate_of_unfilled halone harmed htick hon hfill)
  case filled =>
    exact fun harmed hon hfull => exec_eq_of_runChip (exec_streamPrefillDone k s) hs (Chip.prefillDone_of_full harmed hon hfull)

end Sys2Proof.Machine
end

section
/-! PROOF. The engine cycle: what a gang on one device issues, and the sequencer rows (O10). -/

namespace Sys2Proof.Machine

variable {c : Chip} {pe l : Nat} {ms : List Nat} {ws : List (Nat × Nat)} {forced : Option Nat}

/-! ## The engine cycle (R109, R127, R133) -/

/-- The engines leave their pause points: their next instructions are about to be issued. -/
def Chip.leavePause (ms : List Nat) (c : Chip) : Chip := c.forAll ms (fun j => Chip.setEng j (fun e => { e with pause := none }))

/-- The word that engine `j` issues in a cycle of engine `pe`: the forced one, or its instruction memory's. -/
def Chip.wordFor (c : Chip) (pe : Nat) (forced : Option Nat) (j : Nat) : Nat :=
  match forced with
  | some w => if j = pe then w else tget 0 (c.eng j).npc (c.eng j).im
  | none => tget 0 (c.eng j).npc (c.eng j).im

/-- The first fault among the words that the engines are to issue: the engine and its code. -/
def Chip.firstFault (c : Chip) (ws : List (Nat × Nat)) : Option (Nat × Nat) :=
  ws.findSome? (fun p => (c.issueFault p.1 p.2).map (fun code => (p.1, code)))

/-- Every engine of a gang issues its word, and the gang flags follow. -/
def Chip.issueAll (ms : List Nat) (l : Nat) (ws : List (Nat × Nat)) (c : Chip) : Chip :=
  ((c.forAll ws (fun p => Chip.issue p.1 p.2)).forAll ms (fun j =>
    Chip.set (F.PE_STAT_GF j) (gangFlags (c.get (F.PE_STAT_GF l)) (ws.map Prod.snd)))).afterCycle ms ws

theorem Chip.firstFault_of_none (h : ∀ p ∈ ws, c.issueFault p.1 p.2 = none) : c.firstFault ws = none := by
  simp only [Chip.firstFault, List.findSome?_eq_none_iff, Option.map_eq_none_iff]
  exact h

theorem Chip.firstFault_single {k w : Nat} : c.firstFault [(k, w)] = (c.issueFault k w).map (fun code => (k, code)) := by
  simp [Chip.firstFault]

/-- A gang on one device whose leader runs and stands at no pause point: a fault ends its run, and otherwise its cycle is issued. -/
theorem Chip.engineCycle_of_running (hgang : c.gang pe = ms) (hl : ms.headD 0 = l) (hx : c.xsys l = false)
    (hrun : c.peState l = peRunning) (hpause : (c.eng l).pause = none) :
    c.engineCycle pe forced =
      let d := c.leavePause ms
      let ws := ms.map (fun j => (j, d.wordFor pe forced j))
      match d.firstFault ws with
      | some f => d.faultRun ms f.1 f.2
      | none => d.issueAll ms l ws := by
  subst hl
  simp only [Chip.engineCycle, hgang, hrun, Chip.xgAnnounce_of_onDevice hx, Chip.holding_of_noPause hpause,
    Chip.waitfExpire_of_noPause hpause, ne_eq, not_true_eq_false, if_false, Bool.false_eq_true] <;> rfl

/-- Where no word has a fault, the cycle is issued. -/
theorem Chip.engineCycle_issues (hgang : c.gang pe = ms) (hl : ms.headD 0 = l) (hx : c.xsys l = false)
    (hrun : c.peState l = peRunning) (hpause : (c.eng l).pause = none)
    (hws : ms.map (fun j => (j, (c.leavePause ms).wordFor pe forced j)) = ws)
    (hfault : ∀ p ∈ ws, (c.leavePause ms).issueFault p.1 p.2 = none) :
    c.engineCycle pe forced = (c.leavePause ms).issueAll ms l ws := by
  rw [Chip.engineCycle_of_running hgang hl hx hrun hpause]
  simp only [hws, Chip.firstFault_of_none hfault]

/-! ## An engine in no gang -/

section
variable {k w : Nat} (halone : c.is (F.PE_CTL_GANG_EN k) = false) (hrun : c.peState k = peRunning) (hpause : (c.eng k).pause = none)
  (hw : (c.leavePause [k]).wordFor k forced k = w)
include halone hrun hpause hw

theorem Chip.engineCycle_alone_issues (hfault : (c.leavePause [k]).issueFault k w = none) :
    c.engineCycle k forced = (c.leavePause [k]).issueAll [k] k [(k, w)] := by
  refine Chip.engineCycle_issues (Chip.gang_of_alone halone) rfl (Chip.xsys_of_alone halone) hrun hpause ?_ ?_
  · rw [List.map_singleton, hw]
  · exact List.forall_mem_singleton.2 hfault

theorem Chip.engineCycle_alone_faults {code : Nat} (hfault : (c.leavePause [k]).issueFault k w = some code) :
    c.engineCycle k forced = (c.leavePause [k]).faultRun [k] k code := by
  rw [Chip.engineCycle_of_running (Chip.gang_of_alone halone) rfl (Chip.xsys_of_alone halone) hrun hpause]
  simp only [List.map_singleton, hw, Chip.firstFault_single, hfault, Option.map_some]

end

theorem Chip.wordFor_forced (w : Nat) : c.wordFor pe (some w) pe = w := if_pos rfl

/-! ## The sequencer rows (R112, R114) -/

/-- The rows of the twelve sequencer operations for an engine and a word, each with its operation's code (Table 4.2). -/
def seqRows (k : Fin 16) (word : BitVec 256) : List (Instr × Nat) :=
  [(.seqNext k word, seqNEXT), (.seqJmp k word, seqJMP), (.seqJc k word, seqJC), (.seqCall k word, seqCALL), (.seqRet k word, seqRET),
    (.seqLoop k word, seqLOOP), (.seqLdlc k word, seqLDLC), (.seqRepeat k word, seqREPEAT), (.seqWaitf k word, seqWAITF),
    (.seqSync k word, seqSYNC), (.seqPause k word, seqPAUSE), (.seqHalt k word, seqHALT)]

/-- A sequencer row is the engine cycle with its word forced. -/
theorem exec_seqRow {s : State} {k : Fin 16} {word : BitVec 256} {row : Instr × Nat} (h : row ∈ seqRows k word) :
    exec row.1 s = runChip (Chip.engineCycle k (some (withSeq row.2 word.toNat))) s := by
  revert row
  simp only [seqRows, List.forall_mem_cons, exec_seqNext, exec_seqJmp, exec_seqJc, exec_seqCall, exec_seqRet, exec_seqLoop,
    exec_seqLdlc, exec_seqRepeat, exec_seqWaitf, exec_seqSync, exec_seqPause, exec_seqHalt, true_and]
  exact List.forall_mem_nil _

/-- Settles O10: the cycle of an engine in no gang, and of a gang on one device, is issued where no word has a fault. -/
theorem sequencerRows : Obligations.SequencerRows := by
  refine ⟨fun s k hs halone hrun hpause => ⟨?row, ?cycle⟩, ?gang⟩
  case row =>
    exact fun word row hrow hfault =>
      exec_eq_of_runChip (exec_seqRow hrow) hs
        (Chip.engineCycle_alone_issues halone hrun hpause (Chip.wordFor_forced _) hfault)
  case cycle =>
    exact fun hfault =>
      exec_eq_of_runChip (exec_engineCycle k s) hs (Chip.engineCycle_alone_issues halone hrun hpause rfl hfault)
  case gang =>
    intro s k ms l hs hgang hl hx hrun hpause idle ws hfault
    have hhead : ms.headD 0 = l := by rw [List.headD_eq_head?_getD, hl, Option.getD_some]
    exact exec_eq_of_runChip (exec_engineCycle k s) hs (Chip.engineCycle_issues hgang hhead hx hrun hpause rfl hfault)

end Sys2Proof.Machine
end

section
/-! PROOF. What the end of a run leaves in the engines' registers, and the faults of the call stack (O51). -/

namespace Sys2Proof.Machine

variable {c : Chip} {k : Nat} {f g : Fld}

/-! ## The registers of the pattern engines -/

/-- The field stands in a pattern engine's block, control-space offsets 0x200000 to 0x2FFFFF. -/
abbrev Fld.ofEngine (f : Fld) : Prop := f.key / (1024 * 0x100000) = 2

/-- The engines' registers. Events, replies and edges touch none of them. -/
def Chip.engineRegs (c : Chip) (f : Fld) (_ : f.ofEngine) : Nat := c.get f

theorem Chip.get_of_engineRegs {d : Chip} (h : d.engineRegs = c.engineRegs) (hf : f.ofEngine) : d.get f = c.get f :=
  congrFun (congrFun h f) hf

theorem Chip.set_engineRegs {v : Nat} (hg : ¬g.ofEngine) : (c.set g v).engineRegs = c.engineRegs :=
  funext fun f => funext fun hf => Chip.get_set_ne v c fun hkey => hg (by rwa [Fld.ofEngine, ← hkey])

theorem Chip.inc_engineRegs (hg : ¬g.ofEngine) : (c.inc g).engineRegs = c.engineRegs := Chip.set_engineRegs hg

theorem Chip.ite_engineRegs {p : Prop} [Decidable p] {a b : Chip} (ha : a.engineRegs = c.engineRegs)
    (hb : b.engineRegs = c.engineRegs) : (if p then a else b).engineRegs = c.engineRegs := by
  split
  · exact ha
  · exact hb

theorem Chip.forAll_engineRegs {α : Type} (l : List α) {t : α → Chip → Chip} (ht : ∀ a c, (t a c).engineRegs = c.engineRegs) :
    (c.forAll l t).engineRegs = c.engineRegs :=
  Chip.forAll_frame Chip.engineRegs l ht c

/-! Events (R43, R61, R62) -/

theorem lostFld_not_ofEngine (sev : Nat) : ¬(lostFld sev).ofEngine := by
  unfold lostFld
  split <;> decide

theorem Chip.evqPut_engineRegs (e : Ev) : (c.evqPut e).engineRegs = c.engineRegs :=
  have hlost (sev : Nat) (d : Chip) : (d.inc (lostFld sev)).engineRegs = d.engineRegs := Chip.inc_engineRegs (lostFld_not_ofEngine sev)
  Chip.ite_engineRegs rfl (Chip.ite_engineRegs (hlost ..) (hlost ..))

theorem Chip.evLogPut_engineRegs (e : Ev) : (c.evLogPut e).engineRegs = c.engineRegs :=
  Chip.ite_engineRegs (Chip.ite_engineRegs rfl (Chip.inc_engineRegs (by decide))) rfl

theorem Chip.notice_engineRegs (kind : Nat) : (c.notice kind).engineRegs = c.engineRegs :=
  Chip.ite_engineRegs rfl (Chip.ite_engineRegs rfl rfl)

theorem Chip.requestEventIbi_engineRegs : c.requestEventIbi.engineRegs = c.engineRegs := by
  unfold Chip.requestEventIbi
  extract_lets d
  have hd : d.engineRegs = c.engineRegs := Chip.ite_engineRegs rfl rfl
  exact Chip.ite_engineRegs ((Chip.notice_engineRegs 2).trans hd) hd

theorem Chip.raise_engineRegs (e : Nat × Nat) (arg : Nat) : (c.raise e arg).engineRegs = c.engineRegs := by
  unfold Chip.raise Chip.raiseAt
  extract_lets ev n
  have hput : ((c.evqPut ev).evLogPut ev).engineRegs = c.engineRegs :=
    (Chip.evLogPut_engineRegs ev).trans (Chip.evqPut_engineRegs ev)
  exact Chip.ite_engineRegs (Chip.requestEventIbi_engineRegs.trans hput) hput

theorem Chip.raiseIf_engineRegs (b : Bool) (e : Nat × Nat) (arg : Nat) : (c.raiseIf b e arg).engineRegs = c.engineRegs :=
  Chip.ite_engineRegs (Chip.raise_engineRegs e arg) rfl

theorem Chip.flagEvent_engineRegs (hg : ¬g.ofEngine) (e : Nat × Nat) (arg : Nat) :
    (c.flagEvent g e arg).engineRegs = c.engineRegs :=
  Chip.ite_engineRegs rfl ((Chip.raise_engineRegs e arg).trans (Chip.set_engineRegs hg))

/-! Replies (R48, R49, R57) -/

theorem Chip.sendReply_engineRegs (route : Route) (slot : Option Nat) (refusal : Bool) (bytes : List Byte) :
    (c.sendReply route slot refusal bytes).engineRegs = c.engineRegs := by
  cases route
  case i3c => exact Chip.ite_engineRegs rfl rfl
  all_goals rfl

theorem Chip.finish1_engineRegs (id status detail : Nat) (payload : List Byte) :
    (c.finish1 id status detail payload).engineRegs = c.engineRegs := by
  unfold Chip.finish1
  split
  · rfl
  · refine Chip.ite_engineRegs rfl (Chip.ite_engineRegs (Chip.ite_engineRegs rfl rfl) ?_)
    refine (Chip.raiseIf_engineRegs _ _ _).trans (Chip.ite_engineRegs ?_ ?_)
    · exact Chip.sendReply_engineRegs ..
    · exact Chip.sendReply_engineRegs ..

theorem Chip.finish_engineRegs (id status detail : Nat) (payload : List Byte) :
    (c.finish id status detail payload).engineRegs = c.engineRegs :=
  (Chip.forAll_engineRegs _ fun _ _ => Chip.finish1_engineRegs ..).trans (Chip.finish1_engineRegs ..)

theorem Chip.fail_engineRegs (id status detail : Nat) : (c.fail id status detail).engineRegs = c.engineRegs :=
  Chip.finish_engineRegs ..

/-! Edges (R89, R90) -/

theorem Chip.placeEdge_engineRegs (n : Nat) (den lvl : Bool) (t gap : Int) :
    (c.placeEdge n den lvl t gap).engineRegs = c.engineRegs := by
  have hcount : ¬(F.RD_EDGE_CLAMP_COUNT (n / 8)).ofEngine := by
    simp only [Fld.ofEngine, Fld.key, F.RD_EDGE_CLAMP_COUNT]
    omega
  have hflag : ¬(F.RD_GRP_STAT_CLAMP (n / 8)).ofEngine := by
    simp only [Fld.ofEngine, Fld.key, F.RD_GRP_STAT_CLAMP]
    omega
  exact Chip.ite_engineRegs ((Chip.flagEvent_engineRegs hflag ..).trans (Chip.inc_engineRegs hcount)) rfl

theorem Chip.idleDen_engineRegs : (c.idleDen k).engineRegs = c.engineRegs :=
  Chip.forAll_engineRegs _ fun _ _ => Chip.ite_engineRegs (Chip.placeEdge_engineRegs ..) rfl

/-! ## The end of a run in FAULT (R129, R132) -/

/-- The registers that tell of a fault: its code and address, `PC` and the engine's state. -/
def Chip.faultRecord (k code addr : Nat) (c : Chip) : Chip :=
  (((c.set (F.PE_FAULT_CODE k) code).set (F.PE_FAULT_ADDR k) addr).set (F.PE_STAT_PC k) addr).set (F.PE_STAT_STATE k) peFault

theorem Chip.endWaiters_engineRegs (st : Nat) (byReset : Bool) : (c.endWaiters k st byReset).engineRegs = c.engineRegs := by
  unfold Chip.endWaiters
  extract_lets e d0 d1 d2
  have h1 : d1.engineRegs = c.engineRegs := Chip.forAll_engineRegs (c := d0) _ fun _ _ => Chip.fail_engineRegs ..
  have h2 : d2.engineRegs = c.engineRegs := by
    refine (Chip.forAll_engineRegs (c := d1) _ fun id d => ?_).trans h1
    split
    · exact Chip.fail_engineRegs ..
    · exact Chip.fail_engineRegs ..
  refine (Chip.forAll_engineRegs (c := d2) _ fun id d => ?_).trans h2
  repeat' split
  all_goals exact Chip.fail_engineRegs ..

theorem Chip.endEngine_fault_engineRegs {code addr : Nat} (hcode : code ≠ 0) :
    (c.endEngine k peFault code addr).engineRegs = (c.faultRecord k code addr).engineRegs := by
  unfold Chip.endEngine
  rw [if_neg hcode]
  extract_lets began d0 d1 d2 d3
  have h2 : d2.engineRegs = (c.faultRecord k code addr).engineRegs := rfl
  exact (Chip.raise_engineRegs _ _).trans (Chip.ite_engineRegs (Chip.idleDen_engineRegs.trans h2) h2)

/-- A fault of an engine in no gang leaves its record, and every other register of the engines as it was. -/
theorem Chip.faultRun_alone_engineRegs {code : Nat} (hx : c.xsys k = false) (hcode : code ≠ 0) :
    (c.faultRun [k] k code).engineRegs = (c.faultRecord k code (c.peAt k)).engineRegs := by
  have hrun : c.faultRun [k] k code = (c.endEngine k peFault code (c.peAt k)).endWaiters k peFault false := by
    simp [Chip.faultRun, Chip.endRun, hx]
  rw [hrun, Chip.endWaiters_engineRegs, Chip.endEngine_fault_engineRegs hcode]

theorem Chip.peAt_of_noPause (hpause : (c.eng k).pause = none) (hnpc : (c.eng k).npc < 65536) : c.peAt k = (c.eng k).npc := by
  rw [Chip.peAt, Chip.holding_of_noPause hpause]
  exact Nat.min_eq_right (Nat.le_of_lt_succ hnpc)

end Sys2Proof.Machine
end

section
/-! PROOF. The faults of the call stack (O51): the instruction is not issued, and the run ends in FAULT. -/

namespace Sys2Proof.Machine

variable {c : Chip} {k w : Nat} {f : Fld}

/-! ## The fault record as the registers show it -/

theorem Chip.faultRecord_peState (code addr : Nat) : (c.faultRecord k code addr).peState k = peFault := by
  rw [Chip.peState, Chip.faultRecord, Chip.get_set_same]
  rfl

theorem Chip.faultRecord_code {code : Nat} (addr : Nat) (h : code < 256) :
    (c.faultRecord k code addr).get (F.PE_FAULT_CODE k) = code := by
  rw [Chip.faultRecord, Chip.get_set_ne _ _ (by simp only [Fld.key, F.PE_FAULT_CODE, F.PE_STAT_STATE]; omega),
    Chip.get_set_ne _ _ (by simp only [Fld.key, F.PE_FAULT_CODE, F.PE_STAT_PC]; omega),
    Chip.get_set_ne _ _ (by simp only [Fld.key, F.PE_FAULT_CODE, F.PE_FAULT_ADDR]; omega), Chip.get_set_same]
  exact Nat.mod_eq_of_lt h

theorem Chip.faultRecord_addr {addr : Nat} (code : Nat) (h : addr < 65536) :
    (c.faultRecord k code addr).get (F.PE_FAULT_ADDR k) = addr := by
  rw [Chip.faultRecord, Chip.get_set_ne _ _ (by simp only [Fld.key, F.PE_FAULT_ADDR, F.PE_STAT_STATE]; omega),
    Chip.get_set_ne _ _ (by simp only [Fld.key, F.PE_FAULT_ADDR, F.PE_STAT_PC]; omega), Chip.get_set_same]
  exact Nat.mod_eq_of_lt h

theorem Chip.faultRecord_get_other (code addr : Nat)
    (h : f.key ∉ [F.PE_FAULT_CODE k, F.PE_FAULT_ADDR k, F.PE_STAT_PC k, F.PE_STAT_STATE k].map Fld.key) :
    (c.faultRecord k code addr).get f = c.get f := by
  simp only [List.map_cons, List.map_nil, List.mem_cons, List.not_mem_nil, or_false, not_or] at h
  obtain ⟨hcode, haddr, hpc, hstate⟩ := h
  rw [Chip.faultRecord, Chip.get_set_ne _ _ hstate, Chip.get_set_ne _ _ hpc, Chip.get_set_ne _ _ haddr, Chip.get_set_ne _ _ hcode]

/-! ## The faults of the call stack (R114) -/

theorem iSeq_withSeq {seq : Nat} (h : seq < 32) (w : Nat) : iSeq (withSeq seq w) = seq := by
  simp only [iSeq, bits, withSeq, Nat.shiftRight_zero]
  omega

/-- An engine that leaves its pause point keeps what decides its faults. -/
theorem Chip.leavePause_single_eng : (c.leavePause [k]).eng k = { c.eng k with pause := none } := by
  simp [Chip.leavePause]

theorem Chip.leavePause_single_illegal : (c.leavePause [k]).illegal k w = c.illegal k w := by
  have hleader : (c.leavePause [k]).gangLeader k = c.gangLeader k := rfl
  have hx : (c.leavePause [k]).xsys k = c.xsys k := rfl
  simp only [Chip.illegal, Chip.leavePause_single_eng, hleader, hx]

section
variable (hnpc : (c.eng k).npc < 65536) (hlegal : c.illegal k w = false)
include hnpc hlegal

theorem Chip.issueFault_of_full_call (hseq : iSeq w = seqCALL) (hfull : 8 ≤ c.get (F.PE_STAT_STACK_DEPTH k)) :
    c.issueFault k w = some fcSTACK_OVF := by
  simp [Chip.issueFault, Nat.not_le.2 hnpc, hlegal, hseq, hfull]

theorem Chip.issueFault_of_empty_ret (hseq : iSeq w = seqRET) (hempty : c.get (F.PE_STAT_STACK_DEPTH k) = 0) :
    c.issueFault k w = some fcSTACK_UNF := by
  simp [Chip.issueFault, Nat.not_le.2 hnpc, hlegal, hseq, hempty, seqRET, seqCALL]

end

/-- An engine in no gang whose forced word has a fault: the run ends in FAULT, and the engines' registers show its record alone. -/
theorem Chip.engineCycle_fault_engineRegs {code : Nat} (halone : c.is (F.PE_CTL_GANG_EN k) = false) (hrun : c.peState k = peRunning)
    (hpause : (c.eng k).pause = none) (hnpc : (c.eng k).npc < 65536)
    (hfault : (c.leavePause [k]).issueFault k w = some code) (hcode : code ≠ 0) :
    (c.engineCycle k (some w)).engineRegs = (c.faultRecord k code (c.eng k).npc).engineRegs := by
  have hx : (c.leavePause [k]).xsys k = false := Chip.xsys_of_alone halone
  have hat : (c.leavePause [k]).peAt k = (c.eng k).npc := by
    rw [Chip.peAt_of_noPause (by rw [Chip.leavePause_single_eng]) (by rwa [Chip.leavePause_single_eng]), Chip.leavePause_single_eng]
  rw [Chip.engineCycle_alone_faults halone hrun hpause (Chip.wordFor_forced w) hfault, Chip.faultRun_alone_engineRegs hx hcode, hat]
  rfl

/-- What a device with a fault's record shows: the record, and the cycle count, the call stack and the X registers of before. -/
theorem Chip.reads_of_faultRecord {d : Chip} {code addr : Nat} (hk : k < 16) (hcode : code < 256) (haddr : addr < 65536)
    (hregs : d.engineRegs = (c.faultRecord k code addr).engineRegs) :
    d.peState k = peFault ∧ d.get (F.PE_FAULT_CODE k) = code ∧ d.get (F.PE_FAULT_ADDR k) = addr ∧
      d.get (F.PE_CYCLE_COUNT k) = c.get (F.PE_CYCLE_COUNT k) ∧
      d.get (F.PE_STAT_STACK_DEPTH k) = c.get (F.PE_STAT_STACK_DEPTH k) ∧
      ∀ r < 8, d.get (F.PE_XALU_VAL k r) = c.get (F.PE_XALU_VAL k r) := by
  have hget {f : Fld} (hf : f.ofEngine) := Chip.get_of_engineRegs hregs hf
  refine ⟨?_, ?_, ?_, ?_, ?_, fun r hr => ?_⟩
  · refine (hget ?_).trans (Chip.faultRecord_peState ..)
    simp only [Fld.ofEngine, Fld.key, F.PE_STAT_STATE]
    omega
  · refine (hget ?_).trans (Chip.faultRecord_code _ hcode)
    simp only [Fld.ofEngine, Fld.key, F.PE_FAULT_CODE]
    omega
  · refine (hget ?_).trans (Chip.faultRecord_addr _ haddr)
    simp only [Fld.ofEngine, Fld.key, F.PE_FAULT_ADDR]
    omega
  all_goals
    refine (hget ?_).trans (Chip.faultRecord_get_other _ _ ?_)
    · simp only [Fld.ofEngine, Fld.key, F.PE_CYCLE_COUNT, F.PE_STAT_STACK_DEPTH, F.PE_XALU_VAL]
      omega
    · simp only [List.map_cons, List.map_nil, List.mem_cons, List.not_mem_nil, or_false, Fld.key, F.PE_CYCLE_COUNT, F.PE_STAT_STACK_DEPTH,
        F.PE_XALU_VAL, F.PE_FAULT_CODE, F.PE_FAULT_ADDR, F.PE_STAT_PC, F.PE_STAT_STATE]
      omega

theorem Chip.forgetOld_get (f : Fld) : (c.forgetOld k).get f = c.get f := rfl

theorem Chip.clearEdges_get (f : Fld) : (c.clearEdges k).get f = c.get f := by
  unfold Chip.clearEdges
  exact Chip.forAll_frame (fun d => d.get f) _ (fun _ d => Chip.setUnit_get f _ d) c

/-- A run starts with an empty call stack. -/
theorem Chip.beginEngine_stackDepth (tick : Nat) : (c.beginEngine k tick).get (F.PE_STAT_STACK_DEPTH k) = 0 := by
  unfold Chip.beginEngine
  extract_lets d1 d2 d3 d4 cap d5
  have h2 : d2.get (F.PE_STAT_STACK_DEPTH k) = 0 := (Chip.get_set_same ..).trans (Nat.zero_mod _)
  have h3 : d3.get (F.PE_STAT_STACK_DEPTH k) = d2.get (F.PE_STAT_STACK_DEPTH k) := by
    refine Chip.forAll_frame (fun c => c.get (F.PE_STAT_STACK_DEPTH k)) _ (fun j c => Chip.get_set_ne _ _ ?_) d2
    simp only [Fld.key, F.PE_STAT_STACK_DEPTH, F.PE_STACK_ADDR]
    omega
  clear_value d3
  have h4 : d4.get (F.PE_STAT_STACK_DEPTH k) = d3.get (F.PE_STAT_STACK_DEPTH k) := Chip.setEng_get ..
  clear_value d4
  have h5 : d5.get (F.PE_STAT_STACK_DEPTH k) = d3.get (F.PE_STAT_STACK_DEPTH k) := by
    unfold d5
    split
    · exact h4
    · exact h4
  clear_value d5
  rw [Chip.clearEdges_get, Chip.forgetOld_get, h5, h3, h2]

/-- Settles O51: each row's cycle ends in the fault of its word, whose record shows what was not issued. -/
theorem callStackFaults : Obligations.CallStackFaults := by
  intro s k word
  refine ⟨fun hs halone hrun hpause hnpc => ⟨?call, ?ret⟩, fun tick => Chip.beginEngine_stackDepth tick⟩
  case call =>
    intro hfull hlegal
    have hfault : (s.chip.quiet.leavePause [k.val]).issueFault k (withSeq seqCALL word.toNat) = some fcSTACK_OVF :=
      Chip.issueFault_of_full_call (by rwa [Chip.leavePause_single_eng]) (Chip.leavePause_single_illegal.trans hlegal)
        (iSeq_withSeq (by decide) _) hfull
    exact ⟨_, (exec_seqCall k word s).trans (runChip_awake s _ hs),
      Chip.reads_of_faultRecord k.isLt (by decide) hnpc
        (Chip.engineCycle_fault_engineRegs halone hrun hpause hnpc hfault (by decide))⟩
  case ret =>
    intro hempty hlegal
    have hfault : (s.chip.quiet.leavePause [k.val]).issueFault k (withSeq seqRET word.toNat) = some fcSTACK_UNF :=
      Chip.issueFault_of_empty_ret (by rwa [Chip.leavePause_single_eng]) (Chip.leavePause_single_illegal.trans hlegal)
        (iSeq_withSeq (by decide) _) hempty
    exact ⟨_, (exec_seqRet k word s).trans (runChip_awake s _ hs),
      Chip.reads_of_faultRecord k.isLt (by decide) hnpc
        (Chip.engineCycle_fault_engineRegs halone hrun hpause hnpc hfault (by decide))⟩

end Sys2Proof.Machine
end

section
/-! PROOF. What brings an engine its vectors, flags, table words and clock (O12). -/

namespace Sys2Proof.Machine

variable {c : Chip} {k n : Nat}

/-! ## The stream (R122, R123, R286) -/

/-- The vectors still to be taken of a response of `count`: no more than the buffer holds and the stream has left. -/
def Chip.streamTakes (c : Chip) (k count : Nat) : Nat :=
  min count (min (16384 - (c.eng k).stream.length) (c.get (F.PE_STREAM_LEN_LEN k) - (c.eng k).streamReq))

/-- The address of vector `i` of those not yet requested. -/
def Chip.streamAddr (c : Chip) (k i : Nat) : Nat := c.get (F.PE_STREAM_BASE_ADDR k) + 64 * ((c.eng k).streamReq + i)

/-- Vectors enter the stream buffer, `n` of them requested. -/
def Chip.pushStream (k n : Nat) (vs : List SVec) (c : Chip) : Chip :=
  c.setEng k (fun e => { e with stream := e.stream ++ vs, streamReq := e.streamReq + n })

section
variable {count : Nat} (hactive : c.peActive k = true) (hon : (c.eng k).streamOn = true)
include hactive hon

/-- A failed response leaves a bad place for every vector it should have brought. -/
theorem Chip.streamRead_of_failed :
    c.streamRead k false count = c.pushStream k (c.streamTakes k count) ((List.range (c.streamTakes k count)).map fun _ => SVec.bad) := by
  simp only [Chip.streamRead, hactive, hon, Bool.not_true, Bool.or_self, Bool.false_eq_true, if_false, Bool.false_and,
    Chip.pushStream, Chip.streamTakes]

/-- Where every row of a response is readable and accessible, its vectors are what memory holds. -/
theorem Chip.streamRead_of_readable
    (hrows : ∀ i < c.streamTakes k count, c.rowBad (c.streamAddr k i) 64 = false ∧ c.rowRefusal (c.streamAddr k i) 64 = none) :
    c.streamRead k true count = c.pushStream k (c.streamTakes k count)
      ((List.range (c.streamTakes k count)).map fun i => SVec.ok (leNat (memRead (c.streamAddr k i) 64 c.mem))) := by
  have hcut : (List.range (c.streamTakes k count)).find? (fun i => c.rowBad (c.streamAddr k i) 64) = none :=
    List.find?_eq_none.2 fun i hi => by simp [(hrows i (List.mem_range.1 hi)).1]
  have hvs : (List.range (c.streamTakes k count)).map (fun i =>
      if true && decide (i < c.streamTakes k count) && (c.rowRefusal (c.streamAddr k i) 64).isNone
      then SVec.ok (leNat (memRead (c.streamAddr k i) 64 c.mem)) else SVec.bad) =
      (List.range (c.streamTakes k count)).map fun i => SVec.ok (leNat (memRead (c.streamAddr k i) 64 c.mem)) := by
    refine List.map_congr_left fun i hi => ?_
    have hlt := List.mem_range.1 hi
    simp [hlt, (hrows i hlt).2]
  unfold Chip.streamTakes Chip.streamAddr at *
  simp only [Chip.streamRead, hactive, hon, Bool.not_true, Bool.or_self, Bool.false_eq_true, if_false, hcut, Option.getD_none, hvs,
    Nat.lt_irrefl, decide_false, Bool.and_false, Chip.pushStream]

end

/-! ## The user port (R124) -/

theorem Chip.uportVector_of_room {v : Nat} (hon : c.is (F.PE_CTL_UPORT_EN k) = true) (hroom : (c.eng k).uport.length < 64) :
    c.uportVector k v = c.setEng k (fun e => { e with uport := e.uport ++ [v] }) := by
  simp only [Chip.uportVector, hon, hroom, decide_true, Bool.and_self, if_true]

theorem Chip.uportVector_of_full {v : Nat} (hfull : (c.eng k).uport.length = 64) : c.uportVector k v = c := by
  simp [Chip.uportVector, hfull]

theorem Chip.uportFlags_of_enabled {v : Nat} (hon : c.is (F.PE_CTL_UPORT_EN k) = true) :
    c.uportFlags k v = c.setEng k (fun e => { e with uf := v }) := if_pos hon

/-! ## Register accesses (R121, R126, R135) -/

theorem Chip.imDataHi_of_active {v : Nat} (h : c.peActive k = true) : c.imDataHi k v = (rspState, c) := if_pos h

/-- An instruction written whole is stored, and with `AUTOINC` the port's address advances. -/
theorem Chip.imDataHi_of_autoinc {v : Nat} (hstill : c.peActive k = false) (hauto : c.is (F.PE_IM_ADDR_AUTOINC k) = true) :
    c.imDataHi k v = (rspOk, (c.imStore k (c.get (F.PE_IM_ADDR_ADDR k)) ((c.eng k).imLo + v * 2 ^ 128)).set (F.PE_IM_ADDR_ADDR k)
      ((c.get (F.PE_IM_ADDR_ADDR k) + 1) % 65536)) := by
  have hauto' (a w : Nat) : (c.imStore k a w).is (F.PE_IM_ADDR_AUTOINC k) = true := hauto
  simp only [Chip.imDataHi, hstill, Bool.false_eq_true, if_false, hauto', if_true]

/-- Whether a region of the mask is bound to another engine (R126). -/
def Chip.boundElsewhere (c : Chip) (k j mask : Nat) : Bool :=
  engines.any (fun i => i ≠ k && (c.get (F.PE_STOPBIND_MASK i j) &&& mask) ≠ 0)

theorem Chip.boundElsewhere_iff {j mask : Nat} :
    c.boundElsewhere k j mask = true ↔ ∃ i < 16, i ≠ k ∧ c.get (F.PE_STOPBIND_MASK i j) &&& mask ≠ 0 := by
  simp [Chip.boundElsewhere, engines]

theorem Chip.stopBind_of_free {j mask : Nat} (hstill : c.peActive k = false) (hfree : c.boundElsewhere k j mask = false) :
    c.stopBind k j mask = (rspOk, c.set (F.PE_STOPBIND_MASK k j) mask) := by
  unfold Chip.boundElsewhere at hfree
  simp only [Chip.stopBind, hstill, hfree, Bool.false_eq_true, if_false]

theorem Chip.stopBind_of_bound {j mask : Nat} (hstill : c.peActive k = false) (hbound : c.boundElsewhere k j mask = true) :
    c.stopBind k j mask = (rspDenied, c) := by
  unfold Chip.boundElsewhere at hbound
  simp only [Chip.stopBind, hstill, hbound, Bool.false_eq_true, if_false, if_true]

theorem Chip.endCmd_of_running {cls op status detail : Nat} {good : List Byte → Bool} {payload : List Byte} {slot : Slot}
    (h : c.runningCmd cls op good = some slot) :
    c.endCmd cls op good status detail payload = c.finish slot.id status detail payload := by
  simp only [Chip.endCmd, h]

/-- Settles O12: each row's command is one function of the device, and its equation under the clause's premises gives the row. -/
theorem engineInputRows : Obligations.EngineInputRows := by
  intro s k hs
  refine ⟨?stream, ?vector, ?full, ?flags, ?imActive, ?imStore, ?bindFree, ?bindBound, ?locked⟩
  case stream =>
    intro rsp count hactive hon n at' takes
    refine ⟨fun hbad => ?_, fun hgood hrows => ?_⟩
    · refine exec_eq_of_runChip (exec_streamReadResponse k rsp count s) hs ?_
      rw [decide_eq_false hbad]
      exact Chip.streamRead_of_failed hactive hon
    · refine exec_eq_of_runChip (exec_streamReadResponse k rsp count s) hs ?_
      rw [decide_eq_true hgood]
      exact Chip.streamRead_of_readable hactive hon hrows
  case vector =>
    exact fun vec hon hroom => exec_eq_of_runChip (exec_uportVectorArrival k vec s) hs (Chip.uportVector_of_room hon hroom)
  case full => exact fun vec hfull => exec_eq_of_runChip (exec_uportVectorArrival k vec s) hs (Chip.uportVector_of_full hfull)
  case flags => exact fun flags hon => exec_eq_of_runChip (exec_uportFlagUpdate k flags s) hs (Chip.uportFlags_of_enabled hon)
  case imActive =>
    exact fun hi hactive =>
      exec_eq_of_runChip (exec_peImDataWrite k hi s) hs (congrArg answerWrite (Chip.imDataHi_of_active (c := s.chip.quiet) hactive))
  case imStore =>
    exact fun hi hstill hauto =>
      exec_eq_of_runChip (exec_peImDataWrite k hi s) hs
        (congrArg answerWrite (Chip.imDataHi_of_autoinc (c := s.chip.quiet) hstill hauto))
  case bindFree =>
    intro j mask hstill hfree
    have hnone : s.chip.quiet.boundElsewhere k j mask.toNat = false :=
      Bool.eq_false_iff.2 fun hbound =>
        let ⟨i, hi, hne, hmask⟩ := Chip.boundElsewhere_iff.1 hbound
        hmask (hfree i hi hne)
    exact exec_eq_of_runChip (exec_peStopbindWrite k j mask s) hs
      (congrArg answerWrite (Chip.stopBind_of_free (c := s.chip.quiet) hstill hnone))
  case bindBound =>
    intro j mask i hstill hi hne hmask
    have hbound : s.chip.quiet.boundElsewhere k j mask.toNat = true := Chip.boundElsewhere_iff.2 ⟨i, hi, hne, hmask⟩
    exact exec_eq_of_runChip (exec_peStopbindWrite k j mask s) hs
      (congrArg answerWrite (Chip.stopBind_of_bound (c := s.chip.quiet) hstill hbound))
  case locked =>
    exact fun slot hslot =>
      exec_eq_of_runChip (exec_peClockLocked k s) hs (Chip.endCmd_of_running (c := s.chip.quiet) hslot)

end Sys2Proof.Machine
end

section
/-! PROOF. The commands of class 0x03 (O13): what each does from its slot, for an engine in no gang. -/

namespace Sys2Proof.Machine

variable {c : Chip} {k id : Nat} {pl : List Byte}

/-! ## An interim reply leaves the registers and the engines (R49) -/

theorem Chip.interim_rf (id status detail : Nat) (payload : List Byte) : (c.interim id status detail payload).rf = c.rf := by
  unfold Chip.interim Chip.sendReply
  split
  · rfl
  · split
    · dsimp only
      split <;> rfl
    · rfl

theorem Chip.get_of_rf {d : Chip} (f : Fld) (h : d.rf = c.rf) : d.get f = c.get f := congrArg (tget f.rst f.key) h

theorem Chip.is_of_rf {d : Chip} (f : Fld) (h : d.rf = c.rf) : d.is f = c.is f := by rw [Chip.is, Chip.get_of_rf f h, Chip.is]

/-! ## The commands (Table 4.12) -/

theorem cmdPeLoad_run_of_still (hk : pb pl 0 = k) (hstill : c.peActive k = false) :
    cmdPeLoad.run id pl c =
      (c.forAll (List.range (pf pl 4 2)) (fun i => Chip.imStore k (pf pl 2 2 + i) (pf pl (8 + 32 * i) 32))).ok id [] := by
  subst hk
  simp only [cmdPeLoad, Cmd.plain, hstill, Bool.false_eq_true, if_false]

section
variable (halone : c.is (F.PE_CTL_GANG_EN k) = false)
include halone

/-- Of an engine that does not run, a start at once arms it (R130). -/
theorem cmdPeStart_run_at_once (hk : pb pl 0 = k) (hnow : pb pl 1 = 0) (hstill : c.peActive k = false) :
    cmdPeStart.run id pl c = c.arm [k] (pf pl 2 2) none id := by
  subst hk
  simp [cmdPeStart, Cmd.plain, Chip.notLeader_of_alone halone, Chip.gang_of_alone halone, hstill, hnow]

/-- A start at a tick in reach is deferred (R130). -/
theorem cmdPeStart_run_at_tick (hk : pb pl 0 = k) (hat : pb pl 1 = 1) (hstill : c.peActive k = false)
    (hlate : c.get F.WW_TB_TIME + 375 ≤ pf pl 8 8) (hsoon : pf pl 8 8 ≤ c.get F.WW_TB_TIME + 2 ^ 32) :
    cmdPeStart.run id pl c =
      (c.interim id ST_DEFERRED dtWaitTick []).arm ((c.interim id ST_DEFERRED dtWaitTick []).gang k) (pf pl 2 2) (some (pf pl 8 8))
        id := by
  subst hk
  have halone' : (c.interim id ST_DEFERRED dtWaitTick []).is (F.PE_CTL_GANG_EN (pb pl 0)) = false :=
    (Chip.is_of_rf _ (Chip.interim_rf ..)).trans halone
  have hreach : ¬(pf pl 8 8 < c.get F.WW_TB_TIME + 375 ∨ c.get F.WW_TB_TIME + 2 ^ 32 < pf pl 8 8) := by omega
  simp only [cmdPeStart, Cmd.plain, Chip.notLeader_of_alone halone, Chip.gang_of_alone halone, Chip.gang_of_alone halone', hstill,
    hat, hreach, Bool.false_eq_true, if_false, if_true]

/-- A pause of a running engine waits for a pause point, or acts at once at one that holds (R127). -/
theorem cmdPePause_run_of_active (hk : pf pl 0 4 = k) (hactive : c.peActive k = true) (hpaused : c.peState k ≠ pePaused) :
    cmdPePause.run id pl c =
      let d := (c.interim id ST_ACCEPTED dtNone []).setEng k (fun e => { e with pauseReq := e.pauseReq ++ [id] })
      if d.holding k then d.enterPaused (d.gang k) else d := by
  subst hk
  have hx (g : Pe → Pe) : ((c.interim id ST_ACCEPTED dtNone []).setEng (pf pl 0 4) g).xsys (pf pl 0 4) = false :=
    Chip.xsys_of_alone ((Chip.is_of_rf _ (Chip.interim_rf ..)).trans halone)
  simp only [cmdPePause, Cmd.plain, Chip.notLeader_of_alone halone, hactive, hpaused, hx, Bool.not_true, Bool.false_eq_true, if_false]

theorem cmdPeResume_run_of_paused (hk : pf pl 0 4 = k) (hpaused : c.peState k = pePaused) :
    cmdPeResume.run id pl c = (c.set (F.PE_STAT_STATE k) peRunning).ok id [] := by
  subst hk
  have halone' : (c.set (F.PE_STAT_STATE (pf pl 0 4)) peRunning).is (F.PE_CTL_GANG_EN (pf pl 0 4)) = false := by
    rwa [Chip.is, Chip.get_set_ne _ _ (by simp only [Fld.key, F.PE_CTL_GANG_EN, F.PE_STAT_STATE]; omega)]
  simp only [cmdPeResume, Cmd.plain, Chip.notLeader_of_alone halone, Chip.gang_of_alone halone, hpaused, ne_eq, not_true_eq_false,
    Bool.false_eq_true, if_false, Chip.forAll_cons, Chip.forAll_nil, Chip.xgAnnounce_of_alone halone']

/-- A stop of a running engine waits for a pause point, or acts at once at one that holds (R129). -/
theorem cmdPeStop_run_of_active (hk : pf pl 0 4 = k) (hactive : c.peActive k = true) :
    cmdPeStop.run id pl c =
      let d := (c.interim id ST_ACCEPTED dtNone []).setEng k (fun e => { e with stopReq := e.stopReq ++ [id] })
      if d.holding k then d.endRun (d.gang k) peStopped (fun _ => 0) false else d := by
  subst hk
  simp only [cmdPeStop, Cmd.plain, Chip.notLeader_of_alone halone, hactive, Bool.not_true, Bool.false_eq_true, if_false]

theorem cmdPeAbort_run_of_active (hk : pf pl 0 4 = k) (hactive : c.peActive k = true) :
    cmdPeAbort.run id pl c = (c.endRun [k] peAborted (fun _ => 0) false).ok id [] := by
  subst hk
  simp only [cmdPeAbort, Cmd.plain, Chip.notLeader_of_alone halone, Chip.gang_of_alone halone, hactive, Bool.not_true,
    Bool.false_eq_true, if_false]

theorem cmdPeClock_run_of_still (hk : pb pl 0 = k) (hstill : c.peActive k = false) :
    cmdPeClock.run id pl c = (c.set (F.PE_CTL_FSTEP k) (pf pl 2 2)).set (F.PE_CTL_MCODE k) (pb pl 4) := by
  subst hk
  simp only [cmdPeClock, Cmd.plain, Chip.notLeader_of_alone halone, Chip.gang_of_alone halone, hstill, Bool.false_eq_true, if_false,
    Chip.forAll_cons, Chip.forAll_nil]

end

/-! ## A gang is made (R133) -/

/-- The engines that a mask names, lowest first. -/
def namedEngines (mask : Nat) : List Nat := engines.filter (fun j => mask.testBit j)

theorem mem_namedEngines {mask j : Nat} : j ∈ namedEngines mask ↔ j < 16 ∧ mask.testBit j = true := by
  simp [namedEngines, engines]

/-- Engines that do not run and share one clock become a gang. -/
theorem cmdPeGang_run_of_same_clock (hmake : (pb pl 2).testBit 1 = false)
    (hstill : ∀ j ∈ namedEngines (pf pl 0 2), c.peActive j = false)
    (hclock : ∀ i ∈ namedEngines (pf pl 0 2), ∀ j ∈ namedEngines (pf pl 0 2),
      c.get (F.PE_CTL_FSTEP i) = c.get (F.PE_CTL_FSTEP j) ∧ c.get (F.PE_CTL_MCODE i) = c.get (F.PE_CTL_MCODE j)) :
    cmdPeGang.run id pl c =
      ((c.leaveGangs (namedEngines (pf pl 0 2))).makeGang (namedEngines (pf pl 0 2)) (bit (pb pl 2) 0)).ok id [] := by
  have hnone : (namedEngines (pf pl 0 2)).any (fun j => c.peActive j) = false :=
    List.any_eq_false.2 fun j hj => Bool.not_eq_true _ ▸ hstill j hj
  have hsame : (namedEngines (pf pl 0 2)).any (fun j =>
      c.get (F.PE_CTL_FSTEP j) ≠ c.get (F.PE_CTL_FSTEP ((namedEngines (pf pl 0 2)).headD 0)) ||
        c.get (F.PE_CTL_MCODE j) ≠ c.get (F.PE_CTL_MCODE ((namedEngines (pf pl 0 2)).headD 0))) = false := by
    refine List.any_eq_false.2 fun j hj => ?_
    have hhead : (namedEngines (pf pl 0 2)).headD 0 ∈ namedEngines (pf pl 0 2) := by
      rw [List.headD_eq_head?_getD, List.head?_eq_some_head (List.ne_nil_of_mem hj)]
      exact List.head_mem _
    obtain ⟨hfstep, hmcode⟩ := hclock j hj _ hhead
    simp [hfstep, hmcode]
  unfold namedEngines at hnone hsame ⊢
  simp only [cmdPeGang, Cmd.plain, hmake, hnone, hsame, Bool.false_eq_true, if_false]

/-- Settles O13: the packet is accepted, so the command starts in its slot, and its start is what the row says. -/
theorem engineCommandRows : Obligations.EngineCommandRows := by
  intro s p k hk halone
  refine ⟨?status, ?load, ?start, ?startAt, ?pause, ?resume, ?stop, ?abort, ?gang, ?clock⟩
  case status =>
    intro h hpl
    subst hpl
    exact exec_eq_of_accepts (exec_chPeStatus p s) h rfl
  case load => exact fun h hpl hstill => exec_eq_of_accepts (exec_chPeLoad p s) h (cmdPeLoad_run_of_still hpl hstill)
  case start =>
    exact fun h hpl hnow hstill => exec_eq_of_accepts (exec_chPeStart p s) h (cmdPeStart_run_at_once halone hpl hnow hstill)
  case startAt =>
    exact fun h hpl hat hstill hlate hsoon =>
      exec_eq_of_accepts (exec_chPeStart p s) h (cmdPeStart_run_at_tick halone hpl hat hstill hlate hsoon)
  case pause =>
    exact fun h hpl hactive hpaused =>
      exec_eq_of_accepts (exec_chPePause p s) h (cmdPePause_run_of_active halone hpl hactive hpaused)
  case resume =>
    exact fun h hpl hpaused => exec_eq_of_accepts (exec_chPeResume p s) h (cmdPeResume_run_of_paused halone hpl hpaused)
  case stop =>
    exact fun h hpl hactive => exec_eq_of_accepts (exec_chPeStop p s) h (cmdPeStop_run_of_active halone hpl hactive)
  case abort =>
    exact fun h hpl hactive => exec_eq_of_accepts (exec_chPeAbort p s) h (cmdPeAbort_run_of_active halone hpl hactive)
  case gang =>
    intro h hmake hmembers
    refine exec_eq_of_accepts (exec_chPeGang p s) h (cmdPeGang_run_of_same_clock hmake (fun j hj => ?_) fun i hi j hj => ?_)
    · obtain ⟨hj, hnamed⟩ := mem_namedEngines.1 hj
      exact (hmembers j hj j hj hnamed hnamed).1
    · obtain ⟨hi, hiNamed⟩ := mem_namedEngines.1 hi
      obtain ⟨hj, hjNamed⟩ := mem_namedEngines.1 hj
      exact (hmembers i hi j hj hiNamed hjNamed).2
  case clock =>
    exact fun h hpl hstill => exec_eq_of_accepts (exec_chPeClock p s) h (cmdPeClock_run_of_still halone hpl hstill)

end Sys2Proof.Machine
end

section
/-! PROOF. The address ALUs (O50): the model's operations against Table 4.4 on 32-bit words. -/

namespace Sys2Proof.Machine

variable {c : Chip} {k w : Nat}

/-! ## Table 4.4 on 32-bit words -/

/-- The words of register values. -/
def regWords (v : Nat → Nat) (j : Nat) : BitVec 32 := BitVec.ofNat 32 (v j)

/-- The registers with one replaced. -/
def putWord (v : Nat → BitVec 32) (r : Nat) (x : BitVec 32) (j : Nat) : BitVec 32 := if j = r then x else v j

/-- Table 4.4: the registers and the carry after an operation. -/
def aluTable (op r : Nat) (imm : BitVec 32) (v : Nat → BitVec 32) (cy : Bool) : (Nat → BitVec 32) × Bool :=
  match op with
  | 0x0 => (v, cy)
  | 0x1 => (putWord v 0 (v 0 + v r), false)
  | 0x2 => (putWord v 0 (v 0 - v r), false)
  | 0x3 => if v 0 = v 2 then (putWord v 0 (v 1), true) else (putWord v 0 (v 0 + v r), false)
  | 0x4 => if v 0 = v 1 then (putWord v 0 (v 2), true) else (putWord v 0 (v 0 - v r), false)
  | 0x5 => (putWord v 0 (v 1), false)
  | 0x6 => (putWord v 0 (v 2), false)
  | 0x7 => (putWord v 0 imm, false)
  | 0x8 => (putWord v r imm, false)
  | 0x9 => (putWord v 6 (v 0), false)
  | 0xA => (putWord v 0 (v 6), false)
  | _ => (putWord v 0 (v 0 ^^^ v 7), false)

/-- The registers after an operation that stores to one of them, or to none. -/
def written (o : Option (Nat × Nat)) (v : Nat → Nat) (j : Nat) : Nat :=
  match o with
  | some p => if j = p.1 then p.2 % 2 ^ 32 else v j
  | none => v j

/-- An operation's result on the registers `v` is what the table gives: the same carry, and the same eight registers. -/
structure FollowsTable (v : Nat → Nat) (a : Option (Nat × Nat) × Bool) (b : (Nat → BitVec 32) × Bool) : Prop where
  carry : a.2 = b.2
  regs : ∀ j < 8, written a.1 v j = (b.1 j).toNat
  reg_lt : ∀ p, a.1 = some p → p.1 < 8

theorem bits_lt (v hi lo : Nat) : bits v hi lo < 2 ^ (hi + 1 - lo) := Nat.mod_lt _ (Nat.two_pow_pos _)

section
variable {v : Nat → Nat} {op r imm : Nat} {cy : Bool} (hv : ∀ j < 8, v j < 2 ^ 32)
include hv

theorem regWords_toNat {j : Nat} (hj : j < 8) : (regWords v j).toNat = v j := by
  rw [regWords, BitVec.toNat_ofNat, Nat.mod_eq_of_lt (hv j hj)]

theorem regWords_inj {i j : Nat} (hi : i < 8) (hj : j < 8) : regWords v i = regWords v j ↔ v i = v j := by
  rw [BitVec.toNat_eq, regWords_toNat hv hi, regWords_toNat hv hj]

theorem regWords_add_toNat (hr : r < 8) : (regWords v 0 + regWords v r).toNat = (v 0 + v r) % 2 ^ 32 % 2 ^ 32 := by
  rw [BitVec.toNat_add, regWords_toNat hv (by decide), regWords_toNat hv hr, Nat.mod_mod]

theorem regWords_sub_toNat (hr : r < 8) : (regWords v 0 - regWords v r).toNat = (v 0 + 2 ^ 32 - v r) % 2 ^ 32 % 2 ^ 32 := by
  have hle : v r ≤ 2 ^ 32 := Nat.le_of_lt (hv r hr)
  rw [BitVec.toNat_sub, regWords_toNat hv hr, regWords_toNat hv (Nat.zero_lt_succ 7), Nat.mod_mod, Nat.add_comm,
    ← Nat.add_sub_assoc hle]

theorem regWords_xor_toNat : (regWords v 0 ^^^ regWords v 7).toNat = (v 0 ^^^ v 7) % 2 ^ 32 := by
  rw [BitVec.toNat_xor, regWords_toNat hv (by decide), regWords_toNat hv (by decide),
    Nat.mod_eq_of_lt (Nat.xor_lt_two_pow (hv 0 (by decide)) (hv 7 (by decide)))]

theorem followsTable_none : FollowsTable v (none, cy) (regWords v, cy) where
  carry := rfl
  regs _ hj := (regWords_toNat hv hj).symm
  reg_lt _ h := nomatch h

theorem followsTable_put {a x : Nat} {y : BitVec 32} (ha : a < 8) (hx : y.toNat = x % 2 ^ 32) :
    FollowsTable v (some (a, x), cy) (putWord (regWords v) a y, cy) where
  carry := rfl
  regs j hj := by
    by_cases h : j = a
    · simp only [written, putWord, h, if_true, hx]
    · simp only [written, putWord, h, if_false, regWords_toNat hv hj]
  reg_lt p h := by
    cases h
    exact ha

theorem followsTable_put_zero {x : Nat} {y : BitVec 32} (hx : y.toNat = x % 2 ^ 32) :
    FollowsTable v (some (0, x), cy) (putWord (regWords v) 0 y, cy) :=
  followsTable_put hv (Nat.zero_lt_succ 7) hx

/-- Each operation of the model does what its line of Table 4.4 says. -/
theorem aluOp_followsTable (hop : op < 0xC) (hr : r < 8) :
    FollowsTable v (aluOp op r imm v cy) (aluTable op r (BitVec.ofNat 32 imm) (regWords v) cy) :=
  match op, hop with
  | 0x0, _ => followsTable_none hv
  | 0x1, _ => followsTable_put_zero hv (regWords_add_toNat hv hr)
  | 0x2, _ => followsTable_put_zero hv (regWords_sub_toNat hv hr)
  | 0x3, _ => by
    simp only [aluOp, aluTable, regWords_inj hv (show 0 < 8 by decide) (show 2 < 8 by decide)]
    split
    · exact followsTable_put_zero hv (BitVec.toNat_ofNat _ _)
    · exact followsTable_put_zero hv (regWords_add_toNat hv hr)
  | 0x4, _ => by
    simp only [aluOp, aluTable, regWords_inj hv (show 0 < 8 by decide) (show 1 < 8 by decide)]
    split
    · exact followsTable_put_zero hv (BitVec.toNat_ofNat _ _)
    · exact followsTable_put_zero hv (regWords_sub_toNat hv hr)
  | 0x5, _ => followsTable_put_zero hv (BitVec.toNat_ofNat _ _)
  | 0x6, _ => followsTable_put_zero hv (BitVec.toNat_ofNat _ _)
  | 0x7, _ => followsTable_put_zero hv (BitVec.toNat_ofNat _ _)
  | 0x8, _ => followsTable_put hv hr (BitVec.toNat_ofNat _ _)
  | 0x9, _ => followsTable_put hv (by decide) (BitVec.toNat_ofNat _ _)
  | 0xA, _ => followsTable_put_zero hv (BitVec.toNat_ofNat _ _)
  | 0xB, _ => followsTable_put_zero hv (regWords_xor_toNat hv)
  | n + 0xC, h => absurd h (by omega)

end

/-! ## The step of both ALUs (R115) -/

/-- Store an operation's result, if any, to the registers `f`. -/
def Chip.storeAlu (f : Nat → Fld) (o : Option (Nat × Nat)) (c : Chip) : Chip :=
  match o with
  | some p => c.set (f p.1) p.2
  | none => c

theorem Chip.storeAlu_get_same {f : Nat → Fld} (hw : ∀ j, (f j).w = 32) (hf : ∀ i j, (f i).key = (f j).key → i = j)
    (o : Option (Nat × Nat)) (j : Nat) : (c.storeAlu f o).get (f j) = written o (fun i => c.get (f i)) j := by
  cases o with
  | none => rfl
  | some p =>
    by_cases h : j = p.1
    · subst h
      simp only [Chip.storeAlu, Chip.get_set_same, hw, written, if_true]
    · simp only [Chip.storeAlu, written, if_neg h, Chip.get_set_ne _ _ fun hkey => h (hf _ _ hkey)]

theorem Chip.storeAlu_get_other {f : Nat → Fld} {g : Fld} {o : Option (Nat × Nat)} (h : ∀ p, o = some p → g.key ≠ (f p.1).key) :
    (c.storeAlu f o).get g = c.get g := by
  cases o with
  | none => rfl
  | some p => exact Chip.get_set_ne _ _ (h p rfl)

/-- What X's operation gives. -/
def Chip.xResult (c : Chip) (k w : Nat) : Option (Nat × Nat) × Bool :=
  aluOp (iXop w) (iXr w) (iImmb w) (c.xreg k) (c.eng k).xcy

/-- What Y's operation gives, if it runs. -/
def Chip.yResult (c : Chip) (k w : Nat) : Option (Nat × Nat) × Bool :=
  if yRuns w (c.xResult k w).2 then aluOp (iYop w) (iYr w) (iImmb w) (c.yreg k) (c.eng k).ycy else (none, (c.eng k).ycy)

theorem Chip.aluStep_eq :
    c.aluStep k w = ((c.storeAlu (F.PE_XALU_VAL k) (c.xResult k w).1).storeAlu (F.PE_YALU_VAL k) (c.yResult k w).1).setEng k
      (fun e => { e with xcy := (c.xResult k w).2, ycy := (c.yResult k w).2 }) := rfl

theorem Chip.aluStep_carries : ((c.aluStep k w).eng k).xcy = (c.xResult k w).2 ∧ ((c.aluStep k w).eng k).ycy = (c.yResult k w).2 := by
  rw [Chip.aluStep_eq, Chip.eng_setEng_same]
  exact ⟨rfl, rfl⟩

theorem Chip.aluStep_get_xalu {j : Nat} (hj : j < 8) :
    (c.aluStep k w).get (F.PE_XALU_VAL k j) = written (c.xResult k w).1 (c.xreg k) j := by
  rw [Chip.aluStep_eq, Chip.setEng_get, Chip.storeAlu_get_other, Chip.storeAlu_get_same (fun _ => rfl)]
  · rfl
  · simp only [Fld.key, F.PE_XALU_VAL]
    omega
  · simp only [Fld.key, F.PE_XALU_VAL, F.PE_YALU_VAL]
    omega

/-- Where X's operation stores to one of its eight registers, those of Y are left to Y's operation. -/
theorem Chip.aluStep_get_yalu (hx : ∀ p, (c.xResult k w).1 = some p → p.1 < 8) (j : Nat) :
    (c.aluStep k w).get (F.PE_YALU_VAL k j) = written (c.yResult k w).1 (c.yreg k) j := by
  have hkept (i : Nat) : (c.storeAlu (F.PE_XALU_VAL k) (c.xResult k w).1).get (F.PE_YALU_VAL k i) = c.yreg k i := by
    refine Chip.storeAlu_get_other fun p hp => ?_
    have hlt := hx p hp
    simp only [Fld.key, F.PE_XALU_VAL, F.PE_YALU_VAL]
    omega
  rw [Chip.aluStep_eq, Chip.setEng_get, Chip.storeAlu_get_same (fun _ => rfl)]
  · simp only [hkept]
  · simp only [Fld.key, F.PE_YALU_VAL]
    omega

theorem yRuns_iff {xcy : Bool} : yRuns w xcy = true ↔ iYcc w = false ∨ ((iXop w = 3 ∨ iXop w = 4) ∧ xcy = true) := by
  simp [yRuns]

/-- Settles O50: each ALU's operation follows its line of the table, and the step stores what the two operations give. -/
theorem addressAlus : Obligations.AddressAlus := by
  intro c k w hxop hyop hregs imm vx vy x y d
  have hx : FollowsTable (c.xreg k) (c.xResult k w) x :=
    aluOp_followsTable (fun r hr => (hregs r hr).1) hxop (bits_lt w 70 68)
  have hy : FollowsTable (c.yreg k) (c.yResult k w) y := by
    have hv : ∀ r < 8, c.yreg k r < 2 ^ 32 := fun r hr => (hregs r hr).2
    unfold Chip.yResult y
    simp only [yRuns_iff, hx.carry]
    split
    · exact aluOp_followsTable hv hyop (bits_lt w 78 76)
    · exact followsTable_none hv
  obtain ⟨hxcy, hycy⟩ := Chip.aluStep_carries (c := c) (k := k) (w := w)
  exact ⟨fun r hr => ⟨(Chip.aluStep_get_xalu hr).trans (hx.regs r hr), (Chip.aluStep_get_yalu hx.reg_lt r).trans (hy.regs r hr)⟩,
    hxcy.trans hx.carry, hycy.trans hy.carry⟩

end Sys2Proof.Machine
end

section
/-! PROOF. What an event leaves alone, and a fail word outside its bitmap (O58). -/

namespace Sys2Proof.Machine

variable {c : Chip} {k : Nat}

/-! ## Where an event goes (R43, R61, R62, R422) -/

theorem Chip.notice_eq (kind : Nat) (c : Chip) : ∃ out, c.notice kind = { c with out := out } := by
  unfold Chip.notice
  split
  · exact ⟨_, rfl⟩
  · split <;> exact ⟨_, rfl⟩

/-- An in-band interrupt and a notice are outputs, and nothing beside. -/
theorem Chip.requestEventIbi_eq (c : Chip) : ∃ out, c.requestEventIbi = { c with out := out } := by
  have hibi : ∃ out, (if c.is F.I3C_STAT_IBI_EN then c.emitIbi c.eventIbiByte else c) = { c with out := out } := by
    split <;> exact ⟨_, rfl⟩
  unfold Chip.requestEventIbi
  obtain ⟨out, hout⟩ := hibi
  rw [hout]
  dsimp only
  split
  · exact Chip.notice_eq 2 { c with out := out }
  · exact ⟨_, rfl⟩

theorem Chip.ibiIfRisen_eq (before : Nat) (c : Chip) : ∃ out, c.ibiIfRisen before = { c with out := out } := by
  unfold Chip.ibiIfRisen
  split
  · exact c.requestEventIbi_eq
  · exact ⟨_, rfl⟩

theorem Chip.evLogPut_ch (e : Ev) (c : Chip) : (c.evLogPut e).ch = c.ch := by
  unfold Chip.evLogPut
  split
  · split <;> rfl
  · rfl

/-- The event queue is what queueing the event makes it: the event log and the interrupt do not touch it. -/
theorem Chip.raise_ch (e : Nat × Nat) (arg : Nat) (c : Chip) :
    (c.raise e arg).ch =
      (c.evqPut { code := e.1, sev := e.2, masked := !c.evOpen e.1 e.2, arg := arg % 2 ^ 32, time := c.get F.WW_TB_TIME }).ch := by
  unfold Chip.raise Chip.raiseAt
  extract_lets ev n
  obtain ⟨out, hout⟩ := Chip.ibiIfRisen_eq n ((c.evqPut ev).evLogPut ev)
  rw [hout]
  exact Chip.evLogPut_ch ev _

/-- A queue with room takes the event at its end. -/
theorem Chip.raise_events_of_room (e : Nat × Nat) (arg : Nat) (hroom : c.ch.events.length < 256) :
    (c.raise e arg).ch.events = c.ch.events ++
      [{ code := e.1, sev := e.2, masked := !c.evOpen e.1 e.2, arg := arg % 2 ^ 32, time := c.get F.WW_TB_TIME }] := by
  rw [Chip.raise_ch, Chip.evqPut, if_pos hroom]

/-! ## What an event leaves alone -/

/-- The counters of events that the queue or the log had no room for (Table 2.16, R423). -/
def lossCounters : List Fld :=
  [F.EVQ_LOST_A_LOST_INFO, F.EVQ_LOST_A_LOST_WARN, F.EVQ_LOST_B_LOST_ERROR, F.EVQ_LOST_B_LOST_FATAL, F.NVS_CNT_EVLOG_LOST]

/-- The field is none of the loss counters. -/
abbrev Fld.countsNoLoss (f : Fld) : Prop := f.key ∉ lossCounters.map Fld.key

theorem lostFld_mem_lossCounters (sev : Nat) : lostFld sev ∈ lossCounters := by
  unfold lostFld
  split <;> simp [lossCounters]

/-- Memory, fail capture, and the registers but for the loss counters: events touch none of them. -/
def Chip.besideEvents (c : Chip) : Memory × Cap × ((f : Fld) → f.countsNoLoss → Nat) := (c.mem, c.cap, fun f _ => c.get f)

theorem Chip.mem_of_besideEvents {d : Chip} (h : d.besideEvents = c.besideEvents) : d.mem = c.mem := congrArg Prod.fst h

theorem Chip.cap_of_besideEvents {d : Chip} (h : d.besideEvents = c.besideEvents) : d.cap = c.cap := congrArg (fun p => p.2.1) h

theorem Chip.get_of_besideEvents {d : Chip} {f : Fld} (h : d.besideEvents = c.besideEvents) (hf : f.countsNoLoss) :
    d.get f = c.get f :=
  congrFun (congrFun (congrArg (fun p => p.2.2) h) f) hf

theorem Chip.inc_besideEvents {g : Fld} (hg : g ∈ lossCounters) : (c.inc g).besideEvents = c.besideEvents := by
  have hget (f : Fld) (hf : f.countsNoLoss) : (c.inc g).get f = c.get f := by
    refine Chip.get_set_ne _ _ fun hkey => hf ?_
    rw [hkey]
    exact List.mem_map_of_mem hg
  exact congrArg (fun r => (c.mem, c.cap, r)) (funext fun f => funext (hget f))

theorem Chip.evqPut_besideEvents (e : Ev) : (c.evqPut e).besideEvents = c.besideEvents := by
  unfold Chip.evqPut
  split
  · rfl
  · dsimp only
    split <;> exact (Chip.inc_besideEvents (lostFld_mem_lossCounters _)).trans rfl

theorem Chip.evLogPut_besideEvents (e : Ev) : (c.evLogPut e).besideEvents = c.besideEvents := by
  unfold Chip.evLogPut
  split
  · split
    · rfl
    · exact Chip.inc_besideEvents (by simp [lossCounters])
  · rfl

theorem Chip.raise_besideEvents (e : Nat × Nat) (arg : Nat) : (c.raise e arg).besideEvents = c.besideEvents := by
  unfold Chip.raise Chip.raiseAt
  extract_lets ev n
  obtain ⟨out, hout⟩ := Chip.ibiIfRisen_eq n ((c.evqPut ev).evLogPut ev)
  rw [hout]
  exact (Chip.evLogPut_besideEvents ev).trans (Chip.evqPut_besideEvents ev)

/-! ## Sticky flags with an event -/

section
variable {f : Fld} {e : Nat × Nat} {arg : Nat}

theorem Chip.flagEvent_of_set (h : c.is f = true) : c.flagEvent f e arg = c := if_pos h

theorem Chip.flagEvent_of_clear (h : c.is f = false) : c.flagEvent f e arg = (c.set f 1).raise e arg :=
  if_neg (Bool.eq_false_iff.1 h)

theorem Chip.flagEvent_besideEvents :
    (c.flagEvent f e arg).besideEvents = (if c.is f then c else c.set f 1).besideEvents := by
  unfold Chip.flagEvent
  split
  · rfl
  · exact Chip.raise_besideEvents e arg

theorem Chip.flagEvent_mem : (c.flagEvent f e arg).mem = c.mem :=
  (Chip.mem_of_besideEvents Chip.flagEvent_besideEvents).trans (by split <;> rfl)

theorem Chip.flagEvent_cap : (c.flagEvent f e arg).cap = c.cap :=
  (Chip.cap_of_besideEvents Chip.flagEvent_besideEvents).trans (by split <;> rfl)

theorem Chip.flagEvent_get {g : Fld} (hg : g.countsNoLoss) (hne : g.key ≠ f.key) : (c.flagEvent f e arg).get g = c.get g := by
  refine (Chip.get_of_besideEvents Chip.flagEvent_besideEvents hg).trans ?_
  split
  · rfl
  · exact Chip.get_set_ne _ _ hne

theorem Chip.flagEvent_is (hw : f.w = 1) (hf : f.countsNoLoss) : (c.flagEvent f e arg).is f = true := by
  rw [Chip.is, Chip.get_of_besideEvents Chip.flagEvent_besideEvents hf]
  split
  · assumption
  · exact Chip.is_set_one c f hw

end

/-! ## A word outside the bitmap (R153) -/

/-- A loss counter stands in the system block or the persistent store's, so a field of fail capture is none. -/
theorem Fld.countsNoLoss_of_capture {f : Fld} (h : f.key / (1024 * 0x100000) = 4) : f.countsNoLoss := by
  intro hmem
  obtain ⟨g, hg, hkey⟩ := List.mem_map.1 hmem
  have hother : ∀ g ∈ lossCounters, g.key / (1024 * 0x100000) ≠ 4 := by decide
  exact hother g hg (by rwa [hkey])

/-- Count a word outside the bitmap of engine `k`, and flag it. -/
def Chip.noteOutside (k : Nat) (c : Chip) : Chip :=
  (c.inc (F.BM_RANGE_CNT_COUNT k)).flagEvent (F.CAP_PE_STAT_BM_RANGE k) EV_CAP_BM_RANGE k

/-- The bitmap sink accepts a word outside the bitmap without touching a line, faulted or not. -/
theorem Chip.bmOffer_outside {e : Nat} (hon : c.is (F.CAP_PE_CTL_BM_EN k) = true)
    (hout : 2 ^ c.get (F.BM_GEOM_BXW k) ≤ fwX e ∨ 2 ^ c.get (F.BM_GEOM_BYW k) ≤ fwY e) :
    c.bmOffer k e = .accepted (c.noteOutside k) := by
  simp only [Chip.bmOffer, hon, hout, Bool.not_true, Bool.false_eq_true, if_false, if_true, Chip.noteOutside]

theorem bmRangeCnt_key_ne_flag : (F.BM_RANGE_CNT_COUNT k).key ≠ (F.CAP_PE_STAT_BM_RANGE k).key := by
  simp only [Fld.key, F.CAP_PE_STAT_BM_RANGE, F.BM_RANGE_CNT_COUNT]
  omega

/-- The count leaves the flag as it was. -/
theorem Chip.inc_bmRangeCnt_is_flag :
    (c.inc (F.BM_RANGE_CNT_COUNT k)).is (F.CAP_PE_STAT_BM_RANGE k) = c.is (F.CAP_PE_STAT_BM_RANGE k) := by
  rw [Chip.is, Chip.inc, Chip.addSat, Chip.get_set_ne _ _ bmRangeCnt_key_ne_flag.symm, Chip.is]

theorem Chip.noteOutside_count (hk : k < 16) :
    (c.noteOutside k).get (F.BM_RANGE_CNT_COUNT k) = min (2 ^ 48 - 1) (c.get (F.BM_RANGE_CNT_COUNT k) + 1) := by
  have hcap : (F.BM_RANGE_CNT_COUNT k).countsNoLoss :=
    Fld.countsNoLoss_of_capture (by simp only [Fld.key, F.BM_RANGE_CNT_COUNT]; omega)
  exact (Chip.flagEvent_get hcap bmRangeCnt_key_ne_flag).trans (Chip.get_addSat_same _ _ _)

theorem Chip.noteOutside_flag (hk : k < 16) : (c.noteOutside k).is (F.CAP_PE_STAT_BM_RANGE k) = true :=
  Chip.flagEvent_is rfl (Fld.countsNoLoss_of_capture (by simp only [Fld.key, F.CAP_PE_STAT_BM_RANGE]; omega))

/-- Settles O58: the sink accepts the word with its count and its flag, and events touch neither memory nor fail capture. -/
theorem bitmapRange : Obligations.BitmapRange := by
  intro c k e hon hout
  refine ⟨c.noteOutside k, Chip.bmOffer_outside hon hout, Chip.flagEvent_mem, Chip.flagEvent_cap, Chip.noteOutside_count k.isLt,
    Chip.noteOutside_flag k.isLt, fun hset => ?again, fun hclear hroom => ?first⟩
  case again => rw [Chip.noteOutside, Chip.flagEvent_of_set (Chip.inc_bmRangeCnt_is_flag.trans hset), Chip.inc, Chip.addSat, Chip.set_ch]
  case first =>
    rw [Chip.noteOutside, Chip.flagEvent_of_clear (Chip.inc_bmRangeCnt_is_flag.trans hclear)]
    exact ⟨_, Chip.raise_events_of_room _ _ hroom, rfl, rfl, Nat.mod_eq_of_lt (by omega)⟩

end Sys2Proof.Machine
end

section
/-! PROOF. The rows of fail capture (O16), and the commands of class 0x05, opcodes 0x00 to 0x07 (O17). -/

namespace Sys2Proof.Machine

variable {c : Chip} {k : Nat}

/-! ## The dispatcher (R142, R148) -/

/-- The round-robin search found a word. -/
theorem Chip.failDispatch_of_found (h : (rotFrom c.cap.rr).find? (fun k => c.fifo k ≠ []) = some k) :
    c.failDispatch = Chip.dispatch k { c with cap := { c.cap with rr := (k + 1) % 16 } } := by
  simp only [Chip.failDispatch, h]

/-- The FAT sink is done with the head word of FIFO `k`. -/
def Chip.fatPassed (k : Nat) (c : Chip) : Chip :=
  { c with cap := { c.cap with headFat := setBit c.cap.headFat k, fatWait := clrBit c.cap.fatWait k } }

theorem Chip.fatExpire_of_waiting {e : Nat} {q : List Nat} (hwait : c.cap.fatWait.testBit k = true) (hq : c.fifo k = e :: q) :
    c.fatExpire k = ((c.fatReject k e).fatPassed k).dispatch k := by
  simp only [Chip.fatExpire, hwait, hq, if_true, Chip.fatPassed]

/-! ## Write-backs and zeroing (R154 to R156, R274) -/

section
variable {a : Nat} {r : Rsp} {perr : Bool} {l : BmLine}
  (hline : c.cap.lines.find? (fun l => l.addr = a && (l.wb = 1 || l.wb = 2)) = some l)
include hline

theorem Chip.bmQueue_of_failed (hr : r.code ≠ 0) : c.bmQueue a r perr = c.bmFail r false := by
  simp only [Chip.bmQueue, hline, hr, ne_eq, not_false_eq_true, if_true]

theorem Chip.bmQueue_of_refused {r' : Rsp} (hr : r.code = 0) (hrow : c.rowRefusal a 1024 = some r') :
    c.bmQueue a r perr = c.bmFail r' false := by
  simp only [Chip.bmQueue, hline, hr, hrow, ne_eq, not_true_eq_false, if_false]

/-- An accepted `ROW_OR` enters the write queue, and its line waits until it is performed. -/
theorem Chip.bmQueue_of_room (hr : r.code = 0) (hrow : c.rowRefusal a 1024 = none) (hroom : c.dr.wq.length < 256) :
    c.bmQueue a r perr =
      ((c.drWakeRank a perr).drPush a ((natLe 1024 l.bits).map (fun b => (true, b))) true).setWb a (l.wb + 2) := by
  simp only [Chip.bmQueue, hline, hr, hrow, ne_eq, not_true_eq_false, if_false, if_neg (Nat.not_le.2 hroom)]

end

section
variable {r : Rsp} {z : BmZero} {zs : List BmZero}

/-- The end of the row that a zeroing is at, or of its range where that is nearer. -/
abbrev BmZero.rowStop (z : BmZero) : Nat := min z.stop (rowBase z.next + 1024)

/-- Queue zeros for the rest of the row that a zeroing is at. -/
def Chip.queueZeros (z : BmZero) (c : Chip) : Chip :=
  (c.drWakeRank z.next false).drPush z.next ((List.range (z.rowStop - z.next)).map (fun _ => (true, 0))) false

/-- The zeroings that are left. -/
def Chip.setZeros (zs : List BmZero) (c : Chip) : Chip := { c with cap := { c.cap with zero := zs } }

variable (hzero : c.cap.zero = z :: zs) (hr : r.code = 0) (hrow : c.rowRefusal z.next (z.rowStop - z.next) = none)
  (hroom : c.dr.wq.length < 256)
include hzero hr hrow hroom

theorem Chip.bmZeroRow_of_room :
    c.bmZeroRow r =
      if z.rowStop = z.stop then ((c.queueZeros z).setZeros zs).ok z.slot []
      else (c.queueZeros z).setZeros ({ z with next := z.rowStop } :: zs) := by
  unfold BmZero.rowStop at hrow
  simp only [Chip.bmZeroRow, hzero, hr, hrow, Option.getD_none, ne_eq, not_true_eq_false, if_false, if_neg (Nat.not_le.2 hroom),
    Chip.queueZeros, Chip.setZeros, BmZero.rowStop]

end

/-! ## Register accesses (Tables 5.4 and 5.10) -/

theorem Chip.fatPortHi_of_fixed (h : c.is F.FAT_PORT_ADDR_AUTOINC = false) : c.fatPortHi = (c.cap.snap >>> 128, c) := by
  simp only [Chip.fatPortHi, h, Bool.false_eq_true, if_false]

theorem Chip.fatPortHi_of_autoinc (h : c.is F.FAT_PORT_ADDR_AUTOINC = true) :
    c.fatPortHi = (c.cap.snap >>> 128, c.set F.FAT_PORT_ADDR_INDEX ((c.get F.FAT_PORT_ADDR_INDEX + 1) % 131072)) := by
  simp only [Chip.fatPortHi, h, if_true]

/-- A clear write of zero clears nothing. -/
theorem Chip.clearBits_zero (fs : List Fld) (c : Chip) : c.clearBits fs 0 = c := by
  induction fs with
  | nil => rfl
  | cons f fs ih => rwa [Chip.clearBits_cons, if_neg (by decide)]

/-- A clear write of 1 clears the count of fail words alone. -/
theorem Chip.capCntClr_one : c.capCntClr k 1 = c.set (F.CAP_FWORDS_COUNT k) 0 := by
  have hfirst : c.clearBits (capCounters k) 1 = c.set (F.CAP_FWORDS_COUNT k) 0 := by
    rw [capCounters, Chip.clearBits_cons, if_pos (by decide)]
    exact Chip.clearBits_zero _ _
  unfold Chip.capCntClr
  rw [hfirst]
  exact if_neg (by decide)

/-- Settles O16: each row's command is one function of the device, and its equation under the clause's premises gives the row. -/
theorem captureRows : Obligations.CaptureRows := by
  intro s hs
  refine ⟨?dispatch, ?expiry, ?writeback, ?zero, ?readLo, ?readHi, ?readNext, ?cntClr⟩
  case dispatch => exact fun k hfound => exec_eq_of_runChip (exec_failDispatch s) hs (Chip.failDispatch_of_found hfound)
  case expiry =>
    exact fun k e q hwait hq => exec_eq_of_runChip (exec_fatWaitExpiry k s) hs (Chip.fatExpire_of_waiting hwait hq)
  case writeback =>
    intro a rsp detail perr l hline
    have hcode (h : rsp = 0) : rsp.val = 0 := congrArg Fin.val h
    refine ⟨fun hbad => ?_, fun r hgood hrow => ?_, fun hgood hrow hroom => ?_⟩
    · exact exec_eq_of_runChip (exec_bmWritebackResponse a rsp detail perr s) hs
        (Chip.bmQueue_of_failed hline fun h => hbad (Fin.ext h))
    · exact exec_eq_of_runChip (exec_bmWritebackResponse a rsp detail perr s) hs
        (Chip.bmQueue_of_refused (c := s.chip.quiet) hline (hcode hgood) hrow)
    · exact exec_eq_of_runChip (exec_bmWritebackResponse a rsp detail perr s) hs
        (Chip.bmQueue_of_room hline (hcode hgood) hrow hroom)
  case zero =>
    intro detail z zs hzero hroom stop queued hrow
    have hrun := Chip.bmZeroRow_of_room (c := s.chip.quiet) (r := ⟨0, detail.toNat⟩) hzero rfl hrow hroom
    refine ⟨fun hlast => ?_, fun hmore => ?_⟩
    · exact exec_eq_of_runChip (exec_bmZeroRowDone 0 detail s) hs (hrun.trans (if_pos hlast))
    · exact exec_eq_of_runChip (exec_bmZeroRowDone 0 detail s) hs (hrun.trans (if_neg hmore))
  case readLo => exact exec_eq_after (exec_fatPortReadLo s) hs fun c => rfl
  case readHi =>
    intro hfixed
    have hread := Chip.fatPortHi_of_fixed (c := s.chip.quiet) hfixed
    exact exec_eq_of_runChip (exec_fatPortReadHi s) hs (by rw [hread])
  case readNext =>
    intro hauto
    have hread := Chip.fatPortHi_of_autoinc (c := s.chip.quiet) hauto
    exact exec_eq_of_runChip (exec_fatPortReadHi s) hs (by rw [hread])
  case cntClr =>
    exact fun k => exec_eq_after (exec_capPeCntClr k 1 s) hs fun c => congrArg (Chip.answer rspOk 0) Chip.capCntClr_one

/-! ## The commands (R154, R156, R162 to R164) -/

section
variable {id : Nat} {pl : List Byte}

/-- Store `CAP_PE_CTL` of engine `k` (Table 5.7). -/
def Chip.setCapCtl (k v : Nat) (c : Chip) : Chip :=
  ((((c.set (F.CAP_PE_CTL_EN k) (bit v 0)).set (F.CAP_PE_CTL_FAT_EN k) (bit v 1)).set (F.CAP_PE_CTL_BM_EN k) (bit v 2)).set
    (F.CAP_PE_CTL_FFL_KEEP k) (bit v 3)).set (F.CAP_PE_CTL_CMASK_CH k) (bits v 31 16)

theorem cmdCapConfig_run_of_drained (hdrained : c.drained (pb pl 0) = true)
    (hgeom : bmGeomBad (bits (pf pl 8 8) 47 10 * 1024) (bits (pf pl 16 8) 4 0) (bits (pf pl 16 8) 9 5) (bits (pf pl 16 8) 11 10) =
      false) :
    cmdCapConfig.run id pl c = (((c.writeBm (pb pl 0) (pf pl 8 8) (pf pl 16 8)).2.setCapCtl (pb pl 0) (pf pl 4 4)).ok id []) := by
  simp only [cmdCapConfig, Cmd.plain, hdrained, hgeom, Bool.not_true, Bool.false_eq_true, if_false, Chip.setCapCtl]

/-- A clear that leaves the FAT and the map of lost domains takes no state of the engines into account (R163). -/
theorem cmdCapClear_run_of_counters_and_logs (hfat : (pb pl 2).testBit 2 = false) (hlost : (pb pl 2).testBit 3 = false) :
    cmdCapClear.run id pl c =
      let ks := engines.filter (fun k => (pf pl 0 2).testBit k)
      let d := if (pb pl 2).testBit 0 then c.forAll ks (fun k => Chip.capClearEng k) else c
      (if (pb pl 2).testBit 1 then d.forAll ks (fun k c => { c with cap := { c.cap with ffl := tdel k c.cap.ffl } }) else d).ok
        id [] := by
  simp only [cmdCapClear, Cmd.plain, hfat, hlost, Bool.or_self, Bool.false_and, Bool.false_eq_true, if_false]

/-- A command that joins the flushes in progress wants every dirty line written back. -/
theorem Chip.flushMark_of_joined (id : Nat) (c : Chip) :
    Chip.flushMark { c with cap := { c.cap with flush := c.cap.flush ++ [id] } } =
      { c with cap := { c.cap with
        flush := c.cap.flush ++ [id]
        lines := c.cap.lines.map (fun l => if l.dirty && l.wb = 0 then { l with wb := 2 } else l) } } :=
  if_neg (List.append_ne_nil_of_right_ne_nil _ (List.cons_ne_nil _ _))

theorem cmdCapBmFlush_run :
    cmdCapBmFlush.run id pl c =
      let d := c.interim id ST_ACCEPTED dtNone []
      Chip.flushDone { d with cap := { d.cap with
        flush := d.cap.flush ++ [id]
        lines := d.cap.lines.map (fun l => if l.dirty && l.wb = 0 then { l with wb := 2 } else l) } } :=
  congrArg Chip.flushDone (Chip.flushMark_of_joined id (c.interim id ST_ACCEPTED dtNone []))

/-- A zeroing starts where there is no bitmap fault and every engine that writes into the range is drained (R155). -/
theorem cmdCapBmZero_run_of_drained (hfault : c.is F.CAP_STAT_BM_FAULT = false) (hdrained : c.drained (pf pl 0 4) = true)
    (hothers : ∀ j < 16, c.is (F.CAP_PE_CTL_BM_EN j) = true → overlaps (c.bmRange (pf pl 0 4)) (c.bmRange j) = true →
      c.drained j = true) :
    cmdCapBmZero.run id pl c =
      let r := c.bmRange (pf pl 0 4)
      let d := c.interim id ST_ACCEPTED dtNone []
      ({ d with cap := { d.cap with
        lines := d.cap.lines.filter (fun l => !overlaps r (l.addr, l.addr + 1024))
        zero := d.cap.zero ++ [{ slot := id, next := r.1, stop := r.2 }] } } : Chip).flushDone.retryHeads := by
  have hnone : engines.any (fun j => c.is (F.CAP_PE_CTL_BM_EN j) && overlaps (c.bmRange (pf pl 0 4)) (c.bmRange j) && !c.drained j) =
      false := by
    refine List.any_eq_false.2 fun j hj hbusy => ?_
    simp only [Bool.and_eq_true, Bool.not_eq_true'] at hbusy
    obtain ⟨⟨hon, hover⟩, hbusy⟩ := hbusy
    exact Bool.false_ne_true (hbusy.symm.trans (hothers j (List.mem_range.1 hj) hon hover))
  simp only [cmdCapBmZero, Cmd.plain, hfault, hdrained, hnone, Bool.not_true, Bool.or_self, Bool.false_eq_true, if_false]

/-- Entries in index order, valid or not (R164). -/
theorem cmdCapFatRead_run_of_all (hall : pb pl 6 = 0) :
    cmdCapFatRead.run id pl c = c.ok id (natLe 4 ((pf pl 0 4 + pf pl 4 2) % 131072) ++
      ((List.range (pf pl 4 2)).map (fun j => c.fatAt ((pf pl 0 4 + j) % 131072))).flatMap (natLe 32)) := by
  simp only [cmdCapFatRead, Cmd.plain, hall, Nat.zero_ne_one, if_false]

end

/-- Settles O17: the packet is accepted, so the command starts in its slot, and its start is what the row says. -/
theorem captureCommandRows : Obligations.CaptureCommandRows := by
  intro s p
  refine ⟨?status, ?config, ?clear, ?flush, ?zero, ?fflRead, ?fatRead, ?lostRead⟩
  case status => exact fun h => exec_eq_of_accepts (exec_chCapStatus p s) h rfl
  case config =>
    rintro k v g h rfl rfl rfl hdrained hgeom
    exact exec_eq_of_accepts (exec_chCapConfig p s) h (cmdCapConfig_run_of_drained hdrained hgeom)
  case clear =>
    exact fun h hfat hlost => exec_eq_of_accepts (exec_chCapClear p s) h (cmdCapClear_run_of_counters_and_logs hfat hlost)
  case flush => exact fun h => exec_eq_of_accepts (exec_chCapBmFlush p s) h cmdCapBmFlush_run
  case zero =>
    rintro k h rfl hfault hdrained hothers
    exact exec_eq_of_accepts (exec_chCapBmZero p s) h (cmdCapBmZero_run_of_drained hfault hdrained hothers)
  case fflRead => exact fun h => exec_eq_of_accepts (exec_chCapFflRead p s) h rfl
  case fatRead => exact fun h hall => exec_eq_of_accepts (exec_chCapFatRead p s) h (cmdCapFatRead_run_of_all hall)
  case lostRead => exact fun h => exec_eq_of_accepts (exec_chCapLostRead p s) h rfl

end Sys2Proof.Machine
end

section
/-! PROOF. The rows of the repair-analysis engine (O18), and the commands of class 0x05, opcodes 0x10 to 0x17 (O19). -/

namespace Sys2Proof.Machine

variable {c : Chip} {j k e : Nat}

/-! ## What an event may change (R43, R61, R422) -/

theorem Chip.evqPut_eq (e : Ev) (c : Chip) : ∃ rf ch, c.evqPut e = { c with rf := rf, ch := ch } := by
  unfold Chip.evqPut
  split
  · exact ⟨_, _, rfl⟩
  · dsimp only
    split <;> exact ⟨_, _, rfl⟩

theorem Chip.evLogPut_eq (e : Ev) (c : Chip) : ∃ rf nvs, c.evLogPut e = { c with rf := rf, nvs := nvs } := by
  unfold Chip.evLogPut
  split
  · split <;> exact ⟨_, _, rfl⟩
  · exact ⟨_, _, rfl⟩

/-- An event reaches the registers, Chanter, the event log and the outputs, and nothing beside. -/
theorem Chip.raise_eq (e : Nat × Nat) (arg : Nat) (c : Chip) :
    ∃ rf ch nvs out, c.raise e arg = { c with rf := rf, ch := ch, nvs := nvs, out := out } := by
  unfold Chip.raise Chip.raiseAt
  extract_lets ev n
  obtain ⟨rf, ch, hqueue⟩ := Chip.evqPut_eq ev c
  obtain ⟨rf', nvs, hlog⟩ := Chip.evLogPut_eq ev (c.evqPut ev)
  obtain ⟨out, hout⟩ := Chip.ibiIfRisen_eq n ((c.evqPut ev).evLogPut ev)
  rw [hout, hlog, hqueue]
  exact ⟨_, _, _, _, rfl⟩

theorem Chip.raise_rae (e : Nat × Nat) (arg : Nat) (c : Chip) : (c.raise e arg).rae = c.rae := by
  obtain ⟨rf, ch, nvs, out, hraise⟩ := Chip.raise_eq e arg c
  rw [hraise]

/-! ## Fail capture leaves the registers of repair analysis -/

/-- The field stands in the block of the repair-analysis engine, control-space offsets 0x500000 to 0x5FFFFF. -/
abbrev Fld.ofRae (f : Fld) : Prop := f.key / (1024 * 0x100000) = 5

theorem Fld.countsNoLoss_of_rae {f : Fld} (hf : f.ofRae) : f.countsNoLoss := by
  intro hmem
  obtain ⟨g, hg, hkey⟩ := List.mem_map.1 hmem
  have hother : ∀ g ∈ lossCounters, ¬g.ofRae := by decide
  exact hother g hg (by rwa [Fld.ofRae, hkey])

/-- A field of an engine's registers in the block of fail capture is none of repair analysis. -/
theorem Fld.not_ofRae_of_capture {at' lo w rst : Nat} {acc : Acc} (hk : k < 16)
    (hplace : 0x400000 ≤ at' ∧ at' < 0x4FF000 ∧ lo < 1024) : ¬Fld.ofRae ⟨at' + 0x100 * k, lo, w, acc, rst⟩ := by
  simp only [Fld.ofRae, Fld.key]
  omega

theorem Chip.get_flushMark (f : Fld) (c : Chip) : c.flushMark.get f = c.get f := by
  unfold Chip.flushMark
  split
  · rfl
  · exact Chip.get_of_rf f rfl

section
variable {f g : Fld} (hf : f.ofRae)
include hf

theorem Chip.get_set_of_rae (v : Nat) (hg : ¬g.ofRae) : (c.set g v).get f = c.get f :=
  Chip.get_set_ne v c fun hkey => hg (by rwa [Fld.ofRae, ← hkey])

theorem Chip.get_raise_of_rae (ev : Nat × Nat) (arg : Nat) : (c.raise ev arg).get f = c.get f :=
  Chip.get_of_besideEvents (Chip.raise_besideEvents ev arg) (Fld.countsNoLoss_of_rae hf)

theorem Chip.get_flagEvent_of_rae (ev : Nat × Nat) (arg : Nat) (hg : ¬g.ofRae) : (c.flagEvent g ev arg).get f = c.get f :=
  Chip.flagEvent_get (Fld.countsNoLoss_of_rae hf) fun hkey => hg (by rwa [Fld.ofRae, ← hkey])

theorem Chip.get_fatMark_of_rae : c.fatMark.get f = c.get f := by
  have hhigh (v : Nat) : (c.set F.CAP_STAT_FAT_HIGH v).get f = c.get f := Chip.get_set_of_rae hf v (by decide)
  unfold Chip.fatMark
  split
  · exact (Chip.get_raise_of_rae hf _ _).trans (hhigh 1)
  · split
    · exact hhigh 0
    · rfl

theorem Chip.get_fatInsert_of_rae {fails x y dom : Nat} : ∀ d, c.fatInsert fails x y dom = some d → d.get f = c.get f := by
  unfold Chip.fatInsert
  extract_lets all
  split
  · intro d hd
    rw [← Option.some.inj hd]
    exact Chip.get_of_rf f rfl
  · split
    · intro d hd
      rw [← Option.some.inj hd]
      exact (Chip.get_fatMark_of_rae hf).trans (Chip.get_of_rf f rfl)
    · exact fun d hd => absurd hd.symm (Option.some_ne_none d)

theorem Chip.get_fatReject_of_rae (hk : k < 16) : (c.fatReject k e).get f = c.get f := by
  have hcount : ¬(F.FAT_REJ_CNT_COUNT k).ofRae := Fld.not_ofRae_of_capture hk (by decide)
  have hflag : ¬(F.CAP_PE_STAT_FAT_REJ k).ofRae := Fld.not_ofRae_of_capture hk (by decide)
  calc (c.fatReject k e).get f
      = (((c.markLost (fwDom e)).inc (F.FAT_REJ_CNT_COUNT k)).set (F.CAP_PE_STAT_FAT_REJ k) 1).get f :=
        Chip.get_flagEvent_of_rae hf _ _ (by decide)
    _ = ((c.markLost (fwDom e)).inc (F.FAT_REJ_CNT_COUNT k)).get f := Chip.get_set_of_rae hf _ hflag
    _ = c.get f := Chip.get_set_of_rae hf _ hcount

theorem Chip.get_setFifo_of_rae (q : List Nat) (hk : k < 16) : (c.setFifo k q).get f = c.get f := by
  have hreq : ¬(F.CAP_PE_STAT_CAP_REQ_FIFO k).ofRae :=
    Fld.not_ofRae_of_capture hk (by decide)
  unfold Chip.setFifo
  dsimp only
  split
  · exact Chip.get_set_of_rae hf _ hreq
  · split
    · exact Chip.get_set_of_rae hf _ hreq
    · rfl

theorem Chip.get_bmOffer_of_rae (hk : k < 16) : (c.bmOffer k e).chip.get f = c.get f := by
  have hrange : ¬(F.BM_RANGE_CNT_COUNT k).ofRae := Fld.not_ofRae_of_capture hk (by decide)
  have hflag : ¬(F.CAP_PE_STAT_BM_RANGE k).ofRae := Fld.not_ofRae_of_capture hk (by decide)
  have hlost : ¬(F.BM_LOST_CNT_COUNT k).ofRae := Fld.not_ofRae_of_capture hk (by decide)
  unfold Chip.bmOffer
  extract_lets x y bxw bs base fresh
  split
  · rfl
  · split
    · exact (Chip.get_flagEvent_of_rae hf _ _ hflag).trans (Chip.get_set_of_rae hf _ hrange)
    · split
      · exact Chip.get_set_of_rae hf _ hlost
      · repeat' split
        all_goals rfl

theorem Chip.get_dispatch_of_rae (hk : k < 16) : (c.dispatch k).get f = c.get f := by
  unfold Chip.dispatch
  split
  · rfl
  · rename_i e q hfifo
    extract_lets _ rejected _ offered taken
    have hfat : offered.get f = c.get f := by
      unfold offered
      split
      · rfl
      · split
        · exact Chip.get_of_rf f rfl
        · split
          · rename_i d hd
            exact (Chip.get_of_rf f rfl).trans (Chip.get_fatInsert_of_rae hf d hd)
          · split
            · exact (Chip.get_of_rf f rfl).trans (Chip.get_fatReject_of_rae hf hk)
            · exact Chip.get_of_rf f rfl
    clear_value offered
    have hbm : taken.get f = offered.get f := by
      have hoffer := Chip.get_bmOffer_of_rae (c := offered) (e := e) hf hk
      unfold taken
      split
      · rfl
      · split
        · rename_i d hd
          rw [hd] at hoffer
          exact (Chip.get_flushMark f _).trans ((Chip.get_of_rf f rfl).trans hoffer)
        · rename_i d hd
          rwa [hd] at hoffer
    clear_value taken
    split
    · exact (Chip.get_setFifo_of_rae hf _ hk).trans ((Chip.get_of_rf f rfl).trans (hbm.trans hfat))
    · exact hbm.trans hfat

theorem Chip.get_retryHeads_of_rae : c.retryHeads.get f = c.get f := by
  refine List.foldlRecOn (motive := fun d : Chip => d.get f = c.get f) _ _ rfl fun d hd k hk => ?_
  exact (Chip.get_dispatch_of_rae hf (List.mem_range.1 (List.mem_filter.1 hk).1)).trans hd

theorem Chip.get_fatTake_of_rae : (c.fatTake j).get f = c.get f :=
  (Chip.get_retryHeads_of_rae hf).trans ((Chip.get_fatMark_of_rae hf).trans (Chip.get_of_rf f rfl))

end

/-! ## Taking entries and imports (R150, R172, R185) -/

/-- The entry at index `j` leaves the table, counted, and the scan goes on behind it. -/
def Chip.raeTakeAt (j : Nat) (c : Chip) : Chip :=
  let d := (c.fatTake j).inc F.RAE_CNT_TAKES_COUNT
  { d with rae := { d.rae with scan := (j + 1) % 131072 } }

/-- A take does not change whether the engine is a source: the sinks of fail capture and the count touch other fields. -/
theorem Chip.raeTakeAt_source : (c.raeTakeAt j).is F.RAE_STAT_SOURCE = c.is F.RAE_STAT_SOURCE := by
  have hsource : (c.raeTakeAt j).get F.RAE_STAT_SOURCE = c.get F.RAE_STAT_SOURCE := by
    calc (c.raeTakeAt j).get F.RAE_STAT_SOURCE
        = ((c.fatTake j).inc F.RAE_CNT_TAKES_COUNT).get F.RAE_STAT_SOURCE := Chip.get_of_rf _ rfl
      _ = (c.fatTake j).get F.RAE_STAT_SOURCE := Chip.get_set_ne _ _ (by decide)
      _ = c.get F.RAE_STAT_SOURCE := Chip.get_fatTake_of_rae (by decide)
  rw [Chip.is, hsource, Chip.is]

theorem Chip.raeTake_of_online (hstate : c.get F.RAE_STAT_STATE = 1) (hscan : c.raeScan = some j) :
    c.raeTake =
      (if c.is F.RAE_STAT_SOURCE then (c.raeTakeAt j).raeSend (c.fatAt j) else (c.raeTakeAt j).raeProcess (c.fatAt j)).raeDrained := by
  rw [← Chip.raeTakeAt_source (j := j)]
  unfold Chip.raeTake
  rw [hscan]
  exact if_pos (by simp only [hstate, decide_true, Bool.true_or])

section
variable {upper : Bool} {v : Nat}

theorem Chip.raeImport_of_unlisted (h : c.raeActive = false ∨ c.is (F.RAE_SRC_LISTED k) = false) :
    c.raeImport k upper v = (rspState, c) := by
  have hrefused : (!c.raeActive || !c.is (F.RAE_SRC_LISTED k)) = true := by
    rcases h with h | h <;> simp [h]
  exact if_pos hrefused

variable (hactive : c.raeActive = true) (hlisted : c.is (F.RAE_SRC_LISTED k) = true)
include hactive hlisted

theorem Chip.raeImport_lower :
    c.raeImport k false v = (rspOk, { c with rae := { c.rae with impLo := tput 0 k v c.rae.impLo } }) := by
  simp only [Chip.raeImport, hactive, hlisted, Bool.not_true, Bool.not_false, Bool.or_self, Bool.false_eq_true, if_false, if_true]

theorem Chip.raeImport_upper :
    c.raeImport k true v = Chip.raeImportWord k (tget 0 k c.rae.impLo + v * 2 ^ 128) (c.inc F.RAE_CNT_TAKES_COUNT) := by
  simp only [Chip.raeImport, hactive, hlisted, Bool.not_true, Bool.or_self, Bool.false_eq_true, if_false]

end

theorem Chip.raeImportWord_of_end (h : bits e 215 213 = 2) :
    c.raeImportWord k e = (rspOk, c.set (F.RAE_SRC_END_SEEN k) 1) := by
  have hentry : ¬bits e 215 213 = 0 := by omega
  have hmarker : ¬bits e 215 213 = 1 := by omega
  simp only [Chip.raeImportWord, if_neg hentry, if_neg hmarker, if_pos h]

/-- Without a recipe in force no domain has a geometry, so a lost source takes none with it. -/
theorem Chip.raeSrcTimeout_of_no_geoms (hstate : c.get F.RAE_STAT_STATE = 2) (hdrained : c.rae.drained = true)
    (habort : c.rae.abort = false) (hlisted : c.is (F.RAE_SRC_LISTED k) = true) (hend : c.is (F.RAE_SRC_END_SEEN k) = false)
    (hgone : c.rae.gone.testBit k = false) (hgeoms : c.geoms = []) :
    c.raeSrcTimeout k =
      Chip.raise EV_RA_SOURCE_LOST (c.get (F.RAE_SRC_DEV k)) { c with rae := { c.rae with gone := setBit c.rae.gone k } } := by
  simp only [Chip.raeSrcTimeout, hstate, hdrained, habort, hlisted, hend, hgone, hgeoms, decide_true, Bool.not_false, Bool.and_self,
    if_true, List.flatMap_nil, Chip.forAll_nil]

/-! ## Decisions and records (R176, R182) -/

theorem Chip.raeStep4_of_done (h : c.rae.lostIn = true) : c.raeStep4 = c := if_pos h

theorem Chip.raeDecide_of_unit {g : Geom} {d : Nat} {t : Chip} (hdeciding : c.raeDeciding = true)
    (hsource : c.is F.RAE_STAT_SOURCE = false) (hqueue : c.rae.queue = []) (hlost : c.rae.lostIn = true)
    (hunit : c.raeNextUnit c.geoms 1048577 c.rae.cursor = (some (g, d), t)) :
    c.raeDecide = (t.raeDecideUnit g d).ringPump := by
  simp only [Chip.raeDecide, hdeciding, hsource, hqueue, Chip.raeStep4_of_done hlost, hunit, decide_true, Bool.not_false,
    Bool.and_self, if_true]

theorem Chip.raeRecordRsp_of_found {idx ep ns : Nat} {o : NOut} {r : NRsp}
    (hout : c.net.outs.find? (fun o => o.isRaeRecord && o.req.idx = idx && o.req.ep = ep) = some o)
    (hrsp : c.net.rsps.find? (fun r => r.ni = o.req.ni && r.idx = idx && r.ep = ep) = some r) :
    c.raeRecordRsp idx ep ns = (c.rspArrive r ns).netServe := by
  simp only [Chip.raeRecordRsp, hout, Chip.netResponse, hrsp]

/-- The record write in progress succeeded: its record stands in the ring. -/
theorem Chip.raeRecord_of_ok {ep : Nat} (hwriting : c.rae.writing = true) (hep : ep = c.get F.RAE_STAT_EPOCH) :
    c.raeRecord ep rspOk = Chip.ringPump (Chip.set F.RAE_OUT_WR_COUNT (c.get F.RAE_OUT_WR_COUNT + 1)
      { c with rae := { c.rae with queue := c.rae.queue.drop 1, writing := false } }) := by
  subst hep
  have hok : ¬rspOk.code ≠ 0 := by decide
  simp only [Chip.raeRecord, hwriting, hok, Bool.not_true, ne_eq, not_true_eq_false, decide_false, Bool.or_self, Bool.false_eq_true,
    if_false]

theorem Chip.ringLong_of_waiting (hwait : c.is F.RAE_STAT_RING_WAIT = true) (hfirst : c.rae.waited = false) :
    c.ringLong = Chip.raise EV_RA_RING_FULL (c.get F.RAE_OUT_WR_COUNT) { c with rae := { c.rae with waited := true } } := by
  simp only [Chip.ringLong, hwait, hfirst, Bool.not_false, Bool.and_self, if_true]

/-! ## Faults and zeroing (R167, R186) -/

theorem Chip.raeReply_of_no_final {st dt : Nat} {pl : List Byte} (h : c.rae.final = none) : c.raeReply st dt pl = c := by
  simp only [Chip.raeReply, h]

/-- Where neither a zeroing nor a final phase runs, a fault has nobody to answer: the event that tells of it leaves the engine's state. -/
theorem Chip.raeFault_unanswered {why : Nat} {r : Rsp} (hstate : c.get F.RAE_STAT_STATE ≠ 5) (hzero : c.rae.zeroing = none)
    (hfinal : c.rae.final = none) :
    c.raeFault why r =
      let d := (c.set F.RAE_STAT_STATE 5).set F.RAE_STAT_RING_WAIT 0
      Chip.raise EV_RA_FAULT (why + r.detail * 256) { d with rae := d.rae.quiet } := by
  have hrun : c.raeStopped = false := decide_eq_false hstate
  unfold Chip.raeFault
  rw [hrun, if_neg Bool.false_ne_true]
  extract_lets st d d' t
  have hrae : t.rae = c.rae.quiet := Chip.raise_rae _ _ d'
  have hzero' : t.rae.zeroing = none := (congrArg Rae.zeroing hrae).trans hzero
  have hfinal' : t.rae.final = none := (congrArg Rae.final hrae).trans hfinal
  rw [hzero']
  exact Chip.raeReply_of_no_final hfinal'

theorem Chip.raeZeroed_of_refused {id : Nat} {r : Rsp} (hzero : c.rae.zeroing = some id) (hrefused : c.zeroRefusal = some r) :
    c.raeZeroed = c.raeAnswer r := by
  simp only [Chip.raeZeroed, hzero, hrefused]

theorem Chip.raeZeroed_of_written {id : Nat} {slot : Slot} (hzero : c.rae.zeroing = some id) (hslot : c.slot? id = some slot)
    (hwritten : c.zeroRefusal = none) :
    c.raeZeroed =
      let b := c.get F.RAE_CTX_BASE_ADDR
      let bad := c.dr.bad.filter (fun g => decide (g < b) || decide (b + 2 ^ 26 ≤ g))
      Chip.ok id [] (Chip.raeOpen slot.payload 1 { c with mem := memZero b (b + 2 ^ 26) c.mem, dr := { c.dr with bad := bad } }) := by
  simp only [Chip.raeZeroed, hzero, hslot, hwritten, Option.map_some, Option.getD_some]

/-- A source is done when every import that it sent, the end marker's too, is answered (R185). -/
theorem Chip.raeFinalDone_of_source (hdeciding : c.raeDeciding = true) (hqueue : c.rae.queue = [])
    (hsource : c.is F.RAE_STAT_SOURCE = true) (hended : c.rae.ended = true) (himports : c.rae.imports = 0) :
    c.raeFinalDone = Chip.raeReply ST_OK dtNone (natLe 24 0) ((c.set F.RAE_STAT_STATE 3).raise EV_RA_DONE 0) := by
  simp only [Chip.raeFinalDone, hdeciding, hqueue, hsource, hended, himports, Bool.not_true, ne_eq, not_true_eq_false, decide_false,
    decide_true, Bool.or_self, Bool.and_self, Bool.false_eq_true, if_false, if_true]

/-- A clear write of 5 clears the first and the third of three counters. -/
theorem Chip.clearBits_first_and_third {f g h : Fld} : c.clearBits [f, g, h] 5 = (c.set f 0).set h 0 := by
  rw [Chip.clearBits_cons, if_pos (by decide), Chip.clearBits_cons, if_neg (by decide), Chip.clearBits_cons, if_pos (by decide),
    Chip.clearBits_nil]

/-- Settles O18: each row's command is one function of the device, and its equation under the clause's premises gives the row. -/
theorem repairAnalysisRows : Obligations.RepairAnalysisRows := by
  intro s hs
  refine ⟨?take, ?takeSource, ?importLower, ?importEnd, ?importRefused, ?srcTimeout, ?decide, ?recordResponse, ?record, ?ringWait,
    ?memory, ?zeroed, ?zeroRefused, ?final, ?cntClr, ?outRd⟩
  case take =>
    rintro j _ hstate hscan rfl hsource
    exact exec_eq_of_runChip (exec_raeTake s) hs
      ((Chip.raeTake_of_online (c := s.chip.quiet) hstate hscan).trans (congrArg _ (if_neg (Bool.eq_false_iff.1 hsource))))
  case takeSource =>
    rintro j _ hstate hscan rfl hsource
    exact exec_eq_of_runChip (exec_raeTake s) hs
      ((Chip.raeTake_of_online (c := s.chip.quiet) hstate hscan).trans (congrArg _ (if_pos hsource)))
  case importLower =>
    intro k v hactive hlisted
    exact exec_eq_of_runChip (exec_raeImportWrite k false v s) hs
      (congrArg answerWrite (Chip.raeImport_lower (c := s.chip.quiet) hactive hlisted))
  case importEnd =>
    intro k v hactive hlisted hend
    exact exec_eq_of_runChip (exec_raeImportWrite k true v s) hs
      (congrArg answerWrite ((Chip.raeImport_upper (c := s.chip.quiet) hactive hlisted).trans (Chip.raeImportWord_of_end hend)))
  case importRefused =>
    intro k upper v h
    exact exec_eq_of_runChip (exec_raeImportWrite k upper v s) hs
      (congrArg answerWrite (Chip.raeImport_of_unlisted (c := s.chip.quiet) h))
  case srcTimeout =>
    intro k hstate hdrained habort hlisted hend hgone hgeoms
    exact exec_eq_of_runChip (exec_raeSrcTimeout k s) hs
      (Chip.raeSrcTimeout_of_no_geoms (c := s.chip.quiet) hstate hdrained habort hlisted hend hgone hgeoms)
  case decide =>
    intro g d t hdeciding hsource hqueue hlost hunit
    exact exec_eq_of_runChip (exec_raeDecideDomain s) hs
      (Chip.raeDecide_of_unit (c := s.chip.quiet) hdeciding hsource hqueue hlost hunit)
  case recordResponse =>
    exact fun idx ep ns o r hout hrsp =>
      exec_eq_of_runChip (exec_raeRecordResponse idx ep ns s) hs (Chip.raeRecordRsp_of_found (c := s.chip.quiet) hout hrsp)
  case record => exact fun ep hwriting hep => Chip.raeRecord_of_ok hwriting hep
  case ringWait =>
    exact fun hwait hfirst => exec_eq_of_runChip (exec_raeRingWaitLong s) hs (Chip.ringLong_of_waiting (c := s.chip.quiet) hwait hfirst)
  case memory =>
    intro rsp detail hstate hzero hfinal
    exact exec_eq_of_runChip (exec_raeMemoryResponse rsp detail true s) hs
      (Chip.raeFault_unanswered (c := s.chip.quiet) hstate hzero hfinal)
  case zeroed =>
    exact fun id k hzero hslot hwritten =>
      exec_eq_of_runChip (exec_raeZeroingDone s) hs (Chip.raeZeroed_of_written (c := s.chip.quiet) hzero hslot hwritten)
  case zeroRefused =>
    exact fun id r hzero hrefused => exec_eq_of_runChip (exec_raeZeroingDone s) hs (Chip.raeZeroed_of_refused hzero hrefused)
  case final =>
    exact fun hdeciding hqueue hsource hended himports =>
      exec_eq_of_runChip (exec_raeFinalDone s) hs
        (Chip.raeFinalDone_of_source (c := s.chip.quiet) hdeciding hqueue hsource hended himports)
  case cntClr =>
    exact exec_eq_after (exec_raeCntClr 5 s) hs fun c => congrArg (Chip.answer rspOk 0) Chip.clearBits_first_and_third
  case outRd => exact fun data => exec_eq_after (exec_raeOutRdWrite data s) hs fun c => rfl

/-! ## The commands (R189, R190, Table 6.12) -/

section
variable {id : Nat} {pl : List Byte}

theorem cmdRaStatus_run :
    cmdRaStatus.run id pl c =
      c.ok id (natLe 8 (c.regWord 0x500000) ++ natLe 8 (c.get F.RAE_POOL_USED_BLOCKS) ++ natLe 8 (c.get F.RAE_OUT_WR_COUNT) ++
        natLe 8 (c.get F.RAE_CNT_TAKES_COUNT) ++ natLe 8 (c.get F.RAE_CNT_DISCARDED_COUNT)) := by
  simp only [cmdRaStatus, Cmd.plain, List.flatMap_cons, List.flatMap_nil, List.append_nil, List.append_assoc]

section
variable (hidle : c.raeActive = false)
include hidle

theorem cmdRaRecipeLoad_run_of_idle :
    cmdRaRecipeLoad.run id pl c =
      let d := c.forAll (List.range (pf pl 2 2)) (fun i =>
        Chip.set (F.RAE_RECIPE_W ((pf pl 0 2 + i) / 2) ((pf pl 0 2 + i) % 2)) (pf pl (8 + 4 * i) 4))
      (d.set F.RAE_STAT_RECIPE_VALID 0).ok id [] := by
  simp only [cmdRaRecipeLoad, Cmd.plain, hidle, Bool.false_eq_true, if_false]

theorem cmdRaRecipeCommit_run_of_read {gs : List Geom} (hread : c.recipeTry (pf pl 0 4) = .ok gs) :
    cmdRaRecipeCommit.run id pl c =
      Chip.ok id [] (Chip.set F.RAE_STAT_RECIPE_VALID 1 { c with rae := { c.rae with words := pf pl 0 4 } }) := by
  simp only [cmdRaRecipeCommit, Cmd.plain, hidle, hread, Bool.false_eq_true, if_false]

theorem cmdRaRecipeCommit_run_of_error {i : Nat} (hread : c.recipeTry (pf pl 0 4) = .error i) :
    cmdRaRecipeCommit.run id pl c = c.finish id ST_BAD_PARAM dtRecipeError (natLe 4 i) := by
  simp only [cmdRaRecipeCommit, Cmd.plain, hidle, hread, Bool.false_eq_true, if_false]

section
variable (hfault : c.get F.RAE_STAT_STATE ≠ 5) (hzeroing : c.rae.zeroing = none)
  (hrecipe : pb pl 0 = 0 → c.is F.RAE_STAT_RECIPE_VALID = true) (harea : c.raeAreaBad = false)
include hfault hzeroing hrecipe harea

/-- A session that is not refused zeroes the context area first where it has not been zeroed or its epochs are used up (R167). -/
theorem cmdRaBegin_run_of_allowed :
    cmdRaBegin.run id pl c =
      if (!c.rae.zeroed || decide (c.get F.RAE_STAT_EPOCH = 255)) = true then
        Chip.interim id ST_ACCEPTED dtNone [] { c with rae := { c.rae with zeroing := some id } }
      else (Chip.raeOpen pl (c.get F.RAE_STAT_EPOCH + 1) c).ok id [] := by
  have hhas : (decide (pb pl 0 = 0) && !c.is F.RAE_STAT_RECIPE_VALID) = false := by
    by_cases hdestination : pb pl 0 = 0
    · rw [hrecipe hdestination, Bool.not_true, Bool.and_false]
    · rw [decide_eq_false hdestination, Bool.false_and]
  simp only [cmdRaBegin, Cmd.plain, hidle, hfault, hzeroing, hhas, harea, ne_eq, not_true_eq_false, decide_false, Bool.or_self,
    Bool.false_eq_true, if_false]

theorem cmdRaBegin_run_of_zeroed (hzeroed : c.rae.zeroed = true) (hepoch : c.get F.RAE_STAT_EPOCH < 255) :
    cmdRaBegin.run id pl c = (Chip.raeOpen pl (c.get F.RAE_STAT_EPOCH + 1) c).ok id [] := by
  rw [cmdRaBegin_run_of_allowed hidle hfault hzeroing hrecipe harea, hzeroed, decide_eq_false (Nat.ne_of_lt hepoch)]
  exact if_neg Bool.false_ne_true

theorem cmdRaBegin_run_of_unzeroed (hzeroed : c.rae.zeroed = false) :
    cmdRaBegin.run id pl c =
      Chip.interim id ST_ACCEPTED dtNone [] { c with rae := { c.rae with zeroing := some id } } := by
  rw [cmdRaBegin_run_of_allowed hidle hfault hzeroing hrecipe harea, hzeroed]
  exact if_pos rfl

end

end

/-- The final phase starts where every engine that fills the table is drained (R177). -/
theorem cmdRaFinal_run_of_drained (hstate : c.get F.RAE_STAT_STATE = 1)
    (hdrained : ∀ k ∈ engines, c.is (F.CAP_PE_CTL_FAT_EN k) = true → c.drained k = true) :
    cmdRaFinal.run id pl c =
      let d := c.interim id ST_ACCEPTED dtNone []
      Chip.raeDrained (Chip.set F.RAE_STAT_STATE 2
        { d with rae := { d.rae with final := some id, clean := (pb pl 0).testBit 0, abort := false, cursor := 0 } }) := by
  have hnone : engines.any (fun k => c.is (F.CAP_PE_CTL_FAT_EN k) && !c.drained k) = false := by
    refine List.any_eq_false.2 fun k hk hbusy => ?_
    rw [Bool.and_eq_true, Bool.not_eq_true'] at hbusy
    obtain ⟨hon, hbusy⟩ := hbusy
    exact Bool.false_ne_true (hbusy.symm.trans (hdrained k hk hon))
  simp only [cmdRaFinal, Cmd.plain, hstate, hnone, ne_eq, not_true_eq_false, Bool.false_eq_true, if_false]

theorem cmdRaEnd_run_of_no_final (hfinal : c.rae.final = none) :
    cmdRaEnd.run id pl c =
      let e : Chip := { c with rae := c.rae.quiet }
      (((e.set F.RAE_STAT_STATE 0).set F.RAE_STAT_SOURCE 0).set F.RAE_STAT_RING_WAIT 0).ok id [] := by
  simp only [cmdRaEnd, Cmd.plain, Chip.raeReply_of_no_final hfinal]

variable {bs : List Byte} {t : Chip}

theorem cmdRaCtxRead_run_of_ok (hread : c.ctxReads (pf pl 4 2) (pf pl 0 4) [] = ((rspOk, bs), t)) :
    cmdRaCtxRead.run id pl c = t.ok id bs := by
  simp only [cmdRaCtxRead, Cmd.plain, hread, if_true]

theorem cmdRaRingRead_run_of_ok (hlocal : c.is F.RAE_OUT_BASE_REMOTE = false)
    (hread : c.recordReads ((List.range (pf pl 4 2)).map (fun i => c.ringAddr (pf pl 0 4 + i))) [] = ((rspOk, bs), t)) :
    cmdRaRingRead.run id pl c = t.ok id bs := by
  simp only [cmdRaRingRead, Cmd.plain, hlocal, hread, Bool.false_eq_true, if_false, if_true]

end

/-- Settles O19: the packet is accepted, so the command starts in its slot, and its start is what the row says. -/
theorem repairAnalysisCommandRows : Obligations.RepairAnalysisCommandRows := by
  intro s p
  refine ⟨?status, ?recipeLoad, ?recipeCommit, ?recipeError, ?opened, ?zeroing, ?final, ?ended, ?ctxRead, ?ringRead⟩
  case status => exact fun h => exec_eq_of_accepts (exec_chRaStatus p s) h cmdRaStatus_run
  case recipeLoad => exact fun h hidle => exec_eq_of_accepts (exec_chRaRecipeLoad p s) h (cmdRaRecipeLoad_run_of_idle hidle)
  case recipeCommit =>
    exact fun gs h hidle hread => exec_eq_of_accepts (exec_chRaRecipeCommit p s) h
      (cmdRaRecipeCommit_run_of_read (c := s.chip.quiet.slotFor cmdRaRecipeCommit p) hidle hread)
  case recipeError =>
    exact fun i h hidle hread => exec_eq_of_accepts (exec_chRaRecipeCommit p s) h
      (cmdRaRecipeCommit_run_of_error (c := s.chip.quiet.slotFor cmdRaRecipeCommit p) hidle hread)
  case opened =>
    exact fun h hidle hfault hzeroing hrecipe harea hzeroed hepoch => exec_eq_of_accepts (exec_chRaBegin p s) h
      (cmdRaBegin_run_of_zeroed (c := s.chip.quiet.slotFor cmdRaBegin p) hidle hfault hzeroing hrecipe harea hzeroed hepoch)
  case zeroing =>
    exact fun h hidle hfault hzeroing hrecipe harea hzeroed => exec_eq_of_accepts (exec_chRaBegin p s) h
      (cmdRaBegin_run_of_unzeroed (c := s.chip.quiet.slotFor cmdRaBegin p) hidle hfault hzeroing hrecipe harea hzeroed)
  case final =>
    exact fun h hstate hdrained => exec_eq_of_accepts (exec_chRaFinal p s) h (cmdRaFinal_run_of_drained hstate hdrained)
  case ended => exact fun h hfinal => exec_eq_of_accepts (exec_chRaEnd p s) h (cmdRaEnd_run_of_no_final hfinal)
  case ctxRead => exact fun bs t h hread => exec_eq_of_accepts (exec_chRaCtxRead p s) h (cmdRaCtxRead_run_of_ok hread)
  case ringRead =>
    exact fun bs t h hlocal hread => exec_eq_of_accepts (exec_chRaRingRead p s) h (cmdRaRingRead_run_of_ok hlocal hread)

end Sys2Proof.Machine
end

section
/-! PROOF. The fabric under its rows: stop requests, gate words, party lines, broadcasts, the clock register, internal capture, serial
ports, and a clock edge. -/

namespace Sys2Proof.Machine

variable {c : Chip} {r j v : Nat}

/-- A region stands in one state only (Table 7.7). -/
theorem Chip.rgState_ne {st st' : Nat} (h : c.rgState r = st) (hst : st ≠ st') : c.rgState r ≠ st' := h.symm ▸ hst

/-! ## Stop requests (R205, R206, R208) -/

section
variable {stop : Nat}

/-- A region in RUN keeps the Chanter request that arrives, in place of the one pending. -/
theorem Chip.stopArrive_of_run (hfind : c.stops.find? (fun q => q.1 = r ∧ q.2.1 = 2) = some (r, 2, stop))
    (hrun : c.rgState r = rgRun) :
    c.stopArrive r 2 = Chip.setRg r (fun g => { g with pendC := some stop }) { c with stops := c.stops.erase (r, 2, stop) } := by
  unfold Chip.stopArrive
  rw [hfind]
  exact (if_neg (Chip.rgState_ne hrun (by decide))).trans (if_pos hrun)

/-- Only a pending Chanter request enters the decision as Chanter's. -/
theorem Chip.pendC_of_mem_candidates (h : (2, stop) ∈ c.candidates r) : (c.rg r).pendC = some stop := by
  simpa [Chip.candidates] using h

/-- A region without requests. -/
def Region.unasked (g : Region) : Region := { g with pendC := none, pendE := none, design := none }

/-- What the stop controller does about the request that it takes: it counts and tells of one whose stop is not READY, and of a READY
stop that does not govern yet it makes the governing one. -/
def Chip.drawStop (r src stop : Nat) (c : Chip) : Chip :=
  if c.stopState r stop ≠ ssReady then
    (c.inc (F.FAB_RG_CNT_REFUSED r)).flagEvent (F.FAB_RG_STAT_SS_REFUSED r) EV_FAB_STOP_REFUSED (r + stop * 256 + src * 2048)
  else if stop ≠ c.gov r then
    let d := c.set (F.FAB_RG_STAT_GOV r) stop
    if d.underReload (r, stop) then d.holdRegion r hwyLigature else d
  else c

/-- A Chanter request that is alone is the one taken, and its broadcast no longer waits for the region. -/
theorem Chip.stopDecide_of_chanter (hrun : c.rgState r = rgRun) (hcand : c.candidates r = [(2, stop)]) :
    c.stopDecide r = ((c.setRg r Region.unasked).drawStop r 2 stop).bcastSeen r := by
  have hpend : (c.rg r).pendC = some stop := Chip.pendC_of_mem_candidates (hcand ▸ List.mem_cons_self)
  simp only [Chip.stopDecide, hrun, hcand, hpend, if_true, Option.isSome_some, Chip.forAll_nil]
  rfl

theorem Chip.drawStop_of_not_ready {src : Nat} (h : c.stopState r stop ≠ ssReady) :
    c.drawStop r src stop =
      (c.inc (F.FAB_RG_CNT_REFUSED r)).flagEvent (F.FAB_RG_STAT_SS_REFUSED r) EV_FAB_STOP_REFUSED (r + stop * 256 + src * 2048) :=
  if_pos h

theorem Chip.underReload_of_none {t : Nat × Nat} (h : c.lg.reload = none) : c.underReload t = false := by
  simp only [Chip.underReload, h]

theorem Chip.drawStop_of_ready {src : Nat} (hready : c.stopState r stop = ssReady) (hgov : stop ≠ c.gov r)
    (hreload : c.lg.reload = none) : c.drawStop r src stop = c.set (F.FAB_RG_STAT_GOV r) stop := by
  have hfree : ¬(c.set (F.FAB_RG_STAT_GOV r) stop).underReload (r, stop) = true :=
    Bool.eq_false_iff.1 (Chip.underReload_of_none hreload)
  exact (if_neg (not_not_intro hready)).trans ((if_pos hgov).trans (if_neg hfree))

end

/-! ## Gate words (R201, R210) -/

/-- The word that region `a` sent by its gate `own` is acknowledged. -/
def Chip.gateAck (a own : Nat) (c : Chip) : Chip := c.setRg a (fun g => { g with sent := tdel own g.sent })

section
variable {a b gate k own w : Nat} (hto : gateKey a b gate = some k) (hfrom : gateKey b a gate = some own)
  (hsent : tfind own (c.rg a).sent = some w) (hbore : k < 8 ∨ c.boreMasked (min a b) ((k - 8) / 2) = false)
include hto hfrom hsent hbore

/-- A word in front of no masked bore is discarded, waits or is buffered, as its receiver stands. -/
theorem Chip.gateWord_of_sent :
    c.gateWord a b gate =
      if c.rgState b = rgOff ∨ c.rgState b = rgRetired ∨ tget 0 b c.net.doms % 4 ≠ 0 then
        ((c.gateAck a own).inc (F.FAB_RG_GDISC_COUNT a)).flagEvent (F.FAB_RG_STAT_GDISC a) EV_FAB_GATE_DISCARD a
      else if c.rgState b = rgHeld then c
      else if (tget [] k (c.rg b).gates).length < 16 then
        (c.gateAck a own).setRg b (fun g => { g with gates := tset k (tget [] k (c.rg b).gates ++ [w]) g.gates })
      else c := by
  have hseen : ¬(8 ≤ k ∧ c.boreMasked (min a b) ((k - 8) / 2) = true) := fun ⟨hvert, hmask⟩ =>
    hbore.elim (Nat.not_lt.2 hvert) fun hopen => Bool.false_ne_true (hopen.symm.trans hmask)
  simp only [Chip.gateWord, hto, hfrom, hsent, if_neg hseen, Chip.gateAck]

theorem Chip.gateWord_of_gone (hgone : c.rgState b = rgOff ∨ c.rgState b = rgRetired ∨ tget 0 b c.net.doms % 4 ≠ 0) :
    c.gateWord a b gate =
      ((c.gateAck a own).inc (F.FAB_RG_GDISC_COUNT a)).flagEvent (F.FAB_RG_STAT_GDISC a) EV_FAB_GATE_DISCARD a :=
  (Chip.gateWord_of_sent hto hfrom hsent hbore).trans (if_pos hgone)

section
variable (hopen : tget 0 b c.net.doms % 4 = 0)
include hopen

/-- A receiver in RUN, in a domain that is open, takes the word while its buffer has room. -/
theorem Chip.gateWord_of_run (hrun : c.rgState b = rgRun) :
    c.gateWord a b gate =
      if (tget [] k (c.rg b).gates).length < 16 then
        (c.gateAck a own).setRg b (fun g => { g with gates := tset k (tget [] k (c.rg b).gates ++ [w]) g.gates })
      else c := by
  have htakes : ¬(c.rgState b = rgOff ∨ c.rgState b = rgRetired ∨ tget 0 b c.net.doms % 4 ≠ 0) :=
    not_or_intro (Chip.rgState_ne hrun (by decide)) (not_or_intro (Chip.rgState_ne hrun (by decide)) (not_not_intro hopen))
  rw [Chip.gateWord_of_sent hto hfrom hsent hbore, if_neg htakes, if_neg (Chip.rgState_ne hrun (by decide))]

/-- At a HELD receiver, in a domain that is open, the word waits. -/
theorem Chip.gateWord_of_held (hheld : c.rgState b = rgHeld) : c.gateWord a b gate = c := by
  have htakes : ¬(c.rgState b = rgOff ∨ c.rgState b = rgRetired ∨ tget 0 b c.net.doms % 4 ≠ 0) :=
    not_or_intro (Chip.rgState_ne hheld (by decide)) (not_or_intro (Chip.rgState_ne hheld (by decide)) (not_not_intro hopen))
  rw [Chip.gateWord_of_sent hto hfrom hsent hbore, if_neg htakes, if_pos hheld]

end

end

/-! ## Party lines, broadcasts and the clock register (R198, R208, R212) -/

/-- The first rise of lines 0 and 2, with every line's event enabled. -/
theorem Chip.partyRise_of_first {lines : Nat} (hrose : (c.rg r).rose &&& lines = 5) (hon : c.get (F.FAB_RG_CTL_PARTY_EV r) = 15)
    (hfirst : (c.rg r).partyAt = []) :
    c.partyRise r lines =
      let now := c.get F.WW_TB_TIME
      ((c.setRg r (fun g => { g with rose := g.rose &&& (15 - lines) })).setRg r
        (fun g => { g with partyAt := tset 2 now (tset 0 now g.partyAt) })).raise EV_FAB_PARTY (r + 5 * 256) := by
  have hlines : (List.range 4).filter (fun l => Nat.testBit 5 l && Nat.testBit 15 l && true) = [0, 2] := by decide
  simp only [Chip.partyRise, hrose, hon, hfirst, tfind, hlines]
  rfl

theorem Chip.fabBcast_of_ignored (h : v.testBit 3 = false ∨ c.is F.FAB_BCAST_GO = true) :
    c.fabBcast v = (rspOk, c.set F.FAB_BCAST_STOP (bits v 2 0)) := by
  have hidle : ¬(v.testBit 3 && !c.is F.FAB_BCAST_GO) = true := by
    obtain h | h := h <;> simp [h]
  exact if_neg hidle

theorem Chip.fabBcast_of_go (hgo : v.testBit 3 = true) (hready : c.is F.FAB_BCAST_GO = false)
    (hgood : c.bcastBad (bits v 2 0) c.bcastMask = false) :
    c.fabBcast v =
      (rspOk, ((c.set F.FAB_BCAST_STOP (bits v 2 0)).set F.FAB_BCAST_GO 1).sendBcast none (bits v 2 0) c.bcastMask) := by
  simp only [Chip.fabBcast, hgo, hready, hgood, Bool.not_false, Bool.and_self, Bool.false_eq_true, if_true, if_false]

/-- Table 7.8's fields, stored. -/
def Chip.setRgCtl (r v : Nat) (c : Chip) : Chip :=
  ((((c.set (F.FAB_RG_CTL_CLKSRC r) (bits v 1 0)).set (F.FAB_RG_CTL_POSC r) (bits v 3 2)).set (F.FAB_RG_CTL_RO_SET r)
    (bits v 10 4)).set (F.FAB_RG_CTL_USS_EN r) (bit v 11)).set (F.FAB_RG_CTL_PARTY_EV r) (bits v 15 12)

/-- A region that is HELD or OFF takes its ring oscillator as the clock, and the write clears the counters. -/
theorem Chip.rgCtlWrite_of_ring (hlow : 1 ≤ bits v 10 4) (hhigh : bits v 10 4 ≤ 80)
    (hstill : c.rgState r = rgHeld ∨ c.rgState r = rgOff) (hring : bits v 1 0 = 1) (hclr : v.testBit 63 = true) :
    c.rgCtlWrite r v = (rspOk, (c.setRgCtl r v).rgCntClr r) := by
  have hrange : ¬(bits v 10 4 = 0 ∨ 80 < bits v 10 4) := by omega
  have hmay (same : Bool) : (!same && decide (c.rgState r ≠ rgHeld) && decide (c.rgState r ≠ rgOff)) = false := by
    obtain h | h := hstill <;> simp [h]
  simp only [Chip.rgCtlWrite, Chip.setRgCtl, if_neg hrange, hmay, hring, hclr, Nat.reduceEqDiff, decide_false, Bool.false_and,
    Bool.false_eq_true, if_true, if_false]

/-! ## Internal capture (R218) -/

/-- The trigger's fields of `FAB_RG_CAPCTL`, stored (Table 7.9). -/
def Chip.setTrigger (r v : Nat) (c : Chip) : Chip :=
  ((c.set (F.FAB_RG_CAPCTL_TMODE r) (bits v 3 2)).set (F.FAB_RG_CAPCTL_TPARTY r) (bits v 5 4)).set (F.FAB_RG_CAPCTL_TRIG_POS r)
    (bits v 25 16)

section
variable (hmode : bits v 3 2 ≠ 3) (hunarmed : c.is (F.FAB_RG_CAPCTL_ARM r) = false)
include hmode hunarmed

theorem Chip.capCtlWrite_of_arm (hbank : c.bankState r 15 < 2) (harm : v.testBit 0 = true) (hgo : v.testBit 1 = false) :
    c.capCtlWrite r v = (rspOk, (c.setTrigger r v).capArm r) := by
  simp only [Chip.capCtlWrite, Chip.setTrigger, if_neg hmode, hunarmed, decide_eq_false (Nat.not_le.2 hbank), harm, hgo,
    Bool.false_and, Bool.and_false, Bool.not_false, Bool.and_self, Bool.false_eq_true, if_true, if_false]

theorem Chip.capCtlWrite_of_stop (harm : v.testBit 0 = false) (hstop : v.testBit 1 = true) :
    c.capCtlWrite r v = (rspOk, (c.setTrigger r v).capStop r) := by
  simp only [Chip.capCtlWrite, Chip.setTrigger, if_neg hmode, hunarmed, harm, hstop, Bool.false_and, Bool.false_eq_true, if_true,
    if_false]

end

theorem Chip.capTrigger_of_hit (harmed : c.get (F.FAB_RG_CAPSTAT_CSTATE r) = csArmed) (hhit : (c.rg r).capHit = true) :
    c.capTrigger r =
      let pos := c.get (F.FAB_RG_CAPCTL_TRIG_POS r)
      (((c.set (F.FAB_RG_CAPSTAT_CSTATE r) csTriggered).set (F.FAB_RG_CAPSTAT_TRIG r) (((c.rg r).capIdx + 1023) % 1024)).set
        (F.FAB_RG_CAPSTAT_SHORT r) (b2n (decide ((c.rg r).capSeen - 1 < pos)))).setRg r (fun g => { g with capLeft := 1023 - pos }) := by
  simp only [Chip.capTrigger, harmed, hhit, decide_true, Bool.and_self, if_true]

theorem Chip.capDone_of_stored (htrig : c.get (F.FAB_RG_CAPSTAT_CSTATE r) = csTriggered) (hleft : (c.rg r).capLeft = 0) :
    c.capDone r = c.capFinish r := by
  simp only [Chip.capDone, htrig, hleft, decide_true, Bool.and_self, if_true]

/-- A full buffer starts at the sample that would be overwritten next, and holds 1,024. -/
theorem Chip.capFinish_of_full (hfull : 1024 ≤ (c.rg r).capSeen) :
    c.capFinish r =
      let d := ((c.set (F.FAB_RG_CAPSTAT_CSTATE r) csDone).set (F.FAB_RG_CAPCTL_ARM r) 0).set (F.FAB_RG_CAPSTAT_START r) (c.rg r).capIdx
      (d.set (F.FAB_RG_CAPSTAT_COUNT r) 1024).raise EV_FAB_CAP_DONE (r + d.get (F.FAB_RG_CAPSTAT_TRIG r) * 256) := by
  simp only [Chip.capFinish, if_pos hfull, Nat.min_eq_left hfull]

/-! ## Serial ports (R213, R214) -/

/-- The settings of `SP_CTL` beside the pins, stored (Table 7.10). -/
def Chip.setPortMode (j v : Nat) (c : Chip) : Chip :=
  c.forAll [F.SPORT_CTL_MODE j, F.SPORT_CTL_HOST j, F.SPORT_CTL_SPIMODE j, F.SPORT_CTL_PAR_EN j, F.SPORT_CTL_PAR_ODD j,
    F.SPORT_CTL_DIV j] (fun f => Chip.set f (bits v (f.lo + f.w - 1) f.lo))

/-- The pins of a port, stored. -/
def Chip.setPortPins (j v : Nat) (c : Chip) : Chip :=
  c.forAll (List.range 4) (fun i => Chip.set (F.SPORT_CTL_PIN j i) (bits v (32 + 8 * i + 6) (32 + 8 * i)))

/-- While no port is in use, a write that turns port `j` off meets none of the refusals. -/
theorem Chip.spCtl_of_off (hoff : bits v 2 0 = 0) (hpins : (spPins v).all (fun p => decide (p ≤ 95)) = true)
    (hj : j < 32) (hidle : ∀ i < 32, c.get (F.SPORT_CTL_MODE i) = 0) :
    c.spCtl j v =
      (rspOk, (((c.setPortMode j v).setSport j (fun p => { p with busy := false })).setPortPins j v).spOwners) := by
  have hrange : (spPins v).any (fun p => decide (95 < p)) = false :=
    List.any_eq_false.2 fun p hp => by simpa using List.all_eq_true.1 hpins p hp
  have hfree : (List.range 32).any (fun i => decide (i ≠ j) && decide (c.get (F.SPORT_CTL_MODE i) ≠ 0) &&
      (spPins v).any (fun p => (c.portPins i).contains p)) = false :=
    List.any_eq_false.2 fun i hi => by simp [hidle i (List.mem_range.1 hi)]
  simp only [Chip.spCtl, hoff, hrange, hfree, hidle j hj, Chip.setPortMode, Chip.setPortPins]
  rfl

theorem Chip.spPush_of_room (hhost : c.is (F.SPORT_CTL_HOST j) = true) (hroom : (c.sport j).tx.length < 64) :
    c.spPush j v = (rspOk, c.setSport j (fun p => { p with tx := p.tx ++ [v % 4096] })) := by
  have hmay : ¬((!c.is (F.SPORT_CTL_HOST j)) = true ∨ 64 ≤ (c.sport j).tx.length) := by
    rw [hhost]
    exact not_or_intro (by decide) (Nat.not_le.2 hroom)
  exact if_neg hmay

theorem Chip.spPop_of_cons {b : Nat} {q : List Nat} (hhost : c.is (F.SPORT_CTL_HOST j) = true) (hrx : (c.sport j).rx = b :: q) :
    c.spPop j = (rspOk, b + 256, (c.setSport j (fun p => { p with rx := q })).portSettle j) := by
  simp only [Chip.spPop, hhost, hrx, Bool.not_true, Bool.false_eq_true, if_false]

/-- A good byte at a port in use enters the receive buffer, or is lost where that is full. -/
theorem Chip.spReceive_good {b : Nat} (hmode : c.get (F.SPORT_CTL_MODE j) ≠ 0) :
    c.spReceive j b false false =
      if 64 ≤ (c.sport j).rx.length then c.flagEvent (F.SPORT_STAT_RX_OVR j) EV_FAB_SERIAL (j + 32)
      else (c.setSport j (fun p => { p with rx := p.rx ++ [b] })).portSettle j := by
  simp only [Chip.spReceive, hmode, decide_false, Bool.false_and, Bool.or_self, Bool.false_eq_true, if_false]

theorem Chip.spSent_of_cons {w : Nat} {q : List Nat} (htx : (c.sport j).tx = w :: q) (hmode : c.get (F.SPORT_CTL_MODE j) ≠ 0) :
    c.spSent j =
      let m := c.get (F.SPORT_CTL_MODE j)
      ((c.setSport j (fun p => { p with tx := q, busy := (m = 1 || m = 4) && !w.testBit 9 })).serialOut j (sendSigs m w)).portSettle
        j := by
  simp only [Chip.spSent, htx, if_neg hmode]

/-! ## The rows -/

/-- Settles O20: each row's command is one function of the device, and its equation under the clause's premises gives the row. -/
theorem fabricRows : Obligations.FabricRows := by
  intro s hs
  refine ⟨?arrive, ?draw, ?refused, ?gate, ?party, ?ring, ?bcastIgnored, ?bcastGo, ?rgCtl, ?capArm, ?capStop, ?trigger, ?captured,
    ?port, ?push, ?pop, ?received, ?overrun, ?sent, ?edge⟩
  case arrive =>
    exact fun r stop hfind hrun =>
      exec_eq_of_runChip (exec_stopRequestArrival r 2 s) hs (Chip.stopArrive_of_run (c := s.chip.quiet) hfind hrun)
  case draw =>
    exact fun r stop hrun hcand hready hgov hreload => exec_eq_of_runChip (exec_stopSwitchDecision r s) hs
      ((Chip.stopDecide_of_chanter (c := s.chip.quiet) hrun hcand).trans
        (congrArg (Chip.bcastSeen r) (Chip.drawStop_of_ready hready hgov hreload)))
  case refused =>
    exact fun r stop hrun hcand hready => exec_eq_of_runChip (exec_stopSwitchDecision r s) hs
      ((Chip.stopDecide_of_chanter (c := s.chip.quiet) hrun hcand).trans
        (congrArg (Chip.bcastSeen r) (Chip.drawStop_of_not_ready hready)))
  case gate =>
    rintro a b bore upper _ k own w rfl hto hfrom hsent hbore
    refine ⟨fun hrun hopen hroom => ?_, fun hgone => ?_, fun hopen hstays => ?_⟩
    · exact exec_eq_of_runChip (exec_gateWordArrival a b bore upper s) hs
        ((Chip.gateWord_of_run (c := s.chip.quiet) hto hfrom hsent hbore hopen hrun).trans (if_pos hroom))
    · exact exec_eq_of_runChip (exec_gateWordArrival a b bore upper s) hs
        (Chip.gateWord_of_gone (c := s.chip.quiet) hto hfrom hsent hbore hgone)
    · refine exec_eq_of_runChip (exec_gateWordArrival a b bore upper s) hs ?_
      obtain hheld | ⟨hrun, hfull⟩ := hstays
      · exact Chip.gateWord_of_held (c := s.chip.quiet) hto hfrom hsent hbore hopen hheld
      · exact (Chip.gateWord_of_run (c := s.chip.quiet) hto hfrom hsent hbore hopen hrun).trans (if_neg (Nat.not_lt.2 hfull))
  case party =>
    exact fun r lines hrose hon hfirst => exec_eq_of_runChip (exec_partyLineRise r lines s) hs
      (Chip.partyRise_of_first (c := s.chip.quiet) hrose hon hfirst)
  case ring => exact fun r mhz => exec_eq_after (exec_roMeasure r mhz s) hs fun c => rfl
  case bcastIgnored =>
    exact fun v h => exec_eq_of_runChip (exec_fabBcastGo v s) hs
      (congrArg answerWrite (Chip.fabBcast_of_ignored (c := s.chip.quiet) h))
  case bcastGo =>
    exact fun v hgo hready hgood => exec_eq_of_runChip (exec_fabBcastGo v s) hs
      (congrArg answerWrite (Chip.fabBcast_of_go (c := s.chip.quiet) hgo hready hgood))
  case rgCtl =>
    intro r v _ hlow hhigh hstill hring hclr
    refine exec_eq_of_runChip (exec_fabRgClrCnt r v s) hs
      ((congrArg answerWrite (Chip.rgCtlWrite_of_ring (c := s.chip.quiet) hlow hhigh hstill hring hclr)).trans ?_)
    rw [Chip.setRgCtl, hring]
    rfl
  case capArm =>
    exact fun r v hmode hunarmed hbank harm hgo => exec_eq_of_runChip (exec_fabRgCapctlArm r v s) hs
      (congrArg answerWrite (Chip.capCtlWrite_of_arm (c := s.chip.quiet) hmode hunarmed hbank harm hgo))
  case capStop =>
    exact fun r v hmode hunarmed harm hstop => exec_eq_of_runChip (exec_fabRgCapctlStop r v s) hs
      (congrArg answerWrite (Chip.capCtlWrite_of_stop (c := s.chip.quiet) hmode hunarmed harm hstop))
  case trigger =>
    exact fun r harmed hhit =>
      exec_eq_of_runChip (exec_captureTrigger r s) hs (Chip.capTrigger_of_hit (c := s.chip.quiet) harmed hhit)
  case captured =>
    exact fun r htrig hleft hfull => exec_eq_of_runChip (exec_captureDone r s) hs
      ((Chip.capDone_of_stored (c := s.chip.quiet) htrig hleft).trans (Chip.capFinish_of_full hfull))
  case port =>
    intro j v hoff hpins hidle
    have hwrite := Chip.spCtl_of_off (c := s.chip.quiet) hoff hpins j.isLt hidle
    exact exec_eq_of_runChip (exec_spCtlWrite j v s) hs (by rw [hwrite, answerWrite, Chip.setPortMode, Chip.setPortPins])
  case push =>
    exact fun j v hhost hroom => exec_eq_of_runChip (exec_spTxWrite j v s) hs
      (congrArg answerWrite (Chip.spPush_of_room (c := s.chip.quiet) hhost hroom))
  case pop =>
    intro j b q hhost hrx
    have hpop := Chip.spPop_of_cons (c := s.chip.quiet) hhost hrx
    exact exec_eq_of_runChip (exec_spRxRead j s) hs (by rw [hpop])
  case received =>
    exact fun j b hmode hroom => exec_eq_of_runChip (exec_serialByteReceived j b false false s) hs
      ((Chip.spReceive_good (c := s.chip.quiet) hmode).trans (if_neg (Nat.not_le.2 hroom)))
  case overrun =>
    exact fun j b hmode hfull => exec_eq_of_runChip (exec_serialByteReceived j b false false s) hs
      ((Chip.spReceive_good (c := s.chip.quiet) hmode).trans (if_pos hfull))
  case sent =>
    exact fun j w q htx hmode =>
      exec_eq_of_runChip (exec_serialByteSent j s) hs (Chip.spSent_of_cons (c := s.chip.quiet) htx hmode)
  case edge =>
    exact fun r auxIn riser ports hrun =>
      exec_eq_of_runChip (exec_regionClockEdge r auxIn riser ports s) hs (if_neg (not_not_intro hrun))

end Sys2Proof.Machine
end

section
/-! PROOF. The commands of class 0x0B (O21): a region that is not RETIRED does what its command asks. -/

namespace Sys2Proof.Machine

variable {c : Chip} {id : Nat} {pl : List Byte}

theorem notRetired_of_used {r : Nat} {f : Chip → Chip} (h : c.rgState r ≠ rgRetired) : notRetired r id f c = f c := if_neg h

theorem cmdFabStatus_run_of_used (hused : c.rgState (pf pl 0 4) ≠ rgRetired) :
    cmdFabStatus.run id pl c =
      let r := pf pl 0 4
      c.ok id (natLe 8 (c.regWord (F.FAB_RG_STAT_GOV r).off) ++ natLe 8 (c.regWord (F.FAB_RG_CTL_CLKSRC r).off) ++
        natLe 8 (c.regWord (F.FAB_RG_CNT_LOST r).off) ++ natLe 8 (c.regWord (F.FAB_RG_CAPSTAT_CSTATE r).off) ++
        natLe 8 (c.get (F.FAB_RG_GDISC_COUNT r))) := by
  simp only [cmdFabStatus, Cmd.plain, notRetired_of_used hused]

theorem cmdFabProbe_run_of_used (hused : c.rgState (pb pl 1) ≠ rgRetired) :
    cmdFabProbe.run id pl c =
      let j := pb pl 0
      ((((c.set (F.PROBE_SEL_REGION j) (pb pl 1)).set (F.PROBE_SEL_TAP j) (bits (pb pl 2) 5 0)).set (F.PROBE_SEL_EN j)
        (bit (pb pl 2) 7)).probeSettle j).ok id [] := by
  simp only [cmdFabProbe, Cmd.plain, notRetired_of_used hused]

/-- The capture unit arms in a region that runs, is not capturing, and has bank 15 on (R218). -/
theorem cmdFabCapArm_run_of_ready (hrun : c.rgState (pb pl 0) = rgRun) (hidle : c.capBusy (pb pl 0) = false)
    (hbank : c.bankState (pb pl 0) 15 < 2) :
    cmdFabCapArm.run id pl c =
      let r := pb pl 0
      let d := ((c.set (F.FAB_RG_CAPCTL_TMODE r) (bits (pb pl 1) 1 0)).set (F.FAB_RG_CAPCTL_TPARTY r) (bits (pb pl 1) 3 2)).set
        (F.FAB_RG_CAPCTL_TRIG_POS r) (pf pl 2 2)
      (((d.set (F.FAB_RG_TRIGVAL_VAL r) (pf pl 8 8)).set (F.FAB_RG_TRIGMASK_MASK r) (pf pl 16 8)).capArm r).ok id [] := by
  have hused : c.rgState (pb pl 0) ≠ rgRetired := Chip.rgState_ne hrun (by decide)
  simp only [cmdFabCapArm, Cmd.plain, notRetired_of_used hused, hidle, hrun, if_neg (Nat.not_le.2 hbank), Bool.false_eq_true, ne_eq,
    not_true_eq_false, if_false]

theorem cmdFabCapStop_run_of_used (hused : c.rgState (pf pl 0 4) ≠ rgRetired) :
    cmdFabCapStop.run id pl c = (c.capStop (pf pl 0 4)).ok id [] := by
  simp only [cmdFabCapStop, Cmd.plain, notRetired_of_used hused]

/-- Samples are read from a capture that is DONE, as many as it holds from the one asked for (Table 7.11). -/
theorem cmdFabCapRead_run_of_done (hused : c.rgState (pb pl 0) ≠ rgRetired)
    (hdone : c.get (F.FAB_RG_CAPSTAT_CSTATE (pb pl 0)) = csDone) :
    cmdFabCapRead.run id pl c =
      let r := pb pl 0
      let n := min (pf pl 4 2) (c.get (F.FAB_RG_CAPSTAT_COUNT r) - pf pl 2 2)
      c.ok id ((List.range n).flatMap (fun i =>
        memRead (capAddr r ((c.get (F.FAB_RG_CAPSTAT_START r) + pf pl 2 2 + i) % 1024)) 8 c.mem)) := by
  simp only [cmdFabCapRead, Cmd.plain, notRetired_of_used hused, if_neg (not_not_intro hdone)]

/-- Settles O21: the packet is accepted, so the command starts in its slot, and its start is what the row says. -/
theorem fabricCommandRows : Obligations.FabricCommandRows := by
  intro s p
  refine ⟨?status, ?probe, ?capArm, ?capStop, ?capRead⟩
  case status =>
    rintro r h rfl hused
    exact exec_eq_of_accepts (exec_chFabStatus p s) h (cmdFabStatus_run_of_used (c := s.chip.quiet.slotFor cmdFabStatus p) hused)
  case probe =>
    rintro j h rfl hused
    exact exec_eq_of_accepts (exec_chFabProbe p s) h (cmdFabProbe_run_of_used (c := s.chip.quiet.slotFor cmdFabProbe p) hused)
  case capArm =>
    rintro r h rfl hrun hidle hbank
    exact exec_eq_of_accepts (exec_chFabCapArm p s) h
      (cmdFabCapArm_run_of_ready (c := s.chip.quiet.slotFor cmdFabCapArm p) hrun hidle hbank)
  case capStop =>
    rintro r h rfl hused
    exact exec_eq_of_accepts (exec_chFabCapStop p s) h (cmdFabCapStop_run_of_used (c := s.chip.quiet.slotFor cmdFabCapStop p) hused)
  case capRead =>
    rintro r h rfl hused hdone
    exact exec_eq_of_accepts (exec_chFabCapRead p s) h
      (cmdFabCapRead_run_of_done (c := s.chip.quiet.slotFor cmdFabCapRead p) hused hdone)

end Sys2Proof.Machine
end

section
/-! PROOF. The rows of image loading and paging (O22). -/

namespace Sys2Proof.Machine

variable {c t : Chip} {r : Nat} {p : Paging} {l : Load}

/-! ## Marks and pagings (R207, R208, R225) -/

theorem Chip.markOne_of_page {m : Nat × Nat} (hpage : c.cfg.page = some p) :
    c.markOne m =
      let st := c.stopState m.1 m.2
      let d := c.set (F.FAB_RG_STAT_STOPST m.1 m.2) ssLoading
      { d with cfg := { d.cfg with
        page := some { p with toMark := p.toMark.filter (fun x => x ≠ m), marked := p.marked ++ [(m.1, m.2, st)] } } } := by
  simp only [Chip.markOne, hpage]

/-- At an edge of a region in RUN a mark takes effect on a stop that does not govern and that no broadcast is about to draw. -/
theorem Chip.stopMark_of_run {m : Nat × Nat} (hpage : c.cfg.page = some p)
    (hfind : p.toMark.find? (fun t => t.1 = r) = some m) (hrun : c.rgState r = rgRun) (hpend : (c.rg r).pendC ≠ some m.2)
    (hreload : c.lg.reload = none) (hgov : c.governs r m.2 = false) : c.stopMark r = c.markOne m := by
  have hgo : ¬((c.rgState r = rgRun ∧ (c.rg r).pendC = some m.2) ∨ c.underReload m = true) := by
    rintro (⟨_, h⟩ | h)
    · exact hpend h
    · exact Bool.eq_false_iff.1 (Chip.underReload_of_none hreload) h
  have hused : ¬c.rgState r = rgRetired := Chip.rgState_ne hrun (by decide)
  simp only [Chip.stopMark, hpage, Option.bind_some, hfind, Option.map_some, if_neg hgo, if_neg hused, hgov, Bool.false_and,
    Bool.false_eq_true, if_false]

section
variable {v f : Nat} (hpage : c.cfg.page = some p) (hmarked : p.toMark = [])
include hpage hmarked

theorem Chip.pagingDone_of_refused {st dt : Nat} (hread : c.slotRead p.slot = (some (st, dt), t)) :
    c.pagingDone v f = t.pageEnd p st dt := by
  simp only [Chip.pagingDone, hpage, hmarked, hread, ne_eq, not_true_eq_false, if_false]

/-- A commanded paging whose targets are all verified makes them READY and ends. -/
theorem Chip.pagingDone_of_verified {id : Nat} (hwhy : p.why = .command id) (hread : c.slotRead p.slot = (none, t))
    (hall : ∀ x ∈ p.left, v.testBit x.1 = true ∧ f.testBit x.1 = false) :
    c.pagingDone v f =
      ((t.forAll p.left (fun x => Chip.writeStop x.1 x.2 p.slot)).forAll p.left (fun x => Chip.readyStop x.1 x.2 p.slot)).pageEnd
        { p with left := [] } ST_OK dtNone := by
  have hgood : p.left.filter (fun x => v.testBit x.1 && !f.testBit x.1) = p.left := by
    refine List.filter_eq_self.2 fun x hx => ?_
    obtain ⟨hver, hfail⟩ := hall x hx
    rw [hver, hfail, Bool.not_false, Bool.and_self]
  have hnone : p.left.filter (fun x => !p.left.contains x) = [] :=
    List.filter_eq_nil_iff.2 fun x hx => by simp [hx]
  simp only [Chip.pagingDone, hpage, hmarked, hread, hwhy, hgood, hnone, ne_eq, not_true_eq_false, reduceCtorEq, List.any_nil,
    Bool.false_eq_true, if_false, if_true]

end

/-! ## The end of a load (R234, R235, R248) -/

theorem Chip.loadReply_of_unawaited {st dt : Nat} (hslot : l.slot = none) (hmore : l.more = []) : c.loadReply l st dt = c := by
  simp only [Chip.loadReply, hslot, hmore, Chip.forAll_nil]

/-- A partial load that has filled no slot is recorded where its signature holds, and fails where it does not. -/
theorem Chip.signatureDone_of_partial (hload : c.cfg.load = some l) (hfinal : l.final = true) (hkind : l.kind = 1)
    (hgolden : l.golden = false) (hfilled : l.filled = []) (htargets : l.targets = []) (hslot : l.slot = none)
    (hmore : l.more = []) :
    c.signatureDone =
      if slhVerify256s ((l.header.drop 80).take 64) (l.header ++ l.chain) l.sig then
        ((((Chip.measure l { c with cfg := { c.cfg with load := none } }).cfgPhase 0 1).raise EV_CFG_LOADED
          (1 + bits (pf l.header 12 4) 15 0 * 65536)).probeAll.pageNext).loadRun
      else c.loadFail ST_AUTH_FAIL dtSignature := by
  simp only [Chip.signatureDone, hload, hfinal]
  cases slhVerify256s ((l.header.drop 80).take 64) (l.header ++ l.chain) l.sig
  case false => rfl
  case true =>
    have hnotFull : ¬(1 = 0) := by decide
    have hnotRewrite : ¬(1 = 2) := by decide
    simp only [hfilled, htargets, Chip.forAll_nil, hkind, hgolden, Chip.raiseIf, Chip.loadReply_of_unawaited hslot hmore,
      Bool.not_true, Bool.false_eq_true, if_neg hnotFull, if_neg hnotRewrite, if_false, if_true]

section
variable (hload : c.cfg.load = some l)
include hload

theorem Chip.loadStall_of_incomplete (hflash : l.flash = false) (hdram : l.dram = false) (hfinal : l.final = false)
    (hslot : l.slot = none) (hmore : l.complete = false) : c.loadStall = (c.loadFail ST_TIMEOUT dtStall).pageSettle := by
  simp only [Chip.loadStall, hload, hflash, hdram, hfinal, hslot, hmore, Option.isNone_none, Bool.not_false, and_self, if_true]

theorem Chip.loadStall_of_complete (hall : l.complete = true) : c.loadStall = c := by
  simp only [Chip.loadStall, hload, hall, Bool.not_true, Bool.false_eq_true, and_false, if_false]

/-! ## Loads from the flash (R226, R227, R232) -/

variable (hflash : l.flash = true)
include hflash

section
variable {bs : List Byte} (hsought : l.table ≠ 0)
include hsought

/-- A valid copy of the slot table names the image, which is read next. -/
theorem Chip.flashRead_of_table (hok : tableOk bs = true) :
    c.flashRead (.table bs) =
      let d := c.set F.CFG_STAT_TBL_COPY (l.table - 1)
      Chip.xspiRead (pf bs 8 4) (pb bs 6) (pf bs 12 4) { d with cfg := { d.cfg with
        golden := if pf bs 20 4 = 0 then none else some (pf bs 16 4, pf bs 20 4, pb bs 6)
        load := some { l with table := 0, limit := some (pf bs 12 4) } } } := by
  simp only [Chip.flashRead, hload, hflash, if_neg hsought, hok, Bool.not_true, Bool.false_eq_true, if_false, if_true]

theorem Chip.flashRead_of_bad_table (hbad : tableOk bs = false) :
    c.flashRead (.table bs) =
      if l.table = 1 then
        Chip.xspiRead 0x10000 20 64 { c with cfg := { c.cfg with load := some { l with table := 2 } } }
      else Chip.loadFail ST_BAD_PARAM dtNoFlash { c with cfg := { c.cfg with golden := none } } := by
  simp only [Chip.flashRead, hload, hflash, if_neg hsought, hbad, Bool.not_true, Bool.false_eq_true, if_false]

end

/-- Bytes of the image count up to the length that the slot table gives. -/
theorem Chip.flashRead_of_image (bs : List Byte) (htable : l.table = 0) (hfinal : l.final = false) :
    c.flashRead (.image bs) = c.loadFeed (bs.take ((l.limit.map (fun n => n - l.next)).getD bs.length)) none := by
  simp only [Chip.flashRead, hload, hflash, htable, hfinal, ne_eq, not_true_eq_false, Bool.not_true, Bool.false_eq_true, or_self,
    if_false]

end

/-! ## Rewrites (R241) -/

section
variable {id k : Nat} {re : Bool} (hrewrite : c.cfg.rewrite = some (id, k, r, re)) (hreload : c.lg.reload = none)
include hrewrite hreload

/-- The region is HELD, its governing stop LOADING without a source, and the paging is asked for. -/
theorem Chip.rewriteHold_of_used (hused : c.rgState r ≠ rgRetired) :
    c.rewriteHold r =
      let b : Chip := { c with cfg := { c.cfg with rewrite := none } }
      let d := (b.holdRegion r hwyConfig).set (F.FAB_RG_STAT_STOPST r (b.gov r)) ssLoading
      let e : Chip := { d with cfg := { d.cfg with src := tdel (rsKey r (d.gov r)) d.cfg.src } }
      Chip.pageAsk { Paging.new (.rewrite id r re) k [(r, e.gov r)] [] with marked := [(r, e.gov r, ssLoading)] } e := by
  simp only [Chip.rewriteHold, Chip.underReload_of_none hreload, hrewrite, decide_eq_false hused, ne_eq, not_true_eq_false,
    Bool.false_eq_true, if_false]

theorem Chip.rewriteHold_of_retired (hretired : c.rgState r = rgRetired) :
    c.rewriteHold r = Chip.fail id ST_RETIRED dtNone { c with cfg := { c.cfg with rewrite := none } } := by
  simp only [Chip.rewriteHold, Chip.underReload_of_none hreload, hrewrite, decide_eq_true hretired, ne_eq, not_true_eq_false,
    Bool.false_eq_true, if_false, if_true]

end

/-! ## The Tongue port (R243) -/

section
variable {ni q v : Nat}

/-- The grants and the request's fields allow region `q` what it asks for (Table 8.12). -/
def Chip.tongueAllows (c : Chip) (q v : Nat) : Bool :=
  c.cfg.grants.any (fun g => g.req = q && decide (g.first ≤ bits v 7 0) && decide (bits v 7 0 ≤ g.last) &&
      g.stops.testBit (bits v 10 8) && decide (g.slotLo ≤ bits v 23 12) && decide (bits v 23 12 ≤ g.slotHi)) &&
    decide (bits v 7 0 < 192) && c.slotState (bits v 23 12) = slValid && bits v 111 64 % 8 = 0 &&
    decide (0x010000000000 + q * 0x100000 ≤ bits v 111 64) &&
    decide (bits v 111 64 + 8 ≤ 0x010000000000 + q * 0x100000 + 0x100000) &&
    (c.rgState (bits v 7 0) = rgRun || c.rgState (bits v 7 0) = rgHeld)

/-- A request that is allowed, while nothing is paged, ends at once where the slot's use map meets the mask, and is paged otherwise. -/
theorem Chip.tongueReq_of_allowed (hdesign : 96 ≤ ni) (hpage : c.cfg.page = none) (hwaiting : c.cfg.waiting = [])
    (hallows : c.tongueAllows (ni - 96) v = true) :
    c.tongueReq ni true v =
      let q := ni - 96
      let a := bits v 111 64
      if c.vmapMeets (bits v 7 0) (c.slotVmap (bits v 23 12)) then (rspOk, c.tongueDone a (bits v 127 112) 2)
      else (rspOk, c.pageAsk (Paging.new (.tongue q a (bits v 127 112)) (bits v 23 12) [(bits v 7 0, bits v 10 8)]
        [(bits v 7 0, bits v 10 8)])) := by
  unfold Chip.tongueAllows at hallows
  simp only [Chip.tongueReq, if_neg (Nat.not_lt.2 hdesign), hpage, hwaiting, hallows, Option.map_none, Option.getD_none,
    List.any_nil, Bool.or_self, Bool.not_true, Bool.false_eq_true, if_false]

theorem Chip.tongueReq_of_host (h : ni < 96) : c.tongueReq ni true v = (rspDenied, c) := if_pos h

end

/-! ## The rows -/

/-- Settles O22: each row's command is one function of the device, and its equation under the clause's premises gives the row. -/
theorem configurationRows : Obligations.ConfigurationRows := by
  intro s hs
  refine ⟨?mark, ?paged, ?refused, ?signature, ?rewrite, ?retired, ?stall, ?table, ?image, ?imageRest, ?tongue, ?tongueHost,
    ?tongueNarrow⟩
  case mark =>
    exact fun r p m hpage hrun hfind hpend hreload hgov => exec_eq_of_runChip (exec_stopMark r s) hs
      ((Chip.stopMark_of_run (c := s.chip.quiet) hpage hfind hrun hpend hreload hgov).trans (Chip.markOne_of_page hpage))
  case paged =>
    exact fun p id v f t hpage hmarked hwhy hread hall => exec_eq_of_runChip (exec_pagingDone v f s) hs
      (Chip.pagingDone_of_verified (c := s.chip.quiet) hpage hmarked hwhy hread hall)
  case refused =>
    exact fun p v f st dt t hpage hmarked hread => exec_eq_of_runChip (exec_pagingDone v f s) hs
      (Chip.pagingDone_of_refused (c := s.chip.quiet) hpage hmarked hread)
  case signature =>
    exact fun l hload hfinal hkind hgolden hfilled htargets hslot hmore => exec_eq_of_runChip (exec_signatureVerified s) hs
      (Chip.signatureDone_of_partial (c := s.chip.quiet) hload hfinal hkind hgolden hfilled htargets hslot hmore)
  case rewrite =>
    exact fun r id k re hrewrite hreload hused => exec_eq_of_runChip (exec_rewriteHold r s) hs
      (Chip.rewriteHold_of_used (c := s.chip.quiet) hrewrite hreload hused)
  case retired =>
    exact fun r id k re hrewrite hreload hretired => exec_eq_of_runChip (exec_rewriteHold r s) hs
      (Chip.rewriteHold_of_retired (c := s.chip.quiet) hrewrite hreload hretired)
  case stall =>
    intro l hload hflash hdram hfinal hslot
    refine ⟨fun hmore => ?_, fun hall => ?_⟩
    · exact exec_eq_of_runChip (exec_loadStallTimeout s) hs
        (Chip.loadStall_of_incomplete (c := s.chip.quiet) hload hflash hdram hfinal hslot hmore)
    · exact exec_eq_of_runChip (exec_loadStallTimeout s) hs (Chip.loadStall_of_complete (c := s.chip.quiet) hload hall)
  case table =>
    intro l bs hload hflash hsought
    refine ⟨fun hok => ?_, fun hbad hfirst => ?_, fun hbad hsecond => ?_⟩
    · exact exec_eq_of_runChip (exec_flashSegmentRead _ s) hs
        (Chip.flashRead_of_table (c := s.chip.quiet) hload hflash hsought hok)
    · exact exec_eq_of_runChip (exec_flashSegmentRead _ s) hs
        ((Chip.flashRead_of_bad_table (c := s.chip.quiet) hload hflash hsought hbad).trans (if_pos hfirst))
    · exact exec_eq_of_runChip (exec_flashSegmentRead _ s) hs
        ((Chip.flashRead_of_bad_table (c := s.chip.quiet) hload hflash hsought hbad).trans (if_neg hsecond))
  case image =>
    intro l bs hload hflash htable hfinal hlimit
    refine exec_eq_of_runChip (exec_flashSegmentRead _ s) hs
      ((Chip.flashRead_of_image (c := s.chip.quiet) hload hflash bs htable hfinal).trans ?_)
    rw [hlimit, Option.map_none, Option.getD_none, List.take_length]
  case imageRest =>
    intro l bs n hload hflash htable hfinal hlimit
    refine exec_eq_of_runChip (exec_flashSegmentRead _ s) hs
      ((Chip.flashRead_of_image (c := s.chip.quiet) hload hflash bs htable hfinal).trans ?_)
    rw [hlimit, Option.map_some, Option.getD_some]
  case tongue =>
    rintro ni v _ _ _ _ hdesign rfl rfl rfl rfl hpage hwaiting hgranted ht hslot halign hlow hhigh hstate
    have hallows : s.chip.quiet.tongueAllows (ni - 96) v.toNat = true := by
      simp only [Chip.tongueAllows, Bool.and_eq_true, Bool.or_eq_true, decide_eq_true_eq]
      exact ⟨⟨⟨⟨⟨⟨hgranted, ht⟩, hslot⟩, halign⟩, hlow⟩, hhigh⟩, hstate⟩
    have hreq := Chip.tongueReq_of_allowed (c := s.chip.quiet) hdesign hpage hwaiting hallows
    refine ⟨fun hclear => ?_, fun hmeets => ?_⟩
    · exact exec_eq_of_runChip (exec_tongueReqWrite ni true v s) hs
        (congrArg answerWrite (hreq.trans (if_neg (Bool.eq_false_iff.1 hclear))))
    · exact exec_eq_of_runChip (exec_tongueReqWrite ni true v s) hs (congrArg answerWrite (hreq.trans (if_pos hmeets)))
  case tongueHost =>
    exact fun ni v hhost => exec_eq_after (exec_tongueReqWrite ni true v s) hs fun c =>
      congrArg answerWrite (Chip.tongueReq_of_host hhost)
  case tongueNarrow => exact fun ni v => exec_eq_after (exec_tongueReqWrite ni false v s) hs fun c => rfl

end Sys2Proof.Machine
end

section
/-! PROOF. The commands of class 0x01 (O23). -/

namespace Sys2Proof.Machine

variable {c : Chip} {l : Load} {id : Nat} {pl : List Byte}

/-! ## Loads (R229, R232, R233, R250) -/

/-- The refusal of a header, as `CFG_STAT` and the event queue show it (R232). -/
def Chip.noteRefusal (f : Nat × Nat) (c : Chip) : Chip :=
  (((c.set F.CFG_STAT_LAST_STATUS f.1).set F.CFG_STAT_LAST_DETAIL f.2).set F.CFG_STAT_LAST_SEG 0).raise EV_CFG_LOAD_FAILED
    (f.1 + f.2 * 256)

/-- A load from the host or from DRAM, before its header. -/
def Load.ofHost (kind r : Nat) (reinit dram : Bool) (limit : Option Nat) : Load :=
  { Load.ofFlash false 0 limit with kind := kind, flash := false, dram := dram, region := r, reinit := reinit }

/-- An accepted header opens its load, a full one in CONFIGURING (R233). -/
def Chip.openHost (kind r : Nat) (reinit dram : Bool) (limit : Option Nat) (h : List Byte) (c : Chip) : Chip :=
  let d := if kind = 0 then c.enterConfiguring.set F.CFG_STAT_SRC_FLASH 0 else c
  Chip.cfgPhase 2 kind { d with cfg := { d.cfg with load := some (d.openLoad (.ofHost kind r reinit dram limit) h) } }

theorem Chip.loadOpen_eq {kind r : Nat} {reinit dram : Bool} {limit : Option Nat} {h : List Byte} :
    c.loadOpen kind r reinit dram limit h =
      match c.headerRefusal kind h with
      | some f => (some f, c.noteRefusal f)
      | none => (none, c.openHost kind r reinit dram limit h) := by
  unfold Chip.loadOpen
  cases c.headerRefusal kind h <;> rfl

theorem cmdCfgLoadBegin_run_of_allowed (hallowed : c.loadState (pb pl 0) (pb pl 1) = none) :
    cmdCfgLoadBegin.run id pl c =
      match c.headerRefusal (pb pl 0) (pl.drop 8) with
      | some f => (c.noteRefusal f).fail id f.1 f.2
      | none => (c.openHost (pb pl 0) (pb pl 1) (decide (pb pl 2 = 1)) false none (pl.drop 8)).ok id [] := by
  simp only [cmdCfgLoadBegin, Cmd.plain, hallowed, Chip.loadOpen_eq]
  cases c.headerRefusal (pb pl 0) (pl.drop 8) <;> rfl

/-- The open load takes data and its end from the host: it is a host's, its end is not reached and not waited for. -/
def Load.takesHost (l : Load) : Prop := l.flash = false ∧ l.dram = false ∧ l.final = false ∧ l.ending = false

section
variable (hload : c.cfg.load = some l) (htakes : l.takesHost)
include hload htakes

theorem cmdCfgLoadData_run_of_next (hnext : pf pl 0 4 = l.next) :
    cmdCfgLoadData.run id pl c =
      if l.slot.isNone then c.loadFeed (pl.drop 8) (some id)
      else
        { c with cfg := { c.cfg with
          load := some { l with next := l.next + (pl.drop 8).length, more := l.more ++ [(id, some (pl.drop 8))] } } } := by
  obtain ⟨hflash, hdram, hfinal, hending⟩ := htakes
  simp only [cmdCfgLoadData, Cmd.plain, hload, hflash, hdram, hfinal, hending, hnext, Bool.false_eq_true, or_self, ne_eq,
    not_true_eq_false, if_false]

/-- Where all data of a partial load is taken and the image is whole, its signature is awaited (checks 13 and 14 of Table 8.8). -/
theorem cmdCfgLoadEnd_run_of_whole (hslot : l.slot = none) (hpartial : l.kind ≠ 0) (hsegs : pf l.header 18 2 < l.seg)
    (hbuf : l.buf = []) (hlen : l.next = pf l.header 20 4) :
    cmdCfgLoadEnd.run id pl c =
      let d := c.interim id ST_ACCEPTED dtNone []
      (Chip.cfgPhase 3 l.kind { d with cfg := { d.cfg with
        load := some { l with slot := some id, final := true } } }).pageSettle := by
  obtain ⟨hflash, hdram, hfinal, hending⟩ := htakes
  simp only [cmdCfgLoadEnd, Cmd.plain, hload, hflash, hdram, hfinal, hending, hslot, Chip.loadEndChecks,
    if_neg (Nat.not_le.2 hsegs), hbuf, hlen, hpartial, Option.isNone_none, Bool.false_eq_true, or_self, ne_eq, not_true_eq_false,
    false_and, if_false, if_true]

end

/-- A load from a range outside the library that DRAM has read goes on with the header that its first 256 bytes hold. -/
theorem cmdCfgLoadDram_run_of_read {t : Chip} (hallowed : c.loadState (pb pl 12) (pb pl 13) = none)
    (hlib : overlaps (pf pl 0 8, pf pl 0 8 + pf pl 8 4) c.libRange = false) (hlen : 256 ≤ pf pl 8 4)
    (hread : c.rowReads (pf pl 0 8) (pf pl 8 4) = (rspOk, t)) :
    cmdCfgLoadDram.run id pl c =
      match t.loadOpen (pb pl 12) (pb pl 13) (decide (pb pl 14 = 1)) true (some (pf pl 8 4)) (memRead (pf pl 0 8) 256 t.mem) with
      | (some f, d) => d.fail id f.1 f.2
      | (none, d) => (d.interim id ST_ACCEPTED dtNone []).loadFeed (memRead (pf pl 0 8 + 256) (pf pl 8 4 - 256) d.mem) (some id) := by
  rcases hopen : t.loadOpen (pb pl 12) (pb pl 13) (decide (pb pl 14 = 1)) true (some (pf pl 8 4))
    (memRead (pf pl 0 8) 256 t.mem) with ⟨_ | f, d⟩
  all_goals
    simp only [cmdCfgLoadDram, Cmd.plain, hallowed, hlib, hread, hopen, if_neg (Nat.not_lt.2 hlen), ne_eq, not_true_eq_false,
      Bool.false_eq_true, if_false]

/-! ## Pagings, draws and rewrites (R208, R225, R241) -/

theorem cmdCfgPage_run_of_valid (huser : c.dstate = stUser) (hrange : pf pl 2 2 < c.get F.CFG_LIB_SLOTS_SLOTS)
    (hvalid : c.slotState (pf pl 2 2) = slValid)
    (hmask : ∀ r ∈ maskRegions (pf pl 8 24), c.vmapMeets r (c.slotVmap (pf pl 2 2)) = false) :
    cmdCfgPage.run id pl c =
      let ts := (maskRegions (pf pl 8 24)).map (fun r => (r, pb pl 0))
      (c.interim id ST_ACCEPTED dtNone []).pageAsk (Paging.new (.command id) (pf pl 2 2) ts ts) := by
  have hslot : ¬(c.get F.CFG_LIB_SLOTS_SLOTS ≤ pf pl 2 2 ∨ c.slotState (pf pl 2 2) ≠ slValid) :=
    not_or_intro (Nat.not_le.2 hrange) (not_not_intro hvalid)
  have hclear : ((maskRegions (pf pl 8 24)).map (fun r => (r, pb pl 0))).any
      (fun t => c.vmapMeets t.1 (c.slotVmap (pf pl 2 2))) = false := by
    rw [List.any_map]
    exact List.any_eq_false.2 fun r hr => Bool.eq_false_iff.1 (hmask r hr)
  simp only [cmdCfgPage, Cmd.plain, huser, if_neg hslot, hclear, ne_eq, not_true_eq_false, Bool.false_eq_true, if_false]

theorem cmdCfgDraw_run_of_ready (h : c.bcastBad (pb pl 0) (maskRegions (pf pl 8 24)) = false) :
    cmdCfgDraw.run id pl c = c.sendBcast (some id) (pb pl 0) (maskRegions (pf pl 8 24)) :=
  if_neg (Bool.eq_false_iff.1 h)

theorem cmdCfgRewriteSlot_run_of_valid (hallowed : c.loadState 2 (pb pl 0) = none)
    (hrange : pf pl 2 2 < c.get F.CFG_LIB_SLOTS_SLOTS) (hvalid : c.slotState (pf pl 2 2) = slValid)
    (hmask : c.vmapMeets (pb pl 0) (c.slotVmap (pf pl 2 2)) = false) :
    cmdCfgRewriteSlot.run id pl c =
      let d := c.interim id ST_ACCEPTED dtNone []
      { d with cfg := { d.cfg with rewrite := some (id, pf pl 2 2, pb pl 0, decide (pb pl 1 = 1)) } } := by
  have hslot : ¬(c.get F.CFG_LIB_SLOTS_SLOTS ≤ pf pl 2 2 ∨ c.slotState (pf pl 2 2) ≠ slValid) :=
    not_or_intro (Nat.not_le.2 hrange) (not_not_intro hvalid)
  simp only [cmdCfgRewriteSlot, Cmd.plain, hallowed, if_neg hslot, hmask, Bool.false_eq_true, if_false]

/-! ## The library and the flash (R224, R227) -/

theorem cmdCfgLibFree_run_of_unused
    (hunused : ∀ i < pf pl 2 2, c.slotReferenced (pf pl 0 2 + i) = false ∧ c.slotState (pf pl 0 2 + i) ≠ slFilling ∧
      c.slotState (pf pl 0 2 + i) ≠ slPending) :
    cmdCfgLibFree.run id pl c =
      (c.forAll ((List.range (pf pl 2 2)).map (fun i => pf pl 0 2 + i)) (fun k => Chip.setSlotState k slFree)).ok id [] := by
  have hnone : ¬((List.range (pf pl 2 2)).map (fun i => pf pl 0 2 + i)).any
      (fun k => c.slotReferenced k || c.slotState k = slFilling || c.slotState k = slPending) = true := by
    rw [List.any_map]
    refine Bool.eq_false_iff.1 (List.any_eq_false.2 fun i hi => ?_)
    obtain ⟨href, hfilling, hpending⟩ := hunused i (List.mem_range.1 hi)
    simp [href, hfilling, hpending]
  exact if_neg hnone

/-- The flash is free for a raw operation while no load reads from it. -/
theorem cmdCfgXspi_run_of_free (hfree : ∀ l : Load, c.cfg.load = some l → l.flash = false) :
    cmdCfgXspi.run id pl c =
      let n := pf pl 8 2
      let d := c.emit (.xspi (pb pl 0) (pb pl 1) (if pb pl 2 = 0 then none else some (pf pl 4 4)) (pb pl 3) n (pl.drop 16))
      Chip.ok id (d.freeBytes n) { d with freeCtr := d.freeCtr + n } := by
  have hflash : ¬(c.cfg.load.map (fun (l : Load) => l.flash)).getD false = true := by
    cases hload : c.cfg.load with
    | none => exact Bool.false_ne_true
    | some l => exact Bool.eq_false_iff.1 (hfree l hload)
  exact if_neg hflash

/-! ## The commands -/

/-- Settles O23: the packet is accepted, so the command starts in its slot, and its start is what the row says. -/
theorem configurationCommandRows : Obligations.ConfigurationCommandRows := by
  intro s p
  refine ⟨?status, ?loadBegin, ?loadData, ?loadEnd, ?loadDram, ?page, ?draw, ?rewrite, ?libStatus, ?libFree, ?flash⟩
  case status => exact fun h => exec_eq_of_accepts (exec_chCfgStatus p s) h rfl
  case loadBegin =>
    exact fun h hallowed => exec_eq_of_accepts (exec_chCfgLoadBegin p s) h
      (cmdCfgLoadBegin_run_of_allowed (c := s.chip.quiet.slotFor cmdCfgLoadBegin p) hallowed)
  case loadData =>
    intro l h hload hflash hdram hfinal hending hnext
    have hrun := cmdCfgLoadData_run_of_next (c := s.chip.quiet.slotFor cmdCfgLoadData p) (id := s.chip.ch.nextId) hload
      ⟨hflash, hdram, hfinal, hending⟩ hnext
    refine ⟨fun hslot => ?_, fun i hslot => ?_⟩
    · exact exec_eq_of_accepts (exec_chCfgLoadData p s) h (hrun.trans (if_pos (by rw [hslot, Option.isNone_none])))
    · exact exec_eq_of_accepts (exec_chCfgLoadData p s) h (hrun.trans (if_neg (by simp [hslot])))
  case loadEnd =>
    exact fun l h hload hflash hdram hfinal hending hslot hpartial hsegs hbuf hlen =>
      exec_eq_of_accepts (exec_chCfgLoadEnd p s) h (cmdCfgLoadEnd_run_of_whole (c := s.chip.quiet.slotFor cmdCfgLoadEnd p) hload
        ⟨hflash, hdram, hfinal, hending⟩ hslot hpartial hsegs hbuf hlen)
  case loadDram =>
    rintro a n t h rfl rfl hallowed hlib hlen hread
    exact exec_eq_of_accepts (exec_chCfgLoadDram p s) h
      (cmdCfgLoadDram_run_of_read (c := s.chip.quiet.slotFor cmdCfgLoadDram p) hallowed hlib hlen hread)
  case page =>
    rintro k h rfl huser hrange hvalid hmask
    exact exec_eq_of_accepts (exec_chCfgPage p s) h
      (cmdCfgPage_run_of_valid (c := s.chip.quiet.slotFor cmdCfgPage p) huser hrange hvalid hmask)
  case draw =>
    exact fun h hready => exec_eq_of_accepts (exec_chCfgDraw p s) h
      (cmdCfgDraw_run_of_ready (c := s.chip.quiet.slotFor cmdCfgDraw p) hready)
  case rewrite =>
    rintro k r h rfl rfl hallowed hrange hvalid hmask
    exact exec_eq_of_accepts (exec_chCfgRewriteSlot p s) h
      (cmdCfgRewriteSlot_run_of_valid (c := s.chip.quiet.slotFor cmdCfgRewriteSlot p) hallowed hrange hvalid hmask)
  case libStatus => exact fun h => exec_eq_of_accepts (exec_chCfgLibStatus p s) h rfl
  case libFree =>
    exact fun h hunused => exec_eq_of_accepts (exec_chCfgLibFree p s) h
      (cmdCfgLibFree_run_of_unused (c := s.chip.quiet.slotFor cmdCfgLibFree p) hunused)
  case flash =>
    exact fun h hfree => exec_eq_of_accepts (exec_chCfgXspi p s) h
      (cmdCfgXspi_run_of_free (c := s.chip.quiet.slotFor cmdCfgXspi p) hfree)

end Sys2Proof.Machine
end

section
/-! PROOF. The signing of a report and the commands of class 0x0A (O24). -/

namespace Sys2Proof.Machine

variable {c : Chip} {id : Nat} {pl : List Byte}

/-! ## Attestation (R248) -/

theorem Chip.attestSigned_of_running {k : Slot} (h : c.runningCmd 0x0A 0x09 (fun _ => true) = some k) :
    c.attestSigned =
      Chip.ok k.id (natLe 4 (c.attestReport k.payload).length)
        { c with cfg := { c.cfg with report := c.attestReport k.payload } } := by
  rw [Chip.attestSigned, h]

/-! ## Burns without a signed request (R244 to R246) -/

/-- FACTORY may go to PROVISIONED once the root key and owner key slot 0 are programmed (Table 8.11). -/
theorem cmdSecLcAdvance_run_of_provision (hlc : c.lc = lcFactory) (hto : pf pl 0 4 = lcProvisioned) (hburns : c.cfg.burns = [])
    (hroot : c.get F.SEC_STAT_ROOTKEY = 1) (hkey : (c.get F.SEC_STAT_SLOT_PROG).testBit 0 = true) :
    cmdSecLcAdvance.run id pl c = c.burn id 0 lcProvisioned [] := by
  have hstep : lcStep lcFactory lcProvisioned = true := rfl
  simp only [cmdSecLcAdvance, Cmd.plain, hlc, hto, hburns, hroot, hkey, hstep, List.any_nil, decide_true, Bool.and_self,
    Bool.not_true, Bool.false_eq_true, or_self, and_false, if_false]

/-- An owner key slot that is neither programmed nor revoked, with no burn in progress, is free. -/
theorem Chip.keyProg_of_free {k : Nat} {hash : List Byte} (hprog : (c.get F.SEC_STAT_SLOT_PROG).testBit k = false)
    (hrev : (c.get F.SEC_STAT_SLOT_REV).testBit k = false) (hburns : c.cfg.burns = []) :
    c.keyProg id k hash = c.burn id 1 k hash := by
  simp only [Chip.keyProg, hprog, hrev, hburns, List.any_nil, Bool.or_self, Bool.false_eq_true, if_false]

/-- Outside FIELD the key slot and its hash come in the payload, with no signed request. -/
theorem cmdSecKeyProg_run_of_ne_field (hlc : c.lc ≠ lcField) :
    cmdSecKeyProg.run id pl c = c.keyProg id (pb pl 0) (pl.drop 16) :=
  if_neg hlc

theorem cmdSecRootkeyProg_run_of_unset (hroot : c.get F.SEC_STAT_ROOTKEY = 0) (hburns : c.cfg.burns = []) :
    cmdSecRootkeyProg.run id pl c = c.burn id 5 0 pl := by
  simp only [cmdSecRootkeyProg, Cmd.plain, hroot, hburns, List.any_nil, ne_eq, not_true_eq_false, Bool.false_eq_true, or_self,
    if_false]

/-! ## The rows -/

/-- Settles O24: the signing ends the oldest running `CH_SEC_ATTEST`; the packet of a command is accepted, so the command starts in its
slot, and its start is what the row says. The three commands that only a signed request permits split on what its check answers. -/
theorem securityRows : Obligations.SecurityRows := by
  intro s p
  refine ⟨?signed, ?status, ?advance, ?nonce, ?reqData, ?keyProg, ?keyRevoke, ?svnRaise, ?rma, ?rootkeyProg, ?attest, ?blobRead⟩
  case signed =>
    exact fun k hs hrun => exec_eq_of_runChip (exec_attestSigned s) hs (Chip.attestSigned_of_running (c := s.chip.quiet) hrun)
  case status => exact fun h => exec_eq_of_accepts (exec_chSecStatus p s) h rfl
  case advance =>
    exact fun h hlc hto hburns hroot hkey => exec_eq_of_accepts (exec_chSecLcAdvance p s) h
      (cmdSecLcAdvance_run_of_provision (c := s.chip.quiet.slotFor cmdSecLcAdvance p) hlc hto hburns hroot hkey)
  case nonce => exact fun h => exec_eq_of_accepts (exec_chSecNonce p s) h rfl
  case reqData => exact fun h => exec_eq_of_accepts (exec_chSecReqData p s) h rfl
  case keyProg =>
    rintro k h hlc rfl hprog hrev hburns
    exact exec_eq_of_accepts (exec_chSecKeyProg p s) h
      ((cmdSecKeyProg_run_of_ne_field (c := s.chip.quiet.slotFor cmdSecKeyProg p) hlc).trans
        (Chip.keyProg_of_free hprog hrev hburns))
  case keyRevoke =>
    refine fun h => exec_eq_of_accepts (exec_chSecKeyRevoke p s) h ?_
    generalize s.chip.quiet.slotFor cmdSecKeyRevoke p = t
    rcases hreq : t.checkRequest reqMagic 2 0x05 with ⟨_ | f, d⟩
    all_goals simp only [cmdSecKeyRevoke, Cmd.plain, hreq] <;> rfl
  case svnRaise =>
    refine fun h => exec_eq_of_accepts (exec_chSecSvnRaise p s) h ?_
    generalize s.chip.quiet.slotFor cmdSecSvnRaise p = t
    rcases hreq : t.checkRequest reqMagic 3 0x06 with ⟨_ | f, d⟩
    all_goals simp only [cmdSecSvnRaise, Cmd.plain, hreq] <;> rfl
  case rma =>
    refine fun h => exec_eq_of_accepts (exec_chSecRma p s) h ?_
    generalize s.chip.quiet.slotFor cmdSecRma p = t
    rcases hreq : t.checkRequest reqMagic 4 0x07 with ⟨_ | f, d⟩
    all_goals simp only [cmdSecRma, Cmd.plain, hreq] <;> rfl
  case rootkeyProg =>
    exact fun h hroot hburns => exec_eq_of_accepts (exec_chSecRootkeyProg p s) h
      (cmdSecRootkeyProg_run_of_unset (c := s.chip.quiet.slotFor cmdSecRootkeyProg p) hroot hburns)
  case attest => exact fun h => exec_eq_of_accepts (exec_chSecAttest p s) h rfl
  case blobRead => exact fun h => exec_eq_of_accepts (exec_chSecBlobRead p s) h rfl

end Sys2Proof.Machine
end

section
/-! PROOF. The scratchpad banks: what an operation notes and what it stores, and the frame of port A (O47). -/

namespace Sys2Proof.Machine

variable {c d t : Chip} {r w b k n be flaw port : Nat} {op : SpOp}

/-! ## What an operation notes (R254, R259, R381) -/

/-- `d` is `c` but for what a bank operation notes: in the registers, the event queue and log, the banks' own state, the self-test
queue and the outputs. -/
def Chip.Notes (c d : Chip) : Prop :=
  d = { c with rf := d.rf, ch := d.ch, sp := d.sp, st := d.st, nvs := d.nvs, out := d.out }

theorem Chip.Notes.refl (c : Chip) : c.Notes c := rfl

theorem Chip.Notes.trans (hd : c.Notes d) (ht : d.Notes t) : c.Notes t := by
  unfold Chip.Notes at hd ht ⊢
  rw [hd] at ht
  exact ht

theorem Chip.Notes.mem_eq (h : c.Notes d) : d.mem = c.mem := by rw [h]

theorem Chip.set_notes (f : Fld) (v : Nat) (c : Chip) : c.Notes (c.set f v) := rfl

theorem Chip.raise_notes (e : Nat × Nat) (arg : Nat) (c : Chip) : c.Notes (c.raise e arg) := by
  obtain ⟨rf, ch, nvs, out, hraise⟩ := Chip.raise_eq e arg c
  rw [hraise]
  rfl

theorem Chip.flagEvent_notes (f : Fld) (e : Nat × Nat) (arg : Nat) (c : Chip) : c.Notes (c.flagEvent f e arg) := by
  unfold Chip.flagEvent
  split
  · exact .refl c
  · exact Chip.raise_notes e arg (c.set f 1)

theorem Chip.tqPush_notes (kind loc : Nat) (slots : List Nat) (c : Chip) : c.Notes (c.tqPush kind loc slots) := by
  unfold Chip.tqPush
  extract_lets same
  repeat' split
  all_goals rfl

theorem Chip.spUncorr_notes (r w port : Nat) (c : Chip) : c.Notes (c.spUncorr r w port) := by
  unfold Chip.spUncorr
  extract_lets a bad marked counted
  have hmarked : c.Notes marked := rfl
  have hcounted : c.Notes counted :=
    ((hmarked.trans (Chip.set_notes ..)).trans (Chip.set_notes ..)).trans (Chip.set_notes ..)
  exact (hcounted.trans (Chip.flagEvent_notes ..)).trans (Chip.tqPush_notes ..)

theorem Chip.spCorrect_notes (r w : Nat) (c : Chip) : c.Notes (c.spCorrect r w) :=
  ((Chip.set_notes ..).trans (Chip.flagEvent_notes ..)).trans (Chip.tqPush_notes ..)

/-! ## What an operation stores (R256 to R258) -/

@[simp] theorem natLe_length (n v : Nat) : (natLe n v).length = n := by
  induction n generalizing v with
  | zero => rfl
  | succ n ih => rw [natLe, List.length_cons, ih]

/-- A masked write leaves every byte outside its range. -/
theorem memGet_memWriteMask_out (a at' : Nat) (bs : List (Bool × Byte)) (m : Memory) (h : a < at' ∨ at' + bs.length ≤ a) :
    memGet a (memWriteMask at' bs m) = memGet a m := by
  induction bs generalizing at' m with
  | nil => rfl
  | cons p bs ih =>
    obtain ⟨e, x⟩ := p
    rw [List.length_cons] at h
    rw [memWriteMask, ih (at' + 1) _ (by omega)]
    split
    · exact memGet_memPut_ne (by omega) x m
    · rfl

/-- A store changes memory and the list of uncorrectable words. -/
theorem Chip.spStore_eq (r w : Nat) (op : SpOp) (n be : Nat) (c : Chip) :
    ∃ mem sp, c.spStore r w op n be = { c with mem := mem, sp := sp } := by
  cases op <;> exact ⟨_, _, rfl⟩

/-- A store leaves every byte outside its word. -/
theorem Chip.memGet_spStore_out {a : Nat} (h : a < spAddr r w ∨ spAddr r w + 16 ≤ a) :
    memGet a (c.spStore r w op n be).mem = memGet a c.mem := by
  cases op
  case read => rfl
  case write => exact memGet_memWriteMask_out _ _ _ _ (by simpa using h)
  all_goals exact memGet_memWrite_out _ _ _ _ (by rwa [natLe_length])

/-! ## Operations of a bank -/

/-- An operation ends at an uncorrectable word, with a note alone; or it stores, after a note of what its check corrected. -/
theorem Chip.bankOp_cases (r w : Nat) (op : SpOp) (n be flaw port : Nat) (c : Chip) :
    c.Notes (c.bankOp r w op n be flaw port).2 ∨
      ∃ t, c.Notes t ∧ (c.bankOp r w op n be flaw port).2 = t.spStore r w op n be := by
  unfold Chip.bankOp
  split
  · exact .inl (Chip.spUncorr_notes r w port c)
  · refine .inr ⟨_, ?_, rfl⟩
    split
    · exact Chip.spCorrect_notes r w c
    · exact .refl c

/-- A discarded operation reads at most. -/
theorem Chip.bankDiscard_notes (r w : Nat) (op : SpOp) (be flaw : Nat) (c : Chip) :
    c.Notes (c.bankDiscard r w op be flaw).2 := by
  unfold Chip.bankDiscard
  split
  · rcases Chip.bankOp_cases r w .read 0 0 flaw 0 c with hnotes | ⟨t, hnotes, hstore⟩
    · exact hnotes
    · rw [hstore]
      exact hnotes
  · exact .refl c

/-! ## Port A (R254) -/

/-- The last access of port A to a bank is this one. -/
def Chip.noteAccess (r b k : Nat) (op : SpOp) (c : Chip) : Chip :=
  { c with sp := { c.sp with lastA := tset (16 * r + b) (2 * k + (if op = SpOp.read then 0 else 1)) c.sp.lastA } }

/-- The operation of an accepted request; a capture in progress discards what is not a read (R218). -/
def Chip.accessA (r b k : Nat) (op : SpOp) (n be flaw : Nat) (c : Chip) : SpRes × Chip :=
  if c.capHolds r (16 * k + b) && op ≠ SpOp.read then c.bankDiscard r (16 * k + b) op be flaw
  else c.bankOp r (16 * k + b) op n be flaw 0

/-- The result that port A shows (Table 9.1). -/
def SpRes.shownA (r b : Nat) (op : SpOp) : SpRes → Out
  | .ok old => .portA r b 0 (op.result old)
  | .uncorr => .portA r b 1 none

theorem Chip.portA_eq (r b k : Nat) (op : SpOp) (n be flaw : Nat) (c : Chip) :
    c.portA r b k op n be flaw =
      if c.rgState r ≠ rgRun || c.is (F.SP_PWR_STAT_LEASE r b) ||
        (c.is (F.SP_PWR_STAT_BUSY r b) && tget 0 (16 * r + b) c.sp.goal = bankOn) then c
      else if c.bankState r b ≠ bankOn || c.is (F.SP_PWR_STAT_BUSY r b) then c.emit (.portA r b 2 none)
      else
        let res := (c.noteAccess r b k op).accessA r b k op n be flaw
        res.2.emit (res.1.shownA r b op) := by
  have hshown (res : SpRes × Chip) :
      (match res with
        | (.ok old, c) => c.emit (.portA r b 0 (op.result old))
        | (.uncorr, c) => c.emit (.portA r b 1 none)) = res.2.emit (res.1.shownA r b op) := by
    obtain ⟨_ | _, d⟩ := res <;> rfl
  rw [← hshown]
  rfl

theorem Chip.accessA_cases (r b k : Nat) (op : SpOp) (n be flaw : Nat) (c : Chip) :
    c.Notes (c.accessA r b k op n be flaw).2 ∨
      ∃ t, c.Notes t ∧ (c.accessA r b k op n be flaw).2 = t.spStore r (16 * k + b) op n be := by
  unfold Chip.accessA
  split
  · exact .inl (Chip.bankDiscard_notes ..)
  · exact Chip.bankOp_cases ..

/-- What a request of port A does: it makes notes, or it stores its word between notes. -/
theorem Chip.portA_cases (r b k : Nat) (op : SpOp) (n be flaw : Nat) (c : Chip) :
    c.Notes (c.portA r b k op n be flaw) ∨
      ∃ t o, c.Notes t ∧ c.portA r b k op n be flaw = (t.spStore r (16 * k + b) op n be).emit o := by
  have hnoted : c.Notes (c.noteAccess r b k op) := rfl
  rw [Chip.portA_eq]
  split
  · exact .inl (.refl c)
  split
  · exact .inl rfl
  rcases Chip.accessA_cases r b k op n be flaw (c.noteAccess r b k op) with hnotes | ⟨t, hnotes, hstore⟩
  · exact .inl ((hnoted.trans hnotes).trans rfl)
  · exact .inr ⟨t, _, hnoted.trans hnotes, congrArg (Chip.emit _) hstore⟩

theorem Chip.portABad_notes (r b : Nat) (c : Chip) : c.Notes (c.portABad r b) := by
  unfold Chip.portABad
  split
  · exact .refl c
  · split <;> rfl

/-! ## The frame -/

/-- `d` is `c` but for what an operation notes, and for the bytes of word `w` of region `r`. -/
def Chip.StoresWord (r w : Nat) (c d : Chip) : Prop :=
  d = { c with rf := d.rf, mem := d.mem, ch := d.ch, sp := d.sp, st := d.st, nvs := d.nvs, out := d.out } ∧
    ∀ a : Nat, a < spAddr r w ∨ spAddr r w + 16 ≤ a → memGet a d.mem = memGet a c.mem

theorem Chip.Notes.storesWord (h : c.Notes d) : Chip.StoresWord r w c d := by
  refine ⟨?_, fun a _ => by rw [h.mem_eq]⟩
  rw [h]

theorem Chip.Notes.spStore_storesWord (h : c.Notes d) (o : Out) :
    Chip.StoresWord r w c ((d.spStore r w op n be).emit o) := by
  refine ⟨?_, fun a ha => ?_⟩
  · obtain ⟨mem, sp, hstore⟩ := Chip.spStore_eq r w op n be d
    rw [hstore, h]
    rfl
  · rw [Chip.emit_mem, Chip.memGet_spStore_out ha, h.mem_eq]

theorem Chip.portA_storesWord (r b k : Nat) (op : SpOp) (n be flaw : Nat) (c : Chip) :
    Chip.StoresWord r (16 * k + b) c (c.portA r b k op n be flaw) := by
  rcases Chip.portA_cases r b k op n be flaw c with hnotes | ⟨t, o, hnotes, hstore⟩
  · exact hnotes.storesWord
  · rw [hstore]
    exact hnotes.spStore_storesWord o

theorem Chip.portA_read_mem (r b k n be flaw : Nat) (c : Chip) : (c.portA r b k .read n be flaw).mem = c.mem := by
  rcases Chip.portA_cases r b k .read n be flaw c with hnotes | ⟨t, o, hnotes, hstore⟩
  · exact hnotes.mem_eq
  · rw [hstore]
    exact hnotes.mem_eq

/-- What a command of another island leaves, by whether the islands run. -/
theorem exec_leaves_of_runChip {i : Instr} {s : State} {f : Chip → Chip} {P : Chip → Prop} (hi : exec i s = runChip f s)
    (hasleep : P s.chip.quiet) (hawake : P (f s.chip.quiet)) : ∃ t, exec i s = .next t ∧ t.pending = s.pending ∧ P t.chip := by
  cases h : s.chip.awake
  case false => exact ⟨_, hi.trans (runChip_asleep s f h), rfl, hasleep⟩
  case true => exact ⟨_, hi.trans (runChip_awake s f h), rfl, hawake⟩

/-- Settles O47: whatever its operation, a request of port A makes notes and stores its own word at most, and a read stores nothing. -/
theorem portAFrame : Obligations.PortAFrame := by
  intro s r b k data be flaw
  have hrow {i : Instr} {f : Chip → Chip} (hi : exec i s = runChip f s)
      (hf : Chip.StoresWord r (16 * k.toNat + b) s.chip.quiet (f s.chip.quiet)) :
      ∃ t, exec i s = .next t ∧ t.pending = s.pending ∧ Chip.StoresWord r (16 * k.toNat + b) s.chip.quiet t.chip :=
    exec_leaves_of_runChip hi (Chip.Notes.refl _).storesWord hf
  refine ⟨?rows, ?read⟩
  case rows =>
    simp only [List.forall_mem_cons]
    refine ⟨?_, ?_, ?_, ?_, ?_, ?_, List.forall_mem_nil _⟩
    · exact hrow (exec_spARead r b k flaw s) (Chip.portA_storesWord ..)
    · exact hrow (exec_spAWrite r b k data be flaw s) (Chip.portA_storesWord ..)
    · exact hrow (exec_spAAdd64 r b k data flaw s) (Chip.portA_storesWord ..)
    · exact hrow (exec_spAAdd128 r b k data flaw s) (Chip.portA_storesWord ..)
    · exact hrow (exec_spASwap r b k data flaw s) (Chip.portA_storesWord ..)
    · exact hrow (exec_spAReservedOp r b s) (Chip.portABad_notes ..).storesWord
  case read =>
    obtain ⟨t, ht, _, hmem⟩ := exec_leaves_of_runChip (P := fun c => c.mem = s.chip.quiet.mem) (exec_spARead r b k flaw s) rfl
      (Chip.portA_read_mem ..)
    exact ⟨t, ht, hmem⟩

end Sys2Proof.Machine
end

section
/-! PROOF. The atomic operations on one word of a scratchpad bank (O52). -/

namespace Sys2Proof.Machine

variable {c : Chip} {r w n be port : Nat} {op : SpOp}

/-! ## Little-endian byte strings (R3) -/

theorem leNat_lt (bs : List Byte) : leNat bs < 256 ^ bs.length := by
  induction bs with
  | nil => exact Nat.one_pos
  | cons b bs ih =>
    rw [leNat, List.length_cons, Nat.pow_succ]
    have hb : b.toNat < 256 := b.isLt
    omega

/-- `n` bytes spell the number that they come from, reduced to their width. -/
theorem leNat_natLe (n v : Nat) : leNat (natLe n v) = v % 256 ^ n := by
  induction n generalizing v with
  | zero => exact (Nat.mod_one v).symm
  | succ n ih =>
    rw [natLe, leNat, ih, Nat.pow_succ', Nat.mod_mul]
    rfl

/-! ## Words in memory -/

theorem memRead_length (a n : Nat) (m : Memory) : (memRead a n m).length = n := by
  rw [memRead, List.length_map, List.length_range]

/-- A range reads as what was written there. -/
theorem memRead_memWrite_same (a : Nat) (bs : List Byte) (m : Memory) : memRead a bs.length (memWrite a bs m) = bs := by
  refine List.ext_getElem (memRead_length ..) fun i _ hi => ?_
  simp only [memRead, List.getElem_map, List.getElem_range]
  exact memGet_memWrite_in a i bs m hi

theorem Chip.spWord_lt (r w : Nat) (c : Chip) : c.spWord r w < 2 ^ 128 := by
  have hlt := leNat_lt (memRead (spAddr r w) 16 c.mem)
  rwa [memRead_length] at hlt

/-! ## Atomic operations (R258) -/

/-- An atomic operation stores its new value as 16 bytes. -/
theorem Chip.spStore_of_atomic (hread : op ≠ .read) (hwrite : op ≠ .write) :
    c.spStore r w op n be = { c with mem := memWrite (spAddr r w) (natLe 16 (atomicValue op (c.spWord r w) n)) c.mem } := by
  cases op
  case read => exact absurd rfl hread
  case write => exact absurd rfl hwrite
  all_goals rfl

theorem Chip.spWord_spStore_of_atomic (hread : op ≠ .read) (hwrite : op ≠ .write) :
    (c.spStore r w op n be).spWord r w = atomicValue op (c.spWord r w) n % 2 ^ 128 := by
  have hsame := memRead_memWrite_same (spAddr r w) (natLe 16 (atomicValue op (c.spWord r w) n)) c.mem
  have hwidth : 256 ^ 16 = 2 ^ 128 := by decide
  rw [natLe_length] at hsame
  rw [Chip.spStore_of_atomic hread hwrite, Chip.spWord, hsame, leNat_natLe, hwidth]

/-- On a word without a flaw nothing is noted: the operation answers the old value and stores. -/
theorem Chip.bankOp_of_sound (h : c.sp.bad.contains (spAddr r w) = false) :
    c.bankOp r w op n be 0 port = (.ok (c.spWord r w), c.spStore r w op n be) := by
  have hnothing : decide (0 = 2) = false ∧ decide (0 = 1) = false := by decide
  simp only [Chip.bankOp, h, hnothing, Bool.or_self, Bool.and_false, Bool.false_eq_true, if_false]

/-! ## New values (R258) -/

/-- The sum of two words in 64-bit lanes that carry nothing across. -/
def laneSum (x y : BitVec 128) : BitVec 128 :=
  (x.extractLsb' 64 64 + y.extractLsb' 64 64) ++ (x.extractLsb' 0 64 + y.extractLsb' 0 64)

theorem atomicValue_add64 (x y : BitVec 128) : atomicValue .add64 x.toNat y.toNat % 2 ^ 128 = (laneSum x y).toNat := by
  have hlow : (x.toNat + y.toNat) % 2 ^ 64 < 2 ^ 64 := Nat.mod_lt _ (Nat.two_pow_pos 64)
  have happend (a b : BitVec 64) : (a ++ b).toNat = b.toNat + a.toNat * 2 ^ 64 := by
    rw [BitVec.toNat_append, ← Nat.shiftLeft_add_eq_or_of_lt b.isLt, Nat.shiftLeft_eq, Nat.add_comm]
  simp only [laneSum, atomicValue, happend, BitVec.toNat_add, BitVec.extractLsb'_toNat, Nat.shiftRight_eq_div_pow]
  omega

theorem atomicValue_add128 (x y : BitVec 128) : atomicValue .add128 x.toNat y.toNat % 2 ^ 128 = (x + y).toNat := by
  rw [atomicValue, Nat.mod_mod, BitVec.toNat_add]

theorem atomicValue_swap (x y : BitVec 128) : atomicValue .swap x.toNat y.toNat % 2 ^ 128 = y.toNat := by
  rw [atomicValue, Nat.mod_mod, Nat.mod_eq_of_lt y.isLt]

/-- Settles O52: the operation answers the word and stores the new value in its place, which is what the row gives. -/
theorem atomicsOnOneWord : Obligations.AtomicsOnOneWord := by
  intro c r w be port n hsound old lane
  have hold : old.toNat = c.spWord r w := Nat.mod_eq_of_lt (Chip.spWord_lt r w c)
  have hrow {op : SpOp} {v : BitVec 128} (hread : op ≠ .read) (hwrite : op ≠ .write)
      (hv : atomicValue op old.toNat n.toNat % 2 ^ 128 = v.toNat) :
      ∃ d, c.bankOp r w op n.toNat be 0 port = (.ok old.toNat, d) ∧ d.spWord r w = v.toNat ∧
        ∀ a : Nat, a < spAddr r w ∨ spAddr r w + 16 ≤ a → memGet a d.mem = memGet a c.mem := by
    rw [hold] at hv ⊢
    exact ⟨_, Chip.bankOp_of_sound hsound, (Chip.spWord_spStore_of_atomic hread hwrite).trans hv,
      fun a => Chip.memGet_spStore_out⟩
  simp only [List.forall_mem_cons]
  refine ⟨?add64, ?add128, ?swap, List.forall_mem_nil _⟩
  case add64 => exact hrow (by decide) (by decide) (atomicValue_add64 old n)
  case add128 => exact hrow (by decide) (by decide) (atomicValue_add128 old n)
  case swap => exact hrow (by decide) (by decide) (atomicValue_swap old n)

end Sys2Proof.Machine
end

section
/-! PROOF. The rows of the scratchpad banks (O25), and the commands of class 0x02, opcodes 0x00 to 0x02 (O26). -/

namespace Sys2Proof.Machine

variable {c : Chip} {r b k n be v : Nat} {op : SpOp}

/-! ## Port A (R254, R256 to R258) -/

section
variable (hrun : c.rgState r = rgRun) (hlease : c.is (F.SP_PWR_STAT_LEASE r b) = false)
  (hbusy : c.is (F.SP_PWR_STAT_BUSY r b) = false)
include hrun hlease hbusy

theorem Chip.portA_of_on {flaw : Nat} (hon : c.bankState r b = bankOn) :
    c.portA r b k op n be flaw =
      let res := (c.noteAccess r b k op).accessA r b k op n be flaw
      res.2.emit (res.1.shownA r b op) := by
  simp only [Chip.portA_eq, hrun, hlease, hbusy, hon, ne_eq, not_true_eq_false, decide_false, Bool.false_and, Bool.or_self,
    Bool.false_eq_true, if_false]

/-- Bank ON, word without a flaw, no capture in progress: the request stores and shows what it read. -/
theorem Chip.portA_of_sound (hon : c.bankState r b = bankOn) (hcap : c.capHolds r (16 * k + b) = false)
    (hsound : c.sp.bad.contains (spAddr r (16 * k + b)) = false) :
    c.portA r b k op n be 0 =
      ((c.noteAccess r b k op).spStore r (16 * k + b) op n be).emit (.portA r b 0 (op.result (c.spWord r (16 * k + b)))) := by
  have hfree : (c.noteAccess r b k op).capHolds r (16 * k + b) = false := hcap
  have hop : (c.noteAccess r b k op).bankOp r (16 * k + b) op n be 0 0 =
      (.ok (c.spWord r (16 * k + b)), (c.noteAccess r b k op).spStore r (16 * k + b) op n be) := Chip.bankOp_of_sound hsound
  simp only [Chip.portA_of_on hrun hlease hbusy hon, Chip.accessA, hfree, hop, Bool.false_and, Bool.false_eq_true, if_false,
    SpRes.shownA]

theorem Chip.portA_of_not_on {flaw : Nat} (hoff : c.bankState r b ≠ bankOn) :
    c.portA r b k op n be flaw = c.emit (.portA r b 2 none) := by
  simp only [Chip.portA_eq, hrun, hlease, hbusy, decide_eq_true hoff, ne_eq, not_true_eq_false, decide_false, Bool.false_and,
    Bool.or_self, Bool.true_or, Bool.false_eq_true, if_false, if_true]

theorem Chip.portABad_of_on (hon : c.bankState r b = bankOn) : c.portABad r b = c.emit (.portA r b 3 none) := by
  simp only [Chip.portABad, hrun, hlease, hbusy, hon, ne_eq, not_true_eq_false, decide_false, Bool.false_and, Bool.or_self,
    Bool.false_eq_true, if_false]

end

/-! ## Power states (R261 to R263) -/

theorem Chip.pwrWrite_of_valid (hmodes : ∀ b < 16, bits v (2 * b + 1) (2 * b) ≠ 3) (hkeeps : c.capKeeps r (bits v 31 30) = false) :
    c.pwrWrite r v =
      (rspOk, (c.forAll banks (fun b => Chip.set (F.SP_PWR_CTL_MODE r b) (bits v (2 * b + 1) (2 * b)))).forAll banks
        (fun b => Chip.bankStart r b)) := by
  have hvalid : banks.any (fun b => bits v (2 * b + 1) (2 * b) = 3) = false :=
    List.any_eq_false.2 fun b hb => by simpa using hmodes b (List.mem_range.1 hb)
  simp only [Chip.pwrWrite, hvalid, hkeeps, Bool.false_eq_true, if_false]

/-- A bank that goes between ON and RETENTION keeps its contents. -/
theorem Chip.bankDone_to_retention (hbusy : c.is (F.SP_PWR_STAT_BUSY r b) = true) (hon : c.bankState r b = bankOn)
    (hgoal : tget 0 (16 * r + b) c.sp.goal = bankRet) :
    c.bankDone r b =
      let d := (c.set (F.SP_PWR_STAT_STATE r b) bankRet).set (F.SP_PWR_STAT_BUSY r b) 0
      (Chip.powerDone { d with sp := { d.sp with goal := tdel (16 * r + b) c.sp.goal } }).bankStart r b := by
  have hkept : ¬(bankRet = bankOff ∨ bankOn = bankOff) := by decide
  simp only [Chip.bankDone, hbusy, hon, hgoal, if_neg hkept, Bool.not_true, Bool.false_eq_true, if_false, Chip.set_sp]

/-- A bank on its way to OFF loses its contents. -/
theorem Chip.bankDone_to_off (hbusy : c.is (F.SP_PWR_STAT_BUSY r b) = true) (hgoal : tget 0 (16 * r + b) c.sp.goal = bankOff) :
    c.bankDone r b =
      let d := ((c.bankZero r b).set (F.SP_PWR_STAT_STATE r b) bankOff).set (F.SP_PWR_STAT_BUSY r b) 0
      (Chip.powerDone { d with sp := { d.sp with goal := tdel (16 * r + b) d.sp.goal } }).bankStart r b := by
  simp only [Chip.bankDone, hbusy, hgoal, Bool.not_true, Bool.false_eq_true, true_or, if_false, if_true]

/-! ## Counters and leases (R34, R264, R265) -/

theorem Chip.spCntClr_one : c.spCntClr r 1 = (c.set (F.SP_CNT_A_SP_CORR_CNT r) 0).set (F.SP_CNT_A_SP_UNCORR_CNT r) 0 := by
  have hbits : Nat.testBit 1 0 = true ∧ Nat.testBit 1 1 = false := by decide
  simp only [Chip.spCntClr, hbits, Chip.clear_cons, Chip.clear_nil, Bool.false_eq_true, if_true, if_false]

theorem Chip.leaseStart_of_on (hrun : c.rgState r = rgRun) (hon : c.bankState r b = bankOn)
    (hbusy : c.is (F.SP_PWR_STAT_BUSY r b) = false) : c.leaseStart r b = c.set (F.SP_PWR_STAT_LEASE r b) 1 := by
  simp only [Chip.leaseStart, hrun, hon, hbusy, decide_true, Bool.not_false, Bool.and_self, if_true]

theorem Chip.leaseEnd_of_unleased (h : c.is (F.SP_PWR_STAT_LEASE r b) = false) : c.leaseEnd r b = c := by
  rw [Chip.leaseEnd, h, Bool.not_false, if_pos rfl]

section
variable (hlease : c.is (F.SP_PWR_STAT_LEASE r b) = true)
include hlease

theorem Chip.leaseEnd_of_mapped (hmap : tfind (16 * r + b) c.sp.remap = none) :
    c.leaseEnd r b = c.set (F.SP_PWR_STAT_LEASE r b) 0 := by
  simp only [Chip.leaseEnd, hlease, hmap, Bool.not_true, Bool.false_eq_true, if_false, Chip.set_sp]

/-- A lease moves the rewrite point of a remapping on; at the last word the remapping is complete. -/
theorem Chip.leaseEnd_of_remapping {p : Nat} (hmap : tfind (16 * r + b) c.sp.remap = some p) :
    c.leaseEnd r b =
      let d := c.set (F.SP_PWR_STAT_LEASE r b) 0
      let k := 16 * r + b
      Chip.freeNext { d with sp := { d.sp with
        remap := if 4096 ≤ p + c.freeVal then tdel k c.sp.remap else tset k (p + c.freeVal) c.sp.remap } } := by
  simp only [Chip.leaseEnd, hlease, hmap, Bool.not_true, Bool.false_eq_true, if_false, Chip.set_sp]
  rfl

end

/-- Settles O25: each row's command is one function of the device, and its equation under the clause's premises gives the row. -/
theorem scratchpadRows : Obligations.ScratchpadRows := by
  intro s r b hs
  refine ⟨?sound, ?notOn, ?power, ?toRetention, ?toOff, ?counters, ?leaseStart, ?mapped, ?remapping, ?unleased⟩
  case sound =>
    intro k hrun hlease hon hbusy hcap hsound w noted
    have hport {op : SpOp} {n be : Nat} :=
      Chip.portA_of_sound (c := s.chip.quiet) (op := op) (n := n) (be := be) hrun hlease hbusy hon hcap hsound
    refine ⟨?read, ?write, ?add64, ?add128, ?swap, ?reserved⟩
    case read => exact exec_eq_of_runChip (exec_spARead r b k 0 s) hs hport
    case write => exact fun data be => exec_eq_of_runChip (exec_spAWrite r b k data be 0 s) hs hport
    case add64 => exact fun data => exec_eq_of_runChip (exec_spAAdd64 r b k data 0 s) hs hport
    case add128 => exact fun data => exec_eq_of_runChip (exec_spAAdd128 r b k data 0 s) hs hport
    case swap => exact fun data => exec_eq_of_runChip (exec_spASwap r b k data 0 s) hs hport
    case reserved =>
      exact exec_eq_of_runChip (exec_spAReservedOp r b s) hs (Chip.portABad_of_on (c := s.chip.quiet) hrun hlease hbusy hon)
  case notOn =>
    intro k hrun hlease hbusy hoff
    have hport {op : SpOp} {n be flaw : Nat} :=
      Chip.portA_of_not_on (c := s.chip.quiet) (k := k.toNat) (op := op) (n := n) (be := be) (flaw := flaw) hrun hlease hbusy hoff
    refine ⟨fun flaw => ?read, fun data be flaw => ?write⟩
    case read => exact exec_eq_of_runChip (exec_spARead r b k flaw s) hs hport
    case write => exact exec_eq_of_runChip (exec_spAWrite r b k data be flaw s) hs hport
  case power =>
    intro v hmodes hkeeps
    refine exec_eq_of_runChip (exec_spPwrCtlWrite r v s) hs ?_
    rw [Chip.pwrWrite_of_valid (c := s.chip.quiet) hmodes hkeeps, answerWrite]
  case toRetention =>
    exact fun hbusy hon hgoal => exec_eq_of_runChip (exec_bankTransitionDone r b s) hs
      (Chip.bankDone_to_retention (c := s.chip.quiet) hbusy hon hgoal)
  case toOff =>
    exact fun hbusy hgoal => exec_eq_of_runChip (exec_bankTransitionDone r b s) hs
      (Chip.bankDone_to_off (c := s.chip.quiet) hbusy hgoal)
  case counters =>
    exact exec_eq_after (exec_spCntClr r 1 s) hs fun c => congrArg (Chip.answer rspOk 0) Chip.spCntClr_one
  case leaseStart =>
    exact fun hrun hon hbusy => exec_eq_of_runChip (exec_leaseStart r b s) hs
      (Chip.leaseStart_of_on (c := s.chip.quiet) hrun hon hbusy)
  case mapped =>
    exact fun hlease hmap => exec_eq_of_runChip (exec_leaseEnd r b s) hs
      (Chip.leaseEnd_of_mapped (c := s.chip.quiet) hlease hmap)
  case remapping =>
    exact fun p hlease hmap => exec_eq_of_runChip (exec_leaseEnd r b s) hs
      (Chip.leaseEnd_of_remapping (c := s.chip.quiet) hlease hmap)
  case unleased =>
    exact fun hlease => exec_eq_of_runChip (exec_leaseEnd r b s) hs (Chip.leaseEnd_of_unleased (c := s.chip.quiet) hlease)

/-! ## Commands (R262, R267) -/

section
variable {id : Nat} {pl : List Byte}

theorem cmdSpStatus_run_of_used (hused : c.rgnRefusal (pf pl 0 4) = none) :
    cmdSpStatus.run id pl c =
      c.ok id ([0x00, 0x08, 0x10, 0x18, 0x20].flatMap (fun o => natLe 8 (c.regWord (spReg (pf pl 0 4) o)))) := by
  simp only [cmdSpStatus, Cmd.plain, hused]

theorem cmdSpColmapRead_run_of_used (hused : c.rgnRefusal (pf pl 0 4) = none) :
    cmdSpColmapRead.run id pl c =
      c.ok id (banks.flatMap (fun b => natLe 8 (tget 0 (16 * pf pl 0 4 + b) c.sp.cols))) := by
  simp only [cmdSpColmapRead, Cmd.plain, hused]

/-- The banks that a `CH_SP_POWER` names. -/
def powerBanks (pl : List Byte) : List Nat := banks.filter (fun b => (pf pl 2 2).testBit b)

/-- Where no named bank is retired and no capture keeps bank 15 ON, the banks start towards the mode and the command waits for them. -/
theorem cmdSpPower_run_of_used (hused : c.rgnRefusal (pb pl 0) = none)
    (hbanks : ∀ b ∈ banks, (pf pl 2 2).testBit b = true → c.bankState (pb pl 0) b ≠ bankGone)
    (hkeeps : c.capKeeps (pb pl 0) (pb pl 1) = false) :
    cmdSpPower.run id pl c =
      let d := ((c.interim id ST_ACCEPTED dtNone []).forAll (powerBanks pl)
        (fun b => Chip.set (F.SP_PWR_CTL_MODE (pb pl 0) b) (pb pl 1))).forAll (powerBanks pl) (fun b => Chip.bankStart (pb pl 0) b)
      Chip.powerDone { d with sp := { d.sp with waits := d.sp.waits ++ [(id, pb pl 0, pb pl 1, powerBanks pl)] } } := by
  have hnone : (powerBanks pl).any (fun b => c.bankState (pb pl 0) b = bankGone) = false := by
    refine List.any_eq_false.2 fun b hb => ?_
    obtain ⟨hbank, hbit⟩ := List.mem_filter.1 hb
    simpa using hbanks b hbank hbit
  unfold powerBanks at hnone ⊢
  simp only [cmdSpPower, Cmd.plain, hused, hnone, hkeeps, Bool.and_false, Bool.false_eq_true, if_false]

end

/-- Settles O26: the packet is accepted, so the command starts in its slot, and its start is what the row says. -/
theorem scratchpadCommandRows : Obligations.ScratchpadCommandRows := by
  intro s p
  refine ⟨?status, ?power, ?colmapRead⟩
  case status =>
    rintro r h rfl hused
    exact exec_eq_of_accepts (exec_chSpStatus p s) h (cmdSpStatus_run_of_used (c := s.chip.quiet.slotFor cmdSpStatus p) hused)
  case power =>
    rintro r h rfl hused hbanks hkeeps
    exact exec_eq_of_accepts (exec_chSpPower p s) h
      (cmdSpPower_run_of_used (c := s.chip.quiet.slotFor cmdSpPower p) hused hbanks hkeeps)
  case colmapRead =>
    rintro r h rfl hused
    exact exec_eq_of_accepts (exec_chSpColmapRead p s) h
      (cmdSpColmapRead_run_of_used (c := s.chip.quiet.slotFor cmdSpColmapRead p) hused)

end Sys2Proof.Machine
end

section
/-! PROOF. The rows of the DRAM controller (O27): what each does under its premises. -/

namespace Sys2Proof.Machine

variable {c : Chip} {s : State} {perr : Bool} {a : Nat} {busy : List (BitVec 8)} {w : DrWrite} {q : DrRead}

/-! ## What a command on the DRAM bus and a show of the queue levels leave -/

@[simp] theorem Chip.drCmd_get (cmd bank row port : Nat) (perr : Bool) (f : Fld) (c : Chip) :
    (c.drCmd cmd bank row port perr).get f = c.get f := rfl

theorem Chip.drPrecharge_freq (a : Nat) (perr : Bool) (c : Chip) : (c.drPrecharge a perr).dr.freq = c.dr.freq := rfl

theorem Chip.respond_dr (ni idx ep : Nat) (r : Rsp) (word : Nat) (data : List Nat) (src : Nat) (c : Chip) :
    (c.respond ni idx ep r word data src).dr = c.dr := rfl

theorem Chip.drLevels_dr (c : Chip) : c.drLevels.dr = c.dr := by
  unfold Chip.drLevels
  dsimp only
  split
  · rfl
  · split <;> rfl

theorem Chip.drParity_false (a : Nat) (c : Chip) : c.drParity false a = c := rfl

/-! ## The choice of the next row access (R276) -/

/-- One candidate is chosen whether its bank is busy or not. -/
theorem drIdle_singleton {α : Type} (busy : List (BitVec 8)) (addr : α → Nat) (x : α) : drIdle busy addr [x] = some x := by
  unfold drIdle
  rw [List.find?_singleton]
  split <;> rfl

/-- The one queued read is chosen by any step of R276 that it is a candidate of. -/
theorem drIdle_filter_singleton {α : Type} {busy : List (BitVec 8)} {addr : α → Nat} {x : α} {p : α → Bool}
    (h : [x].filter p ≠ []) : drIdle busy addr ([x].filter p) = some x := by
  have hx : p x = true := by
    cases hx : p x with
    | true => rfl
    | false => exact absurd (List.filter_cons_of_neg (Bool.eq_false_iff.1 hx)) h
  rw [List.filter_cons_of_pos hx, List.filter_nil, drIdle_singleton]

/-- Command slots go to queued requests in the order of R276: no refresh is due first, and no thaw or frequency change is under way. -/
structure Chip.ServesInOrder (c : Chip) : Prop where
  ready : c.drState = drReady
  noCatchup : c.is F.DR_STAT_CATCHUP = false
  owed : c.get F.DR_STAT_OWED < c.drP
  noThaw : c.dr.thaw = none
  noChange : c.dr.freq = none

theorem Chip.not_refresh_first (h : c.get F.DR_STAT_OWED < c.drP) : decide (c.drP ≤ c.get F.DR_STAT_OWED) = false :=
  decide_eq_false (Nat.not_le.2 h)

theorem Chip.drChoose_of_write (h : c.ServesInOrder) (hrq : c.dr.rq = []) (hwq : c.dr.wq = [w]) :
    c.drChoose busy = some (.write w) := by
  simp only [Chip.drChoose, h.ready, h.noCatchup, Chip.not_refresh_first h.owed, h.noThaw, h.noChange, hrq, hwq, drIdle_singleton,
    List.filter_nil, Option.any_none, Option.map_some, ne_eq, not_true_eq_false, decide_false, Bool.or_self, Bool.false_eq_true,
    if_false, ite_self]

theorem Chip.drChoose_of_read (h : c.ServesInOrder) (hrq : c.dr.rq = [q]) (hdrain : c.is F.DR_STAT_DRAINING = false) :
    c.drChoose busy = some (.read q) := by
  simp only [Chip.drChoose, h.ready, h.noCatchup, Chip.not_refresh_first h.owed, h.noThaw, h.noChange, hrq, hdrain, drIdle_singleton,
    Option.any_none, Option.map_some, ne_eq, not_true_eq_false, decide_false, Bool.or_self, Bool.false_eq_true, if_false]
  split
  next hurgent => rw [drIdle_filter_singleton hurgent, Option.map_some]
  next =>
    split
    next hfirst => rw [drIdle_filter_singleton hfirst, Option.map_some]
    next => rw [if_pos (List.cons_ne_nil q [])]

/-! ## One activation (R272, R275, R286) -/

theorem Chip.drTogether_of_write (hthaw : c.dr.thaw = none) (hrq : c.dr.rq = []) (hwq : c.dr.wq = [w]) :
    c.drTogether (.write w) = [.write w] := by
  simp [Chip.drTogether, DrPick.addr, hthaw, hrq, hwq]

theorem Chip.drTogether_of_read (hthaw : c.dr.thaw = none) (hfreq : c.dr.freq = none) (hwq : c.dr.wq = []) (hrq : c.dr.rq = [q])
    (hdrain : c.is F.DR_STAT_DRAINING = false) : c.drTogether (.read q) = [.read q] := by
  simp [Chip.drTogether, Chip.drReadable, DrPick.addr, hthaw, hfreq, hrq, hwq, hdrain]

/-- Where no granule is flawed, a row access that serves one request is its ACTIVATE, the request, and its PRECHARGE. -/
theorem Chip.drRowServe_of_sound (p : DrPick) (hbad : c.dr.bad = []) (hstate : c.drState ≠ drFrozen) :
    c.drRowServe a none { corr := [], bad := [], synd := 0 } [p] = ((c.drActivate a false).drServe 0 p).drPrecharge a false := by
  have hsame : { c with dr := { c.dr with bad := [] } } = c := by rw [← hbad]
  have hopen : (c.drActivate a false).drState ≠ drFrozen := hstate
  simp [Chip.drRowServe, Chip.drServeAll, Chip.drCorrect, Chip.drParity_false, hbad, hsame, hopen]

/-- Where no granule is known to be uncorrectable, none is found among those that a request reads. -/
theorem find_flawed_nil (gs : List Nat) : gs.find? (fun g => List.contains [] g) = none :=
  List.find?_eq_none.2 fun _ _ hg => Bool.false_ne_true hg

theorem Chip.drServe_write_of_sound {synd : Nat} (hrowOr : w.rowOr = false) (hbad : c.dr.bad = []) (hwq : c.dr.wq = [w])
    (hthaw : c.dr.thaw = none) :
    c.drServe synd (.write w) =
      let d := c.drTransfer 3 w.addr false
      Chip.drLevels { d with dr := { d.dr with wq := [], bad := [], thaw := none } } := by
  have hbad' : (c.drTransfer 3 w.addr false).dr.bad = [] := hbad
  have hwq' : (c.drTransfer 3 w.addr false).dr.wq = [w] := hwq
  have hthaw' : (c.drTransfer 3 w.addr false).dr.thaw = none := hthaw
  simp only [Chip.drServe, hrowOr, Bool.false_eq_true, if_false, hbad', hwq', hthaw', find_flawed_nil,
    List.erase_cons_head, List.filter_nil, thawStep, Option.map_none]

theorem Chip.drServe_read_of_sound {synd ni idx ep : Nat} (hnet : q.net = some (ni, idx, ep)) (hbad : c.dr.bad = [])
    (hrq : c.dr.rq = [q]) (hthaw : c.dr.thaw = none) :
    c.drServe synd (.read q) =
      let d := c.drTransfer 2 q.addr false
      Chip.respond ni idx ep rspOk 0 q.data (niOf q.addr)
        (Chip.drLevels { d with dr := { d.dr with rq := [], bad := [], thaw := none } }) := by
  have hbad' : (c.drTransfer 2 q.addr false).dr.bad = [] := hbad
  have hrq' : (c.drTransfer 2 q.addr false).dr.rq = [q] := hrq
  have hthaw' : (c.drTransfer 2 q.addr false).dr.thaw = none := hthaw
  simp only [Chip.drServe, hnet, Chip.drLevels_dr, hbad', hrq', hthaw', find_flawed_nil, List.erase_cons_head, thawStep, Option.map_none]

theorem Chip.drSelfEntry_of_no_change (h : c.dr.freq = none) : c.drSelfEntry = c := by
  unfold Chip.drSelfEntry
  rw [h]

/-! ## The row access of a command slot (R276, R286) -/

theorem Chip.drRow_of_access {parity : Option DrParity} {f : GranFlaws}
    (h : parity ∈ [none, some DrParity.activate, some .transfer, some .precharge]) :
    c.drRow busy parity f = c.drRowNext busy parity f := by
  simp only [List.mem_cons, List.not_mem_nil, or_false] at h
  rcases h with rfl | rfl | rfl | rfl <;> rfl

theorem Chip.drRowNext_of_pick {parity : Option DrParity} {f : GranFlaws} {p : DrPick} (h : c.drChoose busy = some p) :
    c.drRowNext busy parity f = (c.drRowServe p.addr parity f (c.drTogether p)).drSelfEntry := by
  unfold Chip.drRowNext
  rw [h]

theorem Chip.drRowNext_of_idle {parity : Option DrParity} {f : GranFlaws} (h : c.drChoose busy = none) :
    c.drRowNext busy parity f = c := by
  unfold Chip.drRowNext
  rw [h]

/-- The one queued write has its ACTIVATE, WRITE and PRECHARGE, and leaves the queue. -/
theorem Chip.drRow_of_write (h : c.ServesInOrder) (hbad : c.dr.bad = []) (hrq : c.dr.rq = []) (hwq : c.dr.wq = [w])
    (hrowOr : w.rowOr = false) :
    c.drRow busy none { corr := [], bad := [], synd := 0 } =
      let d := (c.drActivate w.addr false).drTransfer 3 w.addr false
      (Chip.drLevels { d with dr := { d.dr with wq := [], bad := [], thaw := none } }).drPrecharge w.addr false := by
  have hopen : c.drState ≠ drFrozen := by simp [h.ready, drReady, drFrozen]
  have hserve := Chip.drServe_write_of_sound (c := c.drActivate w.addr false) (synd := 0) hrowOr hbad hwq h.noThaw
  rw [Chip.drRow_of_access (List.mem_cons_self ..),
    Chip.drRowNext_of_pick (Chip.drChoose_of_write h hrq hwq),
    Chip.drTogether_of_write h.noThaw hrq hwq, Chip.drRowServe_of_sound _ hbad hopen, DrPick.addr, hserve]
  refine Chip.drSelfEntry_of_no_change ?_
  rw [Chip.drPrecharge_freq, Chip.drLevels_dr]
  exact h.noChange

/-- The one queued read has its ACTIVATE, READ and PRECHARGE, and is answered. -/
theorem Chip.drRow_of_read {ni idx ep : Nat} (h : c.ServesInOrder) (hbad : c.dr.bad = []) (hrq : c.dr.rq = [q])
    (hwq : c.dr.wq = []) (hdrain : c.is F.DR_STAT_DRAINING = false) (hnet : q.net = some (ni, idx, ep)) :
    c.drRow busy none { corr := [], bad := [], synd := 0 } =
      let d := (c.drActivate q.addr false).drTransfer 2 q.addr false
      let e := Chip.drLevels { d with dr := { d.dr with rq := [], bad := [], thaw := none } }
      (e.respond ni idx ep rspOk 0 q.data (niOf q.addr)).drPrecharge q.addr false := by
  have hopen : c.drState ≠ drFrozen := by simp [h.ready, drReady, drFrozen]
  have hserve := Chip.drServe_read_of_sound (c := c.drActivate q.addr false) (synd := 0) hnet hbad hrq h.noThaw
  rw [Chip.drRow_of_access (List.mem_cons_self ..),
    Chip.drRowNext_of_pick (Chip.drChoose_of_read h hrq hdrain),
    Chip.drTogether_of_read h.noThaw h.noChange hwq hrq hdrain, Chip.drRowServe_of_sound _ hbad hopen, DrPick.addr, hserve]
  refine Chip.drSelfEntry_of_no_change ?_
  rw [Chip.drPrecharge_freq, Chip.respond_dr, Chip.drLevels_dr]
  exact h.noChange

/-! ## Acceptance (R274, R275, R287) -/

theorem Chip.drAccept_rowRead_of_room {rt : Bool} {a : BitVec 33} (haccepted : c.drRefusal (rowBase a.toNat) = none)
    (hroom : c.dr.rq.length < 256) :
    c.drAccept (.rowRead rt a perr) = (c.drAsk none rt (rowBase a.toNat) 1024).drWakeRank (rowBase a.toNat) perr := by
  simp [Chip.drAccept, haccepted, Nat.not_le.2 hroom]

/-- A frozen controller refuses every address, if nothing refuses it before. -/
theorem Chip.drRefusal_of_frozen (a : Nat) (h : c.drState = drFrozen) : (c.drRefusal a).isSome = true := by
  unfold Chip.drRefusal
  rw [if_pos h]
  split
  · rfl
  · split <;> rfl

theorem Chip.drAccept_rowRead_of_frozen {rt : Bool} {a : BitVec 33} (h : c.drState = drFrozen) :
    c.drAccept (.rowRead rt a perr) = c := by
  simp [Chip.drAccept, Chip.drRefusal_of_frozen _ h]

theorem Chip.drAccept_net_of_taken {ni : Fin 288} {idx : Fin 512} {q : NReq} {d : Chip} (hflight : c.inFlight ni idx = some q)
    (hfirst : c.firstOf q = true) (hplace : placeOf q.addr = .dram) (hkind : q.kind ≤ 1) (hopen : c.domState domDram = 0)
    (hroute : c.routeOk q.ni (niOf q.addr) = true) (htake : c.drTake q perr = some d) :
    c.drAccept (.net ni idx perr) = d := by
  simp only [Chip.drAccept, hflight, hfirst, hplace, hkind, hopen, hroute, htake, decide_true, Bool.and_self, if_true,
    Option.getD_some]

/-! ## Refresh and power-down (R279 to R282) -/

theorem Chip.drRefreshed_of_owed (howed : c.get F.DR_STAT_OWED ≠ 0) (hmax : c.get F.DR_STAT_OWED ≤ 8)
    (hmay : c.drMayRefresh = true) :
    c.drRefreshed perr =
      let d := ((c.set F.DR_STAT_OWED (c.get F.DR_STAT_OWED - 1)).set F.DR_STAT_PD 0).drCmd 5 0 0 0 perr
      (if c.get F.DR_STAT_OWED = 1 then d.set F.DR_STAT_CATCHUP 0 else d).drParity perr 0 := by
  have hleft : (((c.set F.DR_STAT_OWED (c.get F.DR_STAT_OWED - 1)).set F.DR_STAT_PD 0).drCmd 5 0 0 0 perr).get F.DR_STAT_OWED =
      c.get F.DR_STAT_OWED - 1 := by
    rw [Chip.drCmd_get, Chip.get_set_ne _ _ (by decide), Chip.get_set_same]
    exact Nat.mod_eq_of_lt (Nat.lt_of_le_of_lt (Nat.sub_le_sub_right hmax 1) (by decide))
  have hlast : c.get F.DR_STAT_OWED - 1 = 0 ↔ c.get F.DR_STAT_OWED = 1 := by omega
  simp only [Chip.drRefreshed, howed, hmay, hleft, hlast, decide_false, Bool.not_true, Bool.or_self, Bool.false_eq_true, if_false]

/-- Below the allowance, waiting requests put a refresh off. -/
theorem Chip.drRefreshed_of_postponed (hcatch : c.is F.DR_STAT_CATCHUP = false) (howed : c.get F.DR_STAT_OWED < c.drP)
    (hready : c.drState = drReady) (hqueue : c.dr.rq ≠ [] ∨ c.dr.wq ≠ []) : c.drRefreshed perr = c := by
  have hwaits : (c.dr.rq.isEmpty && c.dr.wq.isEmpty) = false :=
    Bool.and_eq_false_iff.2 (hqueue.imp List.isEmpty_eq_false_iff.2 List.isEmpty_eq_false_iff.2)
  have hmay : c.drMayRefresh = false := by
    simp only [Chip.drMayRefresh, hcatch, Chip.not_refresh_first howed, hwaits, hready, ne_eq, not_true_eq_false, decide_false, Bool.or_self]
  simp only [Chip.drRefreshed, hmay, Bool.not_false, Bool.or_true, if_true]

theorem Chip.drPowerDown_of_idle {rank : Nat} (htimer : c.get F.DR_CTL_PD_TIMER ≠ 0) (hready : c.drState = drReady)
    (hreads : ∀ q ∈ c.dr.rq, drBank q.addr / 64 ≠ rank) (hwrites : ∀ w ∈ c.dr.wq, drBank w.addr / 64 ≠ rank)
    (hup : (c.get F.DR_STAT_PD).testBit rank = false) :
    c.drPowerDown rank perr =
      ((c.set F.DR_STAT_PD (setBit (c.get F.DR_STAT_PD) rank)).drCmd 6 (64 * rank) 0 0 perr).drParity perr (65536 * rank) := by
  have hrq : c.dr.rq.any (fun q => drBank q.addr / 64 = rank) = false := by simpa using hreads
  have hwq : c.dr.wq.any (fun w => drBank w.addr / 64 = rank) = false := by simpa using hwrites
  simp only [Chip.drPowerDown, htimer, hready, hrq, hwq, hup, ne_eq, not_true_eq_false, decide_false, Bool.or_self,
    Bool.false_eq_true, if_false]

/-! ## The end of a frequency change's self-refresh, the end of a thaw, and the counters (R34, R285, R288) -/

theorem Chip.drRelocked_of_self {id fr : Nat} (hfreq : c.dr.freq = some (id, fr, false)) (hself : c.drState = drSelf) :
    c.drRelocked perr = (((c.set F.DR_CTL_FREQ fr).drCmd 9 0 0 0 perr).drTrain 1 []).drParity perr 0 := by
  simp only [Chip.drRelocked, hfreq, hself, if_true]

/-- With no request held, a thaw only ends. -/
theorem Chip.thawDone_of_served {id : Nat} {flush : Bool} (hthaw : c.dr.thaw = some (id, flush, 0, 0))
    (hopen : c.drState ≠ drFrozen) :
    c.thawDone =
      let d := if flush then c.drLevels else c
      Chip.ok id [] { d with dr := { d.dr with thaw := none } } := by
  have hheld : c.drHeld [] = c := rfl
  unfold Chip.thawDone
  split
  case h_1 hnothaw => exact absurd (hthaw.symm.trans hnothaw) (Option.some_ne_none _)
  case h_2 heq =>
    cases hthaw.symm.trans heq
    cases flush <;>
      simp only [List.take_zero, List.drop_zero, List.map_nil, List.append_nil, ite_self, hheld, Chip.forAll_nil, hopen,
        Bool.not_true, Bool.not_false, Bool.false_eq_true, if_false, if_true]

theorem Chip.drCntClr_three :
    c.drCntClr 3 =
      (((c.set F.DR_CNT_A_CORR_CNT 0).set F.DR_CNT_A_FREEZES 0).set F.DR_CNT_B_CATCHUP_CNT 0).set F.DR_CNT_B_TRAIN_CNT 0 := by
  have hbits : Nat.testBit 3 0 = true ∧ Nat.testBit 3 1 = true := by decide
  simp only [Chip.drCntClr, hbits, Chip.clear_cons, Chip.clear_nil, if_true]

/-- A command of the controller has its own row, and with a parity error it stands in the place of a row access (R286). -/
theorem exec_of_mem_rows {i i₁ i₂ : Instr} {t : Bool → Chip → Chip} (h : (i, perr) ∈ [(i₁, false), (i₂, true)])
    (h₁ : exec i₁ s = runChip (t false) s) (h₂ : exec i₂ s = runChip (t true) s) : exec i s = runChip (t perr) s := by
  simp only [List.mem_cons, List.not_mem_nil, or_false, Prod.mk.injEq] at h
  rcases h with ⟨rfl, rfl⟩ | ⟨rfl, rfl⟩
  · exact h₁
  · exact h₂

/-- Settles O27: each row's command runs one function of the device, and its equation under the clause's premises gives the row. -/
theorem dramRows : Obligations.DramRows := by
  intro s hs
  refine ⟨?next, ?write, ?read, ?rowRead, ?rowOr, ?frozen, ?net, ?due, ?refreshed, ?postponed, ?powerDown, ?relocked, ?thaw, ?counters⟩
  case next =>
    intro busy f parity hparity
    refine ⟨fun p hp => ?pick, fun hp => ?idle⟩
    case pick =>
      exact exec_eq_of_runChip (exec_dramRowAccessDone busy parity f s) hs
        ((Chip.drRow_of_access hparity).trans (Chip.drRowNext_of_pick hp))
    case idle =>
      exact exec_eq_of_runChip (exec_dramRowAccessDone busy parity f s) hs
        ((Chip.drRow_of_access hparity).trans (Chip.drRowNext_of_idle hp))
  case write =>
    exact fun busy w hready hcatch howed hthaw hfreq hrq hwq hrowOr hbad =>
      exec_eq_of_runChip (exec_dramRowAccessDone busy none _ s) hs
        (Chip.drRow_of_write (c := s.chip.quiet) ⟨hready, hcatch, howed, hthaw, hfreq⟩ hbad hrq hwq hrowOr)
  case read =>
    exact fun busy q ni idx ep hready hcatch howed hthaw hfreq hrq hwq hdrain hnet hbad =>
      exec_eq_of_runChip (exec_dramRowAccessDone busy none _ s) hs
        (Chip.drRow_of_read (c := s.chip.quiet) ⟨hready, hcatch, howed, hthaw, hfreq⟩ hbad hrq hwq hdrain hnet)
  case rowRead =>
    exact fun rt a perr haccepted hroom => exec_eq_of_runChip (exec_dramRequestAccept (.rowRead rt a perr) s) hs
      (Chip.drAccept_rowRead_of_room haccepted hroom)
  case rowOr =>
    exact fun a perr => exec_eq_after (exec_dramRequestAccept (.rowOr a perr) s) hs fun c => rfl
  case frozen =>
    exact fun rt a perr hfrozen => exec_eq_of_runChip (exec_dramRequestAccept (.rowRead rt a perr) s) hs
      (Chip.drAccept_rowRead_of_frozen (c := s.chip.quiet) hfrozen)
  case net =>
    exact fun ni idx perr q d hflight hfirst hplace hkind hopen hroute htake =>
      exec_eq_of_runChip (exec_dramRequestAccept (.net ni idx perr) s) hs
        (Chip.drAccept_net_of_taken hflight hfirst hplace hkind hopen hroute htake)
  case due =>
    exact exec_eq_after (exec_refreshDue s) hs fun c => rfl
  case refreshed =>
    exact fun busy f i perr hi howed hmax hmay =>
      exec_eq_of_runChip (exec_of_mem_rows (t := Chip.drRefreshed) hi (exec_refreshDone s)
        (exec_dramRowAccessDone busy (some .refresh) f s)) hs
        (Chip.drRefreshed_of_owed (c := s.chip.quiet) howed hmax hmay)
  case postponed =>
    exact fun hcatch howed hready hqueue => exec_eq_of_runChip (exec_refreshDone s) hs
      (Chip.drRefreshed_of_postponed (c := s.chip.quiet) hcatch howed hready hqueue)
  case powerDown =>
    exact fun busy f k i perr hi htimer hready hreads hwrites hup =>
      exec_eq_of_runChip (exec_of_mem_rows (t := Chip.drPowerDown k) hi (exec_rankPowerDown k s)
        (exec_dramRowAccessDone busy (some (.powerDown k)) f s)) hs
        (Chip.drPowerDown_of_idle (c := s.chip.quiet) htimer hready hreads hwrites hup)
  case relocked =>
    exact fun busy f i perr id fr hi hfreq hself =>
      exec_eq_of_runChip (exec_of_mem_rows (t := Chip.drRelocked) hi (exec_freqRelocked s)
        (exec_dramRowAccessDone busy (some .selfExit) f s)) hs
        (Chip.drRelocked_of_self (c := s.chip.quiet) hfreq hself)
  case thaw =>
    exact fun id flush hthaw hopen => exec_eq_of_runChip (exec_thawDone s) hs
      (Chip.thawDone_of_served (c := s.chip.quiet) hthaw hopen)
  case counters =>
    exact exec_eq_after (exec_drCntClr 3 s) hs fun c => congrArg (Chip.answer rspOk 0) Chip.drCntClr_three

end Sys2Proof.Machine
end

section
/-! PROOF. The commands of class 0x02, opcodes 0x10 to 0x14 (O28): what each does from its slot. -/

namespace Sys2Proof.Machine

variable {c : Chip} {id : Nat} {pl : List Byte}

/-! ## Frequency and training (R285) -/

section
variable (hopen : c.drState ≠ drFrozen) (hfreq : c.dr.freq = none)
include hopen hfreq

theorem cmdDrFreq_run_of_change (hnew : pf pl 0 4 ≠ c.get F.DR_CTL_FREQ) (htrain : c.dr.train = none) :
    cmdDrFreq.run id pl c =
      let d := (c.interim id ST_ACCEPTED dtNone []).set F.DR_STAT_FREQ_PENDING 1
      Chip.drSelfEntry { d with dr := { d.dr with freq := some (id, pf pl 0 4, false) } } := by
  simp only [cmdDrFreq, Cmd.plain, hopen, hfreq, hnew, htrain, ne_eq, not_true_eq_false, Option.isSome_none, Bool.false_eq_true,
    if_false, Chip.set_dr]

theorem cmdDrFreq_run_of_same (hsame : pf pl 0 4 = c.get F.DR_CTL_FREQ) : cmdDrFreq.run id pl c = c.ok id [] := by
  simp only [cmdDrFreq, Cmd.plain, hopen, hfreq, hsame, ne_eq, not_true_eq_false, if_false, if_true]

theorem cmdDrTrain_run_of_idle (htrain : c.dr.train = none) :
    cmdDrTrain.run id pl c = (c.interim id ST_ACCEPTED dtNone []).drTrain 2 [id] := by
  simp only [cmdDrTrain, Cmd.plain, hopen, hfreq, htrain, ne_eq, not_true_eq_false, if_false]

end

/-! ## The thaw (R288) -/

/-- After a freeze that no granule caused, a thaw loses no data. -/
theorem cmdDrThaw_run_of_no_data (hfrozen : c.drState = drFrozen) (hcause : c.get F.DR_FRZ_STAT_CAUSE ≠ 1) :
    cmdDrThaw.run id pl c =
      let d := (c.interim id ST_ACCEPTED dtNone []).setSlot id (fun (k : Slot) => { k with noStop := true })
      let d := (((d.set F.DR_FRZ_SYND_LOST 0).set F.DR_STAT_STATE drReady).set F.DR_FRZ_STAT_FROZEN 0).raise EV_DR_THAWED (pf pl 0 4)
      { d with dr := { d.dr with thaw := some (id, decide (pb pl 0 = 1), d.dr.wq.length, d.dr.rq.length) } } := by
  have hrf : ((c.interim id ST_ACCEPTED dtNone []).setSlot id (fun (k : Slot) => { k with noStop := true })).rf = c.rf :=
    Chip.interim_rf ..
  have hdata := mt (Chip.get_of_rf F.DR_FRZ_STAT_CAUSE hrf).symm.trans hcause
  simp only [cmdDrThaw, Cmd.plain, hfrozen, hdata, Chip.forAll_nil, ne_eq, not_true_eq_false, decide_false, Bool.false_eq_true, if_false,
    List.length_nil, Nat.zero_mul, Nat.add_zero]

/-- Settles O28: the packet is accepted, so the command starts in its slot, and its start is what the row says. -/
theorem dramCommandRows : Obligations.DramCommandRows := by
  intro s p
  refine ⟨?status, ?change, ?same, ?train, ?snapshot, ?thaw⟩
  case status => exact fun h => exec_eq_of_accepts (exec_chDrStatus p s) h rfl
  case change =>
    rintro fr h rfl hopen hfreq hnew htrain
    exact exec_eq_of_accepts (exec_chDrFreq p s) h
      (cmdDrFreq_run_of_change (c := s.chip.quiet.slotFor cmdDrFreq p) hopen hfreq hnew htrain)
  case same =>
    exact fun h hsame hopen hfreq => exec_eq_of_accepts (exec_chDrFreq p s) h
      (cmdDrFreq_run_of_same (c := s.chip.quiet.slotFor cmdDrFreq p) hopen hfreq hsame)
  case train =>
    exact fun h hopen hfreq htrain => exec_eq_of_accepts (exec_chDrTrain p s) h
      (cmdDrTrain_run_of_idle (c := s.chip.quiet.slotFor cmdDrTrain p) hopen hfreq htrain)
  case snapshot => exact fun h => exec_eq_of_accepts (exec_chDrSnapshot p s) h rfl
  case thaw =>
    exact fun h hfrozen hcause => exec_eq_of_accepts (exec_chDrThaw p s) h
      (cmdDrThaw_run_of_no_data (c := s.chip.quiet.slotFor cmdDrThaw p) hfrozen hcause)

end Sys2Proof.Machine
end

section
/-! PROOF. The end of a DRAM training, the rows of thermal control, and the commands of class 0x08 (O29). -/

namespace Sys2Proof.Machine

variable {c : Chip} {s : State} {i : Instr} {t : Chip → Chip} {id : Nat} {pl : List Byte}

/-! ## The end of a training (R283) -/

/-- A training that was asked for ends as itself, not as the one of BOOT. -/
theorem Chip.trainEnd_of_training {ok : Bool} {cause : Nat} {ids : List Nat} (htrain : c.dr.train = some (cause, ids)) :
    c.trainEnd ok = c.drTrained ok [c.dramMax 1, c.dramMax 2] := by
  simp only [Chip.trainEnd, htrain, Option.isNone_some, Bool.and_false, Bool.false_eq_true, if_false]

theorem Chip.drTrained_of_fail {temps : List Int} {cause : Nat} {ids : List Nat} (htrain : c.dr.train = some (cause, ids))
    (hstate : c.drState = drTraining) : c.drTrained false temps = c.drFreeze 3 false 0 0 := by
  simp only [Chip.drTrained, htrain, hstate, ne_eq, not_true_eq_false, Bool.not_false, if_false, if_true]

/-- Outside a frequency change, a training that succeeds makes the controller READY and ends the commands that wait for it. -/
theorem Chip.drTrained_of_success {temps : List Int} {cause : Nat} {ids : List Nat} (htrain : c.dr.train = some (cause, ids))
    (hstate : c.drState = drTraining) (hfreq : c.dr.freq = none) :
    c.drTrained true temps =
      let d : Chip := { c with dr := { c.dr with train := none } }
      let d := (Chip.set F.DR_STAT_RETRAIN_DUE 0
        { d.inc F.DR_CNT_B_TRAIN_CNT with dr := { d.dr with temps := temps } }).set F.DR_STAT_STATE drReady
      (d.raise EV_DR_TRAINED (d.get F.DR_CTL_FREQ + cause * 4)).endAll ids ST_OK dtNone := by
  unfold Chip.drTrained
  split
  case h_1 hnone => exact absurd (htrain.symm.trans hnone) (Option.some_ne_none _)
  case h_2 heq =>
    cases htrain.symm.trans heq
    simp only [hstate, hfreq, Chip.set_dr, ne_eq, not_true_eq_false, Bool.not_true, Bool.false_eq_true, if_false]

/-! ## The rows of BOOT to SAFE (R361 to R369) -/

/-- A row that acts from BOOT to SAFE acts in every awake device. -/
theorem exec_eq_of_running
    (hi : exec i s = runChip (fun c => if decide (stBoot ≤ c.dstate) && decide (c.dstate ≤ stSafe) then t c else c) s)
    (h : s.chip.awake = true) : exec i s = .next (s.after t) := by
  obtain ⟨hlo, hhi⟩ := Chip.dstate_of_awake (c := s.chip.quiet) h
  refine exec_eq_of_runChip hi h (if_pos ?_)
  rw [decide_eq_true hlo, decide_eq_true hhi, Bool.and_self]

/-! ## Commands (R362, R368, R374) -/

theorem cmdThSubst_run_of_out (hout : c.sensorOut (pb pl 0) = true)
    (hest : pb pl 1 = 1 → (c.layerEst (sensorLayer (pb pl 0))).isSome = true) :
    cmdThSubst.run id pl c =
      let d := (c.set (F.TH_SENSOR_SUBST (pb pl 0)) (pb pl 1)).thShow [pb pl 0]
      d.ok id (natLe 2 (d.get (F.TH_SENSOR_USED (pb pl 0)))) := by
  have hhas : ¬(pb pl 1 = 1 ∧ (c.layerEst (sensorLayer (pb pl 0))).isNone = true) := fun ⟨hon, hnone⟩ =>
    absurd (hest hon) (by simpa using hnone)
  simp only [cmdThSubst, Cmd.plain, hout, hhas, Bool.not_true, Bool.false_eq_true, if_false]

/-! A write of `TH_CFG` leaves the registers of the sensors. -/

theorem Chip.writeFld_get_ne {f g : Fld} (lockOk : Bool) (v : Nat) (c : Chip) (h : f.key ≠ g.key) :
    (c.writeFld lockOk v g).get f = c.get f := by
  unfold Chip.writeFld
  dsimp only
  split
  case h_1 => exact Chip.get_set_ne _ c h
  case h_2 =>
    split
    · exact Chip.get_set_ne _ c h
    · rfl
  case h_3 => exact Chip.get_set_ne _ c h
  case h_4 =>
    split
    · exact Chip.get_set_ne _ c h
    · rfl
  all_goals rfl

theorem Chip.writeFlds_get_ne {f : Fld} (lockOk : Bool) (v : Nat) (fs : List Fld) (c : Chip) (h : ∀ g ∈ fs, f.key ≠ g.key) :
    (c.writeFlds lockOk v fs).get f = c.get f := by
  induction fs generalizing c with
  | nil => rfl
  | cons g fs ih =>
    obtain ⟨hg, hfs⟩ := List.forall_mem_cons.1 h
    exact (ih (c.writeFld lockOk v g) hfs).trans (Chip.writeFld_get_ne lockOk v c hg)

theorem thCfgFlds_key_lt : ∀ g ∈ thCfgFlds, g.key < 0xA00100 * 1024 := by decide

theorem Chip.sensorOut_writeFlds_thCfg (lockOk : Bool) (v : Nat) (c : Chip) :
    (c.writeFlds lockOk v thCfgFlds).sensorOut = c.sensorOut := by
  have hget {f : Fld} (hf : 0xA00100 * 1024 ≤ f.key) : (c.writeFlds lockOk v thCfgFlds).get f = c.get f :=
    Chip.writeFlds_get_ne lockOk v thCfgFlds c fun g hg => Nat.ne_of_gt (Nat.lt_of_lt_of_le (thCfgFlds_key_lt g hg) hf)
  funext i
  have hbroken : 0xA00100 * 1024 ≤ (F.TH_SENSOR_BROKEN i).key := by
    simp only [Fld.key, F.TH_SENSOR_BROKEN]
    omega
  have hsuspect : 0xA00100 * 1024 ≤ (F.TH_SENSOR_SUSPECT i).key := by
    simp only [Fld.key, F.TH_SENSOR_SUSPECT]
    omega
  rw [Chip.sensorOut, Chip.is, Chip.is, hget hbroken, hget hsuspect, Chip.sensorOut, Chip.is, Chip.is]

theorem cmdThThresh_run_of_ordered (hok : thCfgOk (pf pl 0 8) = true) :
    cmdThThresh.run id pl c =
      let d := c.writeFlds true (pf pl 0 8) thCfgFlds
      let d := d.thShow (sensorsAll.filter d.sensorOut)
      d.ok id (d.regBytes thCfgFlds) := by
  simp only [cmdThThresh, Cmd.plain, Chip.thCfgWrite, hok, if_true, Chip.sensorOut_writeFlds_thCfg]

/-- Settles O29: a row runs one function of the device and a command starts in its slot; their equations give the clauses. -/
theorem thermalRows : Obligations.ThermalRows := by
  intro s p
  refine ⟨?trained, ?failed, ?throttle, ?estimate, ?status, ?sensors, ?subst, ?thresh, ?limit⟩
  case trained =>
    exact fun ids hs htrain hstate hfreq => exec_eq_of_runChip (exec_trainingDone true s) hs
      ((Chip.trainEnd_of_training (c := s.chip.quiet) htrain).trans
        (Chip.drTrained_of_success (c := s.chip.quiet) htrain hstate hfreq))
  case failed =>
    exact fun cause ids hs htrain hstate => exec_eq_of_runChip (exec_trainingDone false s) hs
      ((Chip.trainEnd_of_training (c := s.chip.quiet) htrain).trans (Chip.drTrained_of_fail (c := s.chip.quiet) htrain hstate))
  case throttle => exact exec_eq_of_running (exec_throttleUpdate s)
  case estimate => exact fun inlet outlet lidOk est => exec_eq_of_running (exec_layerEstimate inlet outlet lidOk est s)
  case status => exact fun h => exec_eq_of_accepts (exec_chThStatus p s) h rfl
  case sensors => exact fun h => exec_eq_of_accepts (exec_chThSensors p s) h rfl
  case subst =>
    rintro i h rfl hout hest
    exact exec_eq_of_accepts (exec_chThSubst p s) h
      (cmdThSubst_run_of_out (c := s.chip.quiet.slotFor cmdThSubst p) hout hest)
  case thresh =>
    exact fun h hok => exec_eq_of_accepts (exec_chThThresh p s) h
      (cmdThThresh_run_of_ordered (c := s.chip.quiet.slotFor cmdThThresh p) hok)
  case limit => exact fun h => exec_eq_of_accepts (exec_chThLimit p s) h rfl

end Sys2Proof.Machine
end

section
/-! PROOF. The network's pump, and a request that is refused BUSY (O57). -/

namespace Sys2Proof.Machine

variable {c : Chip} {q : NReq}

/-! ## What is sent and what stays (R300, R301) -/

/-- Requests were sent: none has left flight, and responses, memory and registers are as before. -/
structure Chip.Pumped (c d : Chip) : Prop where
  rsps : d.net.rsps = c.net.rsps
  mem : d.mem = c.mem
  rf : d.rf = c.rf
  kept : ∀ p ∈ c.net.flight, p ∈ d.net.flight

theorem Chip.Pumped.refl (c : Chip) : c.Pumped c := ⟨rfl, rfl, rfl, fun _ h => h⟩

theorem Chip.Pumped.trans {d e : Chip} (hd : c.Pumped d) (he : d.Pumped e) : c.Pumped e :=
  ⟨he.rsps.trans hd.rsps, he.mem.trans hd.mem, he.rf.trans hd.rf, fun p h => he.kept p (hd.kept p h)⟩

theorem Chip.forAll_pumped {α : Type} (l : List α) {f : α → Chip → Chip} (hf : ∀ a (c : Chip), c.Pumped (f a c)) (c : Chip) :
    c.Pumped (c.forAll l f) := by
  induction l generalizing c with
  | nil => exact .refl c
  | cons a l ih => exact (hf a c).trans (ih (f a c))

theorem Chip.netPump_pumped (c : Chip) : c.Pumped c.netPump := by
  refine Chip.forAll_pumped _ (fun o d => ?_) c
  dsimp only
  split
  · exact ⟨rfl, rfl, rfl, fun p h => List.mem_append_left _ h⟩
  · exact .refl d

/-- A request that is taken out of flight leaves every other request there. -/
theorem Chip.mem_unflight_flight {p : NReq} (hp : p ∈ c.net.flight) (hne : p ≠ q) : p ∈ (c.unflight q).net.flight :=
  (Chip.netPump_pumped _).kept p ((List.mem_erase_of_ne hne).2 hp)

theorem Chip.unflight_rsps (q : NReq) (c : Chip) : (c.unflight q).net.rsps = c.net.rsps := (Chip.netPump_pumped _).rsps
theorem Chip.unflight_mem (q : NReq) (c : Chip) : (c.unflight q).mem = c.mem := (Chip.netPump_pumped _).mem
theorem Chip.unflight_rf (q : NReq) (c : Chip) : (c.unflight q).rf = c.rf := (Chip.netPump_pumped _).rf

/-! ## BUSY (R306) -/

/-- The NI refuses a request: it leaves flight unperformed, with its answer, and the refusal is counted and flagged. -/
def Chip.refuseBusy (ni : Nat) (q : NReq) (c : Chip) : Chip :=
  (((c.unflight q).respond q.ni q.idx q.ep rspBusy 0 [] ni).inc (F.NI_CNT_A_BUSY_CNT ni)).set (F.NI_STAT_BUSY ni) 1

section
variable {ni cls : Nat} (hfind : c.net.flight.find? (fun q => niOf q.addr = ni && q.cls = cls && !c.net.gate.contains q) = some q)
include hfind

theorem Chip.busyExpiry_of_wait (hwait : c.get (F.NI_CTL_BUSY_WAIT ni) ≠ 0) (hgate : 96 ≤ ni → 16 ≤ (c.gateOf (ni - 96)).length)
    (hroute : c.routeOk q.ni ni = true) : c.busyExpiry ni cls = c.refuseBusy ni q := by
  have hfull : (decide (96 ≤ ni) && decide ((c.gateOf (ni - 96)).length < 16)) = false := by
    simpa using hgate
  simp only [Chip.busyExpiry, hfind, hwait, hfull, hroute, decide_false, Bool.not_true, Bool.or_self, Bool.false_eq_true, if_false,
    Chip.refuseBusy]

theorem Chip.busyExpiry_of_no_wait (hwait : c.get (F.NI_CTL_BUSY_WAIT ni) = 0) : c.busyExpiry ni cls = c := by
  simp only [Chip.busyExpiry, hfind, hwait, decide_true, Bool.true_or, if_true]

end

theorem niBusyCnt_key_ne_flag (ni : Nat) : (F.NI_CNT_A_BUSY_CNT ni).key ≠ (F.NI_STAT_BUSY ni).key := by
  simp only [Fld.key, F.NI_CNT_A_BUSY_CNT, F.NI_STAT_BUSY]
  omega

section
variable {ni : Nat}

theorem Chip.refuseBusy_get_other {g : Fld} (hcnt : g.key ≠ (F.NI_CNT_A_BUSY_CNT ni).key) (hflag : g.key ≠ (F.NI_STAT_BUSY ni).key) :
    (c.refuseBusy ni q).get g = c.get g := by
  rw [Chip.refuseBusy, Chip.get_set_ne _ _ hflag, Chip.inc, Chip.addSat, Chip.get_set_ne _ _ hcnt]
  exact Chip.get_of_rf g (c.unflight_rf q)

theorem Chip.refuseBusy_count (hroom : c.get (F.NI_CNT_A_BUSY_CNT ni) < 2 ^ (F.NI_CNT_A_BUSY_CNT ni).w - 1) :
    (c.refuseBusy ni q).get (F.NI_CNT_A_BUSY_CNT ni) = c.get (F.NI_CNT_A_BUSY_CNT ni) + 1 := by
  have hget : ((c.unflight q).respond q.ni q.idx q.ep rspBusy 0 [] ni).get (F.NI_CNT_A_BUSY_CNT ni) = c.get (F.NI_CNT_A_BUSY_CNT ni) :=
    Chip.get_of_rf _ (c.unflight_rf q)
  rw [Chip.refuseBusy, Chip.get_set_ne _ _ (niBusyCnt_key_ne_flag ni), Chip.inc, Chip.get_addSat_same, hget]
  exact Nat.min_eq_right hroom

theorem Chip.refuseBusy_rsps :
    (c.refuseBusy ni q).net.rsps =
      c.net.rsps ++ [{ ni := q.ni, idx := q.idx, ep := q.ep, code := 1, detail := 0x01, word := 0, data := [], from' := ni }] :=
  congrArg (· ++ _) (c.unflight_rsps q)

end

/-- Settles O57: where the request has waited too long, the NI refuses it, and the refusal's own lemmas give what it changes. -/
theorem busyRefusal : Obligations.BusyRefusal := by
  intro s ni bulk q hs hgate hfind hroute
  refine ⟨fun hwait hroom => ?refused, fun hwait => ?never⟩
  case refused =>
    have hcls : q.cls = if bulk then 2 else 1 := by
      have hq := List.find?_some hfind
      simp only [Bool.and_eq_true, decide_eq_true_eq] at hq
      exact hq.1.2
    refine ⟨_, exec_eq_of_runChip (exec_niBusyWaitExpiry ni bulk s) hs
      (Chip.busyExpiry_of_wait (c := s.chip.quiet) hfind hwait hgate hroute), Chip.refuseBusy_rsps, (s.chip.quiet.unflight_mem q),
      Chip.refuseBusy_count hroom, Chip.is_set_one _ _ rfl, fun g hcnt hflag => Chip.refuseBusy_get_other hcnt hflag,
      fun p hp hother => Chip.mem_unflight_flight hp ?_⟩
    rintro rfl
    cases bulk <;> simp [hcls] at hother
  case never =>
    exact exec_eq_of_runChip (exec_niBusyWaitExpiry ni bulk s) hs (Chip.busyExpiry_of_no_wait (c := s.chip.quiet) hfind hwait)

end Sys2Proof.Machine
end

section
/-! PROOF. The throttle law (O60): the factor of a zone against the program of R363. -/

namespace Sys2Proof.Machine

variable {c : Chip} {z : Nat}

/-- The quotient of the negated number, rounded down, is the ceiling's negation. -/
theorem neg_ediv_eq_neg_ceil {h : Int} (a : Int) (hpos : 0 < h) : -a / h = -((a + h - 1) / h) := by
  have hle : (a + h - 1) / h * h ≤ a + h - 1 := Int.ediv_mul_le _ hpos.ne'
  have hlt : a + h - 1 < (a + h - 1) / h * h + h := by
    have := Int.lt_ediv_add_one_mul_self (a + h - 1) hpos
    rwa [add_one_mul] at this
  refine (Int.ediv_emod_unique hpos (r := (a + h - 1) / h * h - a)).2 ⟨?_, ?_, ?_⟩ |>.1
  · ring
  · omega
  · omega

/-! ## The steps of the program -/

/-- The temperature from which a zone's factor falls, in units of 0.125 °C. -/
def Chip.slowFrom (c : Chip) (z : Nat) : Int := if 221 ≤ z then 760 else 8 * c.get F.TH_CFG_THROTTLE

/-- The temperature at which the fall would reach 0; the factor stops at 64 before. -/
def Chip.slowTo (c : Chip) (z : Nat) : Int := if 221 ≤ z then 840 else 8 * c.get F.TH_CFG_LIMIT

theorem Chip.slowFrom_lt_slowTo (h : c.get F.TH_CFG_THROTTLE < c.get F.TH_CFG_LIMIT) : c.slowFrom z < c.slowTo z := by
  unfold Chip.slowFrom Chip.slowTo
  split <;> omega

/-- The factor by temperature: 256 up to the first threshold, and then falling to 64. -/
def rampFactor (d h : Int) : Nat := if d ≤ 0 then 256 else (max 64 (256 - (256 * d + h - 1) / h)).toNat

theorem rampFactor_eq {d h : Int} (hpos : 0 < h) :
    (rampFactor d h : Int) = if d ≤ 0 then 256 else max 64 (256 + -(256 * d) / h) := by
  unfold rampFactor
  split
  · rfl
  · rw [Int.toNat_of_nonneg (le_max_of_le_left (by decide)), neg_ediv_eq_neg_ceil _ hpos, sub_eq_add_neg]

theorem Chip.zoneFactor_eq (c : Chip) (z : Nat) :
    c.zoneFactor z =
      let s1 := rampFactor (c.zoneTemp z - c.slowFrom z) (c.slowTo z - c.slowFrom z)
      let s2 := if (zoneSensors z).any (fun i => (c.sensor i).rateOn) then min s1 128 else s1
      min (if c.aon.coolForced then 64 else s2) (c.get F.TH_HOST_S_HOST) := rfl

/-- Settles O60: the factor is the program's, each of its steps on integers. -/
theorem throttleLaw : Obligations.ThrottleLaw := by
  intro c z hcfg lo hi d s1 s2 s3
  have hramp : (rampFactor d (hi - lo) : Int) = s1 := rampFactor_eq (sub_pos.2 (Chip.slowFrom_lt_slowTo (z := z) hcfg))
  rw [Chip.zoneFactor_eq]
  push_cast
  rw [show c.zoneTemp z - c.slowFrom z = d from rfl, show c.slowTo z - c.slowFrom z = hi - lo from rfl, hramp]

end Sys2Proof.Machine
end

section
/-! PROOF. The rows of the test access port (O6). -/

namespace Sys2Proof.Machine

variable {c : Chip} {op : Nat}

/-- Without control of the pins a test instruction acts as BYPASS (R442). -/
theorem Chip.tapControls_eq_false (h : c.aon.resetLow = false ∨ (c.get F.PWR_STAT_VALID).testBit 9 = false) :
    c.tapControls = false := by
  rw [Chip.tapControls, Bool.and_eq_false_iff]
  exact h

theorem Chip.tapTest_of_control (hlow : c.aon.resetLow = true) (hio : (c.get F.PWR_STAT_VALID).testBit 9 = true) :
    c.tapTest op = c.tapLoad op := by
  rw [Chip.tapTest, if_pos (by rw [Chip.tapControls, hlow, hio, Bool.and_self])]

theorem Chip.tapTest_of_no_control (h : c.aon.resetLow = false ∨ (c.get F.PWR_STAT_VALID).testBit 9 = false) :
    c.tapTest op = c.tapBypass op := by
  rw [Chip.tapTest, Chip.tapControls_eq_false h, if_neg Bool.false_ne_true]

/-- Settles O6: each row's command is one function of the port; a test instruction goes by whether the port controls the pins. -/
theorem tapRows : Obligations.TapRows := by
  intro s
  refine ⟨?reset, ?idcode, ?sample, ?control, ?noControl, ?clamp, ?highz, ?bypass⟩
  case reset => exact exec_eq_of_runAon (exec_tapReset s) rfl
  case idcode => exact exec_eq_of_runAon (exec_jtagIdcode s) rfl
  case sample => exact fun pins preload => exec_eq_of_runAon (exec_samplePreload pins preload s) rfl
  case control =>
    intro hlow hio
    have htest (op : Nat) : s.chip.quiet.tapTest op = s.chip.quiet.tapLoad op := Chip.tapTest_of_control hlow hio
    exact ⟨exec_eq_of_runAon (exec_extest s) (htest _), exec_eq_of_runAon (exec_extestPulse s) (htest _),
      exec_eq_of_runAon (exec_extestTrain s) (htest _)⟩
  case noControl =>
    intro h
    have htest (op : Nat) : s.chip.quiet.tapTest op = s.chip.quiet.tapBypass op := Chip.tapTest_of_no_control h
    exact ⟨exec_eq_of_runAon (exec_extest s) (htest _), exec_eq_of_runAon (exec_extestPulse s) (htest _),
      exec_eq_of_runAon (exec_extestTrain s) (htest _)⟩
  case clamp => exact exec_eq_of_runAon (exec_jtagClamp s) rfl
  case highz => exact exec_eq_of_runAon (exec_jtagHighz s) rfl
  case bypass =>
    intro opcode hother
    exact exec_eq_of_runAon (exec_jtagBypass opcode s) (if_neg (by simpa using hother))

end Sys2Proof.Machine
end

section
/-! PROOF. The commands on power, clocks and the persistent store (O37). -/

namespace Sys2Proof.Machine

variable {c : Chip} {id r : Nat} {pl : List Byte}

/-! ## Clocks and region power (R412, R413) -/

theorem cmdClkRegion_run_of_used (hused : c.rgState (pb pl 0) ≠ rgRetired) :
    cmdClkRegion.run id pl c =
      let d := c.setFset (pb pl 0) (pf pl 2 2)
      if d.is (F.CLK_RG_SLEWING (pb pl 0)) then d else d.ok id [] := by
  simp only [cmdClkRegion, Cmd.plain, hused, if_false]

section
variable (hr : pb pl 0 = r) (huser : c.dstate = stUser) (hfree : c.regionBusy id r = false)
include hr huser hfree

/-- A region that runs is powered down: its domain begins to close. -/
theorem cmdPwrRegion_run_of_running (hrun : c.rgState r = rgRun) (hoff : pb pl 1 = 0) :
    cmdPwrRegion.run id pl c = (c.interim id ST_ACCEPTED dtNone []).domClose (domRegion r) 1 := by
  subst hr
  have hused : ¬rgRun = rgRetired := by decide
  have hchange : ¬rgRun = rgOff := by decide
  simp only [cmdPwrRegion, Cmd.plain, huser, hfree, hrun, hoff, hused, hchange, ne_eq, not_true_eq_false, Nat.zero_ne_one, false_and,
    and_false, or_false, Bool.false_eq_true, if_false]

/-- An unpowered region is powered up under a stop that is READY. -/
theorem cmdPwrRegion_run_of_unpowered (hoff : c.rgState r = rgOff) (hon : pb pl 1 = 1) (hready : c.stopState r (pb pl 2) = ssReady) :
    cmdPwrRegion.run id pl c = c.interim id ST_ACCEPTED dtNone [] := by
  subst hr
  have hused : ¬rgOff = rgRetired := by decide
  have hchange : ¬rgOff = rgRun := by decide
  simp only [cmdPwrRegion, Cmd.plain, huser, hfree, hoff, hon, hready, hused, hchange, ne_eq, not_true_eq_false, decide_true,
    Bool.not_true, false_and, and_false, or_false, Bool.false_eq_true, if_false, if_true]

end

/-! ## The persistent store (R415, R419, R421) -/

theorem cmdNvsRecRead_run_of_present {bs : List Byte} (h : c.recRead (pb pl 0) = some bs) :
    cmdNvsRecRead.run id pl c = c.ok id ((List.range (pf pl 8 2)).map (fun i => bs.getD (pf pl 4 4 + i) 0)) := by
  simp only [cmdNvsRecRead, Cmd.plain, h]

theorem cmdNvsUser_run_of_write (h : pb pl 0 = 1) :
    cmdNvsUser.run id pl c = c.nvsWrite (wordsOf (pf pl 4 4) (pl.drop 16)) (.slot id dtNone (natLe 4 (pf pl 8 2))) := by
  simp only [cmdNvsUser, Cmd.plain, h, if_true]

theorem Chip.nvsIdle_of_no_jobs (h : c.nvs.jobs = []) (ms : List Nat) : c.nvsIdle ms = true := by
  rw [Chip.nvsIdle, h, List.all_nil]

theorem Chip.nvsWord_of_correct (h : c.nvs.uncorr = []) (w : Nat) : c.nvsWord w = some (tget 0 w c.nvs.words) := by
  simp [Chip.nvsWord, h]

theorem Chip.userRead_of_correct (h : c.nvs.uncorr = []) (w n : Nat) :
    c.userRead id w n = c.ok id ((List.range n).flatMap (fun i => natLe 8 (tget 0 (w + i) c.nvs.words))) := by
  have hnone (l : List Nat) : l.find? (fun w => c.nvs.uncorr.contains w) = none := by simp [h]
  simp only [Chip.userRead, hnone, Chip.nvsWord_of_correct h, Option.getD_some, List.flatMap_map]

/-- A read of the user partition that finds no earlier job answers at once. -/
theorem cmdNvsUser_run_of_read (hread : pb pl 0 = 0) (hcorrect : c.nvs.uncorr = []) (hjobs : c.nvs.jobs = []) :
    cmdNvsUser.run id pl c =
      c.ok id ((List.range (pf pl 8 2)).flatMap (fun i => natLe 8 (tget 0 (pf pl 4 4 / 8 + i) c.nvs.words))) := by
  simp only [cmdNvsUser, Cmd.plain, hread, Chip.nvsIdle_of_no_jobs hjobs, Chip.userRead_of_correct hcorrect, Nat.zero_ne_one, if_false, if_true]

/-- Settles O37: the packet is accepted, so the command starts in its slot, and its start is what the row says. -/
theorem powerCommandRows : Obligations.PowerCommandRows := by
  intro s p
  refine ⟨?status, ?clock, ?down, ?up, ?recInfo, ?recRead, ?evlog, ?write, ?read⟩
  case status => exact fun h => exec_eq_of_accepts (exec_chPwrStatus p s) h rfl
  case clock =>
    exact fun h hused => exec_eq_of_accepts (exec_chClkRegion p s) h
      (cmdClkRegion_run_of_used (c := s.chip.quiet.slotFor cmdClkRegion p) hused)
  case down =>
    exact fun r h hr hrun huser hfree hoff => exec_eq_of_accepts (exec_chPwrRegion p s) h
      (cmdPwrRegion_run_of_running (c := s.chip.quiet.slotFor cmdPwrRegion p) hr.symm huser hfree hrun hoff)
  case up =>
    exact fun r h hr hoff huser hfree hon hready => exec_eq_of_accepts (exec_chPwrRegion p s) h
      (cmdPwrRegion_run_of_unpowered (c := s.chip.quiet.slotFor cmdPwrRegion p) hr.symm huser hfree hoff hon hready)
  case recInfo =>
    rintro r h rfl
    exact exec_eq_of_accepts (exec_chNvsRecInfo p s) h rfl
  case recRead =>
    exact fun bs h hread => exec_eq_of_accepts (exec_chNvsRecRead p s) h
      (cmdNvsRecRead_run_of_present (c := s.chip.quiet.slotFor cmdNvsRecRead p) hread)
  case evlog => exact fun h => exec_eq_of_accepts (exec_chNvsEvlogRead p s) h rfl
  case write => exact fun h hwrite => exec_eq_of_accepts (exec_chNvsUser p s) h (cmdNvsUser_run_of_write hwrite)
  case read =>
    exact fun h hread hcorrect hjobs => exec_eq_of_accepts (exec_chNvsUser p s) h
      (cmdNvsUser_run_of_read (c := s.chip.quiet.slotFor cmdNvsUser p) hread hcorrect hjobs)

end Sys2Proof.Machine
end

section
/-! PROOF. The rows of clocks, region power and the persistent store (O36). -/

namespace Sys2Proof.Machine

variable {c : Chip} {r : Nat}

/-! ## Region clocks (R412) -/

/-- A store to a region's clock register leaves what the clock goes by: its source, the region's state and the zone's factor. -/
theorem Chip.get_set_clkRg (hr : r < 192) {lo w rst : Nat} {acc : Acc} (hlo : lo < 1024) (v : Nat) {f : Fld}
    (hf : f ∈ [F.FAB_RG_CTL_CLKSRC r, F.FAB_RG_STAT_RSTATE r, zoneS r]) (c : Chip) :
    (c.set ⟨0xA09000 + 0x8 * r, lo, w, acc, rst⟩ v).get f = c.get f := by
  refine Chip.get_set_ne _ _ ?_
  simp only [List.mem_cons, List.not_mem_nil, or_false] at hf
  rcases hf with rfl | rfl | rfl
  · simp only [Fld.key, F.FAB_RG_CTL_CLKSRC]
    omega
  · simp only [Fld.key, F.FAB_RG_STAT_RSTATE]
    omega
  · simp only [zoneS, if_pos hr, Fld.key, F.TH_RZONE_S]
    omega

/-- The clock of a running region on clock source 0 begins to move where its frequency is not the one asked for. -/
theorem Chip.setFset_of_move {v : Nat} (hr : r < 192) (hsrc : c.get (F.FAB_RG_CTL_CLKSRC r) = 0) (hrun : c.rgState r = rgRun)
    (hmove : c.get (F.CLK_RG_FNOW r) ≠ throttled v (c.get (zoneS r))) :
    c.setFset r v = (c.set (F.CLK_RG_FSET r) v).set (F.CLK_RG_SLEWING r) 1 := by
  have hkeep {f : Fld} (hf : f ∈ [F.FAB_RG_CTL_CLKSRC r, F.FAB_RG_STAT_RSTATE r, zoneS r]) :
      (c.set (F.CLK_RG_FSET r) v).get f = c.get f := Chip.get_set_clkRg hr (by decide) v hf c
  have hstate : (c.set (F.CLK_RG_FSET r) v).rgState r = rgRun := (hkeep (by simp)).trans hrun
  have hnow : (c.set (F.CLK_RG_FSET r) v).get (F.CLK_RG_FNOW r) = c.get (F.CLK_RG_FNOW r) :=
    Chip.get_set_ne _ _ (by simp only [Fld.key, F.CLK_RG_FNOW, F.CLK_RG_FSET]; omega)
  have hoff : ¬rgRun = rgOff := by decide
  have hretired : ¬rgRun = rgRetired := by decide
  simp only [Chip.setFset, hkeep (f := F.FAB_RG_CTL_CLKSRC r) (by simp), hkeep (f := zoneS r) (by simp), hsrc, hstate, hnow, hmove, hoff,
    hretired, ne_eq, not_true_eq_false, or_self, false_and, if_false]

theorem Chip.clkWrite_of_ok {v : Nat} (h : fsetOk (bits v 8 0) = true) : c.clkWrite r v = (rspOk, c.setFset r (bits v 8 0)) := if_pos h

theorem Chip.clkWrite_of_range {v : Nat} (h : fsetOk (bits v 8 0) = false) : c.clkWrite r v = (rspRange, c) :=
  if_neg (Bool.eq_false_iff.1 h)

/-- At the end of its slew the clock takes the frequency of the last `FSET`, throttled. -/
theorem Chip.slewDone_of_no_slots (hr : r < 192) (hslew : c.is (F.CLK_RG_SLEWING r) = true) (hsrc : c.get (F.FAB_RG_CTL_CLKSRC r) = 0)
    (hslots : c.ch.slots = []) :
    c.slewDone r =
      (c.set (F.CLK_RG_SLEWING r) 0).set (F.CLK_RG_FNOW r) (throttled (c.get (F.CLK_RG_FSET r)) (c.get (zoneS r))) := by
  have hkeep {f : Fld} (hf : f ∈ [F.FAB_RG_CTL_CLKSRC r, F.FAB_RG_STAT_RSTATE r, zoneS r]) :
      (c.set (F.CLK_RG_SLEWING r) 0).get f = c.get f := Chip.get_set_clkRg hr (by decide) 0 hf c
  have hfset : (c.set (F.CLK_RG_SLEWING r) 0).get (F.CLK_RG_FSET r) = c.get (F.CLK_RG_FSET r) :=
    Chip.get_set_ne _ _ (by simp only [Fld.key, F.CLK_RG_FSET, F.CLK_RG_SLEWING]; omega)
  have hclock : (c.set (F.CLK_RG_SLEWING r) 0).regionClock r =
      (c.set (F.CLK_RG_SLEWING r) 0).set (F.CLK_RG_FNOW r) (throttled (c.get (F.CLK_RG_FSET r)) (c.get (zoneS r))) := by
    simp only [Chip.regionClock, hkeep (f := F.FAB_RG_CTL_CLKSRC r) (by simp), hkeep (f := zoneS r) (by simp), hsrc, hfset,
      Chip.is_set_zero, decide_true, Bool.not_false, Bool.and_self, if_true]
  simp only [Chip.slewDone, hslew, hclock, Chip.set_ch, hslots, List.filter_nil, List.map_nil, Chip.endAll, Chip.forAll_nil, Bool.not_true,
    Bool.false_eq_true, if_false]

/-! ## Region power (R413) -/

section
variable {k : Slot} (hk : c.pwrCmd r = some k) (huser : c.dstate = stUser)
include hk huser

theorem Chip.powerRegionDone_of_down (hdown : pb k.payload 1 = 0) :
    c.powerRegionDone r =
      ((((c.domClosed (domRegion r)).regionOff r).spRegionOff r).regionCmdsEnd k.id r ST_DOMAIN_OFF).ok k.id [] := by
  simp only [Chip.powerRegionDone, hk, huser, hdown, ne_eq, not_true_eq_false, if_false, if_true]

theorem Chip.powerRegionDone_of_up (hup : pb k.payload 1 = 1) :
    c.powerRegionDone r = (((c.regionRun r (pb k.payload 2)).spRegionOn r).domOpen (domRegion r)).ok k.id [] := by
  simp only [Chip.powerRegionDone, hk, huser, hup, ne_eq, not_true_eq_false, Nat.one_ne_zero, if_false]

end

/-! ## Words of the persistent store (R418 to R421) -/

/-- A word's write changes the store's words and which of them are uncorrectable, and nothing beside. -/
theorem Chip.nvsPut_eq (w v : Nat) (c : Chip) :
    ∃ words uncorr, c.nvsPut w v = { c with nvs := { c.nvs with words := words, uncorr := uncorr } } := by
  unfold Chip.nvsPut
  split <;> exact ⟨_, _, rfl⟩

/-- The last word of the only job is written, and what follows the job happens. -/
theorem Chip.nvsWordDone_of_last {m : Nat} {w : Nat × Nat} {d : NvsDone} (hm : nvsMacro w.1 = m)
    (hjobs : c.nvs.jobs = [{ words := [w], record := none, payload := none, bank := none, done := d }]) :
    c.nvsWordDone m =
      let e := c.nvsPut w.1 w.2
      Chip.nvsReads (Chip.nvsFollow d { e with nvs := { e.nvs with jobs := [] } }) := by
  have hserved : c.nvsServed m = some { words := [w], record := none, payload := none, bank := none, done := d } := by
    simp [Chip.nvsServed, hjobs, hm]
  have hkept : (c.nvsPut w.1 w.2).nvs.jobs = c.nvs.jobs := by
    obtain ⟨words, uncorr, hput⟩ := Chip.nvsPut_eq w.1 w.2 c
    rw [hput]
  simp only [Chip.nvsWordDone, Chip.nvsStep, hserved, List.headD_cons, hkept, hjobs, nvsReplace, List.length_singleton, Nat.le_refl,
    if_true, Chip.nvsLay]

/-! ## The aperture (R419 to R421) -/

section
variable {ni off v w : Nat} (hni : 96 ≤ ni) (hoff : off % 8 = 0) (hw : w = (c.upage ni * 0x80000 + off) / 8)
include hni hoff hw

theorem Chip.apertureAccess_read_of_idle (hidle : c.nvsIdle [nvsMacro w] = true) :
    c.apertureAccess ni off false false v = (c.wordRead w).2.answer (c.wordRead w).1.1 (c.wordRead w).1.2 := by
  subst hw
  simp only [Chip.apertureAccess, Chip.aperture, if_neg (Nat.not_lt.2 hni), hoff, hidle, ne_eq, not_true_eq_false, Bool.false_eq_true,
    Bool.not_true, or_self, if_false]

theorem Chip.apertureAccess_read_of_busy (hbusy : c.nvsIdle [nvsMacro w] = false) :
    c.apertureAccess ni off false false v =
      c.nvsJob { words := [], record := none, payload := none, bank := none, done := .accRead w } := by
  subst hw
  simp only [Chip.apertureAccess, Chip.aperture, if_neg (Nat.not_lt.2 hni), hoff, hbusy, ne_eq, not_true_eq_false, Bool.false_eq_true,
    Bool.not_false, or_self, if_false, if_true]

theorem Chip.apertureAccess_write : c.apertureAccess ni off true false v = c.nvsWrite [(w, v)] .access := by
  subst hw
  simp only [Chip.apertureAccess, Chip.aperture, if_neg (Nat.not_lt.2 hni), hoff, ne_eq, not_true_eq_false, Bool.false_eq_true,
    or_self, if_false, if_true]

end

theorem Chip.apertureAccess_of_host {ni off v : Nat} {write wide : Bool} (hni : ni < 96) :
    c.apertureAccess ni off write wide v = c.answer rspDenied 0 := by
  simp only [Chip.apertureAccess, Chip.aperture, if_pos hni]

theorem Chip.wordRead_of_correct {w x : Nat} (h : c.nvsWord w = some x) : c.wordRead w = ((rspOk, x), c) := by
  simp only [Chip.wordRead, h]

theorem Chip.wordRead_of_uncorrectable {w : Nat} (h : c.nvsWord w = none) : c.wordRead w = ((rspUncorr, 0), c.nvsUnc w) := by
  simp only [Chip.wordRead, h]

theorem Chip.upageSelf_write {ni v : Nat} (hni : 96 ≤ ni) :
    c.upageSelf ni true v = ((rspOk, 0), c.set (F.NVS_UPAGE_PAGE (ni / 32) (ni % 32)) (v % 4)) := by
  simp only [Chip.upageSelf, if_neg (Nat.not_lt.2 hni), if_true]

theorem Chip.upageSelf_read {ni v : Nat} (hni : 96 ≤ ni) : c.upageSelf ni false v = ((rspOk, c.upage ni), c) := by
  simp only [Chip.upageSelf, if_neg (Nat.not_lt.2 hni), Bool.false_eq_true, if_false]

/-! ## The event log (R423) -/

/-- An entry of the event log takes four words. -/
theorem wordsOf_evlogBytes_take (off : Nat) (e : Ev) (n boot : Nat) :
    (wordsOf off (evlogBytes e n boot)).take 4 = wordsOf off (evlogBytes e n boot) := by
  refine List.take_of_length_le ?_
  simp [wordsOf, evlogBytes, evBytes]

theorem Chip.evlogWritten_of_waiting {e : Ev} {boot : Nat} {q : List (Ev × Nat)} (hlog : c.nvs.logBuf = (e, boot) :: q)
    (hboot : c.dstate ≠ stBoot) :
    c.evlogWritten =
      let n := c.nvs.logSeq
      let d := c.forAll (wordsOf (8 * evlogSlot n) (evlogBytes e n boot)) (fun w => Chip.nvsPut w.1 w.2)
      { d with nvs := { d.nvs with logBuf := q, logSeq := (n + 1) % 2 ^ 32 } } := by
  have hput (w v : Nat) (d : Chip) : ((d.nvsPut w v).nvs.logBuf, (d.nvsPut w v).nvs.logSeq) = (d.nvs.logBuf, d.nvs.logSeq) := by
    obtain ⟨words, uncorr, h⟩ := Chip.nvsPut_eq w v d
    rw [h]
  have hwords : c.evlogWords 4 =
      c.forAll (wordsOf (8 * evlogSlot c.nvs.logSeq) (evlogBytes e c.nvs.logSeq boot)) (fun w => Chip.nvsPut w.1 w.2) := by
    simp only [Chip.evlogWords, hlog, wordsOf_evlogBytes_take]
  have hkept := Chip.forAll_frame (fun d => (d.nvs.logBuf, d.nvs.logSeq))
    (wordsOf (8 * evlogSlot c.nvs.logSeq) (evlogBytes e c.nvs.logSeq boot)) (fun w d => hput w.1 w.2 d) c
  obtain ⟨hbuf, hseq⟩ := Prod.mk.inj hkept
  simp only [Chip.evlogWritten, if_neg hboot, hwords, hbuf, hseq, hlog, List.tail_cons, List.cons_ne_nil, if_false]

theorem Chip.evlogWritten_in_boot (h : c.dstate = stBoot) : c.evlogWritten = c := if_pos h

/-! ## The rows -/

/-- Settles O36: each row's command is one function of the device, and its equation under the clause's premises gives the row. -/
theorem powerRows : Obligations.PowerRows := by
  intro s hs
  refine ⟨?clock, ?range, ?slewed, ?down, ?up, ?word, ?read, ?uncorrectable, ?busy, ?write, ?host, ?page, ?cntClr, ?logged, ?boot⟩
  case clock =>
    intro r v hok hsrc hrun hmove
    refine exec_eq_of_runChip (exec_clkRgWrite r v s) hs ?_
    rw [Chip.clkWrite_of_ok hok, answerWrite, Chip.setFset_of_move (c := s.chip.quiet) r.isLt hsrc hrun hmove]
  case range =>
    intro r v hrange
    refine exec_eq_of_runChip (exec_clkRgWrite r v s) hs ?_
    rw [Chip.clkWrite_of_range hrange, answerWrite]
  case slewed =>
    exact fun r hslew hsrc hslots => exec_eq_of_runChip (exec_clockSlewDone r s) hs
      (Chip.slewDone_of_no_slots (c := s.chip.quiet) r.isLt hslew hsrc hslots)
  case down =>
    exact fun r k hk huser hdown => exec_eq_of_runChip (exec_regionPowerDone r s) hs
      (Chip.powerRegionDone_of_down (c := s.chip.quiet) hk huser hdown)
  case up =>
    exact fun r k hk huser hup => exec_eq_of_runChip (exec_regionPowerDone r s) hs
      (Chip.powerRegionDone_of_up (c := s.chip.quiet) hk huser hup)
  case word =>
    exact fun m w d hm hjobs => exec_eq_of_runChip (exec_nvsWordWriteDone m s) hs
      (Chip.nvsWordDone_of_last (c := s.chip.quiet) hm hjobs)
  case read =>
    intro ni off v w x hni hoff hw hjobs hx
    refine exec_eq_of_runChip (exec_nvsApertureAccess ni off false false v s) hs ?_
    rw [Chip.apertureAccess_read_of_idle (c := s.chip.quiet) hni hoff hw (Chip.nvsIdle_of_no_jobs hjobs _),
      Chip.wordRead_of_correct (c := s.chip.quiet) hx]
  case uncorrectable =>
    intro ni off v w hni hoff hw hjobs hx
    refine exec_eq_of_runChip (exec_nvsApertureAccess ni off false false v s) hs ?_
    rw [Chip.apertureAccess_read_of_idle (c := s.chip.quiet) hni hoff hw (Chip.nvsIdle_of_no_jobs hjobs _),
      Chip.wordRead_of_uncorrectable (c := s.chip.quiet) hx]
  case busy =>
    exact fun ni off v w hni hoff hw hbusy => exec_eq_of_runChip (exec_nvsApertureAccess ni off false false v s) hs
      (Chip.apertureAccess_read_of_busy (c := s.chip.quiet) hni hoff hw hbusy)
  case write =>
    exact fun ni off v w hni hoff hw => exec_eq_of_runChip (exec_nvsApertureAccess ni off true false v s) hs
      (Chip.apertureAccess_write (c := s.chip.quiet) hni hoff hw)
  case host =>
    exact fun ni off write wide v hni => exec_eq_of_runChip (exec_nvsApertureAccess ni off write wide v s) hs
      (Chip.apertureAccess_of_host hni)
  case page =>
    refine fun ni v hni => ⟨?_, ?_⟩
    · exact exec_eq_of_runChip (exec_nvsUpageSelfAccess ni true v s) hs (by rw [Chip.upageSelf_write hni])
    · exact exec_eq_of_runChip (exec_nvsUpageSelfAccess ni false v s) hs (by rw [Chip.upageSelf_read hni])
  case cntClr => exact exec_eq_after (exec_nvsCntClr 1 s) hs fun c => rfl
  case logged =>
    exact fun e boot q hlog hboot => exec_eq_of_runChip (exec_evlogEntryWritten s) hs
      (Chip.evlogWritten_of_waiting (c := s.chip.quiet) hlog hboot)
  case boot =>
    exact fun hboot => exec_eq_of_runChip (exec_evlogEntryWritten s) hs (Chip.evlogWritten_in_boot (c := s.chip.quiet) hboot)

end Sys2Proof.Machine
end

section
/-! PROOF. The rows of RESET_N, REFCLK and COOLANT_OK, and what ends a held reset (O2). -/

namespace Sys2Proof.Machine

variable {c : Chip}

/-! ## An awake device (Table 1.7) -/

/-- An awake device is in none of the states in which the islands stand still, and no reset is held. -/
theorem Chip.states_of_awake (h : c.awake = true) :
    c.dstate ≠ stOff ∧ c.dstate ≠ stPor ∧ c.dstate ≠ stShutdown ∧ c.aon.held = false := by
  obtain ⟨hlo, hhi⟩ := Chip.dstate_of_awake h
  simp only [Chip.awake, Bool.and_eq_true, Bool.not_eq_true'] at h
  unfold stBoot stSafe at *
  unfold stOff stPor stShutdown
  exact ⟨by omega, by omega, by omega, h.1.1⟩

section
variable {f : Fld} {v : Nat} (hf : F.SYS_STATE_STATE.key ≠ f.key)
include hf

theorem Chip.set_dstate : (c.set f v).dstate = c.dstate := Chip.get_set_ne v c hf

theorem Chip.set_awake : (c.set f v).awake = c.awake := by
  rw [Chip.awake, Chip.set_aon, Chip.get_set_ne v c hf, Chip.awake]

end

/-! ## A reset condition begins and ends (R405, R406, R410) -/

theorem Chip.holdReset_of_awake (h : c.awake = true) :
    c.holdReset = { c.warmClear with aon := { c.warmClear.aon with held := true, bootCause := some 0x01 } } := by
  obtain ⟨hoff, hpor, hshut, hheld⟩ := Chip.states_of_awake h
  have hgo : ¬(c.dstate = stOff ∨ c.dstate = stPor ∨ c.aon.held = true) := by simp [hoff, hpor, hheld]
  rw [Chip.holdReset, if_neg hshut, if_neg hgo]

theorem Chip.resetLow_of_awake (h : c.awake = true) :
    c.resetLow =
      let c := c.tie
      let d := Chip.warmClear { c with aon := { c.aon with resetLow := true } }
      { d with aon := { d.aon with held := true, bootCause := some 0x01 } } :=
  Chip.holdReset_of_awake (c := { c.tie with aon := { c.tie.aon with resetLow := true } }) (c.tie_awake.trans h)

theorem Chip.resetHigh_of_held {addrSel bootSrc cause : Nat} (hlow : c.aon.resetLow = true) (hheld : c.aon.held = true)
    (hrail : c.aon.railHold = false) (href : c.aon.refHold = false) (hoff : c.dstate ≠ stOff) (hc : c.aon.bootCause = some cause) :
    c.resetHigh addrSel bootSrc =
      let d := Chip.strap addrSel bootSrc { c with aon := { c.aon with resetLow := false } }
      Chip.enterBoot cause { d with aon := { d.aon with held := false, bootCause := none } } := by
  have hstate : ¬({ c with aon := { c.aon with resetLow := false } } : Chip).dstate = stOff := hoff
  have hrow : c.resetHigh addrSel bootSrc =
      (Chip.strap addrSel bootSrc { c with aon := { c.aon with resetLow := false } }).holdEnd (some addrSel) := by
    rw [Chip.resetHigh, hlow, Bool.not_true, if_neg Bool.false_ne_true, if_neg hstate]
  rw [hrow]
  exact Chip.holdEnd_of_noHold hheld (by simp [Chip.noHold, Chip.strap, hrail, href]) hc

theorem Chip.refclkLost_of_awake {noEdge : Bool} (hok : c.is F.PWR_STAT_REFCLK_OK = true) (h : c.awake = true) :
    c.refclkLost noEdge =
      let c := (((c.set F.PWR_STAT_REFCLK_OK 0).set F.PWR_STAT_REFCLK_LOST 1).oweOnce EV_CLK_REFCLK_LOST (b2n noEdge)).tie
      let d := Chip.warmClear { c with aon := { c.aon with refHold := true } }
      { d with aon := { d.aon with held := true, bootCause := some 0x01 } } := by
  have hoff : ¬(c.set F.PWR_STAT_REFCLK_OK 0).dstate = stOff := by
    rw [Chip.set_dstate (by decide)]
    exact (Chip.states_of_awake h).1
  have hawake : ((((c.set F.PWR_STAT_REFCLK_OK 0).set F.PWR_STAT_REFCLK_LOST 1).oweOnce EV_CLK_REFCLK_LOST (b2n noEdge)).tie).awake =
      true := by
    rw [Chip.tie_awake]
    exact ((Chip.set_awake (by decide)).trans (Chip.set_awake (by decide))).trans h
  have hpor := (Chip.states_of_awake hawake).2.1
  rw [Chip.refclkLost, hok, Bool.not_true, if_neg Bool.false_ne_true, if_neg hoff]
  simp only [decide_eq_true hpor, ne_eq]
  exact Chip.holdReset_of_awake hawake

theorem Chip.refclkBack_of_held {cause : Nat} (hlost : c.is F.PWR_STAT_REFCLK_OK = false) (hoff : c.dstate ≠ stOff)
    (hheld : c.aon.held = true) (hlow : c.aon.resetLow = false) (hrail : c.aon.railHold = false) (hc : c.aon.bootCause = some cause) :
    c.refclkBack =
      let d := c.set F.PWR_STAT_REFCLK_OK 1
      Chip.enterBoot cause { d with aon := { d.aon with refHold := false, held := false, bootCause := none } } := by
  have hstate : ¬(c.set F.PWR_STAT_REFCLK_OK 1).dstate = stOff := by rwa [Chip.set_dstate (by decide)]
  rw [Chip.refclkBack, hlost, if_neg Bool.false_ne_true, if_neg hstate]
  exact Chip.holdEnd_of_noHold hheld (by simp [Chip.noHold, hlow, hrail]) hc

/-! ## Coolant (R370, R371) -/

theorem Chip.coolantFall_of_awake (hok : c.is F.SYS_STATE_COOLANT_OK = true) (h : c.awake = true) :
    c.coolantFall =
      let d := c.set F.SYS_STATE_COOLANT_OK 0
      Chip.throttle (Chip.raise EV_TH_COOLANT_LOW 0
        (({ d with aon := { d.aon with coolForced := true } } : Chip).set F.TH_STAT_COOLANT_LOW 1)) := by
  have hlow : (c.set F.SYS_STATE_COOLANT_OK 0).awake = true := (Chip.set_awake (by decide)).trans h
  obtain ⟨hoff, hpor, -, -⟩ := Chip.states_of_awake hlow
  have hforced (d : Chip) (hd : d.awake = true) :
      (({ d with aon := { d.aon with coolForced := true } } : Chip).set F.TH_STAT_COOLANT_LOW 1).awake = true :=
    (Chip.set_awake (by decide)).trans hd
  have hshut := (Chip.states_of_awake (hforced _ hlow)).2.2.1
  rw [Chip.coolantFall, hok, Bool.not_true, if_neg Bool.false_ne_true, if_neg hoff, if_neg hpor]
  exact (if_neg hshut).trans (if_pos (hforced _ hlow))

theorem Chip.logicPower_dstate (c : Chip) : c.logicPower.dstate = c.dstate := Chip.logicPower_get (by decide)

/-- POR is the only state in which its end is looked for. -/
theorem Chip.porCheck_past_por {sel : Option Nat} (h : c.dstate ≠ stPor) : c.porCheck sel = c := by simp [Chip.porCheck, h]

theorem Chip.coolantRise_of_awake {lowUs : Nat} (hlow : c.is F.SYS_STATE_COOLANT_OK = false) (h : c.awake = true) :
    c.coolantRise lowUs =
      let d := c.set F.SYS_STATE_COOLANT_OK 1
      Chip.logicPower { d with aon := { d.aon with coolLowUs := lowUs } } := by
  have hawake : ({ c.set F.SYS_STATE_COOLANT_OK 1 with
      aon := { (c.set F.SYS_STATE_COOLANT_OK 1).aon with coolLowUs := lowUs } } : Chip).awake = true :=
    (Chip.set_awake (f := F.SYS_STATE_COOLANT_OK) (by decide)).trans h
  obtain ⟨hoff, hpor, -, -⟩ := Chip.states_of_awake hawake
  rw [Chip.coolantRise, hlow, if_neg Bool.false_ne_true]
  exact (if_neg hoff).trans (Chip.porCheck_past_por (by rwa [Chip.logicPower_dstate]))

theorem Chip.coolantLow5_of_awake (hlow : c.is F.SYS_STATE_COOLANT_OK = false) (h : c.awake = true) :
    c.coolantLow5 =
      let c := c.tie
      (c.freeNext).shutdown 3 0xFF (c.freeVal % 4096) := by
  obtain ⟨hoff, hpor, hshut, -⟩ := Chip.states_of_awake h
  simp only [Chip.coolantLow5, hlow, hoff, hpor, hshut, Bool.false_eq_true, or_self, if_false]

theorem Chip.coolantEnd_of_awake (hforced : c.aon.coolForced = true) (hok : c.is F.SYS_STATE_COOLANT_OK = true)
    (h : c.awake = true) :
    c.coolantEnd = Chip.raise EV_TH_COOLANT_RESTORED (min 65535 c.aon.coolLowUs)
      (({ c with aon := { c.aon with coolForced := false } } : Chip).set F.TH_STAT_COOLANT_LOW 0) := by
  have hawake : (({ c with aon := { c.aon with coolForced := false } } : Chip).set F.TH_STAT_COOLANT_LOW 0).awake = true :=
    (Chip.set_awake (by decide)).trans h
  rw [Chip.coolantEnd, hforced, hok, Bool.and_self, if_pos rfl]
  exact if_pos hawake

/-! ## The rows -/

/-- Settles O2: each row's command is one function of the device, and its equation under the clause's premises gives the row. -/
theorem resetPinRows : Obligations.ResetPinRows := by
  intro s
  refine ⟨?low, ?release, ?refLoss, ?refReturn, ?coolFall, ?coolRise, ?coolLow, ?coolEnd⟩
  case low => exact fun hs => exec_eq_of_runAon (exec_resetNLow s) (Chip.resetLow_of_awake (c := s.chip.quiet) hs)
  case release =>
    exact fun addrSel bootSrc cause hlow hheld hrail href hoff hc => exec_eq_of_runAon (exec_resetNRelease addrSel bootSrc s)
      (Chip.resetHigh_of_held (c := s.chip.quiet) hlow hheld hrail href hoff hc)
  case refLoss =>
    exact fun noEdge hok hs => exec_eq_of_runAon (exec_refclkLoss noEdge s) (Chip.refclkLost_of_awake (c := s.chip.quiet) hok hs)
  case refReturn =>
    exact fun cause hlost hoff hheld hlow hrail hc => exec_eq_of_runAon (exec_refclkReturn s)
      (Chip.refclkBack_of_held (c := s.chip.quiet) hlost hoff hheld hlow hrail hc)
  case coolFall =>
    exact fun hok hs => exec_eq_of_runAon (exec_coolantOkFall s) (Chip.coolantFall_of_awake (c := s.chip.quiet) hok hs)
  case coolRise =>
    exact fun lowUs hlow hs => exec_eq_of_runAon (exec_coolantOkRise lowUs s) (Chip.coolantRise_of_awake (c := s.chip.quiet) hlow hs)
  case coolLow =>
    exact fun hlow hs => exec_eq_of_runAon (exec_coolantLow5ms s) (Chip.coolantLow5_of_awake (c := s.chip.quiet) hlow hs)
  case coolEnd =>
    exact fun hforced hok hs => exec_eq_of_runAon (exec_coolantForcedEnd s)
      (Chip.coolantEnd_of_awake (c := s.chip.quiet) hforced hok hs)

end Sys2Proof.Machine
end

section
/-! PROOF. The commands of class 0x06 (O32): what each does from its slot. -/

namespace Sys2Proof.Machine

variable {c : Chip} {id ch : Nat} {pl : List Byte}

/-! ## Status (R323, R333) -/

theorem cmdDmaStatus_run_of_unheld (hch : ch = pf pl 0 4) (h : c.dmaHeld ch = false) :
    cmdDmaStatus.run id pl c = c.ok id (c.dmaStatusBytes ch) := by
  subst hch
  simp only [cmdDmaStatus, Cmd.plain, h, Bool.false_eq_true, if_false]

theorem cmdDmaStatus_run_of_held (hch : ch = pf pl 0 4) (h : c.dmaHeld ch = true) :
    cmdDmaStatus.run id pl c = c.setDm ch (fun x => { x with statW := x.statW ++ [id] }) := by
  subst hch
  simp only [cmdDmaStatus, Cmd.plain, h, if_true]

/-! ## Start and arm (R324, R325) -/

theorem cmdDmaStart_run_of_free (hch : ch = pf pl 0 2) (h : c.dmaFree ch = true) :
    cmdDmaStart.run id pl c =
      let d := ((c.set (F.DMA_SRC_W ch) (pf pl 8 8)).set (F.DMA_DST_W ch) (pf pl 16 8)).set (F.DMA_CTL_W ch) (pf pl 24 8)
      let d := (d.set (F.DMA_NEXT_W ch) (pf pl 32 8)).set (F.DMA_LEN_LEN ch) (pf pl 40 8)
      if pb pl 2 = 0 then (d.dmaGo ch).ok id []
      else ((d.interim id ST_ACCEPTED dtNone []).setDm ch (fun x => { x with startW := x.startW ++ [id] })).dmaGo ch := by
  subst hch
  simp only [cmdDmaStart, Cmd.plain, h, Bool.not_true, Bool.false_eq_true, if_false]

theorem cmdDmaArm_run_of_unarmed (hch : ch = pf pl 0 2) (h : c.is (F.DMA_CH_CMD_ARM ch) = false) :
    cmdDmaArm.run id pl c =
      let d := ((c.set (F.SH_SRC_W ch) (pf pl 8 8)).set (F.SH_DST_W ch) (pf pl 16 8)).set (F.SH_CTL_W ch) (pf pl 24 8)
      let d := (d.set (F.SH_NEXT_W ch) (pf pl 32 8)).set (F.SH_LEN_LEN ch) (pf pl 40 8)
      (d.dmaArm ch).ok id [] := by
  subst hch
  simp only [cmdDmaArm, Cmd.plain, h, Bool.false_eq_true, if_false]

/-! ## Pause, resume and abort (R329, R330) -/

/-- A channel that waits for an engine or has one is asked to pause; the command ends once it has. -/
theorem cmdDmaPause_run_of_busy (hch : ch = pf pl 0 4)
    (hbusy : c.dmState ch = dmQueued ∨ c.dmState ch = dmActive ∨ c.dmState ch = dmWaitDreq ∨ c.dmState ch = dmPausing) :
    cmdDmaPause.run id pl c =
      ((c.interim id ST_ACCEPTED dtNone []).setDm ch (fun x => { x with pauseW := x.pauseW ++ [id] })).dmaPause ch := by
  subst hch
  have hstill : ¬(c.dmState (pf pl 0 4) = dmPaused ∨ c.dmState (pf pl 0 4) = dmIdle ∨ c.dmState (pf pl 0 4) = dmDone) := by
    rcases hbusy with h | h | h | h <;> rw [h] <;> decide
  have hlost : ¬(c.dmState (pf pl 0 4) = dmError ∨ c.dmState (pf pl 0 4) = dmAborting) := by
    rcases hbusy with h | h | h | h <;> rw [h] <;> decide
  simp only [cmdDmaPause, Cmd.plain, hstill, hlost, if_false]

theorem cmdDmaPause_run_of_still (hch : ch = pf pl 0 4)
    (hstill : c.dmState ch = dmPaused ∨ c.dmState ch = dmIdle ∨ c.dmState ch = dmDone) : cmdDmaPause.run id pl c = c.ok id [] := by
  subst hch
  simp only [cmdDmaPause, Cmd.plain, hstill, if_true]

theorem cmdDmaResume_run_of_paused (hch : ch = pf pl 0 4) (h : c.dmState ch = dmPaused) :
    cmdDmaResume.run id pl c = (c.dmaResume ch).ok id [] := by
  subst hch
  simp only [cmdDmaResume, Cmd.plain, h, true_or, if_true]

theorem cmdDmaAbort_run_of_busy (hch : ch = pf pl 0 4) (h : c.dmState ch ≠ dmIdle) :
    cmdDmaAbort.run id pl c =
      ((c.interim id ST_ACCEPTED dtNone []).setDm ch (fun x => { x with abortW := x.abortW ++ [id] })).dmaAbort ch := by
  subst hch
  simp only [cmdDmaAbort, Cmd.plain, h, if_false]

theorem cmdDmaAbort_run_of_idle (hch : ch = pf pl 0 4) (h : c.dmState ch = dmIdle) : cmdDmaAbort.run id pl c = c.ok id [] := by
  subst hch
  simp only [cmdDmaAbort, Cmd.plain, h, if_true]

/-- Settles O32: the packet is accepted, so the command starts in its slot, and its start is what the row says. -/
theorem dmaCommandRows : Obligations.DmaCommandRows := by
  intro s p ch
  refine ⟨?status, ?held, ?start, ?arm, ?pause, ?still, ?resume, ?abort, ?idle⟩
  case status =>
    exact fun h hch hheld => exec_eq_of_accepts (exec_chDmaStatus p s) h
      (cmdDmaStatus_run_of_unheld (c := s.chip.quiet.slotFor cmdDmaStatus p) hch hheld)
  case held =>
    exact fun h hch hheld => exec_eq_of_accepts (exec_chDmaStatus p s) h
      (cmdDmaStatus_run_of_held (c := s.chip.quiet.slotFor cmdDmaStatus p) hch hheld)
  case start =>
    exact fun h hch hfree => exec_eq_of_accepts (exec_chDmaStart p s) h
      (cmdDmaStart_run_of_free (c := s.chip.quiet.slotFor cmdDmaStart p) hch hfree)
  case arm =>
    exact fun h hch hunarmed => exec_eq_of_accepts (exec_chDmaArm p s) h
      (cmdDmaArm_run_of_unarmed (c := s.chip.quiet.slotFor cmdDmaArm p) hch hunarmed)
  case pause =>
    exact fun h hch hbusy => exec_eq_of_accepts (exec_chDmaPause p s) h
      (cmdDmaPause_run_of_busy (c := s.chip.quiet.slotFor cmdDmaPause p) hch hbusy)
  case still =>
    exact fun h hch hstill => exec_eq_of_accepts (exec_chDmaPause p s) h
      (cmdDmaPause_run_of_still (c := s.chip.quiet.slotFor cmdDmaPause p) hch hstill)
  case resume =>
    exact fun h hch hpaused => exec_eq_of_accepts (exec_chDmaResume p s) h
      (cmdDmaResume_run_of_paused (c := s.chip.quiet.slotFor cmdDmaResume p) hch hpaused)
  case abort =>
    exact fun h hch hbusy => exec_eq_of_accepts (exec_chDmaAbort p s) h
      (cmdDmaAbort_run_of_busy (c := s.chip.quiet.slotFor cmdDmaAbort p) hch hbusy)
  case idle =>
    exact fun h hch hidle => exec_eq_of_accepts (exec_chDmaAbort p s) h
      (cmdDmaAbort_run_of_idle (c := s.chip.quiet.slotFor cmdDmaAbort p) hch hidle)

end Sys2Proof.Machine
end

section
/-! PROOF. The rows of the DMA channels (O31). -/

namespace Sys2Proof.Machine

variable {c : Chip} {ch : Nat}

/-! ## The state of a channel under stores to it -/

@[simp] theorem Chip.get_setDm (g : DmaCh → DmaCh) (c : Chip) (f : Fld) : (c.setDm ch g).get f = c.get f := rfl

@[simp] theorem Chip.is_setDm (g : DmaCh → DmaCh) (c : Chip) (f : Fld) : (c.setDm ch g).is f = c.is f := rfl

@[simp] theorem Chip.dm_setDm (g : DmaCh → DmaCh) (c : Chip) : (c.setDm ch g).dm ch = g (c.dm ch) := tget_tset_same _ _ _ _

@[simp] theorem Chip.dm_set (f : Fld) (v : Nat) (c : Chip) : (c.set f v).dm ch = c.dm ch := rfl

@[simp] theorem Chip.dmCtl_setDm (g : DmaCh → DmaCh) (i : Nat) (c : Chip) : (c.setDm ch g).dmCtl ch i = c.dmCtl ch i := rfl

/-- Whether a field is set is as before a store to a field of another key. -/
theorem Chip.is_set_ne {f g : Fld} (v : Nat) (c : Chip) (h : f.key ≠ g.key) : (c.set g v).is f = c.is f := by
  unfold Chip.is
  congr 2
  rw [Chip.get_set_ne v c h]

/-- What a channel stands in, and whether a chain of its waits at its end, are as before a store to another field. -/
theorem Chip.dmaFree_set {f : Fld} (v : Nat) (hstate : (F.DMA_CH_STAT_STATE ch).key ≠ f.key)
    (hchain : (F.DMA_CH_STAT_CHAIN_IDLE ch).key ≠ f.key) (c : Chip) : (c.set f v).dmaFree ch = c.dmaFree ch := by
  have hst : (c.set f v).dmState ch = c.dmState ch := Chip.get_set_ne v c hstate
  have hci : (c.set f v).chainIdle ch = c.chainIdle ch := Chip.is_set_ne v c hchain
  simp only [Chip.dmaFree, hst, hci]

theorem Chip.dmaFree_of_idle (h : c.dmState ch = dmIdle) : c.dmaFree ch = true := by
  simp only [Chip.dmaFree, h, decide_true, Bool.true_or]

/-- A channel that is DONE at the end of a chain is not free. -/
theorem Chip.dmaFree_of_chainIdle (hdone : c.dmState ch = dmDone) (hchain : c.chainIdle ch = true) : c.dmaFree ch = false := by
  have hidle : ¬dmDone = dmIdle := by decide
  simp only [Chip.dmaFree, hdone, hchain, hidle, decide_false, decide_true, Bool.not_true, Bool.and_false, Bool.or_self]

theorem Chip.dmaQueue_of_unpaused (h : c.is (F.DMA_CH_CMD_PAUSE ch) = false) : c.dmaQueue ch = c.dmaWait ch dmQueued := by
  simp only [Chip.dmaQueue, h, Bool.false_eq_true, if_false]

/-! ## The doorbell (R324) -/

theorem Chip.dmaGoBad_of_not_free (h : c.dmaFree ch = false) : c.dmaGoBad ch = false := by
  simp only [Chip.dmaGoBad, h, Bool.false_and]

/-- A free channel starts from its active set, and waits for an engine. -/
theorem Chip.dmaGo_of_free (hfree : c.dmaFree ch = true) (hpause : c.is (F.DMA_CH_CMD_PAUSE ch) = false) :
    c.dmaGo ch =
      (((c.set (F.DMA_CRC_CRC ch) 0).set (F.DMA_CH_STAT_FROM_DESC ch) 0).setDm ch
        (fun x => { x with phase := 0, gen := x.gen + 1, dfr := false })).dmaWait ch dmQueued := by
  simp only [Chip.dmaGo, hfree, if_true]
  refine Chip.dmaQueue_of_unpaused ?_
  rw [Chip.is_setDm, Chip.is_set_ne _ _ (by simp only [Fld.key, F.DMA_CH_CMD_PAUSE, F.DMA_CH_STAT_FROM_DESC]; omega),
    Chip.is_set_ne _ _ (by simp only [Fld.key, F.DMA_CH_CMD_PAUSE, F.DMA_CRC_CRC]; omega)]
  exact hpause

/-- At the end of a chain the doorbell has the tail read again. -/
theorem Chip.dmaGo_of_chainIdle (hdone : c.dmState ch = dmDone) (hchain : c.chainIdle ch = true)
    (hpause : c.is (F.DMA_CH_CMD_PAUSE ch) = false) :
    c.dmaGo ch =
      ((c.set (F.DMA_CH_STAT_CHAIN_IDLE ch) 0).setDm ch (fun x => { x with phase := 5, out := false })).dmaWait ch dmQueued := by
  simp only [Chip.dmaGo, Chip.dmaFree_of_chainIdle hdone hchain, hdone, Bool.false_eq_true, if_false, if_true]
  refine Chip.dmaQueue_of_unpaused ?_
  rw [Chip.is_setDm, Chip.is_set_ne _ _ (by simp only [Fld.key, F.DMA_CH_CMD_PAUSE, F.DMA_CH_STAT_CHAIN_IDLE]; omega)]
  exact hpause

/-! ## Pause, arm and close (R324, R325, R329) -/

theorem Chip.dmaPause_of_queued (h : c.dmState ch = dmQueued) : c.dmaPause ch = (c.set (F.DMA_CH_CMD_PAUSE ch) 1).dmaPausedNow ch := by
  have hstate : (c.set (F.DMA_CH_CMD_PAUSE ch) 1).dmState ch = dmQueued :=
    (Chip.get_set_ne _ _ (by simp only [Fld.key, F.DMA_CH_STAT_STATE, F.DMA_CH_CMD_PAUSE]; omega)).trans h
  simp only [Chip.dmaPause, hstate, true_or, if_true]

theorem Chip.dmaResume_of_paused (h : c.dmState ch = dmPaused) :
    c.dmaResume ch = (c.set (F.DMA_CH_CMD_PAUSE ch) 0).dmaWait ch dmQueued := by
  have hstate : (c.set (F.DMA_CH_CMD_PAUSE ch) 0).dmState ch = dmPaused :=
    (Chip.get_set_ne _ _ (by simp only [Fld.key, F.DMA_CH_STAT_STATE, F.DMA_CH_CMD_PAUSE]; omega)).trans h
  simp only [Chip.dmaResume, hstate, if_true]

theorem Chip.dmaFree_set_arm (v : Nat) (c : Chip) : (c.set (F.DMA_CH_CMD_ARM ch) v).dmaFree ch = c.dmaFree ch :=
  Chip.dmaFree_set v (by simp only [Fld.key, F.DMA_CH_STAT_STATE, F.DMA_CH_CMD_ARM]; omega)
    (by simp only [Fld.key, F.DMA_CH_STAT_CHAIN_IDLE, F.DMA_CH_CMD_ARM]; omega) c

theorem Chip.dmaArm_of_not_free (h : c.dmaFree ch = false) : c.dmaArm ch = c.set (F.DMA_CH_CMD_ARM ch) 1 := by
  simp only [Chip.dmaArm, Chip.dmaFree_set_arm, h, Bool.false_eq_true, if_false]

theorem Chip.dmaArm_of_idle (h : c.dmState ch = dmIdle) : c.dmaArm ch = (c.set (F.DMA_CH_CMD_ARM ch) 1).dmaPromote ch := by
  simp only [Chip.dmaArm, Chip.dmaFree_set_arm, Chip.dmaFree_of_idle h, if_true]

theorem Chip.dmaClose_of_unarmed (hdone : c.dmState ch = dmDone) (hchain : c.chainIdle ch = true)
    (harm : c.is (F.DMA_CH_CMD_ARM ch) = false) : c.dmaClose ch = c.set (F.DMA_CH_STAT_CHAIN_IDLE ch) 0 := by
  have harm' : (c.set (F.DMA_CH_STAT_CHAIN_IDLE ch) 0).is (F.DMA_CH_CMD_ARM ch) = false := by
    rw [Chip.is_set_ne _ _ (by simp only [Fld.key, F.DMA_CH_CMD_ARM, F.DMA_CH_STAT_CHAIN_IDLE]; omega)]
    exact harm
  simp only [Chip.dmaClose, hdone, hchain, harm', decide_true, Bool.and_self, Bool.false_eq_true, if_false, if_true]

/-! ## Engines (R317) -/

/-- The round-robin of one channel alone takes it: it is the only one of the highest priority. -/
theorem Chip.dmaLoad_of_alone {e : Nat} (hengines : c.dma.engines = []) (hqueued : c.dma.queued = [ch])
    (hstate : c.dmState ch = dmQueued) (hinit : c.dm ch = DmaCh.init) (hper : c.dmCtl ch 4 = false) :
    c.dmaLoad e =
      let d : Chip := { c with dma := { c.dma with
        queued := [], engines := [(e, ch)], rr := tset (c.get (F.DMA_CH_CFG_PRIO ch)) ch c.dma.rr } }
      let d := ((d.set (F.DMA_CH_STAT_ENGINE ch) e).set (F.DMA_CH_STAT_LOADED ch) 1).set (F.DMA_CH_STAT_STATE ch) dmActive
      ((d.setDm ch (fun x => { x with moved := 0, stop := 0, cut := none, out := false })).dmaBegin ch).dmaStep ch := by
  have hloaded (x : Chip) (hrf : x.rf = c.rf) :
      ((x.set (F.DMA_CH_STAT_ENGINE ch) e).set (F.DMA_CH_STAT_LOADED ch) 1).dmState ch = dmQueued := by
    rw [Chip.dmState, Chip.get_set_ne _ _ (by simp only [Fld.key, F.DMA_CH_STAT_STATE, F.DMA_CH_STAT_LOADED]; omega),
      Chip.get_set_ne _ _ (by simp only [Fld.key, F.DMA_CH_STAT_STATE, F.DMA_CH_STAT_ENGINE]; omega), Chip.get_of_rf _ hrf]
    exact hstate
  have hkept (x : Chip) (hrf : x.rf = c.rf) :
      (((x.set (F.DMA_CH_STAT_ENGINE ch) e).set (F.DMA_CH_STAT_LOADED ch) 1).set (F.DMA_CH_STAT_STATE ch) dmActive).dmCtl ch 4 =
        false := by
    rw [Chip.dmCtl, Chip.get_set_ne _ _ (by simp only [Fld.key, F.DMA_CTL_W, F.DMA_CH_STAT_STATE]; omega),
      Chip.get_set_ne _ _ (by simp only [Fld.key, F.DMA_CTL_W, F.DMA_CH_STAT_LOADED]; omega),
      Chip.get_set_ne _ _ (by simp only [Fld.key, F.DMA_CTL_W, F.DMA_CH_STAT_ENGINE]; omega), Chip.get_of_rf _ hrf]
    exact hper
  have hdm (x : Chip) (hdma : x.dma.chs = c.dma.chs) : x.dm ch = DmaCh.init := by
    rw [Chip.dm, hdma]
    exact hinit
  have hnew : ¬dmQueued = dmAborting := by decide
  simp [Chip.dmaLoad, hengines, hqueued, tfind, tset, Chip.dmaUnqueue, hloaded, hkept, hdm, hnew, Chip.dmaBegin, DmaCh.init]

/-- Settles O31. -/
theorem dmaRows : Obligations.DmaRows := by
  intro s ch hs
  refine ⟨?go, ?bad, ?tail, ?pause, ?resume, ?arm, ?promote, ?close, ?clrCnt, ?dreq, ?rise, ?load, ?long, ?retry, ?complete, ?read, ?held⟩
  case go =>
    exact fun hfree hok hpause => exec_eq_of_runChip (exec_dmaGo ch s) hs (by
      have hbad : s.chip.quiet.dmaGoBad ch = false := by
        change (s.chip.dmaFree ch && !s.chip.dmaSetOk ch) = false
        rw [hok, Bool.not_true, Bool.and_false]
      rw [hbad, Chip.dmaGo_of_free (c := s.chip.quiet) hfree hpause]
      rfl)
  case bad =>
    exact fun hfree hok => exec_eq_of_runChip (exec_dmaGo ch s) hs (by
      have hbad : s.chip.quiet.dmaGoBad ch = true := by
        change (s.chip.dmaFree ch && !s.chip.dmaSetOk ch) = true
        rw [hfree, hok]
        rfl
      rw [hbad]
      rfl)
  case tail =>
    exact fun hdone hchain hpause => exec_eq_of_runChip (exec_dmaGo ch s) hs (by
      rw [Chip.dmaGoBad_of_not_free (c := s.chip.quiet) (Chip.dmaFree_of_chainIdle hdone hchain),
        Chip.dmaGo_of_chainIdle (c := s.chip.quiet) hdone hchain hpause]
      rfl)
  case pause =>
    exact fun hq => exec_eq_of_runChip (exec_dmaPauseSet ch s) hs (by rw [Chip.dmaPause_of_queued (c := s.chip.quiet) hq])
  case resume =>
    exact fun hp => exec_eq_of_runChip (exec_dmaPauseClear ch s) hs (by rw [Chip.dmaResume_of_paused (c := s.chip.quiet) hp])
  case arm =>
    exact fun harm hok hfree => exec_eq_of_runChip (exec_dmaArm ch s) hs (by
      rw [if_neg (by rw [show s.chip.quiet.is (F.DMA_CH_CMD_ARM ch) = false from harm]; exact Bool.false_ne_true),
        if_neg (by rw [show s.chip.quiet.dmaShadowOk ch = true from hok]; exact Bool.false_ne_true),
        Chip.dmaArm_of_not_free (c := s.chip.quiet) hfree])
  case promote =>
    exact fun harm hok hidle => exec_eq_of_runChip (exec_dmaArm ch s) hs (by
      rw [if_neg (by rw [show s.chip.quiet.is (F.DMA_CH_CMD_ARM ch) = false from harm]; exact Bool.false_ne_true),
        if_neg (by rw [show s.chip.quiet.dmaShadowOk ch = true from hok]; exact Bool.false_ne_true),
        Chip.dmaArm_of_idle (c := s.chip.quiet) hidle])
  case close =>
    exact fun hdone hchain harm => exec_eq_of_runChip (exec_dmaClose ch s) hs (by
      rw [Chip.dmaClose_of_unarmed (c := s.chip.quiet) hdone hchain harm])
  case clrCnt => exact exec_eq_of_runChip (exec_dmaClrCnt ch s) hs rfl
  case dreq =>
    intro v hv
    exact ⟨exec_eq_of_runChip (exec_dmaDreqSet v s) hs (by rw [hv, Chip.dmaDreq]),
      exec_eq_of_runChip (exec_dmaDreqClr v s) hs (by rw [hv, Chip.dmaDreq])⟩
  case rise =>
    refine fun hwait hreq hpause => exec_eq_of_runChip (exec_dreqRise ch s) hs ?_
    have hrises : (decide (s.chip.quiet.dmState ch = dmWaitDreq) && s.chip.quiet.dmaReq ch) = true := by
      rw [show s.chip.quiet.dmState ch = dmWaitDreq from hwait, show s.chip.quiet.dmaReq ch = true from hreq]
      rfl
    rw [Chip.dmaRise, if_pos hrises, Chip.dmaQueue_of_unpaused (c := s.chip.quiet) hpause]
  case load =>
    exact fun e hengines hqueued hstate hinit hper => exec_eq_of_runChip (exec_dmaEngineLoad e s) hs
      (Chip.dmaLoad_of_alone (c := s.chip.quiet) hengines hqueued hstate hinit hper)
  case long => exact fun hq => exec_eq_of_runChip (exec_dmaQueueWaitLong ch s) hs (if_pos hq)
  case retry =>
    intro q a d hretry hissue
    refine exec_eq_of_runChip (exec_dmaBusyRetry ch s) hs ?_
    have hretry' : (s.chip.quiet.dm ch).retry = [(q, a)] := hretry
    simp only [Chip.dmaRetry, hretry', Chip.forAll_cons, Chip.forAll_nil, hissue]
  case complete =>
    intro hphase hloaded hchunks hdesc
    refine exec_eq_of_runChip (exec_dmaTransferComplete ch s) hs ?_
    have hphase' : (s.chip.quiet.dm ch).phase = 3 := hphase
    have hloaded' : s.chip.quiet.is (F.DMA_CH_STAT_LOADED ch) = true := hloaded
    have hmoved : s.chip.quiet.dmaAllMoved ch = s.chip.quiet.setDm ch (fun x => { x with chunks := [], gen := x.gen + 1 }) := by
      rw [Chip.dmaAllMoved, if_pos (show (s.chip.quiet.dm ch).chunks = [] from hchunks)]
    have hdesc' : (s.chip.quiet.setDm ch (fun x => { x with chunks := [], gen := x.gen + 1 })).fromDesc ch = true := hdesc
    simp only [Chip.dmaComplete, hphase', hloaded', hmoved, hdesc', ne_eq, not_true_eq_false, decide_false, Bool.not_true, Bool.or_self,
      Bool.false_eq_true, if_false, if_true]
  case read =>
    exact fun h => exec_eq_of_runChip (exec_dmaChStatRead ch s) hs (if_neg (Bool.eq_false_iff.1 h))
  case held => exact fun h => exec_eq_of_runChip (exec_dmaChStatRead ch s) hs (if_pos h)

end Sys2Proof.Machine
end

section
/-! PROOF. Windway packets on the way (O34): delivery, forwarding, and packets that cannot go on. -/

namespace Sys2Proof.Machine

variable {c : Chip} {s : State}

/-! ## Arrival on a port that is UP (R344, R348) -/

section
variable {p kind n : Nat} {h : WwHdr} {fields : List Nat} {own : Bool} {bad deliver : Nat → Chip → Chip}
variable (hup : c.wpState p = wpUp) (hhop : h.hopix.toNat < h.hops.toNat)
include hup hhop

/-- At its last hop a packet is delivered, unless it has to be the device that DST names and is not. -/
theorem Chip.wwArrive_of_last (hlast : h.hopix.toNat + 1 = h.hops.toNat) (hmine : own = true → h.dst.toNat = c.get F.WW_ID_DEVICE_ID) :
    c.wwArrive p kind n h fields own bad deliver = deliver (hdrRroute h p) c := by
  have hmine' : ¬(own && decide (h.dst.toNat ≠ c.get F.WW_ID_DEVICE_ID)) = true := by
    cases own with
    | false => simp
    | true => simp [hmine rfl]
  simp only [Chip.wwArrive, hup, hlast, hmine', ne_eq, not_true_eq_false, Nat.not_le.2 hhop, or_self, Nat.lt_irrefl, if_false,
    Bool.false_eq_true]

theorem Chip.wwArrive_of_other (hlast : h.hopix.toNat + 1 = h.hops.toNat) (hown : own = true)
    (hother : h.dst.toNat ≠ c.get F.WW_ID_DEVICE_ID) : c.wwArrive p kind n h fields own bad deliver = bad 0x32 c := by
  simp only [Chip.wwArrive, hup, hlast, hown, hother, ne_eq, not_true_eq_false, not_false_eq_true, decide_true, Bool.and_self,
    Nat.not_le.2 hhop, or_self, Nat.lt_irrefl, if_false, if_true]

theorem Chip.wwArrive_of_open (hmore : h.hopix.toNat + 1 < h.hops.toNat)
    (hnext : c.wpState (hopOf h.route.toNat (h.hopix.toNat + 1)) = wpUp) :
    c.wwArrive p kind n h fields own bad deliver =
      c.wwPort (hopOf h.route.toNat (h.hopix.toNat + 1)) kind n (hdrList h (h.hopix.toNat + 1) (hdrRroute h p)) fields := by
  simp only [Chip.wwArrive, hup, hmore, hnext, ne_eq, not_true_eq_false, Nat.not_le.2 hhop, or_self, if_false, if_true]

theorem Chip.wwArrive_of_shut (hmore : h.hopix.toNat + 1 < h.hops.toNat)
    (hnext : c.wpState (hopOf h.route.toNat (h.hopix.toNat + 1)) ≠ wpUp) :
    c.wwArrive p kind n h fields own bad deliver = bad 0x31 c := by
  simp only [Chip.wwArrive, hup, hmore, hnext, ne_eq, not_true_eq_false, Nat.not_le.2 hhop, or_self, if_false, if_true]

end

/-! ## Probes (R339, R340) -/

section
variable {p serial root : Nat} {path rev : List Nat}
variable (hup : c.wpState p = wpUp) (hroot : c.is F.WW_ID_ROOT = false)
include hup hroot

/-- A probe that has come as far as a path goes is answered and not sent on. -/
theorem Chip.probe_of_far (hmine : root ≠ c.ownUid) (hseen : c.ww.seen.contains (root, serial) = false) (hfar : 12 ≤ path.length) :
    c.probe p serial root path rev =
      Chip.wwByPath (p :: rev) wtProbeReply 1
        ([serial, c.ownUid] ++ wwPorts.flatMap (fun q => [c.wpState q, (c.wp q).uid, c.get (F.WW_P_STAT_PARTNER_PORT q)]))
        { c with ww := { c.ww with seen := (root, serial) :: c.ww.seen } } := by
  simp only [Chip.probe, hup, hroot, hmine, hseen, hfar, ne_eq, not_true_eq_false, Bool.false_eq_true, false_and, or_self, if_false, if_true]
  rfl

theorem Chip.probe_of_seen (hseen : c.ww.seen.contains (root, serial) = true) : c.probe p serial root path rev = c := by
  simp only [Chip.probe, hup, hroot, hseen, ne_eq, not_true_eq_false, Bool.false_eq_true, false_and, or_true, if_false, if_true]

end

/-- Settles O34: the packet comes on an UP port with hops left, so its place on the route says whether it is delivered, sent on or lost. -/
theorem windwayPacketRows : Obligations.WindwayPacketRows := by
  intro s p h hs hup hhop
  have hup' : s.chip.quiet.wpState p = wpUp := hup
  refine ⟨?reply, ?write, ?ack, ?mine, ?other, ?forward, ?shut, ?probe, ?seen⟩
  case reply =>
    exact fun serial uid ports hlast => exec_eq_of_runChip (exec_wwProbeReply p h serial uid ports s) hs
      (Chip.wwArrive_of_last hup' hhop hlast Bool.noConfusion)
  case write =>
    exact fun what hlast => exec_eq_of_runChip (exec_wwPathWrite p h what s) hs (Chip.wwArrive_of_last hup' hhop hlast Bool.noConfusion)
  case ack =>
    exact fun hlast => ⟨
      exec_eq_of_runChip (exec_wwPathReply p h s) hs (Chip.wwArrive_of_last hup' hhop hlast Bool.noConfusion),
      exec_eq_of_runChip (exec_epochSwitch p h s) hs (Chip.wwArrive_of_last hup' hhop hlast Bool.noConfusion)⟩
  case mine =>
    intro hlast hmine
    refine ⟨?req, ?rsp, ?err, ?link, ?hold, ?fault⟩
    case req => exact fun q => exec_eq_of_runChip (exec_wwReq p h q s) hs (Chip.wwArrive_of_last hup' hhop hlast fun _ => hmine)
    case rsp => exact fun r => exec_eq_of_runChip (exec_wwRsp p h r s) hs (Chip.wwArrive_of_last hup' hhop hlast fun _ => hmine)
    case err =>
      exact fun ni idx ep detail =>
        exec_eq_of_runChip (exec_wwErr p h ni idx ep detail s) hs (Chip.wwArrive_of_last hup' hhop hlast fun _ => hmine)
    case link =>
      intro port st e hroot hknown
      refine exec_eq_of_runChip (exec_linkChange p h port st s) hs ((Chip.wwArrive_of_last hup' hhop hlast fun _ => hmine).trans ?_)
      have hroot' : s.chip.quiet.is F.WW_ID_ROOT = true := hroot
      have hknown' : s.chip.quiet.ww.ids.find? (fun e => e.2 = h.src.toNat) = some e := hknown
      rw [hroot', if_pos rfl, hknown']
    case hold =>
      exact fun tick hold why =>
        exec_eq_of_runChip (exec_holdAnn p h tick hold why s) hs (Chip.wwArrive_of_last hup' hhop hlast fun _ => hmine)
    case fault => exact fun dev => exec_eq_of_runChip (exec_xgFault p h dev s) hs (Chip.wwArrive_of_last hup' hhop hlast fun _ => hmine)
  case other =>
    exact fun hlast hother => ⟨
      fun q => exec_eq_of_runChip (exec_wwReq p h q s) hs (Chip.wwArrive_of_other hup' hhop hlast rfl hother),
      fun dev => exec_eq_of_runChip (exec_xgFault p h dev s) hs (Chip.wwArrive_of_other hup' hhop hlast rfl hother)⟩
  case forward =>
    exact fun hmore hnext q => exec_eq_of_runChip (exec_wwReq p h q s) hs (Chip.wwArrive_of_open hup' hhop hmore hnext)
  case shut =>
    exact fun hmore hnext q => exec_eq_of_runChip (exec_wwReq p h q s) hs (Chip.wwArrive_of_shut hup' hhop hmore hnext)
  case probe =>
    exact fun serial root path rev hroot hmine hseen hfar => exec_eq_of_runChip (exec_wwProbe p serial root path rev s) hs
      (Chip.probe_of_far (c := s.chip.quiet) hup' hroot hmine hseen (by rw [List.length_map, hfar]))
  case seen =>
    exact fun serial root path rev hroot hseen => exec_eq_of_runChip (exec_wwProbe p serial root path rev s) hs
      (Chip.probe_of_seen (c := s.chip.quiet) hup' hroot hseen)

end Sys2Proof.Machine
end

section
/-! PROOF. The commands of class 0x07 (O35): what each does from its slot. -/

namespace Sys2Proof.Machine

variable {c : Chip} {id : Nat} {pl : List Byte}

theorem cmdWwDiscover_run_of_free (h : c.ww.change = none) :
    cmdWwDiscover.run id pl c = (c.interim id ST_ACCEPTED dtNone []).discStart (some id) := by
  simp only [cmdWwDiscover, Cmd.plain, h, Option.isSome_none, Bool.false_eq_true, if_false]

/-- With no request of the former epoch in flight a route change is accepted, and not deferred. -/
theorem cmdWwRoute_run_of_drained (hfree : c.ww.change = none) (hold : c.get F.WW_INFLIGHT_OLD = 0) :
    cmdWwRoute.run id pl c = (c.interim id ST_ACCEPTED dtNone []).routeStart (some id) (decide (pb pl 0 = 0)) := by
  simp only [cmdWwRoute, Cmd.plain, hfree, hold, Option.isSome_none, Bool.false_eq_true, if_false, if_true]

theorem cmdWwPort_run_of_used (h : c.wpState (pb pl 0) ≠ wpRetired) :
    cmdWwPort.run id pl c =
      (if pb pl 1 = 2 then c.portRetrain (pb pl 0) else c.portEnable (pb pl 0) (decide (pb pl 1 = 1))).ok id [] := by
  simp only [cmdWwPort, Cmd.plain, h, if_false]
  split <;> rfl

theorem cmdWwLaneTest_run_of_up (hret : (c.get (F.WW_P_STAT_LANE_RET (pb pl 0))).testBit (pb pl 1) = false)
    (hup : c.wpState (pb pl 0) = wpUp) (hsafe : c.dstate ≠ stSafe) (hroom : c.tqFull 9 (pb pl 0 + 8 * pb pl 1) = false) :
    cmdWwLaneTest.run id pl c = (c.interim id ST_ACCEPTED dtNone []).laneOut (pb pl 0) (pb pl 1) [id] := by
  simp only [cmdWwLaneTest, Cmd.plain, hret, hup, hsafe, hroom, ne_eq, not_true_eq_false, Bool.false_eq_true, if_false]

/-- Settles O35: the packet is accepted, so the command starts in its slot, and its start is what the row says. -/
theorem windwayCommandRows : Obligations.WindwayCommandRows := by
  intro s p
  refine ⟨?status, ?discover, ?topo, ?route, ?port, ?lane⟩
  case status => exact fun h => exec_eq_of_accepts (exec_chWwStatus p s) h rfl
  case discover =>
    exact fun h _ hfree => exec_eq_of_accepts (exec_chWwDiscover p s) h
      (cmdWwDiscover_run_of_free (c := s.chip.quiet.slotFor cmdWwDiscover p) hfree)
  case topo => exact fun h _ => exec_eq_of_accepts (exec_chWwTopoRead p s) h rfl
  case route =>
    exact fun h _ hfree hold => exec_eq_of_accepts (exec_chWwRoute p s) h
      (cmdWwRoute_run_of_drained (c := s.chip.quiet.slotFor cmdWwRoute p) hfree hold)
  case port =>
    exact fun h hused => exec_eq_of_accepts (exec_chWwPort p s) h (cmdWwPort_run_of_used (c := s.chip.quiet.slotFor cmdWwPort p) hused)
  case lane =>
    exact fun h hret hup hsafe hroom => exec_eq_of_accepts (exec_chWwLaneTest p s) h
      (cmdWwLaneTest_run_of_up (c := s.chip.quiet.slotFor cmdWwLaneTest p) hret hup hsafe hroom)

end Sys2Proof.Machine
end

section
/-! PROOF. The rows of Windway's links, discovery and time base (O33). -/

namespace Sys2Proof.Machine

variable {c : Chip} {p : Nat}

/-! ## Frames (R336 to R338) -/

section
variable {f bad : Nat} (hup : c.wpState p = wpUp)
include hup

theorem Chip.wpFrame_of_crc_error (hcrc : frameCrc f ≠ bits f 183 152) :
    c.wpFrame p f bad =
      ((c.inc (F.WW_P_CNT_CRC_ERR p)).setWp p (fun w => { w with
        errs := w.errs + 1
        fails := (List.range 4).map (fun l => w.fails.getD l 0 + bit bad l) })).wpNak p := by
  simp only [Chip.wpFrame, hup, hcrc, ne_eq, not_true_eq_false, not_false_eq_true, if_false, if_true]

/-- A data frame that acknowledges nothing and is the next in order is taken. -/
theorem Chip.wpFrame_of_next (hcrc : frameCrc f = bits f 183 152) (hack : f.testBit 144 = false) (hnak : f.testBit 145 = false)
    (hdata : bits f 150 149 = 0) (hnext : bits f 135 128 = (c.wp p).rxSeq) :
    c.wpFrame p f bad =
      ((c.setWp p (fun w => { w with rxSeq := (w.rxSeq + 1) % 256, gap := false })).emit (.wwAck p (bits f 135 128) false)).emit
        (.wwFlit p (bits f 148 146) (f % 2 ^ 128)) := by
  simp only [Chip.wpFrame, hup, hcrc, hack, hnak, hdata, hnext, ne_eq, not_true_eq_false, Bool.false_eq_true, false_and, if_false, if_true]

end

theorem Chip.wpReplay_of_fresh (h : ∀ x ∈ (c.wp p).unacked, x.2 < 3) : c.wpReplay p = c.wpResend p := by
  have hnone : ¬((c.wp p).unacked.any (fun f => decide (3 ≤ f.2))) = true := by
    simpa using fun a b hab => h (a, b) hab
  rw [Chip.wpReplay, if_neg hnone]

theorem Chip.wpWindow_of_few (h : (c.wp p).errs ≤ c.get F.WW_CTL_ERR_THRESH) :
    c.wpWindow p = c.setWp p (fun w => { w with errs := 0 }) := by
  simp only [Chip.wpWindow, Nat.not_lt.2 h, and_false, if_false]

/-! ## Ports (R339, R350, R351) -/

theorem Chip.wpFrames_net (n : Nat) (c : Chip) : (c.wpFrames p n).net = c.net := by
  induction n generalizing c with
  | zero => rfl
  | succ n ih =>
    rw [Chip.wpFrames]
    split
    · rfl
    · rw [ih]
      split <;> rfl

theorem Chip.wpFill_net (c : Chip) : (c.wpFill p).net = c.net := by
  rw [Chip.wpFill]
  split
  · rfl
  · exact Chip.wpFrames_net _ c

theorem Chip.widthShow_net (c : Chip) : (c.widthShow p).net = c.net := Chip.wpFill_net _

/-- Training ends on a port beside no bridge, whose domain was open. -/
theorem Chip.portUp_of_training {uid partner : Nat} (hruns : c.wwRuns = true) (hen : c.is (F.WW_P_CTL_EN p) = true)
    (htrain : c.wpState p = wpTraining) (hopen : c.domState (domPort p) = 0) :
    c.portUp p false uid partner =
      let d := (((c.set (F.WW_P_STAT_LSTATE p) wpUp).set (F.WW_P_STAT_BRIDGE p) 0).set (F.WW_P_CTL_RETRAIN p) 0)
      let d := ((d.set (F.WW_P_STAT_PARTNER_PORT p) partner).set (F.WW_P_STAT_PARTNER_ID p) (c.idOf uid))
      let d := (d.setWp p (fun w => { w with uid := uid })).widthShow p
      (d.raise EV_WW_LINK_UP (p + 8 * d.get (F.WW_P_STAT_WIDTH p))).linkChanged p wpUp := by
  have hlow : ¬wpUp ≤ wpTraining := by decide
  have hstill (d : Chip) (hnet : d.net = c.net) : (d.widthShow p).domState (domPort p) = 0 := by
    rw [Chip.domState, Chip.widthShow_net, hnet]
    exact hopen
  simp only [Chip.portUp, hruns, hen, htrain, hlow, Bool.not_true, decide_false, Bool.or_self, Bool.false_eq_true, false_and, and_false,
    if_false]
  rw [if_pos (hstill _ (by rfl))]
  rfl

theorem Chip.portDown_of_up (hup : c.wpState p = wpUp) :
    c.portDown p = ((c.portLeave p wpDown).raise EV_WW_LINK_DOWN p).linkChanged p wpDown := if_pos hup

theorem Chip.portRetrain_of_used (hused : c.wpState p ≠ wpRetired) (hen : c.is (F.WW_P_CTL_EN p) = true) (hruns : c.wwRuns = true) :
    c.portRetrain p = ((c.set (F.WW_P_STAT_LSTATE p) wpTraining).set (F.WW_P_STAT_WIDTH p) 0).set (F.WW_P_CTL_RETRAIN p) 1 := by
  simp only [Chip.portRetrain, hused, hen, hruns, Bool.not_true, Bool.false_eq_true, or_self, if_false]

/-! ## Discovery (Tables 13.2, 13.5) -/

section
variable {g : WwChange} (hg : c.ww.change = some g)
include hg

/-- The root alone on Windway has found itself, under the ID that it holds; requests of the former epoch are waited for. -/
theorem Chip.discExpire_of_alone (hphase : g.phase = 0) (hold : c.get F.WW_INFLIGHT_OLD ≠ 0) (htopo : c.ww.topo = [])
    (hids : c.ww.ids = [(c.ownUid, 0)]) :
    c.discExpire =
      let d := c.set F.WW_ID_DEVICES 1
      { d with ww := { d.ww with change := some { g with phase := 1 } } } := by
  have hfound : c.topoNow.map WwNode.uid = [c.ownUid] := by
    simp only [Chip.topoNow, htopo, List.filter_nil, List.map_cons, List.map_nil, Chip.ownNode]
  have hassign : assignIds c.ownUid [c.ownUid] c.ww.ids = c.ww.ids := by
    simp [assignIds, hids]
  have hold' (d : Chip) (hrf : d.rf = c.rf) : ¬(d.set F.WW_ID_DEVICES 1).get F.WW_INFLIGHT_OLD = 0 := by
    rwa [Chip.get_set_ne _ _ (by decide), Chip.get_of_rf _ hrf]
  have hme (d : Chip) (hkept : d.ww.ids = c.ww.ids) : d.idOf c.ownUid = 0 := by simp [Chip.idOf, hkept, hids]
  have hnamed : ¬(0 : Nat) = 0xFFF := by decide
  simp only [Chip.discExpire, hg, hphase, hfound, hassign, hme, hnamed, hold', ne_eq, not_true_eq_false, not_false_eq_true, if_false,
    List.filter_cons, List.filter_nil, decide_false, decide_true, Bool.false_eq_true, if_true, Chip.forAll_nil, List.length_cons,
    List.length_nil, Nat.zero_add]
  rfl

theorem Chip.oldDrained_of_waiting (hphase : g.phase = 1) (hold : c.get F.WW_INFLIGHT_OLD = 0) : c.oldDrained = c.changeWrite g := by
  simp only [Chip.oldDrained, hg, hphase, hold, and_self, if_true]

end

/-! ## The time base (R352 to R354) -/

theorem Chip.upstream_of_master (h : c.is F.WW_TB_CTL_MASTER = true) : c.upstream = none := if_pos h

/-- The master notes when it heard a code that echoes none of its own, and follows no one. -/
theorem Chip.timeCode_of_master {time at' : Nat} (hup : c.wpState p = wpUp) (hmaster : c.is F.WW_TB_CTL_MASTER = true) :
    c.timeCode p time none at' = c.setWp p (fun w => { w with heard := some (time, 32000 * c.get F.WW_TB_TIME + at') }) := by
  have hnone : (c.setWp p (fun w => { w with heard := some (time, c.tbAt at') })).upstream = none := Chip.upstream_of_master hmaster
  simp only [Chip.timeCode, hup, hnone, ne_eq, not_true_eq_false, reduceCtorEq, not_false_eq_true, if_false, if_true]
  rfl

/-- With one port UP the filter of the ports finds it alone. -/
theorem Chip.upPorts_of_only (hp : p < 8) (honly : ∀ q < 8, c.wpState q = wpUp ↔ q = p) :
    wwPorts.filter (fun q => c.wpState q = wpUp) = [p] := by
  have hfilter : wwPorts.filter (fun q => c.wpState q = wpUp) = wwPorts.filter (fun q => q = p) :=
    List.filter_congr fun q hq => by rw [decide_eq_decide]; exact honly q (List.mem_range.1 hq)
  rw [hfilter]
  have hone : ∀ p < 8, wwPorts.filter (fun q => q = p) = [p] := by decide
  exact hone p hp

theorem Chip.timeCodes_of_only (hp : p < 8) (honly : ∀ q < 8, c.wpState q = wpUp ↔ q = p) :
    c.timeCodes =
      c.emit (.timeCode p (32000 * c.get F.WW_TB_TIME) ((c.wp p).heard.map (fun h => (h.1, 32000 * c.get F.WW_TB_TIME - h.2)))) := by
  rw [Chip.timeCodes, Chip.upPorts_of_only hp honly]
  rfl

/-- A moment at most 1,200 units after a multiple of the period lies that much behind it: what remains to the next multiple, less the
period. -/
theorem syncError_of_near {per at' k : Nat} (hper : 2400 < per) (hat : at' ≤ 1200) :
    let e : Int := (0 - ((per * k + at' : Nat) : Int)) % per
    (if (per : Int) < 2 * e then e - per else e) = -(at' : Int) := by
  have he : (0 - ((per * k + at' : Nat) : Int)) % per = (-(at' : Int)) % per := by
    rw [show (0 - ((per * k + at' : Nat) : Int)) = -(at' : Int) + per * (-(k : Int)) by push_cast; ring]
    exact Int.add_mul_emod_self_left ..
  intro e
  rcases Nat.eq_zero_or_pos at' with rfl | hpos
  · have : e = 0 := by rw [show e = _ from he]; simp
    rw [this, if_neg (by omega)]
    rfl
  · have : e = per - at' := by
      rw [show e = _ from he, ← Int.add_emod_right, Int.emod_eq_of_lt (by omega) (by omega)]
      omega
    rw [this, if_pos (by omega)]
    omega

/-- An edge within 100 ps of its multiple of the period is followed as a phase error. -/
theorem Chip.syncIn_of_near {at' : Nat} (hruns : c.tbRuns = true) (hmaster : c.is F.WW_TB_CTL_MASTER = false)
    (hsrc : c.is F.WW_TB_CTL_SRC = true) (hmul : c.get F.WW_TB_TIME % 2 ^ c.get F.WW_TB_CTL_SYNC_LOG = 0)
    (hoff : c.get F.WW_TB_CTL_PIN_OFFSET = 0) (hat : at' ≤ 1200) :
    c.syncIn at' = c.set F.WW_TB_STAT_PHASE_ERR (toBits 16 (-((at' / 3 : Nat) : Int))) := by
  obtain ⟨k, hk⟩ := Nat.dvd_of_mod_eq_zero hmul
  have hper : 2400 < 32000 * 2 ^ c.get F.WW_TB_CTL_SYNC_LOG := by
    have := Nat.one_le_two_pow (n := c.get F.WW_TB_CTL_SYNC_LOG)
    omega
  have hown : c.tbAt at' = 32000 * 2 ^ c.get F.WW_TB_CTL_SYNC_LOG * k + at' := by
    rw [Chip.tbAt, hk]
    ring
  have herr := syncError_of_near (k := k) hper hat
  rw [← hown] at herr
  push_cast at herr
  have hzero : 3 * sext 32 0 = 0 := by decide
  have hnear : (-(at' : Int)).natAbs ≤ 1200 := by omega
  have htdiv : Int.tdiv (-(at' : Int)) 3 = -((at' / 3 : Nat) : Int) := by
    rw [Int.neg_tdiv]
    rfl
  simp only [Chip.syncIn, hruns, hmaster, hsrc, hoff, hzero, herr, Chip.tbFollow, hnear, htdiv, Bool.not_true, Bool.or_self,
    Bool.false_eq_true, if_false, if_true]

theorem Chip.tbLock_of_exact (hruns : c.tbRuns = true) (hopen : c.is F.WW_TB_STAT_LOCKED = false) (hmaster : c.is F.WW_TB_CTL_MASTER = true)
    (herr : c.get F.WW_TB_STAT_PHASE_ERR = 0) :
    c.tbLock = (c.set F.WW_TB_STAT_LOCKED 1).raise EV_WW_TB_LOCK (c.get F.WW_TB_STAT_UPSTREAM) := by
  have hsmall : ¬40 < (sext 16 0).natAbs := by decide
  simp only [Chip.tbLock, hruns, hopen, hmaster, herr, hsmall, decide_false, Bool.not_true, Bool.true_or, Bool.or_self, Bool.false_eq_true,
    if_false]

theorem Chip.tbLost_of_locked (hmaster : c.is F.WW_TB_CTL_MASTER = false) (hlocked : c.is F.WW_TB_STAT_LOCKED = true) :
    c.tbLost = (c.set F.WW_TB_STAT_LOCKED 0).raise EV_WW_TB_UNLOCK 1 := by
  simp only [Chip.tbLost, hmaster, hlocked, Bool.not_true, Bool.or_self, Bool.false_eq_true, if_false]

theorem Chip.syncOut_of_multiple (hruns : c.tbRuns = true) (hmul : c.get F.WW_TB_TIME % 2 ^ c.get F.WW_TB_CTL_SYNC_LOG = 0) :
    c.syncOut = c.emit (.syncOut (c.get F.WW_TB_TIME)) := by
  simp only [Chip.syncOut, hruns, hmul, decide_true, Bool.and_self, if_true]

/-! ## Route entries (R343) -/

section
variable {b d v : Nat}

theorem Chip.routeWrite_of_free (hbank : b ≠ c.get F.WW_ID_EPOCH) (hold : c.get F.WW_INFLIGHT_OLD = 0) :
    c.routeWrite b d v = (rspOk, c.set (F.WW_ROUTE_W b d) (v % 2 ^ (if d = 0xFFF then 40 else 41))) := by
  simp only [Chip.routeWrite, hbank, hold, ne_eq, not_true_eq_false, or_self, if_false, Chip.setRoute]

theorem Chip.routeWrite_of_used (h : b = c.get F.WW_ID_EPOCH ∨ c.get F.WW_INFLIGHT_OLD ≠ 0) : c.routeWrite b d v = (rspState, c) :=
  if_pos h

end

/-- Settles O33: each row by the state of the port, of the change or of the time base that its premises name. -/
theorem windwayLinkRows : Obligations.WindwayLinkRows := by
  intro s hs
  refine ⟨?badFrame, ?frame, ?replay, ?window, ?trained, ?down, ?disc, ?drained, ?code, ?codes, ?edge, ?lock, ?lost, ?pulse, ?clr, ?portClr,
    ?retrain, ?entry, ?entryUsed⟩
  case badFrame =>
    exact fun p f bad hup hcrc => exec_eq_of_runChip (exec_wwFrameReceive p f bad s) hs
      (Chip.wpFrame_of_crc_error (c := s.chip.quiet) hup hcrc)
  case frame =>
    exact fun p f bad hup hcrc hack hnak hdata hnext => exec_eq_of_runChip (exec_wwFrameReceive p f bad s) hs
      (Chip.wpFrame_of_next (c := s.chip.quiet) hup hcrc hack hnak hdata hnext)
  case replay =>
    exact fun p h => exec_eq_of_runChip (exec_wwReplayTimeout p s) hs (Chip.wpReplay_of_fresh (c := s.chip.quiet) h)
  case window =>
    exact fun p h => exec_eq_of_runChip (exec_wwErrWindow p s) hs (Chip.wpWindow_of_few (c := s.chip.quiet) h)
  case trained =>
    exact fun p uid partner hruns hen htrain hopen => exec_eq_of_runChip (exec_portTrained p false uid partner s) hs
      (Chip.portUp_of_training (c := s.chip.quiet) hruns hen htrain hopen)
  case down => exact fun p h => exec_eq_of_runChip (exec_linkDown p s) hs (Chip.portDown_of_up (c := s.chip.quiet) h)
  case disc =>
    exact fun g hg hphase hold htopo hids => exec_eq_of_runChip (exec_discWaitExpiry s) hs
      (Chip.discExpire_of_alone (c := s.chip.quiet) hg hphase hold htopo hids)
  case drained =>
    exact fun g hg hphase hold => exec_eq_of_runChip (exec_routeOldDrained s) hs
      (Chip.oldDrained_of_waiting (c := s.chip.quiet) hg hphase hold)
  case code =>
    exact fun p time at' hup hmaster => exec_eq_of_runChip (exec_timeCode p time none at' s) hs
      (Chip.timeCode_of_master (c := s.chip.quiet) hup hmaster)
  case codes =>
    exact fun p hp honly => exec_eq_of_runChip (exec_timeCodeSend s) hs (Chip.timeCodes_of_only (c := s.chip.quiet) hp honly)
  case edge =>
    exact fun at' hruns hmaster hsrc hmul hoff hat => exec_eq_of_runChip (exec_syncInEdge at' s) hs
      (Chip.syncIn_of_near (c := s.chip.quiet) hruns hmaster hsrc hmul hoff hat)
  case lock =>
    exact fun hruns hopen hmaster herr => exec_eq_of_runChip (exec_tbLock s) hs
      (Chip.tbLock_of_exact (c := s.chip.quiet) hruns hopen hmaster herr)
  case lost =>
    exact fun hmaster hlocked => exec_eq_of_runChip (exec_tbSourceLost s) hs (Chip.tbLost_of_locked (c := s.chip.quiet) hmaster hlocked)
  case pulse =>
    exact fun hruns hmul => exec_eq_of_runChip (exec_syncOutPulse s) hs (Chip.syncOut_of_multiple (c := s.chip.quiet) hruns hmul)
  case clr => exact exec_eq_of_runChip (exec_wwCntClr 1 s) hs rfl
  case portClr => exact fun p => exec_eq_of_runChip (exec_wwPCntClr p 1 s) hs rfl
  case retrain =>
    exact fun p hused hen hruns => exec_eq_of_runChip (exec_wwPRetrain p s) hs
      (congrArg (Chip.answer rspOk 0) (Chip.portRetrain_of_used (c := s.chip.quiet) hused hen hruns))
  case entry =>
    exact fun b d v hbank hold => exec_eq_of_runChip (exec_wwRouteEntryWrite b d v s) hs
      (congrArg answerWrite (Chip.routeWrite_of_free (c := s.chip.quiet) hbank hold))
  case entryUsed =>
    exact fun b d v h => exec_eq_of_runChip (exec_wwRouteEntryWrite b d v s) hs
      (congrArg answerWrite (Chip.routeWrite_of_used (c := s.chip.quiet) h))

end Sys2Proof.Machine
end

section
/-! PROOF. The commands of class 0x09 (O39): what each does from its slot. -/

namespace Sys2Proof.Machine

variable {c : Chip} {id : Nat} {pl : List Byte}

theorem Chip.interim_dstate (st dt : Nat) (bytes : List Byte) (c : Chip) : (c.interim id st dt bytes).dstate = c.dstate :=
  Chip.get_of_rf _ (Chip.interim_rf ..)

/-- An element that is no Windway lane waits for its test in the queue. -/
theorem cmdStRun_run_of_queued {k l : Nat} (hk : k = pb pl 0) (hl : l = pf pl 4 4) (hlane : k ≠ 9) (hused : c.elemRetired k l = false)
    (hsafe : c.dstate ≠ stSafe) (hroom : c.tqFull k l = false) :
    cmdStRun.run id pl c = (c.interim id ST_ACCEPTED dtNone []).tqPush k l [id] := by
  subst hk hl
  simp only [cmdStRun, stCmd, Cmd.plain, hlane, hused, hsafe, hroom, Bool.false_eq_true, false_and, if_false]

section
variable (hlc : lcProvField c.lc = false)
include hlc

theorem cmdStFull_run_of_fw (h : c.dstate = stFw) :
    cmdStFull.run id pl c =
      let d := ((((c.interim id ST_ACCEPTED dtNone []).setState stTest).holdAll).denAllLow).auxAll
      Chip.set F.ST_STAT_ACT 3 { d with st := { d.st with full := some { slot := id, aborts := [] } } } := by
  have huser : ¬stFw = stUser := by decide
  simp only [cmdStFull, stCmd, Cmd.plain, hlc, Chip.interim_dstate, h, huser, Bool.false_eq_true, if_false]

/-- From USER the device is left first, and what configuration was doing ends. -/
theorem cmdStFull_run_of_user (h : c.dstate = stUser) :
    cmdStFull.run id pl c =
      let d := ((c.interim id ST_ACCEPTED dtNone []).leaveUser).cfgCancel
      let d := (((d.setState stTest).holdAll).denAllLow).auxAll
      Chip.set F.ST_STAT_ACT 3 { d with st := { d.st with full := some { slot := id, aborts := [] } } } := by
  simp only [cmdStFull, stCmd, Cmd.plain, hlc, Chip.interim_dstate, h, Bool.false_eq_true, if_false, if_true]

end

/-- Settles O39: the packet is accepted, so the command starts in its slot, and its start is what the row says. -/
theorem selfTestCommandRows : Obligations.SelfTestCommandRows := by
  intro s p
  refine ⟨?status, ?run, ?fw, ?user, ?read, ?fuse, ?clear, ?ligature⟩
  case status => exact fun h => exec_eq_of_accepts (exec_chStStatus p s) h rfl
  case run =>
    exact fun k l h hk hl _ hlane hused hsafe hroom => exec_eq_of_accepts (exec_chStRun p s) h
      (cmdStRun_run_of_queued (c := s.chip.quiet.slotFor cmdStRun p) hk hl hlane hused hsafe hroom)
  case fw =>
    exact fun h _ hlc hfw => exec_eq_of_accepts (exec_chStFull p s) h
      (cmdStFull_run_of_fw (c := s.chip.quiet.slotFor cmdStFull p) hlc hfw)
  case user =>
    exact fun h hlc huser => exec_eq_of_accepts (exec_chStFull p s) h
      (cmdStFull_run_of_user (c := s.chip.quiet.slotFor cmdStFull p) hlc huser)
  case read => exact fun h _ => exec_eq_of_accepts (exec_chStLogRead p s) h rfl
  case fuse => exact fun h _ => exec_eq_of_accepts (exec_chStFuseRepair p s) h rfl
  case clear => exact fun h _ => exec_eq_of_accepts (exec_chStLogClear p s) h rfl
  case ligature => exact fun h _ => exec_eq_of_accepts (exec_chLgStatus p s) h rfl

end Sys2Proof.Machine
end

section
/-! PROOF. The rows of self-test, fuse burns and Ligature (O38). -/

namespace Sys2Proof.Machine

variable {c : Chip}

/-! ## Fuse burns (R388) -/

section
variable {b : Burn} {q : List Burn} (hburns : c.cfg.burns = b :: q)
include hburns

theorem Chip.fuseDone_of_burn (h : b.what ≠ 6) : c.fuseDone = Chip.burnDone b { c with cfg := { c.cfg with burns := q } } := by
  simp only [Chip.fuseDone, hburns, h, if_false]

theorem Chip.fuseDone_of_repair (h : b.what = 6) : c.fuseDone = Chip.fuseRepaired b { c with cfg := { c.cfg with burns := q } } := by
  simp only [Chip.fuseDone, hburns, h, if_true]

end

/-! ## Targeted tests (R338, R381, R382) -/

section
variable {t : TestItem} (hcur : c.st.cur = some t)
include hcur

/-- The verdict on a test that is not a router's link ends it there. -/
theorem Chip.testOver_of_pass (hlink : t.kind ≠ 10) (sub : Nat) :
    c.testOver 0 sub = Chip.testPass t (Chip.set F.ST_STAT_ACT 0 { c with st := { c.st with cur := none } }) := by
  simp only [Chip.testOver, hcur, hlink, if_false]

theorem Chip.testOver_of_fail (hlink : t.kind ≠ 10) (sub : Nat) :
    c.testOver 1 sub = Chip.testFail t sub (Chip.set F.ST_STAT_ACT 0 { c with st := { c.st with cur := none } }) := by
  simp only [Chip.testOver, hcur, hlink, if_false]

/-- A test that was cut short goes back to the head of the queue. -/
theorem Chip.testOver_of_cut (hlink : t.kind ≠ 10) (sub : Nat) :
    c.testOver 2 sub =
      let d : Chip := Chip.set F.ST_STAT_ACT 0 { c with st := { c.st with cur := none } }
      { d with st := { d.st with queue := t :: d.st.queue } } := by
  simp only [Chip.testOver, hcur, hlink, if_false]

theorem Chip.laneTested_of_cur {p l : Nat} (hlane : t.kind = 9) (hloc : t.loc = p + 8 * l) (pass : Bool) :
    c.laneTested p l pass = c.testOver (if pass then 0 else 1) 0 := by
  simp only [Chip.laneTested, hcur, hlane, hloc, and_self, if_true]

theorem Chip.testEnd_of_cur {y : TestYield} {sub : Nat} (hlane : t.kind ≠ 9) :
    c.testEnd y sub =
      (c.set F.ST_LAST_SIG_SIG y.sig.toNat).testOver (TestYield.verdict y.endSt y.done.toNat y.exp.toNat y.sigOk) sub := by
  simp only [Chip.testEnd, hcur, hlane, if_false]

end

theorem TestYield.verdict_pass {e d x : Nat} {ok : Bool} (he : e = 0) (hd : d = x) (hok : ok = true) :
    TestYield.verdict e d x ok = 0 := by
  simp only [TestYield.verdict, he, hd, hok, ne_eq, not_true_eq_false, decide_true, Bool.and_self, if_false, if_true]

theorem TestYield.verdict_cut {e d x : Nat} {ok : Bool} (he : e ≠ 0) : TestYield.verdict e d x ok = 2 := if_pos he

/-- The only test of the queue starts. -/
theorem Chip.testStart_of_only {t : TestItem} (hqueue : c.st.queue = [t]) (hused : c.elemRetired t.kind t.loc = false)
    (hready : c.testWaits t = false) (hruns : c.stRuns = true) (hcur : c.st.cur = none) (hslice : c.st.slice = none)
    (hlink : t.kind ≠ 10) :
    c.testStart = Chip.set F.ST_STAT_ACT 2 { c with st := { c.st with cur := some t, queue := [] } } := by
  have hdead : c.st.queue.filter (fun t => c.elemRetired t.kind t.loc) = [] := by simp [hqueue, hused]
  have hkept : c.st.queue.filter (fun t => !c.elemRetired t.kind t.loc) = c.st.queue := by simp [hqueue, hused]
  have hsame : ({ c with st := { c.st with queue := c.st.queue.filter (fun t => !c.elemRetired t.kind t.loc) } } : Chip) = c := by
    rw [hkept]
  have hnext : c.testNext = some t := by simp [Chip.testNext, hqueue, hready]
  have herase : c.st.queue.erase t = [] := by simp [hqueue]
  unfold Chip.testStart
  rw [hsame, hdead]
  simp only [Chip.forAll_nil, hnext, herase, hruns, hcur, hslice, hlink, Option.isSome_none, Bool.not_true, Bool.or_self, Bool.false_eq_true,
    if_false]

/-! ## Slices (R376 to R378) -/

section
variable (hen : c.stEn ≠ 0) (hruns : c.stRuns = true) (hslice : c.st.slice = none) (hcur : c.st.cur = none) (hqueue : c.st.queue = [])
variable (hkind : c.st.kind = 1) (hkinds : c.stKinds.testBit 1 = true) {exp : Nat}
include hen hruns hslice hcur hqueue hkind hkinds

/-- A slice of a DRAM bank wakes the bank's rank, and begins. -/
theorem Chip.sliceStart_of_dram :
    c.sliceStart true exp =
      let d : Chip := Chip.set F.ST_STAT_KIND 1 { c with st := { c.st with kind := 2 } }
      let d := d.drWakeRank (1024 * tget 0 1 c.st.ptr) false
      Chip.set F.ST_STAT_ACT 1
        { d with st := { d.st with slice := some (1, tget 0 1 c.st.ptr, d.dstate), skips := tdel 1 d.st.skips } } := by
  simp [Chip.sliceStart, hen, hruns, hslice, hcur, Chip.testNext, hqueue, hkind, hkinds, List.range_succ]

/-- A slice whose conditions do not hold is skipped; this is the kind's first skip in a row. -/
theorem Chip.sliceStart_of_skip (hskips : tget 0 1 c.st.skips = 0) :
    c.sliceStart false exp =
      let d : Chip := Chip.set F.ST_STAT_KIND 1 { c with st := { c.st with kind := 2 } }
      let d : Chip := { d.inc F.ST_CNT_B_SKIPPED with st := { d.st with skips := tset 1 1 d.st.skips } }
      ((((d.set F.ST_LAST_DONE 0).set F.ST_LAST_EXP exp).set F.ST_LAST_VERDICT 3).set F.ST_LAST_KIND 1).set F.ST_LAST_ELEMENT
        (tget 0 1 c.st.ptr) := by
  simp [Chip.sliceStart, hen, hruns, hslice, hcur, Chip.testNext, hqueue, hkind, hkinds, List.range_succ, hskips, Chip.raiseIf]

end

theorem Chip.sliceEnd_of_pass {y : TestYield} {n k first : Nat} {found : List Nat} (hslice : c.st.slice = some (k, first, c.dstate))
    (hend : y.endSt = 0) (hdone : y.done = y.exp) (hok : y.sigOk = true) :
    c.sliceEnd y n found =
      let d : Chip := { c with st := { c.st with slice := none, ptr := tset k ((first + max 1 n) % stCount k) c.st.ptr } }
      let d := (((d.set F.ST_STAT_ACT 0).set F.ST_LAST_SIG_SIG y.sig.toNat).set F.ST_LAST_DONE y.done.toNat).set F.ST_LAST_EXP y.exp.toNat
      let d := (((d.set F.ST_LAST_END 0).set F.ST_LAST_VERDICT 0).set F.ST_LAST_KIND k).set F.ST_LAST_ELEMENT first
      (if k = 3 then d.reedSliced first n else d).inc F.ST_CNT_A_PASS := by
  have hzero : (y.endSt : Nat) = 0 := by rw [hend]; rfl
  have hpass : TestYield.verdict 0 y.done.toNat y.exp.toNat y.sigOk = 0 := TestYield.verdict_pass rfl (by rw [hdone]) hok
  have htwo : ¬(0 : Nat) = 2 := by decide
  simp only [Chip.sliceEnd, hslice, hzero, hpass, htwo, if_true, if_false]

/-! ## The full test (R380) -/

theorem Chip.fullDone_of_clean {f : FullTest} {tested : Nat} (hfull : c.st.full = some f) (hkept : f.aborts = []) :
    c.fullDone tested [] [] =
      ((Chip.fullWipe { c with st := { c.st with full := none } }).set F.ST_STAT_ACT 0).ok f.slot
        (natLe 4 tested ++ natLe 4 0 ++ natLe 4 0 ++ natLe 4 0) := by
  simp only [Chip.fullDone, hfull, hkept, List.filter_nil, Chip.forAll_nil, Chip.fullFaults, List.length_nil, if_true]

/-! ## Ligature (R391 to R395) -/

section
variable {corr : Nat} {find : LgFind} (hen : c.lgEn ≠ 0) (hlow : stFw ≤ c.dstate) (hhigh : c.dstate ≤ stConfigFailed)
include hen hlow hhigh

theorem Chip.lgCheck_of_reloading (hreload : c.lg.reload ≠ none) :
    c.lgCheck corr find 2 = { c with lg := { c.lg with restart := true } } ∧ c.lgCheck corr find 0 = c := by
  have hbusy : c.lg.reload.isSome = true := Option.isSome_iff_ne_none.2 hreload
  constructor <;>
    simp [Chip.lgCheck, hen, Nat.not_lt.2 hlow, Nat.not_lt.2 hhigh, hbusy]

theorem Chip.lgCheck_of_no_agreement (hreload : c.lg.reload = none) : c.lgCheck corr find 2 = c.lgRestart := by
  simp [Chip.lgCheck, hen, Nat.not_lt.2 hlow, Nat.not_lt.2 hhigh, hreload]

/-- A word that is bad in the frame at the position, which is read. -/
theorem Chip.lgCheck_of_bad_word {r t q : Nat} {w : Fin 20} (hreload : c.lg.reload = none) (hr : r = c.get F.LG_STAT_REGION)
    (ht : t = c.get F.LG_STAT_STOP) (hq : q = c.get F.LG_STAT_FRAME) (hstop : t < 8) (hused : c.rgState r ≠ rgRetired)
    (hready : c.stopState r t = ssReady) :
    c.lgCheck 0 (.word w) 0 = (c.addSat F.LG_CNT_A_CORR 0).lgNext.lgBad r t q w false := by
  have hreads : c.lgReads (8 * r + t) = true := by
    have hdiv : (8 * r + t) / 8 = r := by omega
    have hmod : (8 * r + t) % 8 = t := by omega
    simp [Chip.lgReads, hdiv, hmod, hused, hready]
  subst hr ht hq
  simp [Chip.lgCheck, hen, Nat.not_lt.2 hlow, Nat.not_lt.2 hhigh, hreload, hreads, Chip.raiseIf]

end

theorem Chip.drRefusal_ne_ok {b : Nat} {r : Rsp} (h : c.drRefusal b = some r) : r ≠ rspOk := by
  have hdom : c.domAnswer domDram ≠ rspOk := by
    unfold Chip.domAnswer
    split <;> decide
  unfold Chip.drRefusal at h
  split at h
  · exact Option.some.inj h ▸ hdom
  split at h
  · exact Option.some.inj h ▸ (by decide)
  split at h
  · exact Option.some.inj h ▸ (by decide)
  · exact absurd h nofun

theorem Chip.rowReads_of_clean {a n : Nat} (hrows : ∀ b ∈ rowsOf a n, c.drRefusal b = none) (hbad : c.dr.bad = []) :
    c.rowReads a n = (rspOk, c) := by
  have hnone : (rowsOf a n).findSome? c.drRefusal = none := List.findSome?_eq_none_iff.2 hrows
  have hgood : (rowsOf a n).findSome? (fun b => c.dr.bad.find? (fun g => rowBase g = b)) = none :=
    List.findSome?_eq_none_iff.2 fun b _ => by rw [hbad]; rfl
  simp only [Chip.rowReads, hnone, hgood]

theorem Chip.rowReads_of_refused {a n b : Nat} (hb : b ∈ rowsOf a n) (h : c.drRefusal b ≠ none) :
    ∃ r, r ≠ rspOk ∧ c.rowReads a n = (r, c) := by
  cases hfind : (rowsOf a n).findSome? c.drRefusal with
  | none => exact absurd (List.findSome?_eq_none_iff.1 hfind b hb) h
  | some r =>
    obtain ⟨b', _, hr⟩ := List.exists_of_findSome?_eq_some hfind
    exact ⟨r, Chip.drRefusal_ne_ok hr, by simp only [Chip.rowReads, hfind]⟩

/-! A reload of a frame reads it from its slot. (The branches that the row does not take go first, with the function's local
definitions left in place: expanded, they are more than the kernel compares.) -/

section
variable {r t q w a : Nat} (hreload : c.lg.reload = some (r, t, q, w)) (htest : c.lg.testing = false)
variable (ha : a = c.slotAddr (tget 0 (rsKey r t) c.cfg.src) + 0x4000 + 320 * q)
include hreload htest ha

theorem Chip.lgReload_of_clean (hrows : ∀ b ∈ rowsOf a 320, c.drRefusal b = none) (hbad : c.dr.bad = []) :
    c.lgReload false false =
      Chip.reloadDone { c with cfg := { c.cfg with
        conf := tput zeroFrame (rsKey r t * 1600 + q) (c.slotFrame (tget 0 (rsKey r t) c.cfg.src) q) c.cfg.conf } } := by
  unfold Chip.lgReload
  rw [hreload]
  simp -zeta only [htest, Bool.false_eq_true, if_false]
  simp only [← ha, Chip.rowReads_of_clean hrows hbad, ne_eq, not_true_eq_false, if_false]

theorem Chip.lgReload_of_refused {b : Nat} (hb : b ∈ rowsOf a 320) (h : c.drRefusal b ≠ none) :
    c.lgReload false false =
      (((c.emptyStop r t).inc F.LG_CNT_C_RELOAD_FAIL).raise EV_LG_RELOAD_FAILED
        (r + t * 2 ^ 8 + q * 2 ^ 11 + b2n (decide (c.gov r = t)) * 2 ^ 22)).reloadOver := by
  obtain ⟨e, hne, hread⟩ := Chip.rowReads_of_refused hb h
  unfold Chip.lgReload
  rw [hreload]
  simp -zeta only [htest, Bool.false_eq_true, if_false]
  simp only [← ha, hread, hne, ne_eq, not_false_eq_true, if_true]

end

/-- Settles O38: each row by the burn, test, slice or frame that its premises name. -/
theorem selfTestRows : Obligations.SelfTestRows := by
  intro s hs
  refine ⟨?burn, ?repair, ?lane, ?slice, ?skip, ?pass, ?start, ?passed, ?cut, ?full, ?stClr, ?lgClr, ?bad, ?restart, ?reloading, ?reload⟩
  case burn =>
    exact fun b q hburns h => exec_eq_of_runChip (exec_fuseBurnDone s) hs (Chip.fuseDone_of_burn (c := s.chip.quiet) hburns h)
  case repair =>
    exact fun b q hburns h => exec_eq_of_runChip (exec_fuseBurnDone s) hs (Chip.fuseDone_of_repair (c := s.chip.quiet) hburns h)
  case lane =>
    intro p l t hcur hkind hloc
    have hlink : t.kind ≠ 10 := by rw [hkind]; decide
    exact ⟨
      exec_eq_of_runChip (exec_laneTestDone p l true s) hs
        ((Chip.laneTested_of_cur (c := s.chip.quiet) hcur hkind hloc true).trans (Chip.testOver_of_pass (c := s.chip.quiet) hcur hlink 0)),
      exec_eq_of_runChip (exec_laneTestDone p l false s) hs
        ((Chip.laneTested_of_cur (c := s.chip.quiet) hcur hkind hloc false).trans (Chip.testOver_of_fail (c := s.chip.quiet) hcur hlink 0))⟩
  case slice =>
    exact fun exp hen hruns hslice hcur hqueue hkind hkinds => exec_eq_of_runChip (exec_sliceStart true exp s) hs
      (Chip.sliceStart_of_dram (c := s.chip.quiet) hen hruns hslice hcur hqueue hkind hkinds)
  case skip =>
    exact fun exp hen hruns hslice hcur hqueue hkind hkinds hskips => exec_eq_of_runChip (exec_sliceStart false exp s) hs
      (Chip.sliceStart_of_skip (c := s.chip.quiet) hen hruns hslice hcur hqueue hkind hkinds hskips)
  case pass =>
    exact fun y n k first found hslice hend hdone hok => exec_eq_of_runChip (exec_sliceEnd y n found s) hs
      (Chip.sliceEnd_of_pass (c := s.chip.quiet) hslice hend hdone hok)
  case start =>
    exact fun t hqueue hused hready hruns hcur hslice hlink => exec_eq_of_runChip (exec_targetedTestStart s) hs
      (Chip.testStart_of_only (c := s.chip.quiet) hqueue hused hready hruns hcur hslice hlink)
  case passed =>
    intro y sub t hcur hlane hlink hend hdone hok
    refine exec_eq_of_runChip (exec_targetedTestEnd y sub s) hs ?_
    rw [Chip.testEnd_of_cur (c := s.chip.quiet) hcur hlane,
      TestYield.verdict_pass (by rw [hend]; rfl) (by rw [hdone]) hok,
      Chip.testOver_of_pass (c := s.chip.quiet.set F.ST_LAST_SIG_SIG y.sig.toNat) hcur hlink]
  case cut =>
    intro y sub t hcur hlane hlink hend
    refine exec_eq_of_runChip (exec_targetedTestEnd y sub s) hs ?_
    rw [Chip.testEnd_of_cur (c := s.chip.quiet) hcur hlane, TestYield.verdict_cut fun h => hend (Fin.ext h),
      Chip.testOver_of_cut (c := s.chip.quiet.set F.ST_LAST_SIG_SIG y.sig.toNat) hcur hlink]
  case full =>
    exact fun tested f hfull hkept => exec_eq_of_runChip (exec_fullTestDone tested [] [] s) hs
      (Chip.fullDone_of_clean (c := s.chip.quiet) hfull hkept)
  case stClr => exact exec_eq_of_runChip (exec_stCntClr 2 s) hs rfl
  case lgClr => exact exec_eq_of_runChip (exec_lgCntClr 4 s) hs rfl
  case bad =>
    exact fun r t q w hen hlow hhigh hreload hr ht hq hstop hused hready => exec_eq_of_runChip (exec_ligatureFrameCheck 0 (.word w) 0 s) hs
      (Chip.lgCheck_of_bad_word (c := s.chip.quiet) hen hlow hhigh hreload hr ht hq hstop hused hready)
  case restart =>
    exact fun hen hlow hhigh hreload corr find => exec_eq_of_runChip (exec_ligatureFrameCheck corr find 2 s) hs
      (Chip.lgCheck_of_no_agreement (c := s.chip.quiet) hen hlow hhigh hreload)
  case reloading =>
    intro hen hlow hhigh hreload corr find
    obtain ⟨hwaits, hstays⟩ :=
      Chip.lgCheck_of_reloading (c := s.chip.quiet) (corr := corr) (find := find) hen hlow hhigh hreload
    exact ⟨exec_eq_of_runChip (exec_ligatureFrameCheck corr find 2 s) hs hwaits,
      exec_eq_of_runChip (exec_ligatureFrameCheck corr find 0 s) hs hstays⟩
  case reload =>
    exact fun r t q w a hreload htest ha => ⟨
      fun hrows hbad => exec_eq_of_runChip (exec_ligatureReloadDone false false s) hs
        (Chip.lgReload_of_clean (c := s.chip.quiet) hreload htest ha hrows hbad),
      fun b hb hrefused => exec_eq_of_runChip (exec_ligatureReloadDone false false s) hs
        (Chip.lgReload_of_refused (c := s.chip.quiet) hreload htest ha hb hrefused)⟩

end Sys2Proof.Machine
end

section
/-! PROOF. The rows of the network (O30). -/

namespace Sys2Proof.Machine

variable {c : Chip} {q : NReq}

/-! ## Requests of designs (R19, R298) -/

section
variable (hempty : c.net.riser = [])
include hempty

theorem Chip.riserEnter_riser : (c.riserEnter q).net.riser = [q] := by
  simp [Chip.riserEnter, hempty]

/-- The only request of the riser gates goes on where its NI has a buffer, and else waits. -/
theorem Chip.riserPump_riserEnter : (c.riserEnter q).riserPump = ((c.riserEnter q).riserTake q).getD (c.riserEnter q) := by
  simp [Chip.riserPump, Chip.riserEnter_riser hempty]

end

/-! ## Requests at a scratchpad (R255 to R258) -/

section
variable {r w : Nat} {op : SpOp} {n be : Nat}
variable (hrun : c.rgState r = rgRun) (hon : c.bankState r (w % 16) = bankOn) (hlease : c.is (F.SP_PWR_STAT_LEASE r (w % 16)) = false)
variable (hbusy : c.is (F.SP_PWR_STAT_BUSY r (w % 16)) = false) (hcap : c.capHolds r w = false)
variable (hgood : c.sp.bad.contains (spAddr r w) = false)
include hrun hon hlease hbusy hcap hgood

/-- A word of a bank that is ON, free of leases, transitions and captures, and correct: the operation is performed. -/
theorem Chip.portB_of_open : c.portB r w op n be 0 false = (.done rspOk (c.spWord r w), c.spStore r w op n be) := by
  have hgone : ¬bankOn = bankGone := by decide
  have hheld : ¬rgRun = rgHeld := by decide
  have hoff : ¬rgRun = rgOff := by decide
  simp only [Chip.portB, hrun, hon, hlease, hbusy, hcap, Chip.bankOp_of_sound hgood, hgone, hheld, hoff, ne_eq, not_true_eq_false,
    decide_false, Bool.false_and, Bool.and_false, Bool.or_self, Bool.false_eq_true, if_false]

/-- A request of one such word is performed at the head of its region's riser gate, or where that gate is empty. -/
theorem Chip.netSpad_of_open (hone : q.n = 1) (hgate : c.gateOf r = [] ∨ (c.gateOf r).head? = some q) :
    c.netSpad q r w [] 0 =
      ((c.spStore r w (kindOp q.kind) (q.data.getD 0 0) (q.bes.getD 0 (if q.kind = 1 then 0 else 0xFFFF))).unflight q).respond
        q.ni q.idx q.ep rspOk 0 (if q.kind = 1 then [] else [c.spWord r w]) (niOf q.addr) := by
  have hhead : ((c.gateOf r).head?.any fun p => decide (p ≠ q)) = false := by
    rcases hgate with h | h <;> simp [h]
  have hword : c.spadWord q r w 0 [] 0 =
      (.done rspOk (c.spWord r w),
        c.spStore r w (kindOp q.kind) (q.data.getD 0 0) (q.bes.getD 0 (if q.kind = 1 then 0 else 0xFFFF))) := by
    simp only [Chip.spadWord, Nat.add_zero, List.getD_nil, Nat.zero_testBit]
    exact Chip.portB_of_open hrun hon hlease hbusy hcap hgood
  simp only [Chip.netSpad, hhead, hone, List.range_one, List.any_cons, List.any_nil, hword, reduceCtorEq, decide_false, Bool.or_self,
    Bool.false_eq_true, if_false, Chip.spadWords, if_true, List.nil_append]

end

section
variable {flaws : List Nat} {coll : Nat}

theorem Chip.perform_of_spad {r w : Nat} (hplace : placeOf q.addr = .spad r w) (hroute : c.routeOk q.ni (niOf q.addr) = true)
    (hopen : c.domState (domRegion r) = 0) : c.perform q flaws coll = some (c.netSpad q r w flaws coll) := by
  have hnone : (some (domRegion r)).filter (fun d => decide (c.domState d ≠ 0)) = none :=
    Option.filter_some_neg (by simp [hopen])
  simp only [Chip.perform, domOf, hplace, hroute, hnone, Bool.not_true, Bool.false_eq_true, if_false]

/-- A request whose route needs a retired link is answered by its own NI (R313). -/
theorem Chip.perform_of_no_path (hroute : c.routeOk q.ni (niOf q.addr) = false) :
    c.perform q flaws coll = some ((c.unflight q).respond q.ni q.idx q.ep rspNoPath 0 [] q.ni) := by
  simp only [Chip.perform, hroute, Bool.not_false, if_true]

theorem Chip.netRow_of_performed {kind ni idx : Nat} {d : Chip} (hflight : c.inFlight ni idx = some q) (hfirst : c.firstOf q = true)
    (hkind : q.kind = kind) (hdone : c.perform q flaws coll = some d) : c.netRow kind ni idx flaws coll = d.netServe := by
  simp only [Chip.netRow, hflight, hfirst, hkind, hdone, decide_true, Bool.and_self, if_true, Option.getD_some]

end

/-! ## User ports (R296) -/

theorem Chip.netUport_of_open {r k : Nat} {f : Byte} (hen : c.is (F.PE_CTL_UPORT_EN k) = true) (hmine : c.uportRegion k = r)
    (hroom : (c.eng k).uport.length + tget 0 k c.net.credit ≤ 64) (hregion : c.domState (domRegion r) = 0)
    (hengine : c.domState (domEngine k) = 0) (hroute : c.routeOk (96 + r) (8 + k) = true) :
    c.netUport r k (.flags f) = c.uportFlags k f.toNat := by
  simp only [Chip.netUport, hen, hmine, hregion, hengine, hroute, Nat.add_zero, Nat.not_lt.2 hroom, ne_eq, not_true_eq_false,
    decide_false, Bool.not_true, Bool.or_self, Bool.false_eq_true, if_false]

/-! ## Responses and timeouts (R303, R307, R308) -/

theorem Chip.netResponse_of_awaited {ni idx ep ns : Nat} {r : NRsp} {o : NOut}
    (hfind : c.net.rsps.find? (fun r => r.ni = ni && r.idx = idx && r.ep = ep) = some r) (hroute : c.routeOk r.from' r.ni = true)
    (hout : c.net.outs.find? (fun o => o.req.ni = r.ni && o.req.idx = r.idx && o.req.ep = r.ep && o.sent) = some o) :
    c.netResponse ni idx ep ns = (Chip.deliver o r ns { c with net := { c.net with rsps := c.net.rsps.erase r } }).netServe := by
  have hroute' : Chip.routeOk { c with net := { c.net with rsps := c.net.rsps.erase r } } r.from' r.ni = true := hroute
  simp only [Chip.netResponse, hfind, Chip.rspArrive, hroute', hout, Bool.not_true, Bool.false_eq_true, if_false]

theorem Chip.niTimeout_of_sent {ni idx : Nat} {o : NOut}
    (hfind : c.net.outs.find? (fun o => o.req.ni = ni && o.req.idx = idx) = some o) (hsent : o.sent = true) :
    c.niTimeout ni idx =
      let d := ((c.outCancel o).inc (F.NI_CNT_A_TOUT_CNT ni)).set (F.NI_STAT_TOUT ni) 1
      ((d.latency ni o.req.cls (100 * o.tmo)).agentAnswer o rspTout 0 []).netServe := by
  simp only [Chip.niTimeout, hfind, hsent, if_true]

/-! ## Domains and routers (R309, R312) -/

theorem Chip.domReopen_of_ready {d : NetDomain} (hclosed : c.domState (domNum d) ≠ 0) (hready : c.domReady d = true) :
    c.domReopen d = c.domOpen (domNum d) := by
  simp only [Chip.domReopen, hclosed, hready, ne_eq, not_false_eq_true, decide_true, Bool.and_self, if_true]

/-- The last router of a weight change has drained: its weights take effect, and the change is over. -/
theorem Chip.quiesced_of_last {n : Nat} (hquiet : c.is (F.ROUTER_STAT_QUIESCING n) = true) (hlinks : c.net.linkQ = [])
    (hlast : c.net.wrrTo = [n]) (hretry : c.net.retry = []) :
    c.quiesced n =
      let d := c.set (F.ROUTER_STAT_QUIESCING n) 0
      Chip.set F.NET_STAT_WRR_PENDING 0 { d with net := { d.net with
        linkQ := [], wrrTo := [], wts := tset n (d.regWord F.NET_WRR_W_RT.off) d.net.wts } } := by
  simp [Chip.quiesced, hquiet, hlinks, hlast, hretry]
  rfl

section
variable {n : Nat} {ns : List Nat} (hnext : c.net.wrrTo = n :: ns)
include hnext

theorem Chip.quiesceRetry_of_abandoned (hretry : c.net.retry.contains n = true) :
    c.quiesceRetry n =
      Chip.set (F.ROUTER_STAT_QUIESCING n) 1 { c with net := { c.net with retry := c.net.retry.erase n } } := by
  simp only [Chip.quiesceRetry, hnext, hretry, List.head?_cons, ne_eq, not_true_eq_false, if_false, if_true]

theorem Chip.quiesceRetry_of_first (hretry : c.net.retry.contains n = false) (hlinks : c.net.linkQ = []) :
    c.quiesceRetry n =
      let d : Chip := { c with net := { c.net with retry := n :: c.net.retry } }
      (d.set F.NET_STAT_QFAIL 1).set (F.ROUTER_STAT_QUIESCING n) 0 := by
  simp only [Chip.quiesceRetry, hnext, hretry, hlinks, List.head?_cons, ne_eq, not_true_eq_false, Bool.false_eq_true, if_false,
    List.any_nil]
  rfl

end

/-- Settles O30: each row by the request, response or router that its premises name. -/
theorem networkRows : Obligations.NetworkRows := by
  intro s hs
  refine ⟨?design, ?spad, ?noPath, ?uport, ?response, ?timeout, ?busy, ?reopen, ?drained, ?again, ?first⟩
  case design =>
    intro ni kind dev addr len rbe bes data q hni hkind hrun hopen hempty hq
    have haccept : s.chip.quiet.niAccept ni (.design kind dev addr len rbe bes data) =
        ((s.chip.quiet.riserEnter q).riserTake q).getD (s.chip.quiet.riserEnter q) := by
      rw [← Chip.riserPump_riserEnter (c := s.chip.quiet) hempty, hq]
      exact if_pos ⟨hni, hkind, hrun, hopen⟩
    exact ⟨
      fun d htake => exec_eq_of_runChip (exec_niRequestAccept ni _ s) hs (haccept.trans (by rw [htake]; rfl)),
      fun htake => exec_eq_of_runChip (exec_niRequestAccept ni _ s) hs (haccept.trans (by rw [htake]; rfl))⟩
  case spad =>
    intro ni idx q r w hflight hfirst hone hplace hroute hopen hrun hon hlease hbusy hcap hgood hgate
    have hperformed := (Chip.perform_of_spad (c := s.chip.quiet) (flaws := []) (coll := 0) hplace hroute hopen).trans
      (congrArg some (Chip.netSpad_of_open hrun hon hlease hbusy hcap hgood hone hgate))
    have hrow {kind : Nat} (hkind : q.kind = kind) :=
      Chip.netRow_of_performed (c := s.chip.quiet) (ni := ni) (idx := idx) hflight hfirst hkind hperformed
    refine ⟨fun h => ?read, fun h => ?write, fun h => ?add64, fun h => ?add128, fun h => ?swap⟩
    case read => exact exec_eq_of_runChip (exec_netRead ni idx [] s) hs ((hrow h).trans (by rw [h]; rfl))
    case write => exact exec_eq_of_runChip (exec_netWrite ni idx [] 0 s) hs ((hrow h).trans (by rw [h]; rfl))
    case add64 => exact exec_eq_of_runChip (exec_netAdd64 ni idx [] 0 s) hs ((hrow h).trans (by rw [h]; rfl))
    case add128 => exact exec_eq_of_runChip (exec_netAdd128 ni idx [] 0 s) hs ((hrow h).trans (by rw [h]; rfl))
    case swap => exact exec_eq_of_runChip (exec_netSwap ni idx [] 0 s) hs ((hrow h).trans (by rw [h]; rfl))
  case noPath =>
    exact fun ni idx q flaws hflight hfirst hroute hkind => exec_eq_of_runChip (exec_netRead ni idx flaws s) hs
      (Chip.netRow_of_performed (c := s.chip.quiet) hflight hfirst hkind (Chip.perform_of_no_path (c := s.chip.quiet) hroute))
  case uport =>
    exact fun r k f hen hmine hroom hregion hengine hroute => exec_eq_of_runChip (exec_netUport r k (.flags f) s) hs
      (Chip.netUport_of_open (c := s.chip.quiet) hen hmine hroom hregion hengine hroute)
  case response =>
    exact fun ni idx ep ns r o hfind hroute hout => exec_eq_of_runChip (exec_netResponseArrival ni idx ep ns s) hs
      (Chip.netResponse_of_awaited (c := s.chip.quiet) hfind hroute hout)
  case timeout =>
    exact fun ni idx o hfind hsent => exec_eq_of_runChip (exec_niTimeout ni idx s) hs
      (Chip.niTimeout_of_sent (c := s.chip.quiet) hfind hsent)
  case busy =>
    exact fun ni q hfind hlow hwait hroute => exec_eq_of_runChip (exec_niBusyWaitExpiry ni true s) hs
      (Chip.busyExpiry_of_wait (c := s.chip.quiet) hfind hwait (fun h => absurd hlow (Nat.not_lt.2 h)) hroute)
  case reopen =>
    exact fun d hclosed hready => exec_eq_of_runChip (exec_domainReopen d s) hs
      (Chip.domReopen_of_ready (c := s.chip.quiet) hclosed hready)
  case drained =>
    exact fun n hquiet hlinks hlast hretry => exec_eq_of_runChip (exec_routerQuiesceDone n s) hs
      (Chip.quiesced_of_last (c := s.chip.quiet) hquiet hlinks hlast hretry)
  case again =>
    exact fun n ns hnext hretry => exec_eq_of_runChip (exec_routerQuiesceRetry n s) hs
      (Chip.quiesceRetry_of_abandoned (c := s.chip.quiet) hnext hretry)
  case first =>
    exact fun n ns hnext hretry hlinks => exec_eq_of_runChip (exec_routerQuiesceRetry n s) hs
      (Chip.quiesceRetry_of_first (c := s.chip.quiet) hnext hretry hlinks)

end Sys2Proof.Machine
end

section
/-! PROOF. Every operation leaves the test access port as it is (O45, R440): folds, pairs and options first. -/

namespace Sys2Proof.Machine

variable {c : Chip}

@[simp] theorem Chip.ite_jtag {p : Prop} [Decidable p] (a b : Chip) : (if p then a else b).jtag = if p then a.jtag else b.jtag :=
  apply_ite Chip.jtag p a b

@[simp] theorem Chip.ite_snd_jtag {α : Type} {p : Prop} [Decidable p] (a b : α × Chip) :
    (if p then a else b).2.jtag = if p then a.2.jtag else b.2.jtag := apply_ite (fun x => x.2.jtag) p a b

@[simp] theorem Chip.forAll_jtag {α : Type} {l : List α} {f : α → Chip → Chip} (hf : ∀ a d, (f a d).jtag = d.jtag) :
    (c.forAll l f).jtag = c.jtag := Chip.forAll_frame Chip.jtag l hf c

/-- The second part of a pair that a match has taken apart. -/
theorem Chip.jtag_of_snd {α : Type} {x : α × Chip} {a : α} {d : Chip} (h : x = (a, d)) : d.jtag = x.2.jtag :=
  (congrArg (fun y => y.2.jtag) h).symm

/-- A fold over pairs whose every step leaves the test access port. -/
theorem foldl_snd_jtag {α β : Type} {l : List α} {f : β × Chip → α → β × Chip} {a : β × Chip}
    (hf : ∀ a x, (f a x).2.jtag = a.2.jtag) : (l.foldl f a).2.jtag = a.2.jtag := by
  induction l generalizing a with
  | nil => rfl
  | cons x l ih => exact ih.trans (hf a x)

/-- An operation that may not take place, or else nothing. -/
theorem Chip.jtag_getD {o : Option Chip} (ho : ∀ d, o = some d → d.jtag = c.jtag) : (o.getD c).jtag = c.jtag := by
  cases o with
  | none => rfl
  | some d => exact ho d rfl

/-- An operation that may not take place, followed by another. -/
theorem Chip.jtag_of_map {o : Option Chip} {f : Chip → Chip} {d : Chip} (h : o.map f = some d)
    (ho : ∀ e, o = some e → e.jtag = c.jtag) (hf : ∀ e, (f e).jtag = e.jtag) : d.jtag = c.jtag := by
  obtain ⟨e, he, rfl⟩ := Option.map_eq_some_iff.mp h
  exact (hf e).trans (ho e he)

/-- An update of the configuration. The new value stays out of the comparison of the two devices. -/
theorem Chip.jtag_mk_cfg (d : Chip) (x : Cfg) : ({ d with cfg := x } : Chip).jtag = d.jtag := rfl

end Sys2Proof.Machine
end

section
/-! PROOF. Each operation of Machine/Ops.lean leaves the test access port as it is (O45). The lemmas `Chip.set_jtag` and
`Chip.emit_jtag` hold by unfolding, and simp cannot use such a lemma for the steps of a fold (`Chip.forAll_jtag`): the lemmas
`Chip.jtag_set` and `Chip.jtag_emit` stand in for them there. -/

namespace Sys2Proof.Machine

variable {c : Chip}

@[simp] theorem Chip.jtag_set {f v} : (c.set f v).jtag = c.jtag := by rfl

@[simp] theorem Chip.jtag_addSat {f n} : (c.addSat f n).jtag = c.jtag := by rfl

@[simp] theorem Chip.jtag_inc {f} : (c.inc f).jtag = c.jtag := by rfl

@[simp] theorem Chip.jtag_emit {o} : (c.emit o).jtag = c.jtag := by rfl

@[simp] theorem Chip.jtag_writeFld {lockOk v f} : (c.writeFld lockOk v f).jtag = c.jtag := by
  unfold Chip.writeFld
  split <;> simp

@[simp] theorem Chip.jtag_writeFlds {lockOk v fs} : (c.writeFlds lockOk v fs).jtag = c.jtag := by simp [Chip.writeFlds]

@[simp] theorem Chip.jtag_clear {fs} : (c.clear fs).jtag = c.jtag := by simp [Chip.clear, -Chip.set_jtag]

@[simp] theorem Chip.jtag_resetRange {lo hi keep} : (c.resetRange lo hi keep).jtag = c.jtag := by rfl

@[simp] theorem Chip.jtag_freeNext : c.freeNext.jtag = c.jtag := by rfl

end Sys2Proof.Machine
end

section
/-! PROOF. Each operation of Machine/Operands.lean leaves the test access port as it is (O45). -/

namespace Sys2Proof.Machine

variable {c : Chip}

@[simp] theorem Chip.jtag_tie : c.tie.jtag = c.jtag := by simp [Chip.tie]

@[simp] theorem Chip.jtag_arrive {level st} : (c.arrive level st).jtag = c.jtag := by simp [Chip.arrive]

@[simp] theorem Chip.jtag_setState {st} : (c.setState st).jtag = c.jtag := by simp [Chip.setState]

@[simp] theorem Chip.jtag_answer {r data} : (c.answer r data).jtag = c.jtag := by rfl

end Sys2Proof.Machine
end

section
/-! PROOF. Each operation of Machine/Flags.lean leaves the test access port as it is (O45). -/

namespace Sys2Proof.Machine

variable {c : Chip}

@[simp] theorem Chip.jtag_notice {kind} : (c.notice kind).jtag = c.jtag := by simp [Chip.notice]

@[simp] theorem Chip.jtag_emitIbi {b} : (c.emitIbi b).jtag = c.jtag := by rfl

@[simp] theorem Chip.jtag_requestEventIbi : c.requestEventIbi.jtag = c.jtag := by simp [Chip.requestEventIbi]

@[simp] theorem Chip.jtag_ibiIfRisen {before} : (c.ibiIfRisen before).jtag = c.jtag := by simp [Chip.ibiIfRisen]

@[simp] theorem Chip.jtag_evqPut {e} : (c.evqPut e).jtag = c.jtag := by simp [Chip.evqPut]

@[simp] theorem Chip.jtag_evLogPut {e} : (c.evLogPut e).jtag = c.jtag := by simp [Chip.evLogPut]

@[simp] theorem Chip.jtag_raiseAt {code sev arg} : (c.raiseAt code sev arg).jtag = c.jtag := by simp [Chip.raiseAt]

@[simp] theorem Chip.jtag_raise {e arg} : (c.raise e arg).jtag = c.jtag := by simp [Chip.raise]

@[simp] theorem Chip.jtag_raiseIf {b e arg} : (c.raiseIf b e arg).jtag = c.jtag := by simp [Chip.raiseIf]

@[simp] theorem Chip.jtag_evqOverflow : c.evqOverflow.jtag = c.jtag := by simp [Chip.evqOverflow]

@[simp] theorem Chip.jtag_flagEvent {f e arg} : (c.flagEvent f e arg).jtag = c.jtag := by simp [Chip.flagEvent]

end Sys2Proof.Machine
end

section
/-! PROOF. Each operation of Machine/Chanter.lean leaves the test access port as it is (O45). -/

namespace Sys2Proof.Machine

variable {c : Chip}

@[simp] theorem Chip.jtag_sendReply {route slot refusal bytes} : (c.sendReply route slot refusal bytes).jtag = c.jtag := by
  unfold Chip.sendReply
  split <;> simp

@[simp] theorem Chip.jtag_setSlot {id f} : (c.setSlot id f).jtag = c.jtag := by rfl

@[simp] theorem Chip.jtag_freeSlot {id} : (c.freeSlot id).jtag = c.jtag := by rfl

@[simp] theorem Chip.jtag_interim {id status detail payload} : (c.interim id status detail payload).jtag = c.jtag := by
  unfold Chip.interim
  split <;> simp

@[simp] theorem Chip.jtag_finish1 {id status detail payload} : (c.finish1 id status detail payload).jtag = c.jtag := by
  unfold Chip.finish1
  split <;> simp

@[simp] theorem Chip.jtag_finish {id status detail payload} : (c.finish id status detail payload).jtag = c.jtag := by simp [Chip.finish]

@[simp] theorem Chip.jtag_ok {id payload} : (c.ok id payload).jtag = c.jtag := by simp [Chip.ok]

@[simp] theorem Chip.jtag_fail {id status detail} : (c.fail id status detail).jtag = c.jtag := by simp [Chip.fail]

@[simp] theorem Chip.jtag_endCmd {cls op ok status detail payload} : (c.endCmd cls op ok status detail payload).jtag = c.jtag := by
  unfold Chip.endCmd
  split <;> simp

@[simp] theorem Chip.jtag_refuse {route cls op tag status detail} : (c.refuse route cls op tag status detail).jtag = c.jtag := by
  simp [Chip.refuse]

@[simp] theorem Chip.jtag_forwardPkt {route cls op tag flags dest payload} :
    (c.forwardPkt route cls op tag flags dest payload).jtag = c.jtag := by
  simp [Chip.forwardPkt]

@[simp] theorem Chip.jtag_takeSlot {started route cls op tag flags dest payload} :
    (c.takeSlot started route cls op tag flags dest payload).jtag = c.jtag := by
  rfl

theorem Chip.jtag_runCmd {k route cls op tag flags dest payload}
    (hk : ∀ k', k = some k' → ∀ id pl (d : Chip), (k'.run id pl d).jtag = d.jtag) :
    (c.runCmd k route cls op tag flags dest payload).jtag = c.jtag := by
  unfold Chip.runCmd
  split
  · simp
  · next k =>
    split
    · simp
    · split
      · exact (hk k rfl _ _ _).trans (by simp)
      · simp

theorem Chip.jtag_takePacket {k route cls op tag flags dest payload}
    (hk : ∀ k', k = some k' → ∀ id pl (d : Chip), (k'.run id pl d).jtag = d.jtag) :
    (c.takePacket k route cls op tag flags dest payload).jtag = c.jtag := by
  unfold Chip.takePacket
  split
  · simp
  · simp
  · exact Chip.jtag_runCmd hk

@[simp] theorem Chip.jtag_command {k p} (hk : ∀ id pl (d : Chip), (k.run id pl d).jtag = d.jtag) :
    (c.command k p).jtag = c.jtag := by
  have ht : (c.takePacket (some k) p.route k.cls k.op p.tag.toNat p.flags.toNat p.dest.toNat p.payload).jtag = c.jtag :=
    Chip.jtag_takePacket fun k' e => by cases e; exact hk
  simp [Chip.command, ht]

end Sys2Proof.Machine
end

section
/-! PROOF. Each operation of Machine/Nvs.lean leaves the test access port as it is (O45). -/

namespace Sys2Proof.Machine

variable {c : Chip}

@[simp] theorem Chip.jtag_nvsPut {w v} : (c.nvsPut w v).jtag = c.jtag := by simp [Chip.nvsPut]

@[simp] theorem Chip.jtag_nvsJob {j} : (c.nvsJob j).jtag = c.jtag := by rfl

@[simp] theorem Chip.jtag_recWrite {r p bank done} : (c.recWrite r p bank done).jtag = c.jtag := by rfl

@[simp] theorem Chip.jtag_nvsWrite {ws done} : (c.nvsWrite ws done).jtag = c.jtag := by rfl

@[simp] theorem Chip.jtag_nvsStep {m} : (c.nvsStep m).1.jtag = c.jtag := by
  unfold Chip.nvsStep
  split <;> simp

@[simp] theorem Chip.jtag_evlogWords {n} : (c.evlogWords n).jtag = c.jtag := by
  unfold Chip.evlogWords
  split <;> simp

@[simp] theorem Chip.jtag_evlogWritten : c.evlogWritten.jtag = c.jtag := by simp [Chip.evlogWritten]

@[simp] theorem Chip.jtag_evlogResume : c.evlogResume.jtag = c.jtag := by simp [Chip.evlogResume]

@[simp] theorem Chip.jtag_nvsStop : c.nvsStop.jtag = c.jtag := by
  unfold Chip.nvsStop
  extract_lets c1 c2 nvs
  have h1 : c1.jtag = c.jtag := by simp [c1]
  clear_value c1
  have h2 : c2.jtag = c1.jtag := Chip.forAll_jtag fun m d => by split <;> simp
  clear_value c2
  exact h2.trans h1

@[simp] theorem Chip.jtag_nvsTear {mask} : (c.nvsTear mask).jtag = c.jtag := by simp [Chip.nvsTear]

end Sys2Proof.Machine
end

section
/-! PROOF. Each operation of Machine/Link.lean leaves the test access port as it is (O45). -/

namespace Sys2Proof.Machine

variable {c : Chip}

@[simp] theorem Chip.jtag_setWp {p f} : (c.setWp p f).jtag = c.jtag := by rfl

@[simp] theorem Chip.jtag_wpFrames {p n} : (c.wpFrames p n).jtag = c.jtag := by
  induction n generalizing c with
  | zero => rfl
  | succ n ih =>
    unfold Chip.wpFrames
    split
    · rfl
    · exact ih.trans (by simp)

@[simp] theorem Chip.jtag_wpFill {p} : (c.wpFill p).jtag = c.jtag := by simp [Chip.wpFill]

@[simp] theorem Chip.jtag_wwPort {p kind n head fields} : (c.wwPort p kind n head fields).jtag = c.jtag := by simp [Chip.wwPort]

@[simp] theorem Chip.jtag_wwAlong {kind cls dst route hops n fields} : (c.wwAlong kind cls dst route hops n fields).jtag = c.jtag := by
  simp [Chip.wwAlong]

@[simp] theorem Chip.jtag_wwTo {dst kind n fields} : (c.wwTo dst kind n fields).jtag = c.jtag := by
  unfold Chip.wwTo
  split <;> simp

end Sys2Proof.Machine
end

section
/-! PROOF. Each operation of Machine/Capture.lean leaves the test access port as it is (O45). -/

namespace Sys2Proof.Machine

variable {c : Chip}

@[simp] theorem Chip.jtag_setEng {k f} : (c.setEng k f).jtag = c.jtag := by rfl

@[simp] theorem Chip.jtag_setFifo {k q} : (c.setFifo k q).jtag = c.jtag := by simp [Chip.setFifo]

@[simp] theorem Chip.jtag_markLost {d} : (c.markLost d).jtag = c.jtag := by rfl

@[simp] theorem Chip.jtag_countFails {k e} : (c.countFails k e).jtag = c.jtag := by simp [Chip.countFails]

@[simp] theorem Chip.jtag_logFail {k e dropped} : (c.logFail k e dropped).jtag = c.jtag := by simp [Chip.logFail]

@[simp] theorem Chip.jtag_enterFail {k w} : (c.enterFail k w).jtag = c.jtag := by simp [Chip.enterFail]

@[simp] theorem Chip.jtag_fatMark : c.fatMark.jtag = c.jtag := by simp [Chip.fatMark]

theorem Chip.jtag_fatInsert {fails x y dom} {d} (h : c.fatInsert fails x y dom = some d) : d.jtag = c.jtag := by
  unfold Chip.fatInsert at h
  extract_lets all cap at h
  split at h
  · cases h; rfl
  · split at h
    · cases h; simp
    · cases h

@[simp] theorem Chip.jtag_fatReject {k e} : (c.fatReject k e).jtag = c.jtag := by simp [Chip.fatReject]

@[simp] theorem Chip.jtag_setWb {a wb} : (c.setWb a wb).jtag = c.jtag := by rfl

@[simp] theorem Chip.jtag_flushMark : c.flushMark.jtag = c.jtag := by simp [Chip.flushMark]

theorem Chip.jtag_bmOffer {k e} : (c.bmOffer k e).chip.jtag = c.jtag := by
  unfold Chip.bmOffer
  extract_lets x y bxw bs base rest cap fresh
  (repeat' split) <;> simp [BmStep.chip]

@[simp] theorem Chip.jtag_dispatch {k} : (c.dispatch k).jtag = c.jtag := by
  unfold Chip.dispatch
  split
  · rfl
  · next e q _ =>
    extract_lets cap rejected cap1 c1 c2 cap2
    have h1 : c1.jtag = c.jtag := by
      unfold c1
      split
      · rfl
      · split
        · rfl
        · split
          · next d h =>
            have hd := Chip.jtag_fatInsert h
            exact hd
          · split
            · exact Chip.jtag_fatReject
            · rfl
    have h2 : c2.jtag = c1.jtag := by
      unfold c2
      split
      · rfl
      · have hb : (c1.bmOffer k e).chip.jtag = c1.jtag := Chip.jtag_bmOffer
        split
        · next d h =>
          rw [h] at hb
          exact (Chip.jtag_flushMark).trans hb
        · next d h =>
          rw [h] at hb
          exact hb
    split <;> simp [h1, h2]

@[simp] theorem Chip.jtag_retryHeads : c.retryHeads.jtag = c.jtag := by simp [Chip.retryHeads]

@[simp] theorem Chip.jtag_failDispatch : c.failDispatch.jtag = c.jtag := by
  unfold Chip.failDispatch
  split <;> simp

@[simp] theorem Chip.jtag_fatExpire {k} : (c.fatExpire k).jtag = c.jtag := by
  unfold Chip.fatExpire
  (repeat' split) <;> simp

@[simp] theorem Chip.jtag_fatTake {j} : (c.fatTake j).jtag = c.jtag := by simp [Chip.fatTake]

@[simp] theorem Chip.jtag_bmFail {r uncorr} : (c.bmFail r uncorr).jtag = c.jtag := by simp [Chip.bmFail]

@[simp] theorem Chip.jtag_flushDone : c.flushDone.jtag = c.jtag := by simp [Chip.flushDone]

@[simp] theorem Chip.jtag_bmPerformed {a} : (c.bmPerformed a).jtag = c.jtag := by
  unfold Chip.bmPerformed
  split <;> simp

@[simp] theorem Chip.jtag_fatPortLo : c.fatPortLo.2.jtag = c.jtag := by rfl

@[simp] theorem Chip.jtag_fatPortHi : c.fatPortHi.2.jtag = c.jtag := by simp [Chip.fatPortHi]

@[simp] theorem Chip.jtag_clearBits {fs v} : (c.clearBits fs v).jtag = c.jtag := by simp [Chip.clearBits]

@[simp] theorem Chip.jtag_capCntClr {k v} : (c.capCntClr k v).jtag = c.jtag := by simp [Chip.capCntClr]

@[simp] theorem Chip.jtag_writeBm {k base geom} : (c.writeBm k base geom).2.jtag = c.jtag := by simp [Chip.writeBm]

@[simp] theorem jtag_cmdCapStatus {id pl} : (cmdCapStatus.run id pl c).jtag = c.jtag := by simp [cmdCapStatus, Cmd.plain]

@[simp] theorem jtag_cmdCapConfig {id pl} : (cmdCapConfig.run id pl c).jtag = c.jtag := by simp [cmdCapConfig, Cmd.plain]

@[simp] theorem Chip.jtag_capClearEng {k} : (c.capClearEng k).jtag = c.jtag := by simp [Chip.capClearEng]

@[simp] theorem jtag_cmdCapClear {id pl} : (cmdCapClear.run id pl c).jtag = c.jtag := by simp [cmdCapClear, Cmd.plain]

@[simp] theorem jtag_cmdCapBmFlush {id pl} : (cmdCapBmFlush.run id pl c).jtag = c.jtag := by simp [cmdCapBmFlush, Cmd.plain]

@[simp] theorem jtag_cmdCapBmZero {id pl} : (cmdCapBmZero.run id pl c).jtag = c.jtag := by simp [cmdCapBmZero, Cmd.plain]

@[simp] theorem jtag_cmdCapFflRead {id pl} : (cmdCapFflRead.run id pl c).jtag = c.jtag := by simp [cmdCapFflRead, Cmd.plain]

@[simp] theorem jtag_cmdCapFatRead {id pl} : (cmdCapFatRead.run id pl c).jtag = c.jtag := by simp [cmdCapFatRead, Cmd.plain]

@[simp] theorem jtag_cmdCapLostRead {id pl} : (cmdCapLostRead.run id pl c).jtag = c.jtag := by simp [cmdCapLostRead, Cmd.plain]

end Sys2Proof.Machine
end

section
/-! PROOF. Each operation of Machine/TestQueue.lean leaves the test access port as it is (O45). -/

namespace Sys2Proof.Machine

variable {c : Chip}

@[simp] theorem Chip.jtag_tqPush {kind loc slots} : (c.tqPush kind loc slots).jtag = c.jtag := by simp [Chip.tqPush]

@[simp] theorem Chip.jtag_rlogShow : c.rlogShow.jtag = c.jtag := by rfl

@[simp] theorem Chip.jtag_logRepair {action kind loc spare} : (c.logRepair action kind loc spare).jtag = c.jtag := by simp [Chip.logRepair]

end Sys2Proof.Machine
end

section
/-! PROOF. Each operation of Machine/RowPort.lean leaves the test access port as it is (O45). -/

namespace Sys2Proof.Machine

variable {c : Chip}

@[simp] theorem Chip.jtag_drCmd {cmd bank row port perr} : (c.drCmd cmd bank row port perr).jtag = c.jtag := by rfl

@[simp] theorem Chip.jtag_drLevels : c.drLevels.jtag = c.jtag := by simp [Chip.drLevels]

@[simp] theorem Chip.jtag_endAll {ids st dt} : (c.endAll ids st dt).jtag = c.jtag := by simp [Chip.endAll]

@[simp] theorem Chip.jtag_drStops : c.drStops.jtag = c.jtag := by simp [Chip.drStops]

@[simp] theorem Chip.jtag_drFreeze {cause onWrite addr synd} : (c.drFreeze cause onWrite addr synd).jtag = c.jtag := by simp [Chip.drFreeze]

@[simp] theorem Chip.jtag_drParity {perr addr} : (c.drParity perr addr).jtag = c.jtag := by simp [Chip.drParity]

@[simp] theorem Chip.jtag_drWakeRank {a perr} : (c.drWakeRank a perr).jtag = c.jtag := by simp [Chip.drWakeRank]

@[simp] theorem Chip.jtag_drPush {a bs rowOr} : (c.drPush a bs rowOr).jtag = c.jtag := by simp [Chip.drPush]

@[simp] theorem Chip.jtag_drAsk {net rt a n} : (c.drAsk net rt a n).jtag = c.jtag := by simp [Chip.drAsk]

@[simp] theorem Chip.jtag_rowReads {a n} : (c.rowReads a n).2.jtag = c.jtag := by
  unfold Chip.rowReads
  (repeat' split) <;> simp

@[simp] theorem Chip.jtag_rowWrites {a bs} : (c.rowWrites a bs).2.jtag = c.jtag := by
  unfold Chip.rowWrites
  dsimp only
  (repeat' split) <;> simp

@[simp] theorem Chip.jtag_bmQueue {a r perr} : (c.bmQueue a r perr).jtag = c.jtag := by
  unfold Chip.bmQueue
  (repeat' split) <;> simp

@[simp] theorem Chip.jtag_bmZeroRow {r} : (c.bmZeroRow r).jtag = c.jtag := by
  unfold Chip.bmZeroRow
  split <;> simp

end Sys2Proof.Machine
end

section
/-! PROOF. Each operation of Machine/Reed.lean leaves the test access port as it is (O45). -/

namespace Sys2Proof.Machine

variable {c : Chip}

@[simp] theorem Chip.jtag_setUnit {n f} : (c.setUnit n f).jtag = c.jtag := by rfl

@[simp] theorem Chip.jtag_noteOld {pe key old} : (c.noteOld pe key old).jtag = c.jtag := by simp [Chip.noteOld]

@[simp] theorem Chip.jtag_forgetOld {pe} : (c.forgetOld pe).jtag = c.jtag := by rfl

@[simp] theorem Chip.jtag_setTimed {pe fs v} : (c.setTimed pe fs v).jtag = c.jtag := by
  unfold Chip.setTimed
  split <;> simp [-Chip.set_jtag]

@[simp] theorem Chip.jtag_tsWrite {g ts lane e} : (c.tsWrite g ts lane e).jtag = c.jtag := by simp [Chip.tsWrite]

@[simp] theorem Chip.jtag_calNote {n} : (c.calNote n).jtag = c.jtag := by simp [Chip.calNote]

@[simp] theorem Chip.jtag_clampCheck {n} : (c.clampCheck n).jtag = c.jtag := by simp [Chip.clampCheck]

@[simp] theorem Chip.jtag_ucalWrite {n vs} : (c.ucalWrite n vs).jtag = c.jtag := by simp [Chip.ucalWrite, -Chip.set_jtag]

@[simp] theorem Chip.jtag_calLoad {p} : (c.calLoad p).jtag = c.jtag := by simp [Chip.calLoad, -Chip.set_jtag]

@[simp] theorem Chip.jtag_placeEdge {n den lvl t gap} : (c.placeEdge n den lvl t gap).jtag = c.jtag := by simp [Chip.placeEdge]

@[simp] theorem Chip.jtag_drvUi {n unit ui cal plan} : (c.drvUi n unit ui cal plan).jtag = c.jtag := by simp [Chip.drvUi]

@[simp] theorem Chip.jtag_denUi {n unit ui cal move} : (c.denUi n unit ui cal move).jtag = c.jtag := by
  unfold Chip.denUi
  split <;> simp

@[simp] theorem Chip.jtag_uiEmit {cy n u} : (c.uiEmit cy n u).jtag = c.jtag := by
  unfold Chip.uiEmit
  split <;> simp

@[simp] theorem Chip.jtag_emitCycle {k cy} : (c.emitCycle k cy).jtag = c.jtag := by simp [Chip.emitCycle]

@[simp] theorem Chip.jtag_idleDen {k} : (c.idleDen k).jtag = c.jtag := by simp [Chip.idleDen]

@[simp] theorem Chip.jtag_clearEdges {k} : (c.clearEdges k).jtag = c.jtag := by simp [Chip.clearEdges]

@[simp] theorem Chip.jtag_denAllLow : c.denAllLow.jtag = c.jtag := by rfl

@[simp] theorem Chip.jtag_tsPut {g r} : (c.tsPut g r).jtag = c.jtag := by simp [Chip.tsPut]

theorem Chip.jtag_laneCompare {k cy obs u p} {a : Nat × Chip} : (Chip.laneCompare k cy obs u p a).2.jtag = a.2.jtag := by
  unfold Chip.laneCompare
  extract_lets n c l cal o r c1 c2
  have h1 : c1.jtag = c.jtag := by
    unfold c1
    split <;> simp
  have h2 : c2.jtag = c1.jtag := by simp [c2]
  split
  · rfl
  · exact h2.trans h1

@[simp] theorem Chip.jtag_compareCycle {k cy obs} : (c.compareCycle k cy obs).2.jtag = c.jtag :=
  foldl_snd_jtag fun _ _ => foldl_snd_jtag fun _ _ => Chip.jtag_laneCompare

@[simp] theorem Chip.jtag_compareResult {k obs} : (c.compareResult k obs).jtag = c.jtag := by
  unfold Chip.compareResult
  split <;> simp

@[simp] theorem Chip.jtag_tsPop {g} : (c.tsPop g).2.jtag = c.jtag := by
  unfold Chip.tsPop
  split <;> simp

@[simp] theorem Chip.jtag_tsPortNext {g} : (c.tsPortNext g).jtag = c.jtag := by simp [Chip.tsPortNext]

@[simp] theorem Chip.jtag_tsPortWrite {g v} : (c.tsPortWrite g v).2.jtag = c.jtag := by simp [Chip.tsPortWrite]

@[simp] theorem Chip.jtag_tsPortRead {g} : (c.tsPortRead g).2.jtag = c.jtag := by simp [Chip.tsPortRead]

@[simp] theorem Chip.jtag_setChState {n st} : (c.setChState n st).jtag = c.jtag := by rfl

@[simp] theorem Chip.jtag_calError {n cap range} : (c.calError n cap range).jtag = c.jtag := by simp [Chip.calError]

@[simp] theorem Chip.jtag_setStarved {n cap v} : (c.setStarved n cap v).jtag = c.jtag := by rfl

@[simp] theorem Chip.jtag_setDrift {n cap d} : (c.setDrift n cap d).jtag = c.jtag := by simp [Chip.setDrift]

@[simp] theorem Chip.jtag_driftMeasure {n cap e} : (c.driftMeasure n cap e).jtag = c.jtag := by
  unfold Chip.driftMeasure
  extract_lets c1 d o c2 c3 d'
  have h1 : c1.jtag = c.jtag := by simp [c1]
  have h2 : c2.jtag = c1.jtag := by simp [c2]
  have h3 : c3.jtag = c1.jtag := by simp [c3]
  simp [h1, h2, h3]

@[simp] theorem Chip.jtag_driftStarve {n cap} : (c.driftStarve n cap).jtag = c.jtag := by simp [Chip.driftStarve]

@[simp] theorem Chip.jtag_checkDone {n result} : (c.checkDone n result).jtag = c.jtag := by simp [Chip.checkDone]

@[simp] theorem Chip.jtag_checksEnd : c.checksEnd.jtag = c.jtag := by simp [Chip.checksEnd]

@[simp] theorem Chip.jtag_reacquired {n dl dc} : (c.reacquired n dl dc).jtag = c.jtag := by simp [Chip.reacquired]

@[simp] theorem Chip.jtag_retireChannel {n event} : (c.retireChannel n event).jtag = c.jtag := by simp [Chip.retireChannel]

@[simp] theorem jtag_cmdRdStatus {id pl} : (cmdRdStatus.run id pl c).jtag = c.jtag := by simp [cmdRdStatus, Cmd.plain]

@[simp] theorem jtag_cmdRdTsWrite {id pl} : (cmdRdTsWrite.run id pl c).jtag = c.jtag := by simp [cmdRdTsWrite, Cmd.plain]

@[simp] theorem jtag_cmdRdTsRead {id pl} : (cmdRdTsRead.run id pl c).jtag = c.jtag := by simp [cmdRdTsRead, Cmd.plain]

@[simp] theorem jtag_cmdRdCalWrite {id pl} : (cmdRdCalWrite.run id pl c).jtag = c.jtag := by simp [cmdRdCalWrite, Cmd.plain]

@[simp] theorem jtag_cmdRdCalRead {id pl} : (cmdRdCalRead.run id pl c).jtag = c.jtag := by simp [cmdRdCalRead, Cmd.plain]

@[simp] theorem jtag_cmdRdCheck {id pl} : (cmdRdCheck.run id pl c).jtag = c.jtag := by simp [cmdRdCheck, Cmd.plain]

end Sys2Proof.Machine
end

section
/-! PROOF. Each operation of Machine/Pe.lean leaves the test access port as it is (O45). -/

namespace Sys2Proof.Machine

variable {c : Chip}

@[simp] theorem Chip.jtag_aluStep {k w} : (c.aluStep k w).jtag = c.jtag := by
  unfold Chip.aluStep
  dsimp only
  (repeat' split) <;> simp

@[simp] theorem Chip.jtag_setNow {k f v} : (c.setNow k f v).jtag = c.jtag := by rfl

@[simp] theorem Chip.jtag_formCycle {k w} : (c.formCycle k w).2.jtag = c.jtag := by simp [Chip.formCycle]

@[simp] theorem Chip.jtag_sequence {k w pc ok} : (c.sequence k w pc ok).jtag = c.jtag := by
  unfold Chip.sequence
  extract_lets next d v n
  have hn (a : Nat) (e : Chip) : (next a e).jtag = e.jtag := Chip.jtag_setEng
  clear_value next
  split
  case h_7 =>
    split
    · exact Chip.jtag_setEng
    · exact hn _ _
  case h_3 => exact (hn _ _).trans ((Chip.set_jtag ..).trans (Chip.set_jtag ..))
  case h_4 => exact (hn _ _).trans (Chip.set_jtag ..)
  case h_5 => exact (hn _ _).trans (Chip.set_jtag ..)
  case h_6 => exact (hn _ _).trans (Chip.set_jtag ..)
  all_goals exact hn _ _

@[simp] theorem Chip.jtag_xgAnnounce {ms} : (c.xgAnnounce ms).jtag = c.jtag := by simp [Chip.xgAnnounce]

@[simp] theorem Chip.jtag_endEngine {k st code addr} : (c.endEngine k st code addr).jtag = c.jtag := by simp [Chip.endEngine]

@[simp] theorem Chip.jtag_endWaiters {k st byReset} : (c.endWaiters k st byReset).jtag = c.jtag := by
  unfold Chip.endWaiters
  (repeat' split) <;> simp

@[simp] theorem Chip.jtag_endRun {ms st code byReset} : (c.endRun ms st code byReset).jtag = c.jtag := by simp [Chip.endRun]

@[simp] theorem Chip.jtag_xgSendFault : c.xgSendFault.jtag = c.jtag := by simp [Chip.xgSendFault]

@[simp] theorem Chip.jtag_faultRun {ms k code} : (c.faultRun ms k code).jtag = c.jtag := by simp [Chip.faultRun]

@[simp] theorem Chip.jtag_gangFault {ms} : (c.gangFault ms).jtag = c.jtag := by simp [Chip.gangFault]

@[simp] theorem Chip.jtag_leaveUser : c.leaveUser.jtag = c.jtag := by simp [Chip.leaveUser]

@[simp] theorem Chip.jtag_sendStops {k w} : (c.sendStops k w).jtag = c.jtag := by simp [Chip.sendStops, -Chip.emit_jtag]

@[simp] theorem Chip.jtag_issue {k w} : (c.issue k w).jtag = c.jtag := by simp [Chip.issue]

@[simp] theorem Chip.jtag_enterPaused {ms} : (c.enterPaused ms).jtag = c.jtag := by simp [Chip.enterPaused]

@[simp] theorem Chip.jtag_waitfExpire {l} : (c.waitfExpire l).jtag = c.jtag := by
  unfold Chip.waitfExpire
  split <;> simp

@[simp] theorem Chip.jtag_afterCycle {ms ws} : (c.afterCycle ms ws).jtag = c.jtag := by
  unfold Chip.afterCycle
  dsimp only
  split <;> simp

@[simp] theorem Chip.jtag_engineCycle {pe forced} : (c.engineCycle pe forced).jtag = c.jtag := by
  unfold Chip.engineCycle
  dsimp only
  (repeat' split) <;> simp [-Chip.set_jtag]

@[simp] theorem Chip.jtag_holdCycle {pe} : (c.holdCycle pe).jtag = c.jtag := by
  unfold Chip.holdCycle
  extract_lets ms l c1
  have h1 : c1.jtag = c.jtag := Chip.jtag_xgAnnounce
  split
  · exact h1
  · exact (Chip.forAll_jtag fun k d => by split <;> simp).trans h1

@[simp] theorem Chip.jtag_holdLong {pe} : (c.holdLong pe).jtag = c.jtag := by
  unfold Chip.holdLong
  dsimp only
  split <;> simp

@[simp] theorem Chip.jtag_syncTick {pe tick} : (c.syncTick pe tick).jtag = c.jtag := by
  unfold Chip.syncTick
  dsimp only
  split <;> simp

@[simp] theorem Chip.jtag_beginEngine {k tick} : (c.beginEngine k tick).jtag = c.jtag := by simp [Chip.beginEngine, -Chip.set_jtag]

@[simp] theorem Chip.jtag_startTick {pe tick} : (c.startTick pe tick).jtag = c.jtag := by simp [Chip.startTick]

@[simp] theorem Chip.jtag_withdrawStart {ms} : (c.withdrawStart ms).jtag = c.jtag := by simp [Chip.withdrawStart]

@[simp] theorem Chip.jtag_prefillLate {pe} : (c.prefillLate pe).jtag = c.jtag := by simp [Chip.prefillLate]

@[simp] theorem Chip.jtag_prefillDone {pe} : (c.prefillDone pe).jtag = c.jtag := by simp [Chip.prefillDone]

@[simp] theorem Chip.jtag_streamRead {pe ok count} : (c.streamRead pe ok count).jtag = c.jtag := by simp [Chip.streamRead]

@[simp] theorem Chip.jtag_uportVector {pe v} : (c.uportVector pe v).jtag = c.jtag := by simp [Chip.uportVector]

@[simp] theorem Chip.jtag_uportFlags {pe v} : (c.uportFlags pe v).jtag = c.jtag := by simp [Chip.uportFlags]

@[simp] theorem Chip.jtag_imStore {k a w} : (c.imStore k a w).jtag = c.jtag := by rfl

@[simp] theorem Chip.jtag_imDataLo {k v} : (c.imDataLo k v).2.jtag = c.jtag := by simp [Chip.imDataLo]

@[simp] theorem Chip.jtag_imDataHi {k v} : (c.imDataHi k v).2.jtag = c.jtag := by simp [Chip.imDataHi, -Chip.set_jtag]

@[simp] theorem Chip.jtag_stopBind {k j mask} : (c.stopBind k j mask).2.jtag = c.jtag := by simp [Chip.stopBind]

@[simp] theorem Chip.jtag_peCtlWrite {k v} : (c.peCtlWrite k v).2.jtag = c.jtag := by simp [Chip.peCtlWrite]

@[simp] theorem jtag_cmdPeStatus {id pl} : (cmdPeStatus.run id pl c).jtag = c.jtag := by simp [cmdPeStatus, Cmd.plain]

@[simp] theorem jtag_cmdPeLoad {id pl} : (cmdPeLoad.run id pl c).jtag = c.jtag := by simp [cmdPeLoad, Cmd.plain]

@[simp] theorem Chip.jtag_arm {ms addr tick id} : (c.arm ms addr tick id).jtag = c.jtag := by simp [Chip.arm]

@[simp] theorem jtag_cmdPeStart {id pl} : (cmdPeStart.run id pl c).jtag = c.jtag := by simp [cmdPeStart, Cmd.plain]

@[simp] theorem jtag_cmdPePause {id pl} : (cmdPePause.run id pl c).jtag = c.jtag := by simp [cmdPePause, Cmd.plain]

@[simp] theorem jtag_cmdPeResume {id pl} : (cmdPeResume.run id pl c).jtag = c.jtag := by
  simp [cmdPeResume, Cmd.plain, -Chip.set_jtag]

@[simp] theorem jtag_cmdPeStop {id pl} : (cmdPeStop.run id pl c).jtag = c.jtag := by simp [cmdPeStop, Cmd.plain]

@[simp] theorem jtag_cmdPeAbort {id pl} : (cmdPeAbort.run id pl c).jtag = c.jtag := by simp [cmdPeAbort, Cmd.plain]

@[simp] theorem Chip.jtag_ungang {k} : (c.ungang k).jtag = c.jtag := by rfl

@[simp] theorem Chip.jtag_makeGang {ms x} : (c.makeGang ms x).jtag = c.jtag := by simp [Chip.makeGang, -Chip.set_jtag]

@[simp] theorem Chip.jtag_leaveGangs {ms} : (c.leaveGangs ms).jtag = c.jtag := by simp [Chip.leaveGangs]

@[simp] theorem jtag_cmdPeGang {id pl} : (cmdPeGang.run id pl c).jtag = c.jtag := by simp [cmdPeGang, Cmd.plain]

@[simp] theorem jtag_cmdPeClock {id pl} : (cmdPeClock.run id pl c).jtag = c.jtag := by
  simp [cmdPeClock, Cmd.plain, -Chip.set_jtag]

@[simp] theorem Chip.jtag_clockLocked {k} : (c.clockLocked k).jtag = c.jtag := by simp [Chip.clockLocked]

@[simp] theorem Chip.jtag_engineReset {k} : (c.engineReset k).jtag = c.jtag := by simp [Chip.engineReset]

end Sys2Proof.Machine
end

section
/-! PROOF. Each operation of Machine/Fabric.lean leaves the test access port as it is (O45). -/

namespace Sys2Proof.Machine

variable {c : Chip}

@[simp] theorem Chip.jtag_setRg {r f} : (c.setRg r f).jtag = c.jtag := by rfl

@[simp] theorem Chip.jtag_emptyStop {r s} : (c.emptyStop r s).jtag = c.jtag := by rfl

@[simp] theorem Chip.jtag_initFfs {r} : (c.initFfs r).jtag = c.jtag := by rfl

@[simp] theorem Chip.jtag_bcastSeen {r} : (c.bcastSeen r).jtag = c.jtag := by
  unfold Chip.bcastSeen
  exact Chip.forAll_jtag fun b d => by split <;> simp

@[simp] theorem Chip.jtag_lostRequest {r src} : (c.lostRequest r src).jtag = c.jtag := by simp [Chip.lostRequest]

@[simp] theorem Chip.jtag_discardRequests {r} : (c.discardRequests r).jtag = c.jtag := by simp [Chip.discardRequests]

@[simp] theorem Chip.jtag_setSport {j f} : (c.setSport j f).jtag = c.jtag := by rfl

@[simp] theorem Chip.jtag_auxSettle {k} : (c.auxSettle k).jtag = c.jtag := by simp [Chip.auxSettle]

@[simp] theorem Chip.jtag_probeSettle {j} : (c.probeSettle j).jtag = c.jtag := by simp [Chip.probeSettle]

@[simp] theorem Chip.jtag_probeAll : c.probeAll.jtag = c.jtag := by simp [Chip.probeAll]

@[simp] theorem Chip.jtag_auxOfRegion {r} : (c.auxOfRegion r).jtag = c.jtag := by simp [Chip.auxOfRegion]

@[simp] theorem Chip.jtag_auxAll : c.auxAll.jtag = c.jtag := by simp [Chip.auxAll]

@[simp] theorem Chip.jtag_markOne {t} : (c.markOne t).jtag = c.jtag := by
  unfold Chip.markOne
  split <;> simp

@[simp] theorem Chip.jtag_markTurned {r} : (c.markTurned r).jtag = c.jtag := by
  unfold Chip.markTurned
  split <;> simp

@[simp] theorem Chip.jtag_endLeases {r} : (c.endLeases r).jtag = c.jtag := by simp [Chip.endLeases, -Chip.set_jtag]

@[simp] theorem Chip.jtag_holdRegion {r cause} : (c.holdRegion r cause).jtag = c.jtag := by simp [Chip.holdRegion]

@[simp] theorem Chip.jtag_releaseRegion {r cause} : (c.releaseRegion r cause).jtag = c.jtag := by simp [Chip.releaseRegion]

@[simp] theorem Chip.jtag_dropGates {r} : (c.dropGates r).jtag = c.jtag := by rfl

@[simp] theorem Chip.jtag_regionOff {r} : (c.regionOff r).jtag = c.jtag := by simp [Chip.regionOff]

@[simp] theorem Chip.jtag_regionRun {r gov} : (c.regionRun r gov).jtag = c.jtag := by simp [Chip.regionRun]

@[simp] theorem Chip.jtag_stopArrive {r src} : (c.stopArrive r src).jtag = c.jtag := by
  unfold Chip.stopArrive
  split <;> simp

@[simp] theorem Chip.jtag_stopDecide {r} : (c.stopDecide r).jtag = c.jtag := by
  unfold Chip.stopDecide
  split <;> simp

@[simp] theorem Chip.jtag_sendBcast {slot stop rs} : (c.sendBcast slot stop rs).jtag = c.jtag := by rfl

@[simp] theorem Chip.jtag_fabBcast {v} : (c.fabBcast v).2.jtag = c.jtag := by simp [Chip.fabBcast]

@[simp] theorem Chip.jtag_gateWord {a b gate} : (c.gateWord a b gate).jtag = c.jtag := by
  unfold Chip.gateWord
  (repeat' split) <;> simp

@[simp] theorem Chip.jtag_partyRise {r lines} : (c.partyRise r lines).jtag = c.jtag := by simp [Chip.partyRise]

@[simp] theorem Chip.jtag_roMeasure {r mhz} : (c.roMeasure r mhz).jtag = c.jtag := by rfl

@[simp] theorem Chip.jtag_rgCntClr {r} : (c.rgCntClr r).jtag = c.jtag := by rfl

@[simp] theorem Chip.jtag_rgCtlWrite {r v} : (c.rgCtlWrite r v).2.jtag = c.jtag := by simp [Chip.rgCtlWrite]

@[simp] theorem Chip.jtag_capArm {r} : (c.capArm r).jtag = c.jtag := by rfl

@[simp] theorem Chip.jtag_capTrigger {r} : (c.capTrigger r).jtag = c.jtag := by simp [Chip.capTrigger]

@[simp] theorem Chip.jtag_capFinish {r} : (c.capFinish r).jtag = c.jtag := by simp [Chip.capFinish]

@[simp] theorem Chip.jtag_capDone {r} : (c.capDone r).jtag = c.jtag := by simp [Chip.capDone]

@[simp] theorem Chip.jtag_capStop {r} : (c.capStop r).jtag = c.jtag := by simp [Chip.capStop]

@[simp] theorem Chip.jtag_capSample {r taps rose} : (c.capSample r taps rose).jtag = c.jtag := by simp [Chip.capSample]

@[simp] theorem Chip.jtag_capCtlWrite {r v} : (c.capCtlWrite r v).2.jtag = c.jtag := by simp [Chip.capCtlWrite]

@[simp] theorem Chip.jtag_trigWrite {r f v} : (c.trigWrite r f v).2.jtag = c.jtag := by simp [Chip.trigWrite]

@[simp] theorem Chip.jtag_spOwners : c.spOwners.jtag = c.jtag := by simp [Chip.spOwners]

@[simp] theorem Chip.jtag_portSettle {j} : (c.portSettle j).jtag = c.jtag := by simp [Chip.portSettle]

@[simp] theorem Chip.jtag_serialOut {j whats} : (c.serialOut j whats).jtag = c.jtag := by simp [Chip.serialOut, -Chip.emit_jtag]

@[simp] theorem Chip.jtag_spCtl {j v} : (c.spCtl j v).2.jtag = c.jtag := by simp [Chip.spCtl, -Chip.set_jtag]

@[simp] theorem Chip.jtag_spPush {j v} : (c.spPush j v).2.jtag = c.jtag := by simp [Chip.spPush]

@[simp] theorem Chip.jtag_spPop {j} : (c.spPop j).2.2.jtag = c.jtag := by
  unfold Chip.spPop
  (repeat' split) <;> simp

@[simp] theorem Chip.jtag_spReceive {j byte bad nack} : (c.spReceive j byte bad nack).jtag = c.jtag := by simp [Chip.spReceive]

@[simp] theorem Chip.jtag_spSent {j} : (c.spSent j).jtag = c.jtag := by
  unfold Chip.spSent
  split <;> simp

@[simp] theorem Chip.jtag_auxEdge {r auxIn} : (c.auxEdge r auxIn).jtag = c.jtag := by simp [Chip.auxEdge]

@[simp] theorem Chip.jtag_serialEdge {r bnd} : (c.serialEdge r bnd).jtag = c.jtag := by simp [Chip.serialEdge]

@[simp] theorem Chip.jtag_clockEdge {r auxIn riser ports} : (c.clockEdge r auxIn riser ports).jtag = c.jtag := by simp [Chip.clockEdge]

theorem Chip.jtag_notRetired {r id} {f : Chip → Chip} (hf : (f c).jtag = c.jtag) : (notRetired r id f c).jtag = c.jtag := by
  simp [notRetired, hf]

@[simp] theorem jtag_cmdFabStatus {id pl} : (cmdFabStatus.run id pl c).jtag = c.jtag := by
  simp only [cmdFabStatus, Cmd.plain]
  exact Chip.jtag_notRetired Chip.jtag_ok

@[simp] theorem jtag_cmdFabProbe {id pl} : (cmdFabProbe.run id pl c).jtag = c.jtag :=
  Chip.jtag_notRetired (by simp)

@[simp] theorem jtag_cmdFabCapArm {id pl} : (cmdFabCapArm.run id pl c).jtag = c.jtag :=
  Chip.jtag_notRetired (by simp)

@[simp] theorem jtag_cmdFabCapStop {id pl} : (cmdFabCapStop.run id pl c).jtag = c.jtag :=
  Chip.jtag_notRetired (by simp)

@[simp] theorem jtag_cmdFabCapRead {id pl} : (cmdFabCapRead.run id pl c).jtag = c.jtag :=
  Chip.jtag_notRetired (by simp)

end Sys2Proof.Machine
end

section
/-! PROOF. Each operation of Machine/Scratch.lean leaves the test access port as it is (O45). -/

namespace Sys2Proof.Machine

variable {c : Chip}

@[simp] theorem Chip.jtag_spUncorr {r w port} : (c.spUncorr r w port).jtag = c.jtag := by simp [Chip.spUncorr]

@[simp] theorem Chip.jtag_spCorrect {r w} : (c.spCorrect r w).jtag = c.jtag := by simp [Chip.spCorrect]

@[simp] theorem Chip.jtag_spStore {r w op n be} : (c.spStore r w op n be).jtag = c.jtag := by
  unfold Chip.spStore
  split <;> simp

@[simp] theorem Chip.jtag_bankOp {r w op n be flaw port} : (c.bankOp r w op n be flaw port).2.jtag = c.jtag := by simp [Chip.bankOp]

@[simp] theorem Chip.jtag_bankDiscard {r w op be flaw} : (c.bankDiscard r w op be flaw).2.jtag = c.jtag := by simp [Chip.bankDiscard]

@[simp] theorem Chip.jtag_portA {r b k op n be flaw} : (c.portA r b k op n be flaw).jtag = c.jtag := by
  unfold Chip.portA
  split
  · rfl
  · split
    · simp
    · extract_lets sp c1 held
      split
      all_goals
        next h =>
        exact (Chip.jtag_of_snd h).trans (by simp [c1])

@[simp] theorem Chip.jtag_portABad {r b} : (c.portABad r b).jtag = c.jtag := by simp [Chip.portABad]

@[simp] theorem Chip.jtag_portB {r w op n be flaw coll} : (c.portB r w op n be flaw coll).2.jtag = c.jtag := by
  unfold Chip.portB
  extract_lets b st busy goal
  split
  · rfl
  · split
    · rfl
    · split
      · rfl
      · split
        · simp
        · split
          · simp
          · split
            all_goals
              next h =>
              exact (Chip.jtag_of_snd h).trans Chip.jtag_bankOp

@[simp] theorem Chip.jtag_bankZero {r b} : (c.bankZero r b).jtag = c.jtag := by rfl

@[simp] theorem Chip.jtag_bankStart {r b} : (c.bankStart r b).jtag = c.jtag := by simp [Chip.bankStart]

@[simp] theorem Chip.jtag_powerDone : c.powerDone.jtag = c.jtag := by simp [Chip.powerDone]

@[simp] theorem Chip.jtag_bankDone {r b} : (c.bankDone r b).jtag = c.jtag := by simp [Chip.bankDone]

@[simp] theorem Chip.jtag_spRegionOff {r} : (c.spRegionOff r).jtag = c.jtag := by simp [Chip.spRegionOff]

@[simp] theorem Chip.jtag_spRegionOn {r} : (c.spRegionOn r).jtag = c.jtag := by simp [Chip.spRegionOn]

@[simp] theorem Chip.jtag_bankRetire {r b} : (c.bankRetire r b).jtag = c.jtag := by rfl

@[simp] theorem Chip.jtag_spRegionRetire {r} : (c.spRegionRetire r).jtag = c.jtag := by simp [Chip.spRegionRetire]

@[simp] theorem Chip.jtag_pwrWrite {r v} : (c.pwrWrite r v).2.jtag = c.jtag := by simp [Chip.pwrWrite, -Chip.set_jtag]

@[simp] theorem Chip.jtag_leaseStart {r b} : (c.leaseStart r b).jtag = c.jtag := by simp [Chip.leaseStart]

@[simp] theorem Chip.jtag_remapStart {r b} : (c.remapStart r b).jtag = c.jtag := by rfl

@[simp] theorem Chip.jtag_leaseEnd {r b} : (c.leaseEnd r b).jtag = c.jtag := by
  unfold Chip.leaseEnd
  dsimp only
  (repeat' split) <;> simp

@[simp] theorem Chip.jtag_spCntClr {r v} : (c.spCntClr r v).jtag = c.jtag := by simp [Chip.spCntClr]

@[simp] theorem jtag_cmdSpStatus {id pl} : (cmdSpStatus.run id pl c).jtag = c.jtag := by
  simp only [cmdSpStatus, Cmd.plain]
  split <;> simp

@[simp] theorem jtag_cmdSpPower {id pl} : (cmdSpPower.run id pl c).jtag = c.jtag := by
  simp only [cmdSpPower, Cmd.plain]
  split
  · simp
  · simp [-Chip.set_jtag]

@[simp] theorem jtag_cmdSpColmapRead {id pl} : (cmdSpColmapRead.run id pl c).jtag = c.jtag := by
  simp only [cmdSpColmapRead, Cmd.plain]
  split <;> simp

end Sys2Proof.Machine
end

section
/-! PROOF. Each operation of Machine/NetCore.lean leaves the test access port as it is (O45). -/

namespace Sys2Proof.Machine

variable {c : Chip}

@[simp] theorem Chip.jtag_niShow {ni} : (c.niShow ni).jtag = c.jtag := by rfl

@[simp] theorem Chip.jtag_domSet {d v} : (c.domSet d v).jtag = c.jtag := by simp [Chip.domSet]

@[simp] theorem Chip.jtag_outShow {ni} : (c.outShow ni).jtag = c.jtag := by rfl

@[simp] theorem Chip.jtag_bufOwe {ni idx} : (c.bufOwe ni idx).jtag = c.jtag := by simp [Chip.bufOwe]

@[simp] theorem Chip.jtag_bufLate {ni idx ep} : (c.bufLate ni idx ep).jtag = c.jtag := by
  unfold Chip.bufLate
  dsimp only
  (repeat' split) <;> simp

@[simp] theorem Chip.jtag_respond {ni idx ep r word data src} : (c.respond ni idx ep r word data src).jtag = c.jtag := by rfl

@[simp] theorem Chip.jtag_netPump : c.netPump.jtag = c.jtag := by simp [Chip.netPump]

@[simp] theorem Chip.jtag_unflight {q} : (c.unflight q).jtag = c.jtag := by simp [Chip.unflight]

@[simp] theorem Chip.jtag_gateEnter {q r} : (c.gateEnter q r).jtag = c.jtag := by simp [Chip.gateEnter]

@[simp] theorem Chip.jtag_wwRequest {q d e} : (c.wwRequest q d e).jtag = c.jtag := by simp [Chip.wwRequest]

@[simp] theorem Chip.jtag_wwLanded {o} : (c.wwLanded o).jtag = c.jtag := by
  unfold Chip.wwLanded
  split <;> simp

@[simp] theorem Chip.jtag_outCancel {o} : (c.outCancel o).jtag = c.jtag := by simp [Chip.outCancel]

theorem Chip.jtag_niIssue {ni kind cls addr dev n rbe bes data who} {d}
    (h : c.niIssue ni kind cls addr dev n rbe bes data who = some d) : d.jtag = c.jtag := by
  unfold Chip.niIssue at h
  extract_lets dev bad lost far away net at h
  split at h
  · cases h
  · extract_lets ep q o c1 c2 at h
    have h2 : c2.jtag = c.jtag := by simp [c2, c1]
    clear_value c2
    rw [← Option.some.inj h]
    split
    · simp [h2]
    · split
      · simp [h2]
      · clear_value far
        split <;> simp [h2]

@[simp] theorem Chip.jtag_domClose {d kind} : (c.domClose d kind).jtag = c.jtag := by
  unfold Chip.domClose
  extract_lets c1 ans c2 net c3 c4 dr c5 mine
  have h1 : c1.jtag = c.jtag := Chip.jtag_domSet
  have h2 : c2.jtag = c1.jtag := Chip.forAll_jtag fun _ _ => by simp
  have h3 : c3.jtag = c1.jtag := by
    unfold c3
    split
    · exact h2
    · rfl
  have h4 : c4.jtag = c3.jtag := Chip.forAll_jtag fun q e => by split <;> simp
  have h5 : c5.jtag = c3.jtag := by
    unfold c5
    split
    · exact h4
    · rfl
  clear_value c5
  simp [h1, h3, h5]

@[simp] theorem Chip.jtag_domClosed {d} : (c.domClosed d).jtag = c.jtag := by simp [Chip.domClosed]

@[simp] theorem Chip.jtag_domOpen {d} : (c.domOpen d).jtag = c.jtag := by simp [Chip.domOpen]

end Sys2Proof.Machine
end

section
/-! PROOF. Each operation of Machine/CfgLoad.lean leaves the test access port as it is (O45). -/

namespace Sys2Proof.Machine

variable {c : Chip}

@[simp] theorem Chip.jtag_setSlotState {k st} : (c.setSlotState k st).jtag = c.jtag := by simp [Chip.setSlotState]

@[simp] theorem Chip.jtag_fillSlot {k iso fs} : (c.fillSlot k iso fs).jtag = c.jtag := by rfl

@[simp] theorem Chip.jtag_readyStop {r s k} : (c.readyStop r s k).jtag = c.jtag := by simp [Chip.readyStop]

@[simp] theorem Chip.jtag_writeStop {r s k} : (c.writeStop r s k).jtag = c.jtag := by simp [Chip.writeStop]

@[simp] theorem Chip.jtag_unmark {ms} : (c.unmark ms).jtag = c.jtag := by simp [Chip.unmark, -Chip.set_jtag]

@[simp] theorem Chip.jtag_tonguePumpN {n} : (c.tonguePumpN n).jtag = c.jtag := by
  induction n generalizing c with
  | zero => rfl
  | succ n ih =>
    unfold Chip.tonguePumpN
    split
    · rfl
    · extract_lets hi
      split
      · next h =>
        have hd := Chip.jtag_niIssue h
        exact ih.trans hd
      · rfl

@[simp] theorem Chip.jtag_tonguePump : c.tonguePump.jtag = c.jtag := by simp [Chip.tonguePump]

@[simp] theorem Chip.jtag_tongueDone {addr tag res} : (c.tongueDone addr tag res).jtag = c.jtag := by simp [Chip.tongueDone]

@[simp] theorem Chip.jtag_rewritten {r reinit} : (c.rewritten r reinit).jtag = c.jtag := by simp [Chip.rewritten]

@[simp] theorem Chip.jtag_pageReply {p st dt} : (c.pageReply p st dt).jtag = c.jtag := by
  unfold Chip.pageReply
  split <;> simp

@[simp] theorem Chip.jtag_pageAbandon {p} : (c.pageAbandon p).jtag = c.jtag := by simp [Chip.pageAbandon]

@[simp] theorem Chip.jtag_dropPagings : c.dropPagings.jtag = c.jtag := by
  unfold Chip.dropPagings
  exact (Chip.forAll_jtag fun _ _ => Chip.jtag_fail).trans (Chip.forAll_jtag fun p d => by dsimp only; split <;> simp)

@[simp] theorem Chip.jtag_xspiRead {addr dummy len} : (c.xspiRead addr dummy len).jtag = c.jtag := by rfl

@[simp] theorem Chip.jtag_enterConfiguring : c.enterConfiguring.jtag = c.jtag := by simp [Chip.enterConfiguring]

@[simp] theorem Chip.jtag_cfgPhase {ph kind} : (c.cfgPhase ph kind).jtag = c.jtag := by rfl

@[simp] theorem Chip.jtag_loadReply {l st dt} : (c.loadReply l st dt).jtag = c.jtag := by
  unfold Chip.loadReply
  split <;> simp

@[simp] theorem Chip.jtag_afterFullFail {l st dt} : (c.afterFullFail l st dt).jtag = c.jtag := by
  unfold Chip.afterFullFail
  split <;> simp

@[simp] theorem Chip.jtag_loadFailAt {back st dt} : (c.loadFailAt back st dt).jtag = c.jtag := by
  unfold Chip.loadFailAt
  split <;> simp

@[simp] theorem Chip.jtag_loadFail {st dt} : (c.loadFail st dt).jtag = c.jtag := by simp [Chip.loadFail]

@[simp] theorem Chip.jtag_loadFailPage {st dt} : (c.loadFailPage st dt).jtag = c.jtag := by simp [Chip.loadFailPage]

@[simp] theorem Chip.jtag_markHeld {rewrite ts} : (c.markHeld rewrite ts).2.jtag = c.jtag := by
  induction ts generalizing c with
  | nil => rfl
  | cons t ts ih =>
    unfold Chip.markHeld
    simp [ih]

@[simp] theorem Chip.jtag_pageOver : c.pageOver.jtag = c.jtag := by
  unfold Chip.pageOver
  dsimp only
  split <;> simp

@[simp] theorem Chip.jtag_markFail {st dt} : (c.markFail st dt).jtag = c.jtag := by
  unfold Chip.markFail
  split <;> simp

@[simp] theorem Chip.jtag_pageMarks {p} : (c.pageMarks p).jtag = c.jtag := by
  unfold Chip.pageMarks
  split
  all_goals
    next h =>
    simp [Chip.jtag_of_snd h]

@[simp] theorem Chip.jtag_pageBegin {p} : (c.pageBegin p).jtag = c.jtag := by simp [Chip.pageBegin]

@[simp] theorem Chip.jtag_pageAsk {p} : (c.pageAsk p).jtag = c.jtag := by simp [Chip.pageAsk]

@[simp] theorem Chip.jtag_pageNextN {n} : (c.pageNextN n).jtag = c.jtag := by
  induction n generalizing c with
  | zero => rfl
  | succ n ih =>
    unfold Chip.pageNextN
    split
    · split
      · simp [ih]
      · rfl
    · rfl

@[simp] theorem Chip.jtag_pageNext : c.pageNext.jtag = c.jtag := by simp [Chip.pageNext]

@[simp] theorem Chip.jtag_loadEndChecks {l} : (c.loadEndChecks l).jtag = c.jtag := by simp [Chip.loadEndChecks]

@[simp] theorem Chip.jtag_consumed {l} : (c.consumed l).2.jtag = c.jtag := by
  unfold Chip.consumed
  (repeat' split) <;> simp

@[simp] theorem Chip.jtag_loadPump {n} : (c.loadPump n).jtag = c.jtag := by
  induction n generalizing c with
  | zero => rfl
  | succ n ih =>
    unfold Chip.loadPump
    split
    · rfl
    · next l _ =>
      extract_lets dry head cfg k h len s c1 l1 cfg1 c2 p body tr l2 cfg2
      have hdry (d : Chip) : (dry d).jtag = d.jtag := by
        unfold dry
        simp [ih]
      have h1 : c1.jtag = c.jtag := by simp [c1]
      have h2 : c2.jtag = c1.jtag := Chip.jtag_mk_cfg c1 _
      have hp : p.2.jtag = c2.jtag := Chip.jtag_consumed
      clear_value dry p c2 c1
      split
      · rfl
      · split
        · split
          · split
            · simp
            · exact ih.trans Chip.jtag_cfgPhase
          · exact hdry _
        · split
          · split
            · exact hdry _
            · exact ih
          · split
            · simp [hdry]
            · split
              · exact hdry _
              · split
                · simp
                · split
                  · simp [ih, hp, h1, h2]
                  · split
                    · simp [h1, h2]
                    · exact ih.trans (h2.trans h1)
                    · simp [ih, h1, h2]

@[simp] theorem Chip.jtag_loadRun : c.loadRun.jtag = c.jtag := by simp [Chip.loadRun]

@[simp] theorem Chip.jtag_pageSettle : c.pageSettle.jtag = c.jtag := by simp [Chip.pageSettle]

@[simp] theorem Chip.jtag_loadFeed {bs slot} : (c.loadFeed bs slot).jtag = c.jtag := by
  unfold Chip.loadFeed
  split <;> simp

@[simp] theorem Chip.jtag_stopMark {r} : (c.stopMark r).jtag = c.jtag := by
  unfold Chip.stopMark
  split <;> simp

@[simp] theorem Chip.jtag_slotRead {k} : (c.slotRead k).2.jtag = c.jtag := by
  rw [Chip.slotRead_eq, Chip.slotShape]
  exact Chip.jtag_rowReads

@[simp] theorem Chip.jtag_pageEnd {p st dt} : (c.pageEnd p st dt).jtag = c.jtag := by
  unfold Chip.pageEnd
  dsimp only
  (repeat' split) <;> simp

@[simp] theorem Chip.jtag_pagingDone {verified failed} : (c.pagingDone verified failed).jtag = c.jtag := by
  unfold Chip.pagingDone
  split
  · rfl
  · next p _ =>
    split
    · rfl
    · split
      · next h => simp [Chip.jtag_of_snd h]
      · next d h => simp [Chip.jtag_of_snd h]

@[simp] theorem Chip.jtag_rewriteHold {r} : (c.rewriteHold r).jtag = c.jtag := by
  unfold Chip.rewriteHold
  (repeat' split) <;> simp

@[simp] theorem Chip.jtag_releaseFull {l} : (c.releaseFull l).jtag = c.jtag := by
  unfold Chip.releaseFull
  extract_lets c1 c2 fab c3 c4 grants cfg c5 c6
  have h1 : c1.jtag = c.jtag := Chip.forAll_jtag fun r d => by split <;> simp
  have h2 : c2.jtag = c1.jtag := Chip.forAll_jtag fun b d => by split <;> simp
  have h4 : c4.jtag = c2.jtag := Chip.forAll_jtag (c := c3) fun k d => by split <;> simp
  have h6 : c6.jtag = c4.jtag := by simp [c6, c5]
  clear_value c6
  simp [h1, h2, h4, h6]

@[simp] theorem Chip.jtag_measure {l} : (c.measure l).jtag = c.jtag := by rfl

@[simp] theorem Chip.jtag_signatureDone : c.signatureDone.jtag = c.jtag := by
  unfold Chip.signatureDone
  split
  · rfl
  · next l _ =>
    extract_lets d c1 c2 cfg c3 c4 c5 c6
    have h1 : c1.jtag = c.jtag := Chip.forAll_jtag fun k e => by split <;> rfl
    have h2 : c2.jtag = c1.jtag := Chip.forAll_jtag fun _ _ => Chip.jtag_readyStop
    have h3 : c3.jtag = c2.jtag := Chip.jtag_measure
    have h4 : c4.jtag = c3.jtag := by
      unfold c4
      simp
    have h6 : c6.jtag = c4.jtag := by simp [c6, c5]
    clear_value c6
    simp [h1, h2, h3, h4, h6]

@[simp] theorem Chip.jtag_loadStall : c.loadStall.jtag = c.jtag := by
  unfold Chip.loadStall
  split <;> simp

@[simp] theorem Chip.jtag_flashLoad : c.flashLoad.jtag = c.jtag := by simp [Chip.flashLoad]

@[simp] theorem Chip.jtag_flashRead {part} : (c.flashRead part).jtag = c.jtag := by
  unfold Chip.flashRead
  (repeat' split) <;> simp

@[simp] theorem Chip.jtag_tongueReq {ni wide v} : (c.tongueReq ni wide v).2.jtag = c.jtag := by simp [Chip.tongueReq]

@[simp] theorem Chip.jtag_libWrite {base slots} : (c.libWrite base slots).2.jtag = c.jtag := by simp [Chip.libWrite]

@[simp] theorem jtag_cmdCfgStatus {id pl} : (cmdCfgStatus.run id pl c).jtag = c.jtag := by simp [cmdCfgStatus, Cmd.plain]

@[simp] theorem Chip.jtag_headerFail {id st dt} : (c.headerFail id st dt).jtag = c.jtag := by simp [Chip.headerFail]

@[simp] theorem Chip.jtag_loadOpen {kind r reinit dram limit h} : (c.loadOpen kind r reinit dram limit h).2.jtag = c.jtag := by
  unfold Chip.loadOpen
  split <;> simp

@[simp] theorem jtag_cmdCfgLoadBegin {id pl} : (cmdCfgLoadBegin.run id pl c).jtag = c.jtag := by
  simp only [cmdCfgLoadBegin, Cmd.plain]
  split
  · simp
  · split
    all_goals
      next h =>
      simp [Chip.jtag_of_snd h]

@[simp] theorem jtag_cmdCfgLoadData {id pl} : (cmdCfgLoadData.run id pl c).jtag = c.jtag := by
  simp only [cmdCfgLoadData, Cmd.plain]
  split <;> simp

@[simp] theorem jtag_cmdCfgLoadEnd {id pl} : (cmdCfgLoadEnd.run id pl c).jtag = c.jtag := by
  simp only [cmdCfgLoadEnd, Cmd.plain]
  split <;> simp

@[simp] theorem jtag_cmdCfgLoadDram {id pl} : (cmdCfgLoadDram.run id pl c).jtag = c.jtag := by
  simp only [cmdCfgLoadDram, Cmd.plain]
  split
  · simp
  · split
    · simp
    · split
      · simp
      · split
        · simp
        · split
          all_goals
            next h =>
            simp [Chip.jtag_of_snd h]

@[simp] theorem jtag_cmdCfgPage {id pl} : (cmdCfgPage.run id pl c).jtag = c.jtag := by simp [cmdCfgPage, Cmd.plain]

@[simp] theorem jtag_cmdCfgDraw {id pl} : (cmdCfgDraw.run id pl c).jtag = c.jtag := by simp [cmdCfgDraw, Cmd.plain]

@[simp] theorem jtag_cmdCfgRewriteSlot {id pl} : (cmdCfgRewriteSlot.run id pl c).jtag = c.jtag := by
  simp only [cmdCfgRewriteSlot, Cmd.plain]
  split <;> simp

@[simp] theorem jtag_cmdCfgLibStatus {id pl} : (cmdCfgLibStatus.run id pl c).jtag = c.jtag := by simp [cmdCfgLibStatus, Cmd.plain]

@[simp] theorem jtag_cmdCfgLibFree {id pl} : (cmdCfgLibFree.run id pl c).jtag = c.jtag := by simp [cmdCfgLibFree, Cmd.plain]

@[simp] theorem jtag_cmdCfgXspi {id pl} : (cmdCfgXspi.run id pl c).jtag = c.jtag := by simp [cmdCfgXspi, Cmd.plain]

end Sys2Proof.Machine
end

section
/-! PROOF. Each operation of Machine/Security.lean leaves the test access port as it is (O45). -/

namespace Sys2Proof.Machine

variable {c : Chip}

@[simp] theorem Chip.jtag_checkRequest {magic op cmd} : (c.checkRequest magic op cmd).2.jtag = c.jtag := by
  unfold Chip.checkRequest
  dsimp only
  (repeat' split) <;> simp

@[simp] theorem Chip.jtag_burn {id what num data} : (c.burn id what num data).jtag = c.jtag := by simp [Chip.burn]

@[simp] theorem Chip.jtag_rmaZeroise : c.rmaZeroise.jtag = c.jtag := by rfl

@[simp] theorem Chip.jtag_burnDone {b} : (c.burnDone b).jtag = c.jtag := by
  unfold Chip.burnDone
  split <;> simp

@[simp] theorem jtag_cmdSecStatus {id pl} : (cmdSecStatus.run id pl c).jtag = c.jtag := by simp [cmdSecStatus, Cmd.plain]

@[simp] theorem jtag_cmdSecLcAdvance {id pl} : (cmdSecLcAdvance.run id pl c).jtag = c.jtag := by simp [cmdSecLcAdvance, Cmd.plain]

@[simp] theorem jtag_cmdSecNonce {id pl} : (cmdSecNonce.run id pl c).jtag = c.jtag := by simp [cmdSecNonce, Cmd.plain]

@[simp] theorem jtag_cmdSecReqData {id pl} : (cmdSecReqData.run id pl c).jtag = c.jtag := by simp [cmdSecReqData, Cmd.plain]

@[simp] theorem Chip.jtag_keyProg {id k hash} : (c.keyProg id k hash).jtag = c.jtag := by simp [Chip.keyProg]

@[simp] theorem jtag_cmdSecKeyProg {id pl} : (cmdSecKeyProg.run id pl c).jtag = c.jtag := by
  simp only [cmdSecKeyProg, Cmd.plain]
  split
  · split
    all_goals
      next h =>
      simp [Chip.jtag_of_snd h]
  · simp

@[simp] theorem jtag_cmdSecKeyRevoke {id pl} : (cmdSecKeyRevoke.run id pl c).jtag = c.jtag := by
  simp only [cmdSecKeyRevoke, Cmd.plain]
  split
  all_goals
    next h =>
    simp [Chip.jtag_of_snd h]

@[simp] theorem jtag_cmdSecSvnRaise {id pl} : (cmdSecSvnRaise.run id pl c).jtag = c.jtag := by
  simp only [cmdSecSvnRaise, Cmd.plain]
  split
  all_goals
    next h =>
    simp [Chip.jtag_of_snd h]

@[simp] theorem jtag_cmdSecRma {id pl} : (cmdSecRma.run id pl c).jtag = c.jtag := by
  simp only [cmdSecRma, Cmd.plain]
  split
  all_goals
    next h =>
    simp [Chip.jtag_of_snd h]

@[simp] theorem jtag_cmdSecRootkeyProg {id pl} : (cmdSecRootkeyProg.run id pl c).jtag = c.jtag := by simp [cmdSecRootkeyProg, Cmd.plain]

@[simp] theorem jtag_cmdSecAttest {id pl} : (cmdSecAttest.run id pl c).jtag = c.jtag := by simp [cmdSecAttest, Cmd.plain]

@[simp] theorem jtag_cmdSecBlobRead {id pl} : (cmdSecBlobRead.run id pl c).jtag = c.jtag := by simp [cmdSecBlobRead, Cmd.plain]

@[simp] theorem Chip.jtag_attestSigned : c.attestSigned.jtag = c.jtag := by
  unfold Chip.attestSigned
  split <;> simp

end Sys2Proof.Machine
end

section
/-! PROOF. Each operation of Machine/Dram.lean leaves the test access port as it is (O45). -/

namespace Sys2Proof.Machine

variable {c : Chip}

@[simp] theorem Chip.jtag_drActivate {a perr} : (c.drActivate a perr).jtag = c.jtag := by rfl

@[simp] theorem Chip.jtag_drTransfer {kind a perr} : (c.drTransfer kind a perr).jtag = c.jtag := by rfl

@[simp] theorem Chip.jtag_drPrecharge {a perr} : (c.drPrecharge a perr).jtag = c.jtag := by rfl

theorem Chip.jtag_drTake {q perr} {d} (h : c.drTake q perr = some d) : d.jtag = c.jtag := by
  unfold Chip.drTake at h
  extract_lets src refuse bs at h
  have hr (r : Rsp) (e : Chip) (he : refuse r = some e) : e.jtag = c.jtag := by
    rw [← Option.some.inj he]
    simp
  clear_value refuse
  split at h
  · exact hr _ _ h
  · split at h
    · exact hr _ _ h
    · split at h
      all_goals
        split at h
        · cases h
        · rw [← Option.some.inj h]
          simp

@[simp] theorem Chip.jtag_drAccept {src} : (c.drAccept src).jtag = c.jtag := by
  unfold Chip.drAccept
  split
  · split
    · split
      · exact Chip.jtag_getD fun _ h => Chip.jtag_drTake h
      · rfl
    · rfl
  · simp
  · simp

@[simp] theorem Chip.jtag_drCorrect {a n} : (c.drCorrect a n).jtag = c.jtag := by simp [Chip.drCorrect]

@[simp] theorem Chip.jtag_drSelfEntry : c.drSelfEntry.jtag = c.jtag := by
  unfold Chip.drSelfEntry
  split <;> simp

@[simp] theorem Chip.jtag_drServe {synd p} : (c.drServe synd p).jtag = c.jtag := by
  unfold Chip.drServe
  dsimp only
  (repeat' split) <;> simp

@[simp] theorem Chip.jtag_drServeAll {synd ps} : (c.drServeAll synd ps).2.jtag = c.jtag := by
  induction ps generalizing c with
  | nil => rfl
  | cons p ps ih =>
    unfold Chip.drServeAll
    simp [ih]

@[simp] theorem Chip.jtag_drRowServe {a parity f ps} : (c.drRowServe a parity f ps).jtag = c.jtag := by simp [Chip.drRowServe]

@[simp] theorem Chip.jtag_drRowNext {busy parity f} : (c.drRowNext busy parity f).jtag = c.jtag := by
  unfold Chip.drRowNext
  split <;> simp

@[simp] theorem Chip.jtag_drDue : c.drDue.jtag = c.jtag := by rfl

@[simp] theorem Chip.jtag_drRefreshed {perr} : (c.drRefreshed perr).jtag = c.jtag := by
  unfold Chip.drRefreshed
  extract_lets c1
  have h1 : c1.jtag = c.jtag := by simp [c1]
  split
  · rfl
  · simp [h1]

@[simp] theorem Chip.jtag_drHotEntry {temp} : (c.drHotEntry temp).jtag = c.jtag := by simp [Chip.drHotEntry]

@[simp] theorem Chip.jtag_drNormal : c.drNormal.jtag = c.jtag := by simp [Chip.drNormal]

@[simp] theorem Chip.jtag_drPowerDown {rank perr} : (c.drPowerDown rank perr).jtag = c.jtag := by simp [Chip.drPowerDown]

@[simp] theorem Chip.jtag_drTrain {cause slots} : (c.drTrain cause slots).jtag = c.jtag := by rfl

@[simp] theorem Chip.jtag_drMoved {layer} : (c.drMoved layer).jtag = c.jtag := by simp [Chip.drMoved]

@[simp] theorem Chip.jtag_drTrained {ok temps} : (c.drTrained ok temps).jtag = c.jtag := by
  unfold Chip.drTrained
  dsimp only
  (repeat' split) <;> simp

@[simp] theorem Chip.jtag_drRelocked {perr} : (c.drRelocked perr).jtag = c.jtag := by
  unfold Chip.drRelocked
  split <;> simp

@[simp] theorem Chip.jtag_drRow {busy parity f} : (c.drRow busy parity f).jtag = c.jtag := by
  unfold Chip.drRow
  split <;> simp

@[simp] theorem Chip.jtag_granZero {g} : (c.granZero g).jtag = c.jtag := by rfl

@[simp] theorem Chip.jtag_drHeld {ps} : (c.drHeld ps).jtag = c.jtag := by simp [Chip.drHeld]

@[simp] theorem Chip.jtag_thawDone : c.thawDone.jtag = c.jtag := by
  unfold Chip.thawDone
  split
  · rfl
  · next id flush nw nr _ =>
    extract_lets rs c1 c2 dr c3 dr1
    have h1 : c1.jtag = c.jtag := by simp [c1]
    have h2 : c2.jtag = c1.jtag := Chip.forAll_jtag fun q e => by split <;> simp
    have h3 : c3.jtag = c1.jtag := by
      unfold c3
      split
      · rfl
      · exact Chip.jtag_drLevels.trans h2
    clear_value c3
    split
    · exact h1
    · simp [h1, h3]

@[simp] theorem Chip.jtag_drDiscard : c.drDiscard.jtag = c.jtag := by rfl

@[simp] theorem Chip.jtag_drQueueReset : c.drQueueReset.jtag = c.jtag := by simp [Chip.drQueueReset]

@[simp] theorem Chip.jtag_drZero : c.drZero.jtag = c.jtag := by rfl

@[simp] theorem Chip.jtag_drCntClr {v} : (c.drCntClr v).jtag = c.jtag := by simp [Chip.drCntClr]

@[simp] theorem jtag_cmdDrStatus {id pl} : (cmdDrStatus.run id pl c).jtag = c.jtag := by simp [cmdDrStatus, Cmd.plain]

@[simp] theorem jtag_cmdDrFreq {id pl} : (cmdDrFreq.run id pl c).jtag = c.jtag := by simp [cmdDrFreq, Cmd.plain]

@[simp] theorem jtag_cmdDrTrain {id pl} : (cmdDrTrain.run id pl c).jtag = c.jtag := by simp [cmdDrTrain, Cmd.plain]

@[simp] theorem jtag_cmdDrSnapshot {id pl} : (cmdDrSnapshot.run id pl c).jtag = c.jtag := by simp [cmdDrSnapshot, Cmd.plain]

@[simp] theorem jtag_cmdDrThaw {id pl} : (cmdDrThaw.run id pl c).jtag = c.jtag := by simp [cmdDrThaw, Cmd.plain]

end Sys2Proof.Machine
end

section
/-! PROOF. Each operation of Machine/Rae.lean leaves the test access port as it is (O45). -/

namespace Sys2Proof.Machine

variable {c : Chip}

@[simp] theorem Chip.jtag_zeroPart : c.zeroPart.jtag = c.jtag := by rfl

@[simp] theorem Chip.jtag_raeReply {st dt pl} : (c.raeReply st dt pl).jtag = c.jtag := by
  unfold Chip.raeReply
  split <;> simp

@[simp] theorem Chip.jtag_raeFault {why r} : (c.raeFault why r).jtag = c.jtag := by
  unfold Chip.raeFault
  dsimp only
  (repeat' split) <;> simp

@[simp] theorem Chip.jtag_raeAnswer {r} : (c.raeAnswer r).jtag = c.jtag := by simp [Chip.raeAnswer]

@[simp] theorem Chip.jtag_raeMemory {r uncorr} : (c.raeMemory r uncorr).jtag = c.jtag := by simp [Chip.raeMemory]

@[simp] theorem Chip.jtag_raeRead {a n} : (c.raeRead a n).2.jtag = c.jtag := by
  unfold Chip.raeRead
  split <;> simp

@[simp] theorem Chip.jtag_raeStore {a bs} : (c.raeStore a bs).2.jtag = c.jtag := by
  unfold Chip.raeStore
  split <;> simp

@[simp] theorem Chip.jtag_ctxCache {d x dirty} : (c.ctxCache d x dirty).2.jtag = c.jtag := by
  unfold Chip.ctxCache
  dsimp only
  split <;> simp

@[simp] theorem Chip.jtag_ctxFetch {d} : (c.ctxFetch d).2.jtag = c.jtag := by
  unfold Chip.ctxFetch
  split <;> simp

@[simp] theorem Chip.jtag_ctxTouch {d} : (c.ctxTouch d).jtag = c.jtag := by simp [Chip.ctxTouch]

@[simp] theorem Chip.jtag_ctxPut {d x} : (c.ctxPut d x).jtag = c.jtag := by simp [Chip.ctxPut]

@[simp] theorem Chip.jtag_ctxUpd {d f} : (c.ctxUpd d f).jtag = c.jtag := by simp [Chip.ctxUpd]

@[simp] theorem Chip.jtag_ctxFlush : c.ctxFlush.jtag = c.jtag := by simp [Chip.ctxFlush]

@[simp] theorem Chip.jtag_listTouch {d} : (c.listTouch d).jtag = c.jtag := by simp [Chip.listTouch]

@[simp] theorem Chip.jtag_raeOverflow {d cause} : (c.raeOverflow d cause).jtag = c.jtag := by simp [Chip.raeOverflow]

@[simp] theorem Chip.jtag_blkStore {a bs} : (c.blkStore a bs).jtag = c.jtag := by simp [Chip.blkStore]

@[simp] theorem Chip.jtag_itemPut {g d item} : (c.itemPut g d item).2.jtag = c.jtag := by simp [Chip.itemPut]

@[simp] theorem Chip.jtag_raeMark {g d col a} : (c.raeMark g d col a).jtag = c.jtag := by simp [Chip.raeMark]

@[simp] theorem Chip.jtag_raeClose {g d n} : (c.raeClose g d n).jtag = c.jtag := by
  induction n generalizing c with
  | zero => rfl
  | succ n ih =>
    unfold Chip.raeClose
    extract_lets x
    split
    · rfl
    · split
      · rfl
      · simp [ih]

@[simp] theorem Chip.jtag_raeCell {g d p} : (c.raeCell g d p).jtag = c.jtag := by simp [Chip.raeCell]

@[simp] theorem Chip.jtag_raeProcess {e} : (c.raeProcess e).jtag = c.jtag := by
  unfold Chip.raeProcess
  dsimp only
  split <;> simp

@[simp] theorem Chip.jtag_raeAborted : c.raeAborted.jtag = c.jtag := by simp [Chip.raeAborted]

@[simp] theorem Chip.jtag_ringPump : c.ringPump.jtag = c.jtag := by
  unfold Chip.ringPump
  split <;> simp

theorem Chip.jtag_raeIssue {d} (h : c.raeIssue = some d) : d.jtag = c.jtag := by
  unfold Chip.raeIssue at h
  extract_lets ep send a at h
  have hs (a dev v record) (e : Chip) (he : send a dev v record = some e) : e.jtag = c.jtag := Chip.jtag_niIssue he
  clear_value send
  split at h
  · split at h
    · cases h
    · exact Chip.jtag_of_map h (hs _ _ _ _) fun _ => rfl
  · split at h
    · exact Chip.jtag_of_map h (hs _ _ _ _) fun _ => by simp
    · exact Chip.jtag_of_map h (hs _ _ _ _) fun _ => rfl
  · cases h

@[simp] theorem Chip.jtag_raeRecord {ep r} : (c.raeRecord ep r).jtag = c.jtag := by simp [Chip.raeRecord]

@[simp] theorem Chip.jtag_raeImported {ep r} : (c.raeImported ep r).jtag = c.jtag := by simp [Chip.raeImported]

@[simp] theorem Chip.jtag_ringLong : c.ringLong.jtag = c.jtag := by simp [Chip.ringLong]

theorem Chip.jtag_raePass {g d rows cols last} {a : Found × Chip} : (Chip.raePass g d rows cols last a).2.jtag = a.2.jtag := by
  unfold Chip.raePass
  simp

@[simp] theorem Chip.jtag_raeEasy {d} : (c.raeEasy d).jtag = c.jtag := by simp [Chip.raeEasy]

theorem Chip.jtag_raeRound2 {g lead d} {a : Found × Chip} : (Chip.raeRound2 g lead d a).2.jtag = a.2.jtag := by
  unfold Chip.raeRound2
  simp [Chip.jtag_raePass]

@[simp] theorem Chip.jtag_queueLines {d kind i as} : (c.queueLines d kind i as).jtag = c.jtag := by
  induction as generalizing i c with
  | nil => rfl
  | cons a as ih => exact ih

theorem Chip.jtag_raeRecords {g fs d} {a : (Nat × Nat) × Chip} : (Chip.raeRecords g fs d a).2.jtag = a.2.jtag := by
  unfold Chip.raeRecords
  simp

@[simp] theorem Chip.jtag_raeDecideUnit {g d} : (c.raeDecideUnit g d).jtag = c.jtag := by
  unfold Chip.raeDecideUnit
  extract_lets ms c1 act c2 c3 open1 c4 a
  have h1 : c1.jtag = c.jtag := Chip.forAll_jtag fun _ _ => Chip.jtag_ctxTouch
  have h2 : c2.jtag = c1.jtag := Chip.set_jtag ..
  have h3 : c3.jtag = c2.jtag := Chip.forAll_jtag fun _ _ => Chip.jtag_raeEasy
  have h4 : c4.jtag = c3.jtag := by simp [c4]
  have ha : a.2.jtag = c4.jtag := foldl_snd_jtag fun _ _ => by simp [Chip.jtag_raePass]
  clear_value a c4 c3
  split
  next fs d h =>
  have hd : d.jtag = c3.jtag := by
    refine (Chip.jtag_of_snd h).trans ?_
    split
    · exact foldl_snd_jtag fun _ _ => by simp [Chip.jtag_raePass]
    · exact (foldl_snd_jtag fun _ _ => Chip.jtag_raeRound2).trans (ha.trans h4)
  extract_lets e rae
  have he : e.jtag = d.jtag := foldl_snd_jtag (a := ((0, 0), d)) fun _ _ => Chip.jtag_raeRecords
  clear_value e
  simp [he, hd, h1, h2, h3]

@[simp] theorem Chip.jtag_raeNextUnit {gs n d} : (c.raeNextUnit gs n d).2.jtag = c.jtag := by
  induction n generalizing d c with
  | zero => rfl
  | succ n ih =>
    unfold Chip.raeNextUnit
    split
    · rfl
    · split
      · next g _ =>
        extract_lets ms c1
        have h1 : c1.jtag = c.jtag := by simp [c1]
        clear_value c1
        simp [h1, ih]
      · split
        · rfl
        · exact ih

@[simp] theorem Chip.jtag_raeLose {d} : (c.raeLose d).jtag = c.jtag := by simp [Chip.raeLose]

@[simp] theorem Chip.jtag_raeStep4 : c.raeStep4.jtag = c.jtag := by simp [Chip.raeStep4]

@[simp] theorem Chip.jtag_raeDecide : c.raeDecide.jtag = c.jtag := by
  unfold Chip.raeDecide
  split
  · extract_lets c1
    split
    all_goals
      next h =>
      simp [Chip.jtag_of_snd h, c1]
  · rfl

@[simp] theorem Chip.jtag_raeSend {e} : (c.raeSend e).jtag = c.jtag := by rfl

@[simp] theorem Chip.jtag_raeDrained : c.raeDrained.jtag = c.jtag := by simp [Chip.raeDrained]

@[simp] theorem Chip.jtag_raeTake : c.raeTake.jtag = c.jtag := by
  unfold Chip.raeTake
  split <;> simp

@[simp] theorem Chip.jtag_raeImportWord {s e} : (c.raeImportWord s e).2.jtag = c.jtag := by simp [Chip.raeImportWord]

@[simp] theorem Chip.jtag_raeImport {s upper v} : (c.raeImport s upper v).2.jtag = c.jtag := by simp [Chip.raeImport]

@[simp] theorem Chip.jtag_raeSrcTimeout {s} : (c.raeSrcTimeout s).jtag = c.jtag := by simp [Chip.raeSrcTimeout]

@[simp] theorem Chip.jtag_raeOpen {pl epoch} : (c.raeOpen pl epoch).jtag = c.jtag := by rfl

@[simp] theorem Chip.jtag_raeZeroed : c.raeZeroed.jtag = c.jtag := by
  unfold Chip.raeZeroed
  (repeat' split) <;> simp

@[simp] theorem Chip.jtag_raeFinalDone : c.raeFinalDone.jtag = c.jtag := by
  unfold Chip.raeFinalDone
  split
  · rfl
  · split
    · simp
    · extract_lets c1
      split
      all_goals
        next h =>
        simp [Chip.jtag_of_snd h, c1]

@[simp] theorem Chip.jtag_raeAbort : c.raeAbort.jtag = c.jtag := by simp [Chip.raeAbort]

@[simp] theorem Chip.jtag_raeWrite {off v} : (c.raeWrite off v).2.jtag = c.jtag := by simp [Chip.raeWrite, -Chip.set_jtag]

@[simp] theorem jtag_cmdRaStatus {id pl} : (cmdRaStatus.run id pl c).jtag = c.jtag := by simp [cmdRaStatus, Cmd.plain]

@[simp] theorem jtag_cmdRaRecipeLoad {id pl} : (cmdRaRecipeLoad.run id pl c).jtag = c.jtag := by
  simp [cmdRaRecipeLoad, Cmd.plain, -Chip.set_jtag]

@[simp] theorem jtag_cmdRaRecipeCommit {id pl} : (cmdRaRecipeCommit.run id pl c).jtag = c.jtag := by
  simp only [cmdRaRecipeCommit, Cmd.plain]
  (repeat' split) <;> simp

@[simp] theorem jtag_cmdRaBegin {id pl} : (cmdRaBegin.run id pl c).jtag = c.jtag := by simp [cmdRaBegin, Cmd.plain]

@[simp] theorem jtag_cmdRaFinal {id pl} : (cmdRaFinal.run id pl c).jtag = c.jtag := by simp [cmdRaFinal, Cmd.plain]

@[simp] theorem jtag_cmdRaEnd {id pl} : (cmdRaEnd.run id pl c).jtag = c.jtag := by simp [cmdRaEnd, Cmd.plain]

@[simp] theorem Chip.jtag_ctxReads {n d got} : (c.ctxReads n d got).2.jtag = c.jtag := by
  induction n generalizing d got c with
  | zero => rfl
  | succ n ih =>
    unfold Chip.ctxReads
    simp [ih]

@[simp] theorem jtag_cmdRaCtxRead {id pl} : (cmdRaCtxRead.run id pl c).jtag = c.jtag := by simp [cmdRaCtxRead, Cmd.plain]

@[simp] theorem Chip.jtag_recordRead {a} : (c.recordRead a).2.jtag = c.jtag := by
  unfold Chip.recordRead
  split
  · split <;> simp
  · split
    · extract_lets r w
      split
      all_goals
        next h =>
        simp [Chip.jtag_of_snd h]
    · rfl

@[simp] theorem Chip.jtag_recordReads {as got} : (c.recordReads as got).2.jtag = c.jtag := by
  induction as generalizing got c with
  | nil => rfl
  | cons a as ih =>
    unfold Chip.recordReads
    simp [ih]

@[simp] theorem jtag_cmdRaRingRead {id pl} : (cmdRaRingRead.run id pl c).jtag = c.jtag := by simp [cmdRaRingRead, Cmd.plain]

end Sys2Proof.Machine
end

section
/-! PROOF. Each operation of Machine/Windway.lean leaves the test access port as it is (O45). -/

namespace Sys2Proof.Machine

variable {c : Chip}

@[simp] theorem Chip.jtag_wpResend {p} : (c.wpResend p).jtag = c.jtag := by simp [Chip.wpResend]

@[simp] theorem Chip.jtag_widthShow {p} : (c.widthShow p).jtag = c.jtag := by simp [Chip.widthShow]

@[simp] theorem Chip.jtag_laneOut {p l slots} : (c.laneOut p l slots).jtag = c.jtag := by simp [Chip.laneOut]

@[simp] theorem Chip.jtag_laneSuspect {p cause} : (c.laneSuspect p cause).jtag = c.jtag := by
  unfold Chip.laneSuspect
  split <;> simp

@[simp] theorem Chip.jtag_wpReplay {p} : (c.wpReplay p).jtag = c.jtag := by simp [Chip.wpReplay]

@[simp] theorem Chip.jtag_wpNak {p} : (c.wpNak p).jtag = c.jtag := by simp [Chip.wpNak]

@[simp] theorem Chip.jtag_wpFrame {p f laneBad} : (c.wpFrame p f laneBad).jtag = c.jtag := by simp [Chip.wpFrame]

@[simp] theorem Chip.jtag_wpWindow {p} : (c.wpWindow p).jtag = c.jtag := by simp [Chip.wpWindow]

@[simp] theorem Chip.jtag_setRoute {b d e} : (c.setRoute b d e).jtag = c.jtag := by rfl

@[simp] theorem Chip.jtag_epochSwitch : c.epochSwitch.jtag = c.jtag := by
  unfold Chip.epochSwitch
  dsimp only
  split <;> simp

@[simp] theorem Chip.jtag_fwdEnd {ok status detail} : (c.fwdEnd ok status detail).jtag = c.jtag := by simp [Chip.fwdEnd]

@[simp] theorem Chip.jtag_declareGone {d} : (c.declareGone d).jtag = c.jtag := by simp [Chip.declareGone]

@[simp] theorem Chip.jtag_wwByPath {path kind n fields} : (c.wwByPath path kind n fields).jtag = c.jtag := by simp [Chip.wwByPath]

@[simp] theorem Chip.jtag_discStart {slot} : (c.discStart slot).jtag = c.jtag := by simp [Chip.discStart]

@[simp] theorem Chip.jtag_routeStart {slot write} : (c.routeStart slot write).jtag = c.jtag := by rfl

@[simp] theorem Chip.jtag_changeDone {g} : (c.changeDone g).jtag = c.jtag := by simp [Chip.changeDone]

@[simp] theorem Chip.jtag_changeSwitch {g} : (c.changeSwitch g).jtag = c.jtag := by simp [Chip.changeSwitch]

@[simp] theorem Chip.jtag_changeWrite {g} : (c.changeWrite g).jtag = c.jtag := by simp [Chip.changeWrite, -Chip.set_jtag]

@[simp] theorem Chip.jtag_discExpire : c.discExpire.jtag = c.jtag := by
  unfold Chip.discExpire
  split <;> simp

@[simp] theorem Chip.jtag_oldDrained : c.oldDrained.jtag = c.jtag := by
  unfold Chip.oldDrained
  split <;> simp

@[simp] theorem Chip.jtag_pathAck : c.pathAck.jtag = c.jtag := by
  unfold Chip.pathAck
  split <;> simp

@[simp] theorem Chip.jtag_rootReact {uid p st} : (c.rootReact uid p st).jtag = c.jtag := by simp [Chip.rootReact]

@[simp] theorem Chip.jtag_linkChanged {p st} : (c.linkChanged p st).jtag = c.jtag := by simp [Chip.linkChanged]

@[simp] theorem Chip.jtag_portUp {p bridge uid partner} : (c.portUp p bridge uid partner).jtag = c.jtag := by simp [Chip.portUp]

@[simp] theorem Chip.jtag_portLeave {p st} : (c.portLeave p st).jtag = c.jtag := by rfl

@[simp] theorem Chip.jtag_portDown {p} : (c.portDown p).jtag = c.jtag := by simp [Chip.portDown]

@[simp] theorem Chip.jtag_portEnable {p on} : (c.portEnable p on).jtag = c.jtag := by simp [Chip.portEnable]

@[simp] theorem Chip.jtag_portRetrain {p} : (c.portRetrain p).jtag = c.jtag := by simp [Chip.portRetrain]

@[simp] theorem Chip.jtag_portReset {p} : (c.portReset p).jtag = c.jtag := by simp [Chip.portReset]

@[simp] theorem Chip.jtag_portsStart : c.portsStart.jtag = c.jtag := by simp [Chip.portsStart]

@[simp] theorem Chip.jtag_laneRestore {p l} : (c.laneRestore p l).jtag = c.jtag := by simp [Chip.laneRestore]

@[simp] theorem Chip.jtag_laneRetire {p l} : (c.laneRetire p l).jtag = c.jtag := by simp [Chip.laneRetire]

@[simp] theorem Chip.jtag_wwSendErr {p h ni idx ep detail} : (c.wwSendErr p h ni idx ep detail).jtag = c.jtag := by simp [Chip.wwSendErr]

@[simp] theorem Chip.jtag_undeliverable {detail} : (undeliverable detail c).jtag = c.jtag := by
  simp [undeliverable]

@[simp] theorem Chip.jtag_probe {p serial root path rev} : (c.probe p serial root path rev).jtag = c.jtag := by simp [Chip.probe]

@[simp] theorem Chip.jtag_probeReply {serial uid path ports} : (c.probeReply serial uid path ports).jtag = c.jtag := by
  unfold Chip.probeReply
  split <;> simp

@[simp] theorem Chip.jtag_pathWrite {h rr what} : (c.pathWrite h rr what).jtag = c.jtag := by
  unfold Chip.pathWrite
  split <;> simp [-Chip.set_jtag]

@[simp] theorem Chip.jtag_wwPump : c.wwPump.jtag = c.jtag := by
  refine Chip.forAll_jtag fun e d => ?_
  split
  · rfl
  · extract_lets q
    split
    · rfl
    · next h =>
      have hd := Chip.jtag_niIssue h
      exact hd

@[simp] theorem Chip.jtag_proxy {p h rr q} : (c.proxy p h rr q).jtag = c.jtag := by simp [Chip.proxy]

@[simp] theorem Chip.jtag_proxyAnswer {p src ni idx ep rr hops cls r word data} :
    (c.proxyAnswer p src ni idx ep rr hops cls r word data).jtag = c.jtag := by
  simp [Chip.proxyAnswer]

@[simp] theorem Chip.jtag_tbFollow {own err} : (c.tbFollow own err).jtag = c.jtag := by simp [Chip.tbFollow]

@[simp] theorem Chip.jtag_timeCode {p time echo at'} : (c.timeCode p time echo at').jtag = c.jtag := by simp [Chip.timeCode]

@[simp] theorem Chip.jtag_syncIn {at'} : (c.syncIn at').jtag = c.jtag := by simp [Chip.syncIn]

@[simp] theorem Chip.jtag_tbLock : c.tbLock.jtag = c.jtag := by simp [Chip.tbLock]

@[simp] theorem Chip.jtag_tbLost : c.tbLost.jtag = c.jtag := by simp [Chip.tbLost]

@[simp] theorem Chip.jtag_timeCodes : c.timeCodes.jtag = c.jtag := by simp [Chip.timeCodes, -Chip.emit_jtag]

@[simp] theorem Chip.jtag_syncOut : c.syncOut.jtag = c.jtag := by simp [Chip.syncOut]

@[simp] theorem Chip.jtag_holdAnn {src tick hold} : (c.holdAnn src tick hold).jtag = c.jtag := by
  unfold Chip.holdAnn
  split <;> simp

@[simp] theorem Chip.jtag_xgFault : c.xgFault.jtag = c.jtag := by
  unfold Chip.xgFault
  split <;> simp

@[simp] theorem Chip.jtag_routeWrite {b d v} : (c.routeWrite b d v).2.jtag = c.jtag := by simp [Chip.routeWrite]

@[simp] theorem Chip.jtag_tbCtlWrite {v} : (c.tbCtlWrite v).2.jtag = c.jtag := by simp [Chip.tbCtlWrite]

@[simp] theorem Chip.jtag_wpCtlWrite {p v} : (c.wpCtlWrite p v).jtag = c.jtag := by simp [Chip.wpCtlWrite]

@[simp] theorem Chip.jtag_wwCntClr {v} : (c.wwCntClr v).jtag = c.jtag := by simp [Chip.wwCntClr]

@[simp] theorem Chip.jtag_wpCntClr {p v} : (c.wpCntClr p v).jtag = c.jtag := by simp [Chip.wpCntClr]

@[simp] theorem jtag_cmdWwStatus {id pl} : (cmdWwStatus.run id pl c).jtag = c.jtag := by simp [cmdWwStatus, Cmd.plain]

@[simp] theorem jtag_cmdWwDiscover {id pl} : (cmdWwDiscover.run id pl c).jtag = c.jtag := by simp [cmdWwDiscover, Cmd.plain]

@[simp] theorem jtag_cmdWwTopoRead {id pl} : (cmdWwTopoRead.run id pl c).jtag = c.jtag := by simp [cmdWwTopoRead, Cmd.plain]

@[simp] theorem jtag_cmdWwRoute {id pl} : (cmdWwRoute.run id pl c).jtag = c.jtag := by simp [cmdWwRoute, Cmd.plain]

@[simp] theorem jtag_cmdWwPort {id pl} : (cmdWwPort.run id pl c).jtag = c.jtag := by simp [cmdWwPort, Cmd.plain]

@[simp] theorem jtag_cmdWwLaneTest {id pl} : (cmdWwLaneTest.run id pl c).jtag = c.jtag := by simp [cmdWwLaneTest, Cmd.plain]

end Sys2Proof.Machine
end

section
/-! PROOF. Each operation of Machine/Dma.lean leaves the test access port as it is (O45). -/

namespace Sys2Proof.Machine

variable {c : Chip}

@[simp] theorem Chip.jtag_setDm {ch f} : (c.setDm ch f).jtag = c.jtag := by rfl

@[simp] theorem Chip.jtag_dmaUnload {ch} : (c.dmaUnload ch).jtag = c.jtag := by simp [Chip.dmaUnload]

@[simp] theorem Chip.jtag_dmaUnqueue {ch} : (c.dmaUnqueue ch).jtag = c.jtag := by rfl

@[simp] theorem Chip.jtag_dmaWait {ch st} : (c.dmaWait ch st).jtag = c.jtag := by simp [Chip.dmaWait]

@[simp] theorem Chip.jtag_dmaReply {ch pick status detail} : (c.dmaReply ch pick status detail).jtag = c.jtag := by simp [Chip.dmaReply]

@[simp] theorem Chip.jtag_dmaPausedNow {ch} : (c.dmaPausedNow ch).jtag = c.jtag := by
  unfold Chip.dmaPausedNow
  extract_lets c1 c2 c3
  have h3 : c3.jtag = c.jtag := by simp [c3, c2, c1]
  clear_value c3
  split <;> simp [h3]

@[simp] theorem Chip.jtag_dmaQueue {ch} : (c.dmaQueue ch).jtag = c.jtag := by simp [Chip.dmaQueue]

@[simp] theorem Chip.jtag_dmaIdleNow {ch} : (c.dmaIdleNow ch).jtag = c.jtag := by simp [Chip.dmaIdleNow]

@[simp] theorem Chip.jtag_dmaDoneNow {ch chain} : (c.dmaDoneNow ch chain).jtag = c.jtag := by simp [Chip.dmaDoneNow]

@[simp] theorem Chip.jtag_dmaErrorNow {ch} : (c.dmaErrorNow ch).jtag = c.jtag := by simp [Chip.dmaErrorNow]

@[simp] theorem Chip.jtag_dmaBegin {ch} : (c.dmaBegin ch).jtag = c.jtag := by rfl

@[simp] theorem Chip.jtag_dmaPromote {ch} : (c.dmaPromote ch).jtag = c.jtag := by simp [Chip.dmaPromote]

@[simp] theorem Chip.jtag_dmaMoved {ch ps} : (c.dmaMoved ch ps).jtag = c.jtag := by simp [Chip.dmaMoved]

@[simp] theorem Chip.jtag_dmaAdvance {ch} : (c.dmaAdvance ch).jtag = c.jtag := by simp [Chip.dmaAdvance]

@[simp] theorem Chip.jtag_dmaFail {ch side r addr} : (c.dmaFail ch side r addr).jtag = c.jtag := by simp [Chip.dmaFail]

@[simp] theorem Chip.jtag_dmaErrFinish {ch} : (c.dmaErrFinish ch).jtag = c.jtag := by simp [Chip.dmaErrFinish]

@[simp] theorem Chip.jtag_dmaAbortFinish {ch} : (c.dmaAbortFinish ch).jtag = c.jtag := by simp [Chip.dmaAbortFinish]

@[simp] theorem Chip.jtag_dmaFence {ch} : (c.dmaFence ch).jtag = c.jtag := by rfl

@[simp] theorem Chip.jtag_dmaStep {ch} : (c.dmaStep ch).jtag = c.jtag := by simp [Chip.dmaStep]

@[simp] theorem Chip.jtag_dmaYield {ch} : (c.dmaYield ch).jtag = c.jtag := by simp [Chip.dmaYield]

@[simp] theorem Chip.jtag_dmaLoad {e} : (c.dmaLoad e).jtag = c.jtag := by
  unfold Chip.dmaLoad
  dsimp only
  (repeat' split) <;> simp

@[simp] theorem Chip.jtag_dmaIssue {e ch use pos kind w off n data then'} :
    (c.dmaIssue e ch use pos kind w off n data then').jtag = c.jtag := by
  unfold Chip.dmaIssue
  extract_lets cls
  split
  · rfl
  · next h => simp [Chip.jtag_niIssue h]

@[simp] theorem Chip.jtag_dmaRead {e ch} : (c.dmaRead e ch).jtag = c.jtag := by simp [Chip.dmaRead]

@[simp] theorem Chip.jtag_dmaWrite {e ch} : (c.dmaWrite e ch).jtag = c.jtag := by
  unfold Chip.dmaWrite
  dsimp only
  split <;> simp

@[simp] theorem Chip.jtag_dmaAsk {e write} : (c.dmaAsk e write).jtag = c.jtag := by
  unfold Chip.dmaAsk
  dsimp only
  (repeat' split) <;> simp

@[simp] theorem Chip.jtag_dmaAllMoved {ch} : (c.dmaAllMoved ch).jtag = c.jtag := by simp [Chip.dmaAllMoved]

@[simp] theorem Chip.jtag_dmaFollow {ch} : (c.dmaFollow ch).jtag = c.jtag := by simp [Chip.dmaFollow]

@[simp] theorem Chip.jtag_dmaComplete {ch} : (c.dmaComplete ch).jtag = c.jtag := by simp [Chip.dmaComplete]

@[simp] theorem Chip.jtag_dmaStatusDone {ch r addr} : (c.dmaStatusDone ch r addr).jtag = c.jtag := by simp [Chip.dmaStatusDone]

@[simp] theorem Chip.jtag_dmaFetched {ch addr data} : (c.dmaFetched ch addr data).jtag = c.jtag := by simp [Chip.dmaFetched]

@[simp] theorem Chip.jtag_dmaReread {ch data} : (c.dmaReread ch data).jtag = c.jtag := by simp [Chip.dmaReread]

@[simp] theorem Chip.jtag_dmaStatReply {ch} : (c.dmaStatReply ch).jtag = c.jtag := by simp [Chip.dmaStatReply]

@[simp] theorem Chip.jtag_dmaDropRetry {ch} : (c.dmaDropRetry ch).jtag = c.jtag := by
  unfold Chip.dmaDropRetry
  extract_lets d mine c1
  have h1 : c1.jtag = c.jtag := Chip.forAll_jtag fun q e => by split <;> simp
  simp [h1]

@[simp] theorem Chip.jtag_dmaResp {ch u pos q r word data} : (c.dmaResp ch u pos q r word data).jtag = c.jtag := by
  unfold Chip.dmaResp
  dsimp only
  (repeat' split) <;> simp

@[simp] theorem Chip.jtag_dmaRetry {ch} : (c.dmaRetry ch).jtag = c.jtag := by
  refine Chip.forAll_jtag fun e d => ?_
  extract_lets q
  generalize hn : d.niIssue q.ni q.kind q.cls q.addr q.dev q.n q.rbe q.bes q.data e.2 = o
  cases o with
  | none => rfl
  | some d' => exact Chip.jtag_setDm.trans (Chip.jtag_niIssue hn)

@[simp] theorem Chip.jtag_dmaGo {ch} : (c.dmaGo ch).jtag = c.jtag := by simp [Chip.dmaGo]

@[simp] theorem Chip.jtag_dmaArm {ch} : (c.dmaArm ch).jtag = c.jtag := by simp [Chip.dmaArm]

@[simp] theorem Chip.jtag_dmaClose {ch} : (c.dmaClose ch).jtag = c.jtag := by simp [Chip.dmaClose]

@[simp] theorem Chip.jtag_dmaPause {ch} : (c.dmaPause ch).jtag = c.jtag := by simp [Chip.dmaPause]

@[simp] theorem Chip.jtag_dmaResume {ch} : (c.dmaResume ch).jtag = c.jtag := by simp [Chip.dmaResume]

@[simp] theorem Chip.jtag_dmaAbort {ch} : (c.dmaAbort ch).jtag = c.jtag := by simp [Chip.dmaAbort]

@[simp] theorem Chip.jtag_dmaCmdWrite {ch v} : (c.dmaCmdWrite ch v).2.jtag = c.jtag := by simp [Chip.dmaCmdWrite]

@[simp] theorem Chip.jtag_dmaRegWrite {ch off v} : (c.dmaRegWrite ch off v).2.jtag = c.jtag := by
  unfold Chip.dmaRegWrite
  (repeat' split) <;> simp

@[simp] theorem Chip.jtag_dmaRise {ch} : (c.dmaRise ch).jtag = c.jtag := by simp [Chip.dmaRise]

@[simp] theorem Chip.jtag_dmaDreq {ch on} : (c.dmaDreq ch on).jtag = c.jtag := by simp [Chip.dmaDreq]

@[simp] theorem Chip.jtag_dmaLong {ch} : (c.dmaLong ch).jtag = c.jtag := by simp [Chip.dmaLong]

@[simp] theorem Chip.jtag_dmaReset {ch} : (c.dmaReset ch).jtag = c.jtag := by simp [Chip.dmaReset]

@[simp] theorem jtag_cmdDmaStatus {id pl} : (cmdDmaStatus.run id pl c).jtag = c.jtag := by simp [cmdDmaStatus, Cmd.plain]

@[simp] theorem jtag_cmdDmaStart {id pl} : (cmdDmaStart.run id pl c).jtag = c.jtag := by simp [cmdDmaStart, Cmd.plain]

@[simp] theorem jtag_cmdDmaArm {id pl} : (cmdDmaArm.run id pl c).jtag = c.jtag := by simp [cmdDmaArm, Cmd.plain]

@[simp] theorem jtag_cmdDmaPause {id pl} : (cmdDmaPause.run id pl c).jtag = c.jtag := by simp [cmdDmaPause, Cmd.plain]

@[simp] theorem jtag_cmdDmaResume {id pl} : (cmdDmaResume.run id pl c).jtag = c.jtag := by simp [cmdDmaResume, Cmd.plain]

@[simp] theorem jtag_cmdDmaAbort {id pl} : (cmdDmaAbort.run id pl c).jtag = c.jtag := by simp [cmdDmaAbort, Cmd.plain]

end Sys2Proof.Machine
end

section
/-! PROOF. Each operation of Machine/Thermal.lean leaves the test access port as it is (O45). -/

namespace Sys2Proof.Machine

variable {c : Chip}

@[simp] theorem Chip.jtag_setSensor {i f} : (c.setSensor i f).jtag = c.jtag := by rfl

@[simp] theorem Chip.jtag_thShow {is} : (c.thShow is).jtag = c.jtag := by simp [Chip.thShow, -Chip.set_jtag]

@[simp] theorem Chip.jtag_thWarn {i} : (c.thWarn i).jtag = c.jtag := by simp [Chip.thWarn]

@[simp] theorem Chip.jtag_thDram : c.thDram.jtag = c.jtag := by
  unfold Chip.thDram
  extract_lets t th c1 c2
  have h2 : c2.jtag = c.jtag := by simp [c2, c1]
  clear_value c2
  refine (Chip.forAll_jtag fun n d => ?_).trans h2
  split <;> simp

@[simp] theorem Chip.jtag_thRate {i} : (c.thRate i).jtag = c.jtag := by simp [Chip.thRate]

@[simp] theorem Chip.jtag_thCheck {i raw ratioOk moved} : (c.thCheck i raw ratioOk moved).jtag = c.jtag := by simp [Chip.thCheck]

@[simp] theorem Chip.jtag_thConvert {i raw ratioOk moved} : (c.thConvert i raw ratioOk moved).jtag = c.jtag := by simp [Chip.thConvert]

@[simp] theorem Chip.jtag_regionClock {r} : (c.regionClock r).jtag = c.jtag := by simp [Chip.regionClock]

@[simp] theorem Chip.jtag_throttle : c.throttle.jtag = c.jtag := by
  unfold Chip.throttle
  extract_lets was c1 c2 c3 c4 slow c5
  have h1 : c1.jtag = c.jtag := Chip.forAll_jtag fun _ _ => rfl
  have h2 : c2.jtag = c1.jtag := Chip.forAll_jtag fun _ _ => Chip.jtag_regionClock
  have h3 : c3.jtag = c2.jtag := Chip.set_jtag ..
  have h4 : c4.jtag = c3.jtag := Chip.set_jtag ..
  have h5 : c5.jtag = c4.jtag := Chip.set_jtag ..
  clear_value c5 slow
  split <;> simp [h1, h2, h3, h4, h5]

@[simp] theorem Chip.jtag_layerSuspect {n est} : (c.layerSuspect n est).jtag = c.jtag := by simp [Chip.layerSuspect]

@[simp] theorem Chip.jtag_layerEstimate {inlet outlet lidOk est} : (c.layerEstimate inlet outlet lidOk est).jtag = c.jtag := by
  simp [Chip.layerEstimate]

@[simp] theorem Chip.jtag_thCfgWrite {v} : (c.thCfgWrite v).2.jtag = c.jtag := by simp [Chip.thCfgWrite]

@[simp] theorem Chip.jtag_thHostWrite {v} : (c.thHostWrite v).2.jtag = c.jtag := by simp [Chip.thHostWrite]

@[simp] theorem Chip.jtag_coolantFall : c.coolantFall.jtag = c.jtag := by simp [Chip.coolantFall, -Chip.set_jtag]

@[simp] theorem Chip.jtag_coolantEnd : c.coolantEnd.jtag = c.jtag := by simp [Chip.coolantEnd]

@[simp] theorem jtag_cmdThStatus {id pl} : (cmdThStatus.run id pl c).jtag = c.jtag := by simp [cmdThStatus, Cmd.plain]

@[simp] theorem jtag_cmdThSensors {id pl} : (cmdThSensors.run id pl c).jtag = c.jtag := by simp [cmdThSensors, Cmd.plain]

@[simp] theorem jtag_cmdThSubst {id pl} : (cmdThSubst.run id pl c).jtag = c.jtag := by simp [cmdThSubst, Cmd.plain]

@[simp] theorem jtag_cmdThThresh {id pl} : (cmdThThresh.run id pl c).jtag = c.jtag := by simp [cmdThThresh, Cmd.plain]

@[simp] theorem jtag_cmdThLimit {id pl} : (cmdThLimit.run id pl c).jtag = c.jtag := by simp [cmdThLimit, Cmd.plain]

@[simp] theorem Chip.jtag_trainEnd {ok} : (c.trainEnd ok).jtag = c.jtag := by simp [Chip.trainEnd]

end Sys2Proof.Machine
end

section
/-! PROOF. Each operation of Machine/SelfTest.lean leaves the test access port as it is (O45). -/

namespace Sys2Proof.Machine

variable {c : Chip}

@[simp] theorem Chip.jtag_powerRetired : c.powerRetired.jtag = c.jtag := by simp [Chip.powerRetired]

@[simp] theorem Chip.jtag_cfgDrop {r} : (c.cfgDrop r).jtag = c.jtag := by
  unfold Chip.cfgDrop
  dsimp only
  (repeat' split) <;> simp

@[simp] theorem Chip.jtag_lgRestart : c.lgRestart.jtag = c.jtag := by simp [Chip.lgRestart]

@[simp] theorem Chip.jtag_reloadOver : c.reloadOver.jtag = c.jtag := by
  unfold Chip.reloadOver
  dsimp only
  split <;> simp

@[simp] theorem Chip.jtag_retireRegion {r} : (c.retireRegion r).jtag = c.jtag := by simp [Chip.retireRegion]

@[simp] theorem Chip.jtag_drRetireBank {b} : (c.drRetireBank b).jtag = c.jtag := by
  unfold Chip.drRetireBank
  extract_lets c1 mine c2 lost dr c3
  have h1 : c1.jtag = c.jtag := by simp [c1]
  have h2 : c2.jtag = c1.jtag := Chip.forAll_jtag fun q e => by split <;> simp
  have h3 : c3.jtag = c2.jtag := Chip.jtag_drLevels
  clear_value c3
  simp [h1, h2, h3]

@[simp] theorem Chip.jtag_retireBore {n b ev} : (c.retireBore n b ev).jtag = c.jtag := by
  unfold Chip.retireBore
  extract_lets f c1 uses
  have h1 : c1.jtag = c.jtag := by simp [c1]
  refine (Chip.forAll_jtag fun r d => ?_).trans h1
  extract_lets runs hit bad d1 d2 d3
  have h1 : d1.jtag = d.jtag := by simp [d1]
  have h2 : d2.jtag = d1.jtag := by simp [d2]
  have h3 : d3.jtag = d2.jtag := by simp [d3]
  simp [h1, h2, h3]

@[simp] theorem Chip.jtag_retireRiser {n both} : (c.retireRiser n both).jtag = c.jtag := by simp [Chip.retireRiser]

@[simp] theorem Chip.jtag_breakSensors {loc ev} : (c.breakSensors loc ev).jtag = c.jtag := by simp [Chip.breakSensors]

@[simp] theorem Chip.jtag_retireBoreAt {loc ev} : (c.retireBoreAt loc ev).jtag = c.jtag := by
  unfold Chip.retireBoreAt
  split <;> simp

@[simp] theorem Chip.jtag_halfApply {n p h} : (c.halfApply n p h).jtag = c.jtag := by rfl

@[simp] theorem Chip.jtag_laneQuiet {p l} : (c.laneQuiet p l).jtag = c.jtag := by simp [Chip.laneQuiet]

@[simp] theorem Chip.jtag_retireElem {kind loc ev} : (c.retireElem kind loc ev).jtag = c.jtag := by
  unfold Chip.retireElem
  split <;> simp

@[simp] theorem Chip.jtag_mapSpare {kind loc spare} : (c.mapSpare kind loc spare).jtag = c.jtag := by
  unfold Chip.mapSpare
  split <;> simp

@[simp] theorem Chip.jtag_applyEntry {fused e} : (c.applyEntry fused e).jtag = c.jtag := by simp [Chip.applyEntry]

@[simp] theorem Chip.jtag_cfgCancel : c.cfgCancel.jtag = c.jtag := by simp [Chip.cfgCancel]

@[simp] theorem Chip.jtag_holdAll : c.holdAll.jtag = c.jtag := by simp [Chip.holdAll]

@[simp] theorem Chip.jtag_enterSafe : c.enterSafe.jtag = c.jtag := by
  unfold Chip.enterSafe
  dsimp only
  (repeat' split) <;> simp

@[simp] theorem Chip.jtag_permanent {kind loc sub} : (c.permanent kind loc sub).2.jtag = c.jtag := by
  unfold Chip.permanent
  dsimp only
  (repeat' split) <;> simp

@[simp] theorem Chip.jtag_transient {kind loc} : (c.transient kind loc).jtag = c.jtag := by simp [Chip.transient]

@[simp] theorem Chip.jtag_runDone {ids result} : (c.runDone ids result).jtag = c.jtag := by simp [Chip.runDone]

@[simp] theorem Chip.jtag_reloadDone : c.reloadDone.jtag = c.jtag := by
  unfold Chip.reloadDone
  split <;> simp

@[simp] theorem Chip.jtag_testStart : c.testStart.jtag = c.jtag := by
  unfold Chip.testStart
  dsimp only
  (repeat' split) <;> simp

@[simp] theorem Chip.jtag_testPass {t} : (c.testPass t).jtag = c.jtag := by simp [Chip.testPass]

@[simp] theorem Chip.jtag_testFail {t sub} : (c.testFail t sub).jtag = c.jtag := by simp [Chip.testFail]

@[simp] theorem Chip.jtag_testOver {verdict sub} : (c.testOver verdict sub).jtag = c.jtag := by
  unfold Chip.testOver
  (repeat' split) <;> simp

@[simp] theorem Chip.jtag_testEnd {y sub} : (c.testEnd y sub).jtag = c.jtag := by
  unfold Chip.testEnd
  split <;> simp

@[simp] theorem Chip.jtag_laneTested {p l pass} : (c.laneTested p l pass).jtag = c.jtag := by
  unfold Chip.laneTested
  split <;> simp

@[simp] theorem Chip.jtag_sliceStart {condOk exp} : (c.sliceStart condOk exp).jtag = c.jtag := by
  unfold Chip.sliceStart
  (repeat' split) <;> simp

@[simp] theorem Chip.jtag_reedSliced {first n} : (c.reedSliced first n).jtag = c.jtag := by simp [Chip.reedSliced]

@[simp] theorem Chip.jtag_sliceEnd {y n found} : (c.sliceEnd y n found).jtag = c.jtag := by
  unfold Chip.sliceEnd
  split <;> simp

@[simp] theorem Chip.jtag_fullFaults {fs a b} : (c.fullFaults fs a b).2.2.jtag = c.jtag := by
  induction fs generalizing a b c with
  | nil => rfl
  | cons f fs ih =>
    unfold Chip.fullFaults
    split
    · rfl
    · split <;> simp [ih]

@[simp] theorem Chip.jtag_fullWipe : c.fullWipe.jtag = c.jtag := by simp [Chip.fullWipe]

@[simp] theorem Chip.jtag_fullDone {tested passed failed} : (c.fullDone tested passed failed).jtag = c.jtag := by
  unfold Chip.fullDone
  split
  · rfl
  · next f _ =>
    extract_lets passed c1 r c2 st c3
    have h1 : c1.jtag = c.jtag := by simp [c1]
    have h2 : c2.jtag = c1.jtag := Chip.jtag_fullFaults
    split
    · exact h2.trans h1
    · have h3 : c3.jtag = c2.jtag := by simp [c3]
      clear_value c3 c2
      simp [h1, h2, h3]

@[simp] theorem Chip.jtag_lgMove {k} : (c.lgMove k).jtag = c.jtag := by simp [Chip.lgMove]

@[simp] theorem Chip.jtag_lgNext : c.lgNext.jtag = c.jtag := by simp [Chip.lgNext]

@[simp] theorem Chip.jtag_lgBad {r s q w byCrc} : (c.lgBad r s q w byCrc).jtag = c.jtag := by simp [Chip.lgBad]

@[simp] theorem Chip.jtag_lgCheck {corr find vote} : (c.lgCheck corr find vote).jtag = c.jtag := by
  unfold Chip.lgCheck
  (repeat' split) <;> simp

@[simp] theorem Chip.jtag_lgReload {dataBad again} : (c.lgReload dataBad again).jtag = c.jtag := by
  unfold Chip.lgReload
  split
  · rfl
  · next r s q w _ =>
    extract_lets k a new f dr c1 p c2 g c3 cfg c4 lg
    have h1 : c1.jtag = c.jtag := by
      unfold c1
      split <;> rfl
    clear_value c1
    have hp : p.2.jtag = c1.jtag := Chip.jtag_rowReads
    clear_value p
    have h2 : c2.jtag = p.2.jtag := rfl
    clear_value c2
    have h3 : c3.jtag = c2.jtag := by simp [c3]
    have h4 : c4.jtag = c2.jtag := Chip.jtag_mk_cfg c2 _
    clear_value c3 c4
    simp [h1, hp, h2, h3, h4]

@[simp] theorem Chip.jtag_clrCounters {v groups} : (c.clrCounters v groups).jtag = c.jtag := by simp [Chip.clrCounters]

@[simp] theorem Chip.jtag_stCntClr {v} : (c.stCntClr v).jtag = c.jtag := by simp [Chip.stCntClr]

@[simp] theorem Chip.jtag_lgCntClr {v} : (c.lgCntClr v).jtag = c.jtag := by simp [Chip.lgCntClr]

@[simp] theorem Chip.jtag_stCtlWrite {v} : (c.stCtlWrite v).2.jtag = c.jtag := by simp [Chip.stCtlWrite]

@[simp] theorem Chip.jtag_lgCtlWrite {v} : (c.lgCtlWrite v).2.jtag = c.jtag := by simp [Chip.lgCtlWrite]

@[simp] theorem jtag_cmdStStatus {id pl} : (cmdStStatus.run id pl c).jtag = c.jtag := by simp [cmdStStatus, Cmd.plain]

@[simp] theorem jtag_cmdStRun {id pl} : (cmdStRun.run id pl c).jtag = c.jtag := by simp [cmdStRun, stCmd, Cmd.plain]

@[simp] theorem jtag_cmdStFull {id pl} : (cmdStFull.run id pl c).jtag = c.jtag := by
  simp only [cmdStFull, stCmd, Cmd.plain]
  split <;> simp

@[simp] theorem jtag_cmdStLogRead {id pl} : (cmdStLogRead.run id pl c).jtag = c.jtag := by simp [cmdStLogRead, stCmd, Cmd.plain]

@[simp] theorem jtag_cmdStFuseRepair {id pl} : (cmdStFuseRepair.run id pl c).jtag = c.jtag := by simp [cmdStFuseRepair, stCmd, Cmd.plain]

@[simp] theorem jtag_cmdStLogClear {id pl} : (cmdStLogClear.run id pl c).jtag = c.jtag := by rfl

@[simp] theorem jtag_cmdLgStatus {id pl} : (cmdLgStatus.run id pl c).jtag = c.jtag := by simp [cmdLgStatus, stCmd, Cmd.plain]

@[simp] theorem Chip.jtag_fuseRepaired {b} : (c.fuseRepaired b).jtag = c.jtag := by rfl

@[simp] theorem Chip.jtag_fuseDone : c.fuseDone.jtag = c.jtag := by
  unfold Chip.fuseDone
  split <;> simp

end Sys2Proof.Machine
end

section
/-! PROOF. Each operation of Machine/Power.lean leaves the test access port as it is (O45). -/

namespace Sys2Proof.Machine

variable {c : Chip}

@[simp] theorem Chip.jtag_setFset {r v} : (c.setFset r v).jtag = c.jtag := by simp [Chip.setFset]

@[simp] theorem Chip.jtag_clkWrite {r v} : (c.clkWrite r v).2.jtag = c.jtag := by simp [Chip.clkWrite]

@[simp] theorem Chip.jtag_slewDone {r} : (c.slewDone r).jtag = c.jtag := by simp [Chip.slewDone]

@[simp] theorem jtag_cmdClkRegion {id pl} : (cmdClkRegion.run id pl c).jtag = c.jtag := by simp [cmdClkRegion, Cmd.plain]

@[simp] theorem jtag_cmdPwrRegion {id pl} : (cmdPwrRegion.run id pl c).jtag = c.jtag := by simp [cmdPwrRegion, Cmd.plain]

@[simp] theorem Chip.jtag_regionCmdsEnd {id r st} : (c.regionCmdsEnd id r st).jtag = c.jtag := by simp [Chip.regionCmdsEnd]

@[simp] theorem Chip.jtag_powerRegionDone {r} : (c.powerRegionDone r).jtag = c.jtag := by
  unfold Chip.powerRegionDone
  split <;> simp

@[simp] theorem Chip.jtag_nvsUnc {w} : (c.nvsUnc w).jtag = c.jtag := by simp [Chip.nvsUnc]

@[simp] theorem Chip.jtag_userRead {id w n} : (c.userRead id w n).jtag = c.jtag := by
  unfold Chip.userRead
  dsimp only
  split <;> simp

@[simp] theorem Chip.jtag_wordRead {w} : (c.wordRead w).2.jtag = c.jtag := by
  unfold Chip.wordRead
  split <;> simp

@[simp] theorem Chip.jtag_nvsFollow {d} : (c.nvsFollow d).jtag = c.jtag := by
  unfold Chip.nvsFollow
  split <;> simp

@[simp] theorem Chip.jtag_nvsReads : c.nvsReads.jtag = c.jtag := by simp [Chip.nvsReads]

@[simp] theorem Chip.jtag_nvsWordDone {m} : (c.nvsWordDone m).jtag = c.jtag := by
  unfold Chip.nvsWordDone
  refine Chip.jtag_nvsReads.trans ?_
  split <;> simp

@[simp] theorem Chip.jtag_aperture {ni off write wide v done} :
    (c.aperture ni off write wide v done).2.jtag = c.jtag := by simp [Chip.aperture]

@[simp] theorem Chip.jtag_apertureAccess {ni off write wide v} : (c.apertureAccess ni off write wide v).jtag = c.jtag := by
  unfold Chip.apertureAccess
  split
  all_goals
    next h =>
    simp [Chip.jtag_of_snd h]

@[simp] theorem Chip.jtag_upageSelf {ni write v} : (c.upageSelf ni write v).2.jtag = c.jtag := by simp [Chip.upageSelf]

@[simp] theorem Chip.jtag_nvsCntClr {v} : (c.nvsCntClr v).jtag = c.jtag := by simp [Chip.nvsCntClr]

@[simp] theorem jtag_cmdPwrStatus {id pl} : (cmdPwrStatus.run id pl c).jtag = c.jtag := by simp [cmdPwrStatus, Cmd.plain]

@[simp] theorem jtag_cmdNvsRecInfo {id pl} : (cmdNvsRecInfo.run id pl c).jtag = c.jtag := by simp [cmdNvsRecInfo, Cmd.plain]

@[simp] theorem jtag_cmdNvsRecRead {id pl} : (cmdNvsRecRead.run id pl c).jtag = c.jtag := by
  simp only [cmdNvsRecRead, Cmd.plain]
  split <;> simp

@[simp] theorem jtag_cmdNvsEvlogRead {id pl} : (cmdNvsEvlogRead.run id pl c).jtag = c.jtag := by simp [cmdNvsEvlogRead, Cmd.plain]

@[simp] theorem jtag_cmdNvsUser {id pl} : (cmdNvsUser.run id pl c).jtag = c.jtag := by simp [cmdNvsUser, Cmd.plain]

@[simp] theorem jtag_cmdRdCalSave {id pl} : (cmdRdCalSave.run id pl c).jtag = c.jtag := by simp [cmdRdCalSave, Cmd.plain]

end Sys2Proof.Machine
end

section
/-! PROOF. Each operation of Machine/Target.lean leaves the test access port as it is (O45). -/

namespace Sys2Proof.Machine

variable {c : Chip}

@[simp] theorem Chip.jtag_evqMask {v} : (c.evqMask v).jtag = c.jtag := by simp [Chip.evqMask]

@[simp] theorem Chip.jtag_evqClrLost : c.evqClrLost.jtag = c.jtag := by rfl

@[simp] theorem Chip.jtag_evqFlush : c.evqFlush.jtag = c.jtag := by simp [Chip.evqFlush]

@[simp] theorem Chip.jtag_evqCtl {v} : (c.evqCtl v).jtag = c.jtag := by simp [Chip.evqCtl]

@[simp] theorem Chip.jtag_chCntClr {v} : (c.chCntClr v).jtag = c.jtag := by simp [Chip.chCntClr]

@[simp] theorem Chip.jtag_wrrWrite {v} : (c.wrrWrite v).2.jtag = c.jtag := by simp [Chip.wrrWrite, -Chip.set_jtag]

@[simp] theorem Chip.jtag_niCntClr {ni v} : (c.niCntClr ni v).jtag = c.jtag := by simp [Chip.niCntClr]

@[simp] theorem Chip.jtag_niCtlWrite {ni v} : (c.niCtlWrite ni v).2.jtag = c.jtag := by simp [Chip.niCtlWrite]

@[simp] theorem Chip.jtag_readHalf {ni off} : (c.readHalf ni off).2.jtag = c.jtag := by
  unfold Chip.readHalf
  split <;> simp

@[simp] theorem Chip.jtag_readWide {off fs} : (c.readWide off fs).2.jtag = c.jtag := by simp [Chip.readWide]

@[simp] theorem Chip.jtag_ctlRead {ni off wide} : (c.ctlRead ni off wide).2.jtag = c.jtag := by
  unfold Chip.ctlRead
  split
  · split
    all_goals
      next h =>
      simp [Chip.jtag_of_snd h]
  · extract_lets held lo hi
    split
    · rfl
    · split
      · split
        · simp
        · simp [hi, lo]
      · simp [lo]

@[simp] theorem Chip.jtag_peWrite {k rel v fs} : (c.peWrite k rel v fs).2.jtag = c.jtag := by simp [Chip.peWrite]

@[simp] theorem Chip.jtag_rdWrite {g rel v fs} : (c.rdWrite g rel v fs).2.jtag = c.jtag := by simp [Chip.rdWrite]

@[simp] theorem Chip.jtag_capWrite {off v fs} : (c.capWrite off v fs).2.jtag = c.jtag := by simp [Chip.capWrite]

@[simp] theorem Chip.jtag_raeRegWrite {off v fs} : (c.raeRegWrite off v fs).2.jtag = c.jtag := by simp [Chip.raeRegWrite]

@[simp] theorem Chip.jtag_wwWrite {off v fs} : (c.wwWrite off v fs).2.jtag = c.jtag := by simp [Chip.wwWrite]

@[simp] theorem Chip.jtag_fabWrite {off v fs} : (c.fabWrite off v fs).2.jtag = c.jtag := by simp [Chip.fabWrite]

@[simp] theorem Chip.jtag_writeHalf {ni off v} : (c.writeHalf ni off v).2.jtag = c.jtag := by
  unfold Chip.writeHalf
  (repeat' split) <;> simp

@[simp] theorem Chip.jtag_writeWide {ni off v fs} : (c.writeWide ni off v fs).2.jtag = c.jtag := by
  unfold Chip.writeWide
  split <;> simp

@[simp] theorem Chip.jtag_writePair {ni off v} : (c.writePair ni off v).2.jtag = c.jtag := by simp [Chip.writePair]

@[simp] theorem Chip.jtag_ctlWrite {ni off wide v done} : (c.ctlWrite ni off wide v done).2.jtag = c.jtag := by
  unfold Chip.ctlWrite
  split
  · split
    all_goals
      next h =>
      simp [Chip.jtag_of_snd h]
  · extract_lets p
    show p.2.jtag = c.jtag
    unfold p
    split
    · simp
    · split <;> simp

@[simp] theorem Chip.jtag_registerWrite {addr v} : (c.registerWrite addr v).jtag = c.jtag := by
  unfold Chip.registerWrite
  split
  · split
    · simp
    · split
      all_goals
        next h =>
        simp [Chip.jtag_of_snd h]
  · simp

end Sys2Proof.Machine
end

section
/-! PROOF. Each operation of Machine/Net.lean leaves the test access port as it is (O45). -/

namespace Sys2Proof.Machine

variable {c : Chip}

@[simp] theorem Chip.jtag_spadWord {q r w i flaws coll} : (c.spadWord q r w i flaws coll).2.jtag = c.jtag := by simp [Chip.spadWord]

@[simp] theorem Chip.jtag_spadWords {q r w flaws coll n i got} : (c.spadWords q r w flaws coll n i got).2.jtag = c.jtag := by
  induction n generalizing i got c with
  | zero => rfl
  | succ n ih =>
    unfold Chip.spadWords
    split
    · next h => exact (Chip.jtag_of_snd h).trans Chip.jtag_spadWord
    · next h => simp [ih, Chip.jtag_of_snd h]

@[simp] theorem Chip.jtag_netSpad {q r w flaws coll} : (c.netSpad q r w flaws coll).jtag = c.jtag := by
  unfold Chip.netSpad
  dsimp only
  (repeat' split) <;> simp

theorem Chip.jtag_netCtl {q off} {d} (h : c.netCtl q off = some d) : d.jtag = c.jtag := by
  unfold Chip.netCtl at h
  extract_lets be at' sh src reply v x at h
  have hr (r v) (e : Chip) : (reply r v e).jtag = e.jtag := by simp [reply]
  have hx : x.2.jtag = c.jtag := by
    unfold x
    split <;> simp
  clear_value x reply
  split at h
  · cases h
  · rw [← Option.some.inj h]
    simpa using hx
  · rw [← Option.some.inj h]
    simpa [hr] using hx

theorem Chip.jtag_perform {q flaws coll} {d} (h : c.perform q flaws coll = some d) : d.jtag = c.jtag := by
  unfold Chip.perform at h
  extract_lets src reply at h
  have hr (r) (e : Chip) : (reply r e).jtag = e.jtag := by simp [reply]
  clear_value reply
  split at h
  · rw [← Option.some.inj h]
    simp
  · split at h
    · rw [← Option.some.inj h]
      simp [hr]
    · split at h
      · split at h
        · rw [← Option.some.inj h]
          exact hr _ _
        · exact Chip.jtag_drTake h
      · rw [← Option.some.inj h]
        simp
      · split at h
        · rw [← Option.some.inj h]
          exact hr _ _
        · exact Chip.jtag_netCtl h
      · cases h

@[simp] theorem Chip.jtag_latency {ni cls ns} : (c.latency ni cls ns).jtag = c.jtag := by rfl

@[simp] theorem Chip.jtag_setAccess {slot f} : (c.setAccess slot f).jtag = c.jtag := by rfl

@[simp] theorem Chip.jtag_accessEnd {a st dt} : (c.accessEnd a st dt).jtag = c.jtag := by simp [Chip.accessEnd]

@[simp] theorem Chip.jtag_accessAnswer {slot r v} : (c.accessAnswer slot r v).jtag = c.jtag := by
  unfold Chip.accessAnswer
  split <;> simp

@[simp] theorem Chip.jtag_agentAnswer {o r word data} : (c.agentAnswer o r word data).jtag = c.jtag := by
  unfold Chip.agentAnswer
  split <;> simp

@[simp] theorem Chip.jtag_deliver {o r ns} : (c.deliver o r ns).jtag = c.jtag := by simp [Chip.deliver]

@[simp] theorem Chip.jtag_rspArrive {r ns} : (c.rspArrive r ns).jtag = c.jtag := by
  unfold Chip.rspArrive
  dsimp only
  (repeat' split) <;> simp

theorem Chip.jtag_accessIssue {a} {d} (h : c.accessIssue a = some d) : d.jtag = c.jtag := by
  unfold Chip.accessIssue at h
  exact Chip.jtag_of_map h (fun _ he => Chip.jtag_niIssue he) fun _ => by simp

theorem Chip.jtag_accessStep {d} (h : c.accessStep = some d) : d.jtag = c.jtag := by
  unfold Chip.accessStep at h
  split at h
  · next he =>
    obtain ⟨a, _, ha⟩ := List.exists_of_findSome?_eq_some he
    split at ha
    · cases ha
    · cases h
      exact Chip.jtag_accessIssue ha
  · split at h
    · next he =>
      obtain ⟨q, _, hq⟩ := List.exists_of_findSome?_eq_some he
      split at hq
      · cases h
        exact Chip.jtag_perform hq
      · cases hq
    · obtain ⟨r, _, rfl⟩ := Option.map_eq_some_iff.mp h
      simp

@[simp] theorem Chip.jtag_accessRun {n} : (c.accessRun n).jtag = c.jtag := by
  induction n generalizing c with
  | zero => rfl
  | succ n ih =>
    unfold Chip.accessRun
    split
    · next h => exact ih.trans (Chip.jtag_accessStep h)
    · rfl

@[simp] theorem Chip.jtag_accessPump : c.accessPump.jtag = c.jtag := by simp [Chip.accessPump]

theorem Chip.jtag_riserTake {q} {d} (h : c.riserTake q = some d) : d.jtag = c.jtag := by
  unfold Chip.riserTake at h
  exact Chip.jtag_of_map h (fun _ he => Chip.jtag_niIssue he) fun _ => rfl

@[simp] theorem Chip.jtag_riserPump : c.riserPump.jtag = c.jtag := by
  refine Chip.forAll_jtag fun q d => ?_
  split
  · exact Chip.jtag_getD fun _ h => Chip.jtag_riserTake h
  · rfl

@[simp] theorem Chip.jtag_netServe : c.netServe.jtag = c.jtag := by simp [Chip.netServe]

@[simp] theorem Chip.jtag_riserEnter {q} : (c.riserEnter q).jtag = c.jtag := by simp [Chip.riserEnter]

@[simp] theorem Chip.jtag_netRow {kind ni idx flaws coll} : (c.netRow kind ni idx flaws coll).jtag = c.jtag := by
  unfold Chip.netRow
  split
  · split
    · exact Chip.jtag_netServe.trans (Chip.jtag_getD fun _ h => Chip.jtag_perform h)
    · rfl
  · rfl

@[simp] theorem Chip.jtag_niAccept {ni ask} : (c.niAccept ni ask).jtag = c.jtag := by
  unfold Chip.niAccept
  split
  case h_4 =>
    split
    · exact Chip.jtag_getD fun _ h => Chip.jtag_raeIssue h
    · rfl
  all_goals simp

@[simp] theorem Chip.jtag_netUport {r k what} : (c.netUport r k what).jtag = c.jtag := by
  unfold Chip.netUport
  split <;> simp

@[simp] theorem Chip.jtag_netResponse {ni idx ep ns} : (c.netResponse ni idx ep ns).jtag = c.jtag := by
  unfold Chip.netResponse
  split <;> simp

@[simp] theorem Chip.jtag_raeRecordRsp {idx ep ns} : (c.raeRecordRsp idx ep ns).jtag = c.jtag := by
  unfold Chip.raeRecordRsp
  split <;> simp

@[simp] theorem Chip.jtag_niTimeout {ni idx} : (c.niTimeout ni idx).jtag = c.jtag := by
  unfold Chip.niTimeout
  split <;> simp

@[simp] theorem Chip.jtag_busyExpiry {ni cls} : (c.busyExpiry ni cls).jtag = c.jtag := by
  unfold Chip.busyExpiry
  split <;> simp

@[simp] theorem Chip.jtag_domReopen {d} : (c.domReopen d).jtag = c.jtag := by simp [Chip.domReopen]

@[simp] theorem Chip.jtag_quiesced {n} : (c.quiesced n).jtag = c.jtag := by
  unfold Chip.quiesced
  dsimp only
  (repeat' split) <;> simp

@[simp] theorem Chip.jtag_quiesceRetry {n} : (c.quiesceRetry n).jtag = c.jtag := by simp [Chip.quiesceRetry]

end Sys2Proof.Machine
end

section
/-! PROOF. Each operation of Machine/Device.lean leaves the test access port as it is (O45). -/

namespace Sys2Proof.Machine

variable {c : Chip}

@[simp] theorem Chip.jtag_burnsEnd : c.burnsEnd.jtag = c.jtag := by simp [Chip.burnsEnd]

@[simp] theorem Chip.jtag_spReset {powered} : (c.spReset powered).jtag = c.jtag := by simp [Chip.spReset]

@[simp] theorem Chip.jtag_islandReset {spads} : (c.islandReset spads).jtag = c.jtag := by simp [Chip.islandReset]

@[simp] theorem Chip.jtag_owe {e arg} : (c.owe e arg).jtag = c.jtag := by rfl

@[simp] theorem Chip.jtag_oweOnce {e arg} : (c.oweOnce e arg).jtag = c.jtag := by rfl

@[simp] theorem Chip.jtag_enterBoot {cause} : (c.enterBoot cause).jtag = c.jtag := by simp [Chip.enterBoot]

@[simp] theorem Chip.jtag_warmClear : c.warmClear.jtag = c.jtag := by simp [Chip.warmClear]

@[simp] theorem Chip.jtag_warmReset {cause} : (c.warmReset cause).jtag = c.jtag := by simp [Chip.warmReset]

@[simp] theorem Chip.jtag_holdReset : c.holdReset.jtag = c.jtag := by simp [Chip.holdReset]

@[simp] theorem Chip.jtag_strap {addrSel bootSrc} : (c.strap addrSel bootSrc).jtag = c.jtag := by rfl

@[simp] theorem Chip.jtag_logicPower : c.logicPower.jtag = c.jtag := by simp [Chip.logicPower]

@[simp] theorem Chip.jtag_porCheck {sel} : (c.porCheck sel).jtag = c.jtag := by simp [Chip.porCheck]

@[simp] theorem Chip.jtag_holdEnd {sel} : (c.holdEnd sel).jtag = c.jtag := by
  unfold Chip.holdEnd
  dsimp only
  (repeat' split) <;> simp

@[simp] theorem Chip.jtag_seqViol : c.seqViol.jtag = c.jtag := by
  unfold Chip.seqViol
  extract_lets d
  split <;> simp [d]

@[simp] theorem Chip.jtag_nvsPowerLoss : c.nvsPowerLoss.jtag = c.jtag := by
  unfold Chip.nvsPowerLoss
  refine Chip.jtag_nvsTear.trans ((Chip.forAll_jtag fun m d => ?_).trans (by simp))
  split
  · split <;> simp
  · rfl

@[simp] theorem Chip.jtag_aonValid : c.aonValid.jtag = c.jtag := by simp [Chip.aonValid]

@[simp] theorem Chip.jtag_aonLost : c.aonLost.jtag = c.jtag := by simp [Chip.aonLost]

@[simp] theorem Chip.jtag_railUp {rail aux18} : (c.railUp rail aux18).jtag = c.jtag := by simp [Chip.railUp]

@[simp] theorem Chip.jtag_railDown {rail} : (c.railDown rail).jtag = c.jtag := by simp [Chip.railDown]

@[simp] theorem Chip.jtag_auxDown : c.auxDown.jtag = c.jtag := by simp [Chip.auxDown]

@[simp] theorem Chip.jtag_railsBack : c.railsBack.jtag = c.jtag := by simp [Chip.railsBack]

@[simp] theorem Chip.jtag_resetLow : c.resetLow.jtag = c.jtag := by simp [Chip.resetLow]

@[simp] theorem Chip.jtag_resetHigh {addrSel bootSrc} : (c.resetHigh addrSel bootSrc).jtag = c.jtag := by simp [Chip.resetHigh]

@[simp] theorem Chip.jtag_refclkLost {noEdge} : (c.refclkLost noEdge).jtag = c.jtag := by simp [Chip.refclkLost]

@[simp] theorem Chip.jtag_refclkBack : c.refclkBack.jtag = c.jtag := by simp [Chip.refclkBack]

@[simp] theorem Chip.jtag_coolantRise {lowUs} : (c.coolantRise lowUs).jtag = c.jtag := by simp [Chip.coolantRise, -Chip.set_jtag]

@[simp] theorem Chip.jtag_shutdown {kind sensor temp} : (c.shutdown kind sensor temp).jtag = c.jtag := by simp [Chip.shutdown]

@[simp] theorem Chip.jtag_sensorConvert {i raw ratioOk moved} : (c.sensorConvert i raw ratioOk moved).jtag = c.jtag := by
  unfold Chip.sensorConvert
  dsimp only
  (repeat' split) <;> simp

@[simp] theorem Chip.jtag_coolantLow5 : c.coolantLow5.jtag = c.jtag := by simp [Chip.coolantLow5]

@[simp] theorem Chip.jtag_shutdownRead {readings outlet} : (c.shutdownRead readings outlet).jtag = c.jtag := by simp [Chip.shutdownRead]

@[simp] theorem Chip.jtag_shutdownLeave : c.shutdownLeave.jtag = c.jtag := by simp [Chip.shutdownLeave]

@[simp] theorem Chip.jtag_bootEntry {e} : (c.bootEntry e).jtag = c.jtag := by simp [Chip.bootEntry]

@[simp] theorem Chip.jtag_applyRepairs : c.applyRepairs.jtag = c.jtag := by simp [Chip.applyRepairs]

@[simp] theorem Chip.jtag_tellDecisions : c.tellDecisions.jtag = c.jtag := by simp [Chip.tellDecisions]

@[simp] theorem Chip.jtag_bootTrain : c.bootTrain.jtag = c.jtag := by simp [Chip.bootTrain]

@[simp] theorem Chip.jtag_bootLoad : c.bootLoad.jtag = c.jtag := by simp [Chip.bootLoad]

@[simp] theorem Chip.jtag_enterFw {copy img} : (c.enterFw copy img).jtag = c.jtag := by simp [Chip.enterFw]

@[simp] theorem Chip.jtag_bootPrep : c.bootPrep.jtag = c.jtag := by simp [Chip.bootPrep]

@[simp] theorem Chip.jtag_bootDone : c.bootDone.jtag = c.jtag := by
  unfold Chip.bootDone
  dsimp only
  (repeat' split) <;> simp

@[simp] theorem Chip.jtag_regionReset {r} : (c.regionReset r).jtag = c.jtag := by simp [Chip.regionReset]

@[simp] theorem Chip.jtag_peReset {k} : (c.peReset k).jtag = c.jtag := by simp [Chip.peReset]

@[simp] theorem Chip.jtag_groupReset {g} : (c.groupReset g).jtag = c.jtag := by simp [Chip.groupReset]

@[simp] theorem Chip.jtag_dramReset : c.dramReset.jtag = c.jtag := by simp [Chip.dramReset]

@[simp] theorem Chip.jtag_targetReset {kind idx} : (c.targetReset kind idx).jtag = c.jtag := by
  unfold Chip.targetReset
  split <;> simp

@[simp] theorem Chip.jtag_targetOpen {kind idx} : (c.targetOpen kind idx).jtag = c.jtag := by
  unfold Chip.targetOpen
  split <;> simp

@[simp] theorem Chip.jtag_targetedDone {kind idx} : (c.targetedDone kind idx).jtag = c.jtag := by
  unfold Chip.targetedDone
  split <;> simp

end Sys2Proof.Machine
end

section
/-! PROOF. Each operation of Machine/ChanterSys.lean leaves the test access port as it is (O45). -/

namespace Sys2Proof.Machine

variable {c : Chip}

@[simp] theorem jtag_cmdSysNop {id pl} : (cmdSysNop.run id pl c).jtag = c.jtag := by simp [cmdSysNop, Cmd.plain]

@[simp] theorem jtag_cmdSysIdentify {id pl} : (cmdSysIdentify.run id pl c).jtag = c.jtag := by simp [cmdSysIdentify, Cmd.plain]

@[simp] theorem jtag_cmdSysStatus {id pl} : (cmdSysStatus.run id pl c).jtag = c.jtag := by simp [cmdSysStatus, Cmd.plain]

@[simp] theorem Chip.jtag_accessBegin {poke id pl} : (c.accessBegin poke id pl).jtag = c.jtag := by simp [Chip.accessBegin]

@[simp] theorem jtag_cmdSysPeek {id pl} : (cmdSysPeek.run id pl c).jtag = c.jtag := by simp [cmdSysPeek, Cmd.plain]

@[simp] theorem jtag_cmdSysPoke {id pl} : (cmdSysPoke.run id pl c).jtag = c.jtag := by simp [cmdSysPoke, Cmd.plain]

@[simp] theorem Chip.jtag_restart : c.restart.jtag = c.jtag := by rfl

@[simp] theorem Chip.jtag_restartEnd {s} : (c.restartEnd s).jtag = c.jtag := by simp [Chip.restartEnd]

@[simp] theorem Chip.jtag_restartDone : c.restartDone.jtag = c.jtag := by simp [Chip.restartDone]

@[simp] theorem Chip.jtag_watchdogBite : c.watchdogBite.jtag = c.jtag := by simp [Chip.watchdogBite]

@[simp] theorem Chip.jtag_resetStart {id pl} : (c.resetStart id pl).jtag = c.jtag := by simp [Chip.resetStart]

@[simp] theorem jtag_cmdSysReset {id pl} : (cmdSysReset.run id pl c).jtag = c.jtag := by simp [cmdSysReset, Cmd.plain]

@[simp] theorem Chip.jtag_resetEffect : c.resetEffect.jtag = c.jtag := by simp [Chip.resetEffect]

@[simp] theorem Chip.jtag_stopCfg {id} : (c.stopCfg id).jtag = c.jtag := by
  unfold Chip.stopCfg
  dsimp only
  (repeat' split) <;> simp

@[simp] theorem Chip.jtag_stopMem {id} : (c.stopMem id).jtag = c.jtag := by simp [Chip.stopMem]

@[simp] theorem Chip.jtag_stopPe {id} : (c.stopPe id).jtag = c.jtag := by simp [Chip.stopPe]

@[simp] theorem Chip.jtag_stopRd {id} : (c.stopRd id).jtag = c.jtag := by simp [Chip.stopRd]

@[simp] theorem Chip.jtag_stopCap {id} : (c.stopCap id).jtag = c.jtag := by simp [Chip.stopCap]

@[simp] theorem Chip.jtag_stopDma {id} : (c.stopDma id).jtag = c.jtag := by
  unfold Chip.stopDma
  split <;> simp

@[simp] theorem Chip.jtag_stopWw {id} : (c.stopWw id).jtag = c.jtag := by rfl

@[simp] theorem Chip.jtag_stopTest {id ab} : (c.stopTest id ab).jtag = c.jtag := by rfl

@[simp] theorem Chip.jtag_stopPwr {s} : (c.stopPwr s).jtag = c.jtag := by simp [Chip.stopPwr]

@[simp] theorem Chip.jtag_stopSys {s} : (c.stopSys s).jtag = c.jtag := by simp [Chip.stopSys]

@[simp] theorem Chip.jtag_stopCmd {s ab} : (c.stopCmd s ab).jtag = c.jtag := by
  unfold Chip.stopCmd
  split <;> simp

@[simp] theorem Chip.jtag_abortOf {id s} : (c.abortOf id s).jtag = c.jtag := by simp [Chip.abortOf]

@[simp] theorem Chip.jtag_abortStart {id pl} : (c.abortStart id pl).jtag = c.jtag := by
  unfold Chip.abortStart
  dsimp only
  split <;> simp

@[simp] theorem jtag_cmdSysAbort {id pl} : (cmdSysAbort.run id pl c).jtag = c.jtag := by simp [cmdSysAbort, Cmd.plain]

@[simp] theorem Chip.jtag_eventRead {id pl} : (c.eventRead id pl).jtag = c.jtag := by simp [Chip.eventRead]

@[simp] theorem jtag_cmdSysEventRead {id pl} : (cmdSysEventRead.run id pl c).jtag = c.jtag := by simp [cmdSysEventRead, Cmd.plain]

@[simp] theorem jtag_cmdSysEventMask {id pl} : (cmdSysEventMask.run id pl c).jtag = c.jtag := by simp [cmdSysEventMask, Cmd.plain]

@[simp] theorem jtag_cmdSysNotice {id pl} : (cmdSysNotice.run id pl c).jtag = c.jtag := by simp [cmdSysNotice, Cmd.plain]

@[simp] theorem jtag_cmdSysFwInfo {id pl} : (cmdSysFwInfo.run id pl c).jtag = c.jtag := by simp [cmdSysFwInfo, Cmd.plain]

@[simp] theorem jtag_cmdSysFwBegin {id pl} : (cmdSysFwBegin.run id pl c).jtag = c.jtag := by rfl

@[simp] theorem Chip.jtag_fwData {id pl} : (c.fwData id pl).jtag = c.jtag := by
  unfold Chip.fwData
  split <;> simp

@[simp] theorem jtag_cmdSysFwData {id pl} : (cmdSysFwData.run id pl c).jtag = c.jtag := by simp [cmdSysFwData, Cmd.plain]

@[simp] theorem Chip.jtag_fwCommit {id} : (c.fwCommit id).jtag = c.jtag := by
  unfold Chip.fwCommit
  dsimp only
  (repeat' split) <;> simp

@[simp] theorem jtag_cmdSysFwCommit {id pl} : (cmdSysFwCommit.run id pl c).jtag = c.jtag := by simp [cmdSysFwCommit, Cmd.plain]

@[simp] theorem Chip.jtag_commitDone : c.commitDone.jtag = c.jtag := by
  unfold Chip.commitDone
  split <;> simp

end Sys2Proof.Machine
end

section
/-! PROOF. Each operation of Machine/ChanterBus.lean leaves the test access port as it is (O45). -/

namespace Sys2Proof.Machine

variable {c : Chip}

theorem jtag_commands : ∀ k ∈ commands, ∀ id pl (d : Chip), (k.run id pl d).jtag = d.jtag := by
  simp [commands]

/-- The command of a class and opcode leaves the test access port. -/
theorem jtag_commandOf {cls op k} (h : commandOf cls op = some k) (id pl) (d : Chip) : (k.run id pl d).jtag = d.jtag :=
  jtag_commands k (List.mem_of_find?_eq_some h) id pl d

@[simp] theorem Chip.jtag_rawPacket {route cut b} : (c.rawPacket route cut b).jtag = c.jtag := by
  unfold Chip.rawPacket
  split
  · simp
  · exact Chip.jtag_takePacket fun _ => jtag_commandOf

@[simp] theorem Chip.jtag_wwPacket {src bridge b} : (c.wwPacket src bridge b).jtag = c.jtag := by
  have ht : (c.takePacket (commandOf (pb b 0) (pb b 1)) .root (pb b 0) (pb b 1) (pf b 2 2) (pb b 6) (pf b 8 2)
      ((b.drop 16).take (pf b 4 2))).jtag = c.jtag := Chip.jtag_takePacket fun _ => jtag_commandOf
  simp [Chip.wwPacket, ht]

@[simp] theorem Chip.jtag_rootNotice {src b} : (c.rootNotice src b).jtag = c.jtag := by simp [Chip.rootNotice]

@[simp] theorem Chip.jtag_fwdReply {src b} : (c.fwdReply src b).jtag = c.jtag := by
  unfold Chip.fwdReply
  (repeat' split) <;> simp

@[simp] theorem Chip.jtag_fwdLapse {dest tag} : (c.fwdLapse dest tag).jtag = c.jtag := by
  unfold Chip.fwdLapse
  split <;> simp

end Sys2Proof.Machine
end

section
/-! PROOF. Each operation of Machine/I3c.lean leaves the test access port as it is (O45). -/

namespace Sys2Proof.Machine

variable {c : Chip}

@[simp] theorem Chip.jtag_ack : c.ack.jtag = c.jtag := by rfl

@[simp] theorem Chip.jtag_nack : c.nack.jtag = c.jtag := by rfl

theorem Chip.jtag_i3cDirect {addr} {f : Chip → Chip} (hf : ∀ d, (f d).jtag = d.jtag) : (c.i3cDirect addr f).jtag = c.jtag := by
  simp [Chip.i3cDirect, hf]

@[simp] theorem Chip.jtag_i3cFault : c.i3cFault.jtag = c.jtag := by simp [Chip.i3cFault]

theorem Chip.jtag_i3cTo {who} {f : Nat → Chip → Chip} (hf : ∀ a d, (f a d).jtag = d.jtag) : (c.i3cTo who f).jtag = c.jtag := by
  unfold Chip.i3cTo
  split <;> simp [hf]

theorem Chip.jtag_i3cCcc {dst} {f : Chip → Chip} (hf : ∀ d, (f d).jtag = d.jtag) : (c.i3cCcc dst f).jtag = c.jtag := by
  unfold Chip.i3cCcc
  split <;> simp [hf, Chip.jtag_i3cDirect]

@[simp] theorem Chip.jtag_i3cGet {addr bs} : (c.i3cGet addr bs).jtag = c.jtag :=
  Chip.jtag_i3cDirect fun _ => Chip.emit_jtag ..

@[simp] theorem Chip.jtag_privateWrite {addr mode busErr bs} :
    (c.privateWrite addr mode busErr bs).jtag = c.jtag := by simp [Chip.privateWrite]

@[simp] theorem Chip.jtag_replyRead {r} : (c.replyRead r).jtag = c.jtag := by
  unfold Chip.replyRead
  split <;> simp

@[simp] theorem Chip.jtag_privateRead {addr mode} : (c.privateRead addr mode).jtag = c.jtag := by
  unfold Chip.privateRead
  (repeat' split) <;> simp

@[simp] theorem Chip.jtag_ibiTurn {on intr} : (c.ibiTurn on intr).jtag = c.jtag := by simp [Chip.ibiTurn]

@[simp] theorem Chip.jtag_dynAssign {a} : (c.dynAssign a).jtag = c.jtag := by rfl

@[simp] theorem Chip.jtag_dynClear : c.dynClear.jtag = c.jtag := by rfl

@[simp] theorem Chip.jtag_entDaa {a} : (c.entDaa a).jtag = c.jtag := by simp [Chip.entDaa]

@[simp] theorem Chip.jtag_setDasa {addr a} : (c.setDasa addr a).jtag = c.jtag := by
  simp [Chip.setDasa, Chip.jtag_i3cDirect]

@[simp] theorem Chip.jtag_setNewDa {addr a} : (c.setNewDa addr a).jtag = c.jtag := by
  simp [Chip.setNewDa, Chip.jtag_i3cDirect]

@[simp] theorem Chip.jtag_setLimit {f n} : (c.setLimit f n).jtag = c.jtag := by simp [Chip.setLimit]

@[simp] theorem Chip.jtag_getStatus {addr} : (c.getStatus addr).jtag = c.jtag :=
  Chip.jtag_i3cDirect fun _ => Chip.emit_jtag ..

@[simp] theorem Chip.jtag_rstAct {dst action} : (c.rstAct dst action).jtag = c.jtag := by
  unfold Chip.rstAct
  extract_lets arm
  split
  · exact Chip.jtag_i3cCcc fun _ => rfl
  · split <;> simp

@[simp] theorem Chip.jtag_resetPattern : c.resetPattern.jtag = c.jtag := by
  unfold Chip.resetPattern
  dsimp only
  split <;> simp

@[simp] theorem Chip.jtag_ibiRepeat : c.ibiRepeat.jtag = c.jtag := by simp [Chip.ibiRepeat]

@[simp] theorem Chip.jtag_cccOther {dst} : (c.cccOther dst).jtag = c.jtag := by
  unfold Chip.cccOther
  split <;> simp

end Sys2Proof.Machine
end

section
/-! PROOF. The test access port and the device keep apart (O45). -/

namespace Sys2Proof.Machine

variable {c : Chip} {s t : State} {f : Chip → Chip} {i : Instr}

/-! ## Rows outside the port -/

@[simp] theorem Chip.jtag_answerWrite {p : Rsp × Chip} : (answerWrite p).jtag = p.2.jtag := by simp [answerWrite]

/-- A packet that arrives leaves the port if its delivery and its refusal do. -/
theorem Chip.jtag_wwArrive {p kind n h fields own} {bad deliver : Nat → Chip → Chip} (hb : ∀ a d, (bad a d).jtag = d.jtag)
    (hd : ∀ a d, (deliver a d).jtag = d.jtag) : (c.wwArrive p kind n h fields own bad deliver).jtag = c.jtag := by
  simp [Chip.wwArrive, hb, hd]

theorem jtag_of_runAon (hi : exec i s = runAon f s) (hf : ∀ c, (f c).jtag = c.jtag) (h : exec i s = .next t) :
    t.chip.jtag = s.chip.jtag := by
  rw [← Host.Outcome.next.inj (hi.symm.trans h)]
  exact hf s.chip.quiet

theorem jtag_of_runChip (hi : exec i s = runChip f s) (hf : ∀ c, (f c).jtag = c.jtag) (h : exec i s = .next t) :
    t.chip.jtag = s.chip.jtag := by
  rw [← Host.Outcome.next.inj (hi.symm.trans h)]
  show (if s.chip.awake then f s.chip.quiet else s.chip.quiet).jtag = s.chip.jtag
  split
  · exact hf s.chip.quiet
  · rfl

/-- The rows of the port itself. -/
def portRow : Instr → Bool
  | .tapReset | .extest | .jtagIdcode | .samplePreload _ _ | .jtagClamp | .jtagHighz | .extestPulse | .extestTrain | .jtagBypass _ => true
  | _ => false

/-- No other row moves the port's registers. -/
theorem exec_jtag (hi : portRow i = false) (h : exec i s = .next t) : t.chip.jtag = s.chip.jtag := by
  cases i with
  | tapReset | extest | jtagIdcode | samplePreload | jtagClamp | jtagHighz | extestPulse | extestTrain | jtagBypass =>
    exact absurd hi Bool.noConfusion
  -- Chanter's commands (R47)
  | chSysNop | chSysIdentify | chSysStatus | chSysPeek | chSysPoke | chSysReset | chSysAbort | chSysEventRead | chSysEventMask
  | chSysNotice | chSysFwInfo | chSysFwBegin | chSysFwData | chSysFwCommit | chPeStatus | chPeLoad | chPeStart | chPePause
  | chPeResume | chPeStop | chPeAbort | chPeGang | chPeClock | chRdStatus | chRdTsWrite | chRdTsRead | chRdCalWrite
  | chRdCalRead | chRdCalSave | chRdCheck | chCapStatus | chCapConfig | chCapClear | chCapBmFlush | chCapBmZero | chCapFflRead
  | chCapFatRead | chCapLostRead | chRaStatus | chRaRecipeLoad | chRaRecipeCommit | chRaBegin | chRaFinal | chRaEnd
  | chRaCtxRead | chRaRingRead | chFabStatus | chFabProbe | chFabCapArm | chFabCapStop | chFabCapRead | chCfgStatus
  | chCfgLoadBegin | chCfgLoadData | chCfgLoadEnd | chCfgLoadDram | chCfgPage | chCfgDraw | chCfgRewriteSlot | chCfgLibStatus
  | chCfgLibFree | chCfgXspi | chSecStatus | chSecLcAdvance | chSecNonce | chSecReqData | chSecKeyProg | chSecKeyRevoke
  | chSecSvnRaise | chSecRma | chSecRootkeyProg | chSecAttest | chSecBlobRead | chSpStatus | chSpPower | chSpColmapRead
  | chDrStatus | chDrFreq | chDrTrain | chDrSnapshot | chDrThaw | chDmaStatus | chDmaStart | chDmaArm | chDmaPause
  | chDmaResume | chDmaAbort | chWwStatus | chWwDiscover | chWwTopoRead | chWwRoute | chWwPort | chWwLaneTest | chThStatus
  | chThSensors | chThSubst | chThThresh | chThLimit | chStStatus | chStRun | chStFull | chStLogRead | chStFuseRepair
  | chStLogClear | chLgStatus | chPwrStatus | chClkRegion | chNvsRecInfo | chNvsRecRead | chNvsEvlogRead | chNvsUser
  | chPwrRegion =>
    exact jtag_of_runAon rfl (fun _ => Chip.jtag_command fun _ _ _ => by simp) h
  -- transfers and common commands of the I3C target (R37 to R42)
  | i3cPrivateRead | entdaa | setdasa | setnewda | getmwl | getmrl | getpid | getbcr | getdcr | getstatus | getmxds =>
    exact jtag_of_runAon rfl (fun _ => Chip.jtag_i3cTo fun _ _ => by simp) h
  | enec | disec | rstdaa | setmwl | setmrl =>
    exact jtag_of_runAon rfl (fun _ => Chip.jtag_i3cCcc fun _ => by simp) h
  -- packets that arrive on Windway (R344, R348)
  | wwProbeReply | wwPathWrite | wwPathReply | epochSwitch | wwReq | wwRsp | wwErr | holdAnn | xgFault =>
    exact jtag_of_runChip rfl (fun _ => Chip.jtag_wwArrive (fun _ _ => by simp) fun _ _ => by simp) h
  | linkChange =>
    refine jtag_of_runChip rfl (fun _ => Chip.jtag_wwArrive (fun _ _ => by simp) fun _ _ => ?_) h
    split
    · split <;> simp
    · rfl
  -- the always-on island
  | vddAonValid | vddAonLost | railValid | railLost | vddAuxLost | resetNLow | resetNRelease | refclkLoss | refclkReturn
  | coolantOkFall | coolantOkRise | coolantLow5ms | coolantForcedEnd | bootDone | shutdownSensorRead | shutdownRestart
  | i3cPrivateWrite | unsupportedCcc | rstact | targetResetPattern | sensorConversion | railRestoredBoot =>
    exact jtag_of_runAon rfl (fun _ => by simp) h
  | hdrOtherMode => exact jtag_of_runAon (exec_hdrOtherMode ..) (fun _ => by simp) h
  -- the other islands
  | eventIbiRepeat | fwWatchdog | chanterRestartDone | sysResetTakesEffect | targetedResetDone | fwCommitDone | wwChanterPacket
  | fwdReplyArrival | fwdTimeout | registerWrite | engineCycle | seqNext | seqJmp | seqJc | seqCall | seqRet | seqLoop
  | seqLdlc | seqRepeat | seqWaitf | seqSync | syncTick | seqPause | seqHalt | holdCycle | holdLong | peStartTick
  | streamPrefillDone | streamReadResponse | uportVectorArrival | uportFlagUpdate | peClockLocked | compareResult
  | driftMeasurement | driftStarved | reedReacquireDone | failDispatch | fatWaitExpiry | bmWritebackResponse | bmZeroRowDone
  | raeTake | raeSrcTimeout | raeDecideDomain | raeRecordResponse | raeRingWaitLong | raeMemoryResponse | raeZeroingDone
  | raeFinalDone | stopRequestArrival | stopSwitchDecision | stopMark | gateWordArrival | partyLineRise | roMeasure
  | captureTrigger | captureDone | serialByteReceived | serialByteSent | flashSegmentRead | loadStallTimeout | pagingDone
  | signatureVerified | rewriteHold | fuseBurnDone | attestSigned | spARead | spAWrite | spAAdd64 | spAAdd128 | spASwap
  | spAReservedOp | bankTransitionDone | leaseStart | leaseEnd | dramRowAccessDone | dramRequestAccept | refreshDue
  | refreshDone | rankPowerDown | freqRelocked | thawDone | niRequestAccept | netRead | netWrite | netAdd64 | netAdd128
  | netSwap | netUport | netResponseArrival | niTimeout | niBusyWaitExpiry | domainReopen | routerQuiesceDone
  | routerQuiesceRetry | dreqRise | dmaEngineLoad | dmaQueueWaitLong | dmaBusyRetry | dmaTransferComplete | wwFrameReceive
  | wwReplayTimeout | wwErrWindow | laneTestDone | portTrained | linkDown | wwProbe | discWaitExpiry | routeOldDrained
  | timeCode | timeCodeSend | syncInEdge | tbLock | tbSourceLost | sliceStart | sliceEnd | targetedTestStart | targetedTestEnd
  | fullTestDone | ligatureFrameCheck | ligatureReloadDone | clockSlewDone | regionPowerDone | nvsWordWriteDone
  | nvsApertureAccess | evlogEntryWritten | regionClockEdge | prefillLate | syncOutPulse =>
    exact jtag_of_runChip rfl (fun _ => by simp) h
  | chCntClr => exact jtag_of_runChip (exec_chCntClr ..) (fun _ => by simp) h
  | evqMaskWrite => exact jtag_of_runChip (exec_evqMaskWrite ..) (fun _ => by simp) h
  | evqClrLost => exact jtag_of_runChip (exec_evqClrLost ..) (fun _ => by simp) h
  | evqFlush => exact jtag_of_runChip (exec_evqFlush ..) (fun _ => by simp) h
  | waitfTimeout => exact jtag_of_runChip (exec_waitfTimeout ..) (fun _ => by simp) h
  | peImDataWrite => exact jtag_of_runChip (exec_peImDataWrite ..) (fun _ => by simp) h
  | peStopbindWrite => exact jtag_of_runChip (exec_peStopbindWrite ..) (fun _ => by simp) h
  | rdTsPortDataWrite => exact jtag_of_runChip (exec_rdTsPortDataWrite ..) (fun _ => by simp) h
  | rdTsPortDataRead => exact jtag_of_runChip (exec_rdTsPortDataRead ..) (fun _ => by simp) h
  | rdTsPopRead => exact jtag_of_runChip (exec_rdTsPopRead ..) (fun _ => by simp) h
  | rdUcalWrite => exact jtag_of_runChip (exec_rdUcalWrite ..) (fun _ => by simp) h
  | rdCntClr => exact jtag_of_runChip (exec_rdCntClr ..) (fun _ => by simp) h
  | fatPortReadLo => exact jtag_of_runChip (exec_fatPortReadLo ..) (fun _ => by simp) h
  | fatPortReadHi => exact jtag_of_runChip (exec_fatPortReadHi ..) (fun _ => by simp) h
  | capPeCntClr => exact jtag_of_runChip (exec_capPeCntClr ..) (fun _ => by simp) h
  | raeImportWrite => exact jtag_of_runChip (exec_raeImportWrite ..) (fun _ => by simp) h
  | raeCntClr => exact jtag_of_runChip (exec_raeCntClr ..) (fun _ => by simp) h
  | fabBcastGo => exact jtag_of_runChip (exec_fabBcastGo ..) (fun _ => by simp) h
  | fabRgClrCnt => exact jtag_of_runChip (exec_fabRgClrCnt ..) (fun _ => by simp) h
  | fabRgCapctlArm => exact jtag_of_runChip (exec_fabRgCapctlArm ..) (fun _ => by simp) h
  | fabRgCapctlStop => exact jtag_of_runChip (exec_fabRgCapctlStop ..) (fun _ => by simp) h
  | spCtlWrite => exact jtag_of_runChip (exec_spCtlWrite ..) (fun _ => by simp) h
  | spTxWrite => exact jtag_of_runChip (exec_spTxWrite ..) (fun _ => by simp) h
  | spRxRead => exact jtag_of_runChip (exec_spRxRead ..) (fun _ => by simp) h
  | tongueReqWrite => exact jtag_of_runChip (exec_tongueReqWrite ..) (fun _ => by simp) h
  | spPwrCtlWrite => exact jtag_of_runChip (exec_spPwrCtlWrite ..) (fun _ => by simp) h
  | spCntClr => exact jtag_of_runChip (exec_spCntClr ..) (fun _ => by simp) h
  | trainingDone => exact jtag_of_runChip (exec_trainingDone ..) (fun _ => by simp) h
  | drCntClr => exact jtag_of_runChip (exec_drCntClr ..) (fun _ => by simp) h
  | netWrrWrite => exact jtag_of_runChip (exec_netWrrWrite ..) (fun _ => by simp) h
  | niCntClr => exact jtag_of_runChip (exec_niCntClr ..) (fun _ => by simp) h
  | dmaGo => exact jtag_of_runChip (exec_dmaGo ..) (fun _ => by simp) h
  | dmaPauseSet => exact jtag_of_runChip (exec_dmaPauseSet ..) (fun _ => by simp) h
  | dmaPauseClear => exact jtag_of_runChip (exec_dmaPauseClear ..) (fun _ => by simp) h
  | dmaArm => exact jtag_of_runChip (exec_dmaArm ..) (fun _ => by simp) h
  | dmaClose => exact jtag_of_runChip (exec_dmaClose ..) (fun _ => by simp) h
  | dmaClrCnt => exact jtag_of_runChip (exec_dmaClrCnt ..) (fun _ => by simp) h
  | dmaDreqSet => exact jtag_of_runChip (exec_dmaDreqSet ..) (fun _ => by simp) h
  | dmaDreqClr => exact jtag_of_runChip (exec_dmaDreqClr ..) (fun _ => by simp) h
  | dmaChStatRead => exact jtag_of_runChip (exec_dmaChStatRead ..) (fun _ => by simp) h
  | wwCntClr => exact jtag_of_runChip (exec_wwCntClr ..) (fun _ => by simp) h
  | wwPRetrain => exact jtag_of_runChip (exec_wwPRetrain ..) (fun _ => by simp) h
  | wwPCntClr => exact jtag_of_runChip (exec_wwPCntClr ..) (fun _ => by simp) h
  | wwRouteEntryWrite => exact jtag_of_runChip (exec_wwRouteEntryWrite ..) (fun _ => by simp) h
  | throttleUpdate => exact jtag_of_runChip (exec_throttleUpdate ..) (fun _ => by simp) h
  | layerEstimate => exact jtag_of_runChip (exec_layerEstimate ..) (fun _ => by simp) h
  | stCntClr => exact jtag_of_runChip (exec_stCntClr ..) (fun _ => by simp) h
  | lgCntClr => exact jtag_of_runChip (exec_lgCntClr ..) (fun _ => by simp) h
  | clkRgWrite => exact jtag_of_runChip (exec_clkRgWrite ..) (fun _ => by simp) h
  | nvsUpageSelfAccess => exact jtag_of_runChip (exec_nvsUpageSelfAccess ..) (fun _ => by simp) h
  | nvsCntClr => exact jtag_of_runChip (exec_nvsCntClr ..) (fun _ => by simp) h
  | raeOutRdWrite => exact jtag_of_runChip (exec_raeOutRdWrite ..) (fun _ => by simp) h

/-! ## Rows of the port -/

/-- From `c` to `d` only the port's registers and the outputs move, and the instruction register keeps its eight bits. -/
def portOnly (c d : Chip) : Prop :=
  d = { c with jtag := d.jtag, out := d.out } ∧ (c.jtag.ir < 256 → d.jtag.ir < 256)

theorem portOnly_tapLoad {op : Nat} (h : op < 256) : portOnly c (c.tapLoad op) := ⟨rfl, fun _ => h⟩

theorem portOnly_tapBypass {op : Nat} (h : op < 256) : portOnly c (c.tapBypass op) := ⟨rfl, fun _ => h⟩

theorem portOnly_tapTest {op : Nat} (h : op < 256) : portOnly c (c.tapTest op) := by
  unfold Chip.tapTest
  split
  · exact portOnly_tapLoad h
  · exact portOnly_tapBypass h

theorem exec_of_portOnly (hi : exec i s = runAon f s) (hf : portOnly s.chip.quiet (f s.chip.quiet)) :
    ∃ t, exec i s = .next t ∧ t.pending = s.pending ∧
      t.chip = { s.chip.quiet with jtag := t.chip.jtag, out := t.chip.out } ∧ (s.chip.jtag.ir < 256 → t.chip.jtag.ir < 256) :=
  ⟨_, hi, rfl, hf.1, hf.2⟩

theorem portRow_eq_false (hi : ¬ (i = .tapReset ∨ i = .extest ∨ i = .jtagIdcode ∨
    (∃ pins preload, i = .samplePreload pins preload) ∨ i = .jtagClamp ∨ i = .jtagHighz ∨ i = .extestPulse ∨ i = .extestTrain ∨ ∃ op, i = .jtagBypass op)) : portRow i = false := by
  cases i with
  | tapReset | extest | jtagIdcode | samplePreload | jtagClamp | jtagHighz | extestPulse | extestTrain | jtagBypass => simp at hi
  | _ => rfl

/-- Settles O45: each row of the port moves its registers alone, and the meaning of every other row leaves them. -/
theorem tapIsolation : Obligations.TapIsolation := by
  refine ⟨fun s pins preload op => ?_, fun i s t h hne => ?_⟩
  · simp only [List.forall_mem_cons]
    refine ⟨?reset, ?extest, ?idcode, ?sample, ?clamp, ?highz, ?pulse, ?train, ?bypass, fun _ h => nomatch h⟩
    case reset => exact exec_of_portOnly (exec_tapReset s) (portOnly_tapLoad (by decide))
    case extest => exact exec_of_portOnly (exec_extest s) (portOnly_tapTest (by decide))
    case idcode => exact exec_of_portOnly (exec_jtagIdcode s) ⟨rfl, fun _ => show 0x01 < 256 by decide⟩
    case sample => exact exec_of_portOnly (exec_samplePreload pins preload s) ⟨rfl, fun _ => show 0x02 < 256 by decide⟩
    case clamp => exact exec_of_portOnly (exec_jtagClamp s) (portOnly_tapBypass (by decide))
    case highz => exact exec_of_portOnly (exec_jtagHighz s) (portOnly_tapBypass (by decide))
    case pulse => exact exec_of_portOnly (exec_extestPulse s) (portOnly_tapTest (by decide))
    case train => exact exec_of_portOnly (exec_extestTrain s) (portOnly_tapTest (by decide))
    case bypass =>
      refine exec_of_portOnly (exec_jtagBypass op s) ?_
      split
      · exact ⟨rfl, id⟩
      · exact portOnly_tapBypass op.isLt
  · by_contra hn
    exact hne (exec_jtag (portRow_eq_false hn) h)

end Sys2Proof.Machine
end

section
/-! PROOF. Every step keeps the device sound (O42, O43): what each row's meaning keeps, and the rows of the test access port. -/

namespace Sys2Proof.Machine

variable {c : Chip} {s t : State} {f : Chip → Chip} {i : Instr} {j : Jtag}

/-! ## Answers and packets that arrive (R6, R344, R348) -/

theorem answerWrite_holds {p : Rsp × Chip} (h : Chip.Holds j p.2) : Chip.Holds j (answerWrite p) := Chip.answer_holds h

/-- A packet that arrives keeps the device sound if its delivery and its refusal do. -/
theorem Chip.wwArrive_holds {p kind n hdr fields own} {bad deliver : Nat → Chip → Chip}
    (hb : ∀ a d, Chip.Holds j d → Chip.Holds j (bad a d)) (hd : ∀ a d, Chip.Holds j d → Chip.Holds j (deliver a d))
    (h : Chip.Holds j c) : Chip.Holds j (c.wwArrive p kind n hdr fields own bad deliver) := by
  unfold Chip.wwArrive
  refine Chip.holds_ite (fun _ => h) fun _ => Chip.holds_ite (fun _ => ?forward) fun _ => Chip.holds_ite (fun _ => hb _ _ h) fun _ => hd _ _ h
  case forward => exact Chip.holds_ite (fun _ => Chip.wwPort_holds h) fun _ => hb _ _ h

/-! ## Rows -/

theorem Chip.Sound.quiet (h : c.Sound) : c.quiet.Sound := (Chip.quiet_holds ⟨h, rfl⟩).sound

theorem sound_of_runAon (hi : exec i s = runAon f s) (hf : ∀ {j c}, Chip.Holds j c → Chip.Holds j (f c)) (hs : s.chip.Sound)
    (h : exec i s = .next t) : t.chip.Sound := by
  rw [← Host.Outcome.next.inj (hi.symm.trans h)]
  exact (hf ⟨hs.quiet, rfl⟩).sound

theorem runChip_sound (hf : ∀ {j c}, Chip.Holds j c → Chip.Holds j (f c)) (hs : s.chip.Sound) (h : runChip f s = .next t) :
    t.chip.Sound := by
  rw [← Host.Outcome.next.inj h]
  show (if s.chip.awake then f s.chip.quiet else s.chip.quiet).Sound
  split
  · exact (hf ⟨hs.quiet, rfl⟩).sound
  · exact hs.quiet

theorem sound_of_runChip (hi : exec i s = runChip f s) (hf : ∀ {j c}, Chip.Holds j c → Chip.Holds j (f c)) (hs : s.chip.Sound)
    (h : exec i s = .next t) : t.chip.Sound :=
  runChip_sound hf hs (hi.symm.trans h)

theorem sound_of_command {k : Cmd} {p : Pkt} (hi : exec i s = runAon (Chip.command k p) s) (hk : k ∈ commands) (hs : s.chip.Sound)
    (h : exec i s = .next t) : t.chip.Sound :=
  sound_of_runAon hi (Chip.command_holds (commands_hold k hk)) hs h

/-- Every row outside the port keeps the device sound. -/
theorem exec_sound_of_not_port (hi : portRow i = false) (hs : s.chip.Sound) (h : exec i s = .next t) : t.chip.Sound := by
  cases i with
  | tapReset | extest | jtagIdcode | samplePreload | jtagClamp | jtagHighz | extestPulse | extestTrain | jtagBypass =>
    exact absurd hi Bool.noConfusion
  -- Chanter's commands (R47)
  | chSysNop | chSysIdentify | chSysStatus | chSysPeek | chSysPoke | chSysReset | chSysAbort | chSysEventRead | chSysEventMask
  | chSysNotice | chSysFwInfo | chSysFwBegin | chSysFwData | chSysFwCommit | chPeStatus | chPeLoad | chPeStart | chPePause | chPeResume
  | chPeStop | chPeAbort | chPeGang | chPeClock | chRdStatus | chRdTsWrite | chRdTsRead | chRdCalWrite | chRdCalRead | chRdCalSave
  | chRdCheck | chCapStatus | chCapConfig | chCapClear | chCapBmFlush | chCapBmZero | chCapFflRead | chCapFatRead | chCapLostRead
  | chRaStatus | chRaRecipeLoad | chRaRecipeCommit | chRaBegin | chRaFinal | chRaEnd | chRaCtxRead | chRaRingRead | chFabStatus | chFabProbe
  | chFabCapArm | chFabCapStop | chFabCapRead | chCfgStatus | chCfgLoadBegin | chCfgLoadData | chCfgLoadEnd | chCfgLoadDram | chCfgPage
  | chCfgDraw | chCfgRewriteSlot | chCfgLibStatus | chCfgLibFree | chCfgXspi | chSecStatus | chSecLcAdvance | chSecNonce | chSecReqData
  | chSecKeyProg | chSecKeyRevoke | chSecSvnRaise | chSecRma | chSecRootkeyProg | chSecAttest | chSecBlobRead | chSpStatus | chSpPower
  | chSpColmapRead | chDrStatus | chDrFreq | chDrTrain | chDrSnapshot | chDrThaw | chDmaStatus | chDmaStart | chDmaArm | chDmaPause
  | chDmaResume | chDmaAbort | chWwStatus | chWwDiscover | chWwTopoRead | chWwRoute | chWwPort | chWwLaneTest | chThStatus | chThSensors
  | chThSubst | chThThresh | chThLimit | chStStatus | chStRun | chStFull | chStLogRead | chStFuseRepair | chStLogClear | chLgStatus
  | chPwrStatus | chClkRegion | chNvsRecInfo | chNvsRecRead | chNvsEvlogRead | chNvsUser | chPwrRegion =>
    exact sound_of_command rfl (by simp [commands]) hs h
  -- times, events and register accesses
  | vddAonValid => exact sound_of_runAon (exec_vddAonValid ..) Chip.aonValid_holds hs h
  | vddAonLost => exact sound_of_runAon (exec_vddAonLost ..) Chip.aonLost_holds hs h
  | railValid => exact sound_of_runAon (exec_railValid ..) Chip.railUp_holds hs h
  | railLost => exact sound_of_runAon (exec_railLost ..) Chip.railDown_holds hs h
  | vddAuxLost => exact sound_of_runAon (exec_vddAuxLost ..) Chip.auxDown_holds hs h
  | resetNLow => exact sound_of_runAon (exec_resetNLow ..) Chip.resetLow_holds hs h
  | resetNRelease => exact sound_of_runAon (exec_resetNRelease ..) Chip.resetHigh_holds hs h
  | refclkLoss => exact sound_of_runAon (exec_refclkLoss ..) Chip.refclkLost_holds hs h
  | refclkReturn => exact sound_of_runAon (exec_refclkReturn ..) Chip.refclkBack_holds hs h
  | coolantOkFall => exact sound_of_runAon (exec_coolantOkFall ..) Chip.coolantFall_holds hs h
  | coolantOkRise => exact sound_of_runAon (exec_coolantOkRise ..) Chip.coolantRise_holds hs h
  | coolantLow5ms => exact sound_of_runAon (exec_coolantLow5ms ..) Chip.coolantLow5_holds hs h
  | coolantForcedEnd => exact sound_of_runAon (exec_coolantForcedEnd ..) Chip.coolantEnd_holds hs h
  | bootDone => exact sound_of_runAon (exec_bootDone ..) Chip.bootDone_holds hs h
  | shutdownSensorRead => exact sound_of_runAon (exec_shutdownSensorRead ..) Chip.shutdownRead_holds hs h
  | shutdownRestart => exact sound_of_runAon (exec_shutdownRestart ..) Chip.shutdownLeave_holds hs h
  | i3cPrivateWrite => exact sound_of_runAon (exec_i3cPrivateWrite ..) Chip.privateWrite_holds hs h
  | i3cPrivateRead => exact sound_of_runAon (exec_i3cPrivateRead ..) (Chip.i3cTo_holds fun _ => Chip.privateRead_holds) hs h
  | hdrOtherMode => exact sound_of_runAon (exec_hdrOtherMode ..) id hs h
  | unsupportedCcc => exact sound_of_runAon (exec_unsupportedCcc ..) Chip.cccOther_holds hs h
  | enec | disec =>
    exact sound_of_runAon rfl (Chip.i3cCcc_holds fun _ => Chip.ibiTurn_holds) hs h
  | rstdaa => exact sound_of_runAon (exec_rstdaa ..) (Chip.i3cCcc_holds fun _ => Chip.dynClear_holds) hs h
  | entdaa => exact sound_of_runAon (exec_entdaa ..) (Chip.i3cTo_holds fun _ => Chip.entDaa_holds) hs h
  | setdasa => exact sound_of_runAon (exec_setdasa ..) (Chip.i3cTo_holds fun _ => Chip.setDasa_holds) hs h
  | setnewda => exact sound_of_runAon (exec_setnewda ..) (Chip.i3cTo_holds fun _ => Chip.setNewDa_holds) hs h
  | setmwl | setmrl =>
    exact sound_of_runAon rfl (Chip.i3cCcc_holds fun _ => Chip.setLimit_holds) hs h
  | getmwl => exact sound_of_runAon (exec_getmwl ..) (Chip.i3cTo_holds fun _ => Chip.i3cGet_holds) hs h
  | getmrl => exact sound_of_runAon (exec_getmrl ..) (Chip.i3cTo_holds fun _ => Chip.i3cGet_holds) hs h
  | getpid => exact sound_of_runAon (exec_getpid ..) (Chip.i3cTo_holds fun _ => Chip.i3cGet_holds) hs h
  | getbcr => exact sound_of_runAon (exec_getbcr ..) (Chip.i3cTo_holds fun _ => Chip.i3cGet_holds) hs h
  | getdcr => exact sound_of_runAon (exec_getdcr ..) (Chip.i3cTo_holds fun _ => Chip.i3cGet_holds) hs h
  | getmxds => exact sound_of_runAon (exec_getmxds ..) (Chip.i3cTo_holds fun _ => Chip.i3cGet_holds) hs h
  | getstatus => exact sound_of_runAon (exec_getstatus ..) (Chip.i3cTo_holds fun _ => Chip.getStatus_holds) hs h
  | rstact => exact sound_of_runAon (exec_rstact ..) Chip.rstAct_holds hs h
  | targetResetPattern => exact sound_of_runAon (exec_targetResetPattern ..) Chip.resetPattern_holds hs h
  | eventIbiRepeat => exact sound_of_runChip (exec_eventIbiRepeat ..) Chip.ibiRepeat_holds hs h
  | fwWatchdog => exact sound_of_runChip (exec_fwWatchdog ..) Chip.watchdogBite_holds hs h
  | chanterRestartDone => exact sound_of_runChip (exec_chanterRestartDone ..) Chip.restartDone_holds hs h
  | sysResetTakesEffect => exact sound_of_runChip (exec_sysResetTakesEffect ..) Chip.resetEffect_holds hs h
  | targetedResetDone => exact sound_of_runChip (exec_targetedResetDone ..) Chip.targetedDone_holds hs h
  | fwCommitDone => exact sound_of_runChip (exec_fwCommitDone ..) Chip.commitDone_holds hs h
  | wwChanterPacket => exact sound_of_runChip (exec_wwChanterPacket ..) Chip.wwPacket_holds hs h
  | fwdReplyArrival => exact sound_of_runChip (exec_fwdReplyArrival ..) Chip.fwdReply_holds hs h
  | fwdTimeout => exact sound_of_runChip (exec_fwdTimeout ..) Chip.fwdLapse_holds hs h
  | chCntClr => exact sound_of_runChip (exec_chCntClr ..) (fun h => Chip.answer_holds (Chip.chCntClr_holds h)) hs h
  | evqMaskWrite => exact sound_of_runChip (exec_evqMaskWrite ..) (fun h => Chip.answer_holds (Chip.evqMask_holds h)) hs h
  | evqClrLost => exact sound_of_runChip (exec_evqClrLost ..) (fun h => Chip.answer_holds (Chip.evqClrLost_holds h)) hs h
  | evqFlush => exact sound_of_runChip (exec_evqFlush ..) (fun h => Chip.answer_holds (Chip.evqFlush_holds h)) hs h
  | registerWrite => exact sound_of_runChip (exec_registerWrite ..) Chip.registerWrite_holds hs h
  | engineCycle | seqNext | seqJmp | seqJc | seqCall | seqRet | seqLoop | seqLdlc | seqRepeat | seqWaitf | seqSync | seqPause | seqHalt =>
    exact sound_of_runChip rfl Chip.engineCycle_holds hs h
  | waitfTimeout => exact sound_of_runChip (exec_waitfTimeout ..) Chip.waitfExpire_holds hs h
  | syncTick => exact sound_of_runChip (exec_syncTick ..) Chip.syncTick_holds hs h
  | holdCycle => exact sound_of_runChip (exec_holdCycle ..) Chip.holdCycle_holds hs h
  | holdLong => exact sound_of_runChip (exec_holdLong ..) Chip.holdLong_holds hs h
  | peStartTick => exact sound_of_runChip (exec_peStartTick ..) Chip.startTick_holds hs h
  | streamPrefillDone => exact sound_of_runChip (exec_streamPrefillDone ..) Chip.prefillDone_holds hs h
  | streamReadResponse => exact sound_of_runChip (exec_streamReadResponse ..) Chip.streamRead_holds hs h
  | uportVectorArrival => exact sound_of_runChip (exec_uportVectorArrival ..) Chip.uportVector_holds hs h
  | uportFlagUpdate => exact sound_of_runChip (exec_uportFlagUpdate ..) Chip.uportFlags_holds hs h
  | peImDataWrite => exact sound_of_runChip (exec_peImDataWrite ..) (fun h => answerWrite_holds (Chip.imDataHi_holds h)) hs h
  | peStopbindWrite => exact sound_of_runChip (exec_peStopbindWrite ..) (fun h => answerWrite_holds (Chip.stopBind_holds h)) hs h
  | peClockLocked => exact sound_of_runChip (exec_peClockLocked ..) Chip.clockLocked_holds hs h
  | compareResult => exact sound_of_runChip (exec_compareResult ..) Chip.compareResult_holds hs h
  | driftMeasurement => exact sound_of_runChip (exec_driftMeasurement ..) Chip.driftMeasure_holds hs h
  | driftStarved => exact sound_of_runChip (exec_driftStarved ..) Chip.driftStarve_holds hs h
  | reedReacquireDone => exact sound_of_runChip (exec_reedReacquireDone ..) Chip.reacquired_holds hs h
  | rdTsPortDataWrite => exact sound_of_runChip (exec_rdTsPortDataWrite ..) (fun h => answerWrite_holds (Chip.tsPortWrite_holds h)) hs h
  | rdTsPortDataRead => exact sound_of_runChip (exec_rdTsPortDataRead ..) (fun h => Chip.answer_holds (Chip.tsPortRead_holds h)) hs h
  | rdTsPopRead => exact sound_of_runChip (exec_rdTsPopRead ..) (fun h => Chip.answer_holds (Chip.tsPop_holds h)) hs h
  | rdUcalWrite => exact sound_of_runChip (exec_rdUcalWrite ..) (fun h => Chip.answer_holds (Chip.ucalWrite_holds h)) hs h
  | rdCntClr | raeCntClr =>
    exact sound_of_runChip rfl (fun h => Chip.answer_holds (Chip.clearBits_holds h)) hs h
  | failDispatch => exact sound_of_runChip (exec_failDispatch ..) Chip.failDispatch_holds hs h
  | fatWaitExpiry => exact sound_of_runChip (exec_fatWaitExpiry ..) Chip.fatExpire_holds hs h
  | bmWritebackResponse => exact sound_of_runChip (exec_bmWritebackResponse ..) Chip.bmQueue_holds hs h
  | fatPortReadLo => exact sound_of_runChip (exec_fatPortReadLo ..) (fun h => Chip.answer_holds (Chip.fatPortLo_holds h)) hs h
  | fatPortReadHi => exact sound_of_runChip (exec_fatPortReadHi ..) (fun h => Chip.answer_holds (Chip.fatPortHi_holds h)) hs h
  | capPeCntClr => exact sound_of_runChip (exec_capPeCntClr ..) (fun h => Chip.answer_holds (Chip.capCntClr_holds h)) hs h
  | bmZeroRowDone => exact sound_of_runChip (exec_bmZeroRowDone ..) Chip.bmZeroRow_holds hs h
  | raeTake => exact sound_of_runChip (exec_raeTake ..) Chip.raeTake_holds hs h
  | raeImportWrite => exact sound_of_runChip (exec_raeImportWrite ..) (fun h => answerWrite_holds (Chip.raeImport_holds h)) hs h
  | raeSrcTimeout => exact sound_of_runChip (exec_raeSrcTimeout ..) Chip.raeSrcTimeout_holds hs h
  | raeDecideDomain => exact sound_of_runChip (exec_raeDecideDomain ..) Chip.raeDecide_holds hs h
  | raeRecordResponse => exact sound_of_runChip (exec_raeRecordResponse ..) Chip.raeRecordRsp_holds hs h
  | raeRingWaitLong => exact sound_of_runChip (exec_raeRingWaitLong ..) Chip.ringLong_holds hs h
  | raeMemoryResponse => exact sound_of_runChip (exec_raeMemoryResponse ..) Chip.raeMemory_holds hs h
  | raeZeroingDone => exact sound_of_runChip (exec_raeZeroingDone ..) Chip.raeZeroed_holds hs h
  | raeFinalDone => exact sound_of_runChip (exec_raeFinalDone ..) Chip.raeFinalDone_holds hs h
  | stopRequestArrival => exact sound_of_runChip (exec_stopRequestArrival ..) Chip.stopArrive_holds hs h
  | stopSwitchDecision => exact sound_of_runChip (exec_stopSwitchDecision ..) Chip.stopDecide_holds hs h
  | stopMark => exact sound_of_runChip (exec_stopMark ..) Chip.stopMark_holds hs h
  | gateWordArrival => exact sound_of_runChip (exec_gateWordArrival ..) Chip.gateWord_holds hs h
  | partyLineRise => exact sound_of_runChip (exec_partyLineRise ..) Chip.partyRise_holds hs h
  | roMeasure => exact sound_of_runChip (exec_roMeasure ..) Chip.roMeasure_holds hs h
  | fabBcastGo => exact sound_of_runChip (exec_fabBcastGo ..) (fun h => answerWrite_holds (Chip.fabBcast_holds h)) hs h
  | fabRgClrCnt => exact sound_of_runChip (exec_fabRgClrCnt ..) (fun h => answerWrite_holds (Chip.rgCtlWrite_holds h)) hs h
  | fabRgCapctlArm | fabRgCapctlStop =>
    exact sound_of_runChip rfl (fun h => answerWrite_holds (Chip.capCtlWrite_holds h)) hs h
  | captureTrigger => exact sound_of_runChip (exec_captureTrigger ..) Chip.capTrigger_holds hs h
  | captureDone => exact sound_of_runChip (exec_captureDone ..) Chip.capDone_holds hs h
  | spCtlWrite => exact sound_of_runChip (exec_spCtlWrite ..) (fun h => answerWrite_holds (Chip.spCtl_holds h)) hs h
  | spTxWrite => exact sound_of_runChip (exec_spTxWrite ..) (fun h => answerWrite_holds (Chip.spPush_holds h)) hs h
  | spRxRead => exact sound_of_runChip (exec_spRxRead ..) (fun h => Chip.answer_holds (Chip.spPop_holds h)) hs h
  | serialByteReceived => exact sound_of_runChip (exec_serialByteReceived ..) Chip.spReceive_holds hs h
  | serialByteSent => exact sound_of_runChip (exec_serialByteSent ..) Chip.spSent_holds hs h
  | flashSegmentRead => exact sound_of_runChip (exec_flashSegmentRead ..) Chip.flashRead_holds hs h
  | loadStallTimeout => exact sound_of_runChip (exec_loadStallTimeout ..) Chip.loadStall_holds hs h
  | pagingDone => exact sound_of_runChip (exec_pagingDone ..) Chip.pagingDone_holds hs h
  | signatureVerified => exact sound_of_runChip (exec_signatureVerified ..) Chip.signatureDone_holds hs h
  | rewriteHold => exact sound_of_runChip (exec_rewriteHold ..) Chip.rewriteHold_holds hs h
  | tongueReqWrite => exact sound_of_runChip (exec_tongueReqWrite ..) (fun h => answerWrite_holds (Chip.tongueReq_holds h)) hs h
  | fuseBurnDone => exact sound_of_runChip (exec_fuseBurnDone ..) Chip.fuseDone_holds hs h
  | attestSigned => exact sound_of_runChip (exec_attestSigned ..) Chip.attestSigned_holds hs h
  | spARead | spAWrite | spAAdd64 | spAAdd128 | spASwap =>
    exact sound_of_runChip rfl Chip.portA_holds hs h
  | spAReservedOp => exact sound_of_runChip (exec_spAReservedOp ..) Chip.portABad_holds hs h
  | spPwrCtlWrite => exact sound_of_runChip (exec_spPwrCtlWrite ..) (fun h => answerWrite_holds (Chip.pwrWrite_holds h)) hs h
  | bankTransitionDone => exact sound_of_runChip (exec_bankTransitionDone ..) Chip.bankDone_holds hs h
  | spCntClr => exact sound_of_runChip (exec_spCntClr ..) (fun h => Chip.answer_holds (Chip.spCntClr_holds h)) hs h
  | leaseStart => exact sound_of_runChip (exec_leaseStart ..) Chip.leaseStart_holds hs h
  | leaseEnd => exact sound_of_runChip (exec_leaseEnd ..) Chip.leaseEnd_holds hs h
  | dramRowAccessDone => exact sound_of_runChip (exec_dramRowAccessDone ..) Chip.drRow_holds hs h
  | dramRequestAccept => exact sound_of_runChip (exec_dramRequestAccept ..) Chip.drAccept_holds hs h
  | refreshDue => exact sound_of_runChip (exec_refreshDue ..) Chip.drDue_holds hs h
  | refreshDone => exact sound_of_runChip (exec_refreshDone ..) Chip.drRefreshed_holds hs h
  | rankPowerDown => exact sound_of_runChip (exec_rankPowerDown ..) Chip.drPowerDown_holds hs h
  | trainingDone => exact sound_of_runChip (exec_trainingDone ..) Chip.trainEnd_holds hs h
  | freqRelocked => exact sound_of_runChip (exec_freqRelocked ..) Chip.drRelocked_holds hs h
  | thawDone => exact sound_of_runChip (exec_thawDone ..) Chip.thawDone_holds hs h
  | drCntClr => exact sound_of_runChip (exec_drCntClr ..) (fun h => Chip.answer_holds (Chip.drCntClr_holds h)) hs h
  | niRequestAccept => exact sound_of_runChip (exec_niRequestAccept ..) Chip.niAccept_holds hs h
  | netRead | netWrite | netAdd64 | netAdd128 | netSwap =>
    exact sound_of_runChip rfl Chip.netRow_holds hs h
  | netUport => exact sound_of_runChip (exec_netUport ..) Chip.netUport_holds hs h
  | netResponseArrival => exact sound_of_runChip (exec_netResponseArrival ..) Chip.netResponse_holds hs h
  | niTimeout => exact sound_of_runChip (exec_niTimeout ..) Chip.niTimeout_holds hs h
  | niBusyWaitExpiry => exact sound_of_runChip (exec_niBusyWaitExpiry ..) Chip.busyExpiry_holds hs h
  | domainReopen => exact sound_of_runChip (exec_domainReopen ..) Chip.domReopen_holds hs h
  | netWrrWrite => exact sound_of_runChip (exec_netWrrWrite ..) (fun h => answerWrite_holds (Chip.wrrWrite_holds h)) hs h
  | routerQuiesceDone => exact sound_of_runChip (exec_routerQuiesceDone ..) Chip.quiesced_holds hs h
  | routerQuiesceRetry => exact sound_of_runChip (exec_routerQuiesceRetry ..) Chip.quiesceRetry_holds hs h
  | niCntClr => exact sound_of_runChip (exec_niCntClr ..) (fun h => Chip.answer_holds (Chip.niCntClr_holds h)) hs h
  | dmaGo =>
    exact sound_of_runChip (exec_dmaGo ..)
      (fun h => Chip.holds_ite (fun _ => Chip.answer_holds h) fun _ => Chip.answer_holds (Chip.dmaGo_holds h)) hs h
  | dmaPauseSet => exact sound_of_runChip (exec_dmaPauseSet ..) (fun h => Chip.answer_holds (Chip.dmaPause_holds h)) hs h
  | dmaPauseClear => exact sound_of_runChip (exec_dmaPauseClear ..) (fun h => Chip.answer_holds (Chip.dmaResume_holds h)) hs h
  | dmaArm => exact sound_of_runChip (exec_dmaArm ..) (fun h => Chip.holds_ite (fun _ => Chip.answer_holds h) fun _ =>
        Chip.holds_ite (fun _ => Chip.answer_holds h) fun _ => Chip.answer_holds (Chip.dmaArm_holds h)) hs h
  | dmaClose => exact sound_of_runChip (exec_dmaClose ..) (fun h => Chip.answer_holds (Chip.dmaClose_holds h)) hs h
  | dmaClrCnt => exact sound_of_runChip (exec_dmaClrCnt ..) (fun h => Chip.answer_holds (Chip.set_holds h)) hs h
  | dmaDreqSet | dmaDreqClr =>
    exact sound_of_runChip rfl (fun h => Chip.answer_holds (Chip.dmaDreq_holds h)) hs h
  | dreqRise => exact sound_of_runChip (exec_dreqRise ..) Chip.dmaRise_holds hs h
  | dmaEngineLoad => exact sound_of_runChip (exec_dmaEngineLoad ..) Chip.dmaLoad_holds hs h
  | dmaQueueWaitLong => exact sound_of_runChip (exec_dmaQueueWaitLong ..) Chip.dmaLong_holds hs h
  | dmaBusyRetry => exact sound_of_runChip (exec_dmaBusyRetry ..) Chip.dmaRetry_holds hs h
  | dmaTransferComplete => exact sound_of_runChip (exec_dmaTransferComplete ..) Chip.dmaComplete_holds hs h
  | dmaChStatRead =>
    exact sound_of_runChip (exec_dmaChStatRead ..)
      (fun h => Chip.holds_ite (fun _ => Chip.setDm_holds h) fun _ => Chip.answer_holds h) hs h
  | wwFrameReceive => exact sound_of_runChip (exec_wwFrameReceive ..) Chip.wpFrame_holds hs h
  | wwReplayTimeout => exact sound_of_runChip (exec_wwReplayTimeout ..) Chip.wpReplay_holds hs h
  | wwErrWindow => exact sound_of_runChip (exec_wwErrWindow ..) Chip.wpWindow_holds hs h
  | laneTestDone => exact sound_of_runChip (exec_laneTestDone ..) Chip.laneTested_holds hs h
  | portTrained => exact sound_of_runChip (exec_portTrained ..) Chip.portUp_holds hs h
  | linkDown => exact sound_of_runChip (exec_linkDown ..) Chip.portDown_holds hs h
  | wwProbe => exact sound_of_runChip (exec_wwProbe ..) Chip.probe_holds hs h
  | wwProbeReply =>
    exact sound_of_runChip (exec_wwProbeReply ..)
      (Chip.wwArrive_holds (fun _ _ => undeliverable_holds) (fun _ _ => Chip.probeReply_holds)) hs h
  | discWaitExpiry => exact sound_of_runChip (exec_discWaitExpiry ..) Chip.discExpire_holds hs h
  | wwPathWrite =>
    exact sound_of_runChip (exec_wwPathWrite ..)
      (Chip.wwArrive_holds (fun _ _ => undeliverable_holds) (fun _ _ => Chip.pathWrite_holds)) hs h
  | wwPathReply =>
    exact sound_of_runChip (exec_wwPathReply ..)
      (Chip.wwArrive_holds (fun _ _ => undeliverable_holds) (fun _ _ => Chip.pathAck_holds)) hs h
  | epochSwitch =>
    exact sound_of_runChip (exec_epochSwitch ..)
      (Chip.wwArrive_holds (fun _ _ => undeliverable_holds) (fun _ _ h => Chip.wwAlong_holds (Chip.epochSwitch_holds h))) hs h
  | routeOldDrained => exact sound_of_runChip (exec_routeOldDrained ..) Chip.oldDrained_holds hs h
  | wwReq =>
    exact sound_of_runChip (exec_wwReq ..)
      (Chip.wwArrive_holds (fun _ _ => Chip.wwSendErr_holds) (fun _ _ => Chip.proxy_holds)) hs h
  | wwRsp => exact sound_of_runChip (exec_wwRsp ..) (Chip.wwArrive_holds (fun _ _ => undeliverable_holds) (fun _ _ => Chip.respond_holds)) hs h
  | wwErr =>
    exact sound_of_runChip (exec_wwErr ..)
      (Chip.wwArrive_holds (fun _ _ => undeliverable_holds) (fun _ _ => Chip.respond_holds)) hs h
  | holdAnn =>
    exact sound_of_runChip (exec_holdAnn ..)
      (Chip.wwArrive_holds (fun _ _ => undeliverable_holds) (fun _ _ => Chip.holdAnn_holds)) hs h
  | xgFault =>
    exact sound_of_runChip (exec_xgFault ..)
      (Chip.wwArrive_holds (fun _ _ => undeliverable_holds) (fun _ _ => Chip.xgFault_holds)) hs h
  | timeCode => exact sound_of_runChip (exec_timeCode ..) Chip.timeCode_holds hs h
  | timeCodeSend => exact sound_of_runChip (exec_timeCodeSend ..) Chip.timeCodes_holds hs h
  | syncInEdge => exact sound_of_runChip (exec_syncInEdge ..) Chip.syncIn_holds hs h
  | tbLock => exact sound_of_runChip (exec_tbLock ..) Chip.tbLock_holds hs h
  | tbSourceLost => exact sound_of_runChip (exec_tbSourceLost ..) Chip.tbLost_holds hs h
  | wwCntClr => exact sound_of_runChip (exec_wwCntClr ..) (fun h => Chip.answer_holds (Chip.wwCntClr_holds h)) hs h
  | wwPRetrain => exact sound_of_runChip (exec_wwPRetrain ..) (fun h => Chip.answer_holds (Chip.portRetrain_holds h)) hs h
  | wwPCntClr => exact sound_of_runChip (exec_wwPCntClr ..) (fun h => Chip.answer_holds (Chip.wpCntClr_holds h)) hs h
  | wwRouteEntryWrite => exact sound_of_runChip (exec_wwRouteEntryWrite ..) (fun h => answerWrite_holds (Chip.routeWrite_holds h)) hs h
  | sensorConversion => exact sound_of_runAon (exec_sensorConversion ..) Chip.sensorConvert_holds hs h
  | throttleUpdate =>
    exact sound_of_runChip (exec_throttleUpdate ..)
      (fun h => Chip.holds_ite (fun _ => Chip.throttle_holds h) fun _ => h) hs h
  | layerEstimate =>
    exact sound_of_runChip (exec_layerEstimate ..)
      (fun h => Chip.holds_ite (fun _ => Chip.layerEstimate_holds h) fun _ => h) hs h
  | sliceStart => exact sound_of_runChip (exec_sliceStart ..) Chip.sliceStart_holds hs h
  | sliceEnd => exact sound_of_runChip (exec_sliceEnd ..) Chip.sliceEnd_holds hs h
  | targetedTestStart => exact sound_of_runChip (exec_targetedTestStart ..) Chip.testStart_holds hs h
  | targetedTestEnd => exact sound_of_runChip (exec_targetedTestEnd ..) Chip.testEnd_holds hs h
  | fullTestDone => exact sound_of_runChip (exec_fullTestDone ..) Chip.fullDone_holds hs h
  | stCntClr => exact sound_of_runChip (exec_stCntClr ..) (fun h => Chip.answer_holds (Chip.stCntClr_holds h)) hs h
  | ligatureFrameCheck => exact sound_of_runChip (exec_ligatureFrameCheck ..) Chip.lgCheck_holds hs h
  | ligatureReloadDone => exact sound_of_runChip (exec_ligatureReloadDone ..) Chip.lgReload_holds hs h
  | lgCntClr => exact sound_of_runChip (exec_lgCntClr ..) (fun h => Chip.answer_holds (Chip.lgCntClr_holds h)) hs h
  | clkRgWrite => exact sound_of_runChip (exec_clkRgWrite ..) (fun h => answerWrite_holds (Chip.clkWrite_holds h)) hs h
  | clockSlewDone => exact sound_of_runChip (exec_clockSlewDone ..) Chip.slewDone_holds hs h
  | regionPowerDone => exact sound_of_runChip (exec_regionPowerDone ..) Chip.powerRegionDone_holds hs h
  | nvsWordWriteDone => exact sound_of_runChip (exec_nvsWordWriteDone ..) Chip.nvsWordDone_holds hs h
  | nvsApertureAccess => exact sound_of_runChip (exec_nvsApertureAccess ..) Chip.apertureAccess_holds hs h
  | nvsUpageSelfAccess => exact sound_of_runChip (exec_nvsUpageSelfAccess ..) (fun h => Chip.answer_holds (Chip.upageSelf_holds h)) hs h
  | nvsCntClr => exact sound_of_runChip (exec_nvsCntClr ..) (fun h => Chip.answer_holds (Chip.nvsCntClr_holds h)) hs h
  | evlogEntryWritten => exact sound_of_runChip (exec_evlogEntryWritten ..) Chip.evlogWritten_holds hs h
  | regionClockEdge => exact sound_of_runChip (exec_regionClockEdge ..) Chip.clockEdge_holds hs h
  | prefillLate => exact sound_of_runChip (exec_prefillLate ..) Chip.prefillLate_holds hs h
  | syncOutPulse => exact sound_of_runChip (exec_syncOutPulse ..) Chip.syncOut_holds hs h
  | raeOutRdWrite =>
    exact sound_of_runChip (exec_raeOutRdWrite ..)
      (fun h => Chip.answer_holds (Chip.ringPump_holds (Chip.set_holds h))) hs h
  | railRestoredBoot => exact sound_of_runAon (exec_railRestoredBoot ..) Chip.railsBack_holds hs h
  | linkChange =>
    refine sound_of_runChip (exec_linkChange ..) (Chip.wwArrive_holds (fun _ _ => undeliverable_holds) fun _ _ hd => ?_) hs h
    refine Chip.holds_ite (fun _ => ?_) fun _ => hd
    split
    · exact Chip.rootReact_holds hd
    · exact hd

/-- A row of the port leaves all that soundness speaks of as it is (`tapIsolation`). -/
theorem exec_sound_of_port (hi : portRow i = true) (hs : s.chip.Sound) (h : exec i s = .next t) : t.chip.Sound := by
  have hframe : ∀ pins preload op, i ∈ [Instr.tapReset, .extest, .jtagIdcode, .samplePreload pins preload, .jtagClamp, .jtagHighz,
      .extestPulse, .extestTrain, .jtagBypass op] → t.chip.Sound := by
    intro pins preload op hmem
    obtain ⟨t', ht', -, hchip, -⟩ := tapIsolation.1 s pins preload op i hmem
    obtain rfl : t' = t := Host.Outcome.next.inj (ht'.symm.trans h)
    rw [hchip]
    exact ⟨hs.mem, hs.slots, hs.refusals, hs.events, hs.fwd, hs.evlog, hs.stamps, hs.fails, hs.ffl, hs.fused, hs.armed⟩
  cases i with
  | tapReset | extest | jtagIdcode | jtagClamp | jtagHighz | extestPulse | extestTrain => exact hframe 0 0 0 (by simp)
  | samplePreload pins preload => exact hframe pins preload 0 (by simp)
  | jtagBypass op => exact hframe 0 0 op (by simp)
  | _ => exact absurd hi Bool.noConfusion

/-- Every row keeps the device sound. -/
theorem exec_sound (hs : s.chip.Sound) (h : exec i s = .next t) : t.chip.Sound := by
  cases hi : portRow i with
  | true => exact exec_sound_of_port hi hs h
  | false => exact exec_sound_of_not_port hi hs h

/-- Every step keeps the device sound: the command at the front, or a tick where none waits. -/
theorem step_sound (hs : s.chip.Sound) (h : step s = .next t) : t.chip.Sound := by
  cases hq : s.pending with
  | nil =>
    rw [step_nil s hq, idle_eq] at h
    exact runChip_sound Chip.tickAll_holds hs h
  | cons i rest =>
    rw [step_cons s i rest hq] at h
    exact exec_sound (s := { s with pending := rest }) hs h

/-- Settles O42: after reset memory and every buffer are empty, and no action is armed. -/
theorem resetIsSound : Obligations.ResetIsSound where
  mem := rfl
  slots := Nat.zero_le _
  refusals := Nat.zero_le _
  events := Nat.zero_le _
  fwd := Nat.zero_le _
  evlog := Nat.zero_le _
  stamps := nofun
  fails := nofun
  ffl := nofun
  fused := Nat.zero_le _
  armed := nofun

/-- Settles O43: the rows of the port leave the device as it is; every other row, and a tick, runs an operation that keeps it sound. -/
theorem everyStepKeepsSound : Obligations.EveryStepKeepsSound := fun _ _ => step_sound

end Sys2Proof.Machine
end

section
/-! PROOF. The I3C target: its transfers (O4), its settings (O5), the armed reset (O55) and its identification values (O56). -/

namespace Sys2Proof.Machine

variable {c : Chip} {s : State} {i : Instr} {f : Chip → Chip} {a : Nat}

/-! ## Whom a transfer reaches (R37, R40) -/

theorem Chip.i3cDirect_of_mine (h : c.i3cMine a = true) : c.i3cDirect a f = f c := if_pos h

theorem Chip.i3cFault_of_live (h : c.i3cLive = true) : c.i3cFault = { c with aon := { c.aon with protoErr := true } } := if_pos h

theorem Chip.i3cCcc_direct_of_mine {addr : BitVec 7} (h : c.i3cMine addr.toNat = true) : c.i3cCcc (.direct addr) f = f c.ack :=
  Chip.i3cDirect_of_mine (f := fun d => f d.ack) h

theorem Chip.i3cCcc_broadcast_of_live (h : c.i3cLive = true) : c.i3cCcc .broadcast f = f c := if_pos h

/-- A row that the target does not take for a target error sets the protocol error flag (R40, log entry 45). -/
theorem exec_of_i3cFault (hi : exec i s = runAon Chip.i3cFault s) (h : s.chip.i3cLive = true) :
    exec i s = .next (s.after fun c => { c with aon := { c.aon with protoErr := true } }) :=
  exec_eq_of_runAon hi (Chip.i3cFault_of_live (c := s.chip.quiet) h)

/-! ## Private transfers (R39, R48) -/

theorem Chip.privateWrite_of_taken {mode : I3cMode} {busErr : Bool} {bytes : List Byte} (haddr : c.i3cMine a = true)
    (hmode : modeOk 0x01#8 mode = true) (htakes : c.takesPackets = true) (hlen : bytes.length ≤ c.get F.I3C_STAT_MWL) :
    c.privateWrite a mode busErr bytes =
      if busErr then { c.ack with aon := { c.aon with protoErr := true } } else c.ack.rawPacket .i3c false bytes := by
  have hcut : ¬c.ack.get F.I3C_STAT_MWL < bytes.length := Nat.not_lt.2 hlen
  have hall : bytes.take (c.ack.get F.I3C_STAT_MWL) = bytes := List.take_of_length_le hlen
  simp only [Chip.privateWrite, haddr, hmode, htakes, hall, decide_eq_false hcut]
  rfl

/-- What a read transfer sends: the next bytes of the oldest reply, at most MRL. -/
theorem Chip.privateRead_of_reply {mode : I3cMode} {r : Reply} {rest : List Reply} (haddr : c.i3cMine a = true)
    (hmode : modeOk 0x81#8 mode = true) (hreplies : c.ch.replies = r :: rest) :
    c.privateRead a mode =
      let part := (r.bytes.drop r.sent).take (c.get F.I3C_STAT_MRL)
      let d := c.emit (.i3cData part)
      if r.bytes.length ≤ r.sent + part.length then d.replyRead r
      else { d with ch := { d.ch with replies := { r with sent := r.sent + part.length } :: rest } } := by
  simp only [Chip.privateRead, haddr, hmode, hreplies, Bool.not_true, Bool.or_self, Bool.false_eq_true, if_false]

theorem Chip.privateRead_of_more {mode : I3cMode} {r : Reply} {rest : List Reply} (haddr : c.i3cMine a = true)
    (hmode : modeOk 0x81#8 mode = true) (hreplies : c.ch.replies = r :: rest)
    (hmore : r.sent + c.get F.I3C_STAT_MRL < r.bytes.length) :
    c.privateRead a mode =
      { c.emit (.i3cData ((r.bytes.drop r.sent).take (c.get F.I3C_STAT_MRL))) with
        ch := { c.ch with replies := { r with sent := r.sent + c.get F.I3C_STAT_MRL } :: rest } } := by
  have hpart : ((r.bytes.drop r.sent).take (c.get F.I3C_STAT_MRL)).length = c.get F.I3C_STAT_MRL := by
    rw [List.length_take, List.length_drop]
    omega
  rw [Chip.privateRead_of_reply haddr hmode hreplies]
  dsimp only
  rw [hpart, if_neg (Nat.not_le.2 hmore)]
  rfl

theorem Chip.privateRead_of_last {mode : I3cMode} {r : Reply} {rest : List Reply} (haddr : c.i3cMine a = true)
    (hmode : modeOk 0x81#8 mode = true) (hreplies : c.ch.replies = r :: rest) (hsent : r.sent ≤ r.bytes.length)
    (hlast : r.bytes.length ≤ r.sent + c.get F.I3C_STAT_MRL) :
    c.privateRead a mode = (c.emit (.i3cData (r.bytes.drop r.sent))).replyRead r := by
  have hleft : (r.bytes.drop r.sent).length ≤ c.get F.I3C_STAT_MRL := by
    rw [List.length_drop]
    omega
  have hend : r.bytes.length ≤ r.sent + (r.bytes.drop r.sent).length := by
    rw [List.length_drop]
    omega
  rw [Chip.privateRead_of_reply haddr hmode hreplies]
  dsimp only
  rw [List.take_of_length_le hleft, if_pos hend]

theorem Chip.getStatus_of_mine (h : c.i3cMine a = true) :
    c.getStatus a = Chip.emit (.i3cData (msbFirst 2 c.i3cStatus)) { c with aon := { c.aon with protoErr := false } } := if_pos h

theorem Chip.ibiRepeat_of_open (h : c.openEvents ≠ []) : c.ibiRepeat = c.requestEventIbi := if_neg h

/-- Settles O4: at its own address the target's function runs, and at no address does a target error bring more than its flag. -/
theorem i3cTransferRows : Obligations.I3cTransferRows := by
  intro s
  refine ⟨?write, ?read, ?gets, rfl, rfl, fun _ => rfl, ?faults, ?ibi⟩
  case write =>
    intro addr mode bytes haddr hmode htakes hlen
    have hrow (busErr : Bool) := Chip.privateWrite_of_taken (c := s.chip.quiet) (busErr := busErr) haddr hmode htakes hlen
    exact ⟨exec_eq_of_runAon (exec_i3cPrivateWrite ..) (hrow true), exec_eq_of_runAon (exec_i3cPrivateWrite ..) (hrow false)⟩
  case read =>
    intro addr mode r rest haddr hmode hreplies
    exact ⟨fun hmore => exec_eq_of_runAon (exec_i3cPrivateRead ..)
        (Chip.privateRead_of_more (c := s.chip.quiet) haddr hmode hreplies hmore),
      fun hsent hlast => exec_eq_of_runAon (exec_i3cPrivateRead ..)
        (Chip.privateRead_of_last (c := s.chip.quiet) haddr hmode hreplies hsent hlast)⟩
  case gets =>
    intro addr haddr
    have hrow {f : Chip → Chip} : s.chip.quiet.i3cDirect addr.toNat f = f s.chip.quiet := Chip.i3cDirect_of_mine haddr
    exact ⟨exec_eq_of_runAon (exec_getmwl ..) hrow, exec_eq_of_runAon (exec_getmrl ..) hrow, exec_eq_of_runAon (exec_getpid ..) hrow,
      exec_eq_of_runAon (exec_getbcr ..) hrow, exec_eq_of_runAon (exec_getdcr ..) hrow, exec_eq_of_runAon (exec_getmxds ..) hrow,
      exec_eq_of_runAon (exec_getstatus ..) (Chip.getStatus_of_mine (c := s.chip.quiet) haddr)⟩
  case faults =>
    intro hlive mode
    have hrow {i : Instr} (hi : exec i s = runAon Chip.i3cFault s) := exec_of_i3cFault hi hlive
    simp only [List.forall_mem_cons]
    exact ⟨hrow rfl, hrow rfl, hrow rfl, hrow rfl, hrow rfl, hrow rfl, hrow rfl, hrow rfl, hrow rfl, List.forall_mem_nil _⟩
  case ibi => exact fun hs hopen => exec_eq_of_runChip (exec_eventIbiRepeat s) hs (Chip.ibiRepeat_of_open (c := s.chip.quiet) hopen)

/-! ## Settings (R37, R39, R42) -/

/-- An interrupt-enable command acts once a dynamic address has enabled the interrupts (R42). -/
theorem Chip.ibiTurn_of_assigned {on : Bool} (h : c.is F.I3C_STAT_DYN_VALID = true) :
    c.ibiTurn on true = c.set F.I3C_STAT_IBI_EN (b2n on) := by
  rw [Chip.ibiTurn, h, Bool.and_self, if_pos rfl]

theorem Chip.entDaa_of_unassigned (hlive : c.i3cLive = true) (h : c.is F.I3C_STAT_DYN_VALID = false) :
    c.entDaa a = (c.dynAssign a).ack := by
  rw [Chip.entDaa, hlive, h, Bool.not_false, Bool.and_self, if_pos rfl]

theorem Chip.setDasa_of_unassigned {dyn : Nat} (haddr : c.i3cMine a = true) (h : c.is F.I3C_STAT_DYN_VALID = false) :
    c.setDasa a dyn = (c.dynAssign dyn).ack := by
  rw [Chip.setDasa, h, if_neg Bool.false_ne_true, Chip.i3cDirect_of_mine haddr]

theorem Chip.setNewDa_of_assigned {dyn : Nat} (haddr : c.i3cMine a = true) (h : c.is F.I3C_STAT_DYN_VALID = true) :
    c.setNewDa a dyn = (c.set F.I3C_STAT_DYN_ADDR dyn).ack := by
  rw [Chip.setNewDa, h, if_pos rfl, Chip.i3cDirect_of_mine haddr]

theorem Chip.setLimit_of_valid {g : Fld} {n : Nat} (hlo : 64 ≤ n) (hhi : n ≤ 4116) : c.setLimit g n = c.set g n := if_pos ⟨hlo, hhi⟩

theorem Chip.setLimit_of_invalid {g : Fld} {n : Nat} (h : n < 64 ∨ 4116 < n) : c.setLimit g n = c := if_neg (by omega)

/-! ## The armed reset (R41) -/

theorem Chip.rstAct_of_listed {dst : CccDst} {action : Nat} (h : action ≤ 2) :
    c.rstAct dst action = c.i3cCcc dst fun d => { d with aon := { d.aon with rstArm := some action } } := if_pos h

theorem Chip.rstAct_direct_of_unlisted {addr : BitVec 7} {action : Nat} (h : 2 < action) : c.rstAct (.direct addr) action = c.nack :=
  if_neg (Nat.not_le.2 h)

theorem Chip.rstAct_broadcast_of_unlisted {action : Nat} (h : 2 < action) : c.rstAct .broadcast action = c := if_neg (Nat.not_le.2 h)

/-- A target error in RSTACT brings its flag, whatever the action. -/
theorem Chip.rstAct_bad (action : Nat) : Chip.rstAct .bad action = Chip.i3cFault := funext fun _ => ite_self (c := action ≤ 2) _

/-- The device with no reset action armed. -/
def Chip.disarmed (c : Chip) : Chip := { c with aon := { c.aon with rstArm := none } }

theorem Chip.resetPattern_of_idle (hchanter : c.aon.rstArm ≠ some 1) (hdevice : c.aon.rstArm ≠ some 2) :
    c.resetPattern = c.disarmed := by
  unfold Chip.resetPattern
  dsimp only
  split
  · exact absurd ‹_› hchanter
  · exact absurd ‹_› hdevice
  · rfl

theorem Chip.resetPattern_of_chanter (h : c.aon.rstArm = some 1) :
    c.resetPattern = if c.chanterUp then c.disarmed.restart else c.disarmed := by
  rw [Chip.resetPattern, h]
  rfl

theorem Chip.resetPattern_of_device (h : c.aon.rstArm = some 2) : c.resetPattern = c.disarmed.tie.warmReset 0x02 := by
  rw [Chip.resetPattern, h]
  rfl

theorem Chip.warmReset_of_awake {cause : Nat} (h : c.awake = true) : c.warmReset cause = c.warmClear.enterBoot cause := by
  obtain ⟨hoff, hpor, hshut, hheld⟩ := Chip.states_of_awake h
  have hgo : ¬(c.dstate = stOff ∨ c.dstate = stPor ∨ c.aon.held = true) := by simp [hoff, hpor, hheld]
  rw [Chip.warmReset, if_neg hshut, if_neg hgo]

theorem Chip.resetPattern_of_device_awake (h : c.aon.rstArm = some 2) (hawake : c.awake = true) :
    c.resetPattern = c.disarmed.tie.warmClear.enterBoot 0x02 :=
  (Chip.resetPattern_of_device h).trans (Chip.warmReset_of_awake (c.disarmed.tie_awake.trans hawake))

/-- Settles O5: at its own address each command sets what it names. -/
theorem i3cSettingRows : Obligations.I3cSettingRows := by
  intro s
  refine ⟨?ibi, ?rstdaa, ?entdaa, ?setdasa, ?setnewda, ?limit, ?badLimit, ?arm, ?badArm, ?faults, ?chanter, ?device, ?idle⟩
  case ibi =>
    intro a hotJoin haddr hvalid
    have hrow (on : Bool) : s.chip.quiet.i3cCcc (.direct a) (Chip.ibiTurn on true) = s.chip.quiet.ack.set F.I3C_STAT_IBI_EN (b2n on) :=
      (Chip.i3cCcc_direct_of_mine (c := s.chip.quiet) haddr).trans (Chip.ibiTurn_of_assigned (c := s.chip.quiet.ack) hvalid)
    exact ⟨exec_eq_of_runAon (exec_enec ..) (hrow true), exec_eq_of_runAon (exec_disec ..) (hrow false)⟩
  case rstdaa => exact fun hlive => exec_eq_of_runAon (exec_rstdaa s) (Chip.i3cCcc_broadcast_of_live (c := s.chip.quiet) hlive)
  case entdaa =>
    exact fun dyn hlive hvalid => exec_eq_of_runAon (exec_entdaa ..) (Chip.entDaa_of_unassigned (c := s.chip.quiet) hlive hvalid)
  case setdasa =>
    exact fun addr dyn haddr hvalid =>
      exec_eq_of_runAon (exec_setdasa ..) (Chip.setDasa_of_unassigned (c := s.chip.quiet) haddr hvalid)
  case setnewda =>
    exact fun addr dyn haddr hvalid =>
      exec_eq_of_runAon (exec_setnewda ..) (Chip.setNewDa_of_assigned (c := s.chip.quiet) haddr hvalid)
  case limit =>
    intro a len haddr hlo hhi
    have hrow (g : Fld) : s.chip.quiet.i3cCcc (.direct a) (Chip.setLimit g len.toNat) = s.chip.quiet.ack.set g len.toNat :=
      (Chip.i3cCcc_direct_of_mine (c := s.chip.quiet) haddr).trans (Chip.setLimit_of_valid hlo hhi)
    exact ⟨exec_eq_of_runAon (exec_setmwl ..) (hrow _), exec_eq_of_runAon (exec_setmrl ..) (hrow _)⟩
  case badLimit =>
    intro a len haddr hlen
    have hrow (g : Fld) : s.chip.quiet.i3cCcc (.direct a) (Chip.setLimit g len.toNat) = s.chip.quiet.ack :=
      (Chip.i3cCcc_direct_of_mine (c := s.chip.quiet) haddr).trans (Chip.setLimit_of_invalid hlen)
    exact ⟨exec_eq_of_runAon (exec_setmwl ..) (hrow _), exec_eq_of_runAon (exec_setmrl ..) (hrow _)⟩
  case arm =>
    exact fun a action haddr hlisted => exec_eq_of_runAon (exec_rstact ..)
      ((Chip.rstAct_of_listed hlisted).trans (Chip.i3cCcc_direct_of_mine (c := s.chip.quiet) haddr))
  case badArm =>
    exact fun a action h => ⟨exec_eq_of_runAon (exec_rstact ..) (Chip.rstAct_direct_of_unlisted h),
      exec_eq_of_runAon (exec_rstact ..) (Chip.rstAct_broadcast_of_unlisted h)⟩
  case faults =>
    intro hlive b intr hotJoin len action
    have hrow {i : Instr} (hi : exec i s = runAon Chip.i3cFault s) := exec_of_i3cFault hi hlive
    have hrst : exec (.rstact .bad action) s = runAon Chip.i3cFault s := congrArg (runAon · s) (Chip.rstAct_bad action.toNat)
    simp only [List.forall_mem_cons]
    exact ⟨hrow rfl, hrow rfl, hrow rfl, hrow rfl, hrow rfl, hrow rfl, hrow rfl, hrow hrst, List.forall_mem_nil _⟩
  case chanter =>
    exact fun harm hup => exec_eq_of_runAon (exec_targetResetPattern s)
      ((Chip.resetPattern_of_chanter (c := s.chip.quiet) harm).trans (if_pos hup))
  case device =>
    exact fun harm hs => exec_eq_of_runAon (exec_targetResetPattern s)
      (Chip.resetPattern_of_device_awake (c := s.chip.quiet) harm hs)
  case idle =>
    intro harm
    obtain ⟨hchanter, hdevice⟩ : s.chip.aon.rstArm ≠ some 1 ∧ s.chip.aon.rstArm ≠ some 2 := by rcases harm with h | h <;> simp [h]
    exact exec_eq_of_runAon (exec_targetResetPattern s) (Chip.resetPattern_of_idle (c := s.chip.quiet) hchanter hdevice)

/-! ## What disarms (R41, R404, R407) -/

theorem Chip.warmClear_rstArm (c : Chip) : c.warmClear.aon.rstArm = none := rfl

/-- An entry to BOOT leaves what is armed. -/
theorem Chip.enterBoot_rstArm (cause : Nat) (c : Chip) : (c.enterBoot cause).aon.rstArm = c.aon.rstArm := by
  unfold Chip.enterBoot
  extract_lets l d1 d2 d3 v d4 d5 v'
  have h4 : d4.aon = c.aon := Chip.arrive_aon l stBoot d1
  have h5 : d5.aon = d4.aon := by
    clear_value d4
    unfold d5 Chip.drTrain
    split <;> rfl
  show d5.aon.rstArm = c.aon.rstArm
  rw [h5, h4]

theorem Chip.warmReset_rstArm (cause : Nat) (h : c.aon.rstArm = none) : (c.warmReset cause).aon.rstArm = none := by
  unfold Chip.warmReset
  split
  · exact h
  · split
    · exact h
    · exact (Chip.enterBoot_rstArm cause _).trans c.warmClear_rstArm

/-- Whatever the pattern performs, then no action is armed. -/
theorem Chip.resetPattern_rstArm (c : Chip) : c.resetPattern.aon.rstArm = none := by
  by_cases hchanter : c.aon.rstArm = some 1
  · rw [Chip.resetPattern_of_chanter hchanter]
    split <;> rfl
  · by_cases hdevice : c.aon.rstArm = some 2
    · rw [Chip.resetPattern_of_device hdevice]
      exact Chip.warmReset_rstArm 0x02 (congrArg Aon.rstArm c.disarmed.tie_aon)
    · rw [Chip.resetPattern_of_idle hchanter hdevice]
      rfl

theorem Chip.aonLost_rstArm (h : c.dstate ≠ stOff) : c.aonLost.aon.rstArm = none := by
  rw [Chip.aonLost, if_neg h]
  extract_lets d1 d2 k keep d3 d4
  exact congrArg Aon.rstArm (d4.arrive_aon 1 stOff)

/-- Settles O55: RSTACT arms its action, the pattern performs and disarms it, and resets disarm. -/
theorem resetActions : Obligations.ResetActions := by
  intro s
  refine ⟨?arm, ?badArm, ?pattern, ?disarms, ?fault, Chip.warmClear_rstArm, ?lost⟩
  case arm =>
    exact fun act h => ⟨fun hlive => exec_eq_of_runAon (exec_rstact ..)
        ((Chip.rstAct_of_listed h).trans (Chip.i3cCcc_broadcast_of_live (c := s.chip.quiet) hlive)),
      fun a haddr => exec_eq_of_runAon (exec_rstact ..)
        ((Chip.rstAct_of_listed h).trans (Chip.i3cCcc_direct_of_mine (c := s.chip.quiet) haddr))⟩
  case badArm =>
    exact fun act h => ⟨exec_eq_of_runAon (exec_rstact ..) (Chip.rstAct_broadcast_of_unlisted h),
      fun a => exec_eq_of_runAon (exec_rstact ..) (Chip.rstAct_direct_of_unlisted h)⟩
  case pattern =>
    rintro disarmed rfl
    obtain ⟨-, -, -, -, -, -, -, -, -, -, hchanter, hdevice, hidle⟩ := i3cSettingRows s
    exact ⟨hidle, hchanter, hdevice⟩
  case disarms => exact ⟨_, exec_targetResetPattern s, Chip.resetPattern_rstArm _⟩
  case fault =>
    exact fun act hlive => exec_of_i3cFault (congrArg (runAon · s) (Chip.rstAct_bad act.toNat)) hlive
  case lost => exact fun h => ⟨_, exec_vddAonLost s, Chip.aonLost_rstArm (c := s.chip.quiet) h⟩

/-! ## The identification values (R38) -/

/-- The fields of the provisional ID: the manufacturer, the type of ID, the part, the strap and the constant. -/
theorem Chip.pid_fields (c : Chip) : c.pid < 2 ^ 48 ∧ bits c.pid 47 33 = 0x1D3 ∧ bits c.pid 32 32 = 0 ∧ bits c.pid 31 16 = 0x7A09 ∧
    bits c.pid 15 14 = 0 ∧ bits c.pid 13 12 = c.aon.addrSel % 4 ∧ bits c.pid 11 0 = 0x002 := by
  have hsel : c.aon.addrSel % 4 < 4 := Nat.mod_lt _ (by decide)
  simp only [bits, Chip.pid, Nat.shiftRight_eq_div_pow]
  omega

/-- Settles O56: GETPID sends the provisional ID with its fields of R38; the other values are constants. -/
theorem identificationValues : Obligations.IdentificationValues := by
  intro s a haddr
  obtain ⟨-, -, hgets, -⟩ := i3cTransferRows s
  obtain ⟨-, -, -, hbcr, hdcr, hmxds, -⟩ := hgets a haddr
  have hpid := Chip.i3cDirect_of_mine (c := s.chip.quiet) (f := fun d => d.emit (.i3cData (msbFirst 6 s.chip.pid))) haddr
  obtain ⟨hlt, hmid, htype, hpart, hzero, hinst, hconst⟩ := s.chip.pid_fields
  exact ⟨⟨s.chip.pid, hlt, hmid, htype, hpart, hzero, hinst, hconst, exec_eq_of_runAon (exec_getpid ..) hpid⟩, hbcr, hdcr, hmxds⟩

end Sys2Proof.Machine
end

section
/-! PROOF. What the common commands of the I3C target leave alone (O46; R35, R37, R39 to R42). -/

namespace Sys2Proof.Machine

variable {c d : Chip} {s : State} {i : Instr} {f : Chip → Chip} {a : Nat}

/-- The fields that the common commands set. -/
def cccSettings : List Fld := [F.I3C_STAT_DYN_ADDR, F.I3C_STAT_DYN_VALID, F.I3C_STAT_IBI_EN, F.I3C_STAT_MWL, F.I3C_STAT_MRL]

/-- From `c` to `d` nothing moves but the settings, the armed action, the protocol error flag and the outputs. -/
def Chip.cccFrame (c d : Chip) : Prop :=
  (∃ rf arm err out, d = { c with rf := rf, aon := { c.aon with rstArm := arm, protoErr := err }, out := out }) ∧
    ∀ g : Fld, g.key ∉ cccSettings.map Fld.key → d.get g = c.get g

namespace Chip.cccFrame

theorem refl (c : Chip) : c.cccFrame c := ⟨⟨c.rf, c.aon.rstArm, c.aon.protoErr, c.out, rfl⟩, fun _ _ => rfl⟩

theorem emit (h : c.cccFrame d) (o : Out) : c.cccFrame (d.emit o) := by
  obtain ⟨⟨rf, arm, err, out, rfl⟩, hget⟩ := h
  exact ⟨⟨rf, arm, err, out ++ [o], rfl⟩, hget⟩

theorem ack (h : c.cccFrame d) : c.cccFrame d.ack := h.emit _

theorem nack (h : c.cccFrame d) : c.cccFrame d.nack := h.emit _

theorem set {g : Fld} (h : c.cccFrame d) (v : Nat) (hg : g ∈ cccSettings) : c.cccFrame (d.set g v) := by
  obtain ⟨⟨rf, arm, err, out, rfl⟩, hget⟩ := h
  refine ⟨⟨_, arm, err, out, rfl⟩, fun k hk => ?_⟩
  have hkey : k.key ≠ g.key := fun e => hk (e.symm ▸ List.mem_map_of_mem (f := Fld.key) hg)
  exact (Chip.get_set_ne v _ hkey).trans (hget k hk)

theorem arm (h : c.cccFrame d) (action : Option Nat) : c.cccFrame { d with aon := { d.aon with rstArm := action } } := by
  obtain ⟨⟨rf, arm, err, out, rfl⟩, hget⟩ := h
  exact ⟨⟨rf, action, err, out, rfl⟩, hget⟩

theorem flag (h : c.cccFrame d) (flag : Bool) : c.cccFrame { d with aon := { d.aon with protoErr := flag } } := by
  obtain ⟨⟨rf, arm, err, out, rfl⟩, hget⟩ := h
  exact ⟨⟨rf, arm, flag, out, rfl⟩, hget⟩

theorem ite {p : Prop} [Decidable p] {d e : Chip} (hd : c.cccFrame d) (he : c.cccFrame e) : c.cccFrame (if p then d else e) := by
  split
  · exact hd
  · exact he

theorem fault (h : c.cccFrame d) : c.cccFrame d.i3cFault := (h.flag true).ite h

theorem direct (h : c.cccFrame d) (hf : c.cccFrame (f d)) : c.cccFrame (d.i3cDirect a f) := hf.ite h.nack

theorem i3cTo {who : I3cTo} {g : Nat → Chip → Chip} (hg : ∀ a, c.cccFrame (g a c)) : c.cccFrame (c.i3cTo who g) := by
  cases who with
  | addr a => exact hg a.toNat
  | bad => exact (refl c).fault

theorem ccc {dst : CccDst} (hf : ∀ {d}, c.cccFrame d → c.cccFrame (f d)) : c.cccFrame (c.i3cCcc dst f) := by
  cases dst with
  | broadcast => exact (hf (refl c)).ite (refl c)
  | direct a => exact (refl c).direct (f := fun d => f d.ack) (hf (refl c).ack)
  | bad => exact (refl c).fault

theorem reads {who : I3cTo} {bs : Chip → List Byte} : c.cccFrame (c.i3cTo who fun a c => c.i3cGet a (bs c)) :=
  i3cTo fun _ => (refl c).direct ((refl c).emit _)

theorem ibiTurn (h : c.cccFrame d) (on intr : Bool) : c.cccFrame (d.ibiTurn on intr) := (h.set _ (by decide)).ite h

theorem dynAssign (h : c.cccFrame d) (dyn : Nat) : c.cccFrame (d.dynAssign dyn) :=
  ((h.set _ (by decide)).set _ (by decide)).set _ (by decide)

theorem dynClear (h : c.cccFrame d) : c.cccFrame d.dynClear :=
  ((((h.set _ (by decide)).set _ (by decide)).set _ (by decide)).set _ (by decide)).set _ (by decide)

theorem setLimit {g : Fld} (h : c.cccFrame d) (n : Nat) (hg : g ∈ cccSettings) : c.cccFrame (d.setLimit g n) := (h.set n hg).ite h

theorem rstAct {dst : CccDst} {action : Nat} : c.cccFrame (c.rstAct dst action) := by
  by_cases h : action ≤ 2
  · rw [Chip.rstAct_of_listed h]
    exact ccc fun hd => hd.arm _
  · cases dst with
    | broadcast => rw [Chip.rstAct_broadcast_of_unlisted (Nat.not_le.1 h)]; exact refl c
    | direct a => rw [Chip.rstAct_direct_of_unlisted (Nat.not_le.1 h)]; exact (refl c).nack
    | bad => rw [Chip.rstAct_bad]; exact (refl c).fault

end Chip.cccFrame

/-- The frame as O46 states it of a row's next state. -/
theorem exec_of_cccFrame (hi : exec i s = runAon f s) (hf : s.chip.quiet.cccFrame (f s.chip.quiet)) :
    ∃ t, exec i s = .next t ∧ t.pending = s.pending ∧
      t.chip = { s.chip.quiet with
        rf := t.chip.rf
        aon := { s.chip.aon with rstArm := t.chip.aon.rstArm, protoErr := t.chip.aon.protoErr }
        out := t.chip.out } ∧
      ∀ g : Fld, g.key ∉ cccSettings.map Fld.key → t.chip.get g = s.chip.get g := by
  obtain ⟨⟨rf, arm, err, out, hchip⟩, hget⟩ := hf
  refine ⟨s.after f, hi, rfl, ?_, hget⟩
  rw [State.after_chip, hchip]
  rfl

/-- Settles O46: each command is a composition of operations that keep to the frame. -/
theorem commonCommandsFrame : Obligations.CommonCommandsFrame := by
  intro s dst a b dyn on hot len act
  have hc := Chip.cccFrame.refl s.chip.quiet
  simp only [List.forall_mem_cons]
  refine ⟨?enec, ?disec, ?rstdaa, ?entdaa, ?setdasa, ?setnewda, ?setmwl, ?setmrl, ?getmwl, ?getmrl, ?getpid, ?getbcr, ?getdcr, ?getmxds,
    ?getstatus, ?rstact, List.forall_mem_nil _⟩
  case enec => exact exec_of_cccFrame (exec_enec ..) (.ccc fun h => h.ibiTurn true on)
  case disec => exact exec_of_cccFrame (exec_disec ..) (.ccc fun h => h.ibiTurn false on)
  case rstdaa => exact exec_of_cccFrame (exec_rstdaa s) (.ccc fun h => h.dynClear)
  case entdaa => exact exec_of_cccFrame (exec_entdaa ..) (.i3cTo fun a => (hc.dynAssign a).ack.ite hc)
  case setdasa => exact exec_of_cccFrame (exec_setdasa ..) (.i3cTo fun _ => hc.nack.ite (hc.direct (hc.dynAssign _).ack))
  case setnewda => exact exec_of_cccFrame (exec_setnewda ..) (.i3cTo fun _ => .ite (hc.direct (hc.set _ (by decide)).ack) hc.nack)
  case setmwl => exact exec_of_cccFrame (exec_setmwl ..) (.ccc fun h => h.setLimit _ (by decide))
  case setmrl => exact exec_of_cccFrame (exec_setmrl ..) (.ccc fun h => h.setLimit _ (by decide))
  case getmwl => exact exec_of_cccFrame (exec_getmwl ..) .reads
  case getmrl => exact exec_of_cccFrame (exec_getmrl ..) .reads
  case getpid => exact exec_of_cccFrame (exec_getpid ..) .reads
  case getbcr => exact exec_of_cccFrame (exec_getbcr ..) .reads
  case getdcr => exact exec_of_cccFrame (exec_getdcr ..) .reads
  case getmxds => exact exec_of_cccFrame (exec_getmxds ..) .reads
  case getstatus => exact exec_of_cccFrame (exec_getstatus ..) (.i3cTo fun _ => hc.direct ((hc.flag false).emit _))
  case rstact => exact exec_of_cccFrame (exec_rstact ..) .rstAct

end Sys2Proof.Machine
end

section
/-! PROOF. The commands of class 0x00 (O7): what each does from its slot. -/

namespace Sys2Proof.Machine

variable {c : Chip} {id : Nat} {pl : List Byte}

/-! ## Resets (R60, R74) -/

theorem cmdSysReset_run_of_device (h : pb pl 0 = 0) :
    cmdSysReset.run id pl c = Chip.ok id [] { c with ch := { c.ch with resetDue := true } } := if_pos h

theorem cmdSysReset_run_of_chanter (h : pb pl 0 = 1) :
    cmdSysReset.run id pl c = (c.setSlot id (fun (t : Slot) => { t with recorded := some (ST_OK, dtNone) })).restart := by
  have hnot : ¬pb pl 0 = 0 := by omega
  exact (if_neg hnot).trans (if_pos h)

theorem cmdSysReset_run_of_target (h : 2 ≤ pb pl 0) (hused : c.resetRetired (pb pl 0) (pf pl 2 2) = false) :
    cmdSysReset.run id pl c =
      let hit := (c.ch.slots.filter (fun t => t.id ≠ id && resetHits (pb pl 0) (pf pl 2 2) t)).map (fun t => t.id)
      ((c.interim id ST_ACCEPTED dtNone []).endAll hit ST_TARGET_RESET dtNone).targetReset (pb pl 0) (pf pl 2 2) := by
  have hdevice : ¬pb pl 0 = 0 := by omega
  have hchanter : ¬pb pl 0 = 1 := by omega
  exact (if_neg hdevice).trans ((if_neg hchanter).trans (if_neg (hused ▸ Bool.false_ne_true)))

/-! ## Aborts (R57) -/

/-- In a device whose next slot number is new, that number names the slot just taken. -/
theorem Chip.slotFor_slot? {k : Cmd} {p : Pkt} (hnew : c.slot? c.ch.nextId = none) :
    ((c.slotFor k p).slot? c.ch.nextId).map Slot.route = some p.route := by
  have hfind : c.ch.slots.find? (fun t => t.id = c.ch.nextId) = none := hnew
  simp [Chip.slotFor, Chip.takeSlot, Chip.slot?, List.find?_append, hfind]

/-- An abort names the oldest command of its route with the TAG: that one was accepted before the abort. -/
theorem cmdSysAbort_run_of_found {p : Pkt} {t : Slot} (hnew : c.slot? c.ch.nextId = none)
    (hown : c.isOwn (bits (pf p.payload 0 4) 27 16) = true)
    (hfound : c.ch.slots.find? (fun t => t.route = p.route && t.tag = pf p.payload 0 2) = some t) :
    cmdSysAbort.run c.ch.nextId p.payload (c.slotFor cmdSysAbort p) = (c.slotFor cmdSysAbort p).abortOf c.ch.nextId t := by
  have hroute := Chip.slotFor_slot? (k := cmdSysAbort) (p := p) hnew
  have hstill : (c.slotFor cmdSysAbort p).ch.slots.find? (fun t => some t.route = some p.route && t.tag = pf p.payload 0 2) = some t := by
    simp only [Option.some.injEq]
    exact List.find?_append.trans (by rw [hfound]; rfl)
  have hown' : (c.slotFor cmdSysAbort p).isOwn (bits (pf p.payload 0 4) 27 16) = true := hown
  show (c.slotFor cmdSysAbort p).abortStart c.ch.nextId p.payload = _
  rw [Chip.abortStart, hroute, if_pos hown', hstill]

/-! ## Events and the firmware update (R69, R76, R77) -/

theorem cmdSysEventRead_run_of_peek (h : (pf pl 0 4).testBit 16 = true) :
    cmdSysEventRead.run id pl c = c.finish id ST_OK (min 255 c.ch.events.length) ((c.ch.events.take (pf pl 0 2)).flatMap evBytes) := by
  show c.eventRead id pl = _
  rw [Chip.eventRead, h]
  rfl

theorem cmdSysEventRead_run_of_take (h : (pf pl 0 4).testBit 16 = false) :
    cmdSysEventRead.run id pl c =
      let e := Chip.evqOverflow { c with ch := { c.ch with events := c.ch.events.drop (pf pl 0 2) } }
      e.finish id ST_OK (min 255 e.ch.events.length) ((c.ch.events.take (pf pl 0 2)).flatMap evBytes) := by
  show c.eventRead id pl = _
  rw [Chip.eventRead, h]
  rfl

/-- An interim reply leaves what the checks of a commit look at. -/
theorem Chip.interim_fwRefusal (id status detail : Nat) (pl : List Byte) (whole : Bool) (img : List Byte) (c : Chip) :
    (c.interim id status detail pl).fwRefusal whole img = c.fwRefusal whole img := by
  have hcfg : (c.interim id status detail pl).cfg = c.cfg := by
    unfold Chip.interim
    split
    · rfl
    · exact Chip.cfg_of_aside (c.sendReply_aside ..)
  rw [Chip.fwRefusal, hcfg, Chip.fwRefusal]

section
variable {f : FwSession} (hf : c.ch.fw = some f)
include hf

theorem cmdSysFwData_run_of_session (hfits : pf pl 0 4 + (pl.length - 8) ≤ f.len) :
    cmdSysFwData.run id pl c = Chip.ok id [] { c with ch := { c.ch with
      fw := some { f with
        data := memWrite (pf pl 0 4) (pl.drop 8) f.data
        done := f.done ++ [(pf pl 0 4, pl.length - 8)] } } } := by
  show c.fwData id pl = _
  rw [Chip.fwData, hf]
  exact if_neg (Nat.not_lt.2 hfits)

/-- A commit with a session sends its interim reply, and then its checks decide. -/
theorem cmdSysFwCommit_run_of_session :
    cmdSysFwCommit.run id pl c =
      let e := Chip.interim id ST_ACCEPTED dtNone [] { c with ch := { c.ch with fw := none } }
      match c.fwRefusal f.whole (memRead 0 f.len f.data) with
      | none => (e.setSlot id (fun (t : Slot) => { t with noStop := true })).recWrite 0 (memRead 0 f.len f.data) (some f.copy)
          (.fwCommit id f.copy)
      | some r => e.fail id r.1 r.2 := by
  have hchecks := Chip.interim_fwRefusal id ST_ACCEPTED dtNone [] f.whole (memRead 0 f.len f.data)
    { c with ch := { c.ch with fw := none } }
  have hsame : ({ c with ch := { c.ch with fw := none } } : Chip).fwRefusal f.whole (memRead 0 f.len f.data) =
      c.fwRefusal f.whole (memRead 0 f.len f.data) := rfl
  show c.fwCommit id = _
  rw [Chip.fwCommit, hf]
  dsimp only
  rw [hchecks, hsame]
  cases c.fwRefusal f.whole (memRead 0 f.len f.data) with
  | none => rfl
  | some r => rfl

end

section
variable (hf : c.ch.fw = none)
include hf

theorem cmdSysFwData_run_of_noSession : cmdSysFwData.run id pl c = c.fail id ST_BAD_STATE dtNoSession := by
  show c.fwData id pl = _
  rw [Chip.fwData, hf]

theorem cmdSysFwCommit_run_of_noSession : cmdSysFwCommit.run id pl c = c.fail id ST_BAD_STATE dtNoSession := by
  show c.fwCommit id = _
  rw [Chip.fwCommit, hf]

end

/-- Settles O7: the packet is accepted, so the command starts in its slot, and its start is what the row says. -/
theorem systemCommandRows : Obligations.SystemCommandRows := by
  intro s p
  refine ⟨?nop, ?identify, ?status, ?peek, ?poke, ?device, ?chanter, ?target, ?abort, ?eventPeek, ?eventTake, ?mask, ?notice, ?fwInfo,
    ?fwBegin, ?fwData, ?fwDataNone, ?fwCommitNone, ?fwCommit⟩
  case nop => exact fun h => exec_eq_of_accepts (exec_chSysNop p s) h rfl
  case identify => exact fun h => exec_eq_of_accepts (exec_chSysIdentify p s) h rfl
  case status => exact fun h => exec_eq_of_accepts (exec_chSysStatus p s) h rfl
  case peek => exact fun h => exec_eq_of_accepts (exec_chSysPeek p s) h rfl
  case poke => exact fun h => exec_eq_of_accepts (exec_chSysPoke p s) h rfl
  case device => exact fun h hkind => exec_eq_of_accepts (exec_chSysReset p s) h (cmdSysReset_run_of_device hkind)
  case chanter => exact fun h hkind => exec_eq_of_accepts (exec_chSysReset p s) h (cmdSysReset_run_of_chanter hkind)
  case target =>
    exact fun h hkind hused => exec_eq_of_accepts (exec_chSysReset p s) h
      (cmdSysReset_run_of_target (c := s.chip.quiet.slotFor cmdSysReset p) hkind hused)
  case abort =>
    exact fun t h hnew hown hfound => exec_eq_of_accepts (exec_chSysAbort p s) h
      (cmdSysAbort_run_of_found (c := s.chip.quiet) hnew hown hfound)
  case eventPeek => exact fun h hbit => exec_eq_of_accepts (exec_chSysEventRead p s) h (cmdSysEventRead_run_of_peek hbit)
  case eventTake => exact fun h hbit => exec_eq_of_accepts (exec_chSysEventRead p s) h (cmdSysEventRead_run_of_take hbit)
  case mask => exact fun h => exec_eq_of_accepts (exec_chSysEventMask p s) h rfl
  case notice => exact fun h => exec_eq_of_accepts (exec_chSysNotice p s) h rfl
  case fwInfo => exact fun h => exec_eq_of_accepts (exec_chSysFwInfo p s) h rfl
  case fwBegin => exact fun h => exec_eq_of_accepts (exec_chSysFwBegin p s) h rfl
  case fwData =>
    exact fun f h hf hfits => exec_eq_of_accepts (exec_chSysFwData p s) h
      (cmdSysFwData_run_of_session (c := s.chip.quiet.slotFor cmdSysFwData p) hf hfits)
  case fwDataNone =>
    exact fun h hf => exec_eq_of_accepts (exec_chSysFwData p s) h
      (cmdSysFwData_run_of_noSession (c := s.chip.quiet.slotFor cmdSysFwData p) hf)
  case fwCommitNone =>
    exact fun h hf => exec_eq_of_accepts (exec_chSysFwCommit p s) h
      (cmdSysFwCommit_run_of_noSession (c := s.chip.quiet.slotFor cmdSysFwCommit p) hf)
  case fwCommit =>
    exact fun f h hf => exec_eq_of_accepts (exec_chSysFwCommit p s) h
      (cmdSysFwCommit_run_of_session (c := s.chip.quiet.slotFor cmdSysFwCommit p) hf)

end Sys2Proof.Machine
end

section
/-! PROOF. The events of Chanter and of the forwarding of packets (O8). -/

namespace Sys2Proof.Machine

variable {c : Chip} {src : Nat} {b : List Byte}

/-! ## Chanter's restart, its reset and the end of a commit (R58, R60, R77) -/

theorem Chip.awake_of_chanterUp (h : c.chanterUp = true) : c.awake = true := by
  simp only [Chip.chanterUp, Bool.and_eq_true] at h
  exact h.1.1

theorem Chip.watchdogBite_of_up (h : c.chanterUp = true) :
    c.watchdogBite = Chip.restart { c with ch := { c.ch with watchdog := true } } := if_pos h

theorem Chip.restartDone_of_ready (hrestart : c.ch.restarting = true)
    (hready : c.ch.slots.any (fun t => t.running && t.noStop && t.recorded.isNone) = false) :
    c.restartDone =
      (Chip.forAll (c.ch.slots.filter (fun t => !t.ended)) Chip.restartEnd
        { c with ch := { c.ch with restarting := false, watchdog := false } }).raiseIf c.ch.watchdog EV_SYS_FW_WATCHDOG c.ch.fwVersion := by
  rw [Chip.restartDone, hrestart, hready]
  rfl

theorem Chip.resetEffect_of_due (hdue : c.ch.resetDue = true) (h : c.awake = true) :
    c.resetEffect = c.tie.warmClear.enterBoot 0x03 :=
  (if_pos hdue).trans (Chip.warmReset_of_awake (c.tie_awake.trans h))

theorem Chip.commitDone_of_due {id copy : Nat} {due : List (Nat × Nat)} (h : c.ch.commitDue = (id, copy) :: due) :
    c.commitDone =
      let d : Chip := { c with ch := { c.ch with commitDue := due } }
      let img := (d.recBank 0 copy).getD []
      let act := ((d.slot? id).map (fun t => decide (pf t.payload 0 4 = 1))).getD false
      let e := (d.raise EV_SYS_FW_UPDATED (copy + Config.fwVersion img % 2 ^ 24 * 2 ^ 8)).ok id []
      if e.dstate = stRecovery then e.enterBoot 0x07
      else if act then
        Chip.restart { e with ch := { e.ch with
          copy := copy, fwVersion := Config.fwVersion img % 2 ^ 32, fwSvn := Config.fwSvn img % 256 } }
      else e := by
  unfold Chip.commitDone
  rw [h]

/-! ## Packets over Windway (R66 to R68) -/

theorem Chip.awake_of_takesPackets (h : c.takesPackets = true) : c.awake = true := by
  simp only [Chip.takesPackets, Bool.and_eq_true] at h
  exact h.1.1.1

theorem Chip.wwPacket_of_bridge (htakes : c.takesPackets = true) (hroot : c.is F.WW_ID_ROOT = true) (hgo : c.ww.gaveUp = false) :
    c.wwPacket src true b = c.rawPacket .bridge false b := by
  rw [Chip.wwPacket, htakes, hroot, hgo]
  rfl

theorem Chip.wwPacket_of_foreign (htakes : c.takesPackets = true) (hsrc : src ≠ 0) :
    c.wwPacket src false b = (c.inc F.CH_CNT_B_FWD_LATE).raise EV_SYS_FOREIGN_PACKET src := by
  rw [Chip.wwPacket, if_neg Bool.false_ne_true, if_pos (.inl hsrc), if_pos htakes]

/-- A packet of the root, whose checks the root has made. -/
theorem Chip.wwPacket_of_root (htakes : c.takesPackets = true) (hroot : c.is F.WW_ID_ROOT = false) :
    c.wwPacket 0 false b =
      c.takePacket (commandOf (pb b 0) (pb b 1)) .root (pb b 0) (pb b 1) (pf b 2 2) (pb b 6) (pf b 8 2) ((b.drop 16).take (pf b 4 2)) := by
  have hhost : ¬((0 : Nat) ≠ 0 ∨ c.is F.WW_ID_ROOT = true) := by simp [hroot]
  rw [Chip.wwPacket, if_neg Bool.false_ne_true, if_neg hhost, if_pos htakes]

/-! ## Replies to what was forwarded (R67, R68) -/

section
variable (hroot : c.is F.WW_ID_ROOT = true) (htag : pf b 2 2 ≠ 0xFFFF)
include hroot htag

/-- The final reply frees its forwarding entry. -/
theorem Chip.fwdReply_of_final {e : Fwd} (hfound : c.ch.fwd.find? (fun e => e.dest = src && e.tag = pf b 2 2) = some e)
    (haccepted : pb b 6 ≠ ST_ACCEPTED) (hdeferred : pb b 6 ≠ ST_DEFERRED) :
    c.fwdReply src b = Chip.sendReply e.route none false b { c with ch := { c.ch with fwd := c.ch.fwd.erase e } } := by
  rw [Chip.fwdReply, hroot, Bool.not_true, if_neg Bool.false_ne_true, if_neg htag, hfound]
  dsimp only
  rw [if_pos ⟨haccepted, hdeferred⟩]

theorem Chip.fwdReply_of_unknown (hnone : c.ch.fwd.find? (fun e => e.dest = src && e.tag = pf b 2 2) = none) :
    c.fwdReply src b = (c.inc F.CH_CNT_B_FWD_LATE).raise EV_SYS_FWD_LATE (src + pf b 2 2 * 2 ^ 16) := by
  rw [Chip.fwdReply, hroot, Bool.not_true, if_neg Bool.false_ne_true, if_neg htag, hnone]

end

theorem Chip.fwdLapse_of_found {dest tag : Nat} {e : Fwd}
    (h : c.ch.fwd.find? (fun e => e.dest = dest && e.tag = tag && !e.replied) = some e) :
    c.fwdLapse dest tag = c.fwdEnd (fun x => x = e) ST_TIMEOUT dtFwdNoReply := by
  rw [Chip.fwdLapse, h]

/-- Settles O8: each event runs one function of Chanter, and its equation under the clause's premises gives the row. -/
theorem chanterEventRows : Obligations.ChanterEventRows := by
  intro s
  refine ⟨?watchdog, ?restart, ?reset, ?commit, ?bridge, ?foreign, ?root, ?reply, ?late, ?timeout⟩
  case watchdog =>
    exact fun hup => exec_eq_of_runChip (exec_fwWatchdog s) (Chip.awake_of_chanterUp hup)
      (Chip.watchdogBite_of_up (c := s.chip.quiet) hup)
  case restart =>
    exact fun hs hrestart hready => exec_eq_of_runChip (exec_chanterRestartDone s) hs
      (Chip.restartDone_of_ready (c := s.chip.quiet) hrestart hready)
  case reset =>
    exact fun hs hdue => exec_eq_of_runChip (exec_sysResetTakesEffect s) hs (Chip.resetEffect_of_due (c := s.chip.quiet) hdue hs)
  case commit =>
    exact fun id copy due hs hdue => exec_eq_of_runChip (exec_fwCommitDone s) hs (Chip.commitDone_of_due (c := s.chip.quiet) hdue)
  case bridge =>
    exact fun bytes htakes hroot hgo => exec_eq_of_runChip (exec_wwChanterPacket ..) (Chip.awake_of_takesPackets htakes)
      (Chip.wwPacket_of_bridge (c := s.chip.quiet) htakes hroot hgo)
  case foreign =>
    intro src bytes htakes hsrc
    have hother : src.toNat ≠ 0 := fun h => hsrc (BitVec.eq_of_toNat_eq h)
    exact exec_eq_of_runChip (exec_wwChanterPacket ..) (Chip.awake_of_takesPackets htakes)
      (Chip.wwPacket_of_foreign (c := s.chip.quiet) htakes hother)
  case root =>
    exact fun bytes htakes hroot => exec_eq_of_runChip (exec_wwChanterPacket ..) (Chip.awake_of_takesPackets htakes)
      (Chip.wwPacket_of_root (c := s.chip.quiet) htakes hroot)
  case reply =>
    exact fun src bytes e hs hroot htag hfound haccepted hdeferred => exec_eq_of_runChip (exec_fwdReplyArrival ..) hs
      (Chip.fwdReply_of_final (c := s.chip.quiet) hroot htag hfound haccepted hdeferred)
  case late =>
    exact fun src bytes hs hroot htag hnone => exec_eq_of_runChip (exec_fwdReplyArrival ..) hs
      (Chip.fwdReply_of_unknown (c := s.chip.quiet) hroot htag hnone)
  case timeout =>
    exact fun dest tag e hs hfound => exec_eq_of_runChip (exec_fwdTimeout ..) hs
      (Chip.fwdLapse_of_found (c := s.chip.quiet) hfound)

end Sys2Proof.Machine
end

section
/-! PROOF. A step with an empty queue, and the order in which Chanter starts what waits (O41). -/

namespace Sys2Proof.Machine

variable {c : Chip} {s : State} {k : Slot}

/-! ## A tick (log entries 4 and 5) -/

theorem step_of_empty (hq : s.pending = []) (hs : s.chip.awake = true) {u : Chip → Chip} (h : s.chip.quiet.tickAll = u s.chip.quiet) :
    step s = .next (s.after u) := by
  rw [step_nil s hq, idle_eq, runChip_awake s _ hs, State.after, State.after, h]

theorem Chip.startNext_of_down (h : c.chanterUp = false) : c.startNext = c := by
  rw [Chip.startNext, h]
  rfl

theorem Chip.startNext_of_none (hup : c.chanterUp = true) (h : c.startable = []) :
    c.startNext = { c with ch := { c.ch with busy := false } } := by
  rw [Chip.startNext, hup, h]
  rfl

/-- Whether Chanter is occupied after this tick is a free value. -/
def Chip.tossBusy (c : Chip) : Chip := { c with ch := { c.ch with busy := decide (c.freeVal % 2 = 1) }, freeCtr := c.freeCtr + 1 }

theorem Chip.startNext_of_busy (hup : c.chanterUp = true) (h : c.startable ≠ []) (hbusy : c.ch.busy = true) :
    c.startNext = c.tossBusy := by
  obtain ⟨k, l, hl⟩ := List.exists_cons_of_ne_nil h
  rw [Chip.startNext, hup, hl, hbusy]
  rfl

theorem Chip.startNext_of_free (hup : c.chanterUp = true) (h : c.startable ≠ []) (hbusy : c.ch.busy = false) :
    ∃ k ∈ c.startable, c.startNext = c.tossBusy.startSlot k := by
  obtain ⟨k, l, hl⟩ := List.exists_cons_of_ne_nil h
  have hlt : c.freeVal / 2 % (l.length + 1) < (k :: l).length := Nat.mod_lt _ l.length.succ_pos
  have hmem : (k :: l)[c.freeVal / 2 % (l.length + 1)] ∈ c.startable := by
    rw [hl]
    exact List.getElem_mem hlt
  refine ⟨_, hmem, ?_⟩
  rw [Chip.startNext, hup, hl, hbusy]
  dsimp only
  rw [List.getElem?_eq_getElem hlt]
  rfl

/-! ## What may start (R54) -/

/-- The oldest of a class among those that satisfy `p` stands before every other such one in the list of slots. -/
theorem oldest_of_find? {l : List Slot} {p : Slot → Bool} (h : (l.filter p).find? (fun t => t.cls = k.cls) = some k) :
    p k = true ∧ ∃ xs ys, l = xs ++ k :: ys ∧ ∀ u ∈ xs, p u = true → u.cls ≠ k.cls := by
  rw [List.find?_filter, List.find?_eq_some_iff_append] at h
  obtain ⟨hk, xs, ys, hl, hbefore⟩ := h
  simp only [decide_eq_true_eq, Bool.not_eq_true', decide_eq_false_iff_not, not_and] at hk hbefore
  exact ⟨hk.1, xs, ys, hl, hbefore⟩

/-- Where no urgent command waits, the oldest of its class may start. -/
theorem Chip.startable_of_calm (h : (c.ch.slots.filter Slot.waits).filter (fun t => t.flags.testBit 0) = []) :
    c.startable = (c.ch.slots.filter Slot.waits).filter
      (fun t => (c.ch.slots.filter Slot.waits).find? (fun u => u.cls = t.cls) = some t) := by
  rw [Chip.startable, if_pos h]

/-- Where urgent commands wait, the oldest urgent one of its class may start. -/
theorem Chip.startable_of_urgent (h : (c.ch.slots.filter Slot.waits).filter (fun t => t.flags.testBit 0) ≠ []) :
    c.startable = ((c.ch.slots.filter Slot.waits).filter (fun t => t.flags.testBit 0)).filter
      (fun t => ((c.ch.slots.filter Slot.waits).filter (fun t => t.flags.testBit 0)).find? (fun u => u.cls = t.cls) = some t) := by
  rw [Chip.startable, if_neg h]

theorem Chip.mem_startable (h : k ∈ c.startable) :
    k ∈ c.ch.slots ∧ k.waits = true ∧
      (k.flags.testBit 0 = false → ∀ u ∈ c.ch.slots, u.waits = true → u.flags.testBit 0 = false) ∧
      ∃ xs ys, c.ch.slots = xs ++ k :: ys ∧ ∀ u ∈ xs, u.waits = true → u.flags.testBit 0 = k.flags.testBit 0 → u.cls ≠ k.cls := by
  by_cases hcalm : (c.ch.slots.filter Slot.waits).filter (fun t => t.flags.testBit 0) = []
  · rw [Chip.startable_of_calm hcalm, List.mem_filter, List.mem_filter, decide_eq_true_eq] at h
    obtain ⟨⟨hmem, hwaits⟩, hfirst⟩ := h
    obtain ⟨-, xs, ys, hl, hbefore⟩ := oldest_of_find? hfirst
    have hnone : ∀ u ∈ c.ch.slots, u.waits = true → u.flags.testBit 0 = false := fun u hu hw =>
      Bool.eq_false_iff.2 (List.filter_eq_nil_iff.1 hcalm u (List.mem_filter.2 ⟨hu, hw⟩))
    exact ⟨hmem, hwaits, fun _ => hnone, xs, ys, hl, fun u hu hw _ => hbefore u hu hw⟩
  · rw [Chip.startable_of_urgent hcalm, List.mem_filter, List.mem_filter, List.mem_filter, decide_eq_true_eq] at h
    obtain ⟨⟨⟨hmem, hwaits⟩, hurgent⟩, hfirst⟩ := h
    rw [List.filter_filter] at hfirst
    obtain ⟨-, xs, ys, hl, hbefore⟩ := oldest_of_find? hfirst
    refine ⟨hmem, hwaits, fun hnot => absurd hurgent (Bool.eq_false_iff.1 hnot), xs, ys, hl, fun u hu hw hflag => hbefore u hu ?_⟩
    rw [hflag, hurgent, hw, Bool.and_self]

/-- A packet that is accepted while Chanter is occupied, or behind commands that must start before it, waits in its slot. -/
theorem Chip.command_of_waiting {k : Cmd} {p : Pkt} (htakes : c.takesPackets = true) (hlen : p.payload.length ≤ 4096)
    (hmwl : p.route = .i3c → packetLen p.payload.length ≤ c.get F.I3C_STAT_MWL)
    (hway : c.wayOf p.route p.tag.toNat p.dest.toNat (p.flags.toNat.testBit 2) = .run)
    (hchecks : c.cmdRefusal k p.flags.toNat p.payload = none) (hlater : c.startsNow k.cls p.flags.toNat = false) :
    Chip.command k p c = c.takeSlot false p.route k.cls k.op p.tag.toNat p.flags.toNat p.dest.toNat p.payload := by
  have hfits : ¬(p.route = .i3c ∧ c.get F.I3C_STAT_MWL < packetLen p.payload.length) := fun ⟨hi3c, hlong⟩ =>
    Nat.not_le.2 hlong (hmwl hi3c)
  rw [Chip.command, htakes, if_neg (by decide), if_neg (Nat.not_lt.2 hlen), if_neg hfits, Chip.takePacket, hway]
  dsimp only
  rw [Chip.runCmd, hchecks]
  exact if_neg (hlater ▸ Bool.false_ne_true)

/-- Settles O41: a tick starts what may start and counts the time base, and an accepted packet that may not start waits. -/
theorem emptyQueueTicks : Obligations.EmptyQueueTicks := by
  refine ⟨fun s hq => ⟨?none, ?free, ?busy, ?down, ?asleep⟩, fun _ h => if_pos h, fun c h => if_neg (h ▸ Bool.false_ne_true),
    fun _ _ => Chip.mem_startable, fun _ _ _ => Chip.command_of_waiting⟩
  case none =>
    exact fun hs hup hnone => step_of_empty hq hs (congrArg Chip.tick (Chip.startNext_of_none (c := s.chip.quiet) hup hnone))
  case free =>
    intro hs hup hsome hbusy
    obtain ⟨k, hk, hstart⟩ := Chip.startNext_of_free (c := s.chip.quiet) hup hsome hbusy
    exact ⟨k, hk, step_of_empty hq hs (congrArg Chip.tick hstart)⟩
  case busy =>
    exact fun hs hup hsome hbusy =>
      step_of_empty hq hs (congrArg Chip.tick (Chip.startNext_of_busy (c := s.chip.quiet) hup hsome hbusy))
  case down => exact fun hs hdown => step_of_empty hq hs (congrArg Chip.tick (Chip.startNext_of_down (c := s.chip.quiet) hdown))
  case asleep =>
    intro hs
    rw [step_nil s hq, idle_eq, runChip_asleep s _ hs]

end Sys2Proof.Machine
end

section
/-! PROOF. CRC-32C (O49): the model's reflected CRC is the polynomial's division on the bit-reversed input. -/

namespace Sys2Proof.Machine

/-! ## The polynomial's own definition (R46) -/

/-- One bit of the division by the polynomial, most significant bit first. -/
def polyShift (r : BitVec 32) : BitVec 32 := if r.msb then (r <<< 1) ^^^ 0x1EDC6F41#32 else r <<< 1

/-- One byte of the input, its least significant bit first. -/
def polyByte (r : BitVec 32) (b : Byte) : BitVec 32 :=
  (List.range 8).foldl (fun r _ => polyShift r) (r ^^^ (b.reverse.setWidth 32 <<< 24))

/-! ## Reversed bits -/

theorem reverse_xor (r t : BitVec 32) : (r ^^^ t).reverse = r.reverse ^^^ t.reverse := by
  ext i hi
  simp [BitVec.getElem_reverse]

theorem reverse_shiftLeft_one (r : BitVec 32) : (r <<< 1).reverse = r.reverse >>> 1 := by
  ext i hi
  simp [BitVec.getElem_reverse, BitVec.getLsbD_reverse, Nat.add_comm]

theorem reverse_input (b : Byte) : (b.reverse.setWidth 32 <<< 24).reverse = b.setWidth 32 := by
  ext i hi
  simp only [BitVec.getElem_reverse, BitVec.getMsbD_eq_getLsbD, BitVec.getLsbD_shiftLeft, BitVec.getLsbD_setWidth,
    BitVec.getElem_setWidth, BitVec.getLsbD_reverse]
  by_cases h : i < 8
  · have hbit : 8 - 1 - (32 - 1 - i - 24) = i := by omega
    have hin : ¬32 - 1 - i < 24 ∧ 32 - 1 - i < 32 ∧ 32 - 1 - i - 24 < 32 ∧ 32 - 1 - i - 24 < 8 := by omega
    simp only [hin, hbit, hi, decide_true, decide_false, Bool.not_false, Bool.true_and]
  · have hout : 32 - 1 - i < 24 := by omega
    simp [hout, BitVec.getLsbD_of_ge b i (by omega)]

theorem reverse_polynomial : (0x1EDC6F41#32).reverse = 0x82F63B78#32 := by decide +kernel

/-- One bit of the reflected CRC is one bit of the division, reversed. -/
theorem crcBit_reverse (r : BitVec 32) : crcBit r.reverse.toNat = (polyShift r).reverse.toNat := by
  have hodd : r.reverse.toNat % 2 = 1 ↔ r.msb = true := by
    rw [BitVec.msb_eq_getMsbD_zero, ← BitVec.getLsbD_reverse, BitVec.getLsbD, Nat.testBit_zero, decide_eq_true_eq]
  have hhalf : (r <<< 1).reverse.toNat = r.reverse.toNat / 2 := by
    rw [reverse_shiftLeft_one, BitVec.toNat_ushiftRight, Nat.shiftRight_one]
  unfold crcBit polyShift
  by_cases h : r.msb = true
  · rw [if_pos (hodd.2 h), if_pos h, reverse_xor, BitVec.toNat_xor, hhalf, reverse_polynomial]
    rfl
  · rw [if_neg (mt hodd.1 h), if_neg h, hhalf]

theorem crcByte_reverse (r : BitVec 32) (b : Byte) : crcByte r.reverse.toNat b = (polyByte r b).reverse.toNat := by
  have hin : r.reverse.toNat ^^^ b.toNat = (r ^^^ (b.reverse.setWidth 32 <<< 24)).reverse.toNat := by
    rw [reverse_xor, reverse_input, BitVec.toNat_xor, BitVec.toNat_setWidth, Nat.mod_eq_of_lt (Nat.lt_trans b.isLt (by decide))]
  unfold crcByte
  rw [hin]
  simp only [crcBit_reverse]
  rfl

theorem foldl_crcByte_reverse (bs : List Byte) (r : BitVec 32) :
    bs.foldl crcByte r.reverse.toNat = (bs.foldl polyByte r).reverse.toNat := by
  induction bs generalizing r with
  | nil => rfl
  | cons b bs ih => rw [List.foldl_cons, List.foldl_cons, crcByte_reverse, ih]

theorem crc32c_eq_poly (bs : List Byte) : crc32c bs = ((bs.foldl polyByte 0xFFFFFFFF#32).reverse ^^^ 0xFFFFFFFF#32).toNat := by
  have hinit : (0xFFFFFFFF#32).reverse.toNat = 0xFFFFFFFF := by decide +kernel
  have hfold := foldl_crcByte_reverse bs 0xFFFFFFFF#32
  rw [hinit] at hfold
  rw [crc32c, hfold, BitVec.toNat_xor]
  rfl

theorem crc32c_lt (bs : List Byte) : crc32c bs < 2 ^ 32 := by
  rw [crc32c_eq_poly]
  exact BitVec.isLt _

/-! ## Where a packet carries it (Table 2.5) -/

/-- The first twelve bytes of a reply, which its header CRC covers. -/
def replyHead (cls op tag len status detail src depth : Nat) : List Byte :=
  natLe 1 cls ++ natLe 1 op ++ natLe 2 tag ++ natLe 2 len ++ natLe 1 status ++ natLe 1 detail ++ natLe 2 src ++ natLe 2 depth

theorem replyHead_length (cls op tag len status detail src depth : Nat) :
    (replyHead cls op tag len status detail src depth).length = 12 := rfl

/-- The payload and its CRC, where there is a payload. -/
def replyBody (pl : List Byte) : List Byte := if pl = [] then [] else pl ++ natLe 4 (crc32c pl)

theorem replyBytes_eq (cls op tag status detail src depth : Nat) (pl : List Byte) :
    replyBytes cls op tag status detail src depth pl =
      replyHead cls op tag pl.length status detail src depth ++
        (natLe 4 (crc32c (replyHead cls op tag pl.length status detail src depth)) ++ replyBody pl) :=
  List.append_assoc ..

theorem replyBytes_drop (cls op tag status detail src depth : Nat) (pl : List Byte) :
    (replyBytes cls op tag status detail src depth pl).drop 16 = replyBody pl := by
  rw [replyBytes_eq, ← List.append_assoc]
  exact List.drop_left' (by rw [List.length_append, replyHead_length, natLe_length])

theorem replyBody_drop (pl : List Byte) : (replyBody pl).drop pl.length = if pl = [] then [] else natLe 4 (crc32c pl) := by
  unfold replyBody
  split
  · exact List.drop_nil
  · exact List.drop_left

theorem replyBytes_drop_payload (cls op tag status detail src depth : Nat) (pl : List Byte) :
    (replyBytes cls op tag status detail src depth pl).drop (16 + pl.length) = if pl = [] then [] else natLe 4 (crc32c pl) := by
  rw [← List.drop_drop, replyBytes_drop, replyBody_drop]

/-- Settles O49: bit by bit the reflected CRC is the reversed division, and a reply ends with its payload's CRC. -/
theorem crcIsCrc32c : Obligations.CrcIsCrc32c :=
  ⟨crc32c_eq_poly, by decide +kernel, fun cls op tag status detail src depth pl hpl =>
    (replyBytes_drop_payload cls op tag status detail src depth pl).trans (if_neg hpl)⟩

end Sys2Proof.Machine
end

section
/-! PROOF. What a full event queue loses (O59). -/

namespace Sys2Proof.Machine

variable {c : Chip} {e : Ev} {es : List Ev}

/-! ## The entry that a full queue loses (R62) -/

theorem foldl_min_le (es : List Ev) (m : Nat) :
    es.foldl (fun m x => min m x.sev) m ≤ m ∧ ∀ x ∈ es, es.foldl (fun m x => min m x.sev) m ≤ x.sev := by
  induction es generalizing m with
  | nil => exact ⟨Nat.le_refl m, List.forall_mem_nil _⟩
  | cons e es ih =>
    obtain ⟨hstart, hrest⟩ := ih (min m e.sev)
    exact ⟨Nat.le_trans hstart (Nat.min_le_left ..),
      List.forall_mem_cons.2 ⟨Nat.le_trans hstart (Nat.min_le_right ..), hrest⟩⟩

theorem minSev_le {x : Ev} (h : x ∈ es) : minSev es ≤ x.sev := by
  cases es with
  | nil => cases h
  | cons e es => exact (List.forall_mem_cons (p := fun x => minSev (e :: es) ≤ x.sev)).2 (foldl_min_le es e.sev) x h

/-- The entry removed is the oldest of its severity. -/
theorem dropSev_split {m : Nat} (h : ∃ x ∈ es, x.sev = m) :
    ∃ xs y ys, es = xs ++ y :: ys ∧ y.sev = m ∧ (∀ x ∈ xs, x.sev ≠ m) ∧ dropSev m es = xs ++ ys := by
  induction es with
  | nil => obtain ⟨_, hx, _⟩ := h; cases hx
  | cons e es ih =>
    by_cases he : e.sev = m
    · exact ⟨[], e, es, rfl, he, List.forall_mem_nil _, if_pos he⟩
    · have hrest : ∃ x ∈ es, x.sev = m := by simpa [he] using h
      obtain ⟨xs, y, ys, hes, hy, hxs, hdrop⟩ := ih hrest
      refine ⟨e :: xs, y, ys, by rw [hes]; rfl, hy, List.forall_mem_cons.2 ⟨he, hxs⟩, ?_⟩
      rw [dropSev, if_neg he, hdrop]
      rfl

theorem dropSev_subset (m : Nat) (es : List Ev) : dropSev m es ⊆ es := by
  induction es with
  | nil => exact List.Subset.refl _
  | cons e es ih =>
    unfold dropSev
    split
    · exact List.subset_cons_self ..
    · exact List.cons_subset_cons e ih

/-! ## The queue takes an event (R61, R62) -/

theorem Chip.evqPut_of_room (h : c.ch.events.length < 256) : c.evqPut e = { c with ch := { c.ch with events := c.ch.events ++ [e] } } :=
  if_pos h

section
variable (hfull : c.ch.events.length = 256)
include hfull

theorem Chip.evqPut_of_worthy (h : minSev c.ch.events ≤ e.sev) :
    c.evqPut e = Chip.inc (lostFld (minSev c.ch.events))
      { c with ch := { c.ch with events := dropSev (minSev c.ch.events) c.ch.events ++ [e], lossRun := c.ch.lossRun + 1 } } :=
  (if_neg (by omega)).trans (if_pos h)

theorem Chip.evqPut_of_unworthy (h : e.sev < minSev c.ch.events) :
    c.evqPut e = Chip.inc (lostFld e.sev) { c with ch := { c.ch with lossRun := c.ch.lossRun + 1 } } :=
  (if_neg (by omega)).trans (if_neg (Nat.not_le.2 h))

theorem Chip.evqPut_lossRun : (c.evqPut e).ch.lossRun = c.ch.lossRun + 1 := by
  rcases Nat.lt_or_ge e.sev (minSev c.ch.events) with h | h
  · rw [Chip.evqPut_of_unworthy hfull h]; rfl
  · rw [Chip.evqPut_of_worthy hfull h]; rfl

end

/-- Settles O59: the lowest severity of a full queue is that of one of its entries, and the oldest such entry is dropped. -/
theorem eventQueueLoss : Obligations.EventQueueLoss := by
  refine ⟨fun c e hroom => ?_, fun c e hfull _ _ => ⟨Chip.evqPut_lossRun hfull, minSev c.ch.events, ?_, fun _ => minSev_le, ?_, ?_⟩,
    fun c cause => c.enterBoot_events cause⟩
  · rw [Chip.evqPut_of_room hroom]
    exact ⟨rfl, rfl⟩
  all_goals
    have hlowest : ∃ x ∈ c.ch.events, x.sev = minSev c.ch.events :=
      minSev_mem fun h => by simp [h] at hfull
  · exact hlowest
  · intro hworthy
    obtain ⟨xs, y, ys, hes, hy, hxs, hdrop⟩ := dropSev_split hlowest
    rw [Chip.evqPut_of_worthy hfull hworthy, Chip.inc]
    refine ⟨⟨xs, y, ys, hes, hy, hxs, ?_⟩, Chip.get_addSat_same ..⟩
    rw [← hdrop]
    rfl
  · intro hunworthy
    rw [Chip.evqPut_of_unworthy hfull hunworthy, Chip.inc]
    exact ⟨rfl, Chip.get_addSat_same ..⟩

end Sys2Proof.Machine
end

section
/-! PROOF. The layout of a reply, and what a command's final reply is composed of (O53). -/

namespace Sys2Proof.Machine

variable {c : Chip} {id st dt : Nat} {pl : List Byte} {k : Slot}

/-! ## Fields of a byte string (R3) -/

/-- A field behind another one. -/
theorem bytesAt_skip {n off m v : Nat} (ys : List Byte) (h : n ≤ off) : bytesAt (natLe n v ++ ys) off m = bytesAt ys (off - n) m := by
  rw [bytesAt, bytesAt, List.drop_append, natLe_length, List.drop_of_length_le (by rwa [natLe_length]), List.nil_append]

/-- The field in front. -/
theorem bytesAt_head {n v : Nat} (ys : List Byte) (h : v < 256 ^ n) : bytesAt (natLe n v ++ ys) 0 n = v := by
  rw [bytesAt, List.drop_zero, List.take_left' (natLe_length n v), leNat_natLe, Nat.mod_eq_of_lt h]

/-- The fields of a reply in their order. -/
theorem replyBytes_fields (cls op tag status detail src depth : Nat) (pl : List Byte) :
    replyBytes cls op tag status detail src depth pl =
      natLe 1 cls ++ (natLe 1 op ++ (natLe 2 tag ++ (natLe 2 pl.length ++ (natLe 1 status ++ (natLe 1 detail ++ (natLe 2 src ++
        (natLe 2 depth ++ (natLe 4 (crc32c (replyHead cls op tag pl.length status detail src depth)) ++ replyBody pl)))))))) := by
  simp only [replyBytes_eq, replyHead, List.append_assoc]

theorem replyBytes_take (cls op tag status detail src depth : Nat) (pl : List Byte) :
    (replyBytes cls op tag status detail src depth pl).take 12 = replyHead cls op tag pl.length status detail src depth := by
  rw [replyBytes_eq]
  exact List.take_left' (replyHead_length ..)

theorem replyBody_take (pl : List Byte) : (replyBody pl).take pl.length = pl := by
  unfold replyBody
  split
  · next h => rw [h]; rfl
  · exact List.take_left

/-! ## What an event leaves of replies and outputs (R43, R61, R69) -/

theorem Chip.evqPut_replies (e : Ev) (c : Chip) : (c.evqPut e).ch.replies = c.ch.replies := by
  unfold Chip.evqPut
  split
  · rfl
  · dsimp only
    split <;> rfl

theorem Chip.raiseIf_replies (b : Bool) (e : Nat × Nat) (arg : Nat) (c : Chip) : (c.raiseIf b e arg).ch.replies = c.ch.replies := by
  unfold Chip.raiseIf
  split
  · rw [Chip.raise_ch, Chip.evqPut_replies]
  · rfl

theorem Chip.notice_out (kind : Nat) (c : Chip) : c.out <+: (c.notice kind).out := by
  unfold Chip.notice
  split
  · exact List.prefix_rfl
  · split <;> exact List.prefix_append ..

/-- An interrupt of no ERROR or FATAL event waits behind what was sent. -/
theorem ibiInsert_of_minor {b : Nat} (h : b < 0xC0) (os : List Out) : ibiInsert b os = os ++ [.ibi b] := by
  induction os with
  | nil => rfl
  | cons o os ih => rw [ibiInsert, if_neg fun hmajor => Nat.not_le.2 h hmajor.1, ih]; rfl

theorem Chip.requestEventIbi_out (h : c.eventIbiByte < 0xC0) : c.out <+: c.requestEventIbi.out := by
  unfold Chip.requestEventIbi
  extract_lets d
  have hd : c.out <+: d.out := by
    unfold d
    split
    · rw [Chip.emitIbi, ibiInsert_of_minor h]
      exact List.prefix_append ..
    · exact List.prefix_rfl
  split
  · exact hd.trans (d.notice_out 2)
  · exact hd

theorem Chip.eventIbiByte_of_minor (h : ∀ x ∈ c.openEvents, x.sev < 2) : c.eventIbiByte < 0xC0 := by
  have hnone : c.openEvents.find? (fun e => decide (2 ≤ e.sev)) = none :=
    List.find?_eq_none.2 fun x hx => by simpa using h x hx
  rw [Chip.eventIbiByte, hnone]
  cases c.openEvents.head? with
  | none => decide
  | some e =>
    show 0x80 + e.code / 256 % 16 < 0xC0
    omega

theorem Chip.mem_evqPut {e x : Ev} (h : x ∈ (c.evqPut e).ch.events) : x ∈ c.ch.events ∨ x = e := by
  have hput : (c.evqPut e).ch.events ⊆ c.ch.events ++ [e] := by
    unfold Chip.evqPut
    split
    · exact List.Subset.refl _
    · dsimp only
      split
      · exact List.append_subset.2 ⟨fun _ hx => List.mem_append_left _ (dropSev_subset _ _ hx), List.subset_append_right ..⟩
      · exact List.subset_append_left ..
  simpa using hput h

/-- Unmasked events of a queue that takes an event are those from before and the new one. -/
theorem Chip.mem_openEvents_put {e x : Ev} (h : x ∈ ((c.evqPut e).evLogPut e).openEvents) : x ∈ c.openEvents ∨ x = e := by
  have hmask : ((c.evqPut e).evLogPut e).get F.EVQ_MASK_MASK = c.get F.EVQ_MASK_MASK :=
    Chip.get_of_besideEvents ((Chip.evLogPut_besideEvents e).trans (Chip.evqPut_besideEvents e)) (by decide)
  rw [Chip.openEvents, List.mem_filter, Chip.evLogPut_ch, Chip.evOpen, hmask] at h
  exact (Chip.mem_evqPut h.1).imp_left fun hx => List.mem_filter.2 ⟨hx, h.2⟩

theorem Chip.evLogPut_out (e : Ev) (c : Chip) : (c.evLogPut e).out = c.out := by
  obtain ⟨rf, nvs, h⟩ := Chip.evLogPut_eq e c
  rw [h]

theorem Chip.evqPut_out (e : Ev) (c : Chip) : (c.evqPut e).out = c.out := by
  obtain ⟨rf, ch, h⟩ := Chip.evqPut_eq e c
  rw [h]

/-- An INFO or WARN event sends after what was sent: where its interrupt is due, no other event is open. -/
theorem Chip.raiseIf_out (b : Bool) {e : Nat × Nat} (arg : Nat) (c : Chip) (he : e.2 < 2) : c.out <+: (c.raiseIf b e arg).out := by
  unfold Chip.raiseIf
  split
  · unfold Chip.raise Chip.raiseAt
    extract_lets ev n
    have hout : ((c.evqPut ev).evLogPut ev).out = c.out := (Chip.evLogPut_out ..).trans (Chip.evqPut_out ..)
    rw [← hout]
    unfold Chip.ibiIfRisen
    split
    · next hrisen =>
      have hnone : c.openEvents = [] := List.length_eq_zero_iff.1 hrisen.1
      refine Chip.requestEventIbi_out (Chip.eventIbiByte_of_minor fun x hx => ?_)
      rcases Chip.mem_openEvents_put hx with hx | rfl
      · rw [hnone] at hx
        cases hx
      · exact he
    · exact List.prefix_rfl
  · exact List.prefix_rfl

/-! ## The final reply (R49, R53) -/

/-- The bytes of the final reply of the command in a slot. -/
def Chip.finalReply (c : Chip) (k : Slot) (st dt : Nat) (pl : List Byte) : List Byte :=
  replyBytes (k.cls ||| 0x80) k.op k.tag st dt c.srcId (c.ch.slots.length - 1) pl

section
variable (hk : c.slot? id = some k) (hopen : k.ended = false) (hup : c.ch.restarting = false)
include hk hopen hup

/-- The reply goes on the command's route, its slot ends or is free, and the end is an event where the command asked for one. -/
theorem Chip.finish1_of_open :
    c.finish1 id st dt pl =
      let d := c.sendReply k.route (some id) false (c.finalReply k st dt pl)
      let e := if k.route = .i3c then d.setSlot id (fun t => { t with ended := true }) else d.freeSlot id
      e.raiseIf (k.flags.testBit 1) EV_SYS_CMD_DONE (k.tag + st * 0x10000 + k.cls * 0x1000000) := by
  rw [Chip.finish1, hk]
  simp only [hopen, hup, Bool.false_eq_true, if_false]
  rfl

theorem Chip.finish1_replies_of_i3c (hroute : k.route = .i3c) :
    (c.finish1 id st dt pl).ch.replies =
      c.ch.replies ++ [{ slot := some id, refusal := false, bytes := c.finalReply k st dt pl, sent := 0 }] := by
  rw [Chip.finish1_of_open hk hopen hup, hroute]
  dsimp only
  rw [Chip.raiseIf_replies, if_pos rfl]
  unfold Chip.sendReply
  dsimp only
  split <;> rfl

theorem Chip.finish1_out_of_windway (hroute : k.route ≠ .i3c) :
    ∃ more, (c.finish1 id st dt pl).out = c.out ++ .wwReply k.route (c.finalReply k st dt pl) :: more := by
  have hsend : c.sendReply k.route (some id) false (c.finalReply k st dt pl) = c.emit (.wwReply k.route (c.finalReply k st dt pl)) := by
    unfold Chip.sendReply
    split
    · next h => exact absurd h hroute
    · rfl
  rw [Chip.finish1_of_open hk hopen hup]
  dsimp only
  rw [hsend, if_neg hroute]
  obtain ⟨more, hmore⟩ := Chip.raiseIf_out (e := EV_SYS_CMD_DONE) (k.flags.testBit 1) (k.tag + st * 0x10000 + k.cls * 0x1000000)
    ((c.emit (.wwReply k.route (c.finalReply k st dt pl))).freeSlot id) (by decide)
  exact ⟨more, hmore.symm.trans (List.append_assoc ..)⟩

end

/-- Settles O53: each field stands behind the fields before it, and the final reply goes on its command's route. -/
theorem replyLayout : Obligations.ReplyLayout := by
  refine ⟨fun cls op tag status detail src depth pl hcls hop htag hstatus hdetail hsrc hdepth hlen => ?_, fun c id status detail pl k hk
    hopen hup => ⟨Chip.finish1_replies_of_i3c hk hopen hup, Chip.finish1_out_of_windway hk hopen hup⟩⟩
  · have hcrc := crc32c_lt (replyHead cls op tag pl.length status detail src depth)
    refine ⟨?_, ?_, ?_, ?_, ?_, ?_, ?_, ?_, ?_, ?_, replyBytes_drop_payload ..⟩
    case refine_10 => rw [replyBytes_drop, replyBody_take]
    case refine_9 =>
      rw [replyBytes_take, replyBytes_fields, pf]
      simp (disch := omega) only [bytesAt_skip, bytesAt_head, Nat.reduceSub]
    all_goals
      rw [replyBytes_fields]
      simp (disch := omega) only [pb, pf, bytesAt_skip, bytesAt_head, Nat.reduceSub]

end Sys2Proof.Machine
end

section
/-! PROOF. The frame of the reading commands (O48). -/

namespace Sys2Proof.Machine

variable {c d t : Chip} {s : State} {k : Cmd} {p : Pkt} {i : Instr}

/-- `d` is `c` but for Chanter's own state, the event log's buffer, registers, the count of free values and outputs. -/
def Chip.Replies (c d : Chip) : Prop :=
  d = { c with rf := d.rf, ch := d.ch, nvs := { c.nvs with logBuf := d.nvs.logBuf }, freeCtr := d.freeCtr, out := d.out }

namespace Chip.Replies

theorem refl (c : Chip) : c.Replies c := rfl

theorem trans (hd : c.Replies d) (ht : d.Replies t) : c.Replies t := by
  unfold Chip.Replies at hd ht ⊢
  rw [hd] at ht
  exact ht

theorem ite {q : Prop} [Decidable q] (hd : c.Replies d) (ht : c.Replies t) : c.Replies (if q then d else t) := by
  split
  · exact hd
  · exact ht

theorem forAll {α : Type} (l : List α) {f : α → Chip → Chip} (hf : ∀ a (c : Chip), c.Replies (f a c)) (c : Chip) :
    c.Replies (c.forAll l f) := by
  induction l generalizing c with
  | nil => exact refl c
  | cons a l ih => exact (hf a c).trans (ih (f a c))

/-! ## Events (R43, R61, R422) -/

theorem evqPut (e : Ev) (c : Chip) : c.Replies (c.evqPut e) := by
  obtain ⟨rf, ch, h⟩ := Chip.evqPut_eq e c
  rw [h]
  rfl

theorem evLogPut (e : Ev) (c : Chip) : c.Replies (c.evLogPut e) := .ite (.ite rfl rfl) rfl

theorem raise (e : Nat × Nat) (arg : Nat) (c : Chip) : c.Replies (c.raise e arg) := by
  unfold Chip.raise Chip.raiseAt
  extract_lets ev n
  obtain ⟨out, hout⟩ := Chip.ibiIfRisen_eq n ((c.evqPut ev).evLogPut ev)
  rw [hout]
  exact ((evqPut ev c).trans (evLogPut ev _)).trans rfl

theorem raiseIf (b : Bool) (e : Nat × Nat) (arg : Nat) (c : Chip) : c.Replies (c.raiseIf b e arg) := .ite (raise e arg c) (refl c)

/-! ## Replies and refusals (R48, R49, R57) -/

theorem sendReply (route : Route) (slot : Option Nat) (refusal : Bool) (bytes : List Byte) (c : Chip) :
    c.Replies (c.sendReply route slot refusal bytes) := by
  cases route with
  | i3c => exact .ite rfl rfl
  | _ => rfl

theorem finish1 (id st dt : Nat) (pl : List Byte) (c : Chip) : c.Replies (c.finish1 id st dt pl) := by
  unfold Chip.finish1
  split
  · exact refl c
  · next k _ =>
    have hslot (d : Chip) : d.Replies (if k.route = .i3c then d.setSlot id (fun t => { t with ended := true }) else d.freeSlot id) :=
      .ite rfl rfl
    exact .ite (refl c) (.ite (.ite rfl (refl c)) (((sendReply ..).trans (hslot _)).trans (raiseIf ..)))

theorem finish (id st dt : Nat) (pl : List Byte) (c : Chip) : c.Replies (c.finish id st dt pl) :=
  (finish1 ..).trans (forAll _ (fun _ _ => finish1 ..) _)

theorem ok (id : Nat) (pl : List Byte) (c : Chip) : c.Replies (c.ok id pl) := finish ..

theorem fail (id st dt : Nat) (c : Chip) : c.Replies (c.fail id st dt) := finish ..

theorem refuse (route : Route) (cls op tag st dt : Nat) (c : Chip) : c.Replies (c.refuse route cls op tag st dt) :=
  (Chip.Replies.ite (q := st = ST_BUSY) (d := c.inc F.CH_CNT_B_BUSY_REFUSALS) rfl (refl c)).trans (sendReply ..)

/-! ## Acceptance (R47, R53, R67) -/

theorem takeSlot (started : Bool) (route : Route) (cls op tag flags dest : Nat) (pl : List Byte) (c : Chip) :
    c.Replies (c.takeSlot started route cls op tag flags dest pl) := rfl

theorem forwardPkt (route : Route) (cls op tag flags dest : Nat) (pl : List Byte) (c : Chip) :
    c.Replies (c.forwardPkt route cls op tag flags dest pl) := .ite rfl (refuse ..)

/-- A packet, accepted or refused, leaves what its command's start leaves. -/
theorem command (hk : ∀ id pl (c : Chip), c.Replies (k.run id pl c)) (c : Chip) : c.Replies (Chip.command k p c) := by
  refine .ite (.ite rfl (refl c)) (.ite (refuse ..) (.ite (refuse ..) ?_))
  unfold Chip.takePacket
  split
  · exact refuse ..
  · exact forwardPkt ..
  · unfold Chip.runCmd
    dsimp only
    split
    · exact refuse ..
    · exact .ite ((takeSlot ..).trans (hk ..)) (takeSlot ..)

end Chip.Replies

/-! ## The reading commands -/

/-- A command that names a region in service ends with its reply, and of another region with a refusal. -/
theorem cmdSpStatus_run_replies (id : Nat) (pl : List Byte) (c : Chip) : c.Replies (cmdSpStatus.run id pl c) := by
  simp only [cmdSpStatus, Cmd.plain]
  split
  · exact .fail ..
  · exact .ok ..

theorem cmdSpColmapRead_run_replies (id : Nat) (pl : List Byte) (c : Chip) : c.Replies (cmdSpColmapRead.run id pl c) := by
  simp only [cmdSpColmapRead, Cmd.plain]
  split
  · exact .fail ..
  · exact .ok ..

theorem exec_of_replies (hi : exec i s = runAon (Chip.command k p) s) (hk : ∀ id pl (c : Chip), c.Replies (k.run id pl c)) :
    ∃ t, exec i s = .next t ∧ t.pending = s.pending ∧ s.chip.quiet.Replies t.chip :=
  ⟨_, hi, rfl, .command hk _⟩

/-- Settles O48: two commands may refuse a region; each of the others starts with its final reply. -/
theorem readingCommandsFrame : Obligations.ReadingCommandsFrame := by
  intro s p
  simp only [List.forall_mem_cons]
  refine ⟨?_, ?_, ?_, ?_, ?spStatus, ?spColmap, ?_, ?_, ?_, ?_, ?_, ?_, ?_, ?_, ?_, ?_, ?_, ?_, ?_, ?_, ?_, ?_, List.forall_mem_nil _⟩
  case spStatus => exact exec_of_replies (exec_chSpStatus p s) cmdSpStatus_run_replies
  case spColmap => exact exec_of_replies (exec_chSpColmapRead p s) cmdSpColmapRead_run_replies
  all_goals exact exec_of_replies rfl fun _ _ _ => .ok ..

end Sys2Proof.Machine
end
